-- ==== Sys2Proof/Word.lean ====
section
/-! DEFINITION. The word types of the model. Registers are 32 bits wide (R6); memory is bytes. -/
namespace Sys2Proof

/-- A register word (R6). -/
abbrev Word := BitVec 32

/-- A byte of memory. -/
abbrev Byte := BitVec 8

end Sys2Proof
end

