-- ==== Sys2Proof/Syntax.lean ====
section
/-! DEFINITION. The commands of the block: one constructor per row of the table of operations and events, with the
operands that each needs. A command is a register access, an Aqken instruction of a named thread, a protocol operation,
or an event that the outside world or the passage of time brings; its operands carry what only the outside knows. -/
namespace Sys2Proof

/-- Who makes a register access (R5, R475): the host, a steward core, or the Watch. -/
inductive Who where
  | host
  | steward (core : Nat)
  | watch
  deriving DecidableEq, Repr

/-- An Aqken thread: a slot of a logical engine (EID 0–255, slot 0–3), a steward core (0–7), or the Watch (R96, R129). -/
inductive Thr where
  | eng (eid slot : Nat)
  | stw (core : Nat)
  | watch
  deriving DecidableEq, Repr

/-- Format A of R139, without OPC: predicate, negation, register fields, and the bits SB, SCL and MOD. -/
structure FmtA where
  pred : Nat
  neg : Bool
  d : Nat
  a : Nat
  b : Nat
  rc : Nat
  sb : Bool
  scl : Bool
  mod : Nat
  deriving DecidableEq, Repr

/-- Format I of R139. -/
structure FmtI where
  pred : Nat
  neg : Bool
  d : Nat
  a : Nat
  scl : Bool
  ik : Nat
  imm : Nat
  deriving DecidableEq, Repr

/-- Format M of R139; `off` holds the 24 bits of OFF. -/
structure FmtM where
  pred : Nat
  neg : Bool
  d : Nat
  a : Nat
  idx : Nat
  vi : Bool
  size : Nat
  sx : Bool
  scale : Nat
  scl : Bool
  aop : Nat
  off : Nat
  deriving DecidableEq, Repr

/-- Format B of R139; `disp` holds the 30 bits of DISP. -/
structure FmtB where
  pred : Nat
  neg : Bool
  d : Nat
  a : Nat
  all : Bool
  disp : Nat
  deriving DecidableEq, Repr

/-- Format X of R139 for SWEEP, SAMPLE and DHINT. -/
structure FmtX where
  pred : Nat
  neg : Bool
  d : Nat
  a : Nat
  b : Nat
  filt : Nat
  cam : Bool
  index : Nat
  pl : Nat
  deriving DecidableEq, Repr

/-- R82. Where the rays of a tile go in frame mode: the base and pitch of its back buffer, as the frame program names them. -/
structure TileTarget where
  tile : Nat
  base : Nat
  pitch : Nat
  deriving DecidableEq, Repr


/-- R23, R336, R360, R420. The clients of the fabric. -/
inductive Client where
  | composition | writeBack | camera | ispTable | backlight | panelDrive
  | steward | walk | context | health
  | rayEngine | tileDecoder | dma (engine ring : Nat)
  | packer | blitter | bar2 | gleaner | scrubber
  deriving DecidableEq, Repr

/-- R336. What the ECC check of a granule finds: nothing; a single-bit error on bit `lane` of its 64-bit word `word`; or an uncorrectable
error. -/
inductive Ecc where
  | clean
  | single (lane word : Nat)
  | double
  deriving DecidableEq, Repr

/-- R336. The kinds of outcome of an ECC check. -/
inductive EccKind where
  | clean | single | double
  deriving DecidableEq, Repr

/-- R336. Where a single-bit error lies: a bit of one of a granule's 64-bit words. -/
structure EccPlace where
  lane : Nat
  word : Nat
  deriving DecidableEq, Repr

/-- R324, R328. A pseudo-channel of a DRAM controller. -/
structure Chan where
  ctrl : Nat
  pc : Nat
  deriving DecidableEq, Repr

/-- R108, R154. The operands of a global atomic: its value, and for a compare-and-swap the value expected. -/
structure AtomArg where
  value : BitVec 64
  cmp : Option (BitVec 64)
  deriving DecidableEq, Repr

/-- R221. Where the next ALIGN column of a port goes: a column of the line that starts next. -/
structure AlignAt where
  tile : Nat
  column : Nat
  deriving DecidableEq, Repr

/-- R374, R392. What an Ethernet receiver finds: its link, its block lock, and a high error rate. -/
structure EthSeen where
  up : Bool
  lock : Bool
  hiBer : Bool
  deriving DecidableEq, Repr

/-- R108, R395. The PCIe link that has trained: its width, and whether the root port completes AtomicOp requests. -/
structure PcieSeen where
  width : Nat
  atomics : Bool
  deriving DecidableEq, Repr

/-- The commands of the block: one constructor per row of the table of operations and events. -/
inductive Instr where
  /-- REGISTER_WRITE (R5). A write to a register field that has no behaviour of its own is stored according to the field's type (RW, W1C, W1S, SH shadow or LK). -/
  | registerWrite (who : Who) (bar : Nat) (addr : Nat) (value : Nat)
  /-- RC_READ (R5). A read of an RC register returns its value and then clears it. -/
  | rcRead (who : Who) (bar : Nat) (addr : Nat)
  /-- BAR0_BAD_ACCESS (R6). A host BAR0 access that is not an aligned 32-bit word completes without effect and records an access error of kind SIZE. -/
  | bar0BadAccess (off : Nat) (write : Bool)
  /-- BAR_ATOMIC_REQUEST (R396). An AtomicOp request to any BAR completes as Unsupported Request and records an access error of kind ATOMIC. -/
  | barAtomicRequest (bar : Nat) (off : Nat)
  /-- BAR2_READ (R22). A host read through BAR2 returns device physical memory, or completes without effect with an access error of kind RANGE, CLOSED or POISON. -/
  | bar2Read (off : Nat) (n : Nat)
  /-- BAR2_WRITE (R22). A host write through BAR2 reaches device physical memory, or is discarded with an access error of kind RANGE or CLOSED. -/
  | bar2Write (off : Nat) (bytes : List (BitVec 8))
  /-- SNAP (R17). A write of 1 to a block's SNAPCTL.SNAP starts a latch of every snapshot copy of that block, unless a latch is already busy. -/
  | snap (block : Nat)
  /-- SNAPSHOT_LATCH_COMPLETE (R17). A snapshot latch completes: the copies are taken, BUSY clears and SEQ increments. -/
  | snapshotLatchComplete (block : Nat)
  /-- OPEN_STREAM (R29). The work-ring command OPEN_STREAM validates a stream header and opens the stream in a stream slot, or refuses it. -/
  | openStream (ring : Nat)
  /-- FRAME (R32). The work-ring command FRAME checks an RSF frame in order, resolves its REPEAT tiles and queues it for synthesis, or rejects it with a reason code. -/
  | frame (ring : Nat) (rdir : Nat)
  /-- CLOSE_STREAM (R404). The work-ring command CLOSE_STREAM completes the slot's earlier frames, closes the stream and invalidates its Caddy lines. -/
  | closeStream (ring : Nat)
  /-- BIND_RAYMAP (R62). The work-ring command BIND_RAYMAP checks every tile header, class plane and residual plane, then binds the ray map or refuses the binding. -/
  | bindRaymap (ring : Nat)
  /-- BADOP (R404). A work-ring entry whose OP is undefined completes with status BADOP. -/
  | badop (ring : Nat)
  /-- RISSUE (R161). The RISSUE instruction retires the thread's previous batch and deals up to 64 rays, with their target addresses, into eight registers. -/
  | rissue (t : Thr) (d : Nat) (p : Nat)
  /-- RMAP_FAULT (R66). A ray-map read by the ray issue unit fails; the affected rays are written as 0, and the fault is counted and reported. -/
  | rmapFault (hamlet : Nat)
  /-- ISSUE_WFAULT (R66). A word stored by the ray issue unit meets a translation fault or address error; the word is lost but the ray still counts as written. -/
  | issueWfault (hamlet : Nat)
  /-- TILE_BAND_COMPLETE (R65). A tile band becomes complete once its batches are retired and its stores have completed; the ready flag is set or the frame completes. -/
  | tileBandComplete (work : Nat) (tile : Nat) (band : Nat)
  /-- SWEEP (R75). The SWEEP instruction intersects each lane's ray with the plane list, composites front to back and writes RAY30 words. -/
  | sweep (t : Thr) (f : FmtX)
  /-- SAMPLE (R159). The SAMPLE instruction returns the filtered RGBA and hit depth of one plane or camera, without compositing. -/
  | sample (t : Thr) (f : FmtX)
  /-- DHINT (R160). The DHINT instruction requests the Caddy lines that SAMPLE would read, without stalling and without writing any register. -/
  | dhint (t : Thr) (f : FmtX)
  /-- FIRST_TOUCH (R72). The read of a whole payload at a hamlet's first touch completes; the decoder checks PCRC and the JXS markers and builds the slice or chunk index. -/
  | firstTouch (hamlet : Nat)
  /-- STRIP_DECODED (R72). The tile decoder completes a strip, fills the Caddy line and releases the threads waiting on it. -/
  | stripDecoded (hamlet : Nat) (which : Nat)
  /-- CADDY_INV_ALL (R71). A write of 1 to SYN_CADDY_INV.ALL starts the invalidation of every Caddy line once outstanding fills have completed. -/
  | caddyInvAll
  /-- CADDY_INV_STREAM (R71). A write of 1 to SYN_CADDY_INV.STREAM starts the invalidation of the Caddy lines of one stream slot. -/
  | caddyInvStream (slot : Nat)
  /-- CADDY_INV_COMPLETE (R71). A Caddy invalidation completes and INV_BUSY clears. -/
  | caddyInvComplete
  /-- DENSITY_RECORD (R91). After a frame's last band or commit, the frame program writes its density record and advances SYN_DLOG_HEAD. -/
  | densityRecord
  /-- IADD (R143). Integer add. -/
  | iadd (t : Thr) (f : FmtA)
  /-- ISUB (R143). Integer subtract. -/
  | isub (t : Thr) (f : FmtA)
  /-- IMUL (R143). Low half of an integer product. -/
  | imul (t : Thr) (f : FmtA)
  /-- IMULHI (R143). High half of a signed integer product. -/
  | imulhi (t : Thr) (f : FmtA)
  /-- UMULHI (R143). High half of an unsigned integer product. -/
  | umulhi (t : Thr) (f : FmtA)
  /-- IMAD (R143). Integer multiply-add, low half. -/
  | imad (t : Thr) (f : FmtA)
  /-- IMIN (R143). Signed minimum. -/
  | imin (t : Thr) (f : FmtA)
  /-- IMAX (R143). Signed maximum. -/
  | imax (t : Thr) (f : FmtA)
  /-- UMIN (R143). Unsigned minimum. -/
  | umin (t : Thr) (f : FmtA)
  /-- UMAX (R143). Unsigned maximum. -/
  | umax (t : Thr) (f : FmtA)
  /-- IABS (R143). Integer absolute value. -/
  | iabs (t : Thr) (f : FmtA)
  /-- AND (R143). Bitwise AND. -/
  | andOp (t : Thr) (f : FmtA)
  /-- OR (R143). Bitwise OR. -/
  | orOp (t : Thr) (f : FmtA)
  /-- XOR (R143). Bitwise XOR. -/
  | xorOp (t : Thr) (f : FmtA)
  /-- ANDN (R143). Bitwise AND with the complement of B. -/
  | andn (t : Thr) (f : FmtA)
  /-- SHL (R143). Shift left. -/
  | shl (t : Thr) (f : FmtA)
  /-- SHR (R143). Logical shift right. -/
  | shr (t : Thr) (f : FmtA)
  /-- SAR (R143). Arithmetic shift right. -/
  | sar (t : Thr) (f : FmtA)
  /-- POPC (R143). Population count. -/
  | popc (t : Thr) (f : FmtA)
  /-- CLZ (R143). Count leading zeros. -/
  | clz (t : Thr) (f : FmtA)
  /-- BFE (R143). Bit-field extract. -/
  | bfe (t : Thr) (f : FmtA)
  /-- BFI (R143). Bit-field insert. -/
  | bfi (t : Thr) (f : FmtA)
  /-- FADD (R144). fp32 add. -/
  | fadd (t : Thr) (f : FmtA)
  /-- FSUB (R144). fp32 subtract. -/
  | fsub (t : Thr) (f : FmtA)
  /-- FMUL (R144). fp32 multiply. -/
  | fmul (t : Thr) (f : FmtA)
  /-- FFMA (R144). fp32 fused multiply-add with one rounding. -/
  | ffma (t : Thr) (f : FmtA)
  /-- FMIN (R144). fp32 minimum. -/
  | fmin (t : Thr) (f : FmtA)
  /-- FMAX (R144). fp32 maximum. -/
  | fmax (t : Thr) (f : FmtA)
  /-- FABS (R144). Clear the fp32 sign bit. -/
  | fabs (t : Thr) (f : FmtA)
  /-- FNEG (R144). Invert the fp32 sign bit. -/
  | fneg (t : Thr) (f : FmtA)
  /-- HADD2 (R144). Packed fp16 add. -/
  | hadd2 (t : Thr) (f : FmtA)
  /-- HMUL2 (R144). Packed fp16 multiply. -/
  | hmul2 (t : Thr) (f : FmtA)
  /-- HFMA2 (R144). Packed fp16 fused multiply-add. -/
  | hfma2 (t : Thr) (f : FmtA)
  /-- HMIN2 (R144). Packed fp16 minimum. -/
  | hmin2 (t : Thr) (f : FmtA)
  /-- HMAX2 (R144). Packed fp16 maximum. -/
  | hmax2 (t : Thr) (f : FmtA)
  /-- FRCP (R144). Reciprocal approximation. -/
  | frcp (t : Thr) (f : FmtA)
  /-- FRSQ (R144). Reciprocal square root approximation. -/
  | frsq (t : Thr) (f : FmtA)
  /-- FSQRT (R144). Correctly rounded square root. -/
  | fsqrt (t : Thr) (f : FmtA)
  /-- FDIV (R144). Correctly rounded divide. -/
  | fdiv (t : Thr) (f : FmtA)
  /-- FEXP2 (R144). Base-2 exponential. -/
  | fexp2 (t : Thr) (f : FmtA)
  /-- FLOG2 (R144). Base-2 logarithm. -/
  | flog2 (t : Thr) (f : FmtA)
  /-- FSIN (R144). Sine of 2πA. -/
  | fsin (t : Thr) (f : FmtA)
  /-- FCOS (R144). Cosine of 2πA. -/
  | fcos (t : Thr) (f : FmtA)
  /-- F2I (R146). fp32 to saturating signed integer. -/
  | f2i (t : Thr) (f : FmtA)
  /-- F2U (R146). fp32 to saturating unsigned integer. -/
  | f2u (t : Thr) (f : FmtA)
  /-- I2F (R146). Signed integer to fp32. -/
  | i2f (t : Thr) (f : FmtA)
  /-- U2F (R146). Unsigned integer to fp32. -/
  | u2f (t : Thr) (f : FmtA)
  /-- F2H2 (R146). Pack two fp32 values as fp16. -/
  | f2h2 (t : Thr) (f : FmtA)
  /-- H2FL (R146). Low fp16 half to fp32. -/
  | h2fl (t : Thr) (f : FmtA)
  /-- H2FH (R146). High fp16 half to fp32. -/
  | h2fh (t : Thr) (f : FmtA)
  /-- F2UN10 (R146). fp32 to a 10-bit unorm code. -/
  | f2un10 (t : Thr) (f : FmtA)
  /-- PK30 (R146). Pack three components and the density tag into a RAY30 word. -/
  | pk30 (t : Thr) (f : FmtA)
  /-- ICMP (R147). Signed integer compare into a predicate. -/
  | icmp (t : Thr) (f : FmtA)
  /-- UCMP (R147). Unsigned integer compare into a predicate. -/
  | ucmp (t : Thr) (f : FmtA)
  /-- FCMP (R147). fp32 compare into a predicate. -/
  | fcmp (t : Thr) (f : FmtA)
  /-- PAND (R148). Predicate AND. -/
  | pand (t : Thr) (f : FmtA)
  /-- POR (R148). Predicate OR. -/
  | por (t : Thr) (f : FmtA)
  /-- PXOR (R148). Predicate XOR. -/
  | pxor (t : Thr) (f : FmtA)
  /-- PANDN (R148). Predicate AND with the complement of B. -/
  | pandn (t : Thr) (f : FmtA)
  /-- PCNT (R148). Count the set bits of a predicate. -/
  | pcnt (t : Thr) (f : FmtA)
  /-- PTOS (R148). Move a predicate to a scalar register. -/
  | ptos (t : Thr) (f : FmtA)
  /-- STOP (R148). Move a scalar register to a predicate. -/
  | stop (t : Thr) (f : FmtA)
  /-- MOV (R148). Register move or broadcast. -/
  | mov (t : Thr) (f : FmtA)
  /-- SEL (R148). Select between two sources by predicate. -/
  | sel (t : Thr) (f : FmtA)
  /-- LANERD (R148). Read one lane into a scalar register. -/
  | lanerd (t : Thr) (f : FmtA)
  /-- SHFL (R148). Shuffle between lanes. -/
  | shfl (t : Thr) (f : FmtA)
  /-- MOVI (R149). Move an immediate. -/
  | movi (t : Thr) (f : FmtI)
  /-- MOVHI (R149). Load an immediate into the high half of a scalar register. -/
  | movhi (t : Thr) (f : FmtI)
  /-- IADDI (R149). Add an immediate. -/
  | iaddi (t : Thr) (f : FmtI)
  /-- ANDI (R149). AND with an immediate. -/
  | andi (t : Thr) (f : FmtI)
  /-- ORI (R149). OR with an immediate. -/
  | ori (t : Thr) (f : FmtI)
  /-- XORI (R149). XOR with an immediate. -/
  | xori (t : Thr) (f : FmtI)
  /-- SHLI (R149). Shift left by an immediate. -/
  | shli (t : Thr) (f : FmtI)
  /-- SHRI (R149). Logical shift right by an immediate. -/
  | shri (t : Thr) (f : FmtI)
  /-- SARI (R149). Arithmetic shift right by an immediate. -/
  | sari (t : Thr) (f : FmtI)
  /-- LDL (R151). Local load. -/
  | ldl (t : Thr) (f : FmtM)
  /-- STL (R151). Local store. -/
  | stl (t : Thr) (f : FmtM)
  /-- LDG (R151). Global load. -/
  | ldg (t : Thr) (f : FmtM)
  /-- STG (R151). Global store. -/
  | stg (t : Thr) (f : FmtM)
  /-- LDC (R151). Constant load. -/
  | ldc (t : Thr) (f : FmtM)
  /-- ATL (R151). Local atomic of the selected AOP; the old value goes to D. -/
  | atl (t : Thr) (f : FmtM)
  /-- ATG (R151). Global atomic of the selected AOP, performed at the DRAM controller or at the PCIe endpoint. -/
  | atg (t : Thr) (f : FmtM)
  /-- CASL (R151). Local compare and swap. -/
  | casl (t : Thr) (f : FmtM)
  /-- CASG (R151). Global compare and swap. -/
  | casg (t : Thr) (f : FmtM)
  /-- GLOBAL_LOAD_RETURN (R111). Data of an outstanding global load or atomic returns and its destination register becomes ready. -/
  | globalLoadReturn (t : Thr) (which : Nat)
  /-- BR (R155). Relative branch. -/
  | branch (t : Thr) (f : FmtB)
  /-- BRX (R155). Branch to the address in a register. -/
  | brx (t : Thr) (f : FmtB)
  /-- CALL (R155). Relative call with a link register. -/
  | call (t : Thr) (f : FmtB)
  /-- CALLX (R155). Call to the address in a register, with a link register. -/
  | callx (t : Thr) (f : FmtB)
  /-- NOP (R163). No operation. -/
  | nop (t : Thr)
  /-- END (R163). The thread ends, discarding outstanding loads and releasing any BAR.E waiters. -/
  | endThread (t : Thr)
  /-- BREAK (R163). Raises a BREAK fault. -/
  | breakThread (t : Thr)
  /-- FENCE_L (R107). Orders local accesses against global accesses. -/
  | fenceL (t : Thr)
  /-- FENCE_G (R107). Waits until the thread's earlier global stores and atomics are complete. -/
  | fenceG (t : Thr)
  /-- FENCE_S (R107). As FENCE.G, and also waits until earlier host-window writes are accepted. -/
  | fenceS (t : Thr)
  /-- BAR_E (R112). Engine barrier: the thread waits until every thread of the engine has arrived. -/
  | barE (t : Thr)
  /-- BAR_H (R112). Hamlet barrier n: the thread waits until the given count of threads has arrived. -/
  | barH (t : Thr) (n : Nat) (count : Nat)
  /-- MOVSR (R163). Reads a special register into D. -/
  | movsr (t : Thr) (pred : Nat) (neg : Bool) (d : Nat) (selr : Nat) (v : Bool)
  /-- ILLEGAL_INSTRUCTION (R142). An illegal instruction word raises ILLEGAL with no effect. -/
  | illegalInstruction (t : Thr) (word : Nat)
  /-- LAUNCH (R114). The steward LAUNCH instruction checks a launch descriptor and queues the launch or refuses it, returning a handle. -/
  | launch (t : Thr) (d : Nat) (a : Nat)
  /-- PREEMPT (R121). The steward PREEMPT instruction forces the save of the named hamlets that meet the conditions. -/
  | preempt (t : Thr) (a : Nat)
  /-- RESTORE (R121). The steward RESTORE instruction restores the named saved hamlets. -/
  | restore (t : Thr) (a : Nat)
  /-- RESUME (R118). The steward RESUME instruction re-executes a suspended thread's faulting instruction, or applies to the saved state. -/
  | resumeThread (t : Thr) (a : Nat) (b : Nat)
  /-- KILL (R120). The steward KILL instruction ends a thread and zero-fills and retires its unretired batch. -/
  | kill (t : Thr) (a : Nat) (b : Nat)
  /-- ABORT (R164). The steward ABORT instruction kills every thread of a launch, abandons its DMA and completes it ABORTED. -/
  | abort (t : Thr) (a : Nat)
  /-- WAITEV (R131). The steward WAITEV instruction takes the next event from the core's event queue, waiting for one unless NB is set. -/
  | waitev (t : Thr) (d : Nat) (nb : Bool)
  /-- STEWARD_EVENT (R131). A source delivers an event into a steward core's event queue, or keeps it pending while the queue is full. -/
  | stewardEvent (core : Nat)
  /-- LAUNCH_START (R115). A queued launch starts on all its hamlets once they are free; the constant blocks are copied and the save map is loaded. -/
  | launchStart (handle : Nat) (tgt : List TileTarget)
  /-- LAUNCH_COMPLETE (R115). A launch completes: the completion record is written and a completion event is sent to the launching steward. -/
  | launchComplete (handle : Nat)
  /-- THREAD_FAULT (R116). A thread faults precisely and is suspended, and the fault event is sent to the launching steward. -/
  | threadFault (t : Thr) (cause : Nat) (lanes : BitVec 64) (addr : Nat)
  /-- STEWARD_FAULT (R132). A steward core faults, halts, sets STW_STAT.FAULT and raises an interrupt. -/
  | stewardFault (core : Nat)
  /-- HAMLET_SAVE (R123). The scheduler selects a hamlet for pre-emption; it stops, drains and writes its context to the save area. -/
  | hamletSave (hamlet : Nat)
  /-- SAVE_COMPLETE (R123). A hamlet save completes: the group header is written, PREEMPTS is counted, and the hamlet passes to the waiting launch. -/
  | saveComplete (hamlet : Nat)
  /-- HAMLET_RESTORE (R121). A saved hamlet that is free is restored for the highest-priority saved launch. -/
  | hamletRestore (hamlet : Nat)
  /-- ENGINE_ECC_ERROR (R101). A register-file or local-store ECC error is corrected and counted, or raises REG_UE or LS_UE. -/
  | engineEccError (hamlet : Nat) (phys : Nat) (store : Bool) (uncorrected : Bool) (slot : Nat)
  /-- ENGINE_SUBSTITUTION (R126). A failing engine stops and drains, and its logical engine moves to the spare, or is retired with the hamlet degraded. -/
  | engineSubstitution (hamlet : Nat) (logical : Nat)
  /-- SUBSTITUTION_COMPLETE (R126). The context move completes, and the spare runs on with the same logical engine number. -/
  | substitutionComplete (hamlet : Nat)
  /-- SPARE_BIST_PASS (R413). A spare engine's BIST pass completes; it becomes SPARE_OK, or the pass is repeated, or the engine is retired. -/
  | spareBistPass (hamlet : Nat) (ok : Bool)
  /-- DRAM_READ_REQUEST (R332). A read arrives at a controller, is compared with the write queue, and is forwarded, queued or made to wait for a hazard drain. -/
  | dramReadRequest (pa : Nat) (mask : BitVec 32) (client : Client)
  /-- DRAM_WRITE_REQUEST (R331). A write granule arrives, merges or takes a write-queue entry, and is acknowledged as complete. -/
  | dramWriteRequest (pa : Nat) (mask : BitVec 32) (bytes : List (BitVec 8)) (client : Client)
  /-- DRAM_ATOMIC (R333). A global atomic at the controller drains the granule's entries, reads it, computes the result and queues the new value. -/
  | dramAtomic (pa : Nat) (aop : Nat) (wide : Bool) (arg : AtomArg) (ecc : Ecc)
  /-- DRAM_COMMAND_ISSUE (R328). A pseudo-channel chooses its next command by refresh, urgency, drain state, class and age. -/
  | dramCommandIssue (chan : Chan) (ecc : Ecc)
  /-- DRAM_READ_DATA (R336). Read data returns from the DRAM and is ECC-checked, corrected or poisoned. -/
  | dramReadData (ctrl : Nat) (ecc : EccKind) (place : EccPlace)
  /-- REFRESH_DUE (R334). A per-bank refresh falls due at the interval that the stack temperature sets. -/
  | refreshDue (ctrl : Nat) (pc : Nat) (bank : Nat)
  /-- SCRUB_READ (R337). The patrol scrubber reads the next granule and corrects or poisons it. -/
  | scrubRead (ecc : EccKind) (place : EccPlace)
  /-- RETRAIN_DUE (R338). Periodic retraining of a channel falls due by time or temperature. -/
  | retrainDue (ctrl : Nat)
  /-- RETRAIN_SLOT (R338). A retraining slot of up to 128 ns runs after a per-bank refresh, unless an urgent ISO read waits. -/
  | retrainSlot (chan : Chan) (rd : Nat) (wr : Nat) (move : Int) (laneOk : Bool) (badSpare : Option Nat)
  /-- RETRAIN_NOW (R342). A write of 1 to MEM_RETRAIN.NOW makes retraining of every channel due. -/
  | retrainNow
  /-- MAP_LOCK (R326). A write of 1 to MEM_CTL.MAP_LOCK checks the hash masks and locks the mapping, or sets MAP_ERR. -/
  | mapLock
  /-- SPEED_GO (R339). A write of 1 to MEM_SPEED.GO requests a speed-point change, which is queued, replaced, cancelled or refused. -/
  | speedGo (req : Nat) (camWait : Bool)
  /-- SPEED_CHANGE_START (R339). A pending speed change starts at a suitable blanking and holds requests. -/
  | speedChangeStart
  /-- SPEED_CHANGE_DONE (R339). The speed change completes: requests flow again, SPEED changes and DONE is set. -/
  | speedChangeDone
  /-- SPEED_CHANGE_TIMEOUT (R339). No suitable blanking comes within 1 s, and the request is refused with NOWINDOW. -/
  | speedChangeTimeout
  /-- LANE_REPAIR (R341). A failing HBM data lane is remapped to its byte's spare in a refresh gap, or the channel is marked DEGRADED. -/
  | laneRepair (ctrl : Nat) (pc : Nat) (lane : Nat) (margin : Bool)
  /-- INITIAL_TRAINING_DONE (R340). Initial HBM training completes and TRAINED is set. -/
  | initialTrainingDone
  /-- TRANSLATION_REQUEST (R346). A client's virtual address is translated through the TLBs, or a page walk starts. -/
  | translationRequest (client : Nat) (ctx : Nat) (va : Nat) (acc : Nat)
  /-- WALK_COMPLETE (R349). A page walk completes, fills the caches unless invalidated, or yields a fault cause. -/
  | walkComplete (which : Nat)
  /-- TRANSLATION_FAULT (R355). A translation failure is written or coalesced into the fault ring, or dropped, and MMU_FAULT is raised. -/
  | translationFault (client : Nat) (id : Nat) (ctx : Nat) (va : Nat) (acc : Nat) (cls : Nat) (cause : Nat)
  /-- LOG_WINDOW_CLOSE (R422). The 1 ms coalescing window of an open log entry closes. -/
  | logWindowClose (which : Nat)
  /-- INVALIDATE (R352). A write of 1 to MMU_INV_A.GO queues an invalidation request of scope ALL, CTX or RANGE. -/
  | invalidate (port : Nat) (ctx : Nat) (scope : Nat)
  /-- INVALIDATION_DONE (R352). An invalidation request is done and DSEQ advances. -/
  | invalidationDone (port : Nat)
  /-- LOCK0 (R345). A write of 1 to MMU_CTL.LOCK0 locks context 0 against host writes until reset. -/
  | lock0
  /-- DMA_COPY (R362). A DMA COPY descriptor copies rows element by element. -/
  | dmaCopy (engine : Nat) (ring : Nat) (n : Nat)
  /-- DMA_FILL (R361). A DMA FILL descriptor fills rows with a 32-bit pattern. -/
  | dmaFill (engine : Nat) (ring : Nat) (n : Nat)
  /-- DMA_DESCRIPTOR_COMPLETE (R363). A DMA descriptor completes or halts; its record is written, HEAD advances and the doorbell rings. -/
  | dmaDescriptorComplete (engine : Nat) (ring : Nat)
  /-- DMA_RESUME (R364). A write of 1 to DMA_RCTL.RESUME continues a halted ring from the failing element. -/
  | dmaResume (engine : Nat) (ring : Nat)
  /-- DMA_SKIP (R364). A write of 1 to DMA_RCTL.SKIP abandons the halted descriptor with status SKIPPED. -/
  | dmaSkip (engine : Nat) (ring : Nat)
  /-- DMA_PAUSE (R364). A write to DMA_RCTL.PAUSE halts the ring at an element boundary, or lets it continue. -/
  | dmaPause (engine : Nat) (ring : Nat) (on : Bool)
  /-- PACK (R302). A packer PACK job compresses input into KPK chunks. -/
  | pack
  /-- UNPACK (R302). A packer UNPACK job checks and inflates KPK chunks. -/
  | unpack
  /-- PACKER_JOB_COMPLETE (R303). A packer job stops: its completion record is written and PKR_HEAD advances. -/
  | packerJobComplete
  /-- PACKER_PAUSE (R305). PKR_CTL.PAUSE or ENABLE halts the running job at a chunk boundary, or lets it continue. -/
  | packerPause (en : Bool) (hold : Bool)
  /-- BLT_FILL (R311). A blitter FILL record writes a value into every element of a rectangle. -/
  | bltFill (n : Nat)
  /-- BLT_COPY (R314). A blitter COPY record copies elements in the XNEG and YNEG order. -/
  | bltCopy (n : Nat)
  /-- BLT_CONVERT (R313). A blitter CONVERT record converts elements between formats. -/
  | bltConvert (n : Nat)
  /-- BLT_FENCE (R311). A blitter FENCE record writes the fence value after every earlier write is complete. -/
  | bltFence
  /-- BLT_WAIT (R311). A blitter WAIT record starts waiting for a scan-out line, or completes at once when scan-out is not running. -/
  | bltWait
  /-- BLT_WAIT_COMPLETE (R311). A waiting WAIT completes when the scan-out line number becomes LINE. -/
  | bltWaitComplete
  /-- BLT_WM (R317). A record's watermark rows are done and complete; BLT_WMSTAT is written and BLT_WM is raised. -/
  | bltWm
  /-- BLT_RECORD_COMPLETE (R309). A blitter record's writes complete and BLT_HEAD advances past it. -/
  | bltRecordComplete
  /-- BLT_RESUME (R320). A write of 1 to BLT_CTL.RESUME continues the halted record. -/
  | bltResume
  /-- BLT_SKIP (R320). A write of 1 to BLT_CTL.SKIP abandons the halted record. -/
  | bltSkip
  /-- BLT_PAUSE (R321). BLT_CTL.PAUSE or ENABLE halts or continues the record in progress. -/
  | bltPause (en : Bool) (hold : Bool)
  /-- COMMIT (R197). A write of 1 to SCO_COMMIT.COMMIT arms a commit, flags LATE_COMMIT when late, or is ignored when one is already armed. -/
  | commit
  /-- COMMIT_POINT (R198). At the commit point, the checks resolve, and every shadow copy takes effect at once, or the commit is refused. -/
  | commitPoint
  /-- SH_WRITE_DROP (R199). A write to SH fields while a commit is armed is discarded and counted in WR_DROP. -/
  | shWriteDrop (addr : Nat) (value : Nat)
  /-- FRAME_START (R189). A frame starts: FRAME_START blocks are sent, line counting restarts and the frame's information is sampled. -/
  | frameStart
  /-- SCANOUT_LINE (R176). A line boundary of the timing generator: the fetches for line k + 2 issue and line k is sent on the lanes. -/
  | scanoutLine (late : (List (Nat × Nat)))
  /-- WATERMARK_LINE (R83). Scan-out passes the watermark line of a band, and the watermark event is raised. -/
  | watermarkLine (tile : Nat)
  /-- VBLANK (R202). The start of vertical blanking: the signatures latch and the region updates, fences and write-back status are handled. -/
  | vblank
  /-- LAYER_FETCH_FAULT (R178). A layer, class-plane, residual, fence or write-back access faults, and the pipe answers with fallbacks and flags. -/
  | layerFetchFault (tile : Nat) (layer : Nat) (kind : Nat)
  /-- MAX_FRAME_REPEAT (R189). VTOTAL_MAX is reached with no ready content; the frame starts, scans the last content again and sets MAXED. -/
  | maxFrameRepeat
  /-- GENLOCK_EDGE (R193). A GENLOCK_IN edge is measured, qualifies the source, starts a frame or is skipped. -/
  | genlockEdge (falling : Bool)
  /-- FRAME_CLOCK_EDGE (R195). An edge of the PTP frame clock starts a frame or is skipped. -/
  | frameClockEdge
  /-- HOLDOVER_START (R193). No edge is seen in time, and the generator starts a frame from the prediction in holdover. -/
  | holdoverStart
  /-- SEQUENCER_FAULT (R204). A fault in sequencer A is detected; the ports send HOLD and switch-over to B begins. -/
  | sequencerFault
  /-- SWITCHOVER (R204). B takes control with the active state, or fails its start check with no sequencer left in control. -/
  | switchover (ok : Bool)
  /-- SEQUENCER_RETURN (R206). A, after passing its self-test, runs one frame in step with B and takes control at a FRAME_START, or fails to return. -/
  | sequencerReturn (same : Bool)
  /-- FORCE_B (R207). A write to SCO_SEQCTL.FORCE_B hands control to B, or back to A, by the in-step transfer. -/
  | forceB (force : Bool)
  /-- SCANOUT_ENABLE (R208). A write to SCO_CTL.ENABLE starts or stops frame generation. -/
  | scanoutEnable (en : Bool)
  /-- WAKE (R227). The lanes wake from electrical idle at EXIT_LEAD before the frame start, and send WAKE and ALIGN columns. -/
  | wake
  /-- ALIGN (R221). Every 16,384th column carries ALIGN on all lanes, and any due shadow change takes effect after it. -/
  | align (place : AlignAt)
  /-- BC_BLOCK_LOCK (R216). The back-channel receiver gains or loses block lock. -/
  | bcBlockLock (tile : Nat) (blocks : List (Nat × Nat))
  /-- BC_LOSS (R229). The back channel is out of lock for 1 ms; BC_LOSS is flagged, shadowing stops and retraining may follow. -/
  | bcLoss (tile : Nat)
  /-- LANE_STAT (R232). A LANE_STAT message is received, and the lane's errors and lock are judged against the failing rules. -/
  | laneStat (tile : Nat) (d : BitVec 48)
  /-- SHADOW (R230). A SHADOW message is received, and the mismatches are judged against the spare. -/
  | shadow (tile : Nat) (d : BitVec 48)
  /-- TILE_STATUS (R228). A TILE_STATUS message updates WYL_TSTAT or WYL_SRESP. -/
  | tileStatus (tile : Nat) (d : BitVec 48)
  /-- HOLD_ACK (R250). A HOLD_ACK message is received and judged for the hold write or the start-up comparison. -/
  | holdAck (tile : Nat) (d : BitVec 48)
  /-- SHADOW_ROTATION (R231). A shadow rotation falls due, and a LANE_MAP with AT = 0 announces the next lane. -/
  | shadowRotation (tile : Nat)
  /-- WYL_SUBSTITUTION (R233). A failing lane is shadowed, a LANE_MAP with AT = 1 is sent, and the new map takes effect at FRAME_START. -/
  | wylSubstitution (tile : Nat)
  /-- QUALIFICATION_END (R234). Qualification of the lane in the spare role ends: it becomes SPARE_OK or is retired. -/
  | qualificationEnd (tile : Nat)
  /-- SUB_REQ (R232). A write of 1 to WYL_PCTL.SUB_REQ marks the named lane as failing. -/
  | subReq (tile : Nat) (lane : Nat)
  /-- RETRAIN (R236). A write of 1 to WYL_PCTL.RETRAIN, or an automatic cause, puts the port into TRAIN. -/
  | retrain (tile : Nat)
  /-- PORT_UP (R236). A training port gains back-channel lock with all lanes locked and aligned, and enters UP. -/
  | portUp (tile : Nat)
  /-- PORT_TRAIN_TIMEOUT (R236). TRAIN does not reach UP within 10 ms, and the port is FAILED. -/
  | portTrainTimeout (tile : Nat)
  /-- PORT_TRAIN_RETRY (R236). A FAILED port retries TRAIN every 100 ms. -/
  | portTrainRetry (tile : Nat)
  /-- STATUS_REQ (R217). A write of 1 to WYL_SREQ.GO queues a STATUS_REQ block for the next blanking lines. -/
  | statusReq (tile : Nat) (req : Nat) (tag : Nat)
  /-- PNL_POWER_REQUEST (R239). A write to PNL_PWRREQ.ON asks the Watch to raise or lower the panel rails. -/
  | pnlPowerRequest (on : Bool) (holdFirst : Bool)
  /-- RAIL_STEP (R239). A rail delay D_n expires and the Watch raises or lowers the next rail enable. -/
  | railStep
  /-- PNL_PGOOD_RISE (R239). A rail's power-good rises, and the sequence moves on to the next rail or to ON. -/
  | pnlPgoodRise (rail : Nat)
  /-- RAIL_FAULT (R240). A power-good timeout or fall makes the Watch lower every rail and enter FAULT. -/
  | railFault (rail : Nat) (timeout : Bool)
  /-- HOLD_WRITE (R248). A write of 1 to PNL_HOLD.GO, or R241, starts a hold write with a HOLD_BEGIN record. -/
  | holdWrite
  /-- HOLD_BEGIN (R248). The HOLD_BEGIN record is written, and HOLD_WRITE BEGIN is sent in the next blanking. -/
  | holdBegin
  /-- HOLD_ACK_TIMEOUT (R248). ACK_TMO expires, and the hold write's results are decided, retried or recorded as HOLD_DONE. -/
  | holdAckTimeout
  /-- HOLD_FIRST_TIMEOUT (R241). 2 s pass during a hold-first power-down, and the Watch starts the descending sequence. -/
  | holdFirstTimeout
  /-- REGION_REQUEST (R243). A write of 1 to PNL_RQ_B.GO queues a region update, superseding covered ones, or refuses it. -/
  | regionRequest (y0 : Nat) (h : Nat) (tile : Nat) (x0g : Nat) (wg : Nat)
  /-- BKL_TRANSFER_COMPLETE (R259). A chain's settings transfer completes, and the received status is written and checked for lamp-out. -/
  | bklTransferComplete (chain : Nat) (status : List (List (BitVec 8)))
  /-- BKL_FREE_RUN_FRAME (R260). While scan-out is not running, the chain engine generates its own frames. -/
  | bklFreeRunFrame
  /-- DISCOVER (R261). A write of 1 to BKL_CTL.DISCOVER, or a chain enable, starts probing the chain length. -/
  | discover (chEn : Nat) (disc : Bool)
  /-- DISCOVERY_END (R261). The probe returns or times out, and FOUND, BROKEN and LEN_MISMATCH are set. -/
  | discoveryEnd (chain : Nat) (drivers : Option Nat)
  /-- CHAIN_REDISCOVER (R264). A failed chain is rediscovered every 1 s. -/
  | chainRediscover (chain : Nat)
  /-- LAMP_OUT (R266). The Watch forces BLANK on failed chains and runs the urgent group transfer. -/
  | lampOut (chain : Nat)
  /-- FRAME_START_PACKET (R272). A CSI-2 frame-start short packet opens a slot frame, samples its registers and chooses a buffer. -/
  | frameStartPacket (port : Nat) (lane0 : List Byte) (lanes : List (List Byte)) (corr : Bool)
  /-- FRAME_END_PACKET (R273). A CSI-2 frame-end short packet closes the slot's frame. -/
  | frameEndPacket (port : Nat) (lanes : List (List Byte)) (corr : Bool)
  /-- LONG_PACKET (R273). A CSI-2 long packet is taken as one line and is admitted to the ISP pipe or discarded. -/
  | longPacket (port : Nat) (lane0 lane1 lane2 lane3 : List Byte) (corr : Bool)
  /-- IGNORED_SHORT_PACKET (R270). A line start, line end or generic short packet is accepted and ignored. -/
  | ignoredShortPacket (port : Nat) (lanes : List (List Byte)) (corr : Bool)
  /-- HEADER_ECC_ERROR (R271). A packet header with an uncorrectable ECC error is discarded and the frames in progress are marked. -/
  | headerEccError (port : Nat)
  /-- ISP_LINE_DONE (R278). The pipe finishes a line and writes the output of the line two above it. -/
  | ispLineDone (pipe : Nat)
  /-- CAM_SET_OPEN (R285). A camera set opens at the lead slot's frame start or by lock-source timing. -/
  | camSetOpen
  /-- CAM_SET_CLOSE (R287). A camera set closes; its record is written and its doorbell rung. -/
  | camSetClose
  /-- CAM_ENABLE (R291). A write to CAM_CTL.ENABLE starts intake, or closes open frames and sets. -/
  | camEnable (en : Bool)
  /-- EXPOSURE_REQUEST (R289). A write of 1 to CAM_XREQ_B.GO queues an exposure request on a slot, or refuses it. -/
  | exposureRequest (token : Nat)
  /-- CCI_REQUEST_START (R290). A queued request starts in its slot's CCI window when the bus is free. -/
  | cciRequestStart (slot : Nat)
  /-- CCI_REQUEST_COMPLETE (R290). A CCI request ends; its effective frame and token are set, or it fails. -/
  | cciRequestComplete (ctrl : Nat) (failAt : Option Nat) (reads : (List Nat))
  /-- TX_FRAME (R376). A transmit descriptor is taken and its frame is sent, with any one-step timestamp insertion. -/
  | txFrame (port : Nat)
  /-- TX_TIMESTAMP_WRITEBACK (R376). The transmit time is written back to the descriptor after the frame's last byte. -/
  | txTimestampWriteback (port : Nat)
  /-- RX_FRAME (R375). A received frame is timestamped, filtered to a ring and written, or dropped. -/
  | rxFrame (port : Nat) (bytes : List (BitVec 8)) (fcsOk : Bool) (fec : Nat)
  /-- ETH_LINK_CHANGE (R374). An Ethernet link goes up or down. -/
  | ethLinkChange (port : Nat) (seen : EthSeen)
  /-- OFFSET_GO (R382). A write of 1 to PTP_OFS_B.GO feeds an offset to the servo, where it is accepted, refused or stale. -/
  | offsetGo (frac : Nat) (epoch : Nat)
  /-- PTP_HOLDOVER (R384). No offset is accepted for HOLD_S seconds, and the servo enters holdover. -/
  | ptpHoldover
  /-- STEP_GO (R385). A write of 1 to PTP_STEP_CTL.GO requests a step of PTP time, which is denied if a steward wrote it. -/
  | stepGo (who : Who) (absolute : Bool)
  /-- STEP_APPLY (R385). A step is applied at a tick boundary and EPOCH increments. -/
  | stepApply
  /-- PPS_IN_EDGE (R387). A PPS_IN rising edge is timestamped and sent to steward core 0, or ignored as a glitch. -/
  | ppsInEdge
  /-- PPS_OUT_RISE (R388). PPS_OUT rises at the whole-second instant. -/
  | ppsOutRise
  /-- PPS_OUT_FALL (R388). PPS_OUT falls after PPS_W ms. -/
  | ppsOutFall
  /-- PTP_TIMER_FIRE (R389). A timer reaches its time, sends its event, and disarms or advances. -/
  | ptpTimerFire (n : Nat)
  /-- DOORBELL (R400). A write of HST_WR_DB sends a doorbell event to the ring's core, merges with a pending one, or is ignored as DB_BAD. -/
  | doorbell (ring : Nat) (tail : Nat)
  /-- DEVICE_DOORBELL (R401). A device unit rings a doorbell number, which is delivered to a steward core or merged. -/
  | deviceDoorbell (n : Nat) (value : Nat)
  /-- WORK_COMPLETION (R403). A command's completion is written to the completion ring, or held while the ring is full. -/
  | workCompletion (ring : Nat)
  /-- CQH_WRITE (R403). A write of HST_WR_CQH frees completion space and releases held completions. -/
  | cqhWrite (ring : Nat) (cqh : Nat)
  /-- WORK_RING_HALT (R399). A translation failure on a work ring's access halts the ring and raises HST_WR_FAULT. -/
  | workRingHalt (ring : Nat) (cause : Nat)
  /-- MSIX_MESSAGE (R406). An active vector's MSI-X message is sent once the vector and the function are unmasked and the link is up. -/
  | msixMessage (vector : Nat)
  /-- INT_CAUSE_CLEAR (R406). A W1C write to INT_CAUSE clears causes and resends the message if the vector stays active. -/
  | intCauseClear (group : Nat) (mask : Nat)
  /-- HOST_WINDOW_ERROR (R397). An outbound request to the host window fails with UR, CA, CTO, LINK or OFF and is recorded. -/
  | hostWindowError (off : Nat) (kind : Nat)
  /-- ENDPOINT_RESET (R407). PERST_N, a hot reset, FLR or link down resets the endpoint and the work rings only. -/
  | endpointReset (kind : Nat)
  /-- PCIE_LINK_UP (R407). The PCIe link completes training and becomes ready. -/
  | pcieLinkUp (speed : Nat) (seen : PcieSeen)
  /-- TARGETED_SELF_TEST (R416). An error triggers a targeted self-test, whose outcome is logged as TRANSIENT or LASTING. -/
  | targetedSelfTest (hamlet : Nat) (pass : Bool)
  /-- HEALTH_REPORT (R420). The health report is written every PERIOD_S seconds or on a write of 1 to NOW. -/
  | healthReport
  /-- CLEAR (R423). A write of 1 to HLT_LOG_CLR.CLEAR re-arms HLT_FIRST. -/
  | clear
  /-- REPLICA_SAMPLE (R429). The ageing monitors and replicas are sampled every 1 ms, with an immediate step below SLACK_MIN. -/
  | replicaSample (slacks : (List Int)) (degr : (List Nat))
  /-- PLAN_EVALUATE (R428). Every PLAN_S seconds, HLT evaluates the lowest slack and steps the voltage or the clock ceiling. -/
  | planEvaluate
  /-- AVS_READBACK (R431). The AVSBus readback of a step completes, confirming the setpoint or giving AVS_FAIL. -/
  | avsReadback (mv : (Option Nat))
  /-- DAILY (R433). Once a day of powered operation, a record is written and the remaining margin is projected. -/
  | daily
  /-- POH (R470). Each powered hour, a POH record is written to the Ledger. -/
  | poh
  /-- LANE_ADAPT (R437). The Gleaner task that adapts the spare-role Wydel lane and the back channel falls due. -/
  | laneAdapt (tile : Nat) (clean : Bool) (mv : Nat) (ui : Nat) (preset : Nat)
  /-- DPHY_SKEW (R437). A periodic deskew sequence from a sensor is used to deskew the camera port. -/
  | dphySkew (port : Nat) (lane : Nat) (taps : Int)
  /-- TSENSE_TRIM (R437). The Gleaner task that trims a die sensor's offset falls due. -/
  | tsenseTrim (sensor : Nat) (ofs : Int)
  /-- BKL_TRIM (R437). A string's current trim is computed from ISENSE in a frame in which it is lit. -/
  | bklTrim (chain : Nat) (driver : Nat) (str : Nat) (trim : Int) (dev : Int)
  /-- TERM_TRIM (R437). The Gleaner task that trims a termination falls due. -/
  | termTrim (term : Nat) (ohms : (List Nat))
  /-- SELFTEST (R438). A queued logic and memory test of a unit without a spare runs in its gap. -/
  | selftest (pass : Bool)
  /-- ENG_ROTATE (R439). Spare-engine rotation falls due and moves a logical engine onto the spare. -/
  | engRotate (hamlet : Nat)
  /-- CAL_REQUEST (R443). A write of 1 to CAL_REQ.GO asks for a self-test or calibration, answered as IMMEDIATE, ACCEPTED or REFUSED. -/
  | calRequest (task : Nat) (block : Nat) (inst : Nat)
  /-- CAL_REQUEST_DONE (R444). A requested task completes, CAL_DONE is updated and CAL_DONE is raised. -/
  | calRequestDone (rid : Nat) (pass : Bool)
  /-- CAL_FORCE_EXPIRY (R444). Work still incomplete at its bound is forced. -/
  | calForceExpiry (rid : Nat)
  /-- HK_CHANNEL_READ (R445). The housekeeping round reads its next channel every 50 µs. -/
  | hkChannelRead (raw : (Option Int)) (code : Nat)
  /-- THERMAL_ROUND (R447). At the end of a round, warning, throttle step, broken sensors and shutdown are evaluated. -/
  | thermalRound
  /-- COMPARATOR_TRIP (R450). A thermal comparator trips at SHUT and starts a shutdown. -/
  | comparatorTrip (sensor : Nat)
  /-- SHUTDOWN (R450). The Watch stops the engines, holds the main domain in reset, records SHUTDOWN and asserts THERM_TRIP_N. -/
  | shutdown (late : Bool)
  /-- THERMAL_RELEASE (R451). The sensors stay below the restart level for RESTART_S, and THERM_TRIP_N is deasserted. -/
  | thermalRelease
  /-- WATCH_FAULT (R457). A lockstep mismatch, Watch core fault or watchdog expiry resets the main domain and restarts the Watch. -/
  | watchFault (cause : Nat)
  /-- DIP_START (R458). VDD_CORE falls below WARN, a supply-dip episode starts and the engine clocks halve. -/
  | dipStart (mv : Nat)
  /-- DIP_END (R458). A qualification period succeeds, the episode ends and the clocks are restored. -/
  | dipEnd
  /-- BROWNOUT (R458). RESET is reached, or 1 ms passes without qualification; the main domain is held in reset and BROWNOUT is recorded. -/
  | brownout (mv : Nat)
  /-- BROWNOUT_RELEASE (R458). VDD_CORE stays above RECOVER for 10 ms, and the Watch releases the main domain. -/
  | brownoutRelease
  /-- REFCLK_LOSS (R514). The Watch detects a lost reference clock, and its outcome follows by reference. -/
  | refclkLoss (ref : Nat)
  /-- SEC_GO (R473). A write of 1 to SEC_REQ.GO hands the mailbox to the Watch, or is ignored while BUSY. -/
  | secGo (op : Nat) (len : Nat)
  /-- CFG_UPDATE (R465). The Watch op CFG_UPDATE verifies and stores a new Watch configuration. -/
  | cfgUpdate
  /-- ATTEST (R466). The Watch op ATTEST signs an attestation report with the next leaf, if credit allows. -/
  | attest
  /-- LEDGER_READ (R472). The Watch op LEDGER_READ returns the valid Ledger records in SEQ order. -/
  | ledgerRead
  /-- SPV_DONE (R473). The Watch writes a reply, sets SPV_RSTAT.DONE and raises SPV_DONE. -/
  | spvDone
  /-- CREDIT_GAIN (R468). Every 900 s of SP time, CREDIT gains 1. -/
  | creditGain
  /-- LEDGER_RECORD (R471). A record is admitted to the Ledger, or counted into SKIPPED. -/
  | ledgerRecord
  /-- SECTOR_COMPACTION (R471). Before the oldest sector is erased, its kept records are copied to the head. -/
  | sectorCompaction
  /-- COLD_START (R478). SP_PORST_N deasserts with the SP rails up, and the Watch runs its start sequence. -/
  | coldStart
  /-- PORST_N (R476). PORST_N resets the main domain. -/
  | porstN (asserted : Bool)
  /-- WRST_N (R476). WRST_N resets the main domain. -/
  | wrstN (asserted : Bool)
  /-- WARM (R477). A write of GLB_RST.WARM with CONFIRM 0x5A makes a soft main-domain reset. -/
  | warm (conf : Nat)
  /-- MAIN_RELEASE (R477). Once its conditions hold, the Watch releases the main domain, and the boot ROM chooses a slot and boots. -/
  | mainRelease (mv : Nat)
  /-- BOOT_STAGE_DONE (R478). A boot stage completes, and GLB_BOOT.STAGE advances up to READY or RECOVERY. -/
  | bootStageDone
  /-- PROGRAM (R489). The FWU op PROGRAM verifies a slot image from HBM and starts programming the target slot. -/
  | program (slot : Nat)
  /-- PROGRAM_DONE (R489). Programming completes, and the slot is STAGED or left WRITING on a flash failure. -/
  | programDone (ok : Bool)
  /-- PREPARE (R489). The FWU op PREPARE copies and checks a slot's steward object in HBM. -/
  | prepare (slot : Nat)
  /-- ACTIVATE_LIVE (R490). The FWU op ACTIVATE_LIVE starts the live switch to the prepared slot. -/
  | activateLive (force : Bool)
  /-- LIVE_SWITCH_HALT (R490). The stewards halt at the commit-done of the last frame, and the boot ROM checks and starts the new stage 1. -/
  | liveSwitchHalt
  /-- ACTIVATE_RESTART (R489). The FWU op ACTIVATE_RESTART sets the target TRIAL and ACTIVE and resets the main domain. -/
  | activateRestart (slot : Nat)
  /-- CONFIRM (R489). The FWU op CONFIRM makes the running slot GOOD and ACTIVE, with any SVN commit. -/
  | confirm
  /-- FWU_ABORT (R489). The FWU op ABORT cancels PREPARE, or a live switch before its halt. -/
  | fwuAbort
  /-- ALIVE (R491). The FWU op ALIVE, written by the new firmware, ends the wait of the live switch. -/
  | alive
  /-- ALIVE_TIMEOUT (R491). ALIVE is not written in time, and the old image restarts with the target marked BAD. -/
  | aliveTimeout
  /-- GPIO_OUT_SET (R509). A write to GPIO_OUT_SET sets the named output bits. -/
  | gpioOutSet (mask : Nat)
  /-- GPIO_OUT_CLR (R509). A write to GPIO_OUT_CLR clears the named output bits. -/
  | gpioOutClr (mask : Nat)
  /-- GPIO_EDGE (R508). An enabled, debounced edge on a GPIO pin sets IRQ_STAT and raises the cause GPIO. -/
  | gpioEdge (pin : Nat) (up : Bool)
  /-- WATCH_RESET (R512). SP_PORST_N is asserted, or VDD_SP or VDDIO_SP is lost, and the Watch and the main domain are held in reset at once. -/
  | watchReset
  /-- REFCLK_RETURN (R514). A lost main reference clock returns: the PANEL ports retrain, PTP time continues, or release waits 10 ms of CORE_REFCLK. -/
  | refclkReturn (ref : Nat)
  /-- SUPPLY_QUALIFICATION (R458). During a supply-dip episode, every point rises above RECOVER and a qualification period begins, or a point falls below WARN and ends it. -/
  | supplyQualification (begins : Bool) (mv : Nat)
  /-- SEQUENCER_SELF_TEST (R416). The 40 ms self-test of sequencer A ends, either leading to the in-step return or failing and being rerun every 10 s. -/
  | sequencerSelfTest (pass : Bool)
  /-- SEQUENCER_B_FAULT (R205). Sequencer B faults while in control, so no sequencer is in control, the ports send HOLD and FAULT_N is asserted. -/
  | sequencerBFault
  /-- RESTORE_COMPLETE (R123). A hamlet restore completes: the threads become runnable and abandoned SAMPLE, SWEEP and RISSUE are reissued. -/
  | restoreComplete (hamlet : Nat)
  /-- PREPARE_DONE (R489). The PREPARE copy and check end, and FWU STATE becomes PREPARED or the result carries a rejection code, raising FWU_DONE. -/
  | prepareDone
  /-- FRAME_STEP_TIMER (R437). While scan-out is not running, a Gleaner frame step is taken every 16.667 ms. -/
  | frameStepTimer
  /-- BC_HDR_ERR (R229). A back-channel message with a wrong CHK or an unknown ID is discarded and counted in BC_HDR_ERR. -/
  | bcHdrErr (tile : Nat)
  /-- HS_SYNC_ERROR (R531). A CSI-2 receiver meets a high-speed sync error, or skew outside its deskew range, and counts SYNC_ERR. -/
  | hsSyncError (port : Nat)
  /-- TEST_ACCESS_PORT (R507). A TCK cycle of the IEEE 1149.1 port shifts or updates, with EXTEST and SAMPLE/PRELOAD acting only while PORST_N is asserted. -/
  | testAccessPort (tms : Bool) (tdi : Bool) (trst : Bool)
  /-- WORK_RING_EN (R399). A write of HST_WR_CFG.EN turns a work ring off or on, restarting a halted ring at HEAD and numbering completions from 0. -/
  | workRingEn (ring : Nat) (en : Bool)
  /-- CAM_SETMASK_WRITE (R280). A write to CAM_SETMASK or CAM_SETCTL closes any open camera set at once, and the next set opens under the new values. -/
  | camSetmaskWrite (ctl : Bool) (value : Nat)
  /-- PORT_ENABLE (R236). A write that sets WYL_CTL.ENABLE and PORT_EN moves a port from OFF to TRAIN, or clearing either returns it to OFF. -/
  | portEnable (tile : Nat) (en : Bool) (portEn : Bool)
  /-- DCTL_AUTO_SET (R90). A write that changes SYN_DCTL.AUTO from 0 to 1 clears the budget estimator's history and u. -/
  | dctlAutoSet
  /-- HOLD_REPORT_TIMEOUT (R251). No HOLD_ACK arrives within 2 µs plus the reply path after the start-up STATUS_REQ, and the tile's START is set to NONE. -/
  | holdReportTimeout (tile : Nat)
  deriving DecidableEq, Repr

end Sys2Proof
end

