-- ==== Sys2Proof/Decode.lean ====
section
/-! DEFINITION. The decoder of table words. The table of operations gives no row any bits, so no word spells a command. -/
namespace Sys2Proof

/-- The command that the `nbits` bits `w` spell: none, because no row of the table has bits. -/
def decodeTableWord (_nbits _w : Nat) : Option Instr := none

end Sys2Proof
end

