-- ==== Sys2Proof/Config.lean ====
section
/-! DEFINITION. What an implementation fixes, and the free values: constants without a body, for what the spec leaves
open. No proof can see their values, so a claim holds whatever they are. A fresh free value is `freeNat` applied to the
counter `freeCtr` of the state (assumption 2). -/
namespace Sys2Proof

/-- A fresh free value: applied to the state's counter, which every use advances (assumption 2). -/
opaque Config.freeNat : Nat → Nat

/-- R144. The pattern that the approximation unit chooses for operation `op` on operand `a`; it counts where the rule's error bound
allows it (assumption 6). -/
opaque Config.approx : Nat → Nat → Nat

/-- R50. Does ISO/IEC 21122-2 permit a profile (its Ppih code) this Cw and this Hsl? The part is outside the spec (assumption 9). -/
opaque Config.jxsProfilePermits : Nat → Nat → Nat → Bool

/-- R52, R72. Does the entropy-coded data of a slice keep to its syntax, under the body of PIH (assumption 9)? -/
opaque Config.jxsSliceOk : List Byte → List Byte → Bool

/-- R52, R72. The decoded components (R, G, B and, with four components, A) of each texel of a row of a codestream (assumption 9). -/
opaque Config.jxsRow : List Byte → Nat → List (List Int)

/-- R77. The level of detail of a ray whose tile no ray map describes: the spec gives none (assumption 24). -/
opaque Config.lodFree : Nat → Nat

/-- R460, R466. SHAKE256 of a message, `n` bytes long (the standard that defines it is outside the spec, assumption 8). -/
opaque Config.shake256 : List Byte → Nat → List Byte

/-- R460. XMSS verification of a message under a public key and a signature (assumption 8). -/
opaque Config.xmssVerify : List Byte → List Byte → List Byte → Bool

/-- R466. The XMSS signature of a message by leaf `n` of the device key (assumption 8). -/
opaque Config.xmssSign : Nat → List Byte → List Byte

/-- R297. How many original bytes the compressor puts into the next block, of those left of a chunk at a level: 16,384 at most
(assumption 7). -/
opaque Config.blockBytes : Nat → List Byte → Nat

/-- R297. The code lengths of the compressor's next dynamic block, as the bits that stand in the block's header, of the bytes left of
a chunk at a level (assumption 7). -/
opaque Config.blockCodes : Nat → List Byte → List Bool

/-- R443. The length in µs of a task on a unit of a block, and for task 0 the frame period of a camera port: neither is given (assumption
31). -/
opaque Config.taskUs : Nat → Nat → Nat

/-- R466. The device's public key, 68 bytes, generated in the device at manufacture (assumption 2). -/
opaque Config.devicePk : List Byte

/-- R20, R476. The contents of a memory after an event that leaves them undefined, as a list of addresses and bytes, by the free-value
counter (assumption 2). -/
opaque Config.freeCells : Nat → List (Nat × Byte)

/-- R469. The 36 DATA bytes of a Ledger record of a class that carries some values: the spec names what a record carries and not how it
is laid out (assumption 40). -/
opaque Config.ledgerData : Nat → List Nat → List Byte

/-- R435. The REGION code of ageing monitor `m`: the spec gives none (assumption 2). -/
opaque Config.ageRegion : Nat → Nat

/-- R507. The test access port: the instruction (0 BYPASS, 1 IDCODE, 2 SAMPLE/PRELOAD, 3 EXTEST) that an instruction code selects, the
width of the instruction register, the length of the boundary register, and what it captures from the pins: none is given (assumption
41). -/
opaque Config.tapDecode : Nat → Nat
opaque Config.tapWidth : Nat
opaque Config.tapCells : Nat
opaque Config.tapCapture : Nat → Nat

/-- R215. The last 58 line bits of a Wydel lane before a frame's FRAME_START column, by tile, physical lane, FRAME and start time: a free value, since
the scrambler has no stated start (assumption 47). -/
opaque Config.lineHistory : Nat → Nat → Nat → Nat → BitVec 58

end Sys2Proof
end

