-- ==== Sys2Proof/Machine/Data.lean ====
section
/-! DEFINITION. Plain-data helpers: sparse maps in one canonical form, little-endian byte lists, bit fields and
two's-complement numbers held as Nat, division helpers and modular arithmetic on counters. -/
namespace Sys2Proof.Machine

/-! ### Sparse maps: keys strictly rising, and no entry equal to what an unlisted key reads as -/

/-- The value at key `k`; an unlisted key reads as `d k`. -/
def mapGet {α : Type} (d : Nat → α) : List (Nat × α) → Nat → α
  | [], k => d k
  | (k', v) :: m, k => if k = k' then v else mapGet d m k

/-- The map with no entry for key `k`. -/
def mapDel {α : Type} (m : List (Nat × α)) (k : Nat) : List (Nat × α) := m.filter (fun p => decide (p.1 ≠ k))

/-- The map with the entry `v` at key `k`, at its place in the rising order. -/
def mapIns {α : Type} : List (Nat × α) → Nat → α → List (Nat × α)
  | [], k, v => [(k, v)]
  | (k', v') :: m, k, v =>
    if k < k' then (k, v) :: (k', v') :: m else if k = k' then (k, v) :: m else (k', v') :: mapIns m k v

/-- The map with `v` at key `k`; writing what an unlisted key reads as removes the entry. -/
def mapPut {α : Type} [DecidableEq α] (d : Nat → α) (m : List (Nat × α)) (k : Nat) (v : α) : List (Nat × α) :=
  if v = d k then mapDel m k else mapIns m k v

/-- Every key of the map is above `lo`, keys rise strictly, and no entry holds its default. -/
def mapWfFrom {α : Type} [DecidableEq α] (d : Nat → α) : Option Nat → List (Nat × α) → Bool
  | _, [] => true
  | lo, (k, v) :: m => (match lo with | none => true | some b => decide (b < k)) && decide (v ≠ d k) && mapWfFrom d (some k) m

/-- The canonical form of a sparse map. -/
def mapWf {α : Type} [DecidableEq α] (d : Nat → α) (m : List (Nat × α)) : Bool := mapWfFrom d none m

/-- The map with the values `vs` at the keys `k`, `k + 1`, … -/
def mapPutList {α : Type} [DecidableEq α] (d : Nat → α) : List (Nat × α) → Nat → List α → List (Nat × α)
  | m, _, [] => m
  | m, k, v :: vs => mapPutList d (mapPut d m k v) (k + 1) vs

/-- The `n` values at the keys `k`, `k + 1`, … -/
def mapGetList {α : Type} (d : Nat → α) (m : List (Nat × α)) (k : Nat) : Nat → List α
  | 0 => []
  | n + 1 => mapGet d m k :: mapGetList d m (k + 1) n

/-- What an unlisted byte of any byte store reads as: 0 (assumption 4). -/
def byteDefault (_ : Nat) : Byte := 0

/-- The canonical form of a byte store: addresses strictly rising, and no entry that holds what an unlisted address reads as. -/
def Memory.wf (m : List (Nat × Byte)) : Bool := mapWf byteDefault m

/-- A byte store with some cells put into it. -/
def putCells (m : List (Nat × Byte)) (cells : List (Nat × Byte)) : List (Nat × Byte) := cells.foldl (fun m c => mapPut byteDefault m c.1 c.2) m

/-! ### Association tables with a key, for units that hold several records -/

/-- The record under key `k`, if the table holds one. -/
def tabGet {α : Type} : List (Nat × α) → Nat → Option α
  | [], _ => none
  | (k', v) :: m, k => if k = k' then some v else tabGet m k

/-- The table without key `k`. -/
def tabDel {α : Type} (m : List (Nat × α)) (k : Nat) : List (Nat × α) := m.filter (fun p => p.1 ≠ k)

/-- The table with `v` under key `k`, keys rising. -/
def tabPut {α : Type} : List (Nat × α) → Nat → α → List (Nat × α)
  | [], k, v => [(k, v)]
  | (k', v') :: m, k, v =>
    if k < k' then (k, v) :: (k', v') :: m else if k = k' then (k, v) :: m else (k', v') :: tabPut m k v

/-- A dense table: the `n`-th entry replaced, nothing where there is none. -/
def listSet {α : Type} : List α → Nat → α → List α
  | [], _, _ => []
  | _ :: xs, 0, v => v :: xs
  | x :: xs, n + 1, v => x :: listSet xs n v

/-! ### Bit fields of a Nat -/

/-- Bits [lsb + w - 1 : lsb] of `v`. -/
def bitsOf (v lsb w : Nat) : Nat := (v / 2 ^ lsb) % 2 ^ w

/-- Bit `i` of `v` as a Bool. -/
def bitAt (v i : Nat) : Bool := (v / 2 ^ i) % 2 = 1

/-- `v` with bits [lsb + w - 1 : lsb] replaced by `x` (taken modulo 2^w). -/
def setBits (v lsb w x : Nat) : Nat := v - bitsOf v lsb w * 2 ^ lsb + (x % 2 ^ w) * 2 ^ lsb

/-- 1 for true, 0 for false. -/
def b2n (b : Bool) : Nat := if b then 1 else 0

/-- The number of set bits among the low `n` bits of `v`. -/
def popCount : Nat → Nat → Nat
  | 0, _ => 0
  | n + 1, v => v % 2 + popCount n (v / 2)

/-- The lowest clear bit of `v` among bits `i` to `i + n - 1`, if there is one. -/
def lowestClear : Nat → Nat → Nat → Option Nat
  | 0, _, _ => none
  | n + 1, v, i => if bitAt v i then lowestClear n v (i + 1) else some i

/-! ### Signed numbers -/

/-- The two's-complement value of the low `w` bits of `v`. -/
def toInt (w v : Nat) : Int :=
  let u := v % 2 ^ w
  if 2 * u < 2 ^ w then (u : Int) else (u : Int) - ((2 ^ w : Nat) : Int)

/-- The low `w` bits of an integer. -/
def ofInt (w : Nat) (i : Int) : Nat := (i % ((2 ^ w : Nat) : Int)).toNat

/-- Clamp an integer into [lo, hi]. -/
def clampI (lo hi i : Int) : Int := if i < lo then lo else if hi < i then hi else i

/-- Clamp a natural into [lo, hi]. -/
def clampN (lo hi n : Nat) : Nat := if n < lo then lo else if hi < n then hi else n

/-- Ceiling division. -/
def ceilDiv (a b : Nat) : Nat := (a + b - 1) / b

/-- 0 acts as 1, as many fields say. -/
def zeroActs (d n : Nat) : Nat := if n = 0 then d else n

/-- (a - b) modulo 2^w. -/
def subMod (w a b : Nat) : Nat := (a % 2 ^ w + (2 ^ w - b % 2 ^ w)) % 2 ^ w

/-! ### Bytes, little-endian -/

/-- The `n` low bytes of `v`, least significant first. -/
def leBytes : Nat → Nat → List Byte
  | 0, _ => []
  | n + 1, v => BitVec.ofNat 8 v :: leBytes n (v / 256)

/-- The number whose little-endian bytes these are. -/
def leNat : List Byte → Nat
  | [] => 0
  | b :: bs => b.toNat + 256 * leNat bs

/-- `n` bytes of `bs` from offset `o`, as a little-endian number; bytes past the end count as 0. -/
def leAt (bs : List Byte) (o n : Nat) : Nat := leNat ((bs.drop o).take n)

/-- `n` zero bytes. -/
def zeros (n : Nat) : List Byte := List.replicate n 0

/-- The bytes of the 32-bit words `ws`, little-endian. -/
def wordBytes (ws : List Nat) : List Byte := ws.flatMap (leBytes 4)

/-- The little-endian 32-bit words of a byte list (a short tail is padded with zeros), `n` of them. -/
def bytesWords : Nat → List Byte → List Nat
  | 0, _ => []
  | n + 1, bs => leNat (bs.take 4) :: bytesWords n (bs.drop 4)

/-- The first index at which `p` holds. -/
def findIdx {α : Type} (p : α → Bool) : List α → Option Nat
  | [] => none
  | x :: xs => if p x then some 0 else (findIdx p xs).map (· + 1)

/-- Fold a function over 0, …, n − 1. -/
def foldRange {σ : Type} (n : Nat) (f : σ → Nat → σ) (s : σ) : σ := (List.range n).foldl f s

/-- The integer square root, by bisection on `n` bits from the top. -/
def isqrtAux : Nat → Nat → Nat → Nat
  | 0, _, r => r
  | n + 1, v, r => let r' := r + 2 ^ n; isqrtAux n v (if r' * r' ≤ v then r' else r)

/-- The floor of the square root of `v`, for `v` below 2^(2·bits). -/
def isqrt (bits v : Nat) : Nat := isqrtAux bits v 0

end Sys2Proof.Machine
end

