-- ==== Sys2Proof/Machine/Float.lean ====
section
/-! DEFINITION. IEEE 754 arithmetic on bit patterns, written out exactly: binary32 and binary16, rounding to nearest even
or directed (R144, R145, R146), and the approximations of R144 within their stated error bounds. -/
namespace Sys2Proof.Machine

/-- A binary format: precision in bits (with the hidden bit) and exponent width. -/
structure FFmt where
  p : Nat
  ew : Nat
  deriving DecidableEq, Repr

/-- binary32. -/
def f32 : FFmt := ⟨24, 8⟩
/-- binary16. -/
def f16 : FFmt := ⟨11, 5⟩

/-- A decoded value: NaN, an infinity, or (-1)^neg · m · 2^e. -/
inductive FVal where
  | nan
  | inf (neg : Bool)
  | num (neg : Bool) (m : Nat) (e : Int)
  deriving DecidableEq, Repr

/-- R146. The rounding modes of MOD: nearest-even, toward zero, toward -infinity, toward +infinity. -/
inductive Rnd where | ne | tz | dn | up
  deriving DecidableEq, Repr

/-- R146. The rounding that a MOD value selects. -/
def rndOf : Nat → Rnd
  | 1 => .tz | 2 => .dn | 3 => .up | _ => .ne

/-- The exponent bias. -/
def FFmt.bias (f : FFmt) : Nat := 2 ^ (f.ew - 1) - 1
/-- The exponent of the lowest bit of a subnormal. -/
def FFmt.qmin (f : FFmt) : Int := 1 - (f.bias : Int) - ((f.p - 1 : Nat) : Int)
/-- The canonical quiet NaN (R145). -/
def FFmt.qnan (f : FFmt) : Nat := (2 ^ f.ew - 1) * 2 ^ (f.p - 1) + 2 ^ (f.p - 2)
/-- An infinity. -/
def FFmt.infBits (f : FFmt) (neg : Bool) : Nat := b2n neg * 2 ^ (f.p - 1 + f.ew) + (2 ^ f.ew - 1) * 2 ^ (f.p - 1)
/-- The largest finite value. -/
def FFmt.maxBits (f : FFmt) (neg : Bool) : Nat := f.infBits neg - 1
/-- A zero. -/
def FFmt.zeroBits (f : FFmt) (neg : Bool) : Nat := b2n neg * 2 ^ (f.p - 1 + f.ew)

/-- Decode a bit pattern. -/
def fdec (f : FFmt) (b : Nat) : FVal :=
  let neg := bitAt b (f.p - 1 + f.ew)
  let ex := bitsOf b (f.p - 1) f.ew
  let fr := bitsOf b 0 (f.p - 1)
  if ex = 2 ^ f.ew - 1 then (if fr = 0 then .inf neg else .nan)
  else if ex = 0 then .num neg fr f.qmin
  else .num neg (fr + 2 ^ (f.p - 1)) (f.qmin + (ex : Int) - 1)

/-- Does the remainder round the magnitude up? `rem` of `2^sh`, with a sticky tail below it. -/
def roundsUp (r : Rnd) (neg odd : Bool) (rem sh : Nat) (sticky : Bool) : Bool :=
  match r with
  | .ne => let h := 2 ^ sh; decide (2 * rem > h) || (decide (2 * rem = h) && (sticky || odd))
  | .tz => false
  | .dn => neg && (decide (rem ≠ 0) || sticky)
  | .up => !neg && (decide (rem ≠ 0) || sticky)

/-- Round (-1)^neg · (n + tail) · 2^e into the format, where 0 ≤ tail < 1 and `sticky` says tail ≠ 0. Where sticky is set, `n` has
at least p + 2 bits. A zero result keeps the sign `neg`. -/
def fround (f : FFmt) (r : Rnd) (neg : Bool) (n : Nat) (e : Int) (sticky : Bool) : Nat :=
  if n = 0 then
    (if sticky && roundsUp r neg false 0 1 true then f.zeroBits neg + 1 else f.zeroBits neg)
  else
    let len : Int := (Nat.log2 n : Int) + 1
    let q0 := e + len - (f.p : Int)
    let q := if q0 < f.qmin then f.qmin else q0
    let sh := (q - e).toNat
    let m0 := if q ≤ e then n * 2 ^ (e - q).toNat else n / 2 ^ sh
    let rem := if q ≤ e then 0 else n % 2 ^ sh
    let m1 := if roundsUp r neg (m0 % 2 = 1) rem sh sticky then m0 + 1 else m0
    let m := if m1 = 2 ^ f.p then m1 / 2 else m1
    let q' := if m1 = 2 ^ f.p then q + 1 else q
    let bexp := (q' - f.qmin).toNat + 1
    if m < 2 ^ (f.p - 1) then f.zeroBits neg + m
    else if bexp ≥ 2 ^ f.ew - 1 then
      (match r with
       | .ne => f.infBits neg
       | .tz => f.maxBits neg
       | .dn => if neg then f.infBits neg else f.maxBits neg
       | .up => if neg then f.maxBits neg else f.infBits neg)
    else f.zeroBits neg + bexp * 2 ^ (f.p - 1) + (m - 2 ^ (f.p - 1))

/-- The signed integer numerator of a finite value at exponent `e0` (which is not above its own). -/
def numAt (neg : Bool) (m : Nat) (e e0 : Int) : Int :=
  let v : Int := (m * 2 ^ (e - e0).toNat : Nat)
  if neg then -v else v

/-- Sum of two finite values, exactly, then rounded; an exact zero is +0 unless both are negative. -/
def faddNum (f : FFmt) (r : Rnd) (s1 : Bool) (m1 : Nat) (e1 : Int) (s2 : Bool) (m2 : Nat) (e2 : Int) : Nat :=
  let e0 := if e1 < e2 then e1 else e2
  let t := numAt s1 m1 e1 e0 + numAt s2 m2 e2 e0
  if t = 0 then f.zeroBits (if m1 = 0 ∧ m2 = 0 then (s1 && s2) else false)
  else fround f r (decide (t < 0)) t.natAbs e0 false

/-- A + B (R144). -/
def fadd (f : FFmt) (a b : Nat) : Nat :=
  match fdec f a, fdec f b with
  | .nan, _ => f.qnan
  | _, .nan => f.qnan
  | .inf s, .inf t => if s = t then f.infBits s else f.qnan
  | .inf s, _ => f.infBits s
  | _, .inf t => f.infBits t
  | .num s1 m1 e1, .num s2 m2 e2 => faddNum f .ne s1 m1 e1 s2 m2 e2

/-- The bit pattern with the sign bit inverted (R144 FNEG). -/
def fneg (f : FFmt) (a : Nat) : Nat :=
  let top := 2 ^ (f.p - 1 + f.ew)
  if bitAt a (f.p - 1 + f.ew) then a % top else a % top + top

/-- The bit pattern with the sign bit cleared (R144 FABS). -/
def fabs (f : FFmt) (a : Nat) : Nat := a % 2 ^ (f.p - 1 + f.ew)

/-- A − B (R144). -/
def fsub (f : FFmt) (a b : Nat) : Nat := fadd f a (fneg f b)

/-- A × B (R144). -/
def fmul (f : FFmt) (a b : Nat) : Nat :=
  match fdec f a, fdec f b with
  | .nan, _ => f.qnan
  | _, .nan => f.qnan
  | .inf s, .inf t => f.infBits (s != t)
  | .inf s, .num t m _ => if m = 0 then f.qnan else f.infBits (s != t)
  | .num s m _, .inf t => if m = 0 then f.qnan else f.infBits (s != t)
  | .num s1 m1 e1, .num s2 m2 e2 => fround f .ne (s1 != s2) (m1 * m2) (e1 + e2) false

/-- A × B + C with one rounding (R144 FFMA). -/
def ffma (f : FFmt) (a b c : Nat) : Nat :=
  match fdec f a, fdec f b, fdec f c with
  | .nan, _, _ => f.qnan
  | _, .nan, _ => f.qnan
  | _, _, .nan => f.qnan
  | .num s1 m1 e1, .num s2 m2 e2, .num s3 m3 e3 => faddNum f .ne (s1 != s2) (m1 * m2) (e1 + e2) s3 m3 e3
  | .num _ _ _, .num _ _ _, .inf t => f.infBits t
  | .inf s, .num t m _, d => if m = 0 then f.qnan else infPlus f (s != t) d
  | .num s m _, .inf t, d => if m = 0 then f.qnan else infPlus f (s != t) d
  | .inf s, .inf t, d => infPlus f (s != t) d
where
  /-- An infinite product plus C. -/
  infPlus (f : FFmt) (s : Bool) : FVal → Nat
    | .inf t => if s = t then f.infBits s else f.qnan
    | .nan => f.qnan
    | .num _ _ _ => f.infBits s

/-- A / B, correctly rounded (R144 FDIV). -/
def fdiv (f : FFmt) (a b : Nat) : Nat :=
  match fdec f a, fdec f b with
  | .nan, _ => f.qnan
  | _, .nan => f.qnan
  | .inf _, .inf _ => f.qnan
  | .inf s, .num t _ _ => f.infBits (s != t)
  | .num s _ _, .inf t => f.zeroBits (s != t)
  | .num s m1 e1, .num t m2 e2 =>
    if m2 = 0 then (if m1 = 0 then f.qnan else f.infBits (s != t))
    else if m1 = 0 then f.zeroBits (s != t)
    else
      let k := 2 * f.p + 8
      let n := m1 * 2 ^ k
      fround f .ne (s != t) (n / m2) (e1 - e2 - (k : Int)) (decide (n % m2 ≠ 0))

/-- √A, correctly rounded (R144 FSQRT). -/
def fsqrt (f : FFmt) (a : Nat) : Nat :=
  match fdec f a with
  | .nan => f.qnan
  | .inf s => if s then f.qnan else f.infBits false
  | .num s m e =>
    if m = 0 then f.zeroBits s
    else if s then f.qnan
    else
      let k := 2 * f.p + 8
      -- make the exponent even, with k extra pairs of bits
      let m' := if e % 2 = 0 then m * 2 ^ (2 * k) else 2 * m * 2 ^ (2 * k)
      let e' := if e % 2 = 0 then e else e - 1
      let q := isqrt (f.p + k + 2) m'
      fround f .ne false q (e' / 2 - (k : Int)) (decide (q * q ≠ m'))

/-- The order key of a non-NaN pattern, with −0 below +0 (R145). -/
def fkey (f : FFmt) (a : Nat) : Int :=
  if bitAt a (f.p - 1 + f.ew) then -((fabs f a : Nat) : Int) - 1 else (fabs f a : Nat)

/-- Is the pattern a NaN? -/
def fisNan (f : FFmt) (a : Nat) : Bool := fdec f a == .nan

/-- Minimum under R145. -/
def fmin (f : FFmt) (a b : Nat) : Nat :=
  if fisNan f a then (if fisNan f b then f.qnan else b)
  else if fisNan f b then a else if fkey f b < fkey f a then b else a

/-- Maximum under R145. -/
def fmax (f : FFmt) (a b : Nat) : Nat :=
  if fisNan f a then (if fisNan f b then f.qnan else b)
  else if fisNan f b then a else if fkey f a < fkey f b then b else a

/-- Ordered comparison key in which −0 and +0 are equal (R147). -/
def fcmpKey (f : FFmt) (a : Nat) : Int :=
  if bitAt a (f.p - 1 + f.ew) then -((fabs f a : Nat) : Int) else (fabs f a : Nat)

/-- A < B, ordered. -/
def flt (f : FFmt) (a b : Nat) : Bool := !fisNan f a && !fisNan f b && decide (fcmpKey f a < fcmpKey f b)
/-- A ≤ B, ordered. -/
def fle (f : FFmt) (a b : Nat) : Bool := !fisNan f a && !fisNan f b && decide (fcmpKey f a ≤ fcmpKey f b)
/-- A = B, ordered. -/
def feq (f : FFmt) (a b : Nat) : Bool := !fisNan f a && !fisNan f b && decide (fcmpKey f a = fcmpKey f b)

/-- Is the pattern finite? -/
def fisFinite (f : FFmt) (a : Nat) : Bool :=
  match fdec f a with
  | .num _ _ _ => true
  | _ => false

/-- An integer to the format (R146). -/
def fofInt (f : FFmt) (r : Rnd) (i : Int) : Nat := fround f r (decide (i < 0)) i.natAbs 0 false

/-- The integer that a finite magnitude m · 2^e rounds to. -/
def ftoIntMag (r : Rnd) (neg : Bool) (m : Nat) (e : Int) : Nat :=
  if 0 ≤ e then m * 2 ^ e.toNat
  else
    let sh := (-e).toNat
    let q := m / 2 ^ sh
    if roundsUp r neg (q % 2 = 1) (m % 2 ^ sh) sh false then q + 1 else q

/-- To a saturating signed integer of `w` bits; NaN gives 0 (R146 F2I). -/
def ftoSInt (f : FFmt) (r : Rnd) (w : Nat) (a : Nat) : Int :=
  let lo : Int := -((2 ^ (w - 1) : Nat) : Int)
  let hi : Int := ((2 ^ (w - 1) : Nat) : Int) - 1
  match fdec f a with
  | .nan => 0
  | .inf s => if s then lo else hi
  | .num s m e =>
    let v : Int := (ftoIntMag r s m e : Nat)
    clampI lo hi (if s then -v else v)

/-- To a saturating unsigned integer of `w` bits; NaN and negative values give 0 (R146 F2U). -/
def ftoUInt (f : FFmt) (r : Rnd) (w : Nat) (a : Nat) : Nat :=
  match fdec f a with
  | .nan => 0
  | .inf s => if s then 0 else 2 ^ w - 1
  | .num s m e => if s then 0 else
    let v := ftoIntMag r s m e
    if 2 ^ w ≤ v then 2 ^ w - 1 else v

/-- From one format to another (R146 F2H2, H2FL, H2FH). -/
def fconv (src dst : FFmt) (r : Rnd) (a : Nat) : Nat :=
  match fdec src a with
  | .nan => dst.qnan
  | .inf s => dst.infBits s
  | .num s m e => fround dst r s m e false

/-- R146, R76. floor(clamp(A, 0, 1) × 1,023 + 0.5), NaN giving 0, computed exactly. -/
def f2un10 (a : Nat) : Nat :=
  match fdec f32 a with
  | .nan => 0
  | .inf s => if s then 0 else 1023
  | .num s m e =>
    if s || decide (m = 0) then 0
    else if 0 ≤ e then 1023
    else
      let d := 2 ^ (-e).toNat
      if d ≤ m then 1023 else (2 * m * 1023 + d) / (2 * d)

/-- floor of a finite binary32 value, as an integer; 0 for NaN and infinities. -/
def ffloorInt (a : Nat) : Int :=
  match fdec f32 a with
  | .num s m e => let v : Int := (ftoIntMag .dn s m e : Nat); if s then -v else v
  | _ => 0

/-! ### Approximations within their bounds (assumption 6) -/

/-- What the approximation unit answers: any pattern that the stated bound allows, chosen by operation and operand, else the exactly
rounded result `x` (assumption 6). -/
def fpick (op a : Nat) (ok : Nat → Bool) (x : Nat) : Nat :=
  let c := Config.approx op a % 2 ^ 32
  if ok c then c else x

/-- Is the pattern of sign `s` within `u` ulp (of the pattern's own binade) of (-1)^s · n/d · 2^e ? -/
def withinUlp (b u : Nat) (s : Bool) (n d : Nat) (e : Int) : Bool :=
  match fdec f32 b with
  | .num sb m eb =>
    -- |m·2^eb − n/d·2^e| ≤ u·2^eb, all at the lower exponent
    let e0 := if eb < e then eb else e
    let x : Int := ((n * 2 ^ (e - e0).toNat : Nat) : Int)
    let y : Int := ((m * d * 2 ^ (eb - e0).toNat : Nat) : Int)
    (sb == s) && decide ((y - x).natAbs ≤ u * d * 2 ^ (eb - e0).toNat)
  | _ => false

/-- R144. 1 / A within 1 ulp. -/
def frcp (a : Nat) : Nat :=
  let exact := fdiv f32 0x3F800000 a
  match fdec f32 a, fdec f32 exact with
  | .num s m e, .num _ m' _ => if m' = 0 then exact else fpick 0x30 a (fun c => withinUlp c 1 s 1 m (-e)) exact
  | _, _ => exact

/-- 1 / √A correctly rounded, for a finite positive A. -/
def frsqExact (m : Nat) (e : Int) : Nat :=
  let k := 60
  -- A = m'·2^e' with e' even, and 1/√A = √(2^(4k)/m') · 2^(−e'/2 − 2k)
  let m' := if e % 2 = 0 then m else 2 * m
  let e' := if e % 2 = 0 then e else e - 1
  let n := 2 ^ (4 * k) / m'
  let q := isqrt (2 * k + 2) n
  fround f32 .ne false q (-(e' / 2) - ((2 * k : Nat) : Int)) (decide (q * q * m' ≠ 2 ^ (4 * k)))

/-- R144. 1 / √A within 1 ulp. -/
def frsq (a : Nat) : Nat :=
  match fdec f32 a with
  | .nan => f32.qnan
  | .inf s => if s then f32.qnan else 0
  | .num s m e =>
    if m = 0 then f32.infBits s
    else if s then f32.qnan
    else
      let x := frsqExact m e
      -- c = mc·2^ec is within 1 ulp of 1/√A iff (mc − 1)²·A·4^ec ≤ 1 ≤ (mc + 1)²·A·4^ec
      fpick 0x31 a (fun c => match fdec f32 c with
        | .num sc mc ec =>
          let t := e + 2 * ec
          let lo := (mc - 1) * (mc - 1) * m
          let hi := (mc + 1) * (mc + 1) * m
          !sc && decide (lo * 2 ^ t.toNat ≤ 2 ^ (-t).toNat) && decide (2 ^ (-t).toNat ≤ hi * 2 ^ t.toNat)
        | _ => false) x

/-- 2^f for a fraction f = n / 2^64 in [0, 1), in units of 2^-64: the product of 2^(2^-i) over the set bits of f, each factor
by a square root; its error is below 2^-56. -/
def exp2Frac : Nat → Nat → Nat → Nat → Nat
  | 0, _, _, acc => acc
  | i + 1, root, n, acc =>
    -- root = 2^(2^-j) in units of 2^-64, n holds the remaining bits, the next at bit 63
    let r' := isqrt 66 (root * 2 ^ 64)
    let acc' := if bitAt n 63 then acc * r' / 2 ^ 64 else acc
    exp2Frac i r' (2 * n % 2 ^ 64) acc'

/-- R144. 2^A within 2 ulp. -/
def fexp2 (a : Nat) : Nat :=
  match fdec f32 a with
  | .nan => f32.qnan
  | .inf s => if s then 0 else f32.infBits false
  | .num s m e =>
    if m = 0 then 0x3F800000
    else if 0 ≤ e ∧ e > 10 then (if s then 0 else f32.infBits false)
    else
      -- A in units of 2^-64, floored
      let v : Int := if 0 ≤ e + 64 then ((m * 2 ^ (e + 64).toNat : Nat) : Int) else ((m / 2 ^ (-(e + 64)).toNat : Nat) : Int)
      let v := if s then -v else v
      let i : Int := v / ((2 ^ 64 : Nat) : Int)
      let fr := (v % ((2 ^ 64 : Nat) : Int)).toNat
      if i > 200 then f32.infBits false
      else if i < -300 then 0
      else
        let q := exp2Frac 64 (2 * 2 ^ 64) fr (2 ^ 64)
        let x := fround f32 .ne false q (i - 64) (decide (fr ≠ 0))
        if x = f32.infBits false then x else fpick 0x34 a (fun c => withinUlp c 2 false q 1 (i - 64)) x

/-- The next `n` binary digits of log2 of y / 2^160, 1 ≤ y / 2^160 < 2, by repeated squaring. -/
def log2Digits : Nat → Nat → Nat → Nat
  | 0, _, acc => acc
  | n + 1, y, acc =>
    let y2 := y * y / 2 ^ 160
    if 2 ^ 161 ≤ y2 then log2Digits n (y2 / 2) (2 * acc + 1) else log2Digits n y2 (2 * acc)

/-- log2 of a finite positive m · 2^e in units of 2^-64, floored, and whether that is exact. -/
def log2At (m : Nat) (e : Int) : Int × Bool :=
  let l := Nat.log2 m
  let fr := log2Digits 64 (m * 2 ^ (160 - l)) 0
  ((e + (l : Int)) * ((2 ^ 64 : Nat) : Int) + (fr : Int), decide (fr = 0))

/-- log2 A: the special values exactly, else `pick` of the value in units of 2^-64 and its rounding to nearest even. -/
def flog2With (pick : Int → Nat → Nat) (a : Nat) : Nat :=
  match fdec f32 a with
  | .nan => f32.qnan
  | .inf s => if s then f32.qnan else f32.infBits false
  | .num s m e =>
    if m = 0 then f32.infBits true
    else if s then f32.qnan
    else
      let v := log2At m e
      pick v.1 (fround f32 .ne (decide (v.1 < 0)) v.1.natAbs (-64) (!v.2))

/-- log2 A rounded to nearest even. -/
def flog2Near (a : Nat) : Nat := flog2With (fun _ x => x) a

/-- R144. log2 A within 2 ulp. -/
def flog2 (a : Nat) : Nat :=
  flog2With (fun v x => fpick 0x35 a (fun c => withinUlp c 2 (decide (v < 0)) v.natAbs 1 (-64)) x) a

/-- Terms of the sine or cosine series at x (units of 2^-64): next terms t·x²/((k+1)(k+2)) with alternating sign. -/
def trigSeries : Nat → Nat → Int → Int → Int → Int
  | 0, _, _, _, acc => acc
  | n + 1, k, x2, t, acc =>
    let t' := -(t * x2 / ((2 ^ 64 : Nat) : Int)) / (((k + 1) * (k + 2) : Nat) : Int)
    trigSeries n (k + 2) x2 t' (acc + t')

/-- 2π in units of 2^-64. -/
def twoPi64 : Int := 115904311329233965478

/-- sin (quarter 0) or cos (quarter 1) of 2πA in units of 2^-64, for A = n / 2^64 of a turn. -/
def trig64 (quarter : Nat) (n : Nat) : Int :=
  let n : Nat := (n + quarter * 2 ^ 62) % 2 ^ 64
  -- reduce to the angle nearest zero with sin(π − x) = sin x
  let h : Int := if n < 2 ^ 62 then (n : Int) else if n < 3 * 2 ^ 62 then ((2 ^ 63 : Nat) : Int) - (n : Int) else (n : Int) - ((2 ^ 64 : Nat) : Int)
  let x := h * twoPi64 / ((2 ^ 64 : Nat) : Int)
  trigSeries 12 1 (x * x / ((2 ^ 64 : Nat) : Int)) x x

/-- R144. sin(2πA) (quarter 0) or cos(2πA) (quarter 1), absolute error at most 2^−22; NaN for infinite or NaN inputs (R145). -/
def ftrig (op quarter a : Nat) : Nat :=
  match fdec f32 a with
  | .nan => f32.qnan
  | .inf _ => f32.qnan
  | .num s m e =>
    let n0 : Nat := if 0 ≤ e + 64 then m * 2 ^ (e + 64).toNat % 2 ^ 64 else m / 2 ^ (-(e + 64)).toNat
    let n : Nat := if s then (2 ^ 64 - n0) % 2 ^ 64 else n0
    let v := trig64 quarter n
    fpick op a (fun c => match fdec f32 c with
      | .num sc mc ec =>
        -- |c − v·2^-64| ≤ 2^-22; a pattern of an exponent above 0 is too large
        decide (ec ≤ 0) && decide ((numAt sc mc (ec + 200) 0 - v * ((2 ^ 136 : Nat) : Int)).natAbs ≤ 2 ^ 178)
      | _ => false) (fround f32 .ne (decide (v < 0)) v.natAbs (-64) false)

end Sys2Proof.Machine
end

