-- ==== Sys2Proof/Machine/RegTable.lean ====
section
/-! DEFINITION. The register map: every register and array of the spec's register tables (the field tables of the
chapters, R533), its fields with their types and reset values, the constants that name the fields, and the rows that
`REGISTER_WRITE` and `RC_READ` read the field types from. -/
namespace Sys2Proof.Machine

/-- R5. The type of a register field. -/
inductive FType where | rw | ro | wo | w1c | w1s | rc | sh | lk
  deriving DecidableEq, Repr

/-- One field of a register: its lowest bit, its width, its type and its reset value. -/
structure FieldRow where
  lsb : Nat
  width : Nat
  typ : FType
  reset : Nat
  deriving DecidableEq, Repr

/-- What the first index of an array counts, for R3: units absent from a smaller member read as zero. -/
inductive DimUnit where | none | tile | hamlet
  deriving DecidableEq, Repr

/-- One register, or one array of registers: BAR0 offset of its first element, its dimensions (count, stride, the
outer index first), what the outer index counts, whether it is a snapshot copy (R8), and its fields. -/
structure RegRow where
  base : Nat
  dims : List (Nat × Nat)
  unit : DimUnit
  snapMask : Nat
  fields : List FieldRow
  deriving DecidableEq, Repr

/-- A field of one register: the register's BAR0 offset, the field's lowest bit and its width. -/
structure Fld where
  addr : Nat
  lsb : Nat
  width : Nat
  deriving DecidableEq, Repr

/-! ### Field constants: `R.<register>_<field> <indices>` -/

def R.GLB_ID_PART : Fld := ⟨0x0, 0, 16⟩
def R.GLB_ID_STEP : Fld := ⟨0x0, 16, 8⟩
def R.GLB_BOOT_STAGE : Fld := ⟨0x4, 0, 4⟩
def R.GLB_BOOT_SLOT : Fld := ⟨0x4, 4, 1⟩
def R.GLB_BOOT_FALLBACK : Fld := ⟨0x4, 5, 1⟩
def R.GLB_BOOT_CAUSE : Fld := ⟨0x4, 8, 3⟩
def R.GLB_RST_WARM : Fld := ⟨0x8, 0, 1⟩
def R.GLB_RST_CONFIRM : Fld := ⟨0x8, 8, 8⟩
def R.GLB_UPTIME_MS : Fld := ⟨0xC, 0, 32⟩
def R.SPV_STAT_CFG_VALID : Fld := ⟨0x10000, 0, 1⟩
def R.SPV_STAT_DIP : Fld := ⟨0x10000, 1, 1⟩
def R.SPV_STAT_ATT_EN : Fld := ⟨0x10000, 2, 1⟩
def R.SPV_RSTAT_OP : Fld := ⟨0x10004, 0, 8⟩
def R.SPV_RSTAT_STATUS : Fld := ⟨0x10004, 8, 8⟩
def R.SPV_RSTAT_LEN : Fld := ⟨0x10004, 16, 15⟩
def R.SPV_RSTAT_DONE : Fld := ⟨0x10004, 31, 1⟩
def R.SPV_CFGSEQ_SEQ : Fld := ⟨0x10008, 0, 32⟩
def R.SPV_ATT_LEAF : Fld := ⟨0x1000C, 0, 20⟩
def R.SPV_ATT_CREDIT : Fld := ⟨0x1000C, 20, 7⟩
def R.SPV_ATTWAIT_WAIT_S : Fld := ⟨0x10010, 0, 16⟩
def R.SPV_SVN_MIN : Fld := ⟨0x10014, 0, 24⟩
def R.SPV_LHEAD_SEQ : Fld := ⟨0x10018, 0, 32⟩
def R.SPV_LERASE_COUNT : Fld := ⟨0x1001C, 0, 32⟩
def R.SPV_DIPCNT_COUNT : Fld := ⟨0x10020, 0, 32⟩
def R.SPV_BOCNT_COUNT : Fld := ⟨0x10024, 0, 32⟩
def R.SPV_CFG_W (w : Nat) : Fld := ⟨0x10100 + w * 0x4, 0, 32⟩
def R.SPV_DEVPK_W (w : Nat) : Fld := ⟨0x10200 + w * 0x4, 0, 32⟩
def R.SPV_IKH_W (w : Nat) : Fld := ⟨0x10280 + w * 0x4, 0, 32⟩
def R.SPV_RESP_W (w : Nat) : Fld := ⟨0x14000 + w * 0x4, 0, 32⟩
def R.SPV_SNAPCTL_SNAP : Fld := ⟨0x1FFF0, 0, 1⟩
def R.SPV_SNAPCTL_BUSY : Fld := ⟨0x1FFF0, 1, 1⟩
def R.SPV_SNAPCTL_SEQ : Fld := ⟨0x1FFF0, 16, 16⟩
def R.HST_CTL_HWIN_EN : Fld := ⟨0x20000, 0, 1⟩
def R.HST_STAT_LINK_UP : Fld := ⟨0x20004, 0, 1⟩
def R.HST_STAT_PERST : Fld := ⟨0x20004, 1, 1⟩
def R.HST_STAT_SPEED : Fld := ⟨0x20004, 2, 3⟩
def R.HST_STAT_WIDTH : Fld := ⟨0x20004, 5, 5⟩
def R.HST_BAR2_BASE_BASE : Fld := ⟨0x20008, 0, 12⟩
def R.HST_HWIN_LO_ADDR : Fld := ⟨0x20010, 12, 20⟩
def R.HST_HWIN_HI_ADDR : Fld := ⟨0x20014, 0, 32⟩
def R.HST_AERR_LO_OFFSET : Fld := ⟨0x20020, 0, 32⟩
def R.HST_AERR_HI_OFFSET : Fld := ⟨0x20024, 0, 5⟩
def R.HST_AERR_HI_BAR : Fld := ⟨0x20024, 8, 2⟩
def R.HST_AERR_HI_KIND : Fld := ⟨0x20024, 12, 4⟩
def R.HST_AERR_HI_VALID : Fld := ⟨0x20024, 31, 1⟩
def R.HST_PERR_LO_OFFSET : Fld := ⟨0x20028, 0, 32⟩
def R.HST_PERR_HI_OFFSET : Fld := ⟨0x2002C, 0, 7⟩
def R.HST_PERR_HI_KIND : Fld := ⟨0x2002C, 12, 4⟩
def R.HST_PERR_HI_VALID : Fld := ⟨0x2002C, 31, 1⟩
def R.HST_WR_SQ_LO_ADDR (ring : Nat) : Fld := ⟨0x21000 + ring * 0x40, 6, 26⟩
def R.HST_WR_SQ_HI_ADDR (ring : Nat) : Fld := ⟨0x21004 + ring * 0x40, 0, 16⟩
def R.HST_WR_CQ_LO_ADDR (ring : Nat) : Fld := ⟨0x21008 + ring * 0x40, 5, 27⟩
def R.HST_WR_CQ_HI_ADDR (ring : Nat) : Fld := ⟨0x2100C + ring * 0x40, 0, 16⟩
def R.HST_WR_CFG_LOG2N (ring : Nat) : Fld := ⟨0x21010 + ring * 0x40, 0, 4⟩
def R.HST_WR_CFG_EN (ring : Nat) : Fld := ⟨0x21010 + ring * 0x40, 4, 1⟩
def R.HST_WR_CFG_CTX (ring : Nat) : Fld := ⟨0x21010 + ring * 0x40, 8, 6⟩
def R.HST_WR_CFG_CORE (ring : Nat) : Fld := ⟨0x21010 + ring * 0x40, 16, 3⟩
def R.HST_WR_DB_TAIL (ring : Nat) : Fld := ⟨0x21014 + ring * 0x40, 0, 12⟩
def R.HST_WR_HEAD_HEAD (ring : Nat) : Fld := ⟨0x21018 + ring * 0x40, 0, 12⟩
def R.HST_WR_CQH_CQH (ring : Nat) : Fld := ⟨0x2101C + ring * 0x40, 0, 13⟩
def R.HST_WR_STAT_STATE (ring : Nat) : Fld := ⟨0x21020 + ring * 0x40, 0, 2⟩
def R.HST_WR_STAT_CQ_FULL (ring : Nat) : Fld := ⟨0x21020 + ring * 0x40, 2, 1⟩
def R.HST_WR_STAT_CAUSE (ring : Nat) : Fld := ⟨0x21020 + ring * 0x40, 8, 4⟩
def R.HST_CNT_COUNT (n : Nat) : Fld := ⟨0x22000 + n * 0x4, 0, 32⟩
def R.INT_CAUSE_CAUSE (g : Nat) : Fld := ⟨0x30000 + g * 0x4, 0, 32⟩
def R.INT_EN_EN (g : Nat) : Fld := ⟨0x30040 + g * 0x4, 0, 32⟩
def R.INT_VMAP_V0 (w : Nat) : Fld := ⟨0x30100 + w * 0x4, 0, 6⟩
def R.INT_VMAP_V1 (w : Nat) : Fld := ⟨0x30100 + w * 0x4, 8, 6⟩
def R.INT_VMAP_V2 (w : Nat) : Fld := ⟨0x30100 + w * 0x4, 16, 6⟩
def R.INT_VMAP_V3 (w : Nat) : Fld := ⟨0x30100 + w * 0x4, 24, 6⟩
def R.INT_VACT_LO_VACT : Fld := ⟨0x30200, 0, 32⟩
def R.INT_VACT_HI_VACT : Fld := ⟨0x30204, 0, 32⟩
def R.MMU_CTL_ENABLE : Fld := ⟨0x40000, 0, 1⟩
def R.MMU_CTL_LOCK0 : Fld := ⟨0x40000, 1, 1⟩
def R.MMU_STAT_SAVE_REFUSED : Fld := ⟨0x40004, 0, 1⟩
def R.MMU_STAT_OVERFLOW : Fld := ⟨0x40004, 1, 1⟩
def R.MMU_FRING_LO_ADDR : Fld := ⟨0x40010, 5, 27⟩
def R.MMU_FRING_HI_ADDR : Fld := ⟨0x40014, 0, 16⟩
def R.MMU_FRING_CNT_LOG2N : Fld := ⟨0x40018, 0, 4⟩
def R.MMU_FRING_HEAD_HEAD : Fld := ⟨0x4001C, 0, 32⟩
def R.MMU_FRING_TAIL_TAIL : Fld := ⟨0x40020, 0, 32⟩
def R.MMU_FRING_DROP_DROP : Fld := ⟨0x40024, 0, 32⟩
def R.MMU_FLAST_VA_LO_VA : Fld := ⟨0x40030, 0, 32⟩
def R.MMU_FLAST_VA_HI_VA : Fld := ⟨0x40034, 0, 32⟩
def R.MMU_FLAST_INFO_INFO : Fld := ⟨0x40038, 0, 32⟩
def R.MMU_CTX_ROOT_LO_ADDR (ctx : Nat) : Fld := ⟨0x41000 + ctx * 0x10, 12, 20⟩
def R.MMU_CTX_ROOT_HI_ADDR (ctx : Nat) : Fld := ⟨0x41004 + ctx * 0x10, 0, 8⟩
def R.MMU_CTX_CFG_EN (ctx : Nat) : Fld := ⟨0x41008 + ctx * 0x10, 0, 1⟩
def R.MMU_INV_A_CTX (port : Nat) : Fld := ⟨0x42000 + port * 0x20, 0, 6⟩
def R.MMU_INV_A_SCOPE (port : Nat) : Fld := ⟨0x42000 + port * 0x20, 8, 2⟩
def R.MMU_INV_A_GO (port : Nat) : Fld := ⟨0x42000 + port * 0x20, 31, 1⟩
def R.MMU_INV_ADDR_LO_ADDR (port : Nat) : Fld := ⟨0x42004 + port * 0x20, 12, 20⟩
def R.MMU_INV_ADDR_HI_ADDR (port : Nat) : Fld := ⟨0x42008 + port * 0x20, 0, 16⟩
def R.MMU_INV_PAGES_PAGES (port : Nat) : Fld := ⟨0x4200C + port * 0x20, 0, 28⟩
def R.MMU_INV_SEQ_QSEQ (port : Nat) : Fld := ⟨0x42010 + port * 0x20, 0, 16⟩
def R.MMU_INV_SEQ_DSEQ (port : Nat) : Fld := ⟨0x42010 + port * 0x20, 16, 16⟩
def R.MMU_CNT_COUNT (n : Nat) : Fld := ⟨0x43000 + n * 0x4, 0, 32⟩
def R.MMU_SNAPCTL_SNAP : Fld := ⟨0x4FFF0, 0, 1⟩
def R.MMU_SNAPCTL_BUSY : Fld := ⟨0x4FFF0, 1, 1⟩
def R.MMU_SNAPCTL_SEQ : Fld := ⟨0x4FFF0, 16, 16⟩
def R.DMA_RBASE_LO_ADDR (engine : Nat) (ring : Nat) : Fld := ⟨0x51000 + engine * 0x100 + ring * 0x40, 6, 26⟩
def R.DMA_RBASE_HI_ADDR (engine : Nat) (ring : Nat) : Fld := ⟨0x51004 + engine * 0x100 + ring * 0x40, 0, 16⟩
def R.DMA_RCFG_LOG2N (engine : Nat) (ring : Nat) : Fld := ⟨0x51008 + engine * 0x100 + ring * 0x40, 0, 4⟩
def R.DMA_RCFG_EN (engine : Nat) (ring : Nat) : Fld := ⟨0x51008 + engine * 0x100 + ring * 0x40, 4, 1⟩
def R.DMA_RCFG_CLASS (engine : Nat) (ring : Nat) : Fld := ⟨0x51008 + engine * 0x100 + ring * 0x40, 5, 1⟩
def R.DMA_RCFG_CTX (engine : Nat) (ring : Nat) : Fld := ⟨0x51008 + engine * 0x100 + ring * 0x40, 8, 6⟩
def R.DMA_RCFG_DB_RING (engine : Nat) (ring : Nat) : Fld := ⟨0x51008 + engine * 0x100 + ring * 0x40, 16, 8⟩
def R.DMA_TAIL_TAIL (engine : Nat) (ring : Nat) : Fld := ⟨0x5100C + engine * 0x100 + ring * 0x40, 0, 12⟩
def R.DMA_HEAD_HEAD (engine : Nat) (ring : Nat) : Fld := ⟨0x51010 + engine * 0x100 + ring * 0x40, 0, 12⟩
def R.DMA_RCTL_RESUME (engine : Nat) (ring : Nat) : Fld := ⟨0x51014 + engine * 0x100 + ring * 0x40, 0, 1⟩
def R.DMA_RCTL_SKIP (engine : Nat) (ring : Nat) : Fld := ⟨0x51014 + engine * 0x100 + ring * 0x40, 1, 1⟩
def R.DMA_RCTL_PAUSE (engine : Nat) (ring : Nat) : Fld := ⟨0x51014 + engine * 0x100 + ring * 0x40, 2, 1⟩
def R.DMA_RSTAT_BUSY (engine : Nat) (ring : Nat) : Fld := ⟨0x51018 + engine * 0x100 + ring * 0x40, 0, 1⟩
def R.DMA_RSTAT_HALTED (engine : Nat) (ring : Nat) : Fld := ⟨0x51018 + engine * 0x100 + ring * 0x40, 1, 1⟩
def R.DMA_RSTAT_CAUSE (engine : Nat) (ring : Nat) : Fld := ⟨0x51018 + engine * 0x100 + ring * 0x40, 8, 4⟩
def R.DMA_PROW_ROWS_DONE (engine : Nat) (ring : Nat) : Fld := ⟨0x5101C + engine * 0x100 + ring * 0x40, 0, 32⟩
def R.DMA_PBYTE_BYTES_DONE (engine : Nat) (ring : Nat) : Fld := ⟨0x51020 + engine * 0x100 + ring * 0x40, 0, 32⟩
def R.DMA_CNT_COUNT (engine : Nat) (n : Nat) : Fld := ⟨0x54000 + engine * 0x20 + n * 0x4, 0, 32⟩
def R.STW_STAT_HALTED : Fld := ⟨0x60004, 0, 8⟩
def R.STW_STAT_FAULT : Fld := ⟨0x60004, 8, 8⟩
def R.STW_EVCNT_COUNT (core : Nat) : Fld := ⟨0x60100 + core * 0x4, 0, 32⟩
def R.ENG_CTL_ENABLE : Fld := ⟨0x70000, 0, 1⟩
def R.ENG_CTL_PREEMPT_EN : Fld := ⟨0x70000, 1, 1⟩
def R.ENG_STAT_BUSY : Fld := ⟨0x70004, 0, 16⟩
def R.ENG_STAT_SAVING : Fld := ⟨0x70004, 16, 16⟩
def R.ENG_HSTAT_SPARE (hamlet : Nat) : Fld := ⟨0x70100 + hamlet * 0x4, 0, 5⟩
def R.ENG_HSTAT_DEGRADED (hamlet : Nat) : Fld := ⟨0x70100 + hamlet * 0x4, 5, 1⟩
def R.ENG_HSTAT_LIVE (hamlet : Nat) : Fld := ⟨0x70100 + hamlet * 0x4, 8, 16⟩
def R.ENG_MAP_PHYS (hamlet : Nat) (logical : Nat) : Fld := ⟨0x70200 + hamlet * 0x40 + logical * 0x4, 0, 5⟩
def R.ENG_CNT_COUNT (hamlet : Nat) (n : Nat) : Fld := ⟨0x70800 + hamlet * 0x20 + n * 0x4, 0, 32⟩
def R.ENG_SNAPCTL_SNAP : Fld := ⟨0x7FFF0, 0, 1⟩
def R.ENG_SNAPCTL_BUSY : Fld := ⟨0x7FFF0, 1, 1⟩
def R.ENG_SNAPCTL_SEQ : Fld := ⟨0x7FFF0, 16, 16⟩
def R.SYN_CTL_ENABLE : Fld := ⟨0x80000, 0, 1⟩
def R.SYN_CTL_MODE : Fld := ⟨0x80000, 1, 1⟩
def R.SYN_CTL_FILTER : Fld := ⟨0x80000, 2, 2⟩
def R.SYN_STAT_ACTIVE : Fld := ⟨0x80004, 0, 1⟩
def R.SYN_STAT_RMAP_BOUND : Fld := ⟨0x80004, 1, 1⟩
def R.SYN_STAT_INV_BUSY : Fld := ⟨0x80004, 2, 1⟩
def R.SYN_BKGND_COLOUR : Fld := ⟨0x80008, 0, 30⟩
def R.SYN_LOD_BIAS : Fld := ⟨0x8000C, 0, 8⟩
def R.SYN_DCTL_AUTO : Fld := ⟨0x80010, 0, 1⟩
def R.SYN_DCTL_FIXED_LEVEL : Fld := ⟨0x80010, 1, 2⟩
def R.SYN_DCTL_MAX_LEVEL : Fld := ⟨0x80010, 3, 2⟩
def R.SYN_DCTL_UP_FRAMES : Fld := ⟨0x80010, 8, 4⟩
def R.SYN_DBUDGET_FILL : Fld := ⟨0x80014, 0, 7⟩
def R.SYN_DBUDGET_UP_MARGIN : Fld := ⟨0x80014, 8, 8⟩
def R.SYN_DBUDGET_TARGET : Fld := ⟨0x80014, 16, 16⟩
def R.SYN_DSTAT_LEVEL : Fld := ⟨0x80018, 0, 2⟩
def R.SYN_DSTAT_CAUSE : Fld := ⟨0x80018, 8, 8⟩
def R.SYN_DLOG_LO_ADDR : Fld := ⟨0x80020, 5, 27⟩
def R.SYN_DLOG_HI_ADDR : Fld := ⟨0x80024, 0, 16⟩
def R.SYN_DLOG_CNT_LOG2N : Fld := ⟨0x80028, 0, 5⟩
def R.SYN_DLOG_HEAD_HEAD : Fld := ⟨0x8002C, 0, 32⟩
def R.SYN_DLOG_DROP_DROP : Fld := ⟨0x80030, 0, 32⟩
def R.SYN_BAND_DEPTH : Fld := ⟨0x80040, 0, 7⟩
def R.SYN_BAND_LEAD : Fld := ⟨0x80040, 8, 7⟩
def R.SYN_CAM_KMAX : Fld := ⟨0x80050, 0, 4⟩
def R.SYN_CAM_SKIP_MARKED : Fld := ⟨0x80050, 4, 1⟩
def R.SYN_CAMTAB_LO_ADDR : Fld := ⟨0x80054, 8, 24⟩
def R.SYN_CAMTAB_HI_ADDR : Fld := ⟨0x80058, 0, 16⟩
def R.SYN_CADDY_INV_ALL : Fld := ⟨0x80060, 0, 1⟩
def R.SYN_CADDY_INV_STREAM : Fld := ⟨0x80060, 1, 1⟩
def R.SYN_CADDY_INV_SLOT : Fld := ⟨0x80060, 4, 4⟩
def R.SYN_RING_LO_ADDR (tile : Nat) : Fld := ⟨0x81000 + tile * 0x8, 8, 24⟩
def R.SYN_RING_HI_ADDR (tile : Nat) : Fld := ⟨0x81004 + tile * 0x8, 0, 16⟩
def R.SYN_RING_PITCH_PITCH (tile : Nat) : Fld := ⟨0x81400 + tile * 0x4, 0, 32⟩
def R.SYN_WMARK_LINE (tile : Nat) : Fld := ⟨0x81600 + tile * 0x4, 0, 6⟩
def R.SYN_READY_LO_READY (tile : Nat) : Fld := ⟨0x81800 + tile * 0x8, 0, 32⟩
def R.SYN_READY_HI_READY (tile : Nat) : Fld := ⟨0x81804 + tile * 0x8, 0, 32⟩
def R.SYN_HCNT_COUNT (hamlet : Nat) (n : Nat) : Fld := ⟨0x82000 + hamlet * 0x100 + n * 0x4, 0, 32⟩
def R.SYN_SNAPCTL_SNAP : Fld := ⟨0x8FFF0, 0, 1⟩
def R.SYN_SNAPCTL_BUSY : Fld := ⟨0x8FFF0, 1, 1⟩
def R.SYN_SNAPCTL_SEQ : Fld := ⟨0x8FFF0, 16, 16⟩
def R.PKR_CTL_ENABLE : Fld := ⟨0x90000, 0, 1⟩
def R.PKR_CTL_PAUSE : Fld := ⟨0x90000, 1, 1⟩
def R.PKR_STAT_BUSY : Fld := ⟨0x90004, 0, 1⟩
def R.PKR_STAT_HALTED : Fld := ⟨0x90004, 1, 1⟩
def R.PKR_STAT_RING : Fld := ⟨0x90004, 2, 1⟩
def R.PKR_RBASE_LO_ADDR (ring : Nat) : Fld := ⟨0x90100 + ring * 0x20, 6, 26⟩
def R.PKR_RBASE_HI_ADDR (ring : Nat) : Fld := ⟨0x90104 + ring * 0x20, 0, 16⟩
def R.PKR_RCFG_LOG2N (ring : Nat) : Fld := ⟨0x90108 + ring * 0x20, 0, 4⟩
def R.PKR_RCFG_RCTX (ring : Nat) : Fld := ⟨0x90108 + ring * 0x20, 8, 6⟩
def R.PKR_TAIL_TAIL (ring : Nat) : Fld := ⟨0x9010C + ring * 0x20, 0, 12⟩
def R.PKR_HEAD_HEAD (ring : Nat) : Fld := ⟨0x90110 + ring * 0x20, 0, 12⟩
def R.PKR_CNT_COUNT (n : Nat) : Fld := ⟨0x91000 + n * 0x4, 0, 32⟩
def R.PKR_SNAPCTL_SNAP : Fld := ⟨0x9FFF0, 0, 1⟩
def R.PKR_SNAPCTL_BUSY : Fld := ⟨0x9FFF0, 1, 1⟩
def R.PKR_SNAPCTL_SEQ : Fld := ⟨0x9FFF0, 16, 16⟩
def R.BLT_CTL_ENABLE : Fld := ⟨0xA0000, 0, 1⟩
def R.BLT_CTL_PAUSE : Fld := ⟨0xA0000, 1, 1⟩
def R.BLT_CTL_RESUME : Fld := ⟨0xA0000, 2, 1⟩
def R.BLT_CTL_SKIP : Fld := ⟨0xA0000, 3, 1⟩
def R.BLT_STAT_BUSY : Fld := ⟨0xA0004, 0, 1⟩
def R.BLT_STAT_HALTED : Fld := ⟨0xA0004, 1, 1⟩
def R.BLT_STAT_WAITING : Fld := ⟨0xA0004, 2, 1⟩
def R.BLT_STAT_HAZARD : Fld := ⟨0xA0004, 3, 1⟩
def R.BLT_STAT_BADREC : Fld := ⟨0xA0004, 4, 1⟩
def R.BLT_RBASE_LO_ADDR : Fld := ⟨0xA0008, 5, 27⟩
def R.BLT_RBASE_HI_ADDR : Fld := ⟨0xA000C, 0, 16⟩
def R.BLT_RCFG_LOG2N : Fld := ⟨0xA0010, 0, 4⟩
def R.BLT_RCFG_RCTX : Fld := ⟨0xA0010, 8, 6⟩
def R.BLT_TAIL_TAIL : Fld := ⟨0xA0014, 0, 12⟩
def R.BLT_HEAD_HEAD : Fld := ⟨0xA0018, 0, 12⟩
def R.BLT_FAULT_INDEX : Fld := ⟨0xA001C, 0, 12⟩
def R.BLT_FAULT_CAUSE : Fld := ⟨0xA001C, 16, 4⟩
def R.BLT_FROW_ROWS : Fld := ⟨0xA0020, 0, 15⟩
def R.BLT_FCOL_ELEMS : Fld := ⟨0xA0024, 0, 15⟩
def R.BLT_HZIDX_INDEX : Fld := ⟨0xA0028, 0, 12⟩
def R.BLT_BADIDX_INDEX : Fld := ⟨0xA002C, 0, 12⟩
def R.BLT_BADIDX_REASON : Fld := ⟨0xA002C, 16, 4⟩
def R.BLT_WMSTAT_INDEX : Fld := ⟨0xA0030, 0, 12⟩
def R.BLT_WMSTAT_WM : Fld := ⟨0xA0030, 16, 15⟩
def R.BLT_CNT_COUNT (n : Nat) : Fld := ⟨0xA1000 + n * 0x4, 0, 32⟩
def R.BLT_SNAPCTL_SNAP : Fld := ⟨0xAFFF0, 0, 1⟩
def R.BLT_SNAPCTL_BUSY : Fld := ⟨0xAFFF0, 1, 1⟩
def R.BLT_SNAPCTL_SEQ : Fld := ⟨0xAFFF0, 16, 16⟩
def R.CMP_CTL_ENABLE : Fld := ⟨0xB0000, 0, 1⟩
def R.CMP_STAT_ACTIVE : Fld := ⟨0xB0004, 0, 1⟩
def R.CMP_REJ_VALID : Fld := ⟨0xB0008, 0, 1⟩
def R.CMP_REJ_REASON : Fld := ⟨0xB0008, 4, 4⟩
def R.CMP_REJ_TILE : Fld := ⟨0xB0008, 8, 6⟩
def R.CMP_REJ_LAYER : Fld := ⟨0xB0008, 16, 3⟩
def R.CMP_TCTL_EN (tile : Nat) : Fld := ⟨0xB0100 + tile * 0x40, 0, 1⟩
def R.CMP_TCTL_PROG (tile : Nat) : Fld := ⟨0xB0100 + tile * 0x40, 1, 1⟩
def R.CMP_TCTL_WB_EN (tile : Nat) : Fld := ⟨0xB0100 + tile * 0x40, 2, 1⟩
def R.CMP_TCTL_FILL_EN (tile : Nat) : Fld := ⟨0xB0100 + tile * 0x40, 3, 1⟩
def R.CMP_ORDER_ORDER (tile : Nat) : Fld := ⟨0xB0104 + tile * 0x40, 0, 24⟩
def R.CMP_TBASE_COLOUR (tile : Nat) : Fld := ⟨0xB0108 + tile * 0x40, 0, 30⟩
def R.CMP_WB_LO_ADDR (tile : Nat) : Fld := ⟨0xB010C + tile * 0x40, 8, 24⟩
def R.CMP_WB_HI_ADDR (tile : Nat) : Fld := ⟨0xB0110 + tile * 0x40, 0, 16⟩
def R.CMP_WB_PITCH_PITCH (tile : Nat) : Fld := ⟨0xB0114 + tile * 0x40, 0, 24⟩
def R.CMP_TSTAT_FLAGS (tile : Nat) : Fld := ⟨0xB0118 + tile * 0x40, 0, 8⟩
def R.CMP_TSTAT_FAULT_LAYERS (tile : Nat) : Fld := ⟨0xB0118 + tile * 0x40, 8, 8⟩
def R.CMP_TSTAT_PENDING (tile : Nat) : Fld := ⟨0xB0118 + tile * 0x40, 16, 8⟩
def R.CMP_WBDONE_FRAME (tile : Nat) : Fld := ⟨0xB011C + tile * 0x40, 0, 32⟩
def R.CMP_DOX_VALUE (tile : Nat) : Fld := ⟨0xB0120 + tile * 0x40, 0, 32⟩
def R.CMP_DOY_VALUE (tile : Nat) : Fld := ⟨0xB0124 + tile * 0x40, 0, 32⟩
def R.CMP_SXMIN_VALUE (tile : Nat) : Fld := ⟨0xB0128 + tile * 0x40, 0, 32⟩
def R.CMP_SXMAX_VALUE (tile : Nat) : Fld := ⟨0xB012C + tile * 0x40, 0, 32⟩
def R.CMP_SYMIN_VALUE (tile : Nat) : Fld := ⟨0xB0130 + tile * 0x40, 0, 32⟩
def R.CMP_SYMAX_VALUE (tile : Nat) : Fld := ⟨0xB0134 + tile * 0x40, 0, 32⟩
def R.CMP_LCTL_EN (tile : Nat) (layer : Nat) : Fld := ⟨0xB2000 + tile * 0x200 + layer * 0x40, 0, 1⟩
def R.CMP_LCTL_PLACE (tile : Nat) (layer : Nat) : Fld := ⟨0xB2000 + tile * 0x200 + layer * 0x40, 1, 1⟩
def R.CMP_LCTL_DRES (tile : Nat) (layer : Nat) : Fld := ⟨0xB2000 + tile * 0x200 + layer * 0x40, 2, 1⟩
def R.CMP_LCTL_FENCE_EN (tile : Nat) (layer : Nat) : Fld := ⟨0xB2000 + tile * 0x200 + layer * 0x40, 3, 1⟩
def R.CMP_LCTL_HOLD_PREV (tile : Nat) (layer : Nat) : Fld := ⟨0xB2000 + tile * 0x200 + layer * 0x40, 4, 1⟩
def R.CMP_LCTL_FMT (tile : Nat) (layer : Nat) : Fld := ⟨0xB2000 + tile * 0x200 + layer * 0x40, 8, 4⟩
def R.CMP_LCTL_BLEND (tile : Nat) (layer : Nat) : Fld := ⟨0xB2000 + tile * 0x200 + layer * 0x40, 12, 2⟩
def R.CMP_LCTL_GALPHA (tile : Nat) (layer : Nat) : Fld := ⟨0xB2000 + tile * 0x200 + layer * 0x40, 16, 10⟩
def R.CMP_LBASE_LO_ADDR (tile : Nat) (layer : Nat) : Fld := ⟨0xB2004 + tile * 0x200 + layer * 0x40, 8, 24⟩
def R.CMP_LBASE_HI_ADDR (tile : Nat) (layer : Nat) : Fld := ⟨0xB2008 + tile * 0x200 + layer * 0x40, 0, 16⟩
def R.CMP_LPITCH_PITCH (tile : Nat) (layer : Nat) : Fld := ⟨0xB200C + tile * 0x200 + layer * 0x40, 0, 24⟩
def R.CMP_LSRC_SRC_W (tile : Nat) (layer : Nat) : Fld := ⟨0xB2010 + tile * 0x200 + layer * 0x40, 0, 16⟩
def R.CMP_LSRC_SRC_H (tile : Nat) (layer : Nat) : Fld := ⟨0xB2010 + tile * 0x200 + layer * 0x40, 16, 16⟩
def R.CMP_LDPOS_DST_X (tile : Nat) (layer : Nat) : Fld := ⟨0xB2014 + tile * 0x200 + layer * 0x40, 0, 13⟩
def R.CMP_LDPOS_DST_Y (tile : Nat) (layer : Nat) : Fld := ⟨0xB2014 + tile * 0x200 + layer * 0x40, 16, 12⟩
def R.CMP_LDSIZE_DST_W (tile : Nat) (layer : Nat) : Fld := ⟨0xB2018 + tile * 0x200 + layer * 0x40, 0, 14⟩
def R.CMP_LDSIZE_DST_H (tile : Nat) (layer : Nat) : Fld := ⟨0xB2018 + tile * 0x200 + layer * 0x40, 16, 13⟩
def R.CMP_LFB_COLOUR (tile : Nat) (layer : Nat) : Fld := ⟨0xB201C + tile * 0x200 + layer * 0x40, 0, 30⟩
def R.CMP_LFB_OPAQUE (tile : Nat) (layer : Nat) : Fld := ⟨0xB201C + tile * 0x200 + layer * 0x40, 30, 1⟩
def R.CMP_LZ_VALUE (tile : Nat) (layer : Nat) : Fld := ⟨0xB2020 + tile * 0x200 + layer * 0x40, 0, 32⟩
def R.CMP_LXL_VALUE (tile : Nat) (layer : Nat) : Fld := ⟨0xB2024 + tile * 0x200 + layer * 0x40, 0, 32⟩
def R.CMP_LYT_VALUE (tile : Nat) (layer : Nat) : Fld := ⟨0xB2028 + tile * 0x200 + layer * 0x40, 0, 32⟩
def R.CMP_LTX_VALUE (tile : Nat) (layer : Nat) : Fld := ⟨0xB202C + tile * 0x200 + layer * 0x40, 0, 32⟩
def R.CMP_LTY_VALUE (tile : Nat) (layer : Nat) : Fld := ⟨0xB2030 + tile * 0x200 + layer * 0x40, 0, 32⟩
def R.CMP_LFENCE_LO_ADDR (tile : Nat) (layer : Nat) : Fld := ⟨0xB2034 + tile * 0x200 + layer * 0x40, 2, 30⟩
def R.CMP_LFENCE_HI_ADDR (tile : Nat) (layer : Nat) : Fld := ⟨0xB2038 + tile * 0x200 + layer * 0x40, 0, 16⟩
def R.CMP_LFVAL_VALUE (tile : Nat) (layer : Nat) : Fld := ⟨0xB203C + tile * 0x200 + layer * 0x40, 0, 32⟩
def R.CMP_CNT_COUNT (tile : Nat) (n : Nat) : Fld := ⟨0xBA000 + tile * 0x40 + n * 0x4, 0, 32⟩
def R.CMP_SNAPCTL_SNAP : Fld := ⟨0xBFFF0, 0, 1⟩
def R.CMP_SNAPCTL_BUSY : Fld := ⟨0xBFFF0, 1, 1⟩
def R.CMP_SNAPCTL_SEQ : Fld := ⟨0xBFFF0, 16, 16⟩
def R.SCO_CTL_ENABLE : Fld := ⟨0xC0000, 0, 1⟩
def R.SCO_CTL_IDLE_EN : Fld := ⟨0xC0000, 1, 1⟩
def R.SCO_STAT_RUNNING : Fld := ⟨0xC0004, 0, 1⟩
def R.SCO_STAT_VBLANK : Fld := ⟨0xC0004, 1, 1⟩
def R.SCO_STAT_ARMED : Fld := ⟨0xC0004, 2, 1⟩
def R.SCO_STAT_LOCKED : Fld := ⟨0xC0004, 3, 1⟩
def R.SCO_STAT_HOLDOVER : Fld := ⟨0xC0004, 4, 1⟩
def R.SCO_STAT_SEQ : Fld := ⟨0xC0004, 5, 2⟩
def R.SCO_STAT_CLASS : Fld := ⟨0xC0004, 7, 1⟩
def R.SCO_COMMIT_COMMIT : Fld := ⟨0xC0008, 0, 1⟩
def R.SCO_CSTAT_ACCEPTED : Fld := ⟨0xC000C, 0, 1⟩
def R.SCO_CSTAT_REFUSED : Fld := ⟨0xC000C, 1, 1⟩
def R.SCO_CSTAT_LATE_COMMIT : Fld := ⟨0xC000C, 2, 1⟩
def R.SCO_CSTAT_WR_DROP : Fld := ⟨0xC000C, 3, 1⟩
def R.SCO_CSTAT_MAXED : Fld := ⟨0xC000C, 4, 1⟩
def R.SCO_CSTAT_REASON : Fld := ⟨0xC000C, 8, 4⟩
def R.SCO_CSTAT_CSEQ : Fld := ⟨0xC000C, 16, 16⟩
def R.SCO_MODE_CLASS : Fld := ⟨0xC0010, 0, 1⟩
def R.SCO_MODE_SRC : Fld := ⟨0xC0010, 1, 2⟩
def R.SCO_MODE_GL_POL : Fld := ⟨0xC0010, 3, 1⟩
def R.SCO_MODE_GL_DIV : Fld := ⟨0xC0010, 4, 4⟩
def R.SCO_LINE_LINE_CLKS : Fld := ⟨0xC0014, 0, 14⟩
def R.SCO_VGEOM_ACTIVE : Fld := ⟨0xC0018, 0, 13⟩
def R.SCO_VGEOM_VBLANK_MIN : Fld := ⟨0xC0018, 16, 8⟩
def R.SCO_VGEOM_WINDOW : Fld := ⟨0xC0018, 24, 8⟩
def R.SCO_VTOTAL_VTOTAL_MIN : Fld := ⟨0xC001C, 0, 16⟩
def R.SCO_VTOTAL_VTOTAL_MAX : Fld := ⟨0xC001C, 16, 16⟩
def R.SCO_PHASE_PHASE : Fld := ⟨0xC0020, 0, 24⟩
def R.SCO_FCT0_LO_T0 : Fld := ⟨0xC0024, 0, 32⟩
def R.SCO_FCT0_HI_T0 : Fld := ⟨0xC0028, 0, 32⟩
def R.SCO_FCNUM_FC_NUM : Fld := ⟨0xC002C, 0, 32⟩
def R.SCO_FCDEN_FC_DEN : Fld := ⟨0xC0030, 0, 32⟩
def R.SCO_DUE_LO_DUE : Fld := ⟨0xC0034, 0, 32⟩
def R.SCO_DUE_HI_DUE : Fld := ⟨0xC0038, 0, 32⟩
def R.SCO_FINFO_GEN_ADV : Fld := ⟨0xC003C, 0, 1⟩
def R.SCO_FINFO_STATIC : Fld := ⟨0xC003C, 1, 1⟩
def R.SCO_FRZ_FRZ_N : Fld := ⟨0xC0040, 0, 4⟩
def R.SCO_SEQCTL_FORCE_B : Fld := ⟨0xC0044, 0, 1⟩
def R.SCO_SEQCTL_AUTO_RETURN : Fld := ⟨0xC0044, 1, 1⟩
def R.SCO_TEN_LO_EN : Fld := ⟨0xC0048, 0, 32⟩
def R.SCO_TEN_HI_EN : Fld := ⟨0xC004C, 0, 32⟩
def R.SCO_FRZ_LO_FROZEN : Fld := ⟨0xC0050, 0, 32⟩
def R.SCO_FRZ_HI_FROZEN : Fld := ⟨0xC0054, 0, 32⟩
def R.SCO_S_FRAME_FRAME : Fld := ⟨0xC0100, 0, 32⟩
def R.SCO_S_LINE_LINE : Fld := ⟨0xC0104, 0, 16⟩
def R.SCO_S_FS_LO_TIME : Fld := ⟨0xC0108, 0, 32⟩
def R.SCO_S_FS_HI_TIME : Fld := ⟨0xC010C, 0, 32⟩
def R.SCO_S_PERIOD_P_MEAS : Fld := ⟨0xC0110, 0, 24⟩
def R.SCO_S_PHERR_PHERR : Fld := ⟨0xC0114, 0, 32⟩
def R.SCO_TSIZE_W (tile : Nat) : Fld := ⟨0xC1000 + tile * 0x4, 0, 14⟩
def R.SCO_TSIZE_H (tile : Nat) : Fld := ⟨0xC1000 + tile * 0x4, 16, 13⟩
def R.SCO_SIG_SIG (tile : Nat) : Fld := ⟨0xC1100 + tile * 0x4, 0, 32⟩
def R.SCO_CNT_COUNT (n : Nat) : Fld := ⟨0xC1200 + n * 0x4, 0, 32⟩
def R.SCO_SNAPCTL_SNAP : Fld := ⟨0xCFFF0, 0, 1⟩
def R.SCO_SNAPCTL_BUSY : Fld := ⟨0xCFFF0, 1, 1⟩
def R.SCO_SNAPCTL_SEQ : Fld := ⟨0xCFFF0, 16, 16⟩
def R.WYL_CTL_ENABLE : Fld := ⟨0xD0000, 0, 1⟩
def R.WYL_CTL_SHADOW_EN : Fld := ⟨0xD0000, 1, 1⟩
def R.WYL_CTL_AUTO_SUB : Fld := ⟨0xD0000, 2, 1⟩
def R.WYL_CTL_AUTO_RETRAIN : Fld := ⟨0xD0000, 3, 1⟩
def R.WYL_CTL_EXIT_LEAD : Fld := ⟨0xD0000, 8, 4⟩
def R.WYL_UP_LO_UP : Fld := ⟨0xD0008, 0, 32⟩
def R.WYL_UP_HI_UP : Fld := ⟨0xD000C, 0, 32⟩
def R.WYL_SUBCTL_ERR_LIM : Fld := ⟨0xD0010, 0, 8⟩
def R.WYL_SUBCTL_QUAL_S : Fld := ⟨0xD0010, 8, 8⟩
def R.WYL_PCTL_PORT_EN (tile : Nat) : Fld := ⟨0xD1000 + tile * 0x4, 0, 1⟩
def R.WYL_PCTL_RETRAIN (tile : Nat) : Fld := ⟨0xD1000 + tile * 0x4, 1, 1⟩
def R.WYL_PCTL_SUB_REQ (tile : Nat) : Fld := ⟨0xD1000 + tile * 0x4, 2, 1⟩
def R.WYL_PCTL_SUB_LANE (tile : Nat) : Fld := ⟨0xD1000 + tile * 0x4, 4, 3⟩
def R.WYL_PSTAT_STATE (tile : Nat) : Fld := ⟨0xD1100 + tile * 0x4, 0, 3⟩
def R.WYL_PSTAT_BC_LOCK (tile : Nat) : Fld := ⟨0xD1100 + tile * 0x4, 3, 1⟩
def R.WYL_PSTAT_SPARE_OK (tile : Nat) : Fld := ⟨0xD1100 + tile * 0x4, 4, 1⟩
def R.WYL_PSTAT_NO_SPARE (tile : Nat) : Fld := ⟨0xD1100 + tile * 0x4, 5, 1⟩
def R.WYL_PSTAT_LANE_FAIL (tile : Nat) : Fld := ⟨0xD1100 + tile * 0x4, 6, 1⟩
def R.WYL_PSTAT_BC_LOSS (tile : Nat) : Fld := ⟨0xD1100 + tile * 0x4, 7, 1⟩
def R.WYL_PSTAT_PSPARE (tile : Nat) : Fld := ⟨0xD1100 + tile * 0x4, 8, 3⟩
def R.WYL_PSTAT_SHADOW (tile : Nat) : Fld := ⟨0xD1100 + tile * 0x4, 12, 3⟩
def R.WYL_PSTAT_P0 (tile : Nat) : Fld := ⟨0xD1100 + tile * 0x4, 16, 3⟩
def R.WYL_PSTAT_P1 (tile : Nat) : Fld := ⟨0xD1100 + tile * 0x4, 19, 3⟩
def R.WYL_PSTAT_P2 (tile : Nat) : Fld := ⟨0xD1100 + tile * 0x4, 22, 3⟩
def R.WYL_PSTAT_P3 (tile : Nat) : Fld := ⟨0xD1100 + tile * 0x4, 25, 3⟩
def R.WYL_TSTAT_D (tile : Nat) : Fld := ⟨0xD1200 + tile * 0x4, 0, 32⟩
def R.WYL_SREQ_REQ (tile : Nat) : Fld := ⟨0xD1300 + tile * 0x4, 0, 8⟩
def R.WYL_SREQ_TAG (tile : Nat) : Fld := ⟨0xD1300 + tile * 0x4, 8, 8⟩
def R.WYL_SREQ_GO (tile : Nat) : Fld := ⟨0xD1300 + tile * 0x4, 16, 1⟩
def R.WYL_SRESP_LO_D (tile : Nat) : Fld := ⟨0xD1400 + tile * 0x8, 0, 32⟩
def R.WYL_SRESP_HI_D (tile : Nat) : Fld := ⟨0xD1404 + tile * 0x8, 0, 32⟩
def R.WYL_LANE_STAT_LOCK (tile : Nat) (lane : Nat) : Fld := ⟨0xD2000 + tile * 0x20 + lane * 0x4, 0, 1⟩
def R.WYL_LANE_STAT_ALIGNED (tile : Nat) (lane : Nat) : Fld := ⟨0xD2000 + tile * 0x20 + lane * 0x4, 1, 1⟩
def R.WYL_LANE_STAT_FAILED (tile : Nat) (lane : Nat) : Fld := ⟨0xD2000 + tile * 0x20 + lane * 0x4, 2, 1⟩
def R.WYL_LANE_STAT_QUAL (tile : Nat) (lane : Nat) : Fld := ⟨0xD2000 + tile * 0x20 + lane * 0x4, 3, 1⟩
def R.WYL_LANE_STAT_ERR (tile : Nat) (lane : Nat) : Fld := ⟨0xD2000 + tile * 0x20 + lane * 0x4, 16, 16⟩
def R.WYL_CNT_COUNT (tile : Nat) (n : Nat) : Fld := ⟨0xD4000 + tile * 0x40 + n * 0x4, 0, 32⟩
def R.WYL_SNAPCTL_SNAP : Fld := ⟨0xDFFF0, 0, 1⟩
def R.WYL_SNAPCTL_BUSY : Fld := ⟨0xDFFF0, 1, 1⟩
def R.WYL_SNAPCTL_SEQ : Fld := ⟨0xDFFF0, 16, 16⟩
def R.PNL_CTL_CHK_EN : Fld := ⟨0xE0000, 0, 1⟩
def R.PNL_PWRREQ_ON : Fld := ⟨0xE0004, 0, 1⟩
def R.PNL_PWRREQ_HOLD_FIRST : Fld := ⟨0xE0004, 1, 1⟩
def R.PNL_PWRSTAT_EN : Fld := ⟨0xE0008, 0, 4⟩
def R.PNL_PWRSTAT_PGOOD : Fld := ⟨0xE0008, 4, 4⟩
def R.PNL_PWRSTAT_STATE : Fld := ⟨0xE0008, 8, 3⟩
def R.PNL_PWRSTAT_FAULT_RAIL : Fld := ⟨0xE0008, 12, 2⟩
def R.PNL_HOLD_GO : Fld := ⟨0xE0010, 0, 1⟩
def R.PNL_HOLD_DONE : Fld := ⟨0xE0010, 1, 1⟩
def R.PNL_HOLD_FAIL : Fld := ⟨0xE0010, 2, 1⟩
def R.PNL_HGEN_GEN : Fld := ⟨0xE0014, 0, 32⟩
def R.PNL_HCTL_ACK_TMO : Fld := ⟨0xE0018, 0, 10⟩
def R.PNL_HCTL_RETRY : Fld := ⟨0xE0018, 12, 2⟩
def R.PNL_RQ_A_Y0 : Fld := ⟨0xE0020, 0, 12⟩
def R.PNL_RQ_A_H : Fld := ⟨0xE0020, 12, 12⟩
def R.PNL_RQ_A_TILE : Fld := ⟨0xE0020, 24, 6⟩
def R.PNL_RQ_B_X0G : Fld := ⟨0xE0024, 0, 9⟩
def R.PNL_RQ_B_WG : Fld := ⟨0xE0024, 9, 9⟩
def R.PNL_RQ_B_GO : Fld := ⟨0xE0024, 31, 1⟩
def R.PNL_RQ_STAT_RID : Fld := ⟨0xE0028, 0, 6⟩
def R.PNL_RQ_STAT_REFUSED : Fld := ⟨0xE0028, 6, 1⟩
def R.PNL_TCTL_MODE (tile : Nat) : Fld := ⟨0xE1000 + tile * 0x4, 0, 1⟩
def R.PNL_TCTL_HOLD_EN (tile : Nat) : Fld := ⟨0xE1000 + tile * 0x4, 1, 1⟩
def R.PNL_TSTAT_HOLD_CAP (tile : Nat) : Fld := ⟨0xE1100 + tile * 0x4, 0, 1⟩
def R.PNL_TSTAT_HOLD_DIRTY (tile : Nat) : Fld := ⟨0xE1100 + tile * 0x4, 1, 1⟩
def R.PNL_TSTAT_CHK_MISMATCH (tile : Nat) : Fld := ⟨0xE1100 + tile * 0x4, 2, 1⟩
def R.PNL_TSTAT_HOLD_FAIL (tile : Nat) : Fld := ⟨0xE1100 + tile * 0x4, 3, 1⟩
def R.PNL_TSTAT_START (tile : Nat) : Fld := ⟨0xE1100 + tile * 0x4, 4, 3⟩
def R.PNL_TSTAT_LAST_RID (tile : Nat) : Fld := ⟨0xE1100 + tile * 0x4, 8, 6⟩
def R.PNL_TSTAT_QUEUED (tile : Nat) : Fld := ⟨0xE1100 + tile * 0x4, 16, 5⟩
def R.PNL_WSUM_SUM (tile : Nat) : Fld := ⟨0xE1200 + tile * 0x4, 0, 32⟩
def R.PNL_RSUM_SUM (tile : Nat) : Fld := ⟨0xE1300 + tile * 0x4, 0, 32⟩
def R.PNL_HCRC_CRC (tile : Nat) : Fld := ⟨0xE1400 + tile * 0x4, 0, 32⟩
def R.PNL_CNT_COUNT (tile : Nat) (n : Nat) : Fld := ⟨0xE2000 + tile * 0x20 + n * 0x4, 0, 32⟩
def R.PNL_SNAPCTL_SNAP : Fld := ⟨0xEFFF0, 0, 1⟩
def R.PNL_SNAPCTL_BUSY : Fld := ⟨0xEFFF0, 1, 1⟩
def R.PNL_SNAPCTL_SEQ : Fld := ⟨0xEFFF0, 16, 16⟩
def R.BKL_CTL_CH_EN : Fld := ⟨0xF0000, 0, 4⟩
def R.BKL_CTL_DISCOVER : Fld := ⟨0xF0000, 8, 1⟩
def R.BKL_STAT_RUNNING : Fld := ⟨0xF0004, 0, 4⟩
def R.BKL_STAT_CHAIN_FAULT : Fld := ⟨0xF0004, 4, 4⟩
def R.BKL_STAT_BLANKED : Fld := ⟨0xF0004, 8, 4⟩
def R.BKL_STAT_FREE_RUN : Fld := ⟨0xF0004, 12, 1⟩
def R.BKL_SCAN_OFS : Fld := ⟨0xF0008, 0, 6⟩
def R.BKL_DERATE_KNEE : Fld := ⟨0xF000C, 0, 8⟩
def R.BKL_DERATE_SLOPE : Fld := ⟨0xF000C, 8, 8⟩
def R.BKL_DERATE_FLOOR : Fld := ⟨0xF000C, 16, 7⟩
def R.BKL_POLICY_LAMP : Fld := ⟨0xF0010, 0, 2⟩
def R.BKL_POLICY_GSHIFT : Fld := ⟨0xF0010, 4, 4⟩
def R.BKL_CHCFG_COUNT (chain : Nat) : Fld := ⟨0xF0100 + chain * 0x20, 0, 9⟩
def R.BKL_CHCFG_DIV (chain : Nat) : Fld := ⟨0xF0100 + chain * 0x20, 12, 4⟩
def R.BKL_CHSTAT_FOUND (chain : Nat) : Fld := ⟨0xF0104 + chain * 0x20, 0, 9⟩
def R.BKL_CHSTAT_BROKEN (chain : Nat) : Fld := ⟨0xF0104 + chain * 0x20, 9, 1⟩
def R.BKL_CHSTAT_LEN_MISMATCH (chain : Nat) : Fld := ⟨0xF0104 + chain * 0x20, 10, 1⟩
def R.BKL_CHSTAT_OVERRUN (chain : Nat) : Fld := ⟨0xF0104 + chain * 0x20, 11, 1⟩
def R.BKL_CHSTAT_RX_ERR (chain : Nat) : Fld := ⟨0xF0104 + chain * 0x20, 12, 1⟩
def R.BKL_CHSTAT_DERATE (chain : Nat) : Fld := ⟨0xF0104 + chain * 0x20, 16, 7⟩
def R.BKL_IMG_LO_ADDR (chain : Nat) : Fld := ⟨0xF0108 + chain * 0x20, 8, 24⟩
def R.BKL_IMG_HI_ADDR (chain : Nat) : Fld := ⟨0xF010C + chain * 0x20, 0, 16⟩
def R.BKL_STS_LO_ADDR (chain : Nat) : Fld := ⟨0xF0110 + chain * 0x20, 8, 24⟩
def R.BKL_STS_HI_ADDR (chain : Nat) : Fld := ⟨0xF0114 + chain * 0x20, 0, 16⟩
def R.BKL_LOUT_DRV (chain : Nat) : Fld := ⟨0xF0118 + chain * 0x20, 0, 8⟩
def R.BKL_LOUT_STR (chain : Nat) : Fld := ⟨0xF0118 + chain * 0x20, 8, 4⟩
def R.BKL_LOUT_FAILED (chain : Nat) : Fld := ⟨0xF0118 + chain * 0x20, 16, 16⟩
def R.BKL_IMAX_ISET_MAX (chain : Nat) : Fld := ⟨0xF011C + chain * 0x20, 0, 12⟩
def R.BKL_CNT_COUNT (chain : Nat) (n : Nat) : Fld := ⟨0xF1000 + chain * 0x20 + n * 0x4, 0, 32⟩
def R.BKL_SNAPCTL_SNAP : Fld := ⟨0xFFFF0, 0, 1⟩
def R.BKL_SNAPCTL_BUSY : Fld := ⟨0xFFFF0, 1, 1⟩
def R.BKL_SNAPCTL_SEQ : Fld := ⟨0xFFFF0, 16, 16⟩
def R.CAM_CTL_ENABLE : Fld := ⟨0x100000, 0, 1⟩
def R.CAM_SETCTL_SRC : Fld := ⟨0x100010, 0, 1⟩
def R.CAM_SETCTL_LEAD : Fld := ⟨0x100010, 8, 5⟩
def R.CAM_SETCTL_DB_RING : Fld := ⟨0x100010, 16, 8⟩
def R.CAM_SETMASK_MASK : Fld := ⟨0x100014, 0, 32⟩
def R.CAM_SETWIN_WINDOW : Fld := ⟨0x100018, 0, 16⟩
def R.CAM_SETWIN_DEADLINE : Fld := ⟨0x100018, 16, 16⟩
def R.CAM_SETOFS_OFS : Fld := ⟨0x10001C, 0, 24⟩
def R.CAM_SETNUM_SET : Fld := ⟨0x100020, 0, 32⟩
def R.CAM_SREC_LO_ADDR : Fld := ⟨0x100024, 10, 22⟩
def R.CAM_SREC_HI_ADDR : Fld := ⟨0x100028, 0, 16⟩
def R.CAM_SREC_CNT_LOG2N : Fld := ⟨0x10002C, 0, 4⟩
def R.CAM_XREQ_A_SLOT : Fld := ⟨0x100040, 0, 5⟩
def R.CAM_XREQ_A_LAT : Fld := ⟨0x100040, 8, 3⟩
def R.CAM_XREQ_A_IMM : Fld := ⟨0x100040, 11, 1⟩
def R.CAM_XREQ_A_NENT : Fld := ⟨0x100040, 16, 8⟩
def R.CAM_XREQ_B_TOKEN : Fld := ⟨0x100044, 0, 16⟩
def R.CAM_XREQ_B_GO : Fld := ⟨0x100044, 31, 1⟩
def R.CAM_XLIST_LO_ADDR : Fld := ⟨0x100048, 3, 29⟩
def R.CAM_XLIST_HI_ADDR : Fld := ⟨0x10004C, 0, 16⟩
def R.CAM_XSTAT_REFUSED : Fld := ⟨0x100050, 0, 1⟩
def R.CAM_XSTAT_QUEUED : Fld := ⟨0x100050, 8, 4⟩
def R.CAM_PCFG_EN (port : Nat) : Fld := ⟨0x100100 + port * 0x10, 0, 1⟩
def R.CAM_PCFG_LANES (port : Nat) : Fld := ⟨0x100100 + port * 0x10, 1, 2⟩
def R.CAM_PCFG_MAP (port : Nat) : Fld := ⟨0x100100 + port * 0x10, 4, 8⟩
def R.CAM_PCFG_POL (port : Nat) : Fld := ⟨0x100100 + port * 0x10, 12, 4⟩
def R.CAM_PCFG_CLK_POL (port : Nat) : Fld := ⟨0x100100 + port * 0x10, 16, 1⟩
def R.CAM_PSTAT_ACTIVE (port : Nat) : Fld := ⟨0x100104 + port * 0x10, 0, 1⟩
def R.CAM_PSTAT_DESKEWED (port : Nat) : Fld := ⟨0x100104 + port * 0x10, 1, 1⟩
def R.CAM_CCI_MODE (n : Nat) : Fld := ⟨0x100200 + n * 0x4, 0, 1⟩
def R.CAM_CCI_DIV (n : Nat) : Fld := ⟨0x100200 + n * 0x4, 8, 8⟩
def R.CAM_SCFG_EN (slot : Nat) : Fld := ⟨0x101000 + slot * 0x40, 0, 1⟩
def R.CAM_SCFG_PORT (slot : Nat) : Fld := ⟨0x101000 + slot * 0x40, 1, 3⟩
def R.CAM_SCFG_VC (slot : Nat) : Fld := ⟨0x101000 + slot * 0x40, 4, 4⟩
def R.CAM_SCFG_DT (slot : Nat) : Fld := ⟨0x101000 + slot * 0x40, 8, 6⟩
def R.CAM_SCFG_PIPE (slot : Nat) : Fld := ⟨0x101000 + slot * 0x40, 14, 2⟩
def R.CAM_SCFG_PRIO (slot : Nat) : Fld := ⟨0x101000 + slot * 0x40, 16, 2⟩
def R.CAM_SCFG_OUTFMT (slot : Nat) : Fld := ⟨0x101000 + slot * 0x40, 18, 2⟩
def R.CAM_SCFG_PAT (slot : Nat) : Fld := ⟨0x101000 + slot * 0x40, 20, 3⟩
def R.CAM_SCFG_CCI (slot : Nat) : Fld := ⟨0x101000 + slot * 0x40, 23, 3⟩
def R.CAM_SSIZE_W (slot : Nat) : Fld := ⟨0x101004 + slot * 0x40, 0, 14⟩
def R.CAM_SSIZE_H (slot : Nat) : Fld := ⟨0x101004 + slot * 0x40, 16, 13⟩
def R.CAM_SIMG_LO_ADDR (slot : Nat) : Fld := ⟨0x101008 + slot * 0x40, 8, 24⟩
def R.CAM_SIMG_HI_ADDR (slot : Nat) : Fld := ⟨0x10100C + slot * 0x40, 0, 16⟩
def R.CAM_SPITCH_PITCH (slot : Nat) : Fld := ⟨0x101010 + slot * 0x40, 0, 24⟩
def R.CAM_SSTRIDE_STRIDE (slot : Nat) : Fld := ⟨0x101014 + slot * 0x40, 8, 24⟩
def R.CAM_SSTA_LO_ADDR (slot : Nat) : Fld := ⟨0x101018 + slot * 0x40, 8, 24⟩
def R.CAM_SSTA_HI_ADDR (slot : Nat) : Fld := ⟨0x10101C + slot * 0x40, 0, 16⟩
def R.CAM_SNBUF_NBUF (slot : Nat) : Fld := ⟨0x101020 + slot * 0x40, 0, 5⟩
def R.CAM_SLOCK_LOCK (slot : Nat) : Fld := ⟨0x101024 + slot * 0x40, 0, 16⟩
def R.CAM_SFCNT_FCOUNT (slot : Nat) : Fld := ⟨0x101028 + slot * 0x40, 0, 32⟩
def R.CAM_SLAST_BUF (slot : Nat) : Fld := ⟨0x10102C + slot * 0x40, 0, 4⟩
def R.CAM_SLAST_VALID (slot : Nat) : Fld := ⟨0x10102C + slot * 0x40, 4, 1⟩
def R.CAM_XDONE_TOKEN (slot : Nat) : Fld := ⟨0x101030 + slot * 0x40, 0, 16⟩
def R.CAM_XDONE_OK (slot : Nat) : Fld := ⟨0x101030 + slot * 0x40, 16, 1⟩
def R.CAM_XDONE_FAIL (slot : Nat) : Fld := ⟨0x101030 + slot * 0x40, 17, 1⟩
def R.CAM_XDONE_SLIP (slot : Nat) : Fld := ⟨0x101030 + slot * 0x40, 18, 1⟩
def R.CAM_XDONE_ENTRY (slot : Nat) : Fld := ⟨0x101030 + slot * 0x40, 24, 8⟩
def R.CAM_CNT_COUNT (slot : Nat) (n : Nat) : Fld := ⟨0x102000 + slot * 0x40 + n * 0x4, 0, 32⟩
def R.CAM_PCNT_COUNT (port : Nat) (n : Nat) : Fld := ⟨0x103000 + port * 0x20 + n * 0x4, 0, 32⟩
def R.CAM_SNAPCTL_SNAP : Fld := ⟨0x10FFF0, 0, 1⟩
def R.CAM_SNAPCTL_BUSY : Fld := ⟨0x10FFF0, 1, 1⟩
def R.CAM_SNAPCTL_SEQ : Fld := ⟨0x10FFF0, 16, 16⟩
def R.ISP_PSTAT_FILL (pipe : Nat) : Fld := ⟨0x110100 + pipe * 0x4, 0, 18⟩
def R.ISP_PCNT_COUNT (pipe : Nat) (n : Nat) : Fld := ⟨0x110200 + pipe * 0x20 + n * 0x4, 0, 32⟩
def R.ISP_BL_LO (slot : Nat) (k : Nat) : Fld := ⟨0x111000 + slot * 0x80 + k * 0x4, 0, 16⟩
def R.ISP_BL_HI (slot : Nat) (k : Nat) : Fld := ⟨0x111000 + slot * 0x80 + k * 0x4, 16, 16⟩
def R.ISP_WB_LO (slot : Nat) (k : Nat) : Fld := ⟨0x111008 + slot * 0x80 + k * 0x4, 0, 16⟩
def R.ISP_WB_HI (slot : Nat) (k : Nat) : Fld := ⟨0x111008 + slot * 0x80 + k * 0x4, 16, 16⟩
def R.ISP_CCM_LO (slot : Nat) (k : Nat) : Fld := ⟨0x111010 + slot * 0x80 + k * 0x4, 0, 16⟩
def R.ISP_CCM_HI (slot : Nat) (k : Nat) : Fld := ⟨0x111010 + slot * 0x80 + k * 0x4, 16, 16⟩
def R.ISP_OFS_LO (slot : Nat) (k : Nat) : Fld := ⟨0x111024 + slot * 0x80 + k * 0x4, 0, 16⟩
def R.ISP_OFS_HI (slot : Nat) (k : Nat) : Fld := ⟨0x111024 + slot * 0x80 + k * 0x4, 16, 16⟩
def R.ISP_DPC_DYN_EN (slot : Nat) : Fld := ⟨0x11102C + slot * 0x80, 0, 1⟩
def R.ISP_DPC_STATIC_EN (slot : Nat) : Fld := ⟨0x11102C + slot * 0x80, 1, 1⟩
def R.ISP_DPC_LSC_EN (slot : Nat) : Fld := ⟨0x11102C + slot * 0x80, 2, 1⟩
def R.ISP_DPC_THR (slot : Nat) : Fld := ⟨0x11102C + slot * 0x80, 16, 16⟩
def R.ISP_DMAP_LO_ADDR (slot : Nat) : Fld := ⟨0x111030 + slot * 0x80, 4, 28⟩
def R.ISP_DMAP_HI_ADDR (slot : Nat) : Fld := ⟨0x111034 + slot * 0x80, 0, 16⟩
def R.ISP_DMAP_N_N (slot : Nat) : Fld := ⟨0x111038 + slot * 0x80, 0, 17⟩
def R.ISP_LSC_LO_ADDR (slot : Nat) : Fld := ⟨0x11103C + slot * 0x80, 8, 24⟩
def R.ISP_LSC_HI_ADDR (slot : Nat) : Fld := ⟨0x111040 + slot * 0x80, 0, 16⟩
def R.ISP_STHR_DARK (slot : Nat) : Fld := ⟨0x111044 + slot * 0x80, 0, 16⟩
def R.ISP_STHR_SAT (slot : Nat) : Fld := ⟨0x111044 + slot * 0x80, 16, 16⟩
def R.ISP_SNAPCTL_SNAP : Fld := ⟨0x11FFF0, 0, 1⟩
def R.ISP_SNAPCTL_BUSY : Fld := ⟨0x11FFF0, 1, 1⟩
def R.ISP_SNAPCTL_SEQ : Fld := ⟨0x11FFF0, 16, 16⟩
def R.ETH_CTL_EN : Fld := ⟨0x120000, 0, 2⟩
def R.ETH_PCFG_SPEED (port : Nat) : Fld := ⟨0x120100 + port * 0x100, 0, 1⟩
def R.ETH_PCFG_FEC (port : Nat) : Fld := ⟨0x120100 + port * 0x100, 1, 1⟩
def R.ETH_PCFG_PTP_STW (port : Nat) : Fld := ⟨0x120100 + port * 0x100, 2, 1⟩
def R.ETH_PCFG_PROMISC (port : Nat) : Fld := ⟨0x120100 + port * 0x100, 3, 1⟩
def R.ETH_PCFG_MAX_FRAME (port : Nat) : Fld := ⟨0x120100 + port * 0x100, 16, 14⟩
def R.ETH_PSTAT_LINK_UP (port : Nat) : Fld := ⟨0x120104 + port * 0x100, 0, 1⟩
def R.ETH_PSTAT_BLOCK_LOCK (port : Nat) : Fld := ⟨0x120104 + port * 0x100, 1, 1⟩
def R.ETH_PSTAT_FEC_LOCK (port : Nat) : Fld := ⟨0x120104 + port * 0x100, 2, 1⟩
def R.ETH_PSTAT_HI_BER (port : Nat) : Fld := ⟨0x120104 + port * 0x100, 3, 1⟩
def R.ETH_MAC_LO_ADDR (port : Nat) : Fld := ⟨0x120108 + port * 0x100, 0, 32⟩
def R.ETH_MAC_HI_ADDR (port : Nat) : Fld := ⟨0x12010C + port * 0x100, 0, 16⟩
def R.ETH_TSADJ_TX_PS (port : Nat) : Fld := ⟨0x120110 + port * 0x100, 0, 32⟩
def R.ETH_TSADJ_RX_PS (port : Nat) : Fld := ⟨0x120114 + port * 0x100, 0, 32⟩
def R.ETH_FLT_VALUE (port : Nat) (k : Nat) : Fld := ⟨0x120800 + port * 0x40 + k * 0x4, 0, 16⟩
def R.ETH_FLT_KIND (port : Nat) (k : Nat) : Fld := ⟨0x120800 + port * 0x40 + k * 0x4, 16, 2⟩
def R.ETH_FLT_RING (port : Nat) (k : Nat) : Fld := ⟨0x120800 + port * 0x40 + k * 0x4, 18, 1⟩
def R.ETH_RBASE_LO_ADDR (port : Nat) (q : Nat) : Fld := ⟨0x121000 + port * 0x100 + q * 0x40, 5, 27⟩
def R.ETH_RBASE_HI_ADDR (port : Nat) (q : Nat) : Fld := ⟨0x121004 + port * 0x100 + q * 0x40, 0, 16⟩
def R.ETH_RCFG_LOG2N (port : Nat) (q : Nat) : Fld := ⟨0x121008 + port * 0x100 + q * 0x40, 0, 4⟩
def R.ETH_RCFG_EN (port : Nat) (q : Nat) : Fld := ⟨0x121008 + port * 0x100 + q * 0x40, 4, 1⟩
def R.ETH_RCFG_CTX (port : Nat) (q : Nat) : Fld := ⟨0x121008 + port * 0x100 + q * 0x40, 8, 6⟩
def R.ETH_TAIL_TAIL (port : Nat) (q : Nat) : Fld := ⟨0x12100C + port * 0x100 + q * 0x40, 0, 12⟩
def R.ETH_HEAD_HEAD (port : Nat) (q : Nat) : Fld := ⟨0x121010 + port * 0x100 + q * 0x40, 0, 12⟩
def R.ETH_CNT_COUNT (port : Nat) (n : Nat) : Fld := ⟨0x122000 + port * 0x40 + n * 0x4, 0, 32⟩
def R.ETH_SNAPCTL_SNAP : Fld := ⟨0x12FFF0, 0, 1⟩
def R.ETH_SNAPCTL_BUSY : Fld := ⟨0x12FFF0, 1, 1⟩
def R.ETH_SNAPCTL_SEQ : Fld := ⟨0x12FFF0, 16, 16⟩
def R.PTP_CTL_SERVO_EN : Fld := ⟨0x130000, 0, 1⟩
def R.PTP_CTL_PPS_OUT_EN : Fld := ⟨0x130000, 1, 1⟩
def R.PTP_CTL_PPS_IN_EN : Fld := ⟨0x130000, 2, 1⟩
def R.PTP_STAT_HOLDOVER : Fld := ⟨0x130004, 0, 1⟩
def R.PTP_STAT_MCS : Fld := ⟨0x130004, 1, 1⟩
def R.PTP_STAT_STEP_PENDING : Fld := ⟨0x130004, 2, 1⟩
def R.PTP_STAT_REFUSALS : Fld := ⟨0x130004, 8, 8⟩
def R.PTP_STAT_EPOCH : Fld := ⟨0x130004, 16, 8⟩
def R.PTP_RATE_RATE : Fld := ⟨0x130008, 0, 32⟩
def R.PTP_OFS_A_OFFSET : Fld := ⟨0x130010, 0, 32⟩
def R.PTP_OFS_B_FRAC : Fld := ⟨0x130014, 0, 16⟩
def R.PTP_OFS_B_EPOCH : Fld := ⟨0x130014, 16, 8⟩
def R.PTP_OFS_B_GO : Fld := ⟨0x130014, 31, 1⟩
def R.PTP_SERVO_KP : Fld := ⟨0x130018, 0, 8⟩
def R.PTP_SERVO_KI : Fld := ⟨0x130018, 8, 8⟩
def R.PTP_SERVO_INTERVAL : Fld := ⟨0x130018, 16, 4⟩
def R.PTP_SERVO_HOLD_S : Fld := ⟨0x130018, 24, 8⟩
def R.PTP_LIMITS_STEP_LIM : Fld := ⟨0x13001C, 0, 16⟩
def R.PTP_LIMITS_FREQ_MAX : Fld := ⟨0x13001C, 16, 8⟩
def R.PTP_LIMITS_SLEW : Fld := ⟨0x13001C, 24, 8⟩
def R.PTP_STEP_LO_STEP : Fld := ⟨0x130020, 0, 32⟩
def R.PTP_STEP_HI_STEP : Fld := ⟨0x130024, 0, 32⟩
def R.PTP_STEP_CTL_GO : Fld := ⟨0x130028, 0, 1⟩
def R.PTP_STEP_CTL_ABS : Fld := ⟨0x130028, 1, 1⟩
def R.PTP_PPS_PPS_W : Fld := ⟨0x130030, 0, 10⟩
def R.PTP_PPS_OFS_OFS : Fld := ⟨0x130034, 0, 30⟩
def R.PTP_S_TIME_LO_TIME : Fld := ⟨0x130100, 0, 32⟩
def R.PTP_S_TIME_HI_TIME : Fld := ⟨0x130104, 0, 32⟩
def R.PTP_S_FRAC_FRAC : Fld := ⟨0x130108, 0, 16⟩
def R.PTP_S_CLK_LO_CLK : Fld := ⟨0x13010C, 0, 32⟩
def R.PTP_S_CLK_HI_CLK : Fld := ⟨0x130110, 0, 32⟩
def R.PTP_S_STW_LO_CLK : Fld := ⟨0x130114, 0, 32⟩
def R.PTP_S_STW_HI_CLK : Fld := ⟨0x130118, 0, 32⟩
def R.PTP_S_PPSIN_LO_TIME : Fld := ⟨0x13011C, 0, 32⟩
def R.PTP_S_PPSIN_HI_TIME : Fld := ⟨0x130120, 0, 32⟩
def R.PTP_S_PPSIN_FRAC_FRAC : Fld := ⟨0x130124, 0, 16⟩
def R.PTP_TMR_LO_TIME (n : Nat) : Fld := ⟨0x130200 + n * 0x10, 0, 32⟩
def R.PTP_TMR_HI_TIME (n : Nat) : Fld := ⟨0x130204 + n * 0x10, 0, 32⟩
def R.PTP_TMR_PER_PERIOD (n : Nat) : Fld := ⟨0x130208 + n * 0x10, 0, 32⟩
def R.PTP_TMR_CTL_EN (n : Nat) : Fld := ⟨0x13020C + n * 0x10, 0, 1⟩
def R.PTP_TMR_CTL_CORE (n : Nat) : Fld := ⟨0x13020C + n * 0x10, 1, 3⟩
def R.PTP_CNT_COUNT (n : Nat) : Fld := ⟨0x131000 + n * 0x4, 0, 32⟩
def R.PTP_SNAPCTL_SNAP : Fld := ⟨0x13FFF0, 0, 1⟩
def R.PTP_SNAPCTL_BUSY : Fld := ⟨0x13FFF0, 1, 1⟩
def R.PTP_SNAPCTL_SEQ : Fld := ⟨0x13FFF0, 16, 16⟩
def R.MEM_CTL_MAP_LOCK : Fld := ⟨0x140000, 0, 1⟩
def R.MEM_CTL_SCRUB_EN : Fld := ⟨0x140000, 1, 1⟩
def R.MEM_CTL_RETRAIN_EN : Fld := ⟨0x140000, 2, 1⟩
def R.MEM_CTL_REPAIR_EN : Fld := ⟨0x140000, 3, 1⟩
def R.MEM_STAT_TRAINED : Fld := ⟨0x140004, 0, 1⟩
def R.MEM_STAT_MAP_ERR : Fld := ⟨0x140004, 1, 1⟩
def R.MEM_STAT_SPEED : Fld := ⟨0x140004, 2, 2⟩
def R.MEM_STAT_CHANGING : Fld := ⟨0x140004, 4, 1⟩
def R.MEM_STAT_PENDING : Fld := ⟨0x140004, 5, 1⟩
def R.MEM_SPEED_REQ : Fld := ⟨0x140008, 0, 2⟩
def R.MEM_SPEED_GO : Fld := ⟨0x140008, 4, 1⟩
def R.MEM_SPEED_CAM_WAIT : Fld := ⟨0x140008, 5, 1⟩
def R.MEM_SPEED_DONE : Fld := ⟨0x140008, 8, 1⟩
def R.MEM_SPEED_REFUSED : Fld := ⟨0x140008, 9, 1⟩
def R.MEM_SPEED_REASON : Fld := ⟨0x140008, 12, 4⟩
def R.MEM_SCHED_HIGH_WM : Fld := ⟨0x14000C, 0, 6⟩
def R.MEM_SCHED_LOW_WM : Fld := ⟨0x14000C, 8, 6⟩
def R.MEM_SCHED_AGE : Fld := ⟨0x14000C, 16, 8⟩
def R.MEM_SCHED_ISO_URGENT : Fld := ⟨0x14000C, 24, 8⟩
def R.MEM_RETRAIN_PERIOD : Fld := ⟨0x140010, 0, 8⟩
def R.MEM_RETRAIN_DTEMP : Fld := ⟨0x140010, 8, 8⟩
def R.MEM_RETRAIN_NOW : Fld := ⟨0x140010, 16, 1⟩
def R.MEM_SCRUB_PERIOD : Fld := ⟨0x140014, 0, 16⟩
def R.MEM_REPAIR_CE_LIM : Fld := ⟨0x140018, 0, 16⟩
def R.MEM_UE_LO_VALID : Fld := ⟨0x140020, 0, 1⟩
def R.MEM_UE_LO_ADDR : Fld := ⟨0x140020, 5, 27⟩
def R.MEM_UE_HI_ADDR : Fld := ⟨0x140024, 0, 8⟩
def R.MEM_HASH_LO_MASK (i : Nat) : Fld := ⟨0x140100 + i * 0x8, 0, 32⟩
def R.MEM_HASH_HI_MASK (i : Nat) : Fld := ⟨0x140104 + i * 0x8, 0, 3⟩
def R.MEM_STKTEMP_TEMP (stack : Nat) : Fld := ⟨0x140200 + stack * 0x4, 0, 8⟩
def R.MEM_STKTEMP_REFSCALE (stack : Nat) : Fld := ⟨0x140200 + stack * 0x4, 8, 2⟩
def R.MEM_STKTEMP_INVALID (stack : Nat) : Fld := ⟨0x140200 + stack * 0x4, 10, 1⟩
def R.MEM_CHSTAT_RETRAINING (ch : Nat) : Fld := ⟨0x141000 + ch * 0x4, 0, 1⟩
def R.MEM_CHSTAT_DEGRADED (ch : Nat) : Fld := ⟨0x141000 + ch * 0x4, 1, 1⟩
def R.MEM_CHSTAT_SPARES0 (ch : Nat) : Fld := ⟨0x141000 + ch * 0x4, 2, 4⟩
def R.MEM_CHSTAT_SPARES1 (ch : Nat) : Fld := ⟨0x141000 + ch * 0x4, 6, 4⟩
def R.MEM_CNT_COUNT (ch : Nat) (n : Nat) : Fld := ⟨0x142000 + ch * 0x40 + n * 0x4, 0, 32⟩
def R.MEM_SNAPCTL_SNAP : Fld := ⟨0x14FFF0, 0, 1⟩
def R.MEM_SNAPCTL_BUSY : Fld := ⟨0x14FFF0, 1, 1⟩
def R.MEM_SNAPCTL_SEQ : Fld := ⟨0x14FFF0, 16, 16⟩
def R.HLT_CTL_LOG_EN : Fld := ⟨0x150000, 0, 1⟩
def R.HLT_CTL_MIRROR_EN : Fld := ⟨0x150000, 1, 1⟩
def R.HLT_CTL_PLAN_EN : Fld := ⟨0x150000, 2, 1⟩
def R.HLT_STAT_OVERFLOW : Fld := ⟨0x150004, 0, 1⟩
def R.HLT_STAT_MIRROR_FAULT : Fld := ⟨0x150004, 1, 1⟩
def R.HLT_STAT_LASTING : Fld := ⟨0x150004, 2, 1⟩
def R.HLT_STAT_AVS_FAIL : Fld := ⟨0x150004, 3, 1⟩
def R.HLT_STAT_AT_CEILING : Fld := ⟨0x150004, 4, 1⟩
def R.HLT_STAT_CLK_LIMITED : Fld := ⟨0x150004, 5, 1⟩
def R.HLT_STAT_MARGIN_EXHAUSTED : Fld := ⟨0x150004, 6, 1⟩
def R.HLT_STAT_FIXED_SHORT : Fld := ⟨0x150004, 7, 1⟩
def R.HLT_LOG_HEAD_HEAD : Fld := ⟨0x150010, 0, 32⟩
def R.HLT_LOG_TAIL_TAIL : Fld := ⟨0x150014, 0, 32⟩
def R.HLT_LOG_DROP_DROP : Fld := ⟨0x150018, 0, 32⟩
def R.HLT_LOG_CLR_CLEAR : Fld := ⟨0x15001C, 0, 1⟩
def R.HLT_MIRROR_LO_ADDR : Fld := ⟨0x150020, 10, 22⟩
def R.HLT_MIRROR_HI_ADDR : Fld := ⟨0x150024, 0, 16⟩
def R.HLT_AVS_SET_MV : Fld := ⟨0x150080, 0, 10⟩
def R.HLT_AVSLIM_MIN_MV : Fld := ⟨0x150084, 0, 10⟩
def R.HLT_AVSLIM_MAX_MV : Fld := ⟨0x150084, 16, 10⟩
def R.HLT_SLACK_SLACK_LO : Fld := ⟨0x150088, 0, 8⟩
def R.HLT_SLACK_SLACK_HI : Fld := ⟨0x150088, 8, 8⟩
def R.HLT_SLACK_SLACK_MIN : Fld := ⟨0x150088, 16, 8⟩
def R.HLT_PLAN_PLAN_S : Fld := ⟨0x15008C, 0, 16⟩
def R.HLT_CEIL_CEIL_MHZ : Fld := ⟨0x150090, 0, 12⟩
def R.HLT_CEIL_FLOOR_MHZ : Fld := ⟨0x150090, 16, 12⟩
def R.HLT_PROJ_YEARS : Fld := ⟨0x150094, 0, 16⟩
def R.HLT_POH_HOURS : Fld := ⟨0x150098, 0, 32⟩
def R.HLT_REPCTL_NOW : Fld := ⟨0x1500A0, 0, 1⟩
def R.HLT_REPCTL_EN : Fld := ⟨0x1500A0, 1, 1⟩
def R.HLT_REPCTL_PERIOD_S : Fld := ⟨0x1500A0, 8, 8⟩
def R.HLT_REP_LO_ADDR : Fld := ⟨0x1500A4, 9, 23⟩
def R.HLT_REP_HI_ADDR : Fld := ⟨0x1500A8, 0, 16⟩
def R.HLT_REPSEQ_SEQ : Fld := ⟨0x1500AC, 0, 32⟩
def R.HLT_FIRST_W (w : Nat) : Fld := ⟨0x150100 + w * 0x4, 0, 32⟩
def R.HLT_LATEST_W (w : Nat) : Fld := ⟨0x150120 + w * 0x4, 0, 32⟩
def R.HLT_AGE_D (m : Nat) : Fld := ⟨0x151000 + m * 0x4, 0, 16⟩
def R.HLT_AGE_REGION (m : Nat) : Fld := ⟨0x151000 + m * 0x4, 16, 8⟩
def R.HLT_REPL_SLACK (r : Nat) : Fld := ⟨0x151100 + r * 0x4, 0, 8⟩
def R.HLT_REPL_MIN (r : Nat) : Fld := ⟨0x151100 + r * 0x4, 8, 8⟩
def R.HLT_REPL_CORE (r : Nat) : Fld := ⟨0x151100 + r * 0x4, 16, 1⟩
def R.HLT_EYE_HEIGHT (i : Nat) : Fld := ⟨0x151200 + i * 0x4, 0, 8⟩
def R.HLT_EYE_WIDTH (i : Nat) : Fld := ⟨0x151200 + i * 0x4, 8, 8⟩
def R.HLT_HMARG_RD (ch : Nat) : Fld := ⟨0x151400 + ch * 0x4, 0, 8⟩
def R.HLT_HMARG_WR (ch : Nat) : Fld := ⟨0x151400 + ch * 0x4, 8, 8⟩
def R.HLT_BLKCNT_COUNT (block : Nat) : Fld := ⟨0x151500 + block * 0x4, 0, 32⟩
def R.HLT_CNT_COUNT (n : Nat) : Fld := ⟨0x151580 + n * 0x4, 0, 32⟩
def R.HLT_LOG_W (i : Nat) (w : Nat) : Fld := ⟨0x154000 + i * 0x20 + w * 0x4, 0, 32⟩
def R.HLT_SNAPCTL_SNAP : Fld := ⟨0x15FFF0, 0, 1⟩
def R.HLT_SNAPCTL_BUSY : Fld := ⟨0x15FFF0, 1, 1⟩
def R.HLT_SNAPCTL_SEQ : Fld := ⟨0x15FFF0, 16, 16⟩
def R.CAL_CTL_EN : Fld := ⟨0x160000, 0, 1⟩
def R.CAL_CTL_EXCH_EN : Fld := ⟨0x160000, 1, 1⟩
def R.CAL_TASKEN_TASK : Fld := ⟨0x160004, 1, 8⟩
def R.CAL_STAT_BUSY : Fld := ⟨0x160008, 1, 8⟩
def R.CAL_STAT_DIP_HOLD : Fld := ⟨0x160008, 9, 1⟩
def R.CAL_STAT_TEST_WAIT : Fld := ⟨0x160008, 10, 1⟩
def R.CAL_PERIOD_LANE_S : Fld := ⟨0x16000C, 0, 8⟩
def R.CAL_PERIOD_ENG_H : Fld := ⟨0x16000C, 8, 8⟩
def R.CAL_REQ_TASK : Fld := ⟨0x160010, 0, 4⟩
def R.CAL_REQ_BLOCK : Fld := ⟨0x160010, 4, 5⟩
def R.CAL_REQ_INSTANCE : Fld := ⟨0x160010, 16, 9⟩
def R.CAL_REQ_GO : Fld := ⟨0x160010, 31, 1⟩
def R.CAL_RSP_ID : Fld := ⟨0x160014, 0, 8⟩
def R.CAL_RSP_ANSWER : Fld := ⟨0x160014, 8, 2⟩
def R.CAL_RSP_BOUND_MS : Fld := ⟨0x160014, 16, 16⟩
def R.CAL_DONE_ID : Fld := ⟨0x160018, 0, 8⟩
def R.CAL_DONE_PASS : Fld := ⟨0x160018, 8, 1⟩
def R.CAL_FORCE_MS : Fld := ⟨0x16001C, 0, 16⟩
def R.CAL_CNT_COUNT (task : Nat) (n : Nat) : Fld := ⟨0x161000 + task * 0x20 + n * 0x4, 0, 32⟩
def R.CAL_SNAPCTL_SNAP : Fld := ⟨0x16FFF0, 0, 1⟩
def R.CAL_SNAPCTL_BUSY : Fld := ⟨0x16FFF0, 1, 1⟩
def R.CAL_SNAPCTL_SEQ : Fld := ⟨0x16FFF0, 16, 16⟩
def R.THM_STAT_WARN : Fld := ⟨0x170004, 0, 1⟩
def R.THM_STAT_THROTTLE : Fld := ⟨0x170004, 1, 1⟩
def R.THM_STAT_BROKEN : Fld := ⟨0x170004, 2, 1⟩
def R.THM_STAT_STEP : Fld := ⟨0x170004, 8, 5⟩
def R.THM_STAT_FACTOR : Fld := ⟨0x170004, 16, 7⟩
def R.THM_CEIL_THERM_MHZ : Fld := ⟨0x170008, 0, 12⟩
def R.THM_CEIL_CLK_NOW : Fld := ⟨0x170008, 16, 12⟩
def R.THM_THR_WARN : Fld := ⟨0x170010, 0, 8⟩
def R.THM_THR_THROTTLE : Fld := ⟨0x170010, 8, 8⟩
def R.THM_THR_HYST : Fld := ⟨0x170010, 16, 8⟩
def R.THM_SHUT_SHUT : Fld := ⟨0x170014, 0, 8⟩
def R.THM_SHUT_RESTART_MARGIN : Fld := ⟨0x170014, 8, 8⟩
def R.THM_SHUT_RESTART_S : Fld := ⟨0x170014, 16, 8⟩
def R.THM_SHSTAT_COUNT24 : Fld := ⟨0x170018, 0, 2⟩
def R.THM_SHSTAT_LATCHED_OFF : Fld := ⟨0x170018, 2, 1⟩
def R.THM_SHSTAT_CAUSE : Fld := ⟨0x170018, 4, 2⟩
def R.THM_SHSTAT_SENSOR : Fld := ⟨0x170018, 8, 8⟩
def R.THM_CH_VALUE (ch : Nat) : Fld := ⟨0x171000 + ch * 0x4, 0, 16⟩
def R.THM_CH_BROKEN (ch : Nat) : Fld := ⟨0x171000 + ch * 0x4, 16, 1⟩
def R.THM_CH_STUCK (ch : Nat) : Fld := ⟨0x171000 + ch * 0x4, 17, 1⟩
def R.THM_CH_INVALID (ch : Nat) : Fld := ⟨0x171000 + ch * 0x4, 18, 1⟩
def R.THM_NBR_N (s : Nat) : Fld := ⟨0x171200 + s * 0x4, 0, 32⟩
def R.THM_TRIM_OFS (s : Nat) : Fld := ⟨0x171300 + s * 0x4, 0, 8⟩
def R.THM_CNT_COUNT (n : Nat) : Fld := ⟨0x171400 + n * 0x4, 0, 32⟩
def R.THM_SNAPCTL_SNAP : Fld := ⟨0x17FFF0, 0, 1⟩
def R.THM_SNAPCTL_BUSY : Fld := ⟨0x17FFF0, 1, 1⟩
def R.THM_SNAPCTL_SEQ : Fld := ⟨0x17FFF0, 16, 16⟩
def R.SEC_REQ_OP : Fld := ⟨0x180000, 0, 8⟩
def R.SEC_REQ_LEN : Fld := ⟨0x180000, 8, 15⟩
def R.SEC_REQ_GO : Fld := ⟨0x180000, 31, 1⟩
def R.SEC_STAT_BUSY : Fld := ⟨0x180004, 0, 1⟩
def R.SEC_MBOX_W (w : Nat) : Fld := ⟨0x181000 + w * 0x4, 0, 32⟩
def R.FWU_CMD_OP : Fld := ⟨0x190000, 0, 4⟩
def R.FWU_CMD_SLOT : Fld := ⟨0x190000, 4, 1⟩
def R.FWU_CMD_FORCE_BAND : Fld := ⟨0x190000, 5, 1⟩
def R.FWU_CMD_GO : Fld := ⟨0x190000, 31, 1⟩
def R.FWU_STAT_BUSY : Fld := ⟨0x190004, 0, 1⟩
def R.FWU_STAT_STATE : Fld := ⟨0x190004, 1, 3⟩
def R.FWU_STAT_RESULT : Fld := ⟨0x190004, 8, 8⟩
def R.FWU_SRC_LO_ADDR : Fld := ⟨0x190008, 8, 24⟩
def R.FWU_SRC_HI_ADDR : Fld := ⟨0x19000C, 0, 8⟩
def R.FWU_LEN_LEN : Fld := ⟨0x190010, 0, 25⟩
def R.FWU_PROG_DONE : Fld := ⟨0x190014, 0, 25⟩
def R.FWU_STAGE_LO_ADDR : Fld := ⟨0x190018, 8, 24⟩
def R.FWU_STAGE_HI_ADDR : Fld := ⟨0x19001C, 0, 8⟩
def R.FWU_DIR_ACTIVE : Fld := ⟨0x190020, 0, 1⟩
def R.FWU_DIR_STATE_A : Fld := ⟨0x190020, 8, 3⟩
def R.FWU_DIR_STATE_B : Fld := ⟨0x190020, 12, 3⟩
def R.FWU_DIR_TRIES : Fld := ⟨0x190020, 16, 8⟩
def R.FWU_ALIVE_MS : Fld := ⟨0x190024, 0, 16⟩
def R.FWU_SWSTAT_REPEATS : Fld := ⟨0x190028, 0, 8⟩
def R.FWU_SWSTAT_HALT_US : Fld := ⟨0x190028, 8, 24⟩
def R.GPIO_IN_IN : Fld := ⟨0x1A0000, 0, 32⟩
def R.GPIO_OUT_OUT : Fld := ⟨0x1A0004, 0, 32⟩
def R.GPIO_OUT_SET_SET : Fld := ⟨0x1A0008, 0, 32⟩
def R.GPIO_OUT_CLR_CLR : Fld := ⟨0x1A000C, 0, 32⟩
def R.GPIO_OE_OE : Fld := ⟨0x1A0010, 0, 32⟩
def R.GPIO_PULLEN_EN : Fld := ⟨0x1A0014, 0, 32⟩
def R.GPIO_PULLUP_UP : Fld := ⟨0x1A0018, 0, 32⟩
def R.GPIO_IRQ_EN_EN : Fld := ⟨0x1A001C, 0, 32⟩
def R.GPIO_IRQ_RISE_RISE : Fld := ⟨0x1A0020, 0, 32⟩
def R.GPIO_IRQ_FALL_FALL : Fld := ⟨0x1A0024, 0, 32⟩
def R.GPIO_IRQ_STAT_STAT : Fld := ⟨0x1A0028, 0, 32⟩
def R.GPIO_DEB_DEB : Fld := ⟨0x1A002C, 0, 8⟩
def R.GPIO_DEBEN_EN : Fld := ⟨0x1A0030, 0, 32⟩

/-! ### Rows by block -/

/-- Rows of block GLB, part 0. -/
def rowsGLB0 : List RegRow := [
  ⟨0x0, [], .none, 0x0, [⟨0, 16, .ro, 25600⟩, ⟨16, 8, .ro, 177⟩]⟩ /- GLB_ID, R493 -/,
  ⟨0x4, [], .none, 0x0, [⟨0, 4, .ro, 1⟩, ⟨4, 1, .ro, 0⟩, ⟨5, 1, .ro, 0⟩, ⟨8, 3, .ro, 0⟩]⟩ /- GLB_BOOT, R493 -/,
  ⟨0x8, [], .none, 0x0, [⟨0, 1, .w1s, 0⟩, ⟨8, 8, .wo, 0⟩]⟩ /- GLB_RST, R493 -/,
  ⟨0xC, [], .none, 0x0, [⟨0, 32, .ro, 0⟩]⟩ /- GLB_UPTIME, R493 -/]
/-- Rows of block SPV, part 0. -/
def rowsSPV0 : List RegRow := [
  ⟨0x10000, [], .none, 0x0, [⟨0, 1, .lk, 0⟩, ⟨1, 1, .lk, 0⟩, ⟨2, 1, .lk, 0⟩]⟩ /- SPV_STAT, R475 -/,
  ⟨0x10004, [], .none, 0x0, [⟨0, 8, .lk, 0⟩, ⟨8, 8, .lk, 0⟩, ⟨16, 15, .lk, 0⟩, ⟨31, 1, .lk, 0⟩]⟩ /- SPV_RSTAT, R475 -/,
  ⟨0x10008, [], .none, 0x0, [⟨0, 32, .lk, 0⟩]⟩ /- SPV_CFGSEQ, R475 -/,
  ⟨0x1000C, [], .none, 0x0, [⟨0, 20, .lk, 0⟩, ⟨20, 7, .lk, 0⟩]⟩ /- SPV_ATT, R475 -/,
  ⟨0x10010, [], .none, 0x0, [⟨0, 16, .lk, 0⟩]⟩ /- SPV_ATTWAIT, R475 -/,
  ⟨0x10014, [], .none, 0x0, [⟨0, 24, .lk, 0⟩]⟩ /- SPV_SVN, R475 -/,
  ⟨0x10018, [], .none, 0x0, [⟨0, 32, .lk, 0⟩]⟩ /- SPV_LHEAD, R475 -/,
  ⟨0x1001C, [], .none, 0x0, [⟨0, 32, .lk, 0⟩]⟩ /- SPV_LERASE, R475 -/,
  ⟨0x10020, [], .none, 0x0, [⟨0, 32, .lk, 0⟩]⟩ /- SPV_DIPCNT, R475 -/,
  ⟨0x10024, [], .none, 0x0, [⟨0, 32, .lk, 0⟩]⟩ /- SPV_BOCNT, R475 -/,
  ⟨0x10100, [(16, 0x4)], .none, 0x0, [⟨0, 32, .lk, 0⟩]⟩ /- SPV_CFG, R475 -/,
  ⟨0x10200, [(17, 0x4)], .none, 0x0, [⟨0, 32, .lk, 0⟩]⟩ /- SPV_DEVPK, R475 -/,
  ⟨0x10280, [(8, 0x4)], .none, 0x0, [⟨0, 32, .lk, 0⟩]⟩ /- SPV_IKH, R475 -/,
  ⟨0x14000, [(4096, 0x4)], .none, 0x0, [⟨0, 32, .lk, 0⟩]⟩ /- SPV_RESP, R475 -/,
  ⟨0x1FFF0, [], .none, 0x0, [⟨0, 1, .w1s, 0⟩, ⟨1, 1, .ro, 0⟩, ⟨16, 16, .ro, 0⟩]⟩ /- SPV_SNAPCTL, R16 -/]
/-- Rows of block HST, part 0. -/
def rowsHST0 : List RegRow := [
  ⟨0x20000, [], .none, 0x0, [⟨0, 1, .rw, 0⟩]⟩ /- HST_CTL, R408 -/,
  ⟨0x20004, [], .none, 0x0, [⟨0, 1, .ro, 0⟩, ⟨1, 1, .ro, 0⟩, ⟨2, 3, .ro, 0⟩, ⟨5, 5, .ro, 0⟩]⟩ /- HST_STAT, R408 -/,
  ⟨0x20008, [], .none, 0x0, [⟨0, 12, .rw, 0⟩]⟩ /- HST_BAR2_BASE, R408 -/,
  ⟨0x20010, [], .none, 0x0, [⟨12, 20, .rw, 0⟩]⟩ /- HST_HWIN_LO, R408 -/,
  ⟨0x20014, [], .none, 0x0, [⟨0, 32, .rw, 0⟩]⟩ /- HST_HWIN_HI, R408 -/,
  ⟨0x20020, [], .none, 0x0, [⟨0, 32, .ro, 0⟩]⟩ /- HST_AERR_LO, R408 -/,
  ⟨0x20024, [], .none, 0x0, [⟨0, 5, .ro, 0⟩, ⟨8, 2, .ro, 0⟩, ⟨12, 4, .ro, 0⟩, ⟨31, 1, .w1c, 0⟩]⟩ /- HST_AERR_HI, R408 -/,
  ⟨0x20028, [], .none, 0x0, [⟨0, 32, .ro, 0⟩]⟩ /- HST_PERR_LO, R408 -/,
  ⟨0x2002C, [], .none, 0x0, [⟨0, 7, .ro, 0⟩, ⟨12, 4, .ro, 0⟩, ⟨31, 1, .w1c, 0⟩]⟩ /- HST_PERR_HI, R408 -/,
  ⟨0x21000, [(32, 0x40)], .none, 0x0, [⟨6, 26, .rw, 0⟩]⟩ /- HST_WR_SQ_LO, R409 -/,
  ⟨0x21004, [(32, 0x40)], .none, 0x0, [⟨0, 16, .rw, 0⟩]⟩ /- HST_WR_SQ_HI, R409 -/,
  ⟨0x21008, [(32, 0x40)], .none, 0x0, [⟨5, 27, .rw, 0⟩]⟩ /- HST_WR_CQ_LO, R409 -/,
  ⟨0x2100C, [(32, 0x40)], .none, 0x0, [⟨0, 16, .rw, 0⟩]⟩ /- HST_WR_CQ_HI, R409 -/,
  ⟨0x21010, [(32, 0x40)], .none, 0x0, [⟨0, 4, .rw, 4⟩, ⟨4, 1, .rw, 0⟩, ⟨8, 6, .rw, 0⟩, ⟨16, 3, .rw, 0⟩]⟩ /- HST_WR_CFG, R409 -/,
  ⟨0x21014, [(32, 0x40)], .none, 0x0, [⟨0, 12, .wo, 0⟩]⟩ /- HST_WR_DB, R409 -/,
  ⟨0x21018, [(32, 0x40)], .none, 0x0, [⟨0, 12, .ro, 0⟩]⟩ /- HST_WR_HEAD, R409 -/,
  ⟨0x2101C, [(32, 0x40)], .none, 0x0, [⟨0, 13, .rw, 0⟩]⟩ /- HST_WR_CQH, R409 -/,
  ⟨0x21020, [(32, 0x40)], .none, 0x0, [⟨0, 2, .ro, 0⟩, ⟨2, 1, .ro, 0⟩, ⟨8, 4, .ro, 0⟩]⟩ /- HST_WR_STAT, R409 -/,
  ⟨0x22000, [(8, 0x4)], .none, 0x0, [⟨0, 32, .ro, 0⟩]⟩ /- HST_CNT, R409 -/]
/-- Rows of block INT, part 0. -/
def rowsINT0 : List RegRow := [
  ⟨0x30000, [(8, 0x4)], .none, 0x0, [⟨0, 32, .w1c, 0⟩]⟩ /- INT_CAUSE, R410 -/,
  ⟨0x30040, [(8, 0x4)], .none, 0x0, [⟨0, 32, .rw, 0⟩]⟩ /- INT_EN, R410 -/,
  ⟨0x30100, [(64, 0x4)], .none, 0x0, [⟨0, 6, .rw, 0⟩, ⟨8, 6, .rw, 0⟩, ⟨16, 6, .rw, 0⟩, ⟨24, 6, .rw, 0⟩]⟩ /- INT_VMAP, R410 -/,
  ⟨0x30200, [], .none, 0x0, [⟨0, 32, .ro, 0⟩]⟩ /- INT_VACT_LO, R410 -/,
  ⟨0x30204, [], .none, 0x0, [⟨0, 32, .ro, 0⟩]⟩ /- INT_VACT_HI, R410 -/]
/-- Rows of block MMU, part 0. -/
def rowsMMU0 : List RegRow := [
  ⟨0x40000, [], .none, 0x0, [⟨0, 1, .rw, 0⟩, ⟨1, 1, .w1s, 0⟩]⟩ /- MMU_CTL, R369 -/,
  ⟨0x40004, [], .none, 0x0, [⟨0, 1, .w1c, 0⟩, ⟨1, 1, .w1c, 0⟩]⟩ /- MMU_STAT, R369 -/,
  ⟨0x40010, [], .none, 0x0, [⟨5, 27, .rw, 0⟩]⟩ /- MMU_FRING_LO, R369 -/,
  ⟨0x40014, [], .none, 0x0, [⟨0, 16, .rw, 0⟩]⟩ /- MMU_FRING_HI, R369 -/,
  ⟨0x40018, [], .none, 0x0, [⟨0, 4, .rw, 8⟩]⟩ /- MMU_FRING_CNT, R369 -/,
  ⟨0x4001C, [], .none, 0x0, [⟨0, 32, .ro, 0⟩]⟩ /- MMU_FRING_HEAD, R369 -/,
  ⟨0x40020, [], .none, 0x0, [⟨0, 32, .rw, 0⟩]⟩ /- MMU_FRING_TAIL, R369 -/,
  ⟨0x40024, [], .none, 0x0, [⟨0, 32, .rc, 0⟩]⟩ /- MMU_FRING_DROP, R369 -/,
  ⟨0x40030, [], .none, 0xFFFFFFFF, [⟨0, 32, .ro, 0⟩]⟩ /- MMU_FLAST_VA_LO, R369 -/,
  ⟨0x40034, [], .none, 0xFFFFFFFF, [⟨0, 32, .ro, 0⟩]⟩ /- MMU_FLAST_VA_HI, R369 -/,
  ⟨0x40038, [], .none, 0xFFFFFFFF, [⟨0, 32, .ro, 0⟩]⟩ /- MMU_FLAST_INFO, R369 -/,
  ⟨0x41000, [(64, 0x10)], .none, 0x0, [⟨12, 20, .rw, 0⟩]⟩ /- MMU_CTX_ROOT_LO, R370 -/,
  ⟨0x41004, [(64, 0x10)], .none, 0x0, [⟨0, 8, .rw, 0⟩]⟩ /- MMU_CTX_ROOT_HI, R370 -/,
  ⟨0x41008, [(64, 0x10)], .none, 0x0, [⟨0, 1, .rw, 0⟩]⟩ /- MMU_CTX_CFG, R370 -/,
  ⟨0x42000, [(2, 0x20)], .none, 0x0, [⟨0, 6, .rw, 0⟩, ⟨8, 2, .rw, 0⟩, ⟨31, 1, .w1s, 0⟩]⟩ /- MMU_INV_A, R370 -/,
  ⟨0x42004, [(2, 0x20)], .none, 0x0, [⟨12, 20, .rw, 0⟩]⟩ /- MMU_INV_ADDR_LO, R370 -/,
  ⟨0x42008, [(2, 0x20)], .none, 0x0, [⟨0, 16, .rw, 0⟩]⟩ /- MMU_INV_ADDR_HI, R370 -/,
  ⟨0x4200C, [(2, 0x20)], .none, 0x0, [⟨0, 28, .rw, 1⟩]⟩ /- MMU_INV_PAGES, R370 -/,
  ⟨0x42010, [(2, 0x20)], .none, 0x0, [⟨0, 16, .ro, 0⟩, ⟨16, 16, .ro, 0⟩]⟩ /- MMU_INV_SEQ, R370 -/,
  ⟨0x43000, [(7, 0x4)], .none, 0xFFFFFFFF, [⟨0, 32, .ro, 0⟩]⟩ /- MMU_CNT, R370 -/,
  ⟨0x4FFF0, [], .none, 0x0, [⟨0, 1, .w1s, 0⟩, ⟨1, 1, .ro, 0⟩, ⟨16, 16, .ro, 0⟩]⟩ /- MMU_SNAPCTL, R16 -/]
/-- Rows of block DMA, part 0. -/
def rowsDMA0 : List RegRow := [
  ⟨0x51000, [(16, 0x100), (3, 0x40)], .hamlet, 0x0, [⟨6, 26, .rw, 0⟩]⟩ /- DMA_RBASE_LO, R371 -/,
  ⟨0x51004, [(16, 0x100), (3, 0x40)], .hamlet, 0x0, [⟨0, 16, .rw, 0⟩]⟩ /- DMA_RBASE_HI, R371 -/,
  ⟨0x51008, [(16, 0x100), (3, 0x40)], .hamlet, 0x0, [⟨0, 4, .rw, 4⟩, ⟨4, 1, .rw, 0⟩, ⟨5, 1, .rw, 0⟩, ⟨8, 6, .rw, 0⟩, ⟨16, 8, .rw, 0⟩]⟩ /- DMA_RCFG, R371 -/,
  ⟨0x5100C, [(16, 0x100), (3, 0x40)], .hamlet, 0x0, [⟨0, 12, .rw, 0⟩]⟩ /- DMA_TAIL, R371 -/,
  ⟨0x51010, [(16, 0x100), (3, 0x40)], .hamlet, 0x0, [⟨0, 12, .ro, 0⟩]⟩ /- DMA_HEAD, R371 -/,
  ⟨0x51014, [(16, 0x100), (3, 0x40)], .hamlet, 0x0, [⟨0, 1, .w1s, 0⟩, ⟨1, 1, .w1s, 0⟩, ⟨2, 1, .rw, 0⟩]⟩ /- DMA_RCTL, R371 -/,
  ⟨0x51018, [(16, 0x100), (3, 0x40)], .hamlet, 0x0, [⟨0, 1, .ro, 0⟩, ⟨1, 1, .ro, 0⟩, ⟨8, 4, .ro, 0⟩]⟩ /- DMA_RSTAT, R371 -/,
  ⟨0x5101C, [(16, 0x100), (3, 0x40)], .hamlet, 0x0, [⟨0, 32, .ro, 0⟩]⟩ /- DMA_PROW, R371 -/,
  ⟨0x51020, [(16, 0x100), (3, 0x40)], .hamlet, 0x0, [⟨0, 32, .ro, 0⟩]⟩ /- DMA_PBYTE, R371 -/,
  ⟨0x54000, [(16, 0x20), (7, 0x4)], .hamlet, 0x0, [⟨0, 32, .ro, 0⟩]⟩ /- DMA_CNT, R371 -/]
/-- Rows of block STW, part 0. -/
def rowsSTW0 : List RegRow := [
  ⟨0x60004, [], .none, 0x0, [⟨0, 8, .ro, 255⟩, ⟨8, 8, .ro, 0⟩]⟩ /- STW_STAT, R134 -/,
  ⟨0x60100, [(8, 0x4)], .none, 0x0, [⟨0, 32, .ro, 0⟩]⟩ /- STW_EVCNT, R134 -/]
/-- Rows of block ENG, part 0. -/
def rowsENG0 : List RegRow := [
  ⟨0x70000, [], .none, 0x0, [⟨0, 1, .rw, 0⟩, ⟨1, 1, .rw, 1⟩]⟩ /- ENG_CTL, R133 -/,
  ⟨0x70004, [], .none, 0x0, [⟨0, 16, .ro, 0⟩, ⟨16, 16, .ro, 0⟩]⟩ /- ENG_STAT, R133 -/,
  ⟨0x70100, [(16, 0x4)], .hamlet, 0xFFFFFFFF, [⟨0, 5, .ro, 16⟩, ⟨5, 1, .ro, 0⟩, ⟨8, 16, .ro, 65535⟩]⟩ /- ENG_HSTAT, R133 -/,
  ⟨0x70200, [(16, 0x40), (16, 0x4)], .hamlet, 0xFFFFFFFF, [⟨0, 5, .ro, 0⟩]⟩ /- ENG_MAP, R133 -/,
  ⟨0x70800, [(16, 0x20), (6, 0x4)], .hamlet, 0x0, [⟨0, 32, .ro, 0⟩]⟩ /- ENG_CNT, R133 -/,
  ⟨0x7FFF0, [], .none, 0x0, [⟨0, 1, .w1s, 0⟩, ⟨1, 1, .ro, 0⟩, ⟨16, 16, .ro, 0⟩]⟩ /- ENG_SNAPCTL, R16 -/]
/-- Rows of block SYN, part 0. -/
def rowsSYN0 : List RegRow := [
  ⟨0x80000, [], .none, 0x0, [⟨0, 1, .rw, 0⟩, ⟨1, 1, .sh, 0⟩, ⟨2, 2, .rw, 0⟩]⟩ /- SYN_CTL, R93 -/,
  ⟨0x80004, [], .none, 0x0, [⟨0, 1, .ro, 0⟩, ⟨1, 1, .ro, 0⟩, ⟨2, 1, .ro, 0⟩]⟩ /- SYN_STAT, R93 -/,
  ⟨0x80008, [], .none, 0x0, [⟨0, 30, .rw, 0⟩]⟩ /- SYN_BKGND, R93 -/,
  ⟨0x8000C, [], .none, 0x0, [⟨0, 8, .rw, 0⟩]⟩ /- SYN_LOD, R93 -/,
  ⟨0x80010, [], .none, 0x0, [⟨0, 1, .rw, 1⟩, ⟨1, 2, .rw, 0⟩, ⟨3, 2, .rw, 3⟩, ⟨8, 4, .rw, 8⟩]⟩ /- SYN_DCTL, R93 -/,
  ⟨0x80014, [], .none, 0x0, [⟨0, 7, .rw, 90⟩, ⟨8, 8, .rw, 85⟩, ⟨16, 16, .rw, 0⟩]⟩ /- SYN_DBUDGET, R93 -/,
  ⟨0x80018, [], .none, 0x0, [⟨0, 2, .ro, 0⟩, ⟨8, 8, .ro, 0⟩]⟩ /- SYN_DSTAT, R93 -/,
  ⟨0x80020, [], .none, 0x0, [⟨5, 27, .rw, 0⟩]⟩ /- SYN_DLOG_LO, R93 -/,
  ⟨0x80024, [], .none, 0x0, [⟨0, 16, .rw, 0⟩]⟩ /- SYN_DLOG_HI, R93 -/,
  ⟨0x80028, [], .none, 0x0, [⟨0, 5, .rw, 8⟩]⟩ /- SYN_DLOG_CNT, R93 -/,
  ⟨0x8002C, [], .none, 0x0, [⟨0, 32, .ro, 0⟩]⟩ /- SYN_DLOG_HEAD, R93 -/,
  ⟨0x80030, [], .none, 0x0, [⟨0, 32, .rc, 0⟩]⟩ /- SYN_DLOG_DROP, R93 -/,
  ⟨0x80040, [], .none, 0x0, [⟨0, 7, .sh, 8⟩, ⟨8, 7, .sh, 2⟩]⟩ /- SYN_BAND, R93 -/,
  ⟨0x80050, [], .none, 0x0, [⟨0, 4, .rw, 4⟩, ⟨4, 1, .rw, 1⟩]⟩ /- SYN_CAM, R93 -/,
  ⟨0x80054, [], .none, 0x0, [⟨8, 24, .rw, 0⟩]⟩ /- SYN_CAMTAB_LO, R93 -/,
  ⟨0x80058, [], .none, 0x0, [⟨0, 16, .rw, 0⟩]⟩ /- SYN_CAMTAB_HI, R93 -/,
  ⟨0x80060, [], .none, 0x0, [⟨0, 1, .w1s, 0⟩, ⟨1, 1, .w1s, 0⟩, ⟨4, 4, .rw, 0⟩]⟩ /- SYN_CADDY_INV, R93 -/,
  ⟨0x81000, [(64, 0x8)], .tile, 0x0, [⟨8, 24, .sh, 0⟩]⟩ /- SYN_RING_LO, R94 -/,
  ⟨0x81004, [(64, 0x8)], .tile, 0x0, [⟨0, 16, .sh, 0⟩]⟩ /- SYN_RING_HI, R94 -/,
  ⟨0x81400, [(64, 0x4)], .tile, 0x0, [⟨0, 32, .sh, 0⟩]⟩ /- SYN_RING_PITCH, R94 -/,
  ⟨0x81600, [(64, 0x4)], .tile, 0x0, [⟨0, 6, .sh, 32⟩]⟩ /- SYN_WMARK, R94 -/,
  ⟨0x81800, [(64, 0x8)], .tile, 0xFFFFFFFF, [⟨0, 32, .ro, 0⟩]⟩ /- SYN_READY_LO, R94 -/,
  ⟨0x81804, [(64, 0x8)], .tile, 0xFFFFFFFF, [⟨0, 32, .ro, 0⟩]⟩ /- SYN_READY_HI, R94 -/,
  ⟨0x82000, [(16, 0x100), (16, 0x4)], .hamlet, 0xFFFFFFFF, [⟨0, 32, .ro, 0⟩]⟩ /- SYN_HCNT, R94 -/]
/-- Rows of block SYN, part 1. -/
def rowsSYN1 : List RegRow := [
  ⟨0x8FFF0, [], .none, 0x0, [⟨0, 1, .w1s, 0⟩, ⟨1, 1, .ro, 0⟩, ⟨16, 16, .ro, 0⟩]⟩ /- SYN_SNAPCTL, R16 -/]
/-- Rows of block PKR, part 0. -/
def rowsPKR0 : List RegRow := [
  ⟨0x90000, [], .none, 0x0, [⟨0, 1, .rw, 0⟩, ⟨1, 1, .rw, 0⟩]⟩ /- PKR_CTL, R307 -/,
  ⟨0x90004, [], .none, 0x0, [⟨0, 1, .ro, 0⟩, ⟨1, 1, .ro, 0⟩, ⟨2, 1, .ro, 0⟩]⟩ /- PKR_STAT, R307 -/,
  ⟨0x90100, [(2, 0x20)], .none, 0x0, [⟨6, 26, .rw, 0⟩]⟩ /- PKR_RBASE_LO, R308 -/,
  ⟨0x90104, [(2, 0x20)], .none, 0x0, [⟨0, 16, .rw, 0⟩]⟩ /- PKR_RBASE_HI, R308 -/,
  ⟨0x90108, [(2, 0x20)], .none, 0x0, [⟨0, 4, .rw, 4⟩, ⟨8, 6, .rw, 0⟩]⟩ /- PKR_RCFG, R308 -/,
  ⟨0x9010C, [(2, 0x20)], .none, 0x0, [⟨0, 12, .rw, 0⟩]⟩ /- PKR_TAIL, R308 -/,
  ⟨0x90110, [(2, 0x20)], .none, 0x0, [⟨0, 12, .ro, 0⟩]⟩ /- PKR_HEAD, R308 -/,
  ⟨0x91000, [(9, 0x4)], .none, 0xFFFFFFFF, [⟨0, 32, .ro, 0⟩]⟩ /- PKR_CNT, R308 -/,
  ⟨0x9FFF0, [], .none, 0x0, [⟨0, 1, .w1s, 0⟩, ⟨1, 1, .ro, 0⟩, ⟨16, 16, .ro, 0⟩]⟩ /- PKR_SNAPCTL, R16 -/]
/-- Rows of block BLT, part 0. -/
def rowsBLT0 : List RegRow := [
  ⟨0xA0000, [], .none, 0x0, [⟨0, 1, .rw, 0⟩, ⟨1, 1, .rw, 0⟩, ⟨2, 1, .w1s, 0⟩, ⟨3, 1, .w1s, 0⟩]⟩ /- BLT_CTL, R322 -/,
  ⟨0xA0004, [], .none, 0x0, [⟨0, 1, .ro, 0⟩, ⟨1, 1, .ro, 0⟩, ⟨2, 1, .ro, 0⟩, ⟨3, 1, .w1c, 0⟩, ⟨4, 1, .w1c, 0⟩]⟩ /- BLT_STAT, R322 -/,
  ⟨0xA0008, [], .none, 0x0, [⟨5, 27, .rw, 0⟩]⟩ /- BLT_RBASE_LO, R322 -/,
  ⟨0xA000C, [], .none, 0x0, [⟨0, 16, .rw, 0⟩]⟩ /- BLT_RBASE_HI, R322 -/,
  ⟨0xA0010, [], .none, 0x0, [⟨0, 4, .rw, 4⟩, ⟨8, 6, .rw, 0⟩]⟩ /- BLT_RCFG, R322 -/,
  ⟨0xA0014, [], .none, 0x0, [⟨0, 12, .rw, 0⟩]⟩ /- BLT_TAIL, R322 -/,
  ⟨0xA0018, [], .none, 0x0, [⟨0, 12, .ro, 0⟩]⟩ /- BLT_HEAD, R322 -/,
  ⟨0xA001C, [], .none, 0x0, [⟨0, 12, .ro, 0⟩, ⟨16, 4, .ro, 0⟩]⟩ /- BLT_FAULT, R322 -/,
  ⟨0xA0020, [], .none, 0x0, [⟨0, 15, .ro, 0⟩]⟩ /- BLT_FROW, R322 -/,
  ⟨0xA0024, [], .none, 0x0, [⟨0, 15, .ro, 0⟩]⟩ /- BLT_FCOL, R322 -/,
  ⟨0xA0028, [], .none, 0x0, [⟨0, 12, .ro, 0⟩]⟩ /- BLT_HZIDX, R322 -/,
  ⟨0xA002C, [], .none, 0x0, [⟨0, 12, .ro, 0⟩, ⟨16, 4, .ro, 0⟩]⟩ /- BLT_BADIDX, R322 -/,
  ⟨0xA0030, [], .none, 0x0, [⟨0, 12, .ro, 0⟩, ⟨16, 15, .ro, 0⟩]⟩ /- BLT_WMSTAT, R322 -/,
  ⟨0xA1000, [(8, 0x4)], .none, 0xFFFFFFFF, [⟨0, 32, .ro, 0⟩]⟩ /- BLT_CNT, R323 -/,
  ⟨0xAFFF0, [], .none, 0x0, [⟨0, 1, .w1s, 0⟩, ⟨1, 1, .ro, 0⟩, ⟨16, 16, .ro, 0⟩]⟩ /- BLT_SNAPCTL, R16 -/]
/-- Rows of block CMP, part 0. -/
def rowsCMP0 : List RegRow := [
  ⟨0xB0000, [], .none, 0x0, [⟨0, 1, .rw, 0⟩]⟩ /- CMP_CTL, R181 -/,
  ⟨0xB0004, [], .none, 0x0, [⟨0, 1, .ro, 0⟩]⟩ /- CMP_STAT, R181 -/,
  ⟨0xB0008, [], .none, 0x0, [⟨0, 1, .ro, 0⟩, ⟨4, 4, .ro, 0⟩, ⟨8, 6, .ro, 0⟩, ⟨16, 3, .ro, 0⟩]⟩ /- CMP_REJ, R181 -/,
  ⟨0xB0100, [(64, 0x40)], .tile, 0x0, [⟨0, 1, .sh, 0⟩, ⟨1, 1, .sh, 0⟩, ⟨2, 1, .sh, 0⟩, ⟨3, 1, .sh, 1⟩]⟩ /- CMP_TCTL, R182 -/,
  ⟨0xB0104, [(64, 0x40)], .tile, 0x0, [⟨0, 24, .sh, 16434824⟩]⟩ /- CMP_ORDER, R182 -/,
  ⟨0xB0108, [(64, 0x40)], .tile, 0x0, [⟨0, 30, .sh, 0⟩]⟩ /- CMP_TBASE, R182 -/,
  ⟨0xB010C, [(64, 0x40)], .tile, 0x0, [⟨8, 24, .sh, 0⟩]⟩ /- CMP_WB_LO, R182 -/,
  ⟨0xB0110, [(64, 0x40)], .tile, 0x0, [⟨0, 16, .sh, 0⟩]⟩ /- CMP_WB_HI, R182 -/,
  ⟨0xB0114, [(64, 0x40)], .tile, 0x0, [⟨0, 24, .sh, 0⟩]⟩ /- CMP_WB_PITCH, R182 -/,
  ⟨0xB0118, [(64, 0x40)], .tile, 0x0, [⟨0, 8, .w1c, 0⟩, ⟨8, 8, .w1c, 0⟩, ⟨16, 8, .ro, 0⟩]⟩ /- CMP_TSTAT, R182 -/,
  ⟨0xB011C, [(64, 0x40)], .tile, 0x0, [⟨0, 32, .ro, 0⟩]⟩ /- CMP_WBDONE, R182 -/,
  ⟨0xB0120, [(64, 0x40)], .tile, 0x0, [⟨0, 32, .rw, 0⟩]⟩ /- CMP_DOX, R182 -/,
  ⟨0xB0124, [(64, 0x40)], .tile, 0x0, [⟨0, 32, .rw, 0⟩]⟩ /- CMP_DOY, R182 -/,
  ⟨0xB0128, [(64, 0x40)], .tile, 0x0, [⟨0, 32, .rw, 0⟩]⟩ /- CMP_SXMIN, R182 -/,
  ⟨0xB012C, [(64, 0x40)], .tile, 0x0, [⟨0, 32, .rw, 0⟩]⟩ /- CMP_SXMAX, R182 -/,
  ⟨0xB0130, [(64, 0x40)], .tile, 0x0, [⟨0, 32, .rw, 0⟩]⟩ /- CMP_SYMIN, R182 -/,
  ⟨0xB0134, [(64, 0x40)], .tile, 0x0, [⟨0, 32, .rw, 0⟩]⟩ /- CMP_SYMAX, R182 -/,
  ⟨0xB2000, [(64, 0x200), (8, 0x40)], .tile, 0x0, [⟨0, 1, .sh, 0⟩, ⟨1, 1, .sh, 0⟩, ⟨2, 1, .sh, 0⟩, ⟨3, 1, .sh, 0⟩, ⟨4, 1, .sh, 1⟩, ⟨8, 4, .sh, 0⟩, ⟨12, 2, .sh, 0⟩, ⟨16, 10, .sh, 1023⟩]⟩ /- CMP_LCTL, R183 -/,
  ⟨0xB2004, [(64, 0x200), (8, 0x40)], .tile, 0x0, [⟨8, 24, .sh, 0⟩]⟩ /- CMP_LBASE_LO, R183 -/,
  ⟨0xB2008, [(64, 0x200), (8, 0x40)], .tile, 0x0, [⟨0, 16, .sh, 0⟩]⟩ /- CMP_LBASE_HI, R183 -/,
  ⟨0xB200C, [(64, 0x200), (8, 0x40)], .tile, 0x0, [⟨0, 24, .sh, 0⟩]⟩ /- CMP_LPITCH, R183 -/,
  ⟨0xB2010, [(64, 0x200), (8, 0x40)], .tile, 0x0, [⟨0, 16, .sh, 0⟩, ⟨16, 16, .sh, 0⟩]⟩ /- CMP_LSRC, R183 -/,
  ⟨0xB2014, [(64, 0x200), (8, 0x40)], .tile, 0x0, [⟨0, 13, .sh, 0⟩, ⟨16, 12, .sh, 0⟩]⟩ /- CMP_LDPOS, R183 -/,
  ⟨0xB2018, [(64, 0x200), (8, 0x40)], .tile, 0x0, [⟨0, 14, .sh, 0⟩, ⟨16, 13, .sh, 0⟩]⟩ /- CMP_LDSIZE, R183 -/]
/-- Rows of block CMP, part 1. -/
def rowsCMP1 : List RegRow := [
  ⟨0xB201C, [(64, 0x200), (8, 0x40)], .tile, 0x0, [⟨0, 30, .sh, 0⟩, ⟨30, 1, .sh, 0⟩]⟩ /- CMP_LFB, R183 -/,
  ⟨0xB2020, [(64, 0x200), (8, 0x40)], .tile, 0x0, [⟨0, 32, .sh, 0⟩]⟩ /- CMP_LZ, R183 -/,
  ⟨0xB2024, [(64, 0x200), (8, 0x40)], .tile, 0x0, [⟨0, 32, .sh, 0⟩]⟩ /- CMP_LXL, R183 -/,
  ⟨0xB2028, [(64, 0x200), (8, 0x40)], .tile, 0x0, [⟨0, 32, .sh, 0⟩]⟩ /- CMP_LYT, R183 -/,
  ⟨0xB202C, [(64, 0x200), (8, 0x40)], .tile, 0x0, [⟨0, 32, .sh, 0⟩]⟩ /- CMP_LTX, R183 -/,
  ⟨0xB2030, [(64, 0x200), (8, 0x40)], .tile, 0x0, [⟨0, 32, .sh, 0⟩]⟩ /- CMP_LTY, R183 -/,
  ⟨0xB2034, [(64, 0x200), (8, 0x40)], .tile, 0x0, [⟨2, 30, .sh, 0⟩]⟩ /- CMP_LFENCE_LO, R183 -/,
  ⟨0xB2038, [(64, 0x200), (8, 0x40)], .tile, 0x0, [⟨0, 16, .sh, 0⟩]⟩ /- CMP_LFENCE_HI, R183 -/,
  ⟨0xB203C, [(64, 0x200), (8, 0x40)], .tile, 0x0, [⟨0, 32, .sh, 0⟩]⟩ /- CMP_LFVAL, R183 -/,
  ⟨0xBA000, [(64, 0x40), (9, 0x4)], .tile, 0xFFFFFFFF, [⟨0, 32, .ro, 0⟩]⟩ /- CMP_CNT, R184 -/,
  ⟨0xBFFF0, [], .none, 0x0, [⟨0, 1, .w1s, 0⟩, ⟨1, 1, .ro, 0⟩, ⟨16, 16, .ro, 0⟩]⟩ /- CMP_SNAPCTL, R16 -/]
/-- Rows of block SCO, part 0. -/
def rowsSCO0 : List RegRow := [
  ⟨0xC0000, [], .none, 0x0, [⟨0, 1, .rw, 0⟩, ⟨1, 1, .rw, 1⟩]⟩ /- SCO_CTL, R209 -/,
  ⟨0xC0004, [], .none, 0x0, [⟨0, 1, .ro, 0⟩, ⟨1, 1, .ro, 0⟩, ⟨2, 1, .ro, 0⟩, ⟨3, 1, .ro, 0⟩, ⟨4, 1, .ro, 0⟩, ⟨5, 2, .ro, 0⟩, ⟨7, 1, .ro, 0⟩]⟩ /- SCO_STAT, R209 -/,
  ⟨0xC0008, [], .none, 0x0, [⟨0, 1, .w1s, 0⟩]⟩ /- SCO_COMMIT, R209 -/,
  ⟨0xC000C, [], .none, 0x0, [⟨0, 1, .ro, 0⟩, ⟨1, 1, .ro, 0⟩, ⟨2, 1, .w1c, 0⟩, ⟨3, 1, .w1c, 0⟩, ⟨4, 1, .w1c, 0⟩, ⟨8, 4, .ro, 0⟩, ⟨16, 16, .ro, 0⟩]⟩ /- SCO_CSTAT, R209 -/,
  ⟨0xC0010, [], .none, 0x0, [⟨0, 1, .sh, 0⟩, ⟨1, 2, .sh, 0⟩, ⟨3, 1, .sh, 0⟩, ⟨4, 4, .sh, 1⟩]⟩ /- SCO_MODE, R209 -/,
  ⟨0xC0014, [], .none, 0x0, [⟨0, 14, .sh, 1252⟩]⟩ /- SCO_LINE, R209 -/,
  ⟨0xC0018, [], .none, 0x0, [⟨0, 13, .sh, 4096⟩, ⟨16, 8, .sh, 32⟩, ⟨24, 8, .sh, 16⟩]⟩ /- SCO_VGEOM, R209 -/,
  ⟨0xC001C, [], .none, 0x0, [⟨0, 16, .sh, 4160⟩, ⟨16, 16, .sh, 10400⟩]⟩ /- SCO_VTOTAL, R209 -/,
  ⟨0xC0020, [], .none, 0x0, [⟨0, 24, .sh, 0⟩]⟩ /- SCO_PHASE, R209 -/,
  ⟨0xC0024, [], .none, 0x0, [⟨0, 32, .sh, 0⟩]⟩ /- SCO_FCT0_LO, R209 -/,
  ⟨0xC0028, [], .none, 0x0, [⟨0, 32, .sh, 0⟩]⟩ /- SCO_FCT0_HI, R209 -/,
  ⟨0xC002C, [], .none, 0x0, [⟨0, 32, .sh, 1⟩]⟩ /- SCO_FCNUM, R209 -/,
  ⟨0xC0030, [], .none, 0x0, [⟨0, 32, .sh, 60⟩]⟩ /- SCO_FCDEN, R209 -/,
  ⟨0xC0034, [], .none, 0x0, [⟨0, 32, .sh, 0⟩]⟩ /- SCO_DUE_LO, R209 -/,
  ⟨0xC0038, [], .none, 0x0, [⟨0, 32, .sh, 0⟩]⟩ /- SCO_DUE_HI, R209 -/,
  ⟨0xC003C, [], .none, 0x0, [⟨0, 1, .rw, 0⟩, ⟨1, 1, .rw, 0⟩]⟩ /- SCO_FINFO, R209 -/,
  ⟨0xC0040, [], .none, 0x0, [⟨0, 4, .rw, 3⟩]⟩ /- SCO_FRZ, R209 -/,
  ⟨0xC0044, [], .none, 0x0, [⟨0, 1, .rw, 0⟩, ⟨1, 1, .rw, 1⟩]⟩ /- SCO_SEQCTL, R209 -/,
  ⟨0xC0048, [], .none, 0x0, [⟨0, 32, .sh, 0⟩]⟩ /- SCO_TEN_LO, R209 -/,
  ⟨0xC004C, [], .none, 0x0, [⟨0, 32, .sh, 0⟩]⟩ /- SCO_TEN_HI, R209 -/,
  ⟨0xC0050, [], .none, 0x0, [⟨0, 32, .w1c, 0⟩]⟩ /- SCO_FRZ_LO, R209 -/,
  ⟨0xC0054, [], .none, 0x0, [⟨0, 32, .w1c, 0⟩]⟩ /- SCO_FRZ_HI, R209 -/,
  ⟨0xC0100, [], .none, 0xFFFFFFFF, [⟨0, 32, .ro, 0⟩]⟩ /- SCO_S_FRAME, R209 -/,
  ⟨0xC0104, [], .none, 0xFFFFFFFF, [⟨0, 16, .ro, 0⟩]⟩ /- SCO_S_LINE, R209 -/]
/-- Rows of block SCO, part 1. -/
def rowsSCO1 : List RegRow := [
  ⟨0xC0108, [], .none, 0xFFFFFFFF, [⟨0, 32, .ro, 0⟩]⟩ /- SCO_S_FS_LO, R209 -/,
  ⟨0xC010C, [], .none, 0xFFFFFFFF, [⟨0, 32, .ro, 0⟩]⟩ /- SCO_S_FS_HI, R209 -/,
  ⟨0xC0110, [], .none, 0xFFFFFFFF, [⟨0, 24, .ro, 0⟩]⟩ /- SCO_S_PERIOD, R209 -/,
  ⟨0xC0114, [], .none, 0xFFFFFFFF, [⟨0, 32, .ro, 0⟩]⟩ /- SCO_S_PHERR, R209 -/,
  ⟨0xC1000, [(64, 0x4)], .tile, 0x0, [⟨0, 14, .sh, 8192⟩, ⟨16, 13, .sh, 4096⟩]⟩ /- SCO_TSIZE, R210 -/,
  ⟨0xC1100, [(64, 0x4)], .tile, 0xFFFFFFFF, [⟨0, 32, .ro, 0⟩]⟩ /- SCO_SIG, R210 -/,
  ⟨0xC1200, [(11, 0x4)], .none, 0x0, [⟨0, 32, .ro, 0⟩]⟩ /- SCO_CNT, R210 -/,
  ⟨0xCFFF0, [], .none, 0x0, [⟨0, 1, .w1s, 0⟩, ⟨1, 1, .ro, 0⟩, ⟨16, 16, .ro, 0⟩]⟩ /- SCO_SNAPCTL, R16 -/]
/-- Rows of block WYL, part 0. -/
def rowsWYL0 : List RegRow := [
  ⟨0xD0000, [], .none, 0x0, [⟨0, 1, .rw, 0⟩, ⟨1, 1, .rw, 1⟩, ⟨2, 1, .rw, 1⟩, ⟨3, 1, .rw, 1⟩, ⟨8, 4, .rw, 2⟩]⟩ /- WYL_CTL, R237 -/,
  ⟨0xD0008, [], .none, 0x0, [⟨0, 32, .ro, 0⟩]⟩ /- WYL_UP_LO, R237 -/,
  ⟨0xD000C, [], .none, 0x0, [⟨0, 32, .ro, 0⟩]⟩ /- WYL_UP_HI, R237 -/,
  ⟨0xD0010, [], .none, 0x0, [⟨0, 8, .rw, 16⟩, ⟨8, 8, .rw, 60⟩]⟩ /- WYL_SUBCTL, R237 -/,
  ⟨0xD1000, [(64, 0x4)], .tile, 0x0, [⟨0, 1, .rw, 1⟩, ⟨1, 1, .w1s, 0⟩, ⟨2, 1, .w1s, 0⟩, ⟨4, 3, .rw, 0⟩]⟩ /- WYL_PCTL, R238 -/,
  ⟨0xD1100, [(64, 0x4)], .tile, 0x0, [⟨0, 3, .ro, 0⟩, ⟨3, 1, .ro, 0⟩, ⟨4, 1, .ro, 0⟩, ⟨5, 1, .ro, 0⟩, ⟨6, 1, .ro, 0⟩, ⟨7, 1, .ro, 0⟩, ⟨8, 3, .ro, 4⟩, ⟨12, 3, .ro, 7⟩, ⟨16, 3, .ro, 0⟩, ⟨19, 3, .ro, 1⟩, ⟨22, 3, .ro, 2⟩, ⟨25, 3, .ro, 3⟩]⟩ /- WYL_PSTAT, R238 -/,
  ⟨0xD1200, [(64, 0x4)], .tile, 0xFFFFFFFF, [⟨0, 32, .ro, 0⟩]⟩ /- WYL_TSTAT, R238 -/,
  ⟨0xD1300, [(64, 0x4)], .tile, 0x0, [⟨0, 8, .rw, 0⟩, ⟨8, 8, .rw, 0⟩, ⟨16, 1, .w1s, 0⟩]⟩ /- WYL_SREQ, R238 -/,
  ⟨0xD1400, [(64, 0x8)], .tile, 0xFFFFFFFF, [⟨0, 32, .ro, 0⟩]⟩ /- WYL_SRESP_LO, R238 -/,
  ⟨0xD1404, [(64, 0x8)], .tile, 0xFFFFFFFF, [⟨0, 32, .ro, 0⟩]⟩ /- WYL_SRESP_HI, R238 -/,
  ⟨0xD2000, [(64, 0x20), (5, 0x4)], .tile, 0xFFFF0000, [⟨0, 1, .ro, 0⟩, ⟨1, 1, .ro, 0⟩, ⟨2, 1, .ro, 0⟩, ⟨3, 1, .ro, 0⟩, ⟨16, 16, .ro, 0⟩]⟩ /- WYL_LANE_STAT, R238 -/,
  ⟨0xD4000, [(64, 0x40), (12, 0x4)], .tile, 0xFFFFFFFF, [⟨0, 32, .ro, 0⟩]⟩ /- WYL_CNT, R238 -/,
  ⟨0xDFFF0, [], .none, 0x0, [⟨0, 1, .w1s, 0⟩, ⟨1, 1, .ro, 0⟩, ⟨16, 16, .ro, 0⟩]⟩ /- WYL_SNAPCTL, R16 -/]
/-- Rows of block PNL, part 0. -/
def rowsPNL0 : List RegRow := [
  ⟨0xE0000, [], .none, 0x0, [⟨0, 1, .rw, 1⟩]⟩ /- PNL_CTL, R252 -/,
  ⟨0xE0004, [], .none, 0x0, [⟨0, 1, .rw, 0⟩, ⟨1, 1, .rw, 1⟩]⟩ /- PNL_PWRREQ, R252 -/,
  ⟨0xE0008, [], .none, 0x0, [⟨0, 4, .lk, 0⟩, ⟨4, 4, .lk, 0⟩, ⟨8, 3, .lk, 0⟩, ⟨12, 2, .lk, 0⟩]⟩ /- PNL_PWRSTAT, R252 -/,
  ⟨0xE0010, [], .none, 0x0, [⟨0, 1, .w1s, 0⟩, ⟨1, 1, .w1c, 0⟩, ⟨2, 1, .w1c, 0⟩]⟩ /- PNL_HOLD, R252 -/,
  ⟨0xE0014, [], .none, 0x0, [⟨0, 32, .ro, 0⟩]⟩ /- PNL_HGEN, R252 -/,
  ⟨0xE0018, [], .none, 0x0, [⟨0, 10, .rw, 500⟩, ⟨12, 2, .rw, 2⟩]⟩ /- PNL_HCTL, R252 -/,
  ⟨0xE0020, [], .none, 0x0, [⟨0, 12, .rw, 0⟩, ⟨12, 12, .rw, 0⟩, ⟨24, 6, .rw, 0⟩]⟩ /- PNL_RQ_A, R252 -/,
  ⟨0xE0024, [], .none, 0x0, [⟨0, 9, .rw, 0⟩, ⟨9, 9, .rw, 1⟩, ⟨31, 1, .w1s, 0⟩]⟩ /- PNL_RQ_B, R252 -/,
  ⟨0xE0028, [], .none, 0x0, [⟨0, 6, .ro, 0⟩, ⟨6, 1, .w1c, 0⟩]⟩ /- PNL_RQ_STAT, R252 -/,
  ⟨0xE1000, [(64, 0x4)], .tile, 0x0, [⟨0, 1, .sh, 0⟩, ⟨1, 1, .rw, 0⟩]⟩ /- PNL_TCTL, R253 -/,
  ⟨0xE1100, [(64, 0x4)], .tile, 0x0, [⟨0, 1, .ro, 0⟩, ⟨1, 1, .ro, 0⟩, ⟨2, 1, .w1c, 0⟩, ⟨3, 1, .w1c, 0⟩, ⟨4, 3, .ro, 0⟩, ⟨8, 6, .ro, 0⟩, ⟨16, 5, .ro, 0⟩]⟩ /- PNL_TSTAT, R253 -/,
  ⟨0xE1200, [(64, 0x4)], .tile, 0xFFFFFFFF, [⟨0, 32, .ro, 0⟩]⟩ /- PNL_WSUM, R253 -/,
  ⟨0xE1300, [(64, 0x4)], .tile, 0xFFFFFFFF, [⟨0, 32, .ro, 0⟩]⟩ /- PNL_RSUM, R253 -/,
  ⟨0xE1400, [(64, 0x4)], .tile, 0x0, [⟨0, 32, .ro, 0⟩]⟩ /- PNL_HCRC, R253 -/,
  ⟨0xE2000, [(64, 0x20), (7, 0x4)], .tile, 0xFFFFFFFF, [⟨0, 32, .ro, 0⟩]⟩ /- PNL_CNT, R253 -/,
  ⟨0xEFFF0, [], .none, 0x0, [⟨0, 1, .w1s, 0⟩, ⟨1, 1, .ro, 0⟩, ⟨16, 16, .ro, 0⟩]⟩ /- PNL_SNAPCTL, R16 -/]
/-- Rows of block BKL, part 0. -/
def rowsBKL0 : List RegRow := [
  ⟨0xF0000, [], .none, 0x0, [⟨0, 4, .rw, 0⟩, ⟨8, 1, .w1s, 0⟩]⟩ /- BKL_CTL, R268 -/,
  ⟨0xF0004, [], .none, 0x0, [⟨0, 4, .ro, 0⟩, ⟨4, 4, .ro, 0⟩, ⟨8, 4, .ro, 0⟩, ⟨12, 1, .ro, 0⟩]⟩ /- BKL_STAT, R268 -/,
  ⟨0xF0008, [], .none, 0x0, [⟨0, 6, .rw, 0⟩]⟩ /- BKL_SCAN, R268 -/,
  ⟨0xF000C, [], .none, 0x0, [⟨0, 8, .lk, 70⟩, ⟨8, 8, .lk, 2⟩, ⟨16, 7, .lk, 40⟩]⟩ /- BKL_DERATE, R268 -/,
  ⟨0xF0010, [], .none, 0x0, [⟨0, 2, .lk, 0⟩, ⟨4, 4, .lk, 0⟩]⟩ /- BKL_POLICY, R268 -/,
  ⟨0xF0100, [(4, 0x20)], .none, 0x0, [⟨0, 9, .rw, 256⟩, ⟨12, 4, .rw, 0⟩]⟩ /- BKL_CHCFG, R269 -/,
  ⟨0xF0104, [(4, 0x20)], .none, 0xFFFFFFFF, [⟨0, 9, .ro, 0⟩, ⟨9, 1, .ro, 0⟩, ⟨10, 1, .ro, 0⟩, ⟨11, 1, .ro, 0⟩, ⟨12, 1, .ro, 0⟩, ⟨16, 7, .ro, 0⟩]⟩ /- BKL_CHSTAT, R269 -/,
  ⟨0xF0108, [(4, 0x20)], .none, 0x0, [⟨8, 24, .rw, 0⟩]⟩ /- BKL_IMG_LO, R269 -/,
  ⟨0xF010C, [(4, 0x20)], .none, 0x0, [⟨0, 16, .rw, 0⟩]⟩ /- BKL_IMG_HI, R269 -/,
  ⟨0xF0110, [(4, 0x20)], .none, 0x0, [⟨8, 24, .rw, 0⟩]⟩ /- BKL_STS_LO, R269 -/,
  ⟨0xF0114, [(4, 0x20)], .none, 0x0, [⟨0, 16, .rw, 0⟩]⟩ /- BKL_STS_HI, R269 -/,
  ⟨0xF0118, [(4, 0x20)], .none, 0x0, [⟨0, 8, .lk, 0⟩, ⟨8, 4, .lk, 0⟩, ⟨16, 16, .lk, 0⟩]⟩ /- BKL_LOUT, R269 -/,
  ⟨0xF011C, [(4, 0x20)], .none, 0x0, [⟨0, 12, .lk, 0⟩]⟩ /- BKL_IMAX, R269 -/,
  ⟨0xF1000, [(4, 0x20), (8, 0x4)], .none, 0xFFFFFFFF, [⟨0, 32, .ro, 0⟩]⟩ /- BKL_CNT, R269 -/,
  ⟨0xFFFF0, [], .none, 0x0, [⟨0, 1, .w1s, 0⟩, ⟨1, 1, .ro, 0⟩, ⟨16, 16, .ro, 0⟩]⟩ /- BKL_SNAPCTL, R16 -/]
/-- Rows of block CAM, part 0. -/
def rowsCAM0 : List RegRow := [
  ⟨0x100000, [], .none, 0x0, [⟨0, 1, .rw, 0⟩]⟩ /- CAM_CTL, R292 -/,
  ⟨0x100010, [], .none, 0x0, [⟨0, 1, .rw, 0⟩, ⟨8, 5, .rw, 0⟩, ⟨16, 8, .rw, 0⟩]⟩ /- CAM_SETCTL, R292 -/,
  ⟨0x100014, [], .none, 0x0, [⟨0, 32, .rw, 0⟩]⟩ /- CAM_SETMASK, R292 -/,
  ⟨0x100018, [], .none, 0x0, [⟨0, 16, .rw, 1000⟩, ⟨16, 16, .rw, 16000⟩]⟩ /- CAM_SETWIN, R292 -/,
  ⟨0x10001C, [], .none, 0x0, [⟨0, 24, .rw, 0⟩]⟩ /- CAM_SETOFS, R292 -/,
  ⟨0x100020, [], .none, 0x0, [⟨0, 32, .ro, 0⟩]⟩ /- CAM_SETNUM, R292 -/,
  ⟨0x100024, [], .none, 0x0, [⟨10, 22, .rw, 0⟩]⟩ /- CAM_SREC_LO, R292 -/,
  ⟨0x100028, [], .none, 0x0, [⟨0, 16, .rw, 0⟩]⟩ /- CAM_SREC_HI, R292 -/,
  ⟨0x10002C, [], .none, 0x0, [⟨0, 4, .rw, 4⟩]⟩ /- CAM_SREC_CNT, R292 -/,
  ⟨0x100040, [], .none, 0x0, [⟨0, 5, .rw, 0⟩, ⟨8, 3, .rw, 0⟩, ⟨11, 1, .rw, 0⟩, ⟨16, 8, .rw, 0⟩]⟩ /- CAM_XREQ_A, R292 -/,
  ⟨0x100044, [], .none, 0x0, [⟨0, 16, .rw, 0⟩, ⟨31, 1, .w1s, 0⟩]⟩ /- CAM_XREQ_B, R292 -/,
  ⟨0x100048, [], .none, 0x0, [⟨3, 29, .rw, 0⟩]⟩ /- CAM_XLIST_LO, R292 -/,
  ⟨0x10004C, [], .none, 0x0, [⟨0, 16, .rw, 0⟩]⟩ /- CAM_XLIST_HI, R292 -/,
  ⟨0x100050, [], .none, 0x0, [⟨0, 1, .w1c, 0⟩, ⟨8, 4, .ro, 0⟩]⟩ /- CAM_XSTAT, R292 -/,
  ⟨0x100100, [(8, 0x10)], .none, 0x0, [⟨0, 1, .rw, 0⟩, ⟨1, 2, .rw, 0⟩, ⟨4, 8, .rw, 228⟩, ⟨12, 4, .rw, 0⟩, ⟨16, 1, .rw, 0⟩]⟩ /- CAM_PCFG, R293 -/,
  ⟨0x100104, [(8, 0x10)], .none, 0x0, [⟨0, 1, .ro, 0⟩, ⟨1, 1, .ro, 0⟩]⟩ /- CAM_PSTAT, R293 -/,
  ⟨0x100200, [(8, 0x4)], .none, 0x0, [⟨0, 1, .rw, 0⟩, ⟨8, 8, .rw, 24⟩]⟩ /- CAM_CCI, R293 -/,
  ⟨0x101000, [(32, 0x40)], .none, 0x0, [⟨0, 1, .rw, 0⟩, ⟨1, 3, .rw, 0⟩, ⟨4, 4, .rw, 0⟩, ⟨8, 6, .rw, 0⟩, ⟨14, 2, .rw, 0⟩, ⟨16, 2, .rw, 0⟩, ⟨18, 2, .rw, 0⟩, ⟨20, 3, .rw, 0⟩, ⟨23, 3, .rw, 0⟩]⟩ /- CAM_SCFG, R293 -/,
  ⟨0x101004, [(32, 0x40)], .none, 0x0, [⟨0, 14, .rw, 0⟩, ⟨16, 13, .rw, 0⟩]⟩ /- CAM_SSIZE, R293 -/,
  ⟨0x101008, [(32, 0x40)], .none, 0x0, [⟨8, 24, .rw, 0⟩]⟩ /- CAM_SIMG_LO, R293 -/,
  ⟨0x10100C, [(32, 0x40)], .none, 0x0, [⟨0, 16, .rw, 0⟩]⟩ /- CAM_SIMG_HI, R293 -/,
  ⟨0x101010, [(32, 0x40)], .none, 0x0, [⟨0, 24, .rw, 0⟩]⟩ /- CAM_SPITCH, R293 -/,
  ⟨0x101014, [(32, 0x40)], .none, 0x0, [⟨8, 24, .rw, 0⟩]⟩ /- CAM_SSTRIDE, R293 -/,
  ⟨0x101018, [(32, 0x40)], .none, 0x0, [⟨8, 24, .rw, 0⟩]⟩ /- CAM_SSTA_LO, R293 -/]
/-- Rows of block CAM, part 1. -/
def rowsCAM1 : List RegRow := [
  ⟨0x10101C, [(32, 0x40)], .none, 0x0, [⟨0, 16, .rw, 0⟩]⟩ /- CAM_SSTA_HI, R293 -/,
  ⟨0x101020, [(32, 0x40)], .none, 0x0, [⟨0, 5, .rw, 2⟩]⟩ /- CAM_SNBUF, R293 -/,
  ⟨0x101024, [(32, 0x40)], .none, 0x0, [⟨0, 16, .rw, 0⟩]⟩ /- CAM_SLOCK, R293 -/,
  ⟨0x101028, [(32, 0x40)], .none, 0x0, [⟨0, 32, .ro, 0⟩]⟩ /- CAM_SFCNT, R293 -/,
  ⟨0x10102C, [(32, 0x40)], .none, 0x0, [⟨0, 4, .ro, 0⟩, ⟨4, 1, .ro, 0⟩]⟩ /- CAM_SLAST, R293 -/,
  ⟨0x101030, [(32, 0x40)], .none, 0x0, [⟨0, 16, .ro, 0⟩, ⟨16, 1, .ro, 0⟩, ⟨17, 1, .ro, 0⟩, ⟨18, 1, .ro, 0⟩, ⟨24, 8, .ro, 0⟩]⟩ /- CAM_XDONE, R293 -/,
  ⟨0x102000, [(32, 0x40), (13, 0x4)], .none, 0xFFFFFFFF, [⟨0, 32, .ro, 0⟩]⟩ /- CAM_CNT, R293 -/,
  ⟨0x103000, [(8, 0x20), (4, 0x4)], .none, 0xFFFFFFFF, [⟨0, 32, .ro, 0⟩]⟩ /- CAM_PCNT, R293 -/,
  ⟨0x10FFF0, [], .none, 0x0, [⟨0, 1, .w1s, 0⟩, ⟨1, 1, .ro, 0⟩, ⟨16, 16, .ro, 0⟩]⟩ /- CAM_SNAPCTL, R16 -/]
/-- Rows of block ISP, part 0. -/
def rowsISP0 : List RegRow := [
  ⟨0x110100, [(4, 0x4)], .none, 0x0, [⟨0, 18, .ro, 0⟩]⟩ /- ISP_PSTAT, R294 -/,
  ⟨0x110200, [(4, 0x20), (4, 0x4)], .none, 0xFFFFFFFF, [⟨0, 32, .ro, 0⟩]⟩ /- ISP_PCNT, R294 -/,
  ⟨0x111000, [(32, 0x80), (2, 0x4)], .none, 0x0, [⟨0, 16, .rw, 0⟩, ⟨16, 16, .rw, 0⟩]⟩ /- ISP_BL, R294 -/,
  ⟨0x111008, [(32, 0x80), (2, 0x4)], .none, 0x0, [⟨0, 16, .rw, 4096⟩, ⟨16, 16, .rw, 4096⟩]⟩ /- ISP_WB, R294 -/,
  ⟨0x111010, [(32, 0x80), (4, 0x4)], .none, 0x0, [⟨0, 16, .rw, 0⟩, ⟨16, 16, .rw, 0⟩]⟩ /- ISP_CCM k = 0–3, R294 -/,
  ⟨0x111020, [(32, 0x80)], .none, 0x0, [⟨0, 16, .rw, 0⟩]⟩ /- ISP_CCM k = 4, R294 -/,
  ⟨0x111024, [(32, 0x80)], .none, 0x0, [⟨0, 16, .rw, 0⟩, ⟨16, 16, .rw, 0⟩]⟩ /- ISP_OFS k = 0, R294 -/,
  ⟨0x111028, [(32, 0x80)], .none, 0x0, [⟨0, 16, .rw, 0⟩]⟩ /- ISP_OFS k = 1, R294 -/,
  ⟨0x11102C, [(32, 0x80)], .none, 0x0, [⟨0, 1, .rw, 0⟩, ⟨1, 1, .rw, 0⟩, ⟨2, 1, .rw, 0⟩, ⟨16, 16, .rw, 0⟩]⟩ /- ISP_DPC, R294 -/,
  ⟨0x111030, [(32, 0x80)], .none, 0x0, [⟨4, 28, .rw, 0⟩]⟩ /- ISP_DMAP_LO, R294 -/,
  ⟨0x111034, [(32, 0x80)], .none, 0x0, [⟨0, 16, .rw, 0⟩]⟩ /- ISP_DMAP_HI, R294 -/,
  ⟨0x111038, [(32, 0x80)], .none, 0x0, [⟨0, 17, .rw, 0⟩]⟩ /- ISP_DMAP_N, R294 -/,
  ⟨0x11103C, [(32, 0x80)], .none, 0x0, [⟨8, 24, .rw, 0⟩]⟩ /- ISP_LSC_LO, R294 -/,
  ⟨0x111040, [(32, 0x80)], .none, 0x0, [⟨0, 16, .rw, 0⟩]⟩ /- ISP_LSC_HI, R294 -/,
  ⟨0x111044, [(32, 0x80)], .none, 0x0, [⟨0, 16, .rw, 0⟩, ⟨16, 16, .rw, 61440⟩]⟩ /- ISP_STHR, R294 -/,
  ⟨0x11FFF0, [], .none, 0x0, [⟨0, 1, .w1s, 0⟩, ⟨1, 1, .ro, 0⟩, ⟨16, 16, .ro, 0⟩]⟩ /- ISP_SNAPCTL, R16 -/]
/-- Rows of block ETH, part 0. -/
def rowsETH0 : List RegRow := [
  ⟨0x120000, [], .none, 0x0, [⟨0, 2, .rw, 0⟩]⟩ /- ETH_CTL, R391 -/,
  ⟨0x120100, [(2, 0x100)], .none, 0x0, [⟨0, 1, .rw, 0⟩, ⟨1, 1, .rw, 0⟩, ⟨2, 1, .rw, 1⟩, ⟨3, 1, .rw, 0⟩, ⟨16, 14, .rw, 1514⟩]⟩ /- ETH_PCFG, R392 -/,
  ⟨0x120104, [(2, 0x100)], .none, 0x0, [⟨0, 1, .ro, 0⟩, ⟨1, 1, .ro, 0⟩, ⟨2, 1, .ro, 0⟩, ⟨3, 1, .ro, 0⟩]⟩ /- ETH_PSTAT, R392 -/,
  ⟨0x120108, [(2, 0x100)], .none, 0x0, [⟨0, 32, .rw, 0⟩]⟩ /- ETH_MAC_LO, R392 -/,
  ⟨0x12010C, [(2, 0x100)], .none, 0x0, [⟨0, 16, .rw, 0⟩]⟩ /- ETH_MAC_HI, R392 -/,
  ⟨0x120110, [(2, 0x100)], .none, 0x0, [⟨0, 32, .rw, 0⟩]⟩ /- ETH_TSADJ_TX, R392 -/,
  ⟨0x120114, [(2, 0x100)], .none, 0x0, [⟨0, 32, .rw, 0⟩]⟩ /- ETH_TSADJ_RX, R392 -/,
  ⟨0x120800, [(2, 0x40), (8, 0x4)], .none, 0x0, [⟨0, 16, .rw, 0⟩, ⟨16, 2, .rw, 0⟩, ⟨18, 1, .rw, 0⟩]⟩ /- ETH_FLT, R392 -/,
  ⟨0x121000, [(2, 0x100), (4, 0x40)], .none, 0x0, [⟨5, 27, .rw, 0⟩]⟩ /- ETH_RBASE_LO, R392 -/,
  ⟨0x121004, [(2, 0x100), (4, 0x40)], .none, 0x0, [⟨0, 16, .rw, 0⟩]⟩ /- ETH_RBASE_HI, R392 -/,
  ⟨0x121008, [(2, 0x100), (4, 0x40)], .none, 0x0, [⟨0, 4, .rw, 4⟩, ⟨4, 1, .rw, 0⟩, ⟨8, 6, .rw, 0⟩]⟩ /- ETH_RCFG, R392 -/,
  ⟨0x12100C, [(2, 0x100), (4, 0x40)], .none, 0x0, [⟨0, 12, .rw, 0⟩]⟩ /- ETH_TAIL, R392 -/,
  ⟨0x121010, [(2, 0x100), (4, 0x40)], .none, 0x0, [⟨0, 12, .ro, 0⟩]⟩ /- ETH_HEAD, R392 -/,
  ⟨0x122000, [(2, 0x40), (12, 0x4)], .none, 0xFFFFFFFF, [⟨0, 32, .ro, 0⟩]⟩ /- ETH_CNT, R392 -/,
  ⟨0x12FFF0, [], .none, 0x0, [⟨0, 1, .w1s, 0⟩, ⟨1, 1, .ro, 0⟩, ⟨16, 16, .ro, 0⟩]⟩ /- ETH_SNAPCTL, R16 -/]
/-- Rows of block PTP, part 0. -/
def rowsPTP0 : List RegRow := [
  ⟨0x130000, [], .none, 0x0, [⟨0, 1, .rw, 1⟩, ⟨1, 1, .rw, 0⟩, ⟨2, 1, .rw, 0⟩]⟩ /- PTP_CTL, R393 -/,
  ⟨0x130004, [], .none, 0x0, [⟨0, 1, .ro, 0⟩, ⟨1, 1, .w1c, 0⟩, ⟨2, 1, .ro, 0⟩, ⟨8, 8, .ro, 0⟩, ⟨16, 8, .ro, 0⟩]⟩ /- PTP_STAT, R393 -/,
  ⟨0x130008, [], .none, 0x0, [⟨0, 32, .ro, 0⟩]⟩ /- PTP_RATE, R393 -/,
  ⟨0x130010, [], .none, 0x0, [⟨0, 32, .rw, 0⟩]⟩ /- PTP_OFS_A, R393 -/,
  ⟨0x130014, [], .none, 0x0, [⟨0, 16, .rw, 0⟩, ⟨16, 8, .rw, 0⟩, ⟨31, 1, .w1s, 0⟩]⟩ /- PTP_OFS_B, R393 -/,
  ⟨0x130018, [], .none, 0x0, [⟨0, 8, .rw, 64⟩, ⟨8, 8, .rw, 8⟩, ⟨16, 4, .rw, 13⟩, ⟨24, 8, .rw, 4⟩]⟩ /- PTP_SERVO, R393 -/,
  ⟨0x13001C, [], .none, 0x0, [⟨0, 16, .rw, 1000⟩, ⟨16, 8, .rw, 100⟩, ⟨24, 8, .rw, 20⟩]⟩ /- PTP_LIMITS, R393 -/,
  ⟨0x130020, [], .none, 0x0, [⟨0, 32, .rw, 0⟩]⟩ /- PTP_STEP_LO, R393 -/,
  ⟨0x130024, [], .none, 0x0, [⟨0, 32, .rw, 0⟩]⟩ /- PTP_STEP_HI, R393 -/,
  ⟨0x130028, [], .none, 0x0, [⟨0, 1, .w1s, 0⟩, ⟨1, 1, .rw, 0⟩]⟩ /- PTP_STEP_CTL, R393 -/,
  ⟨0x130030, [], .none, 0x0, [⟨0, 10, .rw, 100⟩]⟩ /- PTP_PPS, R393 -/,
  ⟨0x130034, [], .none, 0x0, [⟨0, 30, .rw, 0⟩]⟩ /- PTP_PPS_OFS, R393 -/,
  ⟨0x130100, [], .none, 0xFFFFFFFF, [⟨0, 32, .ro, 0⟩]⟩ /- PTP_S_TIME_LO, R393 -/,
  ⟨0x130104, [], .none, 0xFFFFFFFF, [⟨0, 32, .ro, 0⟩]⟩ /- PTP_S_TIME_HI, R393 -/,
  ⟨0x130108, [], .none, 0xFFFFFFFF, [⟨0, 16, .ro, 0⟩]⟩ /- PTP_S_FRAC, R393 -/,
  ⟨0x13010C, [], .none, 0xFFFFFFFF, [⟨0, 32, .ro, 0⟩]⟩ /- PTP_S_CLK_LO, R393 -/,
  ⟨0x130110, [], .none, 0xFFFFFFFF, [⟨0, 32, .ro, 0⟩]⟩ /- PTP_S_CLK_HI, R393 -/,
  ⟨0x130114, [], .none, 0xFFFFFFFF, [⟨0, 32, .ro, 0⟩]⟩ /- PTP_S_STW_LO, R393 -/,
  ⟨0x130118, [], .none, 0xFFFFFFFF, [⟨0, 32, .ro, 0⟩]⟩ /- PTP_S_STW_HI, R393 -/,
  ⟨0x13011C, [], .none, 0xFFFFFFFF, [⟨0, 32, .ro, 0⟩]⟩ /- PTP_S_PPSIN_LO, R393 -/,
  ⟨0x130120, [], .none, 0xFFFFFFFF, [⟨0, 32, .ro, 0⟩]⟩ /- PTP_S_PPSIN_HI, R393 -/,
  ⟨0x130124, [], .none, 0xFFFFFFFF, [⟨0, 16, .ro, 0⟩]⟩ /- PTP_S_PPSIN_FRAC, R393 -/,
  ⟨0x130200, [(8, 0x10)], .none, 0x0, [⟨0, 32, .rw, 0⟩]⟩ /- PTP_TMR_LO, R394 -/,
  ⟨0x130204, [(8, 0x10)], .none, 0x0, [⟨0, 32, .rw, 0⟩]⟩ /- PTP_TMR_HI, R394 -/]
/-- Rows of block PTP, part 1. -/
def rowsPTP1 : List RegRow := [
  ⟨0x130208, [(8, 0x10)], .none, 0x0, [⟨0, 32, .rw, 0⟩]⟩ /- PTP_TMR_PER, R394 -/,
  ⟨0x13020C, [(8, 0x10)], .none, 0x0, [⟨0, 1, .rw, 0⟩, ⟨1, 3, .rw, 0⟩]⟩ /- PTP_TMR_CTL, R394 -/,
  ⟨0x131000, [(9, 0x4)], .none, 0x0, [⟨0, 32, .ro, 0⟩]⟩ /- PTP_CNT, R394 -/,
  ⟨0x13FFF0, [], .none, 0x0, [⟨0, 1, .w1s, 0⟩, ⟨1, 1, .ro, 0⟩, ⟨16, 16, .ro, 0⟩]⟩ /- PTP_SNAPCTL, R16 -/]
/-- Rows of block MEM, part 0. -/
def rowsMEM0 : List RegRow := [
  ⟨0x140000, [], .none, 0x0, [⟨0, 1, .w1s, 0⟩, ⟨1, 1, .rw, 1⟩, ⟨2, 1, .rw, 1⟩, ⟨3, 1, .rw, 1⟩]⟩ /- MEM_CTL, R342 -/,
  ⟨0x140004, [], .none, 0x0, [⟨0, 1, .ro, 0⟩, ⟨1, 1, .ro, 0⟩, ⟨2, 2, .ro, 0⟩, ⟨4, 1, .ro, 0⟩, ⟨5, 1, .ro, 0⟩]⟩ /- MEM_STAT, R342 -/,
  ⟨0x140008, [], .none, 0x0, [⟨0, 2, .rw, 0⟩, ⟨4, 1, .w1s, 0⟩, ⟨5, 1, .rw, 1⟩, ⟨8, 1, .w1c, 0⟩, ⟨9, 1, .w1c, 0⟩, ⟨12, 4, .ro, 0⟩]⟩ /- MEM_SPEED, R342 -/,
  ⟨0x14000C, [], .none, 0x0, [⟨0, 6, .rw, 48⟩, ⟨8, 6, .rw, 16⟩, ⟨16, 8, .rw, 40⟩, ⟨24, 8, .rw, 50⟩]⟩ /- MEM_SCHED, R342 -/,
  ⟨0x140010, [], .none, 0x0, [⟨0, 8, .rw, 100⟩, ⟨8, 8, .rw, 5⟩, ⟨16, 1, .w1s, 0⟩]⟩ /- MEM_RETRAIN, R342 -/,
  ⟨0x140014, [], .none, 0x0, [⟨0, 16, .rw, 24⟩]⟩ /- MEM_SCRUB, R342 -/,
  ⟨0x140018, [], .none, 0x0, [⟨0, 16, .rw, 64⟩]⟩ /- MEM_REPAIR, R342 -/,
  ⟨0x140020, [], .none, 0x0, [⟨0, 1, .w1c, 0⟩, ⟨5, 27, .ro, 0⟩]⟩ /- MEM_UE_LO, R342 -/,
  ⟨0x140024, [], .none, 0x0, [⟨0, 8, .ro, 0⟩]⟩ /- MEM_UE_HI, R342 -/,
  ⟨0x140100, [(11, 0x8)], .none, 0x0, [⟨0, 32, .rw, 0⟩]⟩ /- MEM_HASH_LO, R343 -/,
  ⟨0x140104, [(11, 0x8)], .none, 0x0, [⟨0, 3, .rw, 0⟩]⟩ /- MEM_HASH_HI, R343 -/,
  ⟨0x140200, [(4, 0x4)], .none, 0xFFFFFFFF, [⟨0, 8, .ro, 0⟩, ⟨8, 2, .ro, 0⟩, ⟨10, 1, .ro, 0⟩]⟩ /- MEM_STKTEMP, R343 -/,
  ⟨0x141000, [(64, 0x4)], .none, 0xFFFFFFFF, [⟨0, 1, .ro, 0⟩, ⟨1, 1, .ro, 0⟩, ⟨2, 4, .ro, 15⟩, ⟨6, 4, .ro, 15⟩]⟩ /- MEM_CHSTAT, R343 -/,
  ⟨0x142000, [(64, 0x40), (13, 0x4)], .none, 0xFFFFFFFF, [⟨0, 32, .ro, 0⟩]⟩ /- MEM_CNT, R343 -/,
  ⟨0x14FFF0, [], .none, 0x0, [⟨0, 1, .w1s, 0⟩, ⟨1, 1, .ro, 0⟩, ⟨16, 16, .ro, 0⟩]⟩ /- MEM_SNAPCTL, R16 -/]
/-- Rows of block HLT, part 0. -/
def rowsHLT0 : List RegRow := [
  ⟨0x150000, [], .none, 0x0, [⟨0, 1, .rw, 1⟩, ⟨1, 1, .rw, 0⟩, ⟨2, 1, .rw, 1⟩]⟩ /- HLT_CTL, R434 -/,
  ⟨0x150004, [], .none, 0x0, [⟨0, 1, .w1c, 0⟩, ⟨1, 1, .w1c, 0⟩, ⟨2, 1, .w1c, 0⟩, ⟨3, 1, .ro, 0⟩, ⟨4, 1, .ro, 0⟩, ⟨5, 1, .ro, 0⟩, ⟨6, 1, .ro, 0⟩, ⟨7, 1, .ro, 0⟩]⟩ /- HLT_STAT, R434 -/,
  ⟨0x150010, [], .none, 0x0, [⟨0, 32, .ro, 0⟩]⟩ /- HLT_LOG_HEAD, R434 -/,
  ⟨0x150014, [], .none, 0x0, [⟨0, 32, .rw, 0⟩]⟩ /- HLT_LOG_TAIL, R434 -/,
  ⟨0x150018, [], .none, 0x0, [⟨0, 32, .rc, 0⟩]⟩ /- HLT_LOG_DROP, R434 -/,
  ⟨0x15001C, [], .none, 0x0, [⟨0, 1, .w1s, 0⟩]⟩ /- HLT_LOG_CLR, R434 -/,
  ⟨0x150020, [], .none, 0x0, [⟨10, 22, .rw, 0⟩]⟩ /- HLT_MIRROR_LO, R434 -/,
  ⟨0x150024, [], .none, 0x0, [⟨0, 16, .rw, 0⟩]⟩ /- HLT_MIRROR_HI, R434 -/,
  ⟨0x150080, [], .none, 0x0, [⟨0, 10, .ro, 750⟩]⟩ /- HLT_AVS, R434 -/,
  ⟨0x150084, [], .none, 0x0, [⟨0, 10, .rw, 730⟩, ⟨16, 10, .rw, 830⟩]⟩ /- HLT_AVSLIM, R434 -/,
  ⟨0x150088, [], .none, 0x0, [⟨0, 8, .rw, 25⟩, ⟨8, 8, .rw, 60⟩, ⟨16, 8, .rw, 8⟩]⟩ /- HLT_SLACK, R434 -/,
  ⟨0x15008C, [], .none, 0x0, [⟨0, 16, .rw, 60⟩]⟩ /- HLT_PLAN, R434 -/,
  ⟨0x150090, [], .none, 0x0, [⟨0, 12, .ro, 1600⟩, ⟨16, 12, .rw, 800⟩]⟩ /- HLT_CEIL, R434 -/,
  ⟨0x150094, [], .none, 0x0, [⟨0, 16, .ro, 65535⟩]⟩ /- HLT_PROJ, R434 -/,
  ⟨0x150098, [], .none, 0x0, [⟨0, 32, .ro, 0⟩]⟩ /- HLT_POH, R434 -/,
  ⟨0x1500A0, [], .none, 0x0, [⟨0, 1, .w1s, 0⟩, ⟨1, 1, .rw, 1⟩, ⟨8, 8, .rw, 1⟩]⟩ /- HLT_REPCTL, R434 -/,
  ⟨0x1500A4, [], .none, 0x0, [⟨9, 23, .rw, 0⟩]⟩ /- HLT_REP_LO, R434 -/,
  ⟨0x1500A8, [], .none, 0x0, [⟨0, 16, .rw, 0⟩]⟩ /- HLT_REP_HI, R434 -/,
  ⟨0x1500AC, [], .none, 0x0, [⟨0, 32, .ro, 0⟩]⟩ /- HLT_REPSEQ, R434 -/,
  ⟨0x150100, [(8, 0x4)], .none, 0x0, [⟨0, 32, .ro, 0⟩]⟩ /- HLT_FIRST, R435 -/,
  ⟨0x150120, [(8, 0x4)], .none, 0x0, [⟨0, 32, .ro, 0⟩]⟩ /- HLT_LATEST, R435 -/,
  ⟨0x151000, [(64, 0x4)], .none, 0xFFFFFFFF, [⟨0, 16, .ro, 0⟩, ⟨16, 8, .ro, 0⟩]⟩ /- HLT_AGE, R435 -/,
  ⟨0x151100, [(64, 0x4)], .none, 0xFFFFFFFF, [⟨0, 8, .ro, 0⟩, ⟨8, 8, .ro, 0⟩, ⟨16, 1, .ro, 0⟩]⟩ /- HLT_REPL, R435 -/,
  ⟨0x151200, [(82, 0x4)], .none, 0xFFFFFFFF, [⟨0, 8, .ro, 0⟩, ⟨8, 8, .ro, 0⟩]⟩ /- HLT_EYE, R435 -/]
/-- Rows of block HLT, part 1. -/
def rowsHLT1 : List RegRow := [
  ⟨0x151400, [(64, 0x4)], .none, 0xFFFFFFFF, [⟨0, 8, .ro, 0⟩, ⟨8, 8, .ro, 0⟩]⟩ /- HLT_HMARG, R435 -/,
  ⟨0x151500, [(27, 0x4)], .none, 0xFFFFFFFF, [⟨0, 32, .ro, 0⟩]⟩ /- HLT_BLKCNT, R435 -/,
  ⟨0x151580, [(15, 0x4)], .none, 0xFFFFFFFF, [⟨0, 32, .ro, 0⟩]⟩ /- HLT_CNT, R435 -/,
  ⟨0x154000, [(1024, 0x20), (8, 0x4)], .none, 0x0, [⟨0, 32, .ro, 0⟩]⟩ /- HLT_LOG, R435 -/,
  ⟨0x15FFF0, [], .none, 0x0, [⟨0, 1, .w1s, 0⟩, ⟨1, 1, .ro, 0⟩, ⟨16, 16, .ro, 0⟩]⟩ /- HLT_SNAPCTL, R16 -/]
/-- Rows of block CAL, part 0. -/
def rowsCAL0 : List RegRow := [
  ⟨0x160000, [], .none, 0x0, [⟨0, 1, .rw, 1⟩, ⟨1, 1, .rw, 1⟩]⟩ /- CAL_CTL, R453 -/,
  ⟨0x160004, [], .none, 0x0, [⟨1, 8, .rw, 255⟩]⟩ /- CAL_TASKEN, R453 -/,
  ⟨0x160008, [], .none, 0x0, [⟨1, 8, .ro, 0⟩, ⟨9, 1, .ro, 0⟩, ⟨10, 1, .ro, 0⟩]⟩ /- CAL_STAT, R453 -/,
  ⟨0x16000C, [], .none, 0x0, [⟨0, 8, .rw, 10⟩, ⟨8, 8, .rw, 1⟩]⟩ /- CAL_PERIOD, R453 -/,
  ⟨0x160010, [], .none, 0x0, [⟨0, 4, .rw, 0⟩, ⟨4, 5, .rw, 0⟩, ⟨16, 9, .rw, 0⟩, ⟨31, 1, .w1s, 0⟩]⟩ /- CAL_REQ, R453 -/,
  ⟨0x160014, [], .none, 0x0, [⟨0, 8, .ro, 0⟩, ⟨8, 2, .ro, 0⟩, ⟨16, 16, .ro, 0⟩]⟩ /- CAL_RSP, R453 -/,
  ⟨0x160018, [], .none, 0x0, [⟨0, 8, .ro, 0⟩, ⟨8, 1, .ro, 0⟩]⟩ /- CAL_DONE, R453 -/,
  ⟨0x16001C, [], .none, 0x0, [⟨0, 16, .rw, 1000⟩]⟩ /- CAL_FORCE, R453 -/,
  ⟨0x161000, [(9, 0x20), (7, 0x4)], .none, 0xFFFFFFFF, [⟨0, 32, .ro, 0⟩]⟩ /- CAL_CNT, R453 -/,
  ⟨0x16FFF0, [], .none, 0x0, [⟨0, 1, .w1s, 0⟩, ⟨1, 1, .ro, 0⟩, ⟨16, 16, .ro, 0⟩]⟩ /- CAL_SNAPCTL, R16 -/]
/-- Rows of block THM, part 0. -/
def rowsTHM0 : List RegRow := [
  ⟨0x170004, [], .none, 0x0, [⟨0, 1, .ro, 0⟩, ⟨1, 1, .ro, 0⟩, ⟨2, 1, .ro, 0⟩, ⟨8, 5, .ro, 0⟩, ⟨16, 7, .ro, 100⟩]⟩ /- THM_STAT, R454 -/,
  ⟨0x170008, [], .none, 0x0, [⟨0, 12, .ro, 1600⟩, ⟨16, 12, .ro, 1600⟩]⟩ /- THM_CEIL, R454 -/,
  ⟨0x170010, [], .none, 0x0, [⟨0, 8, .rw, 112⟩, ⟨8, 8, .rw, 118⟩, ⟨16, 8, .lk, 4⟩]⟩ /- THM_THR, R454 -/,
  ⟨0x170014, [], .none, 0x0, [⟨0, 8, .lk, 132⟩, ⟨8, 8, .lk, 20⟩, ⟨16, 8, .lk, 10⟩]⟩ /- THM_SHUT, R454 -/,
  ⟨0x170018, [], .none, 0x0, [⟨0, 2, .lk, 0⟩, ⟨2, 1, .lk, 0⟩, ⟨4, 2, .lk, 0⟩, ⟨8, 8, .lk, 0⟩]⟩ /- THM_SHSTAT, R454 -/,
  ⟨0x171000, [(96, 0x4)], .none, 0xFFFFFFFF, [⟨0, 16, .ro, 0⟩, ⟨16, 1, .ro, 0⟩, ⟨17, 1, .ro, 0⟩, ⟨18, 1, .ro, 0⟩]⟩ /- THM_CH, R455 -/,
  ⟨0x171200, [(40, 0x4)], .none, 0x0, [⟨0, 32, .ro, 0⟩]⟩ /- THM_NBR, R455 -/,
  ⟨0x171300, [(40, 0x4)], .none, 0x0, [⟨0, 8, .ro, 0⟩]⟩ /- THM_TRIM, R455 -/,
  ⟨0x171400, [(8, 0x4)], .none, 0xFFFFFFFF, [⟨0, 32, .ro, 0⟩]⟩ /- THM_CNT, R455 -/,
  ⟨0x17FFF0, [], .none, 0x0, [⟨0, 1, .w1s, 0⟩, ⟨1, 1, .ro, 0⟩, ⟨16, 16, .ro, 0⟩]⟩ /- THM_SNAPCTL, R16 -/]
/-- Rows of block SEC, part 0. -/
def rowsSEC0 : List RegRow := [
  ⟨0x180000, [], .none, 0x0, [⟨0, 8, .rw, 0⟩, ⟨8, 15, .rw, 0⟩, ⟨31, 1, .w1s, 0⟩]⟩ /- SEC_REQ, R474 -/,
  ⟨0x180004, [], .none, 0x0, [⟨0, 1, .ro, 0⟩]⟩ /- SEC_STAT, R474 -/,
  ⟨0x181000, [(4096, 0x4)], .none, 0x0, [⟨0, 32, .rw, 0⟩]⟩ /- SEC_MBOX, R474 -/]
/-- Rows of block FWU, part 0. -/
def rowsFWU0 : List RegRow := [
  ⟨0x190000, [], .none, 0x0, [⟨0, 4, .rw, 0⟩, ⟨4, 1, .rw, 0⟩, ⟨5, 1, .rw, 0⟩, ⟨31, 1, .w1s, 0⟩]⟩ /- FWU_CMD, R494 -/,
  ⟨0x190004, [], .none, 0x0, [⟨0, 1, .ro, 0⟩, ⟨1, 3, .ro, 0⟩, ⟨8, 8, .ro, 0⟩]⟩ /- FWU_STAT, R494 -/,
  ⟨0x190008, [], .none, 0x0, [⟨8, 24, .rw, 0⟩]⟩ /- FWU_SRC_LO, R494 -/,
  ⟨0x19000C, [], .none, 0x0, [⟨0, 8, .rw, 0⟩]⟩ /- FWU_SRC_HI, R494 -/,
  ⟨0x190010, [], .none, 0x0, [⟨0, 25, .rw, 0⟩]⟩ /- FWU_LEN, R494 -/,
  ⟨0x190014, [], .none, 0x0, [⟨0, 25, .ro, 0⟩]⟩ /- FWU_PROG, R494 -/,
  ⟨0x190018, [], .none, 0x0, [⟨8, 24, .rw, 0⟩]⟩ /- FWU_STAGE_LO, R494 -/,
  ⟨0x19001C, [], .none, 0x0, [⟨0, 8, .rw, 0⟩]⟩ /- FWU_STAGE_HI, R494 -/,
  ⟨0x190020, [], .none, 0x0, [⟨0, 1, .ro, 0⟩, ⟨8, 3, .ro, 0⟩, ⟨12, 3, .ro, 0⟩, ⟨16, 8, .ro, 0⟩]⟩ /- FWU_DIR, R494 -/,
  ⟨0x190024, [], .none, 0x0, [⟨0, 16, .rw, 500⟩]⟩ /- FWU_ALIVE, R494 -/,
  ⟨0x190028, [], .none, 0x0, [⟨0, 8, .ro, 0⟩, ⟨8, 24, .ro, 0⟩]⟩ /- FWU_SWSTAT, R494 -/]
/-- Rows of block GPIO, part 0. -/
def rowsGPIO0 : List RegRow := [
  ⟨0x1A0000, [], .none, 0x0, [⟨0, 32, .ro, 0⟩]⟩ /- GPIO_IN, R509 -/,
  ⟨0x1A0004, [], .none, 0x0, [⟨0, 32, .rw, 0⟩]⟩ /- GPIO_OUT, R509 -/,
  ⟨0x1A0008, [], .none, 0x0, [⟨0, 32, .wo, 0⟩]⟩ /- GPIO_OUT_SET, R509 -/,
  ⟨0x1A000C, [], .none, 0x0, [⟨0, 32, .wo, 0⟩]⟩ /- GPIO_OUT_CLR, R509 -/,
  ⟨0x1A0010, [], .none, 0x0, [⟨0, 32, .rw, 0⟩]⟩ /- GPIO_OE, R509 -/,
  ⟨0x1A0014, [], .none, 0x0, [⟨0, 32, .rw, 4294967295⟩]⟩ /- GPIO_PULLEN, R509 -/,
  ⟨0x1A0018, [], .none, 0x0, [⟨0, 32, .rw, 0⟩]⟩ /- GPIO_PULLUP, R509 -/,
  ⟨0x1A001C, [], .none, 0x0, [⟨0, 32, .rw, 0⟩]⟩ /- GPIO_IRQ_EN, R509 -/,
  ⟨0x1A0020, [], .none, 0x0, [⟨0, 32, .rw, 0⟩]⟩ /- GPIO_IRQ_RISE, R509 -/,
  ⟨0x1A0024, [], .none, 0x0, [⟨0, 32, .rw, 0⟩]⟩ /- GPIO_IRQ_FALL, R509 -/,
  ⟨0x1A0028, [], .none, 0x0, [⟨0, 32, .w1c, 0⟩]⟩ /- GPIO_IRQ_STAT, R509 -/,
  ⟨0x1A002C, [], .none, 0x0, [⟨0, 8, .rw, 10⟩]⟩ /- GPIO_DEB, R509 -/,
  ⟨0x1A0030, [], .none, 0x0, [⟨0, 32, .rw, 0⟩]⟩ /- GPIO_DEBEN, R509 -/]

/-- R532. The rows of block n. -/
def rowsOfBlock : Nat → List RegRow
  | 0 => rowsGLB0
  | 1 => rowsSPV0
  | 2 => rowsHST0
  | 3 => rowsINT0
  | 4 => rowsMMU0
  | 5 => rowsDMA0
  | 6 => rowsSTW0
  | 7 => rowsENG0
  | 8 => rowsSYN0 ++ rowsSYN1
  | 9 => rowsPKR0
  | 10 => rowsBLT0
  | 11 => rowsCMP0 ++ rowsCMP1
  | 12 => rowsSCO0 ++ rowsSCO1
  | 13 => rowsWYL0
  | 14 => rowsPNL0
  | 15 => rowsBKL0
  | 16 => rowsCAM0 ++ rowsCAM1
  | 17 => rowsISP0
  | 18 => rowsETH0
  | 19 => rowsPTP0 ++ rowsPTP1
  | 20 => rowsMEM0
  | 21 => rowsHLT0 ++ rowsHLT1
  | 22 => rowsCAL0
  | 23 => rowsTHM0
  | 24 => rowsSEC0
  | 25 => rowsFWU0
  | 26 => rowsGPIO0
  | _ => []

/-- Does the offset `d` from the array's base name an element? Answers the outer index. -/
def matchDims : List (Nat × Nat) → Nat → Option Nat
  | [], d => if d = 0 then some 0 else none
  | (cnt, stride) :: rest, d =>
    let i := d / stride
    if i < cnt then (matchDims rest (d - i * stride)).map (fun _ => i) else none

/-- The row that the BAR0 offset `a` belongs to, with the outer index of the element. -/
def findRow (a : Nat) : List RegRow → Option (RegRow × Nat)
  | [] => none
  | r :: rest =>
    if r.base ≤ a then
      match matchDims r.dims (a - r.base) with
      | some i => some (r, i)
      | none => findRow a rest
    else findRow a rest

/-- The row of the BAR0 offset `a`, if a register stands there (R7). -/
def regRow (a : Nat) : Option (RegRow × Nat) := findRow a (rowsOfBlock (a / 0x10000))

/-- R327. The default hash masks. -/
def hashReset : Nat → Nat × Nat
  | 0 => (0x08200100, 0) | 1 => (0x10400200, 0) | 2 => (0x20800400, 0) | 3 => (0x41000800, 0)
  | 4 => (0x82001000, 0) | 5 => (0x04002000, 1) | 6 => (0x08004000, 2) | 7 => (0x00208000, 4)
  | 8 => (0x00410000, 0) | 9 => (0x00820000, 0) | 10 => (0x01040000, 0) | _ => (0, 0)

/-- R539. THM_NBR, the four neighbour channels of sensor `s`, byte 0 first. -/
def thmNeighbours (s : Nat) : List Nat :=
  if s < 32 then
    let h := s / 2
    let e := s % 2
    [2 * h + 1 - e, 2 * (h ^^^ 1) + e, 2 * (h ^^^ 4) + e, if h < 8 then 32 else 33]
  else match s with
    | 32 => [33, 34, 35, 37] | 33 => [32, 34, 36, 38] | 34 => [32, 33, 39, 0xFF] | 35 => [36, 32, 37, 0xFF]
    | 36 => [35, 33, 38, 0xFF] | 37 => [38, 35, 32, 0xFF] | 38 => [37, 36, 33, 0xFF] | 39 => [34, 0xFF, 0xFF, 0xFF]
    | _ => []

/-- The sum of the reset values of a row's fields at their places. -/
def fieldsReset : List FieldRow → Nat
  | [] => 0
  | f :: fs => f.reset * 2 ^ f.lsb + fieldsReset fs

/-- The reset value of the register at BAR0 offset `a`: the tables' reset column, and the resets that differ by
index (ENG_MAP R133, CMP_LFB R183, ISP_CCM R294, MEM_HASH R343, THM_NBR R539). An offset with no register reads 0 (R7). -/
def regReset (a : Nat) : Nat :=
  if 0x70200 ≤ a ∧ a < 0x70600 then (a / 4) % 16
  else if 0xB2000 ≤ a ∧ a < 0xBA000 ∧ a % 0x200 = 0x1C then 0x40000000
  else if 0x111000 ≤ a ∧ a < 0x112000 ∧ (a % 0x80 = 0x10 ∨ a % 0x80 = 0x18 ∨ a % 0x80 = 0x20) then 0x1000
  else if 0x140100 ≤ a ∧ a < 0x140158 then
    let m := hashReset ((a - 0x140100) / 8)
    if a % 8 = 0 then m.1 else m.2
  else if 0x171200 ≤ a ∧ a < 0x1712A0 then
    (thmNeighbours ((a - 0x171200) / 4)).foldr (fun b acc => b + 256 * acc) 0
  else match regRow a with
    | some (r, _) => fieldsReset r.fields
    | none => 0

end Sys2Proof.Machine
end

