-- ==== Sys2Proof/Machine/Units.lean ====
section
/-! DEFINITION. The parts of the machine's state that are not registers, unit by unit, as plain data. A register's
contents, with the snapshot and committed copies, stand in the register maps of State. -/
namespace Sys2Proof.Machine

/-! ### Family member (R2) -/

/-- R2. The members of the family. -/
inductive Member where | fl0400 | fl1600 | fl6400
  deriving DecidableEq, Repr

/-! ### Host interface and interrupts (17) -/

/-- One MSI-X table entry: message address, message data, and the mask bit, set at reset (R407). -/
structure MsixEntry where
  addr : Nat
  data : Nat
  masked : Bool
  deriving DecidableEq, Repr

/-- R406. The interrupt side of the endpoint: the pending-bit array, the MSI-X table by vector, and the function's mask. -/
structure IntSt where
  pba : BitVec 64
  msix : List (Nat × MsixEntry)
  fmask : Bool
  deriving DecidableEq, Repr

/-- A completion that waits for room in its ring (R403): tag, status, op, irq flag and the 24 result bytes. -/
structure Completion where
  tag : Nat
  status : Nat
  op : Nat
  irq : Bool
  result : List Byte
  deriving DecidableEq, Repr

/-- One command of a work ring that has been taken and not yet written back: done or still running. -/
structure TakenCmd where
  /-- The stream slot the command names, for the commands that name one. -/
  slot : Nat
  /-- None while the command runs. -/
  done : Option Completion
  tag : Nat
  op : Nat
  irq : Bool
  /-- RSF SEQ of a FRAME command, and its OLDEST_REF (R49). -/
  seq : Nat
  oldest : Nat
  deriving DecidableEq, Repr

/-- A work ring's own state: the entries taken up to `taken`, the host's TAIL, the next completion number, and the
commands taken and not yet completed in the ring, oldest first. -/
structure WorkRing where
  tail : Nat
  taken : Nat
  cqn : Nat
  cmds : List TakenCmd
  deriving DecidableEq, Repr

/-- Host-interface state beyond registers. -/
structure HostSt where
  rings : List (Nat × WorkRing)
  /-- log2 of the BAR2 size, 28 to 37 (R21). -/
  bar2Log : Nat
  /-- PERST_N asserted. -/
  perst : Bool
  /-- R395. The function is in D3hot. -/
  d3 : Bool
  /-- R108. The host's root port completes AtomicOp requests. -/
  atomics : Bool
  /-- R397. The requests to the host window that have failed outside and been recorded, by offset, with their KIND; the requesting client has yet to
  be answered. -/
  failed : List (Nat × Nat)
  deriving DecidableEq, Repr

/-! ### Error log (R421–R425) -/

/-- An entry of the error log whose 1 ms window is open. -/
structure LogWindow where
  source : Nat
  code : Nat
  seq : Nat
  firstTick : Nat
  deriving DecidableEq, Repr

/-- One entry of the error log: the eight words of R421. -/
structure LogEntry where
  ptp : Nat
  source : Nat
  code : Nat
  sev : Nat
  lastUs : Nat
  count : Nat
  seq : Nat
  detail : Nat
  deriving DecidableEq, Repr

/-! ### MMU (15) -/

/-- R354. The kinds of access. -/
inductive Acc where | read | write | fetch | atomic
  deriving DecidableEq, Repr

/-- A cached translation: context, page base, log2 of the page size, physical base, and the leaf's W, X and PIN. -/
structure TlbEntry where
  ctx : Nat
  va : Nat
  log2 : Nat
  pa : Nat
  w : Bool
  x : Bool
  pin : Bool
  deriving DecidableEq, Repr

/-- A page walk in flight (R349, R353): who asked, for what, and whether an invalidation has covered it. -/
structure Walk where
  client : Nat
  ctx : Nat
  va : Nat
  acc : Acc
  retry : Bool
  deriving DecidableEq, Repr

/-- A queued invalidation request (R352). -/
structure InvReq where
  seq : Nat
  scope : Nat
  ctx : Nat
  addr : Nat
  pages : Nat
  deriving DecidableEq, Repr

/-- The most recent fault record written (R356). -/
structure LastFault where
  head : Nat
  client : Nat
  id : Nat
  ctx : Nat
  cause : Nat
  page : Nat
  firstTick : Nat
  count : Nat
  deriving DecidableEq, Repr

/-- R351. An entry of the walk cache: the table entry of a context at level `level` (3 to 1) for the addresses whose upper bits are `key`, and
the next table that it gives. -/
structure WalkEntry where
  ctx : Nat
  level : Nat
  key : Nat
  table : Nat
  deriving DecidableEq, Repr

/-- MMU state beyond registers. -/
structure MmuSt where
  tlb : List TlbEntry
  /-- R351. The walk cache of 512 table entries. -/
  wcache : List WalkEntry
  walks : List Walk
  /-- Save maps by launch handle × 16 + hamlet (R366). -/
  saveMap : List (Nat × List TlbEntry)
  /-- Invalidation queues by port (R352). -/
  invq : List (Nat × List InvReq)
  last : Option LastFault
  deriving DecidableEq, Repr

/-- R361. A DMA descriptor as taken, with its index in the ring. -/
structure DmaDesc where
  fill : Bool
  db : Bool
  tag : Nat
  src : Nat
  dst : Nat
  rowBytes : Nat
  rows : Nat
  spitch : Nat
  dpitch : Nat
  done : Nat
  bad : Bool
  deriving DecidableEq, Repr

/-- R360–R364. A DMA ring's descriptor in progress, and the STATUS it stops with once it has. -/
structure DmaRing where
  cur : Option DmaDesc
  rows : Nat
  bytes : Nat
  stop : Option Nat
  /-- The CAUSE of a failure. -/
  cause : Nat
  deriving DecidableEq, Repr

/-- DMA state beyond registers: rings by engine × 4 + ring, and by engine the bytes moved short of a MiB. -/
structure DmaSt where
  rings : List (Nat × DmaRing)
  moved : List (Nat × Nat)
  deriving DecidableEq, Repr

/-! ### Time (16) -/

/-- The PTP clock: the time in units of 2^-32 ns, and the servo's state (R379–R390). -/
structure PtpSt where
  time : Nat
  /-- Applied rate and its target, 1/256 ppb. -/
  rate : Int
  target : Int
  /-- The integrator of R383. -/
  integ : Int
  /-- Slew accumulator: the fraction of a rate step not yet made. -/
  slewAcc : Nat
  /-- Tick of the last accepted offset, 0 before the first. -/
  lastAccept : Nat
  /-- A step that waits to be applied: absolute, and the value in ns. -/
  step : Option (Bool × Int)
  /-- Tick of the last accepted PPS_IN edge. -/
  ppsIn : Option Nat
  /-- PPS_OUT level, and the tick of the start of its last pulse. -/
  ppsOut : Bool
  ppsLast : Option Nat
  deriving DecidableEq, Repr

/-- R376. A frame sent, or a descriptor refused: ring, descriptor index, STATUS and FLAGS to write back, and the transmit time in units of
1/65,536 ns with its epoch. -/
structure EthTx where
  q : Nat
  idx : Nat
  status : Nat
  flags : Nat
  ts : Nat
  epoch : Nat
  deriving DecidableEq, Repr

/-- Ethernet state beyond registers: descriptors that wait to be written back, by port, oldest first. -/
structure EthSt where
  fly : List (Nat × List EthTx)
  deriving DecidableEq, Repr

/-! ### Aqken (04, 05) -/

/-- R125. A thread's STATE: 0 idle, 1 runnable, 2 suspended, 3 ended. -/
inductive TState where | idle | runnable | suspended | ended
  deriving DecidableEq, Repr

/-- What a thread waits for. -/
inductive Wait where
  | none
  | barE
  | barH (n count : Nat)
  /-- A format X instruction waits for Caddy lines (R70). -/
  | caddy
  /-- WAITEV waits for an event. -/
  | event
  deriving DecidableEq, Repr

/-- R69. What a Caddy line holds: a strip of a texture tile, of a depth tile, or of a camera image. -/
inductive LineTag where
  | tex (slot seq index strip : Nat)
  | dep (slot seq index strip : Nat)
  | cam (sensor set row col : Nat)
  deriving DecidableEq, Repr

/-- R69. A valid Caddy line; `used` orders the lines by their last use. -/
structure CLine where
  tag : LineTag
  data : List Byte
  used : Nat
  deriving DecidableEq, Repr

/-- R70, R72. An outstanding fill: the line, where its content comes from (the resolved entry of a tile with the tile's size, or a
camera image), and whether a hint asked for it. -/
structure CFill where
  tag : LineTag
  ctx : Nat
  /-- Address of the resolved entry; for a camera line, of the first byte of the strip. -/
  src : Nat
  /-- Tile width and height in texels; for a camera line, bytes of a strip row and rows in the strip. -/
  width : Nat
  height : Nat
  /-- Row pitch of a camera image. -/
  pitch : Nat
  hint : Bool
  deriving DecidableEq, Repr

/-- R69–R72. One hamlet's Caddy slice. -/
structure CaddySt where
  lines : List CLine
  fills : List CFill
  /-- Payloads (slot, SEQ, INDEX) whose slice or chunk index is held. -/
  indexed : List (Nat × Nat × Nat)
  stamp : Nat
  /-- R70. The threads that wait for lines, the oldest request first. -/
  waiters : List Nat
  deriving DecidableEq, Repr

/-- R63. One ray of a batch as the ray issue unit keeps it: lane, tile, line, column and target address. -/
structure DealtRay where
  lane : Nat
  tile : Nat
  line : Nat
  col : Nat
  addr : Nat
  deriving DecidableEq, Repr

/-- R141. The captured result of an issued global load or atomic that has not returned: the register lanes to write. -/
structure PendLoad where
  vecs : List (Nat × Word)
  scas : List (Nat × BitVec 64)
  /-- It is the old value of an atomic, which is complete when it returns (R108). -/
  atomic : Bool
  deriving DecidableEq, Repr

/-- R98, R125. The state of one Aqken thread. `v` is keyed by register × 64 + lane. -/
structure ThreadSt where
  v : List (Nat × Word)
  s : List (Nat × BitVec 64)
  p : List (Nat × BitVec 64)
  pc : BitVec 48
  state : TState
  cause : Nat
  faddr : BitVec 64
  fmask : BitVec 64
  /-- The unretired RISSUE batch. -/
  batch : List DealtRay
  band : Word
  wait : Wait
  pend : List PendLoad
  /-- R70. The lines that the waiting SWEEP or SAMPLE has obtained, and those it waits for. No bytes stand for a line that could
  not be had. -/
  got : List (LineTag × List Byte)
  want : List LineTag
  /-- The launch the thread belongs to. -/
  launch : Nat
  deriving DecidableEq, Repr

/-- R165. The four words of an event. -/
structure Ev where
  w0 : BitVec 64
  w1 : BitVec 64
  w2 : BitVec 64
  w3 : BitVec 64
  deriving DecidableEq, Repr

/-- R131. A steward core's event queue, and the events that sources keep pending while it is full. -/
structure StwSt where
  evq : List Ev
  held : List Ev
  deriving DecidableEq, Repr

/-- R113. A launch descriptor. -/
structure LaunchDesc where
  code : Nat
  codeSize : Nat
  ctx : Nat
  hmask : Nat
  const : Nat
  constSize : Nat
  threads : Nat
  prio : Nat
  rays : Bool
  full : Bool
  save : Nat
  done : Nat
  frame : Nat
  work : Nat
  args : List Nat
  deriving DecidableEq, Repr

/-- R115, R121. Where a launch stands. -/
inductive LPhase where | queued | running
  deriving DecidableEq, Repr

/-- A launch that has not completed. -/
structure LaunchSt where
  desc : LaunchDesc
  core : Nat
  phase : LPhase
  /-- Queue order across all stewards. -/
  order : Nat
  startPtp : Nat
  /-- Tick of the last start or restore of the launch, and the ticks run before it. -/
  runFrom : Nat
  runTicks : Nat
  /-- CORE cycles of the lowest hamlet at that tick, and the cycles run before it (R89). -/
  clkFrom : Nat
  clkRun : Nat
  preempts : Nat
  killed : Nat
  killedRays : Nat
  /-- Hamlets of the launch that are saved now. -/
  savedMask : Nat
  /-- R366: the save area was refused. -/
  noSave : Bool
  /-- ABORT or CONTEXT_LOST: the status that completion will carry. -/
  abortStatus : Nat
  /-- The save area's SEQ (R125). -/
  saveSeq : Nat
  /-- The synthesis work of a RAYS launch. -/
  work : Option Nat
  /-- R80. The launch samples in projective-camera mode. -/
  projective : Bool
  deriving DecidableEq, Repr

/-- R121, R123. What a hamlet is doing with contexts. -/
inductive HPhase where
  | normal
  | saving (forLaunch : Option Nat)
  | restoring (handle : Nat)
  deriving DecidableEq, Repr

/-- R126, R439. An engine substitution in progress: the logical engine, the spare that takes it, and whether it is a rotation. -/
structure Subst where
  logical : Nat
  spare : Nat
  rotate : Bool
  deriving DecidableEq, Repr

/-- A hamlet: its holder, its phase, barriers, spare engine state. -/
structure HamletSt where
  holder : Option Nat
  phase : HPhase
  /-- R112. Threads arrived at barrier n. -/
  barH : List (Nat × Nat)
  /-- CORE cycles counted, in units of 1/20,625 of a cycle. -/
  clkAcc : Nat
  spareOk : Bool
  /-- Physical engines retired, one bit each. -/
  retired : Nat
  bistFails : Nat
  passes : Nat
  subst : Option Subst
  /-- Physical engine under targeted self-test after a substitution, and SEQ of the entry that triggered the test. -/
  testing : Option Nat
  testSeq : Nat
  /-- A substitution that waits for a save to end (R124). -/
  substWait : List Nat
  deriving DecidableEq, Repr

/-- R63. Where a hamlet's ray issue unit stands in its span: the work, the index of the next ray, and the last failing request of
each plane (R66). -/
structure SpanSt where
  work : Nat
  pos : Nat
  failCls : Option Nat
  failRes : Option Nat
  deriving DecidableEq, Repr

/-- R123. A saved hamlet: the launch and all that the hamlet and engine records hold. -/
structure SavedHamlet where
  handle : Nat
  hamlet : Nat
  threads : List (Nat × ThreadSt)
  stores : List (Nat × Byte)
  barH : List (Nat × Nat)
  /-- R365. Ring 2: its register words from RBASE_LO on, and its descriptor. -/
  ring2 : List Nat
  dma2 : DmaRing
  /-- R119. RESUME (true) and KILL (false) answers that wait for the restore, by TID. -/
  acts : List (Nat × Bool)
  /-- R92, R123. The position of the ray issue unit. -/
  span : Option SpanSt
  deriving DecidableEq, Repr

/-- Aqken state beyond threads. -/
structure AqkenSt where
  threads : List (Nat × ThreadSt)
  stw : List (Nat × StwSt)
  launches : List (Nat × LaunchSt)
  hamlets : List (Nat × HamletSt)
  saved : List SavedHamlet
  nextHandle : Nat
  nextOrder : Nat
  /-- Engine local stores: engine × 2^18 + address. -/
  lstore : List (Nat × Byte)
  /-- Hamlet constant buffers: hamlet × 65,536 + offset. -/
  constBuf : List (Nat × Byte)
  /-- The 2 MiB steward SRAM and the Watch's 256 KiB. -/
  sram : List (Nat × Byte)
  wsram : List (Nat × Byte)
  deriving DecidableEq, Repr

/-! ### Synthesis (02, 03) -/

/-- R35, R48. What the frame program keeps of a plane of the last accepted frame. -/
structure PlaneRec where
  id : Nat
  kind : Nat
  width : Nat
  height : Nat
  levels : Nat
  dshift : Nat
  texIndex : Nat
  depthIndex : Nat
  deriving DecidableEq, Repr

/-- R33, R48. The last accepted frame of a stream; `rdir` is where its resolved directory lies. -/
structure LastFrame where
  seq : Nat
  pts : Nat
  rdir : Nat
  planes : List PlaneRec
  deriving DecidableEq, Repr

/-- R28, R190. An open stream: what its header and OPEN_STREAM gave. -/
structure StreamSt where
  id : Nat
  ctx : Nat
  crc : Bool
  tbNum : Nat
  tbDen : Nat
  maxPlanes : Nat
  maxLevels : Nat
  maxDim : Nat
  anchorPtp : Nat
  anchorPts : Nat
  last : Option LastFrame
  deriving DecidableEq, Repr

/-- R58. A tile's ray-map header, the binary32 fields as their words. -/
structure RayHdr where
  model : Nat
  nores : Bool
  classes : Nat
  width : Nat
  height : Nat
  ox : Nat
  oy : Nat
  px : Nat
  py : Nat
  gap : Nat
  c0x : Nat
  c0y : Nat
  a1x : Nat
  a1y : Nat
  a2x : Nat
  a2y : Nat
  resBase : Nat
  resPitch : Nat
  clsPitch : Nat
  clsBase : Nat
  deriving DecidableEq, Repr

/-- R62. A bound ray map: its context and the headers of the tiles present. -/
structure RayMap where
  ctx : Nat
  tiles : List (Nat × RayHdr)
  deriving DecidableEq, Repr

/-- R89. A measured frame: cost in ns, mean engine clock in MHz, and level. -/
structure CostRec where
  cost : Nat
  clk : Nat
  level : Nat
  deriving DecidableEq, Repr

/-- R84, R87. What a panel frame is bound to at its first dealing, for every band of it. -/
structure FrameBind where
  /-- The number of the frame's first band in band mode. -/
  top : Option Nat
  /-- The density level, its CAUSE byte and its estimate (R91). -/
  level : Nat
  cause : Nat
  est : Option Nat
  /-- The camera set, and the entries of the camera table bound with it: index and bytes (R80). -/
  set : Option Nat
  cams : List (Nat × List Byte)
  deriving DecidableEq, Repr

/-- One work item of the frame program: a frame-mode frame, or a band. -/
structure SynWork where
  /-- The band number in band mode (R83). -/
  band : Option Nat
  /-- Ring and tag of the FRAME command, stream slot, SEQ and PTS of a frame. -/
  ring : Nat
  tag : Nat
  slot : Nat
  seq : Nat
  pts : Nat
  /-- R34. -/
  isStatic : Bool
  /-- What its frame is bound to, from its first start. -/
  bound : FrameBind
  /-- Hamlets whose launch has started, and hamlets whose span is exhausted. -/
  started : Nat
  exhausted : Nat
  ctx : Nat
  targets : List TileTarget
  /-- Rays written by tile × 64 + band index in the frame. -/
  written : List (Nat × Nat)
  /-- Complete tile bands (R65). -/
  complete : List Nat
  /-- R11. The band came late: its synthesis is abandoned. -/
  abandoned : Bool
  /-- PTP time of the first start in ns. -/
  startNs : Nat
  /-- R62. It is the first frame taken after a binding: the ray map that it is synthesized under first. -/
  newMap : Option RayMap
  /-- R89. The largest cost of its launches so far, and whether its frame has been measured. -/
  cost : Option CostRec
  measured : Bool
  deriving DecidableEq, Repr

/-- The density level of a work item. -/
def SynWork.level (w : SynWork) : Nat := w.bound.level
/-- The CAUSE byte of a work item. -/
def SynWork.cause (w : SynWork) : Nat := w.bound.cause

/-- R246, R247. A writer's sum: the region of a tile that it covers. `y0` is the tile line of its first line. -/
structure ChkBuf where
  tile : Nat
  base : Nat
  pitch : Nat
  ctx : Nat
  y0 : Nat
  lines : Nat
  /-- The ring slot in band mode. -/
  slot : Option Nat
  work : Nat
  sum : Nat
  deriving DecidableEq, Repr

/-- R91. The density record of a panel frame, until it is written. -/
structure DensRec where
  /-- The synthesis that it shows: (true, first band) or (false, work item). -/
  key : Option (Bool × Nat)
  frame : Nat
  src : Nat
  startNs : Nat
  level : Nat
  cause : Nat
  est : Option Nat
  meas : Option CostRec
  lateBands : Nat
  late : Bool
  changed : Bool
  deriving DecidableEq, Repr

/-- R87–R91. The budget estimator, and the density records still to be written. -/
structure DensSt where
  /-- Measured frames since the history was last cleared, newest first, at most two. -/
  hist : List CostRec
  /-- Frames measured since the history was last cleared. -/
  measured : Nat
  /-- R90. The level of the frame that follows the first measured frame has been chosen. -/
  freed : Bool
  /-- The count u of qualifying frames. -/
  qual : Nat
  /-- R538. The largest n(s, b, d) for d = 0 … 3, and the largest sums over bands. -/
  bandMax : List Nat
  frameMax : List Nat
  /-- R89. The frame last dealt is late. -/
  late : Bool
  /-- R91. The level of the panel frame that started last, and the records due, oldest first. -/
  shownLevel : Nat
  recs : List DensRec
  deriving DecidableEq, Repr

/-- Synthesis state beyond registers. -/
structure SynSt where
  streams : List (Nat × StreamSt)
  rmap : Option RayMap
  /-- R62. A binding accepted and not yet taken by a frame. -/
  rmapNext : Option RayMap
  works : List (Nat × SynWork)
  nextWork : Nat
  spans : List (Nat × SpanSt)
  caddy : List (Nat × CaddySt)
  /-- R71. Invalidations that wait for fills: all lines, or those of a slot. -/
  invs : List (Option Nat)
  /-- R83. The next band number to launch; none while no band has been launched since band mode began. -/
  nextBand : Nat
  /-- R84. The camera set bound to the panel frame being synthesized, if any, and whether it is a repeat. -/
  camSet : Option Nat
  setRepeat : Bool
  /-- A set that has closed since CAM_CTL.ENABLE was last set and has not been bound. -/
  newSet : Option Nat
  /-- R84, R87. What the panel frame dealt last is bound to. -/
  bound : FrameBind
  sums : List ChkBuf
  dens : DensSt
  deriving DecidableEq, Repr

/-! ### DRAM controllers (14) -/

/-- R329–R333. An entry of a write queue: granule, byte mask, whether it came from an ISO client, whether it has begun to drain,
whether a hazard moved it to the front, and the places in the controller's order of arrival of its first and its newest write. -/
structure WqEntry where
  granule : Nat
  mask : Nat
  iso : Bool
  draining : Bool
  front : Bool
  born : Nat
  last : Nat
  deriving DecidableEq, Repr

/-- R328, R332. A queued read: physical address, bytes asked for, class (0 ISO, 1 LOW, 2 NORMAL, 3 BULK), tick of arrival, place in the
controller's order of arrival, the bytes that it is to return, whether it waits for entries of its granule, and whether its granule was
found bad after it arrived. -/
structure RdReq where
  pa : Nat
  mask : Nat
  cls : Nat
  tick : Nat
  seq : Nat
  data : List Byte
  waits : Bool
  bad : Bool
  deriving DecidableEq, Repr

/-- R330, R333, R336, R339. A request to a controller: what it asks for, and its class. -/
inductive DramReq where
  /-- The bytes `mask` of a granule are read; the request was made at `tick`. -/
  | read (g mask tick cls : Nat)
  /-- The bytes `mask` of a granule are written. -/
  | write (g mask : Nat) (bytes : List Byte) (cls : Nat)
  /-- A global atomic at an address. -/
  | atomic (pa aop : Nat) (wide : Bool) (value : BitVec 64) (cmp : Option (BitVec 64)) (ecc : Ecc)
  /-- A corrected word of a granule is written back. -/
  | fix (g word : Nat)
  deriving DecidableEq, Repr

/-- A DRAM controller. Banks are keyed by pseudo-channel × 64 + SID × 16 + group × 4 + bank, lanes by pseudo-channel × 64 + lane. -/
structure Ctrl where
  wq : List WqEntry
  rq : List RdReq
  /-- Reads issued whose data has not returned. -/
  fly : List RdReq
  drain : Bool
  rows : List (Nat × Nat)
  /-- R334. Refreshes due by bank. -/
  refr : List (Nat × Nat)
  /-- R338. Slots left of a retraining that is due. -/
  slots : Nat
  /-- R341. Ticks of the corrections of each lane. -/
  lanes : List (Nat × List Nat)
  /-- R332. Requests taken so far. -/
  seq : Nat
  /-- R338. The tick of the last retraining, and its stack's temperature then. -/
  trainedAt : Nat
  trainedTemp : Int
  deriving DecidableEq, Repr

/-- DRAM state beyond registers. -/
structure DramSt where
  ctrls : List (Nat × Ctrl)
  /-- The speed point asked for, while PENDING or CHANGING. -/
  target : Nat
  /-- R337. The granule that the scrubber reads next. -/
  scrub : Nat
  /-- R340. A retraining was abandoned by the change in progress. -/
  redo : Bool
  /-- R330, R333, R339. The requests held at the fabric, in their order of arrival. -/
  held : List DramReq
  /-- R339. The tick of the request for a change of speed. -/
  goAt : Nat
  /-- R340. Lane repairs that wait for a change of speed to end: controller, pseudo-channel and lane. -/
  repairs : List (Nat × Nat × Nat)
  /-- R335. The stacks whose reading was missing or invalid, until one below 102 °C. -/
  hot : List Nat
  deriving DecidableEq, Repr

/-! ### Scan-out (06, 07) -/

/-- R197. An armed commit: the line it was written in, the line of its commit point, and whether that lies in the next frame. -/
structure ArmedCommit where
  line : Nat
  point : Nat
  wait : Bool
  deriving DecidableEq, Repr

/-- R204–R207, R416. Where sequencer A stands: in control or ready, under its self-test, passed, or failed. -/
inductive SeqASt where | fit | testing | passed | failed
  deriving DecidableEq, Repr

/-- R414. What is known of sequencer B. -/
inductive SeqBSt where | untested | proven | inControl | failed
  deriving DecidableEq, Repr

/-- What the composition pipe and the detectors keep of a tile within a frame. -/
structure TileScan where
  /-- R202. The signature so far, before the final inversion. -/
  crc : Nat
  /-- R246. The reader's sum, the L0 lines read into it, and whether the region is left out of comparison (R247). -/
  sum : Nat
  lines : Nat
  skip : Bool
  /-- R178. Layers that faulted in this frame, class-plane and residual faults, write-back stopped, and a write-back line lost. -/
  faulted : Nat
  clsFault : Bool
  resFault : Bool
  wbStop : Bool
  wbBad : Bool
  /-- R11. The band being composed is late. -/
  late : Bool
  /-- The composed words of the next line, with the tags of R175. -/
  line : List Nat
  /-- R203. The run of equal signatures, and whether a signature has been latched. -/
  run : Nat
  seen : Bool
  deriving DecidableEq, Repr

/-- Scan-out state beyond registers. -/
structure ScoSt where
  /-- A frame has started since ENABLE was set; line counting within it; VBLANK has been taken in it. -/
  inFrame : Bool
  line : Nat
  blank : Bool
  /-- R200. The line at which the blanking in progress began. -/
  blankAt : Nat
  armed : Option ArmedCommit
  /-- R189. The line at which the next frame became ready. -/
  ready : Option Nat
  /-- R189. LEAD_L as it stood at the ready point. -/
  lead : Nat
  /-- R208. A commit has been accepted. -/
  accepted : Bool
  /-- R193. PIX clock of the last edge, the last intervals (newest first), edges counted toward GL_DIV, and a start due with its
  FRAME number where the PTP frame clock gives one. -/
  edgeAt : Option Nat
  ivals : List Nat
  div : Nat
  due : Option (Option Nat)
  /-- R196. PTP time has been stepped since the last edge. -/
  stepped : Bool
  /-- R195. The number of the PTP frame clock's edge that came last. -/
  lastN : Option Nat
  /-- The work shown, the work of the accepted commit, and the work of the armed one. -/
  shown : Option Nat
  next : Option Nat
  armedWork : Option Nat
  /-- R174. The density level of the L0 frame shown, and the ray map that it was synthesized under. -/
  level : Nat
  rmap : Option RayMap
  /-- The number of the band at the top of the current frame (R83), and whether the next frame is the first of band mode. -/
  bandBase : Nat
  bandFirst : Bool
  /-- R86. A change of mode waits until the old mode is drained. -/
  modeHeld : Bool
  /-- R176. The (tile, layer) whose data for lines 0 and 1 of the next frame missed its deadline. -/
  late0 : List (Nat × Nat)
  late1 : List (Nat × Nat)
  /-- R203. The sample of SCO_FINFO. -/
  genAdv : Bool
  isStatic : Bool
  /-- R179. Waiting values by tile × 8 + layer (16 words); layers passed over. -/
  waiting : List (Nat × List Nat)
  passed : List Nat
  /-- R190, R227. The lanes are in electrical idle. -/
  idle : Bool
  seqA : SeqASt
  seqB : SeqBSt
  provenAt : Nat
  /-- R206, R207. An in-step transfer of control waits for its FRAME_START, with the frames run in step. -/
  transfer : Option Nat
  /-- R223. The REASON of the HOLD being sent. -/
  hold : Option Nat
  tiles : List (Nat × TileScan)
  deriving DecidableEq, Repr

/-! ### Wydel ports (08) -/

/-- A port's state beyond registers. -/
structure PortSt where
  /-- R221. ALIGN columns since bring-up or wake. -/
  acount : Nat
  /-- R218. Column blocks that wait for a blanking line. -/
  queue : List Nat
  /-- R231. The shadow announced and not yet in force, rotations passed cleanly in a row, and an error in this one. -/
  nextShadow : Option Nat
  /-- R223, R227. Its LANE_MAP is still to be sent. -/
  mapDue : Bool
  clean : Nat
  dirty : Bool
  /-- R232. Errors by physical lane with their ticks; consecutive messages without lock. -/
  errs : List (Nat × List (Nat × Nat))
  unlock : List (Nat × Nat)
  /-- R228, R232. ACOUNT and ERR of each lane's last interval, and a mismatch (physical lane, ACOUNT) whose LANE_STAT has not come. -/
  ival : List (Nat × Nat × Nat)
  mism : Option (Nat × Nat)
  /-- R233. The failing logical lane of a substitution that waits for its blanking line or FRAME_START; the LANE_MAP is sent. -/
  failing : Option Nat
  sent : Bool
  /-- R439, R442. The substitution under way is an exchange of the Gleaner's, which a fault's goes before. -/
  exch : Bool
  /-- Physical lanes P0–P3 and MAPSEQ of the map to come. -/
  newMap : List Nat
  mapSeq : Nat
  /-- R234. Tick at which qualification began. -/
  qualAt : Option Nat
  /-- Tick at which TRAIN or FAILED was entered; the port retrains. -/
  trainAt : Nat
  retraining : Bool
  /-- R229. Tick at which back-channel lock was lost. -/
  bcLost : Option Nat
  /-- R216. Back-channel blocks with valid headers in a row, up to 64, and the last 64 headers, newest first: is each invalid? -/
  bcGood : Nat
  bcBad : List Bool
  /-- R236. Logical lanes that fail with no substitution possible; R416: SEQ of the entry that made a lane failing. -/
  lost : List Nat
  trig : Nat
  /-- R419. Tick of the last clean rotation. -/
  cleanAt : Option Nat
  /-- STATUS_REQ blocks sent and not answered: REQ × 256 + TAG. -/
  asked : List Nat
  /-- The port has sent a FRAME_START since it came up, so it carries framing (R236). -/
  framed : Bool
  /-- R236. A FAILED port is trying TRAIN again. -/
  retrying : Bool
  /-- R220, R221. The column of the next line that an ALIGN occupies, with the SHADOW in force before it. -/
  gap : Option (Nat × Nat)
  /-- R215. The last 58 line bits of each physical lane while lines are sent. -/
  history : List (Nat × BitVec 58)
  deriving DecidableEq, Repr

/-! ### Panel (09) -/

/-- R243. A region update in a tile's queue. -/
structure Region where
  rid : Nat
  y0 : Nat
  h : Nat
  x0g : Nat
  wg : Nat
  sending : Bool
  deriving DecidableEq, Repr

/-- R248. Where a hold write stands. -/
inductive HoldPhase where | record | begin | frame | scanning | acks | done | doneFail
  deriving DecidableEq, Repr

/-- R248–R250. A hold write: G, the tiles of this attempt, phase, answers (tile, success), attempts made, tiles that have succeeded
(tile, GEN, CRC), and the signatures of F by tile. -/
structure HoldWr where
  gen : Nat
  mask : Nat
  phase : HoldPhase
  acks : List (Nat × Bool)
  tries : Nat
  good : List (Nat × Nat × Nat)
  sigs : List (Nat × Nat)
  deriving DecidableEq, Repr

/-- Panel state beyond registers. -/
structure PnlSt where
  regions : List (Nat × List Region)
  nextRid : List (Nat × Nat)
  hold : Option HoldWr
  /-- The entries of the last HOLD_DONE record: tile, GEN and CRC. -/
  entries : List (Nat × Nat × Nat)
  /-- R239. The rail whose enable rises or falls next; a request for off that waits for a hold write. -/
  rail : Nat
  offWaits : Bool
  /-- R240. Rails stay down until ON is written 0. -/
  blocked : Bool
  /-- R251. Tiles whose start-up report is awaited; the report has been asked for. -/
  report : List Nat
  asked : Bool
  deriving DecidableEq, Repr

/-! ### Backlight (10) -/

/-- What a chain keeps of a driver: its last valid TEMP with its tick, the applied percentage of R262, the strings open or shorted in
the last valid record, and whether the last frame gave no valid record. -/
structure DriverSt where
  temp : Nat
  tempAt : Option Nat
  applied : Nat
  bad : Nat
  miss : Bool
  deriving DecidableEq, Repr

/-- A chain's state beyond registers. -/
structure ChainSt where
  drivers : List (Nat × DriverSt)
  /-- The transfer in progress or complete: the records, driver 0 first. -/
  sent : Option (List (List Byte))
  busy : Bool
  urgent : Bool
  discovering : Bool
  discoverDue : Bool
  found : Bool
  /-- R269. A transfer has completed since the last FRAME_START. -/
  done : Bool
  /-- R264, R265. Failed strings (driver × 16 + string), the chain failed, a lamp-out that the Watch has still to act on, and a failed
  chain that no discovery has found whole since. -/
  failed : List Nat
  chainFailed : Bool
  lampDue : Bool
  again : Bool
  deriving DecidableEq, Repr

/-- Backlight state beyond registers: the chains, the slot count of the frame, BKL_SCAN.OFS as taken at FRAME_START, and the line of a frame that the
engine makes on its own (R260). -/
structure BklSt where
  chains : List (Nat × ChainSt)
  slot : Nat
  ofs : Nat
  line : Nat
  deriving DecidableEq, Repr

/-! ### Calibration (19) -/

/-- R440, R441. An element under calibration: the value in force, its target, and rejections in a row. -/
structure CalElem where
  value : Int
  target : Int
  rejects : Nat
  deriving DecidableEq, Repr

/-- R439. A termination's 24 legs: those selected, those to be selected, and those left unselected for good. -/
structure TermSt where
  sel : Nat
  target : Nat
  bad : Nat
  deriving DecidableEq, Repr

/-- R443. A request that the Gleaner holds: its ID, task, block and instance, its bound in ms, whether it is answered IMMEDIATE, whether
it is forced, and the tick at which it was accepted. -/
structure CalReq where
  id : Nat
  task : Nat
  block : Nat
  inst : Nat
  bound : Nat
  now : Bool
  forced : Bool
  asked : Nat
  deriving DecidableEq, Repr

/-- Calibration state beyond registers: elements by task × 2^32 + element, requests in order, the tick of the last exchange by port,
terminations, the tick of the last self-test pass by hamlet × 32 + physical engine (R439), the tick of the last run of a task by
element, the tick of the last frame step (R437), and the lanes (8 × port + lane) whose skew was last found outside its range (R531). -/
structure CalSt where
  elems : List (Nat × CalElem)
  reqs : List CalReq
  exchanged : List (Nat × Nat)
  terms : List (Nat × TermSt)
  bist : List (Nat × Nat)
  ran : List (Nat × Nat)
  stepAt : Nat
  skewed : List Nat
  deriving DecidableEq, Repr

/-! ### Camera intake (11) -/

/-- R272–R278. A frame of a slot from its frame start to its completion: FCOUNT, SFN, PTP time of its start, its set, its buffer (none: it
is dropped whole), the registers sampled for it (CAM_SCFG, W, H, image base, pitch, statistics base, the 18 ISP words), its marks and
counts, token and TFLAGS, and its raw lines. -/
structure CamFrame where
  /-- What names the frame while it is in the pipe, since FCOUNT starts again as a slot is enabled. -/
  key : Nat
  fcount : Nat
  sfn : Nat
  fsPtp : Nat
  /-- The number of its set, and what names the set, since numbers start again with ENABLE. -/
  set : Option (Nat × Nat)
  buf : Option Nat
  cfg : Nat
  w : Nat
  h : Nat
  img : Nat
  pitch : Nat
  sta : Nat
  isp : List Nat
  mark : Nat
  dropped : Nat
  rcvd : Nat
  crcs : Nat
  eccs : Nat
  dpc : Nat
  token : Nat
  tflags : Nat
  /-- Lines received, and no frame end yet. -/
  isOpen : Bool
  /-- Normalised lines that the pipe has taken, in order. -/
  raws : List (List Nat)
  /-- Correction tables read at the frame start: the defect map, and the shading grid; none after a fault or while switched off. -/
  dmap : List (Nat × Nat)
  lsc : Option (List Nat)
  deriving DecidableEq, Repr

/-- R278. A line in a pipe's input buffer or under way in the pipe: slot, frame key, line number, priority, order of completion, pixels by its word count,
and normalised pixels. -/
structure PipeLine where
  size : Nat
  slot : Nat
  key : Nat
  line : Nat
  prio : Nat
  order : Nat
  px : List Nat
  deriving DecidableEq, Repr

/-- R289, R290. An exposure request: token, LAT, IMM, entries and the address of its list. -/
structure XReq where
  token : Nat
  lat : Nat
  imm : Bool
  nent : Nat
  list : Nat
  deriving DecidableEq, Repr

/-- What a slot keeps of its last complete frame (R287). -/
structure CamLast where
  buf : Nat
  token : Nat
  mark : Nat
  fcount : Nat
  tflags : Nat
  deriving DecidableEq, Repr

/-- A slot beyond registers: it has been enabled; its frames, the last one open or not; the buffer last chosen; its last complete frame;
queued requests; the CCI window (the FCOUNT whose completion opened it) and whether a request has been started in it; requests that have
taken effect or will (token, effective frame, SLIP); and whether its most recent request failed. -/
structure SlotSt where
  on : Bool
  frames : List CamFrame
  chosen : Option Nat
  last : Option CamLast
  queue : List XReq
  window : Option Nat
  /-- Order in which the windows opened. -/
  windowAt : Nat
  used : Bool
  toks : List (Nat × Nat × Bool)
  failed : Bool
  deriving DecidableEq, Repr

/-- R286. A member frame of a set: slot, frame key, its STATUS so far (LATE while it is not complete), and what its entry carries once it is
complete. -/
structure CamMember where
  slot : Nat
  key : Nat
  status : Nat
  info : Option CamLast
  deriving DecidableEq, Repr

/-- R285–R287. A camera set: number, key, PTP time and tick of the opening, mask, member frames, and whether it has closed. -/
structure CamSet where
  num : Nat
  key : Nat
  ptp : Nat
  tick : Nat
  mask : Nat
  members : List CamMember
  closed : Bool
  deriving DecidableEq, Repr

/-- R290. A request started in a window, or under way on a controller: slot, request, the frame k whose completion opened the window, the order of
its opening, and FCOUNT as the request was started. -/
structure CciJob where
  slot : Nat
  req : XReq
  frame : Nat
  order : Nat
  fcount : Nat
  deriving DecidableEq, Repr

/-- R289. What a CCI controller does for an entry: target address, the CCC code where it is one, bytes sent in order, and bytes read. -/
structure CciMsg where
  addr : Nat
  ccc : Option Nat
  bytes : List Byte
  reads : Nat
  deriving DecidableEq, Repr

/-- Camera state beyond registers: slots, the lines that wait for a pipe and the line each pipe is processing, a counter that orders lines and
windows and names frames and sets, the last set opened since ENABLE was set and the number of the next, the PIX clocks at which sets of SRC 1 open
with their numbers where an edge gives one, the PIX clock of the next opening while scan-out does not run, the requests that have started and
wait for their controller, and the request on the bus of each controller. -/
structure CamSt where
  slots : List (Nat × SlotSt)
  pipes : List (Nat × List PipeLine)
  busy : List (Nat × PipeLine)
  order : Nat
  set : Option CamSet
  nextSet : Nat
  setDue : List (Nat × Option Nat)
  freeAt : Nat
  started : List CciJob
  cci : List (Nat × CciJob)
  deriving DecidableEq, Repr

/-! ### Packer (12) -/

/-- R300–R304. A job of a ring: its descriptor, input and output done through the last whole chunk, the INDEX that the next chunk must carry
(none: any), the STATUS it has stopped with, and the chunk it stopped at. -/
structure PkrJob where
  op : Nat
  level : Nat
  resume : Bool
  irq : Bool
  ctx : Nat
  job : Nat
  src : Nat
  srcLen : Nat
  dst : Nat
  dstLen : Nat
  done : Nat
  inDone : Nat
  outDone : Nat
  expect : Option Nat
  stop : Option Nat
  chunk : Nat
  /-- The descriptor could be read, so its DONE stands. -/
  read : Bool
  deriving DecidableEq, Repr

/-- Packer state beyond registers: the job of each ring. -/
structure PkrSt where
  jobs : List (Nat × PkrJob)
  deriving DecidableEq, Repr

/-! ### Blitter (13) -/

/-- R310, R314. The record in progress: its ring index, its 32 bytes, elements done in its order, whether a WAIT waits with the frame and line
it began in, and whether it is done, has shown a hazard and has reported its watermark. -/
structure BltRec where
  index : Nat
  bytes : List Byte
  pos : Nat
  waiting : Option (Nat × Nat)
  fin : Bool
  hazard : Bool
  wmSeen : Bool
  deriving DecidableEq, Repr

/-- Blitter state beyond registers: the record in progress, and a halt by a failure (R319). -/
structure BltSt where
  cur : Option BltRec
  fault : Bool
  deriving DecidableEq, Repr

/-! ### Health (18) -/

/-- Health state beyond registers. -/
structure HltSt where
  /-- R416, R418. Targeted tests queued for units without a spare: SOURCE of the unit and SEQ of the entry that triggered each. -/
  tests : List (Nat × Nat)
  /-- R416. Ticks of the corrections within one second, by SOURCE. -/
  corr : List (Nat × List Nat)
  /-- R416. Margin checks queued for HBM lanes: controller × 128 + pseudo-channel × 64 + lane, and SEQ. -/
  laneTests : List (Nat × Nat)
  /-- R416. SEQ of the entry that triggered sequencer A's test. -/
  seqA : Nat
  /-- R428. high_run; the lowest slack of the period with its replica; the lowest slack of the last evaluation. -/
  highRun : Nat
  low : Option (Int × Nat)
  worst : Int
  /-- R429. Tick of the last immediate step. -/
  stepAt : Option Nat
  /-- R431. The setpoint of a step that was written and not read back; one that waits for a supply-dip episode to end; failed frames. -/
  target : Option Nat
  waits : Option Nat
  fails : Nat
  /-- R433. The day's highest SET_MV, worst D and worst slack. -/
  dayMv : Nat
  dayD : Nat
  daySlack : Int
  /-- R430. The ageing engine clock ceiling in effect since the last frame start, in MHz. -/
  ceil : Nat
  /-- R419. Hamlets with a lasting fault in a shared unit, and spares that failed their exercise (8 × controller + 4 × pseudo-channel + byte). -/
  shared : List Nat
  exercise : List Nat
  /-- R420, R428. Ticks of the last report and of the last evaluation. -/
  repAt : Nat
  planAt : Nat
  deriving DecidableEq, Repr

/-- A record that a unit asks the Watch to enter in the Ledger (R469, R470): class, FLAGS and the values that its DATA carries. -/
structure LedgerReq where
  cls : Nat
  flags : Nat
  data : List Nat
  deriving DecidableEq, Repr

/-! ### Thermal control (19) -/

/-- R449. What a round keeps of a die sensor for the stuck test: its raw code, the rounds in a row it has stayed, and the sum of its
neighbours' readings in the first of them; the rounds in a row it has read validly. -/
structure SensorSt where
  code : Nat
  rounds : Nat
  first : Int
  valid : Nat
  deriving DecidableEq, Repr

/-- R445–R449. The housekeeping round, which runs on while the main domain is in reset: the next channel; the last reading of each
channel (1/8 °C, °C or mV; none where it was not read) and its raw code; the sensors' histories; the broken sensors; the rails out of
range, with the rounds in a row; whether the highest reading stood above 125 °C (R519); and whether a round has been read whole that is
not yet judged. -/
structure ThmSt where
  chan : Nat
  vals : List (Nat × Int)
  codes : List (Nat × Nat)
  hist : List (Nat × SensorSt)
  broken : List Nat
  oor : List (Nat × Nat)
  hot : Bool
  full : Bool
  deriving DecidableEq, Repr

/-! ### The Watch (20–22) -/

/-- R458. A supply-dip episode: the tick of its start, its lowest reading in mV, and the tick at which a qualification period began. -/
structure DipSt where
  start : Nat
  low : Nat
  qual : Option Nat
  deriving DecidableEq, Repr

/-- R473. A request that the Watch serves: OP and the mailbox bytes copied; and a reply: OP, STATUS and bytes. -/
structure SecReq where
  op : Nat
  body : List Byte
  deriving DecidableEq, Repr

/-- R473. A reply that waits to be shown. -/
structure SecReply where
  op : Nat
  status : Nat
  body : List Byte
  deriving DecidableEq, Repr

/-- R450. A shutdown that the Watch is about to take: CAUSE (1 DIGITAL, 2 COMPARATOR, 3 BLIND), channel and reading. -/
structure ShutDue where
  cause : Nat
  sensor : Nat
  value : Int
  deriving DecidableEq, Repr

/-- The Watch beyond its registers. -/
structure WatchSt where
  /-- R476, R512. The Watch itself is held in reset. -/
  down : Bool
  /-- R476, R477. The main domain is held in reset: the CAUSE that its release will show; the tick at which the hold began. -/
  held : Option Nat
  heldAt : Nat
  /-- R493. Tick of the last release. -/
  releasedAt : Nat
  /-- R486. No Watch firmware passed: the Watch runs its ROM functions only. R466: the hash of the Watch firmware that runs. -/
  romOnly : Bool
  hash : List Byte
  /-- R477. VDD_CORE has read above 0.710 V for 10 ms; PORST_N and WRST_N are asserted. -/
  coreOk : Bool
  /-- R458. Tick at which VDD_CORE last stood at a brown-out. -/
  lowAt : Nat
  porst : Bool
  wrst : Bool
  /-- R514. References lost: 0 CORE, 1 PANEL, 2 ETH, 3 PCIE, 4 the SP crystal; the tick at which CORE_REFCLK returned. -/
  lost : List Nat
  coreBack : Nat
  /-- R469. SP time in ms at tick `spTick`. -/
  spMs : Nat
  spTick : Nat
  /-- R458. -/
  dip : Option DipSt
  /-- R450–R452. THERM_TRIP_N is asserted; the shutdown to be taken; SP times in ms of the shutdowns in the window; the tick since which
  every valid die sensor has read low enough; comparators that have tripped and are not re-armed. -/
  trip : Bool
  shutDue : Option ShutDue
  shuts : List Nat
  coolAt : Option Nat
  tripped : List Nat
  /-- R468, R470. SP time in ms of the last gain of CREDIT, and of the last powered hour. -/
  gainAt : Nat
  hourAt : Nat
  /-- R473. -/
  req : Option SecReq
  reply : Option SecReply
  /-- R471. The Ledger's next slot; records that may still be taken in at once, and the SP second of the last gain; records counted into
  the next SKIPPED record, and the SP second of the last one. -/
  slot : Nat
  tokens : Nat
  tokenAt : Nat
  skipped : Nat
  skipAt : Nat
  /-- R239, R465. The rail fields of the configuration in force for the sequence: RAIL_FIT, D_n and G_n in ms. -/
  rails : Nat
  delays : List Nat
  limits : List Nat
  deriving DecidableEq, Repr

/-- R469. A record of the Ledger. -/
structure LedgerRec where
  cls : Nat
  flags : Nat
  seq : Nat
  sp : Nat
  ptp : Nat
  data : List Nat
  deriving DecidableEq, Repr

/-- R467, R469, R482. The package flash: its bytes by offset outside the Ledger region (an unlisted byte is erased, 0xFF), the Ledger's
records by slot, the leaves programmed, sector erases and brown-outs counted. -/
structure FlashSt where
  bytes : List (Nat × Byte)
  ledger : List (Nat × LedgerRec)
  leaves : List Nat
  erases : Nat
  brownouts : Nat
  deriving DecidableEq, Repr

/-- R461, R462, R467. OTP: the integrator key hash (none: unprogrammed), the minimum SVN of KINDs 1–3, and block counter bits burned. -/
structure OtpSt where
  ikh : Option (List Byte)
  svn : List Nat
  blocks : Nat
  deriving DecidableEq, Repr

/-! ### Firmware (21) -/

/-- R483, R489. Steward firmware that runs: its slot, SVN, whether it carries SVN_COMMIT, its PHASH, and its payload's HBM copy. -/
structure Firmware where
  slot : Nat
  svn : Nat
  commit : Bool
  hash : List Byte
  payload : List Byte
  deriving DecidableEq, Repr

/-- R484. The slot directory: SEQ, ACTIVE, STATE_A and STATE_B (0 EMPTY, 1 WRITING, 2 STAGED, 3 TRIAL, 4 GOOD, 5 BAD), TRIES, SVN_A and
SVN_B. -/
structure Dir where
  seq : Nat
  active : Nat
  stA : Nat
  stB : Nat
  tries : Nat
  svnA : Nat
  svnB : Nat
  deriving DecidableEq, Repr

/-- R489. An operation in progress: its OP, slot, and the slot image of PROGRAM. -/
structure FwuOp where
  op : Nat
  slot : Nat
  image : List Byte
  deriving DecidableEq, Repr

/-- R490, R491. A live switch: its slot, the tick of the halt, and the old firmware. -/
structure FwuSwitch where
  slot : Nat
  haltAt : Option Nat
  old : Option Firmware
  deriving DecidableEq, Repr

/-- Firmware update beyond registers: the firmware that runs, the operation, the prepared slot with its staging address, the switch, and
whether repeated frames are being counted (R490). -/
structure FwuSt where
  run : Option Firmware
  op : Option FwuOp
  prepared : Option (Nat × Nat)
  switch : Option FwuSwitch
  counting : Bool
  deriving DecidableEq, Repr

/-! ### Package pins (22) -/

/-- R507, R508. The test access port: its controller's state by IEEE 1149.1 (numbered as `tapNext` does), the instruction (0 BYPASS, 1
IDCODE, 2 SAMPLE/PRELOAD, 3 EXTEST), the two shift registers and the boundary latches; and the levels at the GPIO pins. -/
structure PinSt where
  tap : Nat
  ir : Nat
  irShift : Nat
  drShift : Nat
  latch : Nat
  gpio : Nat
  deriving DecidableEq, Repr

/-! ### What leaves the device -/

/-- What the device drives out: messages, replies, pins and link traffic, newest first in State.out. -/
inductive Out where
  /-- An MSI-X message (R406): vector, address and data. -/
  | msix (vector addr data : Nat)
  /-- The data that answers a register or BAR2 read. -/
  | readData (bytes : List Byte)
  /-- R396. A request that completes as Unsupported Request, or as Completer Abort. -/
  | unsupported
  | completerAbort
  /-- Data, an address error, or an acknowledgement that a DRAM controller returns to the fabric. -/
  | dramData (pa : Nat) (bytes : List Byte)
  | dramError (pa : Nat)
  | dramAck (pa : Nat)
  /-- A control block that a Wydel port sends as a column, by its unscrambled payload (R217, R218). -/
  | column (port payload : Nat)
  /-- The columns of a line: in each, the blocks of the lanes (physical lane, is it a control block, unscrambled payload); the column that an ALIGN
  occupies is empty, since the ALIGN is listed on its own (R213, R219–R221). -/
  | stream (port : Nat) (columns : List (List (Nat × Bool × Nat)))
  /-- The drivers of physical lanes of a port enter or leave electrical idle (R226, R227, R234). -/
  | lanes (port : Nat) (lanes : List Nat) (on : Bool)
  /-- A latch pulse of a backlight chain (R257): 0 SLOT, 1 SYNC, 2 LATCH, 3 SYNC_LATCH, 4 BLANK; and the bytes shifted into a chain. -/
  | latch (chain pulse : Nat)
  | shift (chain : Nat) (bytes : List Byte)
  /-- R373. A frame that an Ethernet port sends, with its FCS. -/
  | eth (port : Nat) (bytes : List Byte)
  /-- R288, R289. What a CCI controller sends for a list: in I3C SDR or I2C, at the DIV in force. -/
  | cci (ctrl : Nat) (i3c : Bool) (div : Nat) (msgs : List CciMsg)
  /-- R431. A voltage write on the AVSBus, in mV. -/
  | avs (mv : Nat)
  /-- R507. TDO. -/
  | tdo (bit : Bool)
  deriving DecidableEq, Repr

end Sys2Proof.Machine
end

