-- ==== Sys2Proof/Machine/State.lean ====
section
/-! DEFINITION. The state of the block as plain data, its state after reset, and the reasons a step can stop. -/
namespace Sys2Proof.Machine

/-- The reasons a step ends in a fault. Every command of this block ends in a next state, so no meaning raises a fault
(R6, R7, R396 answer bad accesses with recorded errors); safe, because nothing stops where the hardware goes on. -/
inductive Fault where
  /-- Raised by no meaning. -/
  | none
  deriving DecidableEq, Repr

/-- The reasons a step is refused. -/
inductive Refusal where
  /-- The command with this mnemonic has no meaning yet; raised by the dispatcher's arms only. Safe: nothing is claimed of it. -/
  | notModelled (mnemonic : String)
  deriving DecidableEq, Repr


/-- The state of the device: its registers, its memories, the units' own state, the queue of commands that wait (first in,
first out), and the model's own counters. -/
structure State where
  /-- R2. Which member of the family the device is; fixed at manufacture. -/
  member : Member
  /-- The commands that wait, first in, first out. -/
  pending : List Instr
  /-- Every register by BAR0 offset; for SH fields this is the shadow copy, which reads return (R5). An unlisted offset holds its reset value. -/
  regs : List (Nat × Word)
  /-- R5, R198. The copies of SH fields that are in effect, by BAR0 offset. An unlisted offset holds its reset value. -/
  act : List (Nat × Word)
  /-- R8, R17. The latched snapshot copies, by BAR0 offset. An unlisted offset holds its reset value. -/
  snap : List (Nat × Word)
  /-- R19. The HBM by device physical address, as every later read sees it (R106). An unlisted byte reads 0. -/
  mem : List Host.Cell
  /-- R337. Poisoned 32-byte granules, by PA / 32. -/
  poison : List Nat
  /-- Host memory behind the host window, by bus address (R19). -/
  hostMem : List Host.Cell
  /-- R406. MSI-X table and pending bits. -/
  int : IntSt
  /-- R399, R403, R407. Work rings and the endpoint. -/
  hst : HostSt
  /-- R422. Log entries with an open window, oldest first. -/
  logWin : List LogWindow
  /-- R423. HLT_FIRST is armed: the next entry written is copied to it. -/
  logFirst : Bool
  /-- R351, R352, R356, R366. Translation caches, walks, invalidation queues, last fault record. -/
  mmu : MmuSt
  /-- R379–R389. The PTP clock. -/
  ptp : PtpSt
  /-- R96–R135. Threads, stewards, launches, hamlets and the on-chip stores. -/
  aq : AqkenSt
  /-- R360–R365. DMA descriptors in progress. -/
  dma : DmaSt
  /-- R28–R95. Streams, the bound ray map, synthesis work, spans, Caddy, checksums and the density estimator. -/
  syn : SynSt
  /-- R325–R344. DRAM controllers, the speed change and the scrubber. -/
  dram : DramSt
  /-- R166–R208. Scan-out, commits, the lock source, the sequencers and the tile pipes. -/
  sco : ScoSt
  /-- R211–R238. Wydel ports, by tile. -/
  ports : List (Nat × PortSt)
  /-- R239–R251. Panel rails, region updates, the hold write. -/
  pnl : PnlSt
  /-- R254–R267. Backlight chains. -/
  bkl : BklSt
  /-- R270–R291. Camera slots, pipes, the open set and the CCI controllers. -/
  cam : CamSt
  /-- R299–R305. Packer jobs. -/
  pkr : PkrSt
  /-- R309–R321. The blitter's record in progress. -/
  blt : BltSt
  /-- R375, R376. Frames sent whose descriptors wait to be written back. -/
  eth : EthSt
  /-- R437–R444. The Gleaner. -/
  cal : CalSt
  /-- R411–R436. Targeted tests, the margin plan and the projection. -/
  hlt : HltSt
  /-- R445–R449. The housekeeping round and the sensors. -/
  thm : ThmSt
  /-- R456–R477. The Watch. -/
  watch : WatchSt
  /-- R482, R467, R469. The package flash. -/
  flash : FlashSt
  /-- R461, R462, R467. One-time-programmable memory. -/
  otp : OtpSt
  /-- R489–R492. Firmware update. -/
  fwu : FwuSt
  /-- R507, R508. The test access port and the GPIO pins. -/
  pins : PinSt
  /-- R469–R471. Records that wait for the Watch to enter them in the Ledger, oldest first. -/
  ledgerReq : List LedgerReq
  /-- What the device has driven out, newest first. -/
  out : List Out
  /-- The model's own counter of free values (assumption 2). -/
  freeCtr : Nat
  /-- The model's own time base: ticks of 64 / 20,625 µs since reset (assumption 3). -/
  ticks : Nat
  deriving DecidableEq, Repr


/-- The machine right after reset (R2, R93, R135, R185, R208, R291, R344, R372, R436, R476 and the reset columns of the register
tables): every sparse map is empty, so every register reads its reset value and every byte store its default. -/
def State.reset : State where
  member := .fl6400
  pending := []
  regs := []
  act := []
  snap := []
  mem := []
  poison := []
  hostMem := []
  int := ⟨0, [], false⟩
  hst := ⟨[], 28, false, false, false, []⟩
  logWin := []
  logFirst := true
  mmu := ⟨[], [], [], [], [], none⟩
  ptp := ⟨0, 0, 0, 0, 0, 0, none, none, false, none⟩
  aq := ⟨[], [], [], [], [], 1, 0, [], [], [], []⟩
  dma := ⟨[], []⟩
  syn := ⟨[], none, none, [], 1, [], [], [], 0, none, false, none, ⟨none, 0, 0, none, none, []⟩, [], ⟨[], 0, false, 0, [0, 0, 0, 0], [0, 0, 0, 0], false, 0, []⟩⟩
  dram := ⟨[], 0, 0, false, [], 0, [], []⟩
  sco := ⟨false, 0, false, 0, none, none, 2, false, none, [], 0, none, false, none, none, none, none, 0, none, 0, false, false, [], [], false, false, [], [], false, .fit, .untested, 0, none, some 1, []⟩
  ports := []
  pnl := ⟨[], [], none, [], 0, false, false, [], false⟩
  bkl := ⟨[], 0, 0, 0⟩
  cam := ⟨[], [], [], 0, none, 0, [], 0, [], []⟩
  pkr := ⟨[]⟩
  blt := ⟨none, false⟩
  eth := ⟨[]⟩
  cal := ⟨[], [], [], [], [], [], 0, []⟩
  hlt := ⟨[], [], [], 0, 0, none, 0, none, none, none, 0, 0, 0, 0, 1600, [], [], 0, 0⟩
  thm := ⟨0, [], [], [], [], [], false, false⟩
  watch := ⟨true, some 0, 0, 0, false, [], true, 0, false, false, [], 0, 0, 0, none, false, none, [], none, [], 0, 0, none, none, 0, 256, 0, 0, 0, 0, [2, 2, 2, 2], [50, 50, 50, 50]⟩
  flash := ⟨[], [], [], 0, 0⟩
  otp := ⟨none, [0, 0, 0], 0⟩
  fwu := ⟨none, none, none, none, false⟩
  pins := ⟨0, 1, 0, 0, 0, 0⟩
  ledgerReq := []
  out := []
  freeCtr := 0
  ticks := 0

end Sys2Proof.Machine
end

