-- ==== Sys2Proof/Machine/Ops.lean ====
section
/-! DEFINITION. The named operations that every unit shares: register access, interrupts, physical memory, translation,
the error log, fault reporting and steward events. -/
namespace Sys2Proof.Machine

/-! ### Interrupt causes (R534): cause c = 32 × group + bit -/

def Irq.GLB_READY : Nat := 0
def Irq.HST_AERR : Nat := 1
def Irq.HST_PERR : Nat := 2
def Irq.HST_WR_DONE : Nat := 3
def Irq.HST_WR_FAULT : Nat := 4
def Irq.HST_LINK : Nat := 5
def Irq.GPIO : Nat := 6
def Irq.MMU_FAULT : Nat := 32
def Irq.DMA_HALT : Nat := 33
def Irq.DMA_BADDESC : Nat := 34
def Irq.PKR_DONE : Nat := 35
def Irq.PKR_FAULT : Nat := 36
def Irq.PKR_DECODE : Nat := 37
def Irq.BLT_WM : Nat := 38
def Irq.BLT_DONE : Nat := 39
def Irq.BLT_FAULT : Nat := 40
def Irq.BLT_BADREC : Nat := 41
def Irq.BLT_HAZARD : Nat := 42
def Irq.STW_FAULT : Nat := 64
def Irq.ENG_SUBST : Nat := 65
def Irq.ENG_DEGRADED : Nat := 66
def Irq.ENG_UE : Nat := 67
def Irq.SYN_INVALID : Nat := 68
def Irq.SYN_RMAP_FAULT : Nat := 69
def Irq.CMP_LFAULT : Nat := 96
def Irq.CMP_UNDERRUN : Nat := 97
def Irq.CMP_NOT_READY : Nat := 98
def Irq.CMP_WB_FAULT : Nat := 99
def Irq.CMP_WB_DROP : Nat := 100
def Irq.CMP_FILL_MISS : Nat := 101
def Irq.CMP_RMAP_FAULT : Nat := 102
def Irq.CMP_BAND_LATE : Nat := 103
def Irq.SCO_REFUSED : Nat := 104
def Irq.SCO_LATE_COMMIT : Nat := 105
def Irq.SCO_MAXED : Nat := 106
def Irq.SCO_WR_DROP : Nat := 107
def Irq.SCO_LOCK_LOSS : Nat := 108
def Irq.SCO_FREEZE : Nat := 109
def Irq.SCO_SWITCHOVER : Nat := 110
def Irq.SCO_NOSEQ : Nat := 111
def Irq.SCO_RETURN_FAIL : Nat := 112
def Irq.WYL_LANE_FAIL : Nat := 128
def Irq.WYL_NO_SPARE : Nat := 129
def Irq.WYL_BC_LOSS : Nat := 130
def Irq.WYL_RETIRE : Nat := 131
def Irq.WYL_SUBST : Nat := 132
def Irq.WYL_LINK_ERR : Nat := 133
def Irq.WYL_PORT_FAILED : Nat := 134
def Irq.PNL_RAIL_FAULT : Nat := 136
def Irq.PNL_CHK_MISMATCH : Nat := 137
def Irq.PNL_HOLD_FAIL : Nat := 138
def Irq.PNL_TORN : Nat := 139
def Irq.PNL_HOLD_DONE : Nat := 140
def Irq.BKL_LAMP_OUT : Nat := 144
def Irq.BKL_CHAIN_FAULT : Nat := 145
def Irq.BKL_OVERRUN : Nat := 146
def Irq.BKL_RX_ERR : Nat := 147
def Irq.SET_DONE : Nat := 160
def Irq.CAM_MARK : Nat := 161
def Irq.CAM_CCI_FAIL : Nat := 162
def Irq.CAM_RING_FULL : Nat := 163
def Irq.CAM_PKT_ERR : Nat := 164
def Irq.CAM_NOSET : Nat := 165
def Irq.ISP_DROP : Nat := 168
def Irq.ISP_TABLE_FAULT : Nat := 169
def Irq.MEM_UE : Nat := 192
def Irq.MEM_DEGRADED : Nat := 193
def Irq.MEM_SPEED_DONE : Nat := 194
def Irq.MEM_MAP_ERR : Nat := 195
def Irq.MEM_TEMP_ALERT : Nat := 196
def Irq.ETH_LINK_DOWN : Nat := 200
def Irq.ETH_FEC_UNCORR : Nat := 201
def Irq.ETH_FAULT : Nat := 202
def Irq.PTP_MCS : Nat := 208
def Irq.PTP_HOLDOVER : Nat := 209
def Irq.PTP_STEP : Nat := 210
def Irq.PTP_PPSIN_GLITCH : Nat := 211
def Irq.HLT_LASTING : Nat := 224
def Irq.HLT_LOG_OVF : Nat := 225
def Irq.HLT_MARGIN : Nat := 226
def Irq.HLT_AVS_FAIL : Nat := 227
def Irq.CAL_DONE : Nat := 232
def Irq.CAL_REJ : Nat := 233
def Irq.THM_WARN : Nat := 236
def Irq.THM_THROTTLE : Nat := 237
def Irq.THM_BROKEN : Nat := 238
def Irq.FWU_DONE : Nat := 240
def Irq.SPV_DONE : Nat := 244
def Irq.SPV_ALARM : Nat := 245
def Irq.SPV_SUPPLY_OOR : Nat := 246
def Irq.SPV_CFG_INVALID : Nat := 247

/-! ### Registers (R5–R8) -/

/-- R2. The part code of a member. -/
def Member.part : Member → Nat
  | .fl0400 => 0x0400 | .fl1600 => 0x1600 | .fl6400 => 0x6400
/-- R2. Tiles of a member. -/
def Member.tiles : Member → Nat
  | .fl0400 => 4 | .fl1600 => 16 | .fl6400 => 64
/-- R2. Hamlets of a member. -/
def Member.hamlets : Member → Nat
  | .fl0400 => 1 | .fl1600 => 4 | .fl6400 => 16

/-- What the register at BAR0 offset `a` holds while nothing is listed: its reset value; GLB_ID by member (R2). -/
def wordDefault (m : Member) (a : Nat) : Word :=
  if a = 0 then BitVec.ofNat 32 (0xB1 * 65536 + m.part) else BitVec.ofNat 32 (regReset a)

/-- R3. The bits of the register at BAR0 offset `a` that stand for units which the member lacks, where they are not a whole array row: tiles
in the words of one bit a tile, and the sensors, monitors, replicas and eyes of hamlets and tiles. -/
def absentBits (m : Member) (a : Nat) : Nat :=
  let all := 2 ^ 32 - 1
  let lo := all - (2 ^ min 32 m.tiles - 1)
  let hi := all - (2 ^ (m.tiles - 32) - 1)
  let hamlet := fun h => if m.hamlets ≤ h then all else 0
  if a = 0xC0048 ∨ a = 0xC0050 ∨ a = 0xD0008 then lo
  else if a = 0xC004C ∨ a = 0xC0054 ∨ a = 0xD000C then hi
  else if 0x171000 ≤ a ∧ a < 0x171080 then hamlet ((a - 0x171000) / 8)
  else if 0x1710B0 ≤ a ∧ a < 0x1710F0 then hamlet ((a - 0x1710B0) / 4)
  else if 0x171200 ≤ a ∧ a < 0x171280 then hamlet ((a - 0x171200) / 8)
  else if 0x171300 ≤ a ∧ a < 0x171380 then hamlet ((a - 0x171300) / 8)
  else if 0x151000 ≤ a ∧ a < 0x1510C0 then hamlet ((a - 0x151000) / 12)
  else if 0x151100 ≤ a ∧ a < 0x1511C0 then hamlet ((a - 0x151100) / 12)
  else if 0x151200 ≤ a ∧ a < 0x151300 then (if m.tiles ≤ (a - 0x151200) / 4 then all else 0)
  else 0
/-- R3. A word without the bits of absent units. -/
def presentBits (m : Member) (a v : Nat) : Nat := v &&& (2 ^ 32 - 1 - absentBits m a)

/-- The register word at BAR0 offset `a`. -/
def State.word (s : State) (a : Nat) : Nat := (mapGet (wordDefault s.member) s.regs a).toNat
/-- Replace the register word at BAR0 offset `a`. -/
def State.setWord (s : State) (a v : Nat) : State :=
  { s with regs := mapPut (wordDefault s.member) s.regs a (BitVec.ofNat 32 v) }
/-- The value of a register field. -/
def State.get (s : State) (f : Fld) : Nat := bitsOf (s.word f.addr) f.lsb f.width
/-- Replace the value of a register field (taken modulo its width). -/
def State.put (s : State) (f : Fld) (v : Nat) : State := s.setWord f.addr (setBits (s.word f.addr) f.lsb f.width v)
/-- Is the field nonzero? -/
def State.on (s : State) (f : Fld) : Bool := decide (s.get f ≠ 0)
/-- Add to a register field, wrapping in its width. -/
def State.bumpBy (s : State) (f : Fld) (n : Nat) : State := s.put f (s.get f + n)
/-- Count one event in a wrapping counter. -/
def State.bump (s : State) (f : Fld) : State := s.bumpBy f 1
/-- The committed copy of an SH register word (R198). -/
def State.actWord (s : State) (a : Nat) : Nat := (mapGet (wordDefault s.member) s.act a).toNat
/-- The committed value of an SH field (R198). -/
def State.getA (s : State) (f : Fld) : Nat := bitsOf (s.actWord f.addr) f.lsb f.width
/-- Replace the committed copy of an SH register word. -/
def State.setActWord (s : State) (a v : Nat) : State :=
  { s with act := mapPut (wordDefault s.member) s.act a (BitVec.ofNat 32 v) }
/-- Is the committed value of an SH field nonzero? -/
def State.onA (s : State) (f : Fld) : Bool := decide (s.getA f ≠ 0)
/-- Replace the committed value of an SH field. -/
def State.putA (s : State) (f : Fld) (v : Nat) : State := s.setActWord f.addr (setBits (s.actWord f.addr) f.lsb f.width v)
/-- The latched snapshot copy at BAR0 offset `a` (R8). -/
def State.snapWord (s : State) (a : Nat) : Nat := (mapGet (wordDefault s.member) s.snap a).toNat

/-- Drive something out of the device. -/
def State.emit (s : State) (o : Out) : State := { s with out := o :: s.out }

/-- A fresh free value, and the state whose counter has advanced (assumption 2). -/
def State.fresh (s : State) : Nat × State := (Config.freeNat s.freeCtr, { s with freeCtr := s.freeCtr + 1 })

/-- R426, R435. Eye `i` of a receiver is measured as its link adapts: height and width are what the link gives, free values (assumption 2). -/
def State.eyeTake (s : State) (i : Nat) : State :=
  let f := s.fresh
  let g := f.2.fresh
  (g.2.put (R.HLT_EYE_HEIGHT i) f.1).put (R.HLT_EYE_WIDTH i) g.1

/-- A 64-bit value held in two registers, low word first. -/
def State.get64 (s : State) (lo hi : Fld) : Nat := s.get lo + 2 ^ 32 * s.get hi
/-- Replace a 64-bit value held in two registers. -/
def State.put64 (s : State) (lo hi : Fld) (v : Nat) : State := (s.put lo v).put hi (v / 2 ^ 32)
/-- An address whose low word holds bits [31:k] at their places, and whose high word holds the bits above. -/
def State.addrOf (s : State) (lo hi : Fld) : Nat := s.get lo * 2 ^ lo.lsb + 2 ^ 32 * s.get hi
/-- The same of the committed copies. -/
def State.addrOfA (s : State) (lo hi : Fld) : Nat := s.getA lo * 2 ^ lo.lsb + 2 ^ 32 * s.getA hi

/-! ### Time -/

/-- PTP time in ns (R379). -/
def State.ptpNs (s : State) : Nat := s.ptp.time / 2 ^ 32 % 2 ^ 64
/-- Microseconds of the model's time base (assumption 3). -/
def State.us (s : State) : Nat := s.ticks * 64 / 20625
/-- Microseconds between two ticks. -/
def tickUs (a b : Nat) : Nat := (b - a) * 64 / 20625
/-- Microseconds since a tick that the main domain noted, or since its last release where that came later. -/
def State.since (s : State) (t : Nat) : Nat := tickUs (max t s.watch.releasedAt) s.ticks
/-- R444. Does a forced test keep a unit with a unit-idle gap from new work at its next work boundary? -/
def State.testHeld (s : State) (blk inst : Nat) : Bool :=
  s.cal.reqs.any (fun r => r.forced && decide (r.block = blk) && decide (r.inst = inst))
/-- Ticks in 1 ms, rounded up: an event less than 1 ms old lies within them (R356, R422). -/
def withinMs (first now : Nat) : Bool := decide ((now - first) * 64 < 20625 * 1000)

/-! ### Interrupts (R405, R406) -/

/-- The cause bit of cause `c` (R405). -/
def causeFld (c : Nat) : Fld := ⟨0x30000 + c / 32 * 4, c % 32, 1⟩
/-- The enable bit of cause `c`. -/
def causeEnFld (c : Nat) : Fld := ⟨0x30040 + c / 32 * 4, c % 32, 1⟩
/-- R410. The vector that INT_VMAP gives cause `c`. -/
def causeVecFld (c : Nat) : Fld := ⟨0x30100 + c / 4 * 4, c % 4 * 8, 6⟩
/-- The VACT bit of vector `v`. -/
def vactFld (v : Nat) : Fld := ⟨0x30200 + v / 32 * 4, v % 32, 1⟩

/-- R406. Is any cause mapped to vector `v` both set and enabled? -/
def State.vecActive (s : State) (v : Nat) : Bool :=
  (List.range 256).any (fun c => s.on (causeFld c) && s.on (causeEnFld c) && decide (s.get (causeVecFld c) = v))

/-- Set the MSI-X pending bit of vector `v` (R406). -/
def State.setPending (s : State) (v : Nat) : State :=
  { s with int := { s.int with pba := s.int.pba ||| (1#64 <<< v) } }

/-- R405, R406. A source sets cause `c`: a vector that becomes active sets its pending bit. -/
def State.raise (s : State) (c : Nat) : State :=
  let s1 := s.put (causeFld c) 1
  let v := s1.get (causeVecFld c)
  if s1.on (causeEnFld c) && !s1.on (vactFld v) then (s1.put (vactFld v) 1).setPending v else s1

/-- R406. Recompute which vectors are active after a write to INT_CAUSE, INT_EN or INT_VMAP; vectors that become active set
their pending bits. -/
def State.revector (s : State) : State :=
  foldRange 64 (fun s v =>
    let a := s.vecActive v
    let was := s.on (vactFld v)
    if a && !was then (s.put (vactFld v) 1).setPending v
    else if !a && was then s.put (vactFld v) 0 else s) s

/-! ### Physical memory (R19, R20, R325, R337, R340, R397) -/

/-- Why an access to memory failed: an MMU cause of R354; the hole of R19; HBM not open (R340); a poisoned granule (R337);
the host window (R397) with its kind. -/
inductive AccErr where
  | mmu (cause : Nat)
  | closed
  | poison (pa : Nat)
  | host (off kind : Nat)
  deriving DecidableEq, Repr

/-- The end of HBM in device physical space (R19). -/
def hbmTop : Nat := 0x1800000000
/-- The start of the host window (R19). -/
def hwinBase : Nat := 0x8000000000

/-- R340. HBM is open once training is done and the map is locked. -/
def State.hbmOpen (s : State) : Bool := s.on R.MEM_STAT_TRAINED && s.on R.MEM_CTL_MAP_LOCK

/-- One HBM byte. -/
def State.memByte (s : State) (pa : Nat) : Byte := mapGet byteDefault s.mem pa
/-- `n` HBM bytes. -/
def State.memBytes (s : State) (pa n : Nat) : List Byte := mapGetList byteDefault s.mem pa n

/-- Granules of 32 bytes wholly inside [pa, pa + n) (R337). -/
def granulesCovered (pa n : Nat) : Nat × Nat := ((pa + 31) / 32, (pa + n) / 32)

/-- Write HBM bytes. A write that covers all 32 bytes of a poisoned granule clears its poison (R337). -/
def State.memPut (s : State) (pa : Nat) (bs : List Byte) : State :=
  let g := granulesCovered pa bs.length
  { s with mem := mapPutList byteDefault s.mem pa bs,
           poison := s.poison.filter (fun p => !(decide (g.1 ≤ p) && decide (p < g.2))) }

/-- The parity of the PA bits [34:0] that a mask selects (R325). -/
def maskParity (mask pa : Nat) : Nat := popCount 35 ((mask &&& pa) % 2 ^ 35) % 2

/-- Hash mask i (R326, R343). -/
def State.hashMask (s : State) (i : Nat) : Nat := s.get (R.MEM_HASH_LO_MASK i) + 2 ^ 32 * s.get (R.MEM_HASH_HI_MASK i)
/-- Selector i of a physical address under the hash masks (R325). -/
def State.hashSel (s : State) (i pa : Nat) : Nat := maskParity (s.hashMask i) pa

/-- R325, R343. The controller k = 16 × stack + channel that a physical address reaches. -/
def State.paController (s : State) (pa : Nat) : Nat :=
  let ch := s.hashSel 1 pa + 2 * s.hashSel 2 pa + 4 * s.hashSel 3 pa + 8 * s.hashSel 4 pa
  let st := s.hashSel 5 pa + 2 * s.hashSel 6 pa
  16 * st + ch

/-- R19, R397. The bus address behind host-window offset `x`. -/
def State.hostBus (s : State) (x : Nat) : Nat := s.addrOf R.HST_HWIN_LO_ADDR R.HST_HWIN_HI_ADDR + x

/-- R397. Does a request to host-window offset `x` fail: as it is issued, or outside? -/
def State.hostErr (s : State) (x : Nat) : Option AccErr :=
  if !s.on R.HST_CTL_HWIN_EN || decide (2 ^ 64 ≤ s.hostBus x) then some (.host x 5)
  else if !s.on R.HST_STAT_LINK_UP then some (.host x 4) else (tabGet s.hst.failed x).map (AccErr.host x)

/-- Read one byte of device physical space (R19, R20, R337, R340). -/
def State.physByte (s : State) (pa : Nat) : Except AccErr Byte :=
  if pa < hbmTop then
    if !s.hbmOpen then .error .closed
    else if s.poison.contains (pa / 32) then .error (.poison pa)
    else .ok (s.memByte pa)
  else if pa < hwinBase then .error (.mmu 8)
  else match s.hostErr (pa - hwinBase) with
    | some e => .error e
    | none => .ok (mapGet byteDefault s.hostMem (s.hostBus (pa - hwinBase)))

/-- Can a byte of device physical space be written? Poison does not stop a write (R337). -/
def State.physWritable (s : State) (pa : Nat) : Option AccErr :=
  if pa < hbmTop then (if s.hbmOpen then none else some .closed)
  else if pa < hwinBase then some (.mmu 8)
  else s.hostErr (pa - hwinBase)

/-- Read `n` bytes of device physical space. -/
def State.physRead (s : State) (pa : Nat) : Nat → Except AccErr (List Byte)
  | 0 => .ok []
  | n + 1 =>
    match s.physByte pa with
    | .error e => .error e
    | .ok b => match s.physRead (pa + 1) n with
      | .error e => .error e
      | .ok bs => .ok (b :: bs)

/-- Write a run of bytes that lies in one region of device physical space. -/
def State.physPut (s : State) (pa : Nat) (bs : List Byte) : State :=
  if pa < hbmTop then s.memPut pa bs
  else { s with hostMem := mapPutList byteDefault s.hostMem (s.hostBus (pa - hwinBase)) bs }

/-! ### Translation (R345–R350, R354) -/

/-- R347, R349. Read one table entry: the eight bytes at `pa`, or none where the read fails. -/
def State.readEntry (s : State) (pa : Nat) : Option Nat :=
  match s.physRead pa 8 with
  | .ok bs => some (leNat bs)
  | .error _ => none

/-- R349. Is the entry bad at level `l` (0 to 3)? `e` is valid. -/
def badEntry (l e : Nat) : Bool :=
  let leaf := bitAt e 1
  let s64 := bitAt e 5
  let pa := bitsOf e 12 28 * 4096
  decide (bitsOf e 6 6 ≠ 0) || decide (bitsOf e 40 24 ≠ 0) ||
  (leaf && decide (l = 3)) || (!leaf && decide (l = 0)) ||
  (leaf && s64 && decide (l ≠ 0)) ||
  (!leaf && decide (bitsOf e 2 4 ≠ 0)) ||
  (leaf && decide (l = 2) && decide (pa % 2 ^ 30 ≠ 0)) ||
  (leaf && decide (l = 1) && decide (pa % 2 ^ 21 ≠ 0)) ||
  (leaf && decide (l = 0) && s64 && decide (pa % 2 ^ 16 ≠ 0)) ||
  (!leaf && decide (hbmTop ≤ pa))

/-- R348. log2 of the page size of a leaf at level `l`. -/
def leafLog2 (l e : Nat) : Nat :=
  if l = 2 then 30 else if l = 1 then 21 else if bitAt e 5 then 16 else 12

/-- R346, R349, R354. The page walk from level `l` (as `fuel`, level + 1) with its table at `table`: the page found, or the cause. -/
def State.walkFrom (s : State) (ctx va : Nat) : Nat → Nat → Except Nat TlbEntry
  | 0, _ => .error 4
  | l + 1, table =>
    if hbmTop ≤ table then .error 4
    else match s.readEntry (table + 8 * (va / 2 ^ (12 + 9 * l) % 512)) with
      | none => .error 5
      | some e =>
        if !bitAt e 0 then .error 1
        else if badEntry l e then .error 4
        else if bitAt e 1 then
          let k := leafLog2 l e
          .ok { ctx := ctx, va := va / 2 ^ k * 2 ^ k, log2 := k, pa := bitsOf e 12 28 * 4096 / 2 ^ k * 2 ^ k,
                w := bitAt e 2, x := bitAt e 3, pin := bitAt e 4 }
        else s.walkFrom ctx va l (bitsOf e 12 28 * 4096)

/-- R345. The root table of a context. -/
def State.ctxRoot (s : State) (ctx : Nat) : Nat := s.addrOf (R.MMU_CTX_ROOT_LO_ADDR ctx) (R.MMU_CTX_ROOT_HI_ADDR ctx)
/-- R346. The upper bits of an address that choose a table entry at level `l`. -/
def walkKey (l va : Nat) : Nat := va / 2 ^ (12 + 9 * l)
/-- R351. Where a walk starts: at the lowest level that the walk cache gives, else at the root. -/
def State.walkStart (s : State) (ctx va : Nat) : Nat × Nat :=
  match [1, 2, 3].findSome? (fun l => s.mmu.wcache.find? (fun e => decide (e.ctx = ctx) && decide (e.level = l) && decide (e.key = walkKey l va))) with
  | some e => (e.level, e.table)
  | none => (4, s.ctxRoot ctx)
/-- R346, R351. The walk of an address of a context. -/
def State.walk (s : State) (ctx va : Nat) : Except Nat TlbEntry := s.walkFrom ctx va (s.walkStart ctx va).1 (s.walkStart ctx va).2
/-- R351. The table entries that a walk from level `l` (as `fuel`, level + 1) passes. -/
def State.walkTables (s : State) (ctx va : Nat) : Nat → Nat → List WalkEntry
  | 0, _ => []
  | l + 1, table =>
    match s.readEntry (table + 8 * (va / 2 ^ (12 + 9 * l) % 512)) with
    | none => []
    | some e =>
      if !bitAt e 0 || badEntry l e || bitAt e 1 then []
      else ⟨ctx, l, walkKey l va, bitsOf e 12 28 * 4096⟩ :: s.walkTables ctx va l (bitsOf e 12 28 * 4096)

/-- Does the cached translation cover the address? -/
def TlbEntry.covers (e : TlbEntry) (ctx va : Nat) : Bool :=
  decide (e.ctx = ctx) && decide (e.va ≤ va) && decide (va < e.va + 2 ^ e.log2)

/-- R345. Is translation on for the context? -/
def State.ctxOn (s : State) (ctx : Nat) : Bool :=
  s.on R.MMU_CTL_ENABLE && decide (ctx < 64) && s.on (R.MMU_CTX_CFG_EN ctx)

/-- R354. The leaf check and the hole check, with the page found. -/
def leafCheck (e : TlbEntry) (va : Nat) (acc : Acc) : Except Nat Nat :=
  let pa := e.pa + (va - e.va)
  if (acc == .write || acc == .atomic) && !e.w then .error 2
  else if acc == .fetch && !e.x then .error 3
  else if hbmTop ≤ pa ∧ pa < hwinBase then .error 8
  else .ok pa

/-- R345–R354. Translate one address: a cached translation is used first (R352 removes it), else the tables are walked. -/
def State.translate (s : State) (ctx va : Nat) (acc : Acc) : Except Nat Nat :=
  if !s.ctxOn ctx then .error 7
  else if 2 ^ 48 ≤ va then .error 6
  else match s.mmu.tlb.find? (fun e => e.covers ctx va) with
    | some e => leafCheck e va acc
    | none => match s.walk ctx va with
      | .error c => .error c
      | .ok e => leafCheck e va acc

/-- Read `n` bytes at a virtual address. -/
def State.vread (s : State) (ctx va : Nat) (acc : Acc) : Nat → Except AccErr (List Byte)
  | 0 => .ok []
  | n + 1 =>
    match s.translate ctx va acc with
    | .error c => .error (.mmu c)
    | .ok pa => match s.physByte pa with
      | .error e => .error e
      | .ok b => match s.vread ctx (va + 1) acc n with
        | .error e => .error e
        | .ok bs => .ok (b :: bs)

/-- The physical addresses of a run of bytes that may all be written, or the first failure. -/
def State.vtargets (s : State) (ctx va : Nat) (acc : Acc) : Nat → Except AccErr (List Nat)
  | 0 => .ok []
  | n + 1 =>
    match s.translate ctx va acc with
    | .error c => .error (.mmu c)
    | .ok pa => match s.physWritable pa with
      | some e => .error e
      | none => match s.vtargets ctx (va + 1) acc n with
        | .error e => .error e
        | .ok ps => .ok (pa :: ps)

/-- Group byte targets into runs of consecutive physical addresses. -/
def runsOf : List (Nat × Byte) → List (Nat × List Byte)
  | [] => []
  | (a, b) :: rest =>
    match runsOf rest with
    | (a', bs) :: more => if a' = a + 1 then (a, b :: bs) :: more else (a, [b]) :: (a', bs) :: more
    | [] => [(a, [b])]

/-- Write bytes at a virtual address: every byte is checked before any is written. -/
def State.vwrite (s : State) (ctx va : Nat) (bs : List Byte) : Except AccErr State :=
  match s.vtargets ctx va .write bs.length with
  | .error e => .error e
  | .ok ps => .ok ((runsOf (ps.zip bs)).foldl (fun s r => s.physPut r.1 r.2) s)

/-! ### Error log (R421–R425) -/

/-- R421. The eight words of an entry. -/
def LogEntry.words (e : LogEntry) : List Nat :=
  [e.ptp % 2 ^ 32, e.ptp / 2 ^ 32, e.source + 65536 * e.code, e.sev + 65536 * e.lastUs, e.count, e.seq,
   e.detail % 2 ^ 32, e.detail / 2 ^ 32 % 2 ^ 32]

/-- The entry that eight words hold. -/
def LogEntry.ofWords (ws : List Nat) : LogEntry :=
  let w := fun i => ws.getD i 0
  { ptp := w 0 + 2 ^ 32 * w 1, source := w 2 % 65536, code := w 2 / 65536, sev := w 3 % 65536, lastUs := w 3 / 65536,
    count := w 4, seq := w 5, detail := w 6 + 2 ^ 32 * w 7 }

/-- R421. SOURCE of a block, counter array and instance. -/
def logSource (blk arr inst : Nat) : Nat := blk * 1024 + arr % 4 * 256 + inst % 256

/-- Write eight words into consecutive registers. -/
def State.putWords (s : State) (a : Nat) (ws : List Nat) : State :=
  (ws.foldl (fun (p : State × Nat) w => (p.1.setWord p.2 w, p.2 + 4)) (s, a)).1

/-- The BAR0 offset of entry `i` of the log window. -/
def logSlot (i : Nat) : Nat := 0x154000 + i % 1024 * 32

/-- The log entry with the given SEQ, as the window holds it. -/
def State.logEntry (s : State) (seq : Nat) : LogEntry :=
  LogEntry.ofWords ((List.range 8).map (fun w => s.word (logSlot seq + 4 * w)))

/-- R423. HEAD, TAIL and whether the ring is full. -/
def State.logFull (s : State) : Bool :=
  decide (1024 ≤ subMod 32 (s.get R.HLT_LOG_HEAD_HEAD) (s.get R.HLT_LOG_TAIL_TAIL))

/-- R422. The open window that an event joins, if there is one. -/
def State.logJoin (s : State) (src code : Nat) : Option LogWindow :=
  s.logWin.find? (fun w => decide (w.source = src) && decide (w.code = code) && withinMs w.firstTick s.ticks)

/-- R422, R423, R425. Enter an event in the on-chip log, without the mirror: the state, and the entry written or coalesced. -/
def State.logBase (s : State) (blk arr inst code sev detail : Nat) : State × Option LogEntry :=
  let src := logSource blk arr inst
  let s := s.bump (R.HLT_BLKCNT_COUNT blk)
  let head := s.get R.HLT_LOG_HEAD_HEAD
  let e : LogEntry := { ptp := s.ptpNs, source := src, code := code, sev := sev, lastUs := 0, count := 1, seq := head, detail := detail }
  if !s.on R.HLT_CTL_LOG_EN then (s.putWords 0x150120 e.words, none)
  else match s.logJoin src code with
    | some w =>
      let o := s.logEntry w.seq
      let e' := { o with count := if o.count < 2 ^ 32 - 1 then o.count + 1 else o.count, lastUs := clampN 0 1000 (tickUs w.firstTick s.ticks) }
      (((s.putWords (logSlot w.seq) e'.words).putWords 0x150120 e'.words).bump (R.HLT_CNT_COUNT 1), some e')
    | none =>
      if s.logFull then
        let s := ((s.bump R.HLT_LOG_DROP_DROP).bump (R.HLT_CNT_COUNT 2)).putWords 0x150120 e.words
        if s.on R.HLT_STAT_OVERFLOW then (s, none) else ((s.put R.HLT_STAT_OVERFLOW 1).raise Irq.HLT_LOG_OVF, none)
      else
        let s := ((s.putWords (logSlot head) e.words).putWords 0x150120 e.words).bump (R.HLT_CNT_COUNT 0)
        let s := s.bump R.HLT_LOG_HEAD_HEAD
        let s := if s.logFirst then { s.putWords 0x150100 e.words with logFirst := false } else s
        let ws := s.logWin ++ [{ source := src, code := code, seq := head, firstTick := s.ticks }]
        ({ s with logWin := ws.drop (ws.length - 32) }, some e)

/-! ### Reporting of translation failures (R355, R356) -/

/-- R355. The INFO word. -/
def faultInfo (ctx cause : Nat) (acc : Acc) (cls client : Nat) : Nat :=
  let a := match acc with
    | .read => 0 | .write => 1 | .fetch => 2 | .atomic => 3
  ctx % 64 + cause * 256 + a * 4096 + cls * 65536 + client * 2 ^ 24

/-- R355. The 32 bytes of a fault record. -/
def faultRecord (va ptp info id count : Nat) : List Byte :=
  leBytes 8 va ++ leBytes 8 ptp ++ leBytes 4 info ++ leBytes 4 id ++ leBytes 4 count ++ leBytes 4 0

/-- Entries of the fault ring (R356): LOG2N clamped to 4–15. -/
def State.fringSize (s : State) : Nat := 2 ^ clampN 4 15 (s.get R.MMU_FRING_CNT_LOG2N)
/-- The address of fault record `i`. -/
def State.fringAddr (s : State) (i : Nat) : Nat :=
  s.addrOf R.MMU_FRING_LO_ADDR R.MMU_FRING_HI_ADDR + 32 * (i % s.fringSize)

/-- R356. A dropped record. -/
def State.fringDrop (s : State) : State := (s.bump R.MMU_FRING_DROP_DROP).put R.MMU_STAT_OVERFLOW 1

/-- R356. Does the failure join the most recent record? -/
def State.faultJoins (s : State) (client id ctx cause va : Nat) : Option LastFault :=
  match s.mmu.last with
  | none => none
  | some l =>
    let consumed := decide (subMod 32 (s.get R.MMU_FRING_TAIL_TAIL) (l.head + 1) < 2 ^ 31)
    if l.client = client ∧ l.id = id ∧ l.ctx = ctx ∧ l.cause = cause ∧ l.page = va / 4096 ∧ withinMs l.firstTick s.ticks ∧ !consumed
    then some l else none

/-- R355, R356. Write or coalesce the record in the fault ring. -/
def State.fringWrite (s : State) (client id ctx va cause info : Nat) : State :=
  match s.faultJoins client id ctx cause va with
  | some l =>
    let s := s.bump (R.MMU_CNT_COUNT 3)
    let s := { s with mmu := { s.mmu with last := some { l with count := l.count + 1 } } }
    (match s.vwrite 0 (s.fringAddr l.head + 0x18) (leBytes 4 (l.count + 1)) with
     | .ok s' => s'
     | .error _ => s)
  | none =>
    let head := s.get R.MMU_FRING_HEAD_HEAD
    if s.fringSize ≤ subMod 32 head (s.get R.MMU_FRING_TAIL_TAIL) then s.fringDrop
    else match s.vwrite 0 (s.fringAddr head) (faultRecord va s.ptpNs info id 1) with
      | .error _ => s.fringDrop
      | .ok s' =>
        let s' := s'.bump R.MMU_FRING_HEAD_HEAD
        { s' with mmu := { s'.mmu with last := some { head := head, client := client, id := id, ctx := ctx, cause := cause, page := va / 4096, firstTick := s'.ticks, count := 1 } } }

/-- R355, R356. A translation failure is reported: FLAST, the fault ring, the error log (its mirror apart) and MMU_FAULT. -/
def State.mmuFaultBase (s : State) (client id ctx va : Nat) (acc : Acc) (cls cause : Nat) : State × Option LogEntry :=
  let info := faultInfo ctx cause acc cls client
  let s := ((s.put R.MMU_FLAST_VA_LO_VA va).put R.MMU_FLAST_VA_HI_VA (va / 2 ^ 32)).put R.MMU_FLAST_INFO_INFO info
  let s := s.bump (R.MMU_CNT_COUNT 2)
  let s := s.fringWrite client id ctx va cause info
  let r := s.logBase 4 0 0 2 2 va
  (r.1.raise Irq.MMU_FAULT, r.2)

/-- R424. While MIRROR_EN is 1 the entry is also written to the mirror; a write that faults turns the mirror off. -/
def State.mirror (s : State) (e : Option LogEntry) : State :=
  match e with
  | none => s
  | some e =>
    if s.on R.HLT_CTL_MIRROR_EN then
      let va := s.addrOf R.HLT_MIRROR_LO_ADDR R.HLT_MIRROR_HI_ADDR + 32 * (e.seq % 1024)
      match s.vwrite 0 va (wordBytes e.words) with
      | .ok s' => s'
      | .error err =>
        let s := ((s.put R.HLT_CTL_MIRROR_EN 0).put R.HLT_STAT_MIRROR_FAULT 1).bump (R.HLT_CNT_COUNT 12)
        (match err with
         | .mmu c => (s.mmuFaultBase 0x36 0 0 va .write 9 c).1
         | _ => s)
    else s

/-- R416. The blocks whose units have no spare and take a targeted test after an error: DMA, STW, SYN, PKR, BLT, CMP, ISP and MEM
(assumption 30). -/
def testable (blk : Nat) : Bool := [5, 6, 8, 9, 10, 11, 17, 20].contains blk

/-- R416, R418. An error of a unit without a spare queues its targeted test, unless one is queued already; so do 16 corrections in one
second. -/
def State.noteTest (s : State) (blk src sev seq : Nat) : State :=
  let queue := fun (s : State) => if s.hlt.tests.any (fun p => decide (p.1 = src)) then s else { s with hlt := { s.hlt with tests := s.hlt.tests ++ [(src, seq)] } }
  if !testable blk then s
  else if sev = 2 then queue s
  else if sev = 1 ∧ blk ≠ 20 then
    let l := s.ticks :: ((tabGet s.hlt.corr src).getD []).filter (fun t => decide ((s.ticks - t) * 64 < 20625 * 1000000))
    if 16 ≤ l.length then queue { s with hlt := { s.hlt with corr := tabDel s.hlt.corr src } }
    else { s with hlt := { s.hlt with corr := tabPut s.hlt.corr src l } }
  else s

/-- The SEQ of the entry last written. -/
def State.lastSeq (s : State) : Nat := subMod 32 (s.get R.HLT_LOG_HEAD_HEAD) 1

/-- R421–R425. Raise an event to the error log: block, counter array, instance, code, severity (0 INFO, 1 CORRECTED, 2 ERROR,
3 TRANSIENT, 4 LASTING) and detail. -/
def State.log (s : State) (blk arr inst code sev detail : Nat) : State :=
  let r := s.logBase blk arr inst code sev detail
  (r.1.noteTest blk (logSource blk arr inst) sev (match r.2 with
    | some e => e.seq
    | none => r.1.lastSeq)).mirror r.2

/-- R355, R356. Report a translation failure. -/
def State.mmuFault (s : State) (client id ctx va : Nat) (acc : Acc) (cls cause : Nat) : State :=
  let r := s.mmuFaultBase client id ctx va acc cls cause
  r.1.mirror r.2

/-- R397. A failed request to the host window is counted, latched and raised. -/
def State.hostWinErr (s : State) (off kind : Nat) : State :=
  let s := s.bump (R.HST_CNT_COUNT 1)
  let s := if s.on R.HST_PERR_HI_VALID then s else
    (((s.put R.HST_PERR_LO_OFFSET off).put R.HST_PERR_HI_OFFSET (off / 2 ^ 32)).put R.HST_PERR_HI_KIND kind).put R.HST_PERR_HI_VALID 1
  s.raise Irq.HST_PERR

/-- R359, R397. A client meets a failed request to the host window: it is recorded, unless HOST_WINDOW_ERROR has done so. -/
def State.hostFail (s : State) (off kind : Nat) : State :=
  if tabGet s.hst.failed off = some kind then { s with hst := { s.hst with failed := tabDel s.hst.failed off } }
  else s.hostWinErr off kind

/-- R337. A later read of a poisoned granule is counted at its controller. -/
def State.poisonRead (s : State) (pa : Nat) : State := s.bump (R.MEM_CNT_COUNT (s.paController pa) 12)

/-- R337, R349. The poisoned granule that a walk from level `l` (as `fuel`, level + 1) meets, if any. -/
def State.walkPoison (s : State) (va : Nat) : Nat → Nat → Option Nat
  | 0, _ => none
  | l + 1, table =>
    match s.physRead (table + 8 * (va / 2 ^ (12 + 9 * l) % 512)) 8 with
    | .error (.poison pa) => some pa
    | .error _ => none
    | .ok bs => if bitAt (leNat bs) 0 && !bitAt (leNat bs) 1 then s.walkPoison va l (bitsOf (leNat bs) 12 28 * 4096) else none

/-- R337. A walk that ended with cause 5, a table read with an address error, counts the read of a poisoned granule. -/
def State.walkRead (s : State) (ctx va cause : Nat) : State :=
  if cause = 5 then
    (match s.walkPoison va (s.walkStart ctx va).1 (s.walkStart ctx va).2 with
     | some pa => s.poisonRead pa
     | none => s)
  else s

/-- What any client's failed access leaves behind: the MMU's report, the host interface's record, or the poison count. The
client's own answer follows its class (R357). -/
def State.accFail (s : State) (client id ctx va : Nat) (acc : Acc) (cls : Nat) : AccErr → State
  | .mmu c => (s.walkRead ctx va c).mmuFault client id ctx va acc cls c
  | .closed => s
  | .poison pa => s.poisonRead pa
  | .host off kind => s.hostFail off kind

/-- R354. The cause code that a client's CAUSE field holds: the MMU's, or ADDRESS for every other address error. -/
def AccErr.code : AccErr → Nat
  | .mmu c => c
  | _ => 8

/-- R396. An access error. -/
def State.accessError (s : State) (bar off kind : Nat) : State :=
  let s := s.bump (R.HST_CNT_COUNT 0)
  let s := if s.on R.HST_AERR_HI_VALID then s else
    ((((s.put R.HST_AERR_LO_OFFSET off).put R.HST_AERR_HI_OFFSET (off / 2 ^ 32)).put R.HST_AERR_HI_BAR bar).put R.HST_AERR_HI_KIND kind).put R.HST_AERR_HI_VALID 1
  s.raise Irq.HST_AERR

/-! ### Events of steward cores (R131, R165, R400, R401) -/

/-- What an unlisted steward core's queue holds: nothing. -/
def stwDefault (_ : Nat) : StwSt := ⟨[], []⟩
/-- A steward core's event queue. -/
def State.stw (s : State) (c : Nat) : StwSt := mapGet stwDefault s.aq.stw c
/-- Replace a steward core's event queue. -/
def State.setStw (s : State) (c : Nat) (q : StwSt) : State := { s with aq := { s.aq with stw := mapPut stwDefault s.aq.stw c q } }

/-- R131. Deliver an event to core `c`: a source keeps it pending while the queue of 256 entries is full. -/
def State.sendEvent (s : State) (c : Nat) (e : Ev) : State :=
  let q := s.stw c
  if q.evq.length < 256 ∧ q.held = [] then s.setStw c { q with evq := q.evq ++ [e] } else s.setStw c { q with held := q.held ++ [e] }

/-- Events of four words. -/
def mkEv (a b c d : Nat) : Ev := ⟨BitVec.ofNat 64 a, BitVec.ofNat 64 b, BitVec.ofNat 64 c, BitVec.ofNat 64 d⟩
/-- R165. The doorbell event. -/
def doorbellEv (ring val : Nat) : Ev := mkEv (1 + 256 * ring + 2 ^ 32 * val) 0 0 0
/-- Is it a doorbell event of ring `n`? -/
def isDoorbell (n : Nat) (e : Ev) : Bool := decide (e.w0.toNat % 65536 = 1 + 256 * n)

/-- R400, R401. A doorbell of ring `n` with a value, to core `c`: an untaken one takes the newer value. -/
def State.ring (s : State) (c n val : Nat) : State :=
  let s := s.bump (R.HST_CNT_COUNT 2)
  let q := s.stw c
  if q.evq.any (isDoorbell n) then
    (s.setStw c { q with evq := q.evq.map (fun e => if isDoorbell n e then doorbellEv n val else e) }).bump (R.HST_CNT_COUNT 3)
  else if q.held.any (isDoorbell n) then
    (s.setStw c { q with held := q.held.map (fun e => if isDoorbell n e then doorbellEv n val else e) }).bump (R.HST_CNT_COUNT 3)
  else s.sendEvent c (doorbellEv n val)

/-- R401. A unit of the device rings doorbell `n`. -/
def State.deviceDoorbell (s : State) (n val : Nat) : State :=
  s.ring (if n < 32 then s.get (R.HST_WR_CFG_CORE n) else n % 8) n val

/-- Where the scan-out events of R12 go: every steward core that runs (assumption 20). -/
def State.runningCores (s : State) : List Nat := (List.range 8).filter (fun c => !bitAt (s.get R.STW_STAT_HALTED) c)

end Sys2Proof.Machine
end

