-- ==== Sys2Proof/Machine/Checksum.lean ====
section
/-! DEFINITION. The panel's tiles as the committed registers give them, and the writer's and reader's checksums of the ray
layer (R246, R247). -/
namespace Sys2Proof.Machine

/-! ### Tiles (R186) -/

/-- Is tile `t` present and enabled in the committed SCO_TEN? -/
def State.tileOn (s : State) (t : Nat) : Bool :=
  decide (t < s.member.tiles) && bitAt (if t < 32 then s.getA R.SCO_TEN_LO_EN else s.getA R.SCO_TEN_HI_EN) (t % 32)
/-- The tiles enabled, in tile order. -/
def State.tilesOn (s : State) : List Nat := (List.range 64).filter s.tileOn
/-- The width of tile `t`. -/
def State.tileW (s : State) (t : Nat) : Nat := s.getA (R.SCO_TSIZE_W t)
/-- The number of active lines (R186: the height of every enabled tile). -/
def State.active (s : State) : Nat := s.getA R.SCO_VGEOM_ACTIVE
/-- Band mode is in force (R86). -/
def State.bandMode (s : State) : Bool := s.onA R.SYN_CTL_MODE
/-- R83. The slots of the band ring; a DEPTH outside 4–64 is clamped (assumption 79). -/
def State.ringDepth (s : State) : Nat := clampN 4 64 (s.getA R.SYN_BAND_DEPTH)
/-- R83, R166. The base of a tile's band ring, and its pitch. -/
def State.ringBase (s : State) (t : Nat) : Nat := s.addrOfA (R.SYN_RING_LO_ADDR t) (R.SYN_RING_HI_ADDR t)
/-- The row pitch of a tile's band ring. -/
def State.ringPitch (s : State) (t : Nat) : Nat := s.getA (R.SYN_RING_PITCH_PITCH t)

/-! ### Checksums -/

/-- R246. The term of the word `w` at line `y` and column `x`. -/
def chkTerm (y x w : Nat) : Nat := (w ^^^ (y * 8192 + x) * 0x9E3779B9 % 2 ^ 32) % 2 ^ 32

/-- R246. Where an address lies in the region of a sum: the tile line and column. -/
def ChkBuf.place (b : ChkBuf) (width ctx va : Nat) : Option (Nat × Nat) :=
  if b.ctx ≠ ctx ∨ va < b.base ∨ b.pitch = 0 then none
  else
    let y := (va - b.base) / b.pitch
    let x := (va - b.base) % b.pitch / 4
    if y < b.lines ∧ x < width ∧ (va - b.base) % 4 = 0 then some (b.y0 + y, x) else none

/-- R246, R247. A store of the word `w` at virtual address `va` of context `ctx` adds its term to the sum of the region it
falls in, while CHK_EN is 1. -/
def State.noteStore (s : State) (ctx va w : Nat) : State :=
  if s.on R.PNL_CTL_CHK_EN then
    { s with syn := { s.syn with sums := s.syn.sums.map (fun b =>
        match b.place (s.tileW b.tile) ctx va with
        | some (y, x) => { b with sum := (b.sum + chkTerm y x w) % 2 ^ 32 }
        | none => b) } }
  else s

/-- R247. A region becomes the target of new work: its sum starts afresh. Of one tile's frame-mode regions, the two bases last
used are kept; of a ring slot, the latest band. A region that the same work names already is left as it is (assumption 21). -/
def State.openSum (s : State) (b : ChkBuf) : State :=
  if !s.on R.PNL_CTL_CHK_EN || s.syn.sums.any (fun x => decide (x.tile = b.tile) && decide (x.base = b.base) && decide (x.work = b.work)) then s
  else
    let rest := s.syn.sums.filter (fun x => !(decide (x.tile = b.tile) && decide (x.base = b.base)))
    let mine := rest.filter (fun x => decide (x.tile = b.tile) && decide (x.slot = none))
    let rest := if b.slot = none ∧ 2 ≤ mine.length then
        (match mine with
         | oldest :: _ => rest.filter (fun x => !(decide (x.tile = b.tile) && decide (x.base = oldest.base) && decide (x.slot = none)))
         | [] => rest)
      else rest
    { s with syn := { s.syn with sums := rest ++ [{ b with sum := 0 }] } }

/-- R247. The sum kept for a tile's region, if one is (assumption 21). -/
def State.writerSum (s : State) (tile base : Nat) : Option Nat :=
  (s.syn.sums.find? (fun x => decide (x.tile = tile) && decide (x.base = base))).map ChkBuf.sum

/-- R247. With CHK_EN 0 no sums are kept. -/
def State.chkWritten (s : State) : State := if s.on R.PNL_CTL_CHK_EN then s else { s with syn := { s.syn with sums := [] } }

/-- R246. The aligned 32-bit words of a store. -/
def State.noteBytes (s : State) (ctx va : Nat) (bs : List Byte) : State :=
  foldRange (bs.length / 4) (fun s i => s.noteStore ctx (va + 4 * i) (leAt bs (4 * i) 4)) s

end Sys2Proof.Machine
end

