-- ==== Sys2Proof/Machine/HealthOps.lean ====
section
/-! DEFINITION. What other units ask of the Ledger and of the health unit: records, substitutions and the outcomes of targeted
self-tests (R416, R417, R469–R471). -/
namespace Sys2Proof.Machine

/-- Ask the Watch to enter a record in the Ledger (R469, R471). -/
def State.ledgerAsk (s : State) (cls : Nat) (data : List Nat) : State :=
  { s with ledgerReq := s.ledgerReq ++ [{ cls := cls, flags := 0, data := data }] }

/-- R417. A substitution is counted and recorded. -/
def State.substNote (s : State) (data : List Nat) : State := (s.bump (R.HLT_CNT_COUNT 6)).ledgerAsk 0x21 data

/-- R417. A lasting fault: logged, recorded, shown and raised. -/
def State.lastingFault (s : State) (seq : Nat) (data : List Nat) : State :=
  ((((s.bump (R.HLT_CNT_COUNT 5)).log 21 0 0 0x81 4 seq).ledgerAsk 0x20 data).put R.HLT_STAT_LASTING 1).raise Irq.HLT_LASTING

/-- R416, R417. The outcome of a targeted self-test triggered by the entry `seq`. -/
def State.testOutcome (s : State) (seq : Nat) (lasting : Bool) (data : List Nat) : State :=
  let s := s.bump (R.HLT_CNT_COUNT 3)
  if lasting then s.lastingFault seq data else (s.bump (R.HLT_CNT_COUNT 4)).log 21 0 0 0x80 3 seq

/-! ### The engine clock ceiling (R430, R447) -/

/-- R430, R447. The engine clock ceiling that THM reports: the lower of the thermal ceiling and the ageing ceiling in effect. -/
def State.clkUpdate (s : State) : State := s.put R.THM_CEIL_CLK_NOW (min (s.get R.THM_CEIL_THERM_MHZ) s.hlt.ceil)

/-- R430. At a frame start a change of CEIL_MHZ takes effect. -/
def State.ceilTake (s : State) : State :=
  ({ s with hlt := { s.hlt with ceil := s.get R.HLT_CEIL_CEIL_MHZ } } : State).clkUpdate

/-- R428, R434. AT_CEILING and CLK_LIMITED. -/
def State.limitBits (s : State) : State :=
  let lo := clampN 720 850 (s.get R.HLT_AVSLIM_MIN_MV)
  let hi := max lo (clampN 720 850 (s.get R.HLT_AVSLIM_MAX_MV))
  (s.put R.HLT_STAT_AT_CEILING (b2n (decide (hi ≤ s.get R.HLT_AVS_SET_MV)))).put R.HLT_STAT_CLK_LIMITED (b2n (decide (s.get R.HLT_CEIL_CEIL_MHZ < 1600)))

/-! ### The Watch configuration (R463–R465) -/

/-- Byte `i` of the configuration payload in force. -/
def State.cfgByte (s : State) (i : Nat) : Nat := bitsOf (s.get (R.SPV_CFG_W (i / 4))) (8 * (i % 4)) 8
/-- R464. A configuration is in force, rather than the safe values. -/
def State.cfgValid (s : State) : Bool := s.on R.SPV_STAT_CFG_VALID

/-- R464, R465. The backlight fields of the configuration come into force on a chain: the derating, the lamp policy and ISET_MAX. -/
def State.bklLoad (s : State) (c : Nat) : State :=
  let v := s.cfgValid
  let s := ((s.put R.BKL_DERATE_KNEE (if v then s.cfgByte 0x18 else 70)).put R.BKL_DERATE_SLOPE (if v then s.cfgByte 0x19 else 2)).put R.BKL_DERATE_FLOOR
    (if v then s.cfgByte 0x1A else 40)
  let s := (s.put R.BKL_POLICY_LAMP (if v then s.cfgByte 0x1B else 2)).put R.BKL_POLICY_GSHIFT (if v then s.cfgByte 0x1B / 16 else 0)
  s.put (R.BKL_IMAX_ISET_MAX c) (if v then s.cfgByte (0x1C + 2 * c) + 256 * s.cfgByte (0x1D + 2 * c) else 0)

/-- R465. The thermal fields of the configuration come into force at once. -/
def State.thmLoad (s : State) : State :=
  let v := s.cfgValid
  (((s.put R.THM_THR_HYST (if v then s.cfgByte 0x24 else 4)).put R.THM_SHUT_SHUT (if v then s.cfgByte 0x25 else 132)).put R.THM_SHUT_RESTART_MARGIN
    (if v then s.cfgByte 0x26 else 20)).put R.THM_SHUT_RESTART_S (if v then s.cfgByte 0x27 else 10)

/-- R464, R465. The rail fields are taken for the sequence that starts: RAIL_FIT, D_n and G_n. -/
def State.railLoad (s : State) : State :=
  let v := s.cfgValid
  { s with watch := { s.watch with
      rails := if v then s.cfgByte 0x08 % 16 else 0
      delays := (List.range 4).map (fun n => if v then s.cfgByte (0x09 + n) else 2)
      limits := (List.range 4).map (fun n => if v then s.cfgByte (0x10 + 2 * n) + 256 * s.cfgByte (0x11 + 2 * n) else 50) } }

/-- R490. While a live switch counts them, a frame that is scanned again is a repeat. -/
def State.switchRepeat (s : State) (rep : Bool) : State :=
  if s.fwu.counting && rep then s.put R.FWU_SWSTAT_REPEATS (min 255 (s.get R.FWU_SWSTAT_REPEATS + 1)) else s
/-- R490. The new firmware's first commit ends the count. -/
def State.switchCounted (s : State) : State := { s with fwu := { s.fwu with counting := false } }

/-! ### The Watch (R457, R458, R464, R476, R488) -/

/-- Replace the Watch's state. -/
def State.setWatch (s : State) (x : WatchSt) : State := { s with watch := x }
/-- R469. SP time in ms since manufacture. -/
def State.spNow (s : State) : Nat := s.watch.spMs + tickUs s.watch.spTick s.ticks / 1000

/-- R417, R450, R457, R458, R464, R488. Is FAULT_N asserted: LASTING is 1, no sequencer is in control, the main domain is held by a shutdown,
a brown-out or a Watch fault, no configuration is valid, or the device is in recovery? With the Watch in reset it is released (R506). -/
def State.faultN (s : State) : Bool :=
  match s.watch.held with
  | some c => decide (4 ≤ c) || s.watch.trip || !s.watch.coreOk || (!s.watch.down && !s.cfgValid)
  | none => s.on R.HLT_STAT_LASTING || decide (s.get R.SCO_STAT_SEQ = 2) || !s.cfgValid || decide (s.get R.GLB_BOOT_STAGE = 0xE)

end Sys2Proof.Machine
end

