-- ==== Sys2Proof/Machine/Inflate.lean ====
section
/-! DEFINITION. Checksums and the KPK container: CRC-32C and CRC-32 (R296, R202), the DEFLATE decompressor (R297), chunk
headers and their checks (R295, R296, R303), and the compressor's output as the spec bounds it (R297, R298). -/
namespace Sys2Proof.Machine

/-! ### CRC (R296, R202) -/

/-- One bit of a reflected CRC-32 with polynomial `poly`. -/
def crcBit (poly c : Nat) : Nat := if c % 2 = 1 then (c / 2) ^^^ poly else c / 2
/-- `n` bits of a reflected CRC-32. -/
def crcBits (poly : Nat) : Nat → Nat → Nat
  | 0, c => c
  | n + 1, c => crcBits poly n (crcBit poly c)
/-- One byte of a reflected CRC-32. -/
def crcByte (poly c : Nat) (b : Byte) : Nat := crcBits poly 8 (c ^^^ b.toNat)
/-- A reflected CRC-32 running over bytes. -/
def crcRun (poly c : Nat) (bs : List Byte) : Nat := bs.foldl (crcByte poly) c
/-- R296. CRC-32C: Castagnoli polynomial 0x1EDC6F41 reflected, initial value and final inversion 0xFFFFFFFF. -/
def crc32c (bs : List Byte) : Nat := crcRun 0x82F63B78 0xFFFFFFFF bs ^^^ 0xFFFFFFFF
/-- R202. CRC-32 of IEEE 802.3 with the same initial value and final inversion. -/
def crc32 (bs : List Byte) : Nat := crcRun 0xEDB88320 0xFFFFFFFF bs ^^^ 0xFFFFFFFF

/-! ### DEFLATE (R297, RFC 1951) -/

/-- A bit reader: the bytes not yet taken, and the bits of the byte begun, least significant first. -/
structure Bits where
  rest : List Byte
  buf : Nat
  cnt : Nat
  deriving DecidableEq, Repr

/-- R303. What a decompressor error is. -/
inductive InfErr where
  /-- SYNTAX. -/
  | malformed
  /-- SIZE: the stream runs past its bytes or over its original length, or ends early. -/
  | size
  deriving DecidableEq, Repr

/-- The next bit. -/
def Bits.bit (b : Bits) : Except InfErr (Nat × Bits) :=
  match b.cnt with
  | c + 1 => .ok (b.buf % 2, { b with buf := b.buf / 2, cnt := c })
  | 0 => match b.rest with
    | [] => .error .size
    | x :: xs => .ok (x.toNat % 2, { rest := xs, buf := x.toNat / 2, cnt := 7 })

/-- The next `n` bits, the first the least significant. -/
def Bits.take : Nat → Bits → Except InfErr (Nat × Bits)
  | 0, b => .ok (0, b)
  | n + 1, b => match b.bit with
    | .error e => .error e
    | .ok (x, b) => match Bits.take n b with
      | .error e => .error e
      | .ok (y, b) => .ok (x + 2 * y, b)

/-- A canonical Huffman code: how many codes have each length 1–15, and the symbols in code order. -/
structure Huff where
  counts : List Nat
  syms : List Nat
  deriving DecidableEq, Repr

/-- The code of a list of lengths; none where the lengths are over-subscribed. -/
def huffOf (lens : List Nat) : Option Huff :=
  let idx := lens.zip (List.range lens.length)
  let count := fun l => (lens.filter (fun x => decide (x = l))).length
  let counts := (List.range 15).map (fun l => count (l + 1))
  let left := counts.foldl (fun (o : Int) c => 2 * o - (c : Int)) 1
  let bad := (List.range 15).any (fun l => decide (((counts.take (l + 1)).foldl (fun (o : Int) c => 2 * o - (c : Int)) 1) < 0))
  if bad || decide (left < 0) then none
  else some ⟨counts, (List.range 15).flatMap (fun l => (idx.filter (fun p => decide (p.1 = l + 1))).map (·.2))⟩

/-- Decode one symbol: `code` of the bits read so far, `first` code and `index` of the present length. -/
def huffDecode (syms : List Nat) : List Nat → Nat → Nat → Nat → Bits → Except InfErr (Nat × Bits)
  | [], _, _, _, _ => .error .malformed
  | c :: cs, code, first, index, b =>
    match b.bit with
    | .error e => .error e
    | .ok (x, b) =>
      let code := 2 * code + x
      let first := 2 * first
      if code < first + c then
        (match syms[index + (code - first)]? with
         | some y => .ok (y, b)
         | none => .error .malformed)
      else huffDecode syms cs code (first + c) (index + c) b

/-- The next symbol of a code. -/
def Huff.next (h : Huff) (b : Bits) : Except InfErr (Nat × Bits) := huffDecode h.syms h.counts 0 0 0 b

/-- Base length and extra bits of length symbol 257 + i. -/
def lenTab : List (Nat × Nat) :=
  [(3, 0), (4, 0), (5, 0), (6, 0), (7, 0), (8, 0), (9, 0), (10, 0), (11, 1), (13, 1), (15, 1), (17, 1), (19, 2), (23, 2), (27, 2),
   (31, 2), (35, 3), (43, 3), (51, 3), (59, 3), (67, 4), (83, 4), (99, 4), (115, 4), (131, 5), (163, 5), (195, 5), (227, 5), (258, 0)]
/-- Base distance and extra bits of distance symbol i. -/
def distTab : List (Nat × Nat) :=
  [(1, 0), (2, 0), (3, 0), (4, 0), (5, 1), (7, 1), (9, 2), (13, 2), (17, 3), (25, 3), (33, 4), (49, 4), (65, 5), (97, 5), (129, 6),
   (193, 6), (257, 7), (385, 7), (513, 8), (769, 8), (1025, 9), (1537, 9), (2049, 10), (3073, 10), (4097, 11), (6145, 11),
   (8193, 12), (12289, 12), (16385, 13), (24577, 13)]

/-- Copy `n` bytes from `d` back; the output is held newest first. -/
def copyBack (d : Nat) : Nat → List Byte → List Byte
  | 0, out => out
  | n + 1, out => copyBack d n (out.getD (d - 1) 0 :: out)

/-- The symbols of one block; `fuel` bounds the symbols, each of which takes at least one bit. -/
def inflateSyms (lit dist : Huff) : Nat → Bits → List Byte → Except InfErr (Bits × List Byte)
  | 0, _, _ => .error .size
  | fuel + 1, b, out =>
    match lit.next b with
    | .error e => .error e
    | .ok (y, b) =>
      if y < 256 then inflateSyms lit dist fuel b (BitVec.ofNat 8 y :: out)
      else if y = 256 then .ok (b, out)
      else match lenTab[y - 257]? with
        | none => .error .malformed
        | some (base, ex) => match Bits.take ex b with
          | .error e => .error e
          | .ok (x, b) => match dist.next b with
            | .error e => .error e
            | .ok (z, b) => match distTab[z]? with
              | none => .error .malformed
              | some (dbase, dex) => match Bits.take dex b with
                | .error e => .error e
                | .ok (w, b) =>
                  if out.length < dbase + w then .error .malformed
                  else inflateSyms lit dist fuel b (copyBack (dbase + w) (base + x) out)

/-- The fixed literal code. -/
def fixedLit : List Nat := List.replicate 144 8 ++ List.replicate 112 9 ++ List.replicate 24 7 ++ List.replicate 8 8

/-- The order in which code-length code lengths are sent. -/
def clOrder : List Nat := [16, 17, 18, 0, 8, 7, 9, 6, 10, 5, 11, 4, 12, 3, 13, 2, 14, 1, 15]

/-- Read `n` three-bit lengths. -/
def readTriples : Nat → Bits → Except InfErr (List Nat × Bits)
  | 0, b => .ok ([], b)
  | n + 1, b => match Bits.take 3 b with
    | .error e => .error e
    | .ok (x, b) => match readTriples n b with
      | .error e => .error e
      | .ok (xs, b) => .ok (x :: xs, b)

/-- Read `want` code lengths with the code-length code; the list is held newest first. -/
def readLens (cl : Huff) (want : Nat) : Nat → Bits → List Nat → Except InfErr (List Nat × Bits)
  | 0, _, _ => .error .malformed
  | fuel + 1, b, acc =>
    if want < acc.length then .error .malformed
    else if acc.length = want then .ok (acc.reverse, b)
    else match cl.next b with
      | .error e => .error e
      | .ok (y, b) =>
        if y < 16 then readLens cl want fuel b (y :: acc)
        else
          let spec := if y = 16 then (2, 3) else if y = 17 then (3, 3) else (7, 11)
          match y, acc with
          | 16, [] => .error .malformed
          | _, _ => match Bits.take spec.1 b with
            | .error e => .error e
            | .ok (x, b) => readLens cl want fuel b (List.replicate (spec.2 + x) (if y = 16 then acc.headD 0 else 0) ++ acc)

/-- The codes of a dynamic block. -/
def readCodes (b : Bits) : Except InfErr (Huff × Huff × Bits) :=
  match Bits.take 14 b with
  | .error e => .error e
  | .ok (x, b) =>
    let hlit := x % 32 + 257
    let hdist := x / 32 % 32 + 1
    let hclen := x / 1024 + 4
    match readTriples hclen b with
    | .error e => .error e
    | .ok (ls, b) =>
      let cl := (List.range 19).map (fun sym => match findIdx (fun o => decide (o = sym)) clOrder with
        | some i => ls.getD i 0
        | none => 0)
      match huffOf cl with
      | none => .error .malformed
      | some h => match readLens h (hlit + hdist) (hlit + hdist + 1) b [] with
        | .error e => .error e
        | .ok (lens, b) =>
          match huffOf (lens.take hlit), huffOf (lens.drop hlit) with
          | some l, some d => .ok (l, d, b)
          | _, _ => .error .malformed

/-- A stored block: LEN, NLEN and the bytes, from the next byte boundary. -/
def storedBlock (b : Bits) (out : List Byte) : Except InfErr (Bits × List Byte) :=
  let len := leAt b.rest 0 2
  if b.rest.length < 4 then .error .size
  else if len + leAt b.rest 2 2 ≠ 65535 then .error .malformed
  else if b.rest.length < 4 + len then .error .size
  else .ok (⟨b.rest.drop (4 + len), 0, 0⟩, ((b.rest.drop 4).take len).reverse ++ out)

/-- The blocks of a stream up to the final one; `fuel` bounds the blocks and the symbols of each. -/
def inflateBlocks (symFuel : Nat) : Nat → Bits → List Byte → Except InfErr (Bits × List Byte)
  | 0, _, _ => .error .size
  | fuel + 1, b, out =>
    match Bits.take 3 b with
    | .error e => .error e
    | .ok (x, b) =>
      let r : Except InfErr (Bits × List Byte) :=
        match x / 2 with
        | 0 => storedBlock b out
        | 1 => (match huffOf fixedLit, huffOf (List.replicate 30 5) with
          | some l, some d => inflateSyms l d symFuel b out
          | _, _ => .error .malformed)
        | 2 => (match readCodes b with
          | .error e => .error e
          | .ok (l, d, b) => inflateSyms l d symFuel b out)
        | _ => .error .malformed
      match r with
      | .error e => .error e
      | .ok (b, out) => if x % 2 = 1 then .ok (b, out) else inflateBlocks symFuel fuel b out

/-- R297, R303. Inflate one raw DEFLATE stream that must fill its bytes, with zero bits after its end, and give `olen` bytes. -/
def inflate (data : List Byte) (olen : Nat) : Except InfErr (List Byte) :=
  match inflateBlocks (8 * data.length + 1) (8 * data.length + 1) ⟨data, 0, 0⟩ [] with
  | .error e => .error e
  | .ok (b, out) => if b.rest ≠ [] ∨ b.buf ≠ 0 ∨ out.length ≠ olen then .error .size else .ok out.reverse

/-! ### KPK chunks (R295, R296, R303) -/

/-- R296. A chunk header. -/
structure ChunkHdr where
  last : Bool
  stored : Bool
  olen : Nat
  clen : Nat
  dcrc : Nat
  index : Nat
  deriving DecidableEq, Repr

/-- R296, R303. Parse a chunk header of 32 bytes; `expect` is the INDEX it must carry, if any. The error is the STATUS code. -/
def parseChunk (bs : List Byte) (expect : Option Nat) : Except Nat ChunkHdr :=
  let f := leAt bs 5 1
  let stored := bitAt f 1
  let last := bitAt f 0
  let olen := leAt bs 8 4
  let clen := leAt bs 12 4
  if bs.length < 32 then .error 0x25
  else if leAt bs 0 3 ≠ 0x4B504B ∨ leAt bs 3 1 ≠ 1 ∨ leAt bs 28 4 ≠ crc32c (bs.take 28) ∨ 4 ≤ f ∨ leAt bs 6 2 ≠ 0 ∨ leAt bs 24 4 ≠ 0 ∨
    leAt bs 4 1 < 1 ∨ 9 < leAt bs 4 1 then .error 0x20
  else if olen < 1 ∨ 65536 < olen ∨ (stored ∧ clen ≠ olen) ∨ clen < 1 ∨ 65536 < clen ∨ (olen < 65536 ∧ ¬ last) ∨
    (expect.any (fun i => decide (leAt bs 20 4 ≠ i))) then .error 0x21
  else .ok { last := last, stored := stored, olen := olen, clen := clen, dcrc := leAt bs 16 4, index := leAt bs 20 4 }

/-- R297, R303. The original bytes of a chunk from its data, or the STATUS code. -/
def chunkBytes (h : ChunkHdr) (data : List Byte) : Except Nat (List Byte) :=
  let raw : Except Nat (List Byte) := if h.stored then .ok data else
    (match inflate data h.olen with
     | .ok o => .ok o
     | .error .malformed => .error 0x22
     | .error .size => .error 0x23)
  match raw with
  | .error e => .error e
  | .ok o => if crc32c o = h.dcrc then .ok o else .error 0x24

/-- R295. Round up to a multiple of 16. -/
def up16 (n : Nat) : Nat := (n + 15) / 16 * 16

/-- R295, R306. The chunks of a whole container: position of the data and header, up to LAST; the bytes must end there. -/
def kpkIndex (bs : List Byte) : Nat → Nat → Nat → Except Nat (List (Nat × ChunkHdr))
  | 0, _, _ => .error 0x25
  | fuel + 1, pos, k =>
    match parseChunk ((bs.drop pos).take 32) (some k) with
    | .error e => .error e
    | .ok h =>
      let fin := pos + 32 + h.clen
      if bs.length < fin then .error 0x25
      else if h.last then (if fin = bs.length then .ok [(pos + 32, h)] else .error 0x23)
      else match kpkIndex bs fuel (up16 fin) (k + 1) with
        | .error e => .error e
        | .ok more => .ok ((pos + 32, h) :: more)

/-- R296. The 32 bytes of a chunk header. -/
def chunkHeader (level : Nat) (last stored : Bool) (olen clen dcrc index : Nat) : List Byte :=
  let b := leBytes 3 0x4B504B ++ leBytes 1 1 ++ leBytes 1 level ++ leBytes 1 (b2n last + 2 * b2n stored) ++ zeros 2 ++
    leBytes 4 olen ++ leBytes 4 clen ++ leBytes 4 dcrc ++ leBytes 4 index ++ zeros 4
  b ++ leBytes 4 (crc32c b)

/-! ### The compressor (R297, R298) -/

/-- One element of a DEFLATE block: a byte, or a copy of earlier bytes. -/
inductive Tok where
  | lit (b : Byte)
  | copy (len dist : Nat)
  deriving DecidableEq, Repr

/-- How many original bytes an element stands for. -/
def Tok.bytes : Tok → Nat
  | .lit _ => 1
  | .copy n _ => n

/-- The number of leading bytes in which two lists agree, up to a limit. -/
def agree : Nat → List Byte → List Byte → Nat
  | 0, _, _ => 0
  | _, [], _ => 0
  | _, _, [] => 0
  | n + 1, a :: as, b :: bs => if a = b then 1 + agree n as bs else 0

/-- R298. How many earlier positions a level examines. -/
def chainDepth (level : Nat) : Nat := [0, 4, 8, 16, 32, 64, 128, 256, 1024, 4096].getD level 4096

/-- R298. The distances of the earlier positions of the hash chain that a level examines, the nearest first: positions of the chunk,
within DEFLATE's 32,768 bytes, whose next three bytes are those at `pos` (assumption 7). -/
def chainOf (level : Nat) (orig : List Byte) (pos : Nat) : List Nat :=
  let key := (orig.drop pos).take 3
  if key.length < 3 then []
  else (((List.range (min pos 32768)).map (· + 1)).filter (fun d => decide ((orig.drop (pos - d)).take 3 = key))).take (chainDepth level)

/-- R298. The match taken at a position, as length and distance: the first found that is as long as any examined; length 0 for none. -/
def matchAt (level : Nat) (orig : List Byte) (pos : Nat) : Nat × Nat :=
  (chainOf level orig pos).foldl (fun (best : Nat × Nat) d =>
    let n := agree 258 (orig.drop (pos - d)) (orig.drop pos)
    if best.1 < n then (n, d) else best) (0, 0)

/-- R298. The elements from `pos` on: levels 4–9 also try the next position once, and keep its match when it is longer. `fuel` bounds the
elements. -/
def parseFrom (level : Nat) (orig : List Byte) : Nat → Nat → List Tok
  | 0, _ => []
  | fuel + 1, pos =>
    match orig[pos]? with
    | none => []
    | some b =>
      let m := matchAt level orig pos
      let next := matchAt level orig (pos + 1)
      if m.1 = 0 then .lit b :: parseFrom level orig fuel (pos + 1)
      else if 4 ≤ level ∧ m.1 < next.1 then .lit b :: .copy next.1 next.2 :: parseFrom level orig fuel (pos + 1 + next.1)
      else .copy m.1 m.2 :: parseFrom level orig fuel (pos + m.1)

/-- The elements of a chunk. -/
def parseChunkBytes (level : Nat) (orig : List Byte) : List Tok := parseFrom level orig orig.length 0

/-- `n` bits of a number, the least significant first. -/
def bitsLow (n x : Nat) : List Bool := (List.range n).map (fun i => bitAt x i)

/-- The bits of a symbol's code, its most significant bit first: the code of place `i` in the code order. -/
def codeBits : List Nat → Nat → Nat → Nat → Nat → Option (List Bool)
  | [], _, _, _, _ => none
  | c :: cs, len, first, index, i =>
    if i < index + c then some (bitsLow len (2 * first + (i - index))).reverse
    else codeBits cs (len + 1) (2 * first + c) (index + c) i

/-- The bits that a code gives a symbol. -/
def Huff.bits (h : Huff) (y : Nat) : Option (List Bool) :=
  match findIdx (fun x => decide (x = y)) h.syms with
  | some i => codeBits h.counts 1 0 0 i
  | none => none

/-- The symbol, the number of extra bits and their value for a length or a distance: the last row of its table not above it. -/
def rowFor (tab : List (Nat × Nat)) (n : Nat) : Nat × Nat × Nat :=
  let i := ((List.range tab.length).filter (fun i => decide ((tab.getD i (0, 0)).1 ≤ n))).getLastD 0
  (i, (tab.getD i (0, 0)).2, n - (tab.getD i (0, 0)).1)

/-- The bits of an element under a block's codes. -/
def Tok.bits (l d : Huff) : Tok → Option (List Bool)
  | .lit b => l.bits b.toNat
  | .copy n k =>
    let a := rowFor lenTab n
    let b := rowFor distTab k
    match l.bits (257 + a.1), d.bits b.1 with
    | some x, some y => some (x ++ bitsLow a.2.1 a.2.2 ++ y ++ bitsLow b.2.1 b.2.2)
    | _, _ => none

/-- The bits of the elements of a block and of its end. -/
def tokBits (l d : Huff) : List Tok → Option (List Bool)
  | [] => l.bits 256
  | t :: ts => match t.bits l d, tokBits l d ts with
    | some x, some y => some (x ++ y)
    | _, _ => none

/-- R297. The elements of the next block, up to a number of original bytes, and the rest; the first always belongs to it. -/
def cutBlock (limit : Nat) : List Tok → List Tok × List Tok
  | [] => ([], [])
  | t :: ts =>
    let left := limit - t.bytes
    if (ts.headD t).bytes ≤ left then let p := cutBlock left ts; (t :: p.1, p.2) else ([t], ts)

/-- Bits to bytes, the first bit the least significant; the last byte is filled up with zeros. `fuel` bounds the bytes. -/
def packBits : Nat → List Bool → List Byte
  | 0, _ => []
  | _, [] => []
  | n + 1, bs => BitVec.ofNat 8 (((List.range 8).foldl (fun a i => a + (if bs.getD i false then 2 ^ i else 0)) 0)) :: packBits n (bs.drop 8)

/-- R297. The bits of a chunk's dynamic-Huffman blocks, each of 16,384 original bytes at most; `fuel` bounds the blocks. -/
def blockBits (level : Nat) : Nat → List Byte → List Tok → Option (List Bool)
  | 0, _, _ => none
  | fuel + 1, orig, toks =>
    let cut := cutBlock (clampN 1 16384 (Config.blockBytes level orig)) toks
    let codes := Config.blockCodes level orig
    match readCodes ⟨packBits codes.length codes, 0, 0⟩ with
    | .error _ => none
    | .ok (l, d, _) => match tokBits l d cut.1 with
      | none => none
      | some body =>
        let bits := bitsLow 3 (b2n (decide (cut.2 = [])) + 4) ++ codes ++ body
        if cut.2 = [] then some bits
        else (blockBits level fuel (orig.drop ((cut.1.map Tok.bytes).foldl (· + ·) 0)) cut.2).map (bits ++ ·)

/-- R297, R298. The stream that the compressor makes of a chunk's original bytes at a level, if its codes serve. -/
def deflate (level : Nat) (orig : List Byte) : Option (List Byte) :=
  (blockBits level (orig.length + 1) orig (parseChunkBytes level orig)).map (fun bs => packBits bs.length bs)

/-- R297, R298. What the compressor makes of a chunk's original bytes: a DEFLATE stream that decodes to them and is shorter, else
the bytes STORED (assumption 7). -/
def packChunk (level : Nat) (orig : List Byte) : Bool × List Byte :=
  match deflate level orig with
  | some c => if c.length < orig.length ∧ inflate c orig.length = .ok orig then (false, c) else (true, orig)
  | none => (true, orig)

end Sys2Proof.Machine
end

