-- ==== Sys2Proof/Machine/Ledger.lean ====
section
/-! DEFINITION. The Ledger: its records, admission, sector compaction, what a start reads back from it, and CREDIT's clock (R469–R472). -/
namespace Sys2Proof.Machine

/-! ### Reading (R470–R472) -/

/-- How many records after `r` the Ledger has seen. -/
def State.ledgerAge (s : State) (r : LedgerRec) : Nat := subMod 32 (s.get R.SPV_LHEAD_SEQ) r.seq

/-- The records of a class, in no particular order. -/
def State.ledgerOf (s : State) (cls : Nat) : List LedgerRec := (s.flash.ledger.map (·.2)).filter (fun r => decide (r.cls = cls))

/-- The younger of two records. -/
def State.younger (s : State) (best : Option LedgerRec) (r : LedgerRec) : Option LedgerRec :=
  match best with
  | none => some r
  | some b => if s.ledgerAge r < s.ledgerAge b then some r else some b

/-- R470. The DATA of the latest record of a class that meets a condition; one that waits in the Watch's SRAM is later than any entered. -/
def State.ledgerLast (s : State) (cls : Nat) (p : List Nat → Bool) : Option (List Nat) :=
  match (s.ledgerReq.reverse.find? (fun r => decide (r.cls = cls) && p r.data)) with
  | some r => some r.data
  | none => (((s.ledgerOf cls).filter (fun r => p r.data)).foldl s.younger none).map (·.data)

/-- R470, R471. Is the record carried forward when its sector is erased? -/
def State.ledgerKeeps (s : State) (r : LedgerRec) : Bool :=
  let latest := fun (p : LedgerRec → Bool) => (s.ledgerOf r.cls).all (fun x => !p x || decide (s.ledgerAge r ≤ s.ledgerAge x))
  match r.cls with
  | 0x04 => s.on R.THM_SHSTAT_LATCHED_OFF && latest (fun _ => true)
  | 0x10 | 0x11 | 0x23 | 0x24 | 0x28 | 0x43 => latest (fun _ => true)
  | 0x22 | 0x26 => true
  | 0x27 => latest (fun x => decide (x.data.getD 0 0 = r.data.getD 0 0))
  | _ => false

/-! ### Writing (R469, R471) -/

/-- R469. Slots of the Ledger: 30 sectors of 1,024 records. -/
def ledgerSlots : Nat := 30720

/-- R469. A record goes to the head. -/
def State.ledgerAppend (s : State) (r : LedgerRec) : State :=
  let r := { r with seq := s.get R.SPV_LHEAD_SEQ }
  (({ s with flash := { s.flash with ledger := tabPut s.flash.ledger s.watch.slot r } } : State).setWatch
    { s.watch with slot := (s.watch.slot + 1) % ledgerSlots }).bump R.SPV_LHEAD_SEQ

/-- R470. When DAILY records reach 512, every second one with POH ≥ 168 goes. -/
def State.dropDaily (s : State) : State :=
  if (s.ledgerOf 0x26).length < 512 then s
  else
    let go := s.flash.ledger.foldl (fun (a : Bool × List Nat) p =>
      if p.2.cls = 0x26 ∧ 168 ≤ p.2.data.getD 0 0 then (!a.1, if a.1 then p.1 :: a.2 else a.2) else a) (false, [])
    { s with flash := { s.flash with ledger := s.flash.ledger.filter (fun p => !(go.2.contains p.1)) } }

/-- R471. A sector is erased after its kept records are taken; they go to the head. -/
def State.compactSector (s : State) (sec : Nat) : State :=
  let s := s.dropDaily
  let kept := (s.flash.ledger.filter (fun p => decide (p.1 / 1024 = sec) && s.ledgerKeeps p.2)).map (·.2)
  let s : State := { s with flash := { s.flash with ledger := s.flash.ledger.filter (fun p => decide (p.1 / 1024 ≠ sec)), erases := s.flash.erases + 1 } }
  kept.foldl State.ledgerAppend (s.put R.SPV_LERASE_COUNT s.flash.erases)

/-- Is a sector erased? -/
def State.sectorErased (s : State) (sec : Nat) : Bool := !(s.flash.ledger.any (fun p => decide (p.1 / 1024 = sec)))

/-- R469, R471. The Watch enters a record: at the start of a sector that is not erased, that sector is compacted first. -/
def State.ledgerWrite (s : State) (cls flags : Nat) (data : List Nat) : State :=
  let s := if s.watch.slot % 1024 = 0 && !s.sectorErased (s.watch.slot / 1024) then s.compactSector (s.watch.slot / 1024) else s
  s.ledgerAppend { cls := cls, flags := flags, seq := 0, sp := s.spNow, ptp := if s.watch.held.isNone then s.ptpNs else 0, data := data }

/-- R471. SECTOR_COMPACTION: the sector after the head's, the oldest, is erased unless it is erased already. -/
def execSectorCompaction (s : State) : Host.Outcome State Fault Refusal :=
  .next (
    let sec := (s.watch.slot / 1024 + 1) % 30
    if s.watch.down || s.sectorErased sec then s else s.compactSector sec)

/-- R471. The records that may be taken in at once: one more in each second, 256 at most. -/
def State.ledgerRefill (s : State) : State :=
  let sec := s.spNow / 1000
  s.setWatch { s.watch with tokens := min 256 (s.watch.tokens + (sec - s.watch.tokenAt)), tokenAt := sec }

/-- R471. One SKIPPED record a second carries the count of the records passed over. -/
def State.ledgerSkips (s : State) : State :=
  if 0 < s.watch.skipped ∧ s.watch.skipAt < s.spNow / 1000 then
    (s.ledgerWrite 0x44 0 [s.watch.skipped]).setWatch { (s.ledgerWrite 0x44 0 [s.watch.skipped]).watch with skipped := 0, skipAt := s.spNow / 1000 }
  else s

/-- R471. The oldest record that waits is taken in, or counted into SKIPPED. -/
def State.ledgerTake (s : State) : State :=
  if s.watch.down then s
  else
    let s := s.ledgerRefill.ledgerSkips
    match s.ledgerReq with
    | [] => s
    | r :: rest =>
      let s : State := { s with ledgerReq := rest }
      if 0x20 ≤ r.cls ∧ r.cls ≤ 0x28 ∧ s.watch.tokens = 0 then s.setWatch { s.watch with skipped := s.watch.skipped + 1 }
      else
        let s := s.ledgerWrite r.cls r.flags r.data
        s.setWatch { s.watch with tokens := s.watch.tokens - 1 }

/-! ### Records as bytes (R469, R472) -/

/-- R469. The 64 bytes of a record. -/
def LedgerRec.bytes (r : LedgerRec) : List Byte :=
  let b := leBytes 2 0x474C ++ [BitVec.ofNat 8 r.cls, BitVec.ofNat 8 r.flags] ++ leBytes 4 r.seq ++ leBytes 8 r.sp ++ leBytes 8 r.ptp ++
    (Config.ledgerData r.cls r.data ++ zeros 36).take 36
  b ++ leBytes 4 (crc32c b)

/-- R472. The valid records from a starting SEQ on, in SEQ order, `n` of them at most. -/
def State.ledgerFrom (s : State) (start : Nat) : Nat → List LedgerRec
  | 0 => []
  | n + 1 =>
    let mine := (s.flash.ledger.map (·.2)).filter (fun r => decide (s.ledgerAge r ≤ subMod 32 (s.get R.SPV_LHEAD_SEQ) start))
    match mine.foldl (fun (b : Option LedgerRec) r => match b with
        | none => some r
        | some x => if s.ledgerAge x < s.ledgerAge r then some r else some x) none with
    | none => []
    | some r => r :: s.ledgerFrom (r.seq + 1) n

/-! ### What a start of the main domain reads back (R431, R436, R455, R476) -/

/-- R433, R434. The powered hours. -/
def State.pohLoad (s : State) : State := s.put R.HLT_POH_HOURS (match s.ledgerLast 0x28 (fun _ => true) with
  | some d => d.getD 0 0
  | none => 0)

/-- R431. The setpoint and the ceiling last recorded, or 750 mV and 1,600 MHz. -/
def State.planLoad (s : State) : State :=
  let mv := match s.ledgerLast 0x23 (fun _ => true) with
    | some d => d.getD 0 750
    | none => 750
  let mhz := match s.ledgerLast 0x24 (fun _ => true) with
    | some d => d.getD 0 1600
    | none => 1600
  (((s.put R.HLT_AVS_SET_MV mv).put R.HLT_CEIL_CEIL_MHZ mhz).ceilTake).limitBits

/-- R455. The trims in force. -/
def State.trimLoad (s : State) : State :=
  foldRange 40 (fun s n => match s.ledgerLast 0x27 (fun d => decide (d.getD 0 40 = n)) with
    | some d => s.put (R.THM_TRIM_OFS n) (d.getD 1 0)
    | none => s) s

/-- R252. The highest G in the last HOLD_DONE record, whose entries are tile, GEN and CRC. -/
def maxGen : List Nat → Nat
  | _ :: g :: _ :: rest => max g (maxGen rest)
  | _ => 0
/-- R250. The entries of a HOLD_DONE record: tile, GEN and CRC. -/
def holdEntries : List Nat → List (Nat × Nat × Nat)
  | t :: g :: c :: rest => (t, g, c) :: holdEntries rest
  | _ => []
/-- R251, R252. The last HOLD_DONE record: its entries, and PNL_HGEN. -/
def State.hgenLoad (s : State) : State :=
  let d := (s.ledgerLast 0x11 (fun _ => true)).getD []
  ({ s with pnl := { s.pnl with entries := holdEntries d } } : State).put R.PNL_HGEN_GEN (maxGen d)

/-- R476. The values stated as coming from the Ledger are reloaded. -/
def State.ledgerReload (s : State) : State := s.pohLoad.planLoad.trimLoad.hgenLoad

/-- R470. POH: a powered hour has passed. -/
def execPoh (s : State) : Host.Outcome State Fault Refusal :=
  .next (
    if s.spNow < s.watch.hourAt + 3600000 then s
    else
      let s := (s.setWatch { s.watch with hourAt := s.watch.hourAt + 3600000 }).bump R.HLT_POH_HOURS
      s.ledgerAsk 0x28 [s.get R.HLT_POH_HOURS])

end Sys2Proof.Machine
end

