-- ==== Sys2Proof/Machine/Reset.lean ====
section
/-! DEFINITION. Resets: what the main-domain reset leaves, how the Watch holds and loses the main domain, and the Watch's own reset and
faults (R240, R267, R450, R457, R476, R512). -/
namespace Sys2Proof.Machine

/-! ### What a main-domain reset keeps (R252, R265, R454, R475, R476) -/

/-- R265, R452, R494. Bits that the Watch or the flash holds besides LK fields: BKL_STAT.CHAIN_FAULT and BLANKED, the counts of shutdowns,
trips and restarts in THM_CNT, and FWU_DIR (assumption 42). -/
def heldBits (a : Nat) : Nat :=
  if a = 0xF0004 then 0xFF0
  else if 0x171414 ≤ a ∧ a ≤ 0x17141C then 0xFFFFFFFF
  else if a = 0x190020 then 0xFFFFFFFF
  else 0

/-- R5. The bits of LK fields of a word. -/
def lkBits : List FieldRow → Nat
  | [] => 0
  | f :: fs => (if f.typ = .lk then (2 ^ f.width - 1) * 2 ^ f.lsb else 0) ||| lkBits fs

/-- The bits of the register at a BAR0 offset that a main-domain reset keeps. -/
def keptBits (a : Nat) : Nat :=
  heldBits a ||| (match regRow a with
    | some r => lkBits r.1.fields
    | none => 0)

/-- The registers as a main-domain reset leaves them. -/
def State.keptRegs (s : State) : List (Nat × Word) :=
  s.regs.foldr (fun p m =>
    let k := BitVec.ofNat 32 (keptBits p.1)
    let d := wordDefault s.member p.1
    mapPut (wordDefault s.member) m p.1 ((p.2 &&& k) ||| (d &&& ~~~k))) []

/-- R265. What the Watch keeps of a chain: failures stay in force. -/
def ChainSt.kept (x : ChainSt) : ChainSt :=
  { drivers := [], sent := none, busy := false, urgent := false, discovering := false, discoverDue := false, found := false, done := false,
    failed := x.failed, chainFailed := x.chainFailed, lampDue := x.lampDue, again := x.chainFailed }

/-- R135, R476, R506. A main-domain reset: the contents of HBM, local stores and constant buffers are undefined, PTP time is 0, and everything but the Watch, its registers, the flash and
the pins takes its reset value. The lane drivers go idle. -/
def State.mainReset (s : State) : State :=
  let s' : State := { State.reset with
    member := s.member
    pending := s.pending
    regs := s.keptRegs
    snap := s.snap.filter (fun p => decide (p.1 / 0x10000 = 1))
    mem := putCells [] ((Config.freeCells s.freeCtr).filter (fun c => decide (c.1 < hbmTop)))
    hostMem := s.hostMem
    aq := { State.reset.aq with
      threads := s.aq.threads.filter (fun p => decide (p.1 = 1032))
      lstore := putCells [] ((Config.freeCells (s.freeCtr + 1)).filter (fun c => decide (c.1 < 2 ^ 26)))
      constBuf := putCells [] ((Config.freeCells (s.freeCtr + 2)).filter (fun c => decide (c.1 < 2 ^ 20)))
      wsram := s.aq.wsram }
    pnl := { State.reset.pnl with rail := s.pnl.rail, offWaits := s.pnl.offWaits, blocked := s.pnl.blocked }
    bkl := { State.reset.bkl with chains := (s.bkl.chains.map (fun p => (p.1, p.2.kept))).filter (fun p => decide (p.2.failed ≠ []) || p.2.chainFailed) }
    thm := s.thm
    watch := s.watch
    flash := s.flash
    otp := s.otp
    pins := s.pins
    ledgerReq := s.ledgerReq
    out := s.ports.foldr (fun p out => Out.lanes p.1 (List.range 5) false :: out) s.out
    freeCtr := s.freeCtr + 3
    ticks := s.ticks }
  (s'.put R.GPIO_IN_IN s.pins.gpio).ledgerReload

/-- R476. The CAUSE that the release will show: a cold start keeps its own, and otherwise the source that came last counts (assumption 43). -/
def holdCause (held : Option Nat) (cause : Nat) : Nat :=
  match held with
  | some 0 => 0
  | some 6 => 6
  | _ => cause

/-- R476. The main domain is reset and held for a CAUSE. -/
def State.holdMain (s : State) (cause : Nat) : State :=
  let s' := s.mainReset
  s'.setWatch { s'.watch with held := some (holdCause s.watch.held cause), heldAt := s.ticks }

/-! ### Panel rails that fall at once (R240, R450, R457, R512) -/

/-- R240. Every enable is lowered in descending order without the delays; a sequence under way is over. -/
def State.railsDrop (s : State) (state : Nat) : State :=
  ({ s with pnl := { s.pnl with rail := 0, offWaits := false } } : State).put R.PNL_PWRSTAT_EN 0 |>.put R.PNL_PWRSTAT_STATE state

/-! ### Resets of the Watch (R457, R476, R512) -/

/-- R457, R476. The Watch is reset with the main domain: its registers, its SRAM's working state and its thread take their reset values. A
Watch fault keeps the state of R450 to R452 and the records that wait. -/
def State.watchReset (s : State) (cause : Nat) (keep : Bool) : State :=
  let m := s.mainReset
  let r := State.reset.watch
  let m : State := { m with
    regs := []
    snap := []
    aq := State.reset.aq
    pnl := State.reset.pnl
    bkl := State.reset.bkl
    ledgerReq := if keep then s.ledgerReq else []
    watch := { r with
      held := some cause, heldAt := s.ticks, releasedAt := s.watch.releasedAt
      coreOk := s.watch.coreOk, lowAt := s.watch.lowAt, porst := s.watch.porst, wrst := s.watch.wrst, lost := s.watch.lost, coreBack := s.watch.coreBack
      spMs := s.spNow, spTick := s.ticks
      trip := keep && s.watch.trip, shutDue := if keep then s.watch.shutDue else none, shuts := if keep then s.watch.shuts else []
      coolAt := if keep then s.watch.coolAt else none, tripped := if keep then s.watch.tripped else []
      gainAt := s.spNow, hourAt := s.watch.hourAt, slot := s.watch.slot, tokenAt := s.spNow / 1000, skipAt := s.spNow / 1000 } }
  let m := ((m.put R.SPV_LHEAD_SEQ (s.get R.SPV_LHEAD_SEQ)).put R.SPV_LERASE_COUNT s.flash.erases).put R.SPV_BOCNT_COUNT s.flash.brownouts
  let m := (m.put R.GPIO_IN_IN s.pins.gpio).ledgerReload
  if keep then m.setWord R.THM_SHSTAT_COUNT24.addr (s.word R.THM_SHSTAT_COUNT24.addr) else m

/-- R457. A Watch fault: BLANK on every chain, the rails fall, the record is written, and the Watch restarts from its ROM. -/
def State.watchFault (s : State) : State :=
  let s := foldRange 4 (fun s c => s.emit (.latch c 4)) s
  (s.watchReset 6 true).ledgerAsk 0x06 []

/-- R457. WATCH_FAULT: a lockstep mismatch (0), a fault of a Watch core (1) or the watchdog's expiry (2). -/
def execWatchFault (_cause : Nat) (s : State) : Host.Outcome State Fault Refusal := .next (if s.watch.down then s else s.watchFault)

/-- R512. WATCH_RESET: SP_PORST_N is asserted, or VDD_SP or VDDIO_SP is lost. -/
def execWatchReset (s : State) : Host.Outcome State Fault Refusal := .next (s.watchReset 0 false)

/-- R476. PORST_N and WRST_N: asserted, they hold the main domain in reset. -/
def execPorstN (asserted : Bool) (s : State) : Host.Outcome State Fault Refusal :=
  .next (
    let s := if asserted then s.holdMain 1 else s
    s.setWatch { s.watch with porst := asserted })
/-- R476. WRST_N. -/
def execWrstN (asserted : Bool) (s : State) : Host.Outcome State Fault Refusal :=
  .next (
    let s := if asserted then s.holdMain 2 else s
    s.setWatch { s.watch with wrst := asserted })

/-- R477. A write of GLB_RST: WARM counts only with CONFIRM 0x5A in the same write, while the main domain runs. -/
def State.warmReset (s : State) (confirm : Nat) : State := if confirm = 0x5A ∧ s.watch.held = none then s.holdMain 3 else s
/-- R477. WARM. -/
def execWarm (confirm : Nat) (s : State) : Host.Outcome State Fault Refusal := .next (s.warmReset confirm)

end Sys2Proof.Machine
end

