-- ==== Sys2Proof/Machine/Operands.lean ====
section
/-! DEFINITION. Aqken threads and operands: registers, the effective predicate, legality of fields, the interlock on pending
results, thread faults, and what every instruction shares (R98, R116, R136–R142). -/
namespace Sys2Proof.Machine

/-! ### Threads -/

/-- R99. An idle thread: registers zero, BAND 0xFFFF_FFFF. -/
def thrDefault (_ : Nat) : ThreadSt :=
  { v := [], s := [], p := [], pc := 0, state := .idle, cause := 0, faddr := 0, fmask := 0, batch := [], band := 0xFFFFFFFF,
    wait := .none, pend := [], got := [], want := [], launch := 0 }

/-- The key of a thread: TID of an engine thread (R100), 1,024 + core of a steward, 1,032 for the Watch. -/
def thrKey : Thr → Nat
  | .eng e t => e * 4 + t
  | .stw c => 1024 + c
  | .watch => 1032

/-- The state of a thread. -/
def State.thr (s : State) (k : Nat) : ThreadSt := mapGet thrDefault s.aq.threads k
/-- Replace the state of a thread. -/
def State.setThr (s : State) (k : Nat) (t : ThreadSt) : State :=
  { s with aq := { s.aq with threads := mapPut thrDefault s.aq.threads k t } }

/-- A hamlet that nothing has changed: free, no barrier, the spare tested (R135, R413). -/
def hamletDefault (_ : Nat) : HamletSt :=
  { holder := none, phase := .normal, barH := [], clkAcc := 0, spareOk := false, retired := 0, bistFails := 0, passes := 0,
    subst := none, testing := none, testSeq := 0, substWait := [] }
/-- The state of a hamlet. -/
def State.hamlet (s : State) (h : Nat) : HamletSt := mapGet hamletDefault s.aq.hamlets h
/-- Replace the state of a hamlet. -/
def State.setHamlet (s : State) (h : Nat) (x : HamletSt) : State :=
  { s with aq := { s.aq with hamlets := mapPut hamletDefault s.aq.hamlets h x } }
/-- A launch that has not completed. -/
def State.launch (s : State) (h : Nat) : Option LaunchSt := tabGet s.aq.launches h
/-- Replace a launch. -/
def State.setLaunch (s : State) (h : Nat) (l : LaunchSt) : State :=
  { s with aq := { s.aq with launches := tabPut s.aq.launches h l } }

/-- The work item with a key. -/
def State.synWork (s : State) (k : Nat) : Option SynWork := tabGet s.syn.works k
/-- The density level tag of a launch's frame (R75), and whether it samples cameras (R80). -/
def State.launchTag (s : State) (k : Nat) : Nat × Bool :=
  match s.launch (s.thr k).launch with
  | some l => ((match l.work.bind s.synWork with
      | some w => w.level
      | none => s.get R.SYN_DSTAT_LEVEL), l.projective)
  | none => (0, false)

/-! ### Registers of a thread (R98, R129) -/

/-- What an unlisted vector lane holds (R99). -/
def lane0 (_ : Nat) : Word := 0
/-- What an unlisted scalar or predicate register holds (R99). -/
def reg0 (_ : Nat) : BitVec 64 := 0

/-- Lane `l` of vector register `n`. -/
def ThreadSt.vr (t : ThreadSt) (n l : Nat) : Nat := (mapGet lane0 t.v (n * 64 + l)).toNat
/-- Scalar register `n`; s0 reads as zero. -/
def ThreadSt.sr (t : ThreadSt) (n : Nat) : Nat := if n = 0 then 0 else (mapGet reg0 t.s n).toNat
/-- Predicate register `n`; p0 reads as all ones. On Aqken-S only bit 0 is held (R129). -/
def ThreadSt.pr (t : ThreadSt) (isS : Bool) (n : Nat) : Nat :=
  if n = 0 then (if isS then 1 else 2 ^ 64 - 1)
  else let v := (mapGet reg0 t.p n).toNat; if isS then v % 2 else v
/-- Write lane `l` of vector register `n`. -/
def ThreadSt.setV (t : ThreadSt) (n l v : Nat) : ThreadSt := { t with v := mapPut lane0 t.v (n * 64 + l) (BitVec.ofNat 32 v) }
/-- Write scalar register `n`; a write to s0 is discarded. -/
def ThreadSt.setS (t : ThreadSt) (n v : Nat) : ThreadSt :=
  if n = 0 then t else { t with s := mapPut reg0 t.s n (BitVec.ofNat 64 v) }
/-- Write predicate register `n`; a write to p0 is discarded, and on Aqken-S only bit 0 is kept. -/
def ThreadSt.setP (t : ThreadSt) (isS : Bool) (n v : Nat) : ThreadSt :=
  if n = 0 then t else { t with p := mapPut reg0 t.p n (BitVec.ofNat 64 (if isS then v % 2 else v)) }

/-- Is it a thread of the scalar profile? -/
def thrIsS : Thr → Bool
  | .eng _ _ => false
  | _ => true

/-- The hamlet of an engine thread. -/
def thrHamlet : Thr → Nat
  | .eng e _ => e / 16
  | _ => 0xFF

/-- R137. The effective predicate as a 64-bit mask; on Aqken-S only bit 0 counts. -/
def ThreadSt.eff (t : ThreadSt) (isS : Bool) (pred : Nat) (neg : Bool) : Nat :=
  let v := t.pr isS pred
  let v := if neg then (2 ^ 64 - 1) - v else v
  if isS then v % 2 else v

/-- R137. PRED = 0 with NEG = 1 is illegal. -/
def predLegal (pred : Nat) (neg : Bool) : Bool := !(decide (pred = 0) && neg)

/-! ### Faults (R116–R118, R132) -/

/-- The lowest set lane of a mask. -/
def lowestLane (m : Nat) : Nat := ((List.range 64).find? (fun l => bitAt m l)).getD 0

/-- R118. The thread-fault event. -/
def faultEv (cause handle tid mask pc addr : Nat) : Ev :=
  mkEv (3 + 256 * cause + 65536 * (handle % 65536) + 2 ^ 32 * (tid % 1024) + 2 ^ 42 * lowestLane mask) pc mask addr

/-- R132. A steward core faults: it halts, STW_STAT.FAULT is set for it, and an interrupt is raised. -/
def State.haltSteward (s : State) (c : Nat) : State :=
  let s := s.put R.STW_STAT_HALTED (s.get R.STW_STAT_HALTED ||| 2 ^ c)
  let s := s.put R.STW_STAT_FAULT (s.get R.STW_STAT_FAULT ||| 2 ^ c)
  s.raise Irq.STW_FAULT

/-- Put results into the registers; a write to s0 is discarded. -/
def ThreadSt.land (t : ThreadSt) (p : PendLoad) : ThreadSt :=
  let t := p.vecs.foldl (fun t x => { t with v := mapPut lane0 t.v x.1 x.2 }) t
  p.scas.foldl (fun t x => t.setS x.1 x.2.toNat) t

/-- R116, R123. Every outstanding result lands. -/
def ThreadSt.landAll (t : ThreadSt) : ThreadSt := { t.pend.foldl ThreadSt.land t with pend := [] }

/-- R116–R118, R132, R457. A thread faults with a cause, its failing lanes and address. On an engine the thread is suspended with
PC at the instruction (past it for BREAK), its earlier instructions have taken full effect, and the event goes to the launching
steward. -/
def State.faultThread (s : State) (t : Thr) (cause mask addr : Nat) : State :=
  match t with
  | .stw c => s.haltSteward c
  | .watch => s.watchFault
  | .eng e sl =>
    let k := e * 4 + sl
    let th := (s.thr k).landAll
    let s := s.setThr k { th with state := .suspended, cause := cause, fmask := BitVec.ofNat 64 mask, faddr := BitVec.ofNat 64 addr,
                                  pc := if cause = 6 then th.pc + 8 else th.pc }
    let s := s.bump (R.ENG_CNT_COUNT (e / 16) 5)
    match s.launch th.launch with
    | some l => s.sendEvent l.core (faultEv cause th.launch k mask th.pc.toNat addr)
    | none => s

/-! ### Issue (R105, R110, R141) -/

/-- R110, R123, R126. May the thread issue: it is runnable, waits for nothing, and its engine is neither saved nor moving. -/
def State.canIssue (s : State) : Thr → Bool
  | .eng e t =>
    let th := s.thr (e * 4 + t)
    let h := s.hamlet (e / 16)
    decide (e / 16 < s.member.hamlets) && (th.state == .runnable) && (th.wait == .none) && (h.phase == .normal) &&
    (match h.subst with
     | some x => decide (x.logical ≠ e % 16)
     | none => true)
  | .stw c => !bitAt (s.get R.STW_STAT_HALTED) c && ((s.thr (1024 + c)).wait == .none)
  | .watch => ((s.thr 1032).state == .runnable) && ((s.thr 1032).wait == .none)

/-- R105. Is PC inside the launch's code? Stewards and the Watch have no such range. -/
def State.inCode (s : State) (t : Thr) (pc : Nat) : Bool :=
  match t with
  | .eng e sl => match s.launch (s.thr (e * 4 + sl)).launch with
    | some l => decide (l.desc.code ≤ pc) && decide (pc < l.desc.code + l.desc.codeSize)
    | none => false
  | _ => true

/-- R141. Does the thread have a result pending in vector register `n`? -/
def ThreadSt.busyV (t : ThreadSt) (n : Nat) : Bool := t.pend.any (fun p => p.vecs.any (fun x => decide (x.1 / 64 = n)))
/-- R141. Does the thread have a result pending in scalar register `n`? -/
def ThreadSt.busyS (t : ThreadSt) (n : Nat) : Bool := t.pend.any (fun p => p.scas.any (fun x => decide (x.1 = n)))

/-- The registers that an instruction reads or writes. -/
structure Touch where
  vecs : List Nat
  scas : List Nat
  deriving DecidableEq, Repr

/-- R141. Is any of these registers pending? -/
def ThreadSt.busy (t : ThreadSt) (x : Touch) : Bool := x.vecs.any t.busyV || x.scas.any t.busyS

/-- The thread with PC at the next instruction word. -/
def ThreadSt.next (t : ThreadSt) : ThreadSt := { t with pc := t.pc + 8 }

/-- What every Aqken instruction shares: it does not issue while the thread may not; a PC outside the code, or an illegal word,
raises ILLEGAL; it does not issue while a register it touches is pending; else its effect follows. -/
def State.issue (s : State) (t : Thr) (legal : Bool) (touch : Touch) (effect : ThreadSt → State) : State :=
  if !s.canIssue t then s
  else
    let th := s.thr (thrKey t)
    if !s.inCode t th.pc.toNat then s.faultThread t 5 0 th.pc.toNat
    else if !legal then s.faultThread t 5 0 th.pc.toNat
    else if th.busy touch then s
    else effect th

/-! ### Field legality (R138, R139, R142) -/

/-- A scalar register field: bit 5 must be 0. -/
def scaOk (n : Nat) : Bool := decide (n < 32)
/-- A predicate register field: bits 5 to 3 must be 0. -/
def preOk (n : Nat) : Bool := decide (n < 8)
/-- A field the instruction does not use must be 0. -/
def unused (n : Nat) : Bool := decide (n = 0)

/-- Which sources an instruction of format A uses. -/
structure Srcs where
  a : Bool
  b : Bool
  c : Bool
  deriving DecidableEq, Repr

/-- R142. Legality of a data instruction of format A: operands of one kind, SB and SCL not both, unused fields zero, a MOD
that the instruction defines, and the scalar form on Aqken-S. -/
def legalA (isS : Bool) (f : FmtA) (u : Srcs) (mod : Bool) : Bool :=
  predLegal f.pred f.neg && mod && !(f.sb && f.scl) && (f.scl || !isS) &&
  (if f.scl then scaOk f.d else true) &&
  (if u.a then (!f.scl || scaOk f.a) else unused f.a) &&
  (if u.b then (!(f.scl || f.sb) || scaOk f.b) else unused f.b && !f.sb) &&
  (if u.c then (!f.scl || scaOk f.rc) else unused f.rc)

/-- The registers that a data instruction of format A touches, with a destination or without. -/
def touchA (f : FmtA) (u : Srcs) (dst : Bool) : Touch :=
  if f.scl then ⟨[], (if dst then [f.d] else []) ++ (if u.a then [f.a] else []) ++ (if u.b then [f.b] else []) ++ (if u.c then [f.rc] else [])⟩
  else ⟨(if dst then [f.d] else []) ++ (if u.a then [f.a] else []) ++ (if u.b && !f.sb then [f.b] else []) ++ (if u.c then [f.rc] else []),
        if u.b && f.sb then [f.b] else []⟩

/-- Source B of lane `l`: the vector register, or bits [31:0] of the scalar under SB (R139). -/
def ThreadSt.srcB (t : ThreadSt) (f : FmtA) (l : Nat) : Nat := if f.sb then t.sr f.b % 2 ^ 32 else t.vr f.b l

/-- Write a value in each active lane of vector register `d`, computed from the thread as it stood before (R140). -/
def ThreadSt.mapLanes (t : ThreadSt) (mask d : Nat) (val : Nat → Nat) : ThreadSt :=
  foldRange 64 (fun x l => if bitAt mask l then x.setV d l (val l) else x) t

/-- R140. The effect of a data instruction of format A: a vector form writes `fv a b c` in each active lane; a scalar form runs when
any bit of the effective predicate is 1 and writes `fs a b c`. -/
def ThreadSt.dataA (t : ThreadSt) (isS : Bool) (f : FmtA) (fv fs : Nat → Nat → Nat → Nat) : ThreadSt :=
  let mask := t.eff isS f.pred f.neg
  if f.scl then
    (if mask = 0 then t else t.setS f.d (fs (t.sr f.a) (t.sr f.b) (t.sr f.rc))).next
  else (t.mapLanes mask f.d (fun l => fv (t.vr f.a l) (t.srcB f l) (t.vr f.rc l))).next

/-- A data instruction of format A as a whole. -/
def State.runA (s : State) (t : Thr) (f : FmtA) (u : Srcs) (mod : Bool) (fv fs : Nat → Nat → Nat → Nat) : State :=
  s.issue t (legalA (thrIsS t) f u mod) (touchA f u true) (fun th => s.setThr (thrKey t) (th.dataA (thrIsS t) f fv fs))

/-! ### Format I (R149) -/

/-- R149. The immediate extended under IK to `w` bits. -/
def immVal (w ik imm : Nat) : Nat := if ik = 0 then ofInt w (toInt 32 imm) else imm

/-- R142, R149. Legality of an immediate instruction: `ikOk` says which kinds it accepts. -/
def legalI (isS : Bool) (f : FmtI) (usesA : Bool) (ikOk : Bool) : Bool :=
  predLegal f.pred f.neg && ikOk && (f.scl || !isS) && (if f.scl then scaOk f.d else true) &&
  (if usesA then (!f.scl || scaOk f.a) else unused f.a)

/-- The registers that an immediate instruction touches. -/
def touchI (f : FmtI) (usesA : Bool) : Touch :=
  let rs := f.d :: (if usesA then [f.a] else [])
  if f.scl then ⟨[], rs⟩ else ⟨rs, []⟩

/-- An immediate instruction as a whole: `g w a imm` at width `w`. -/
def State.runI (s : State) (t : Thr) (f : FmtI) (usesA ikOk : Bool) (g : Nat → Nat → Nat → Nat) : State :=
  s.issue t (legalI (thrIsS t) f usesA ikOk) (touchI f usesA) (fun th =>
    let mask := th.eff (thrIsS t) f.pred f.neg
    s.setThr (thrKey t)
      (if f.scl then (if mask = 0 then th else th.setS f.d (g 64 (th.sr f.a) (immVal 64 f.ik f.imm) % 2 ^ 64)).next
       else (th.mapLanes mask f.d (fun l => g 32 (th.vr f.a l) (immVal 32 f.ik f.imm) % 2 ^ 32)).next))

end Sys2Proof.Machine
end

