-- ==== Sys2Proof/Machine/Flags.lean ====
section
/-! DEFINITION. Conditions: Aqken has no flags register; its compares write predicate registers (R147, R148). -/
namespace Sys2Proof.Machine

/-- R147. An integer condition, on the comparison of A with B. -/
def intCond (mod : Nat) (a b : Int) : Bool :=
  match mod with
  | 0 => decide (a = b) | 1 => decide (a ≠ b) | 2 => decide (a < b) | 3 => decide (a ≤ b) | 4 => decide (b < a) | _ => decide (b ≤ a)

/-- R147. A binary32 condition. -/
def floatCond (mod : Nat) (a b : Nat) : Bool :=
  match mod with
  | 0 => feq f32 a b | 1 => !feq f32 a b | 2 => flt f32 a b | 3 => fle f32 a b | 4 => flt f32 b a | 5 => fle f32 b a
  | 6 => fisNan f32 a || fisNan f32 b | _ => !fisNan f32 a && !fisNan f32 b

/-- R142, R147. Legality of a compare: the destination is a predicate register. -/
def legalCmp (isS : Bool) (f : FmtA) (mod : Bool) : Bool :=
  predLegal f.pred f.neg && mod && !(f.sb && f.scl) && (f.scl || !isS) && preOk f.d && unused f.rc &&
  (!f.scl || scaOk f.a) && (!(f.scl || f.sb) || scaOk f.b)

/-- The mask with bit `l` of each active lane replaced by the condition of that lane (R140, R147). -/
def condMask (old mask : Nat) (c : Nat → Bool) : Nat :=
  foldRange 64 (fun m l => if bitAt mask l then setBits m l 1 (b2n (c l)) else m) old

/-- R147. A compare as a whole: `cv` on 32-bit lanes, `cs` on the scalar registers. -/
def State.runCmp (s : State) (t : Thr) (f : FmtA) (mod : Bool) (cv cs : Nat → Nat → Bool) : State :=
  s.issue t (legalCmp (thrIsS t) f mod) (touchA f ⟨true, true, false⟩ false) (fun th =>
    let mask := th.eff (thrIsS t) f.pred f.neg
    s.setThr (thrKey t)
      (if f.scl then (if mask = 0 then th else th.setP (thrIsS t) f.d (if cs (th.sr f.a) (th.sr f.b) then 2 ^ 64 - 1 else 0)).next
       else (th.setP (thrIsS t) f.d (condMask (th.pr (thrIsS t) f.d) mask (fun l => cv (th.vr f.a l) (th.srcB f l)))).next))

/-- R142, R148. Legality of a predicate-register instruction: SCL, SB, MOD and RC are 0, and the fields are of the kinds given. -/
def legalP (f : FmtA) (dOk aOk bOk : Bool) : Bool :=
  predLegal f.pred f.neg && !f.sb && !f.scl && unused f.rc && unused f.mod && dOk && aOk && bOk

/-- R148. A predicate logic instruction as a whole: lanes outside the effective predicate keep their bits (R140). -/
def State.runP (s : State) (t : Thr) (f : FmtA) (g : Bool → Bool → Bool) : State :=
  s.issue t (legalP f (preOk f.d) (preOk f.a) (preOk f.b)) ⟨[], []⟩ (fun th =>
    let mask := th.eff (thrIsS t) f.pred f.neg
    s.setThr (thrKey t)
      (th.setP (thrIsS t) f.d (condMask (th.pr (thrIsS t) f.d) mask (fun l => g (bitAt (th.pr (thrIsS t) f.a) l) (bitAt (th.pr (thrIsS t) f.b) l)))).next)

end Sys2Proof.Machine
end

