-- ==== Sys2Proof/Machine/AqkenAlu.lean ====
section
/-! DEFINITION. Aqken arithmetic, logic, conversion, compare, predicate, move and immediate instructions (R143–R149): one
meaning per instruction over the shared operations. -/
namespace Sys2Proof.Machine

/-! ### Integer functions at width w (R143) -/

/-- The signed product's high half. -/
def mulHiS (w a b : Nat) : Nat := ofInt w (toInt w a * toInt w b / ((2 ^ w : Nat) : Int))
/-- Arithmetic shift right. -/
def sarW (w a n : Nat) : Nat := ofInt w (toInt w a / ((2 ^ (n % w) : Nat) : Int))
/-- Leading zero bits. -/
def clzW (w a : Nat) : Nat := if a = 0 then w else w - 1 - Nat.log2 a
/-- Complement. -/
def notW (w a : Nat) : Nat := 2 ^ w - 1 - a
/-- R143 BFE: the field of B[13:8] bits at bit B[5:0]. -/
def bfeW (_w a b : Nat) : Nat := a / 2 ^ (b % 64) % 2 ^ (b / 256 % 64)
/-- R143 BFI: C with the low B[13:8] bits of A at bit B[5:0], cut at bit w − 1. -/
def bfiW (w a b c : Nat) : Nat :=
  let m := (2 ^ (b / 256 % 64) - 1) * 2 ^ (b % 64) % 2 ^ w
  (c &&& notW w m) ||| (a * 2 ^ (b % 64) % 2 ^ w &&& m)
/-- Each 16-bit half on its own (R144). -/
def halves (g : Nat → Nat → Nat → Nat) (a b c : Nat) : Nat :=
  g (a % 65536) (b % 65536) (c % 65536) + 65536 * g (a / 65536 % 65536) (b / 65536 % 65536) (c / 65536 % 65536)

/-- Both operands. -/
def srcAB : Srcs := ⟨true, true, false⟩
/-- All three. -/
def srcABC : Srcs := ⟨true, true, true⟩
/-- A alone. -/
def srcA : Srcs := ⟨true, false, false⟩
/-- B alone. -/
def srcB : Srcs := ⟨false, true, false⟩

/-- An integer instruction: `g` at width 32 per lane and at width 64 in the scalar form. -/
def State.runInt (s : State) (t : Thr) (f : FmtA) (u : Srcs) (g : Nat → Nat → Nat → Nat → Nat) : State :=
  s.runA t f u (unused f.mod) (g 32) (g 64)

/-- A floating-point instruction: the same function on bits [31:0], the scalar form writing zero above (R144). -/
def State.runFp (s : State) (t : Thr) (f : FmtA) (u : Srcs) (mod : Bool) (g : Nat → Nat → Nat → Nat) : State :=
  s.runA t f u mod g (fun a b c => g (a % 2 ^ 32) (b % 2 ^ 32) (c % 2 ^ 32))

/-- R143 IADD: D = A + B. -/
def execIadd (t : Thr) (f : FmtA) (s : State) : Host.Outcome State Fault Refusal :=
  .next (s.runInt t f srcAB (fun w a b _ => (a + b) % 2 ^ w))

/-- R143 ISUB: D = A − B. -/
def execIsub (t : Thr) (f : FmtA) (s : State) : Host.Outcome State Fault Refusal :=
  .next (s.runInt t f srcAB (fun w a b _ => subMod w a b))

/-- R143 IMUL: low half of A × B. -/
def execImul (t : Thr) (f : FmtA) (s : State) : Host.Outcome State Fault Refusal :=
  .next (s.runInt t f srcAB (fun w a b _ => a * b % 2 ^ w))

/-- R143 IMULHI: high half of the signed product. -/
def execImulhi (t : Thr) (f : FmtA) (s : State) : Host.Outcome State Fault Refusal :=
  .next (s.runInt t f srcAB (fun w a b _ => mulHiS w a b))

/-- R143 UMULHI: high half of the unsigned product. -/
def execUmulhi (t : Thr) (f : FmtA) (s : State) : Host.Outcome State Fault Refusal :=
  .next (s.runInt t f srcAB (fun w a b _ => a * b / 2 ^ w))

/-- R143 IMAD: low half of A × B + C. -/
def execImad (t : Thr) (f : FmtA) (s : State) : Host.Outcome State Fault Refusal :=
  .next (s.runInt t f srcABC (fun w a b c => (a * b + c) % 2 ^ w))

/-- R143 IMIN: signed minimum. -/
def execImin (t : Thr) (f : FmtA) (s : State) : Host.Outcome State Fault Refusal :=
  .next (s.runInt t f srcAB (fun w a b _ => if toInt w b < toInt w a then b else a))

/-- R143 IMAX: signed maximum. -/
def execImax (t : Thr) (f : FmtA) (s : State) : Host.Outcome State Fault Refusal :=
  .next (s.runInt t f srcAB (fun w a b _ => if toInt w a < toInt w b then b else a))

/-- R143 UMIN: unsigned minimum. -/
def execUmin (t : Thr) (f : FmtA) (s : State) : Host.Outcome State Fault Refusal :=
  .next (s.runInt t f srcAB (fun _ a b _ => if b < a then b else a))

/-- R143 UMAX: unsigned maximum. -/
def execUmax (t : Thr) (f : FmtA) (s : State) : Host.Outcome State Fault Refusal :=
  .next (s.runInt t f srcAB (fun _ a b _ => if a < b then b else a))

/-- R143 IABS: |A|; the most negative value is returned unchanged. -/
def execIabs (t : Thr) (f : FmtA) (s : State) : Host.Outcome State Fault Refusal :=
  .next (s.runInt t f srcA (fun w a _ _ => if toInt w a < 0 then (2 ^ w - a) % 2 ^ w else a))

/-- R143 AND. -/
def execAndOp (t : Thr) (f : FmtA) (s : State) : Host.Outcome State Fault Refusal :=
  .next (s.runInt t f srcAB (fun _ a b _ => a &&& b))

/-- R143 OR. -/
def execOrOp (t : Thr) (f : FmtA) (s : State) : Host.Outcome State Fault Refusal :=
  .next (s.runInt t f srcAB (fun _ a b _ => a ||| b))

/-- R143 XOR. -/
def execXorOp (t : Thr) (f : FmtA) (s : State) : Host.Outcome State Fault Refusal :=
  .next (s.runInt t f srcAB (fun _ a b _ => a ^^^ b))

/-- R143 ANDN: A AND NOT B. -/
def execAndn (t : Thr) (f : FmtA) (s : State) : Host.Outcome State Fault Refusal :=
  .next (s.runInt t f srcAB (fun w a b _ => a &&& notW w b))

/-- R143 SHL: A shifted left by B mod w. -/
def execShl (t : Thr) (f : FmtA) (s : State) : Host.Outcome State Fault Refusal :=
  .next (s.runInt t f srcAB (fun w a b _ => a * 2 ^ (b % w) % 2 ^ w))

/-- R143 SHR: A shifted right, logical, by B mod w. -/
def execShr (t : Thr) (f : FmtA) (s : State) : Host.Outcome State Fault Refusal :=
  .next (s.runInt t f srcAB (fun w a b _ => a / 2 ^ (b % w)))

/-- R143 SAR: A shifted right, arithmetic, by B mod w. -/
def execSar (t : Thr) (f : FmtA) (s : State) : Host.Outcome State Fault Refusal :=
  .next (s.runInt t f srcAB (fun w a b _ => sarW w a b))

/-- R143 POPC: number of 1 bits in A. -/
def execPopc (t : Thr) (f : FmtA) (s : State) : Host.Outcome State Fault Refusal :=
  .next (s.runInt t f srcA (fun w a _ _ => popCount w a))

/-- R143 CLZ: number of leading 0 bits in A; w when A is 0. -/
def execClz (t : Thr) (f : FmtA) (s : State) : Host.Outcome State Fault Refusal :=
  .next (s.runInt t f srcA (fun w a _ _ => clzW w a))

/-- R143 BFE. -/
def execBfe (t : Thr) (f : FmtA) (s : State) : Host.Outcome State Fault Refusal :=
  .next (s.runInt t f srcAB (fun w a b _ => bfeW w a b))

/-- R143 BFI. -/
def execBfi (t : Thr) (f : FmtA) (s : State) : Host.Outcome State Fault Refusal :=
  .next (s.runInt t f srcABC (fun w a b c => bfiW w a b c))

/-- R144, R145 FADD. -/
def execFadd (t : Thr) (f : FmtA) (s : State) : Host.Outcome State Fault Refusal :=
  .next (s.runFp t f srcAB (unused f.mod) (fun a b _ => fadd f32 a b))

/-- R144, R145 FSUB. -/
def execFsub (t : Thr) (f : FmtA) (s : State) : Host.Outcome State Fault Refusal :=
  .next (s.runFp t f srcAB (unused f.mod) (fun a b _ => fsub f32 a b))

/-- R144, R145 FMUL. -/
def execFmul (t : Thr) (f : FmtA) (s : State) : Host.Outcome State Fault Refusal :=
  .next (s.runFp t f srcAB (unused f.mod) (fun a b _ => fmul f32 a b))

/-- R144, R145 FFMA: one rounding. -/
def execFfma (t : Thr) (f : FmtA) (s : State) : Host.Outcome State Fault Refusal :=
  .next (s.runFp t f srcABC (unused f.mod) (fun a b c => ffma f32 a b c))

/-- R144, R145 FMIN. -/
def execFmin (t : Thr) (f : FmtA) (s : State) : Host.Outcome State Fault Refusal :=
  .next (s.runFp t f srcAB (unused f.mod) (fun a b _ => fmin f32 a b))

/-- R144, R145 FMAX. -/
def execFmax (t : Thr) (f : FmtA) (s : State) : Host.Outcome State Fault Refusal :=
  .next (s.runFp t f srcAB (unused f.mod) (fun a b _ => fmax f32 a b))

/-- R144, R145 FABS: the sign bit cleared, whatever the operand (assumption 11). -/
def execFabs (t : Thr) (f : FmtA) (s : State) : Host.Outcome State Fault Refusal :=
  .next (s.runFp t f srcA (unused f.mod) (fun a _ _ => fabs f32 a))

/-- R144, R145 FNEG: the sign bit inverted, whatever the operand (assumption 11). -/
def execFneg (t : Thr) (f : FmtA) (s : State) : Host.Outcome State Fault Refusal :=
  .next (s.runFp t f srcA (unused f.mod) (fun a _ _ => fneg f32 a))

/-- R144, R145 HADD2. -/
def execHadd2 (t : Thr) (f : FmtA) (s : State) : Host.Outcome State Fault Refusal :=
  .next (s.runFp t f srcAB (unused f.mod) (fun a b c => halves (fun x y _ => fadd f16 x y) a b c))

/-- R144, R145 HMUL2. -/
def execHmul2 (t : Thr) (f : FmtA) (s : State) : Host.Outcome State Fault Refusal :=
  .next (s.runFp t f srcAB (unused f.mod) (fun a b c => halves (fun x y _ => fmul f16 x y) a b c))

/-- R144, R145 HFMA2. -/
def execHfma2 (t : Thr) (f : FmtA) (s : State) : Host.Outcome State Fault Refusal :=
  .next (s.runFp t f srcABC (unused f.mod) (fun a b c => halves (fun x y z => ffma f16 x y z) a b c))

/-- R144, R145 HMIN2. -/
def execHmin2 (t : Thr) (f : FmtA) (s : State) : Host.Outcome State Fault Refusal :=
  .next (s.runFp t f srcAB (unused f.mod) (fun a b c => halves (fun x y _ => fmin f16 x y) a b c))

/-- R144, R145 HMAX2. -/
def execHmax2 (t : Thr) (f : FmtA) (s : State) : Host.Outcome State Fault Refusal :=
  .next (s.runFp t f srcAB (unused f.mod) (fun a b c => halves (fun x y _ => fmax f16 x y) a b c))

/-- R144, R145 FRCP: 1 / A within 1 ulp. -/
def execFrcp (t : Thr) (f : FmtA) (s : State) : Host.Outcome State Fault Refusal :=
  .next (s.runFp t f srcA (unused f.mod) (fun a _ _ => frcp a))

/-- R144, R145 FRSQ: 1 / √A within 1 ulp. -/
def execFrsq (t : Thr) (f : FmtA) (s : State) : Host.Outcome State Fault Refusal :=
  .next (s.runFp t f srcA (unused f.mod) (fun a _ _ => frsq a))

/-- R144, R145 FSQRT: correctly rounded. -/
def execFsqrt (t : Thr) (f : FmtA) (s : State) : Host.Outcome State Fault Refusal :=
  .next (s.runFp t f srcA (unused f.mod) (fun a _ _ => fsqrt f32 a))

/-- R144, R145 FDIV: correctly rounded. -/
def execFdiv (t : Thr) (f : FmtA) (s : State) : Host.Outcome State Fault Refusal :=
  .next (s.runFp t f srcAB (unused f.mod) (fun a b _ => fdiv f32 a b))

/-- R144, R145 FEXP2: 2^A within 2 ulp. -/
def execFexp2 (t : Thr) (f : FmtA) (s : State) : Host.Outcome State Fault Refusal :=
  .next (s.runFp t f srcA (unused f.mod) (fun a _ _ => fexp2 a))

/-- R144, R145 FLOG2: log2 A within 2 ulp. -/
def execFlog2 (t : Thr) (f : FmtA) (s : State) : Host.Outcome State Fault Refusal :=
  .next (s.runFp t f srcA (unused f.mod) (fun a _ _ => flog2 a))

/-- R144, R145 FSIN: sin(2πA). -/
def execFsin (t : Thr) (f : FmtA) (s : State) : Host.Outcome State Fault Refusal :=
  .next (s.runFp t f srcA (unused f.mod) (fun a _ _ => ftrig 0x36 0 a))

/-- R144, R145 FCOS: cos(2πA). -/
def execFcos (t : Thr) (f : FmtA) (s : State) : Host.Outcome State Fault Refusal :=
  .next (s.runFp t f srcA (unused f.mod) (fun a _ _ => ftrig 0x37 1 a))

/-- R146 F2I: fp32 to a saturating signed integer, 32-bit per lane, 64-bit in the scalar form. -/
def execF2i (t : Thr) (f : FmtA) (s : State) : Host.Outcome State Fault Refusal :=
  .next (s.runA t f srcA (decide (f.mod < 4)) (fun a _ _ => ofInt 32 (ftoSInt f32 (rndOf f.mod) 32 a))
    (fun a _ _ => ofInt 64 (ftoSInt f32 (rndOf f.mod) 64 (a % 2 ^ 32))))

/-- R146 F2U: fp32 to a saturating unsigned integer. -/
def execF2u (t : Thr) (f : FmtA) (s : State) : Host.Outcome State Fault Refusal :=
  .next (s.runA t f srcA (decide (f.mod < 4)) (fun a _ _ => ftoUInt f32 (rndOf f.mod) 32 a)
    (fun a _ _ => ftoUInt f32 (rndOf f.mod) 64 (a % 2 ^ 32)))

/-- R146 I2F: signed integer to fp32. -/
def execI2f (t : Thr) (f : FmtA) (s : State) : Host.Outcome State Fault Refusal :=
  .next (s.runA t f srcA (decide (f.mod < 4)) (fun a _ _ => fofInt f32 (rndOf f.mod) (toInt 32 a))
    (fun a _ _ => fofInt f32 (rndOf f.mod) (toInt 64 a)))

/-- R146 U2F: unsigned integer to fp32. -/
def execU2f (t : Thr) (f : FmtA) (s : State) : Host.Outcome State Fault Refusal :=
  .next (s.runA t f srcA (decide (f.mod < 4)) (fun a _ _ => fofInt f32 (rndOf f.mod) a)
    (fun a _ _ => fofInt f32 (rndOf f.mod) a))

/-- R146 F2H2: two fp32 values packed as fp16. -/
def execF2h2 (t : Thr) (f : FmtA) (s : State) : Host.Outcome State Fault Refusal :=
  .next (s.runFp t f srcAB (decide (f.mod < 4)) (fun a b _ => fconv f32 f16 (rndOf f.mod) a + 65536 * fconv f32 f16 (rndOf f.mod) b))

/-- R146 H2FL: the low fp16 half to fp32. -/
def execH2fl (t : Thr) (f : FmtA) (s : State) : Host.Outcome State Fault Refusal :=
  .next (s.runFp t f srcA (unused f.mod) (fun a _ _ => fconv f16 f32 .ne (a % 65536)))

/-- R146 H2FH: the high fp16 half to fp32. -/
def execH2fh (t : Thr) (f : FmtA) (s : State) : Host.Outcome State Fault Refusal :=
  .next (s.runFp t f srcA (unused f.mod) (fun a _ _ => fconv f16 f32 .ne (a / 65536 % 65536)))

/-- R146 F2UN10. -/
def execF2un10 (t : Thr) (f : FmtA) (s : State) : Host.Outcome State Fault Refusal :=
  .next (s.runFp t f srcA (unused f.mod) (fun a _ _ => f2un10 a))

/-- R146 PK30: tag, and the three components as unorm codes; the tag is the density level of the launch's frame, as SWEEP writes it. A
thread of no launch (Aqken-S) has none: the tag is free there (assumption 2). -/
def execPk30 (t : Thr) (f : FmtA) (s : State) : Host.Outcome State Fault Refusal :=
  let pack := fun (s : State) (tag : Nat) =>
    s.runFp t f srcABC (unused f.mod) (fun a b c => tag * 2 ^ 30 + f2un10 a * 2 ^ 20 + f2un10 b * 2 ^ 10 + f2un10 c)
  .next (match s.launch (s.thr (thrKey t)).launch with
    | some _ => pack s ((s.launchTag (thrKey t)).1 % 4)
    | none => pack s.fresh.2 (s.fresh.1 % 4))

/-- R147 ICMP: signed compare; UN and OR are illegal. -/
def execIcmp (t : Thr) (f : FmtA) (s : State) : Host.Outcome State Fault Refusal :=
  .next (s.runCmp t f (decide (f.mod < 6)) (fun a b => intCond f.mod (toInt 32 a) (toInt 32 b)) (fun a b => intCond f.mod (toInt 64 a) (toInt 64 b)))

/-- R147 UCMP: unsigned compare; UN and OR are illegal. -/
def execUcmp (t : Thr) (f : FmtA) (s : State) : Host.Outcome State Fault Refusal :=
  .next (s.runCmp t f (decide (f.mod < 6)) (fun a b => intCond f.mod a b) (fun a b => intCond f.mod a b))

/-- R147 FCMP: fp32 compare. -/
def execFcmp (t : Thr) (f : FmtA) (s : State) : Host.Outcome State Fault Refusal :=
  .next (s.runCmp t f true (fun a b => floatCond f.mod a b) (fun a b => floatCond f.mod (a % 2 ^ 32) (b % 2 ^ 32)))

/-- R148 PAND. -/
def execPand (t : Thr) (f : FmtA) (s : State) : Host.Outcome State Fault Refusal :=
  .next (s.runP t f (fun a b => a && b))

/-- R148 POR. -/
def execPor (t : Thr) (f : FmtA) (s : State) : Host.Outcome State Fault Refusal :=
  .next (s.runP t f (fun a b => a || b))

/-- R148 PXOR. -/
def execPxor (t : Thr) (f : FmtA) (s : State) : Host.Outcome State Fault Refusal :=
  .next (s.runP t f (fun a b => a != b))

/-- R148 PANDN. -/
def execPandn (t : Thr) (f : FmtA) (s : State) : Host.Outcome State Fault Refusal :=
  .next (s.runP t f (fun a b => a && !b))

/-- R148. A scalar instruction between predicate and scalar registers: it runs when any bit of the effective predicate is 1. -/
def State.runPS (s : State) (t : Thr) (f : FmtA) (legal : Bool) (touch : Touch) (g : ThreadSt → ThreadSt) : State :=
  s.issue t legal touch (fun th =>
    s.setThr (thrKey t) (if th.eff (thrIsS t) f.pred f.neg = 0 then th else g th).next)

/-- R148 PCNT: sD = number of 1 bits in pA. -/
def execPcnt (t : Thr) (f : FmtA) (s : State) : Host.Outcome State Fault Refusal :=
  .next (s.runPS t f (legalP f (scaOk f.d) (preOk f.a) (unused f.b)) ⟨[], [f.d]⟩
    (fun th => th.setS f.d (popCount 64 (th.pr (thrIsS t) f.a))))

/-- R148 PTOS: sD = pA. -/
def execPtos (t : Thr) (f : FmtA) (s : State) : Host.Outcome State Fault Refusal :=
  .next (s.runPS t f (legalP f (scaOk f.d) (preOk f.a) (unused f.b)) ⟨[], [f.d]⟩
    (fun th => th.setS f.d (th.pr (thrIsS t) f.a)))

/-- R148 STOP: pD = sA. -/
def execStop (t : Thr) (f : FmtA) (s : State) : Host.Outcome State Fault Refusal :=
  .next (s.runPS t f (legalP f (preOk f.d) (scaOk f.a) (unused f.b)) ⟨[], [f.a]⟩
    (fun th => th.setP (thrIsS t) f.d (th.sr f.a)))

/-- R148 MOV: D = B. -/
def execMov (t : Thr) (f : FmtA) (s : State) : Host.Outcome State Fault Refusal :=
  .next (s.runA t f srcB (unused f.mod) (fun _ b _ => b) (fun _ b _ => b))

/-- R148 SEL: D = A where pMOD is 1, otherwise B; the scalar form tests bit 0 of pMOD. -/
def execSel (t : Thr) (f : FmtA) (s : State) : Host.Outcome State Fault Refusal :=
  .next (s.issue t (legalA (thrIsS t) f srcAB true) (touchA f srcAB true) (fun th =>
    let mask := th.eff (thrIsS t) f.pred f.neg
    let q := th.pr (thrIsS t) f.mod
    s.setThr (thrKey t)
      (if f.scl then (if mask = 0 then th else th.setS f.d (if q % 2 = 1 then th.sr f.a else th.sr f.b)).next
       else (th.mapLanes mask f.d (fun l => if bitAt q l then th.vr f.a l else th.srcB f l)).next)))

/-- R148 LANERD: sD = zero-extended vA[sB mod 64]; every lane of vA is read whatever the predicate. Vector only. -/
def execLanerd (t : Thr) (f : FmtA) (s : State) : Host.Outcome State Fault Refusal :=
  .next (s.issue t (legalP f (scaOk f.d) true (scaOk f.b) && !(thrIsS t)) ⟨[f.a], [f.d, f.b]⟩ (fun th =>
    s.setThr (thrKey t) (if th.eff (thrIsS t) f.pred f.neg = 0 then th else th.setS f.d (th.vr f.a (th.sr f.b % 64))).next))

/-- R148 SHFL: vD[l] = vA[vB[l] mod 64], vA as it stood before the instruction. Vector only. -/
def execShfl (t : Thr) (f : FmtA) (s : State) : Host.Outcome State Fault Refusal :=
  .next (s.issue t (legalA (thrIsS t) f srcAB (unused f.mod) && !f.scl) (touchA f srcAB true) (fun th =>
    s.setThr (thrKey t) (th.mapLanes (th.eff (thrIsS t) f.pred f.neg) f.d (fun l => th.vr f.a (th.srcB f l % 64))).next))

/-- R149 MOVI: D = IMM; IK = 0b01 places the fp32 bit pattern. -/
def execMovi (t : Thr) (f : FmtI) (s : State) : Host.Outcome State Fault Refusal :=
  .next (s.runI t f false (decide (f.ik < 3)) (fun _ _ i => i))

/-- R149 MOVHI: scalar only, D[63:32] = IMM and D[31:0] kept; IK must be 0b10. -/
def execMovhi (t : Thr) (f : FmtI) (s : State) : Host.Outcome State Fault Refusal :=
  .next (s.issue t (legalI (thrIsS t) f false (decide (f.ik = 2)) && f.scl) (touchI f false) (fun th =>
    s.setThr (thrKey t) (if th.eff (thrIsS t) f.pred f.neg = 0 then th else th.setS f.d (f.imm % 2 ^ 32 * 2 ^ 32 + th.sr f.d % 2 ^ 32)).next))

/-- R149 IADDI: D = A + IMM. -/
def execIaddi (t : Thr) (f : FmtI) (s : State) : Host.Outcome State Fault Refusal :=
  .next (s.runI t f true (decide (f.ik = 0 ∨ f.ik = 2)) (fun w a i => (a + i) % 2 ^ w))

/-- R149 ANDI. -/
def execAndi (t : Thr) (f : FmtI) (s : State) : Host.Outcome State Fault Refusal :=
  .next (s.runI t f true (decide (f.ik = 0 ∨ f.ik = 2)) (fun _ a i => a &&& i))

/-- R149 ORI. -/
def execOri (t : Thr) (f : FmtI) (s : State) : Host.Outcome State Fault Refusal :=
  .next (s.runI t f true (decide (f.ik = 0 ∨ f.ik = 2)) (fun _ a i => a ||| i))

/-- R149 XORI. -/
def execXori (t : Thr) (f : FmtI) (s : State) : Host.Outcome State Fault Refusal :=
  .next (s.runI t f true (decide (f.ik = 0 ∨ f.ik = 2)) (fun _ a i => a ^^^ i))

/-- R149 SHLI: D = A << (IMM mod w); IK must be 0b10. -/
def execShli (t : Thr) (f : FmtI) (s : State) : Host.Outcome State Fault Refusal :=
  .next (s.runI t f true (decide (f.ik = 2)) (fun w a i => a * 2 ^ (i % w)))

/-- R149 SHRI: logical; IK must be 0b10. -/
def execShri (t : Thr) (f : FmtI) (s : State) : Host.Outcome State Fault Refusal :=
  .next (s.runI t f true (decide (f.ik = 2)) (fun w a i => a / 2 ^ (i % w)))

/-- R149 SARI: arithmetic; IK must be 0b10. -/
def execSari (t : Thr) (f : FmtI) (s : State) : Host.Outcome State Fault Refusal :=
  .next (s.runI t f true (decide (f.ik = 2)) (fun w a i => sarW w a i))

end Sys2Proof.Machine
end

