-- ==== Sys2Proof/Machine/AqkenMem.lean ====
section
/-! DEFINITION. Aqken memory instructions and atomics (R102–R108, R150–R154): address formation, the checks per lane, loads,
stores, atomics and compare-and-swap in the local, global and constant spaces. -/
namespace Sys2Proof.Machine

/-- R102. The memory spaces an instruction reaches. -/
inductive Space where | loc | glob | const
  deriving DecidableEq, Repr

/-- Bytes of an access of SIZE. -/
def fmBytes (f : FmtM) : Nat := 2 ^ f.size

/-- R150. The address of lane `l`, in 64-bit arithmetic. -/
def ThreadSt.memAddr (t : ThreadSt) (f : FmtM) (l : Nat) : Nat :=
  let i := if f.vi then ofInt 64 (toInt 32 (t.vr f.idx l)) * 2 ^ f.scale else 0
  (t.sr f.a + i + ofInt 64 (toInt 24 f.off)) % 2 ^ 64

/-- The lanes that act: the active lanes in ascending order, or lane 0 for a scalar access that runs (R140, R150). -/
def ThreadSt.memLanes (t : ThreadSt) (isS : Bool) (f : FmtM) : List Nat :=
  let mask := t.eff isS f.pred f.neg
  if f.scl then (if mask = 0 then [] else [0]) else (List.range 64).filter (fun l => bitAt mask l)

/-- What an instruction of format M does with its data register. -/
inductive MemKind where | load | store | atomic | cas
  deriving DecidableEq, Repr

/-- R138, R142, R150, R151, R154. Legality of a memory instruction. -/
def legalM (isS : Bool) (f : FmtM) (k : MemKind) (sizeOk : Bool) : Bool :=
  predLegal f.pred f.neg && sizeOk && scaOk f.a && (f.scl || !isS) &&
  (if f.scl then scaOk f.d && !f.vi && (k != .cas || (decide (f.d % 2 = 0) && decide (f.d + 1 < 32)))
   else match k with
     | .cas => if f.size = 3 then decide (f.d % 4 = 0) && decide (f.d + 3 < 64) else decide (f.d % 2 = 0)
     | _ => if f.size = 3 then decide (f.d % 2 = 0) else true) &&
  (if f.vi then true else unused f.idx && unused f.scale) &&
  (if f.sx then k == .load && decide (f.size < (if f.scl then 3 else 2)) else true) &&
  (k == .atomic || unused f.aop) &&
  ((k == .load || k == .store) || decide (f.size = 2 ∨ f.size = 3))

/-- The registers of the data group. -/
def fmGroup (f : FmtM) (k : MemKind) : List Nat :=
  if f.scl then (if k == .cas then [f.d, f.d + 1] else [f.d])
  else if k == .cas then (if f.size = 3 then [f.d, f.d + 1, f.d + 2, f.d + 3] else [f.d, f.d + 1])
  else if f.size = 3 then [f.d, f.d + 1] else [f.d]

/-- The registers a memory instruction touches (R141). -/
def touchM (f : FmtM) (k : MemKind) : Touch :=
  if f.scl then ⟨[], f.a :: fmGroup f k⟩ else ⟨(if f.vi then [f.idx] else []) ++ fmGroup f k, [f.a]⟩

/-- The value that a store or atomic takes from the data register of lane `l`, `j` groups on. -/
def ThreadSt.memData (t : ThreadSt) (f : FmtM) (j l : Nat) : Nat :=
  if f.scl then t.sr (f.d + j) % 2 ^ (8 * (fmBytes f))
  else if f.size = 3 then t.vr (f.d + 2 * j) l + 2 ^ 32 * t.vr (f.d + 2 * j + 1) l
  else t.vr (f.d + j) l % 2 ^ (8 * (fmBytes f))

/-- R150. A loaded value extended under SX to `w` bits. -/
def extend (f : FmtM) (w v : Nat) : Nat := if f.sx then ofInt w (toInt (8 * (fmBytes f)) v) else v

/-- The register writes of a result `v` in lane `l`. -/
def memResult (f : FmtM) (l v : Nat) : PendLoad :=
  if f.scl then ⟨[], [(f.d, BitVec.ofNat 64 (extend f 64 v))], false⟩
  else if f.size = 3 then ⟨[(f.d * 64 + l, BitVec.ofNat 32 v), ((f.d + 1) * 64 + l, BitVec.ofNat 32 (v / 2 ^ 32))], [], false⟩
  else ⟨[(f.d * 64 + l, BitVec.ofNat 32 (extend f 32 v))], [], false⟩

/-- All the results of an instruction as one. -/
def joinLoads (atomic : Bool) (ps : List PendLoad) : PendLoad := ⟨ps.flatMap (·.vecs), ps.flatMap (·.scas), atomic⟩

/-! ### The spaces -/

/-- R102, R130. The end of a thread's local space. -/
def localEnd : Thr → Nat
  | .eng _ _ => 0x40000
  | .stw _ => 0x200000
  | .watch => 0x40000

/-- Read local bytes. -/
def State.localRead (s : State) (t : Thr) (a n : Nat) : Nat :=
  match t with
  | .eng e _ => leNat (mapGetList byteDefault s.aq.lstore (e * 0x40000 + a) n)
  | .stw _ => leNat (mapGetList byteDefault s.aq.sram a n)
  | .watch => leNat (mapGetList byteDefault s.aq.wsram a n)

/-- Write local bytes. -/
def State.localWrite (s : State) (t : Thr) (a n v : Nat) : State :=
  match t with
  | .eng e _ => { s with aq := { s.aq with lstore := mapPutList byteDefault s.aq.lstore (e * 0x40000 + a) (leBytes n v) } }
  | .stw _ => { s with aq := { s.aq with sram := mapPutList byteDefault s.aq.sram a (leBytes n v) } }
  | .watch => { s with aq := { s.aq with wsram := mapPutList byteDefault s.aq.wsram a (leBytes n v) } }

/-- R103. Read constant bytes of the hamlet's copy; bytes at or beyond CONST_SIZE read as zero. -/
def State.constRead (s : State) (h size a : Nat) : Nat → Nat
  | 0 => 0
  | n + 1 => (if a < size then (mapGet byteDefault s.aq.constBuf (h * 65536 + a)).toNat else 0) + 256 * s.constRead h size (a + 1) n

/-- The context of a thread's global accesses (R102, R130). -/
def State.thrCtx (s : State) (t : Thr) : Nat :=
  match t with
  | .eng e sl => match s.launch (s.thr (e * 4 + sl)).launch with
    | some l => l.desc.ctx
    | none => 64
  | _ => 0

/-- R355, R357. CLIENT, ID and class of a thread's failures. -/
def State.thrClient (s : State) (t : Thr) : Nat × Nat × Nat :=
  match t with
  | .eng e sl => (e / 16, e * 4 + sl + 65536 * (s.thr (e * 4 + sl)).launch, 1)
  | _ => (0x36, 0, 8)

/-- R117. The thread-fault cause of an access failure; a host-window failure is no thread fault (R359). -/
def AccErr.thrCause : AccErr → Option Nat
  | .mmu c => some (if c = 8 then 2 else 1)
  | .closed => some 2
  | .poison _ => some 2
  | .host _ _ => none

/-- The failure of one lane, with the access error where the global space gave it. -/
structure LaneFault where
  cause : Nat
  err : Option AccErr
  deriving DecidableEq, Repr

/-- The access a memory instruction makes in the global space. -/
def MemKind.acc : MemKind → Acc
  | .load => .read | .store => .write | _ => .atomic

/-- R108. An atomic in the host window, with a root port that does not complete AtomicOp requests: an address error, recorded as UR of R397
(assumption 81). -/
def State.atomicRefused (s : State) (ctx a n : Nat) : Option AccErr :=
  if s.hst.atomics then none
  else match s.vtargets ctx a .atomic n with
    | .ok ps => (ps.find? (fun pa => decide (hwinBase ≤ pa))).map (fun pa => .host (pa - hwinBase) 1)
    | .error _ => none

/-- R108, R152, R154. The check of one lane's address. -/
def State.laneCheck (s : State) (t : Thr) (sp : Space) (k : MemKind) (n a : Nat) : Option LaneFault :=
  let isLocal := sp == .loc || (sp == .const && (thrIsS t))
  if isLocal && decide (localEnd t ≤ a) then some ⟨4, none⟩
  else if sp == .const then (if a % 4 ≠ 0 then some ⟨3, none⟩ else none)
  else if a % n ≠ 0 then some ⟨3, none⟩
  else if isLocal then none
  else
    let r : Option AccErr := match k with
      | .load => (match s.vread (s.thrCtx t) a .read n with
        | .error e => some e
        | .ok _ => none)
      | .store => (match s.vtargets (s.thrCtx t) a .write n with
        | .error e => some e
        | .ok _ => none)
      | _ => (match s.vread (s.thrCtx t) a .atomic n with
        | .error e => some e
        | .ok _ => s.atomicRefused (s.thrCtx t) a n)
    match r with
    | none => none
    | some e => match e.thrCause with
      | some c => some ⟨c, some e⟩
      | none => if k.acc == .atomic then some ⟨2, some e⟩ else none

/-- R152. The faults of the acting lanes: the lanes that fail, lowest first. -/
def State.laneFaults (s : State) (t : Thr) (sp : Space) (k : MemKind) (f : FmtM) (th : ThreadSt) : List (Nat × LaneFault) :=
  (th.memLanes (thrIsS t) f).filterMap (fun l => (s.laneCheck t sp k (fmBytes f) (th.memAddr f l)).map (fun x => (l, x)))

/-- R116, R152. The instruction fails: cause and address of the lowest failing lane, the mask of all of them; a translation failure
also reaches the MMU's reporting (R118). -/
def State.memFault (s : State) (t : Thr) (k : MemKind) (f : FmtM) (th : ThreadSt) (fs : List (Nat × LaneFault)) : State :=
  match fs with
  | [] => s
  | (l, x) :: _ =>
    let a := th.memAddr f l
    let mask := (fs.map (fun p => 2 ^ p.1)).sum
    let c := s.thrClient t
    let s := match x.err with
      | some e => s.accFail c.1 c.2.1 (s.thrCtx t) a k.acc c.2.2 e
      | none => s
    s.faultThread t x.cause mask a

/-- A global read of a thread: 0xFF in each byte where the host window fails (R359). -/
def State.globalRead (s : State) (t : Thr) (a n : Nat) : Nat :=
  match s.vread (s.thrCtx t) a .read n with
  | .ok bs => leNat bs
  | .error _ => 2 ^ (8 * n) - 1

/-- R397. Record the host-window failures of a load or store. -/
def State.noteHost (s : State) (t : Thr) (acc : Acc) (a n : Nat) : State :=
  match s.vread (s.thrCtx t) a acc n with
  | .error (.host off kind) => s.hostFail off kind
  | _ => s

/-- R246. The aligned 32-bit words of a thread's store, taken into the writer's checksum. -/
def State.noteWords (s : State) (t : Thr) (a n v : Nat) : State := s.noteBytes (s.thrCtx t) a (leBytes n v)

/-- A global write of a thread at the places that the state `base` translates to: every lane is translated before any lane writes
(R116). A posted write that the host window refuses is lost (R359). -/
def State.globalWrite (s base : State) (t : Thr) (acc : Acc) (a n v : Nat) : State :=
  match base.vtargets (base.thrCtx t) a acc n with
  | .ok ps => ((runsOf (ps.zip (leBytes n v))).foldl (fun s r => s.physPut r.1 r.2) s).noteWords t a n v
  | .error _ => s.noteHost t acc a n

/-- The bytes that an atomic finds now, at the places that `base` translates to. -/
def State.atomicRead (s base : State) (t : Thr) (a n : Nat) : Nat :=
  match base.vtargets (base.thrCtx t) a .atomic n with
  | .ok ps => leNat (ps.map (fun pa => match s.physByte pa with
      | .ok b => b
      | .error _ => 0xFF))
  | .error _ => 2 ^ (8 * n) - 1

/-- Read one lane's datum from its space. -/
def State.spaceRead (s : State) (t : Thr) (sp : Space) (a n : Nat) : Nat :=
  match sp with
  | .loc => s.localRead t a n
  | .glob => s.globalRead t a n
  | .const =>
    match t with
    | .eng e sl => s.constRead (e / 16) (match s.launch (s.thr (e * 4 + sl)).launch with
        | some l => l.desc.constSize
        | none => 0) a n
    | _ => s.localRead t a n

/-- Write one lane's datum into its space; `base` is the state before the instruction. -/
def State.spaceWrite (s base : State) (t : Thr) (sp : Space) (acc : Acc) (a n v : Nat) : State :=
  match sp with
  | .loc => s.localWrite t a n v
  | .glob => s.globalWrite base t acc a n v
  | .const => s

/-- What an atomic finds in its space. -/
def State.spaceFind (s base : State) (t : Thr) (sp : Space) (a n : Nat) : Nat :=
  match sp with
  | .glob => s.atomicRead base t a n
  | _ => s.localRead t a n

/-! ### The instructions -/

/-- R111. Are 64 class G results outstanding on the engine? A further one waits. -/
def State.outstandingFull (s : State) (t : Thr) : Bool :=
  match t with
  | .eng e _ => decide (64 ≤ ((List.range 4).map (fun sl => (s.thr (e * 4 + sl)).pend.length)).sum)
  | _ => decide (64 ≤ (s.thr (thrKey t)).pend.length)

/-- Deliver the results of an instruction: at once, or as an outstanding result in the global space (R111, R141). -/
def State.deliver (s : State) (t : Thr) (sp : Space) (r : PendLoad) : State :=
  let th := s.thr (thrKey t)
  if sp == .glob then s.setThr (thrKey t) { th with pend := th.pend ++ [r] }.next
  else s.setThr (thrKey t) (th.land r).next

/-- A load as a whole (R150–R152). -/
def State.runLoad (s : State) (t : Thr) (sp : Space) (f : FmtM) (sizeOk : Bool) : State :=
  if sp == .glob && s.outstandingFull t then s
  else s.issue t (legalM (thrIsS t) f .load sizeOk && !(sp == .glob && t == .watch)) (touchM f .load) (fun th =>
    match s.laneFaults t sp .load f th with
    | [] =>
      let ls := th.memLanes (thrIsS t) f
      if ls = [] then s.setThr (thrKey t) th.next
      else
        let r := joinLoads false (ls.map (fun l => memResult f l (s.spaceRead t sp (th.memAddr f l) (fmBytes f))))
        let s := if sp == .glob then ls.foldl (fun s l => s.noteHost t .read (th.memAddr f l) (fmBytes f)) s else s
        s.deliver t sp r
    | fs => s.memFault t .load f th fs)

/-- A store as a whole: lanes meet memory in ascending order (R153). -/
def State.runStore (s : State) (t : Thr) (sp : Space) (f : FmtM) : State :=
  s.issue t (legalM (thrIsS t) f .store true && !(sp == .glob && t == .watch)) (touchM f .store) (fun th =>
    match s.laneFaults t sp .store f th with
    | [] =>
      let u := (th.memLanes (thrIsS t) f).foldl (fun u l => u.spaceWrite s t sp .write (th.memAddr f l) (fmBytes f) (th.memData f 0 l)) s
      u.setThr (thrKey t) th.next
    | fs => s.memFault t .store f th fs)

/-- R151. The atomic operation AOP on memory `m` with operand `d`, at `w` bits. -/
def atomicOp (aop w m d : Nat) : Nat :=
  match aop with
  | 0 => (m + d) % 2 ^ w
  | 1 => if toInt w d < toInt w m then d else m
  | 2 => if toInt w m < toInt w d then d else m
  | 3 => if d < m then d else m
  | 4 => if m < d then d else m
  | 5 => m &&& d
  | 6 => m ||| d
  | _ => d

/-- The lanes of an atomic in ascending order: each receives the value it found (R153). `g l m` is the new value, `base` the state
before the instruction. -/
def State.atomicLanes (base : State) (t : Thr) (sp : Space) (f : FmtM) (th : ThreadSt) (g : Nat → Nat → Nat) (s : State) :
    List Nat → State × List PendLoad
  | [] => (s, [])
  | l :: ls =>
    let a := th.memAddr f l
    let m := s.spaceFind base t sp a (fmBytes f)
    let s := s.spaceWrite base t sp .atomic a (fmBytes f) (g l m)
    let r := State.atomicLanes base t sp f th g s ls
    (r.1, memResult f l m :: r.2)

/-- An atomic or compare-and-swap as a whole. -/
def State.runAtomic (s : State) (t : Thr) (sp : Space) (f : FmtM) (k : MemKind) (g : ThreadSt → Nat → Nat → Nat) : State :=
  if sp == .glob && s.outstandingFull t then s
  else s.issue t (legalM (thrIsS t) f k true && !(sp == .glob && t == .watch)) (touchM f k) (fun th =>
    match s.laneFaults t sp k f th with
    | [] =>
      let ls := th.memLanes (thrIsS t) f
      if ls = [] then s.setThr (thrKey t) th.next
      else
        let r := State.atomicLanes s t sp f th (g th) s ls
        r.1.deliver t sp (joinLoads true r.2)
    | fs => s.memFault t k f th fs)

/-- R151. The new value of ATL and ATG. -/
def atomicNew (f : FmtM) (th : ThreadSt) (l m : Nat) : Nat := atomicOp f.aop (8 * (fmBytes f)) m (th.memData f 0 l)
/-- R151. The new value of CASL and CASG: memory takes the new value when it equals the compare value. -/
def casNew (f : FmtM) (th : ThreadSt) (l m : Nat) : Nat := if m = th.memData f 0 l then th.memData f 1 l else m

/-- R151 LDL: local load. -/
def execLdl (t : Thr) (f : FmtM) (s : State) : Host.Outcome State Fault Refusal := .next (s.runLoad t .loc f true)
/-- R151 STL: local store. -/
def execStl (t : Thr) (f : FmtM) (s : State) : Host.Outcome State Fault Refusal := .next (s.runStore t .loc f)
/-- R151 LDG: global load. Its data is captured at issue and its registers are written at GLOBAL_LOAD_RETURN (assumption 12). -/
def execLdg (t : Thr) (f : FmtM) (s : State) : Host.Outcome State Fault Refusal := .next (s.runLoad t .glob f true)
/-- R151 STG: global store. -/
def execStg (t : Thr) (f : FmtM) (s : State) : Host.Outcome State Fault Refusal := .next (s.runStore t .glob f)
/-- R151 LDC: constant load; SIZE 0b10 or 0b11 only. -/
def execLdc (t : Thr) (f : FmtM) (s : State) : Host.Outcome State Fault Refusal :=
  .next (s.runLoad t .const f (decide (2 ≤ f.size)))
/-- R151 ATL: local atomic. -/
def execAtl (t : Thr) (f : FmtM) (s : State) : Host.Outcome State Fault Refusal := .next (s.runAtomic t .loc f .atomic (atomicNew f))
/-- R108, R151 ATG: global atomic. -/
def execAtg (t : Thr) (f : FmtM) (s : State) : Host.Outcome State Fault Refusal := .next (s.runAtomic t .glob f .atomic (atomicNew f))
/-- R151 CASL: local compare and swap. -/
def execCasl (t : Thr) (f : FmtM) (s : State) : Host.Outcome State Fault Refusal := .next (s.runAtomic t .loc f .cas (casNew f))
/-- R108, R151 CASG: global compare and swap. -/
def execCasg (t : Thr) (f : FmtM) (s : State) : Host.Outcome State Fault Refusal := .next (s.runAtomic t .glob f .cas (casNew f))

/-- R111. The data of outstanding result `i` of the thread returns: its registers are written and become ready. -/
def execGlobalLoadReturn (t : Thr) (i : Nat) (s : State) : Host.Outcome State Fault Refusal :=
  let th := s.thr (thrKey t)
  .next (match th.pend[i]? with
    | none => s
    | some p => s.setThr (thrKey t) { th.land p with pend := th.pend.eraseIdx i })

end Sys2Proof.Machine
end

