-- ==== Sys2Proof/Machine/AqkenCtl.lean ====
section
/-! DEFINITION. Aqken branches and system instructions, and illegal words (R105, R107, R112, R142, R155, R163). -/
namespace Sys2Proof.Machine

/-! ### Branches (R155) -/

/-- R155. Is the branch taken: any bit of the effective predicate, or every bit under ALL (only bit 0 counts on Aqken-S). -/
def ThreadSt.taken (t : ThreadSt) (isS : Bool) (f : FmtB) : Bool :=
  let m := t.eff isS f.pred f.neg
  if f.all then decide (m = (if isS then 1 else 2 ^ 64 - 1)) else decide (m ≠ 0)

/-- R155. The relative target. -/
def relTarget (pc disp : Nat) : Nat := ofInt 48 ((pc : Int) + 8 * toInt 30 disp)

/-- A branch as a whole: `viaA` takes the target from sA, `link` writes the address past the branch into sD. -/
def State.runBranch (s : State) (t : Thr) (f : FmtB) (viaA link : Bool) : State :=
  let legal := predLegal f.pred f.neg && (if viaA then scaOk f.a && unused f.disp else unused f.a) && (if link then scaOk f.d else unused f.d)
  s.issue t legal ⟨[], (if viaA then [f.a] else []) ++ (if link then [f.d] else [])⟩ (fun th =>
    let dst := th.sr f.a
    if viaA && decide (dst % 8 ≠ 0) then s.faultThread t 3 0 dst
    else if th.taken (thrIsS t) f then
      let target := if viaA then dst else relTarget th.pc.toNat f.disp
      let th1 := if link then th.setS f.d (th.pc.toNat + 8) else th
      let s1 := s.setThr (thrKey t) { th1 with pc := BitVec.ofNat 48 target }
      if s.inCode t target then s1 else s1.faultThread t 5 0 target
    else s.setThr (thrKey t) th.next)

/-- R155 BR: relative branch. -/
def execBranch (t : Thr) (f : FmtB) (s : State) : Host.Outcome State Fault Refusal := .next (s.runBranch t f false false)
/-- R155 BRX: branch to the address in sA. -/
def execBrx (t : Thr) (f : FmtB) (s : State) : Host.Outcome State Fault Refusal := .next (s.runBranch t f true false)
/-- R155 CALL: relative, with a link register. -/
def execCall (t : Thr) (f : FmtB) (s : State) : Host.Outcome State Fault Refusal := .next (s.runBranch t f false true)
/-- R155 CALLX: to the address in sA, with a link register. -/
def execCallx (t : Thr) (f : FmtB) (s : State) : Host.Outcome State Fault Refusal := .next (s.runBranch t f true true)

/-! ### Barriers and the end of a thread (R112, R163) -/

/-- The keys of the four threads of an engine. -/
def engineKeys (e : Nat) : List Nat := (List.range 4).map (fun sl => e * 4 + sl)

/-- R112. Threads of the engine that have not ended all wait at BAR.E: they are released. -/
def State.releaseBarE (s : State) (e : Nat) : State :=
  let live := (engineKeys e).filter (fun k => (s.thr k).state == .runnable || (s.thr k).state == .suspended)
  if live ≠ [] ∧ live.all (fun k => (s.thr k).wait == .barE) then
    live.foldl (fun s k => s.setThr k { s.thr k with wait := .none }) s
  else s

/-- The keys of the threads that share hamlet barriers with a thread: its hamlet's, the eight stewards', or the Watch's own. -/
def barrierPeers : Thr → List Nat
  | .eng e _ => (List.range 64).map (fun i => e / 16 * 64 + i)
  | .stw _ => (List.range 8).map (1024 + ·)
  | .watch => [1032]

/-- Where hamlet barrier counters stand: the hamlet's record; on Aqken-S, HID reads 0xFF (assumption 13). -/
def barrierHome : Thr → Nat
  | .eng e _ => e / 16
  | .stw _ => 255
  | .watch => 254

/-- The end of a thread (R112, R163): outstanding loads are discarded and waiters at BAR.E released; a steward core halts. -/
def State.endThr (s : State) (t : Thr) : State :=
  let k := thrKey t
  let s := s.setThr k { s.thr k with state := .ended, pend := [], got := [], want := [], wait := .none }
  match t with
  | .eng e _ => s.releaseBarE e
  | .stw c => s.put R.STW_STAT_HALTED (s.get R.STW_STAT_HALTED ||| 2 ^ c)
  | .watch => s

/-- An instruction without operands. -/
def State.runPlain (s : State) (t : Thr) (effect : ThreadSt → State) : State := s.issue t true ⟨[], []⟩ effect

/-- R163 NOP. -/
def execNop (t : Thr) (s : State) : Host.Outcome State Fault Refusal :=
  .next (s.runPlain t (fun th => s.setThr (thrKey t) th.next))

/-- R163 END: the thread ends. -/
def execEndThread (t : Thr) (s : State) : Host.Outcome State Fault Refusal := .next (s.runPlain t (fun _ => s.endThr t))

/-- R117, R163 BREAK: the BREAK fault, with PC advanced past it. -/
def execBreakThread (t : Thr) (s : State) : Host.Outcome State Fault Refusal :=
  .next (s.runPlain t (fun th => s.faultThread t 6 0 th.pc.toNat))

/-- R107 FENCE.L: local accesses against global ones; accesses of the model are in order already. -/
def execFenceL (t : Thr) (s : State) : Host.Outcome State Fault Refusal :=
  .next (s.runPlain t (fun th => s.setThr (thrKey t) th.next))

/-- R107. A fence that waits for the thread's earlier global atomics; stores of the model are complete at issue. -/
def State.runFence (s : State) (t : Thr) : State :=
  s.runPlain t (fun th => if th.pend.any (·.atomic) then s else s.setThr (thrKey t) th.next)

/-- R107 FENCE.G: earlier global stores and atomics are complete. -/
def execFenceG (t : Thr) (s : State) : Host.Outcome State Fault Refusal := .next (s.runFence t)

/-- R107 FENCE.S: as FENCE.G, and earlier host-window writes have been accepted, which is so at issue. -/
def execFenceS (t : Thr) (s : State) : Host.Outcome State Fault Refusal := .next (s.runFence t)

/-- R112 BAR.E: the thread waits until every thread of the engine in the launch has arrived. -/
def execBarE (t : Thr) (s : State) : Host.Outcome State Fault Refusal :=
  .next (s.runPlain t (fun th =>
    match t with
    | .eng e _ => (s.setThr (thrKey t) { th.next with wait := .barE }).releaseBarE e
    | _ => s.setThr (thrKey t) th.next))

/-- R112. The threads that wait on barrier `n` for no more than `arrived` threads go on. -/
def State.releaseBarH (s : State) (t : Thr) (n arrived : Nat) : State :=
  (barrierPeers t).foldl (fun s k =>
    match (s.thr k).wait with
    | .barH m c => if m = n ∧ c ≤ arrived then s.setThr k { s.thr k with wait := .none } else s
    | _ => s) s

/-- Does a thread still wait on barrier `n`? -/
def State.waitsBarH (s : State) (t : Thr) (n : Nat) : Bool :=
  (barrierPeers t).any (fun k => match (s.thr k).wait with
    | .barH m _ => decide (m = n)
    | _ => false)

/-- R112, R163 BAR.H: the thread waits on hamlet barrier `n` until the `count` that its own instruction gives have reached it; the counter
starts again once no thread waits on it (assumption 13). A count of 0 or above 64 is illegal. -/
def execBarH (t : Thr) (n count : Nat) (s : State) : Host.Outcome State Fault Refusal :=
  .next (s.issue t (decide (1 ≤ count) && decide (count ≤ 64)) ⟨[], []⟩ (fun th =>
    let h := s.hamlet (barrierHome t)
    let arrived := (tabGet h.barH n).getD 0 + 1
    let s1 := s.setThr (thrKey t) { th.next with wait := .barH n count }
    let s2 := s1.releaseBarH t n arrived
    s2.setHamlet (barrierHome t) { h with barH := if s2.waitsBarH t n then tabPut h.barH n arrived else tabDel h.barH n }))

/-! ### Special registers (R100, R129, R163) -/

/-- The STW cycle counter: 1.2 GHz against the time base (assumption 3). -/
def State.stwClk (s : State) : Nat := s.ticks * 1024 / 275
/-- The SP cycle counter: 200 MHz against the time base (assumption 3). -/
def State.spClk (s : State) : Nat := s.ticks * 512 / 825
/-- A hamlet's CORE cycle counter (R100). -/
def State.coreClk (s : State) (h : Nat) : Nat := (s.hamlet h).clkAcc / 20625 % 2 ^ 64

/-- R100, R129. The value of special register `r` (0 TID, 1 LANE, 2 EID, 3 HID, 4 CLK, 5 FRAME, 6 BAND) for a thread, LANE apart. -/
def State.special (s : State) (t : Thr) (r : Nat) : Nat :=
  match t with
  | .eng e sl =>
    (match r with
     | 0 => e * 4 + sl | 2 => e | 3 => e / 16 | 4 => s.coreClk (e / 16)
     | 5 => (match s.launch (s.thr (e * 4 + sl)).launch with
        | some l => l.desc.frame
        | none => 0)
     | 6 => (s.thr (e * 4 + sl)).band.toNat
     | _ => 0)
  | .stw c =>
    (match r with
     | 0 => c | 2 => c | 3 => 0xFF | 4 => s.stwClk % 2 ^ 64 | 5 => s.get R.SCO_S_FRAME_FRAME | _ => 0)
  | .watch => (match r with
     | 3 => 0xFF | 4 => s.spClk % 2 ^ 64 | _ => 0)

/-- R163 MOVSR. -/
def execMovsr (t : Thr) (pred : Nat) (neg : Bool) (d selr : Nat) (v : Bool) (s : State) : Host.Outcome State Fault Refusal :=
  let legal := predLegal pred neg && decide (selr < 7) && (if v then !(thrIsS t) else scaOk d && decide (selr ≠ 1))
  .next (s.issue t legal (if v then ⟨[d], []⟩ else ⟨[], [d]⟩) (fun th =>
    let mask := th.eff (thrIsS t) pred neg
    s.setThr (thrKey t)
      (if v then (th.mapLanes mask d (fun l => if selr = 1 then l else s.special t selr)).next
       else (if mask = 0 then th else th.setS d (s.special t selr)).next)))

/-! ### Illegal words (R136–R142) -/

/-- Format A of a word. -/
def wordA (w : Nat) : FmtA :=
  { pred := bitsOf w 53 3, neg := bitAt w 52, d := bitsOf w 46 6, a := bitsOf w 40 6, b := bitsOf w 34 6, rc := bitsOf w 28 6,
    sb := bitAt w 27, scl := bitAt w 26, mod := bitsOf w 23 3 }
/-- Format I of a word. -/
def wordI (w : Nat) : FmtI :=
  { pred := bitsOf w 53 3, neg := bitAt w 52, d := bitsOf w 46 6, a := bitsOf w 40 6, scl := bitAt w 39, ik := bitsOf w 32 2, imm := bitsOf w 0 32 }
/-- Format M of a word. -/
def wordM (w : Nat) : FmtM :=
  { pred := bitsOf w 53 3, neg := bitAt w 52, d := bitsOf w 46 6, a := bitsOf w 40 6, idx := bitsOf w 34 6, vi := bitAt w 33,
    size := bitsOf w 31 2, sx := bitAt w 30, scale := bitsOf w 28 2, scl := bitAt w 27, aop := bitsOf w 24 3, off := bitsOf w 0 24 }
/-- Format B of a word. -/
def wordB (w : Nat) : FmtB :=
  { pred := bitsOf w 53 3, neg := bitAt w 52, d := bitsOf w 46 6, a := bitsOf w 40 6, all := bitAt w 32, disp := bitsOf w 0 30 }
/-- Format X of a word. -/
def wordX (w : Nat) : FmtX :=
  { pred := bitsOf w 53 3, neg := bitAt w 52, d := bitsOf w 46 6, a := bitsOf w 40 6, b := bitsOf w 34 6, filt := bitsOf w 32 2,
    cam := bitAt w 31, index := bitsOf w 16 6, pl := bitsOf w 0 16 }

/-- R138, R142, R157–R160. Legality of SWEEP (0), SAMPLE (1) and DHINT (2). -/
def legalX (isS : Bool) (f : FmtX) (op : Nat) : Bool :=
  !isS && predLegal f.pred f.neg && decide (f.a ≤ 60) && decide (f.filt < 3) && decide (f.pl % 16 = 0) &&
  (match op with
   | 0 => !f.cam && unused f.index
   | 1 => decide (f.d ≤ 59) && (!f.cam || decide (f.index < 32))
   | _ => !f.cam && unused f.d)

/-- Is it an opcode of the integer, float or conversion tables with sources A and B, three sources, or A alone? -/
def opcodeSrcs (o : Nat) : Option Srcs :=
  if [0x01, 0x02, 0x03, 0x04, 0x05, 0x07, 0x08, 0x09, 0x0A, 0x10, 0x11, 0x12, 0x13, 0x14, 0x15, 0x16, 0x19,
      0x20, 0x21, 0x22, 0x24, 0x25, 0x28, 0x29, 0x2B, 0x2C, 0x33, 0x64].contains o then some ⟨true, true, false⟩
  else if [0x06, 0x1A, 0x23, 0x2A, 0x68].contains o then some ⟨true, true, true⟩
  else if [0x0B, 0x17, 0x18, 0x26, 0x27, 0x30, 0x31, 0x32, 0x34, 0x35, 0x36, 0x37, 0x60, 0x61, 0x62, 0x63, 0x65, 0x66, 0x67].contains o then
    some ⟨true, false, false⟩
  else none

/-- R163, R164. Legality of the system instructions: PRED = 0 and NEG = 0 except for MOVSR, and every field not named is zero. -/
def legalSys (t : Thr) (o w : Nat) : Bool :=
  let plain := decide (bitsOf w 52 4 = 0)
  let regs0 := decide (bitsOf w 34 18 = 0)
  let d := bitsOf w 46 6
  let a := bitsOf w 40 6
  let b := bitsOf w 34 6
  let c := bitsOf w 0 34
  let isStw := match t with
    | .stw _ => true
    | _ => false
  match o with
  | 0xC0 => plain && regs0 && decide (c = 0)
  | 0xC1 => plain && regs0 && decide (c = 0)
  | 0xC2 => plain && regs0 && decide (c = 0)
  | 0xC3 => plain && regs0 && decide (c < 3)
  | 0xC4 => plain && regs0 && decide (c = 0)
  | 0xC5 => plain && regs0 && decide (bitsOf c 4 4 = 0) && decide (bitsOf c 15 19 = 0) && decide (1 ≤ bitsOf c 8 7) && decide (bitsOf c 8 7 ≤ 64)
  | 0xC6 => predLegal (bitsOf w 53 3) (bitAt w 52) && decide (a = 0) && decide (b = 0) && decide (c < 32) && decide (c % 16 < 7) &&
      (if bitAt c 4 then !(thrIsS t) else scaOk d && decide (c % 16 ≠ 1))
  | 0xE0 => isStw && plain && scaOk d && scaOk a && decide (b = 0) && decide (c = 0)
  | 0xE1 => isStw && plain && decide (d = 0) && scaOk a && decide (b = 0) && decide (c = 0)
  | 0xE2 => isStw && plain && decide (d = 0) && scaOk a && decide (b = 0) && decide (c = 0)
  | 0xE3 => isStw && plain && decide (d = 0) && scaOk a && scaOk b && decide (c = 0)
  | 0xE4 => isStw && plain && decide (d = 0) && scaOk a && scaOk b && decide (c = 0)
  | 0xE5 => isStw && plain && decide (d = 0) && scaOk a && decide (b = 0) && decide (c = 0)
  | 0xE6 => isStw && plain && decide (d % 4 = 0) && decide (4 ≤ d) && decide (d ≤ 28) && decide (a = 0) && decide (b = 0) && decide (c < 2)
  | _ => false

/-- R142. Is the 64-bit word a legal instruction for the thread? -/
def legalWord (t : Thr) (w : Nat) : Bool :=
  let o := bitsOf w 56 8
  let isS := thrIsS t
  let fa := wordA w
  let fi := wordI w
  let fm := wordM w
  let fb := wordB w
  let rsvA := decide (bitsOf w 0 23 = 0)
  let rsvI := decide (bitsOf w 34 5 = 0)
  let rsvB := !bitAt w 33 && decide (bitsOf w 30 2 = 0) && decide (bitsOf w 34 6 = 0)
  let rsvX := decide (bitsOf w 22 9 = 0)
  let glob := !(t == .watch)
  match opcodeSrcs o with
  | some u =>
    let modOk := if [0x60, 0x61, 0x62, 0x63, 0x64].contains o then decide (fa.mod < 4) else unused fa.mod
    rsvA && legalA isS fa u modOk
  | none =>
    if o = 0x40 ∨ o = 0x41 then rsvA && legalCmp isS fa (decide (fa.mod < 6))
    else if o = 0x42 then rsvA && legalCmp isS fa true
    else if 0x48 ≤ o ∧ o ≤ 0x4B then rsvA && legalP fa (preOk fa.d) (preOk fa.a) (preOk fa.b)
    else if o = 0x4C ∨ o = 0x4D then rsvA && legalP fa (scaOk fa.d) (preOk fa.a) (unused fa.b)
    else if o = 0x4E then rsvA && legalP fa (preOk fa.d) (scaOk fa.a) (unused fa.b)
    else if o = 0x50 then rsvA && legalA isS fa ⟨false, true, false⟩ (unused fa.mod)
    else if o = 0x51 then rsvA && legalA isS fa ⟨true, true, false⟩ true
    else if o = 0x52 then rsvA && legalP fa (scaOk fa.d) true (scaOk fa.b) && !isS
    else if o = 0x53 then rsvA && legalA isS fa ⟨true, true, false⟩ (unused fa.mod) && !fa.scl
    else if o = 0x58 then rsvI && legalI isS fi false (decide (fi.ik < 3))
    else if o = 0x59 then rsvI && legalI isS fi false (decide (fi.ik = 2)) && fi.scl
    else if 0x5A ≤ o ∧ o ≤ 0x5D then rsvI && legalI isS fi true (decide (fi.ik = 0 ∨ fi.ik = 2))
    else if o = 0x5E ∨ o = 0x5F ∨ o = 0x6F then rsvI && legalI isS fi true (decide (fi.ik = 2))
    else if o = 0x80 then legalM isS fm .load true
    else if o = 0x81 then legalM isS fm .store true
    else if o = 0x82 then legalM isS fm .load true && glob
    else if o = 0x83 then legalM isS fm .store true && glob
    else if o = 0x84 then legalM isS fm .load (decide (2 ≤ fm.size))
    else if o = 0x85 then legalM isS fm .atomic true
    else if o = 0x86 then legalM isS fm .atomic true && glob
    else if o = 0x87 then legalM isS fm .cas true
    else if o = 0x88 then legalM isS fm .cas true && glob
    else if o = 0xA0 then rsvB && predLegal fb.pred fb.neg && unused fb.a && unused fb.d
    else if o = 0xA1 then rsvB && predLegal fb.pred fb.neg && scaOk fb.a && unused fb.disp && unused fb.d
    else if o = 0xA2 then rsvB && predLegal fb.pred fb.neg && unused fb.a && scaOk fb.d
    else if o = 0xA3 then rsvB && predLegal fb.pred fb.neg && scaOk fb.a && unused fb.disp && scaOk fb.d
    else if 0xB0 ≤ o ∧ o ≤ 0xB2 then rsvX && legalX isS (wordX w) (o - 0xB0)
    else if o = 0xB3 then !isS && decide (bitsOf w 52 4 = 0) && decide (bitsOf w 46 6 % 8 = 0) && decide (bitsOf w 3 43 = 0)
    else legalSys t o w

/-- R142. A word that is illegal for the thread raises ILLEGAL with no effect; a legal word is not this event. -/
def execIllegalInstruction (t : Thr) (word : Nat) (s : State) : Host.Outcome State Fault Refusal :=
  .next (if legalWord t word then s else s.issue t false ⟨[], []⟩ (fun _ => s))

end Sys2Proof.Machine
end

