-- ==== Sys2Proof/Machine/Backlight.lean ====
section
/-! DEFINITION. The backlight chains: records, transfers, latch pulses, discovery, derating and lamp-out (R254–R267). -/
namespace Sys2Proof.Machine

/-! ### Chains and drivers -/

/-- A driver that has returned no status (assumption 28). -/
def driverDefault (_ : Nat) : DriverSt := { temp := 0, tempAt := none, applied := 100, bad := 0, miss := false }
/-- A chain at rest. -/
def chainDefault (_ : Nat) : ChainSt :=
  { drivers := [], sent := none, busy := false, urgent := false, discovering := false, discoverDue := false, found := false, done := false,
    failed := [], chainFailed := false, lampDue := false, again := false }
/-- Chain `c`. -/
def State.chain (s : State) (c : Nat) : ChainSt := mapGet chainDefault s.bkl.chains c
/-- Replace chain `c`. -/
def State.setChain (s : State) (c : Nat) (x : ChainSt) : State :=
  { s with bkl := { s.bkl with chains := mapPut chainDefault s.bkl.chains c x } }
/-- Driver `i` of a chain. -/
def ChainSt.driver (x : ChainSt) (i : Nat) : DriverSt := mapGet driverDefault x.drivers i
/-- Replace driver `i` of a chain. -/
def ChainSt.setDriver (x : ChainSt) (i : Nat) (d : DriverSt) : ChainSt := { x with drivers := mapPut driverDefault x.drivers i d }

/-- Set one bit of a mask field. -/
def State.putBit (s : State) (f : Fld) (i : Nat) (b : Bool) : State :=
  let v := s.get f
  s.put f (if b then v ||| 2 ^ i else v - (v &&& 2 ^ i))

/-- R269. Drivers of a chain. -/
def State.chainCount (s : State) (c : Nat) : Nat := clampN 1 256 (s.get (R.BKL_CHCFG_COUNT c))

/-- R261. Is the chain driven: enabled, found whole, and not under discovery? -/
def State.chainDriven (s : State) (c : Nat) : Bool :=
  bitAt (s.get R.BKL_CTL_CH_EN) c && (s.chain c).found && !(s.chain c).discovering && !s.on (R.BKL_CHSTAT_BROKEN c) && !s.on (R.BKL_CHSTAT_LEN_MISMATCH c)

/-- R265. The lamp-out policy in force: 0b11 acts as 0b10. -/
def State.lampPolicy (s : State) : Nat := min 2 (s.get R.BKL_POLICY_LAMP)
/-- R268. GSHIFT; larger values act as 8. -/
def State.lampShift (s : State) : Nat := min 8 (s.get R.BKL_POLICY_GSHIFT)

/-! ### Records (R255, R256) -/

/-- One step of the CRC-8 with polynomial x^8 + x^2 + x + 1, MSB first. -/
def crc8Bits : Nat → Nat → Nat
  | 0, c => c
  | n + 1, c => crc8Bits n (if 128 ≤ c then (2 * c % 256) ^^^ 7 else 2 * c)
/-- R255. CRC-8 of bytes in sent order. -/
def crc8 (bs : List Byte) : Nat := bs.foldl (fun c b => crc8Bits 8 (c ^^^ b.toNat)) 0

/-- The three bytes of a 24-bit word, MSB first. -/
def be24 (v : Nat) : List Byte := [BitVec.ofNat 8 (v / 65536), BitVec.ofNat 8 (v / 256), BitVec.ofNat 8 v]

/-- R255. A record as its 52 bytes in sent order: SYNC, control bits [23:8], CRC, and 16 string words. -/
def bklRecord (sync ctl : Nat) (strings : List Nat) : List Byte :=
  let head := [BitVec.ofNat 8 sync, BitVec.ofNat 8 (ctl / 256), BitVec.ofNat 8 ctl]
  let body := strings.flatMap be24
  head ++ [BitVec.ofNat 8 (crc8 (head ++ body))] ++ body

/-- R256. Is a returned record valid: its ID and its CRC? -/
def statusOk (b : List Byte) : Bool :=
  decide (b.length = 52) && decide ((b.getD 0 0).toNat = 0x5A) && decide (crc8 (b.take 3 ++ b.drop 4) = (b.getD 3 0).toNat)

/-- Word `i` of the strings of a record. -/
def stringWord (b : List Byte) (i : Nat) : Nat :=
  (b.getD (4 + 3 * i) 0).toNat * 65536 + (b.getD (5 + 3 * i) 0).toNat * 256 + (b.getD (6 + 3 * i) 0).toNat

/-! ### Setpoints (R262, R265, R437) -/

/-- R262. The target percentage at temperature `t` (an 8-bit signed code). -/
def State.derateTarget (s : State) (t : Nat) : Nat :=
  let ovr := toInt 8 t - toInt 8 (s.get R.BKL_DERATE_KNEE)
  let floor : Int := s.get R.BKL_DERATE_FLOOR
  if ovr ≤ 0 then 100 else (max floor (100 - (s.get R.BKL_DERATE_SLOPE : Int) * ovr)).toNat

/-- R262. The applied percentage of a transfer that may raise it by `up` points: FLOOR where no valid TEMP is less than 1 s old (assumption 28). -/
def State.derateNext (s : State) (d : DriverSt) (up : Nat) : Nat :=
  match d.tempAt with
  | none => s.get R.BKL_DERATE_FLOOR
  | some t =>
    if 20625 * 1000000 ≤ (s.ticks - t) * 64 then s.get R.BKL_DERATE_FLOOR
    else
      let g := s.derateTarget d.temp
      if g < d.applied then g else min g (d.applied + up)

/-- R265. Is string `str` of driver `drv` off? -/
def State.stringOff (s : State) (x : ChainSt) (drv str : Nat) : Bool :=
  match s.lampPolicy with
  | 0 => x.failed.contains (drv * 16 + str)
  | 1 => x.failed.any (fun f => decide (f / 16 / 2 ^ s.lampShift = drv / 2 ^ s.lampShift))
  | _ => x.failed ≠ []

/-- R437. The trim of a string in force, in 1/4,096. -/
def State.stringTrim (s : State) (c drv str : Nat) : Int :=
  match tabGet s.cal.elems (5 * 2 ^ 32 + c * 4096 + drv * 16 + str) with
  | some e => e.value
  | none => 0

/-- R262. The string word sent for a setpoint word. -/
def State.stringOut (s : State) (c : Nat) (x : ChainSt) (drv str w : Nat) (applied : Nat) : Nat :=
  let iset := ((bitsOf w 0 12 : Int) * (4096 + s.stringTrim c drv str) / 4096).toNat
  let out := if s.stringOff x drv str then 0 else min (iset * applied / 100) (s.get (R.BKL_IMAX_ISET_MAX c))
  out % 4096 * 4096 + bitsOf w 12 6 * 64 + bitsOf w 18 6

/-- R265. Is the chain blanked? -/
def State.chainBlanked (s : State) (c : Nat) : Bool := bitAt (s.get R.BKL_STAT_BLANKED) c

/-- R262, R265. The records of a chain built from its setpoint image, with the applied percentages; ENABLE is 0 where the chain is blanked. -/
def State.buildRecords (s : State) (c up : Nat) (img : List Byte) : ChainSt × List (List Byte) :=
  foldRange (s.chainCount c) (fun (p : ChainSt × List (List Byte)) i =>
    let d := p.1.driver i
    let a := s.derateNext d up
    let words := (List.range 16).map (fun k => s.stringOut c p.1 i k (leAt img (64 * i + 4 * k) 4) a)
    let en := if s.chainBlanked c then 0 else 1
    (p.1.setDriver i { d with applied := a }, p.2 ++ [bklRecord 0xB4 (en * 256) words])) (s.chain c, [])

/-- R269. The lowest applied value of a chain is shown. -/
def State.showDerate (s : State) (c : Nat) : State :=
  let x := s.chain c
  s.put (R.BKL_CHSTAT_DERATE c) ((List.range (s.chainCount c)).foldl (fun m i => min m (x.driver i).applied) 100)

/-- R259, R262, R465. Start the transfer of a chain under the configuration's backlight fields: the image is read and the records go out,
the farthest driver's first. An urgent transfer raises no applied percentage, which rises once a frame. -/
def State.bklTransfer (s : State) (c : Nat) (urgent : Bool) : State :=
  let s := s.bklLoad c
  let n := s.chainCount c
  let va := s.addrOf (R.BKL_IMG_LO_ADDR c) (R.BKL_IMG_HI_ADDR c)
  match s.vread 0 va .read (64 * n) with
  | .error e =>
    let s := (s.accFail 0x35 0 0 va .read 5 e).bump (R.BKL_CNT_COUNT c 7)
    (s.setChain c { s.chain c with sent := none, busy := false, urgent := false }).putBit R.BKL_STAT_RUNNING c false
  | .ok img =>
    let r := s.buildRecords c (if urgent then 0 else 1) img
    let s := s.setChain c { r.1 with sent := some r.2, busy := true, urgent := urgent }
    ((s.putBit R.BKL_STAT_RUNNING c true).showDerate c).emit (.shift c r.2.reverse.flatten)

/-- R265. Drive a latch pulse on a chain. -/
def State.pulse (s : State) (c k : Nat) : State := s.emit (.latch c k)

/-- R261. The probe record of a discovery, after its SYNC. -/
def State.probeRecord (s : State) (c : Nat) : State :=
  let s := s.emit (.shift c (bklRecord 0xC3 0 (List.replicate 16 0)))
  (s.setChain c { s.chain c with discovering := true, discoverDue := false, busy := false, sent := none }).putBit R.BKL_STAT_RUNNING c false

/-- R261. Discovery begins: SYNC and one probe record. -/
def State.probe (s : State) (c : Nat) : State := (s.pulse c 1).probeRecord c

/-! ### The frame of a chain (R258–R260) -/

/-- R259, R265. The pulses of a frame start: SYNC_LATCH where the transfer is complete, else SYNC; a transfer that is not complete is abandoned. A
blanked chain receives BLANK and SYNC. -/
def State.bklSettle (s : State) (c : Nat) : State :=
  let x := s.chain c
  let s := if s.chainBlanked c then (s.pulse c 4).pulse c 1
    else if s.chainDriven c && x.sent.isSome && !x.busy then (s.pulse c 3).put (R.BKL_CHSTAT_OVERRUN c) 0
    else s.pulse c 1
  if x.busy then
    (((((s.setChain c { x with busy := false, sent := none }).putBit R.BKL_STAT_RUNNING c false).put (R.BKL_CHSTAT_OVERRUN c) 1).bump (R.BKL_CNT_COUNT c 1)).log 15 0 c 1 2 0).raise Irq.BKL_OVERRUN
  else s

/-- R269. RX_ERR speaks of the last frame: a frame in which no transfer completed has none. -/
def State.rxErrFrame (s : State) (c : Nat) : State :=
  if (s.chain c).done then s.setChain c { s.chain c with done := false } else s.put (R.BKL_CHSTAT_RX_ERR c) 0

/-- R259, R261, R265, R266. A frame starts on an enabled chain: an urgent transfer goes on; otherwise the frame's transfer is settled, and a discovery
that is due or the next transfer begins. A chain blanked under GROUP has failed and takes no transfer. -/
def State.bklChainFrame (s : State) (c : Nat) : State :=
  let x := s.chain c
  if !bitAt (s.get R.BKL_CTL_CH_EN) c then s
  else
    let s := s.rxErrFrame c
    if x.urgent && x.busy then s.pulse c 1
    else
      let s := s.bklSettle c
      if x.discovering then s
      else if x.discoverDue then s.probeRecord c
      else if s.chainDriven c && (!s.chainBlanked c || decide (s.lampPolicy = 2)) then (s.bump (R.BKL_CNT_COUNT c 0)).bklTransfer c false
      else s

/-- R258, R259. FRAME_START of the backlight: slot 0, OFS is taken, and every chain takes its frame. -/
def State.bklFrame (s : State) : State :=
  foldRange 4 State.bklChainFrame { s with bkl := { s.bkl with slot := 0, ofs := s.get R.BKL_SCAN_OFS, line := 0 } }

/-- R258, R261, R265. Does an enabled chain receive SLOT? A chain that is broken, of the wrong length or blanked receives none. -/
def State.chainSlots (s : State) (c : Nat) : Bool :=
  bitAt (s.get R.BKL_CTL_CH_EN) c && !s.on (R.BKL_CHSTAT_BROKEN c) && !s.on (R.BKL_CHSTAT_LEN_MISMATCH c) && !s.chainBlanked c

/-- R258. At a slot line, SLOT goes to the chains that take it. -/
def State.bklSlotLine (s : State) (line active : Nat) : State :=
  let k := (line - s.bkl.ofs) / 64
  if s.bkl.ofs ≤ line ∧ (line - s.bkl.ofs) % 64 = 0 ∧ 1 ≤ k ∧ k ≤ 63 ∧ line < active then
    foldRange 4 (fun s c => if s.chainSlots c then s.pulse c 0 else s) { s with bkl := { s.bkl with slot := k } }
  else s

/-- R260. Outside real frames the lines of the engine's own frame count on. -/
def State.bklFreeLine (s : State) (active : Nat) : State :=
  if s.on R.BKL_STAT_FREE_RUN then
    let k := s.bkl.line + 1
    ({ s with bkl := { s.bkl with line := k } } : State).bklSlotLine k active
  else s

/-- R260. While scan-out is not running, or no sequencer is in control, the engine makes its own frames. -/
def execBklFreeRunFrame (s : State) : Host.Outcome State Fault Refusal :=
  .next (if s.sco.inFrame && decide (s.sco.hold = none) then s else (s.put R.BKL_STAT_FREE_RUN 1).bklFrame)

/-! ### Status and failures (R256, R263–R265) -/

/-- R263. The 80 bytes of a driver in the status image; a discarded record is zero. -/
def statusImage (b : List Byte) : List Byte :=
  if statusOk b then
    leBytes 4 ((b.getD 0 0).toNat * 2 ^ 24 + (b.getD 1 0).toNat * 65536 + (b.getD 2 0).toNat * 256 + (b.getD 3 0).toNat) ++
    (List.range 16).flatMap (fun i => leBytes 4 (stringWord b i)) ++ zeros 12
  else zeros 80

/-- R265. A string has failed: counted, shown, logged, recorded and raised; the Watch will act on it. -/
def State.lampOut (s : State) (c drv str : Nat) : State :=
  let x := s.chain c
  if x.failed.contains (drv * 16 + str) then s
  else
    let s := if x.failed = [] then (s.put (R.BKL_LOUT_DRV c) drv).put (R.BKL_LOUT_STR c) str else s
    let s := s.setChain c { x with failed := x.failed ++ [drv * 16 + str], lampDue := true }
    let s := (s.put (R.BKL_LOUT_FAILED c) (x.failed.length + 1)).bump (R.BKL_CNT_COUNT c 5)
    ((s.log 15 0 c 5 2 (drv * 16 + str)).ledgerAsk 0x30 [c, drv, str]).raise Irq.BKL_LAMP_OUT

/-- R264, R265. A chain has failed. -/
def State.chainFail (s : State) (c : Nat) : State :=
  let x := s.chain c
  if x.chainFailed then s
  else
    let s := (s.setChain c { x with chainFailed := true, lampDue := true, again := true }).putBit R.BKL_STAT_CHAIN_FAULT c true
    (((s.bump (R.BKL_CNT_COUNT c 4)).log 15 0 c 4 2 0).ledgerAsk 0x31 [c]).raise Irq.BKL_CHAIN_FAULT

/-- R256, R264. The status of driver `i` is taken. -/
def State.takeStatus (s : State) (c i : Nat) (b : List Byte) : State :=
  let x := s.chain c
  let d := x.driver i
  if !statusOk b then
    (((s.setChain c (x.setDriver i { d with miss := true })).put (R.BKL_CHSTAT_RX_ERR c) 1).bump (R.BKL_CNT_COUNT c 2)).raise Irq.BKL_RX_ERR
  else
    let bad := ((List.range 16).map (fun k => if bitAt (stringWord b k) 23 || bitAt (stringWord b k) 22 then 2 ^ k else 0)).sum
    let s := s.setChain c (x.setDriver i { d with temp := (b.getD 1 0).toNat, tempAt := some s.ticks, bad := bad, miss := false })
    let s := if bitAt (b.getD 2 0).toNat 7 then s.bump (R.BKL_CNT_COUNT c 3) else s
    foldRange 16 (fun s k => if bitAt bad k && bitAt d.bad k then s.lampOut c i k else s) s

/-- R264. From some driver position onward no valid record has arrived, in this frame and the one before. -/
def missFrom (n : Nat) (before after : Nat → Bool) : Bool := decide (0 < n) && before (n - 1) && after (n - 1)

/-- R259, R263–R266. A chain's transfer completes: the status received, driver 0 first, is written and checked. -/
def execBklTransferComplete (chain : Nat) (status : List (List (BitVec 8))) (s : State) : Host.Outcome State Fault Refusal :=
  .next (
    let x := s.chain chain
    if !x.busy then s
    else
      let n := s.chainCount chain
      let before := fun i => (x.driver i).miss
      let s := s.put (R.BKL_CHSTAT_RX_ERR chain) 0
      let s := foldRange n (fun s i => s.takeStatus chain i (status.getD i [])) s
      let img := (List.range n).flatMap (fun i => statusImage (status.getD i []))
      let va := s.addrOf (R.BKL_STS_LO_ADDR chain) (R.BKL_STS_HI_ADDR chain)
      let s := match s.vwrite 0 va img with
        | .ok s' => s'
        | .error e => s.accFail 0x35 0 0 va .write 9 e
      let s := if missFrom n before (fun i => ((s.chain chain).driver i).miss) then s.chainFail chain else s
      let s := (s.setChain chain { s.chain chain with busy := false, done := true }).putBit R.BKL_STAT_RUNNING chain false
      if x.urgent then
        (s.pulse chain 2).setChain chain { s.chain chain with urgent := false, sent := none }
      else s)

/-- R266. BLANK is forced on a chain, and its transfer is abandoned. -/
def State.forceBlank (s : State) (c : Nat) : State :=
  ((s.pulse c 4).setChain c { s.chain c with busy := false, sent := none, urgent := false }).putBit R.BKL_STAT_RUNNING c false

/-- R265, R266. The Watch forces BLANK where its policy says so: a chain stays blanked under ALL, and under GROUP where the chain has failed; for a
failed string GROUP lets the chain take an urgent transfer. -/
def State.lampAct (s : State) (c : Nat) : State :=
  let x := s.chain c
  let s := s.setChain c { x with lampDue := false }
  match s.lampPolicy with
  | 0 => s
  | 1 =>
    let s := s.forceBlank c
    if x.chainFailed then s.putBit R.BKL_STAT_BLANKED c true else s.bklTransfer c true
  | _ => foldRange 4 (fun s k => (s.forceBlank k).putBit R.BKL_STAT_BLANKED k true) s

/-- R266. The Watch acts on a lamp-out or a failed chain. -/
def execLampOut (chain : Nat) (s : State) : Host.Outcome State Fault Refusal :=
  .next (if (s.chain chain).lampDue then s.lampAct chain else s)

/-! ### Discovery (R261, R264) -/

/-- R261. A chain is to be discovered: at once, or at the next SYNC while a transfer is in progress. -/
def State.discover (s : State) (c : Nat) : State :=
  if (s.chain c).busy then s.setChain c { s.chain c with discoverDue := true } else s.probe c

/-- R261. DISCOVER reads 1 until every chain is done. -/
def State.discoverShown (s : State) : State :=
  if (List.range 4).all (fun c => !(s.chain c).discovering && !(s.chain c).discoverDue) then s.put R.BKL_CTL_DISCOVER 0 else s

/-- R261, R267. BKL_CTL is written: chains newly enabled are discovered, and with DISCOVER every enabled one. -/
def State.bklCtl (s : State) (en : Nat) (disc : Bool) : State :=
  let old := s.get R.BKL_CTL_CH_EN
  let s := s.put R.BKL_CTL_CH_EN en
  let s := if disc && decide (en ≠ 0) then s.put R.BKL_CTL_DISCOVER 1 else s
  State.discoverShown <| foldRange 4 (fun s c =>
    if bitAt en c && (disc || !bitAt old c) then s.discover c
    else if !bitAt en c && bitAt old c then (s.setChain c { s.chain c with busy := false, sent := none, discovering := false, discoverDue := false, found := false }).putBit R.BKL_STAT_RUNNING c false
    else s) s

/-- R261. A write of BKL_CTL with CH_EN and DISCOVER. -/
def execDiscover (chEn : Nat) (disc : Bool) (s : State) : Host.Outcome State Fault Refusal := .next (s.bklCtl chEn disc)

/-- R261. The probe returns after `drivers` drivers, or none comes back in time; zeros have followed it until then. DISCOVER reads 1 until every chain is done. -/
def execDiscoveryEnd (chain : Nat) (drivers : Option Nat) (s : State) : Host.Outcome State Fault Refusal :=
  .next (
    let x := s.chain chain
    if !x.discovering then s
    else
      let s := s.bump (R.BKL_CNT_COUNT chain 6)
      let n := drivers.getD 0
      let s := ((s.put (R.BKL_CHSTAT_FOUND chain) n).put (R.BKL_CHSTAT_BROKEN chain) (b2n drivers.isNone)).put (R.BKL_CHSTAT_LEN_MISMATCH chain) (b2n (drivers.isSome && decide (n ≠ s.chainCount chain)))
      let s := s.setChain chain { x with discovering := false, found := true, again := x.chainFailed && (drivers.isNone || decide (n ≠ s.chainCount chain)) }
      let s := s.emit (.shift chain (zeros (52 * drivers.getD 257)))
      (if drivers.isNone ∨ n ≠ s.chainCount chain then s.chainFail chain else s).discoverShown)

/-- R264. A failed chain is discovered again until discovery succeeds. -/
def execChainRediscover (chain : Nat) (s : State) : Host.Outcome State Fault Refusal :=
  .next (if (s.chain chain).again && bitAt (s.get R.BKL_CTL_CH_EN) chain && !(s.chain chain).discovering then s.discover chain else s)

end Sys2Proof.Machine
end

