-- ==== Sys2Proof/Machine/RayIssue.lean ====
section
/-! DEFINITION. The ray map and the ray issue unit: the ray of a pixel (R59, R536, R537), spans and dealing order (R63), skipped
rays (R61), self-written words (R64, R66), the RISSUE instruction (R161) and tile bands (R65). -/
namespace Sys2Proof.Machine

/-! ### The ray of a pixel (R59, R536) -/

/-- R59. round(x): floor of the exact x + 0.5, converted to binary32; x itself from 2^23 upward. -/
def roundHalfUp (x : Nat) : Nat :=
  match fdec f32 x with
  | .num neg m e =>
    if 0 ≤ e then x
    else
      let k := (-e).toNat
      let v : Int := if neg then -(m : Int) else (m : Int)
      fofInt f32 .ne ((v * 2 + ((2 ^ k : Nat) : Int)) / ((2 ^ (k + 1) : Nat) : Int))
  | _ => x

/-- A ray: origin on the lens plane, slopes, its lenslet, and whether it has one (R536). -/
structure Ray where
  ox : Nat
  oy : Nat
  sx : Nat
  sy : Nat
  l1 : Nat
  l2 : Nat
  has : Bool
  deriving DecidableEq, Repr

/-- R536. Is a lattice coordinate finite and below 2^23 in magnitude? -/
def latticeOk (k : Nat) : Bool := fisFinite f32 k && flt f32 (fabs f32 k) 0x4B000000

/-- R59. i + 0.5, exact. -/
def halfPast (i : Nat) : Nat := fround f32 .ne false (2 * i + 1) (-1) false

/-- R59. A residual times 2^-16, exact. -/
def residualF (r : Nat) : Nat :=
  let v := toInt 16 r
  fround f32 .ne (decide (v < 0)) v.natAbs (-16) false

/-- R59. The ray of pixel (i, j) under a header, with the residual word `res` where it is used. -/
def rayOf (h : RayHdr) (i j : Nat) (res : Option Nat) : Ray :=
  let px := fadd f32 h.ox (fmul f32 (halfPast i) h.px)
  let py := fsub f32 h.oy (fmul f32 (halfPast j) h.py)
  let dx := fsub f32 px h.c0x
  let dy := fsub f32 py h.c0y
  let det := fsub f32 (fmul f32 h.a1x h.a2y) (fmul f32 h.a1y h.a2x)
  let k1 := fdiv f32 (fsub f32 (fmul f32 dx h.a2y) (fmul f32 dy h.a2x)) det
  let k2 := fdiv f32 (fsub f32 (fmul f32 h.a1x dy) (fmul f32 h.a1y dx)) det
  let r1 := roundHalfUp k1
  let r2 := if h.model = 0 then roundHalfUp k2 else k2
  let cx := fadd f32 (fadd f32 h.c0x (fmul f32 r1 h.a1x)) (fmul f32 r2 h.a2x)
  let cy := fadd f32 (fadd f32 h.c0y (fmul f32 r1 h.a1y)) (fmul f32 r2 h.a2y)
  let sx := fdiv f32 (fsub f32 cx px) h.gap
  let sy := fdiv f32 (fsub f32 cy py) h.gap
  let sx := match res with
    | some w => fadd f32 sx (residualF (w % 65536))
    | none => sx
  let sy := match res with
    | some w => fadd f32 sy (residualF (w / 65536))
    | none => sy
  { ox := cx, oy := cy, sx := sx, sy := sy, l1 := r1, l2 := if h.model = 0 then r2 else 0,
    has := latticeOk k1 && latticeOk k2 && fisFinite f32 cx && fisFinite f32 cy && fisFinite f32 sx && fisFinite f32 sy }

/-- R60. CLASS of a class word. -/
def rayClass (w : Nat) : Nat := bitsOf w 0 9
/-- R60. FIX of a class word. -/
def rayFix (w : Nat) : Bool := bitAt w 9
/-- R60. DARK of a class word. -/
def rayDark (w : Nat) : Bool := bitAt w 10
/-- R61. Is a ray of this class word skipped at level `d`? -/
def raySkipped (d w : Nat) : Bool := decide (rayClass w % 2 ^ d ≠ 0) && !rayFix w && !rayDark w

/-- R60. Address of the class word of pixel (i, j). -/
def RayHdr.clsAddr (h : RayHdr) (i j : Nat) : Nat := h.clsBase + j * h.clsPitch + 2 * i
/-- R60. Address of the residual word of pixel (i, j). -/
def RayHdr.resAddr (h : RayHdr) (i j : Nat) : Nat := h.resBase + j * h.resPitch + 4 * i

/-- R62, R537. The header that describes pixel (i, j) of a tile in the bound ray map, if one does. -/
def State.rayHdrAt (s : State) (tile i j : Nat) : Option RayHdr :=
  match s.syn.rmap with
  | none => none
  | some m => match tabGet m.tiles tile with
    | some h => if i < h.width ∧ j < h.height then some h else none
    | none => none

/-- The context of the bound ray map's planes. -/
def State.rmapCtx (s : State) : Nat :=
  match s.syn.rmap with
  | some m => m.ctx
  | none => 0

/-- Read a word of the ray map's planes. -/
def State.rmapRead (s : State) (va n : Nat) : Except AccErr Nat :=
  match s.vread s.rmapCtx va .read n with
  | .ok bs => .ok (leNat bs)
  | .error e => .error e

/-- What the ray issue unit finds of one pixel. -/
inductive RayKind where
  /-- DARK, without a lenslet, or not described (R64, R536, R537). -/
  | dark
  /-- Skipped at the density level in force (R61). -/
  | skipped
  /-- A ray map read failed: plane (0 class, 1 residual), address and error (R66). -/
  | failed (plane va : Nat) (err : AccErr)
  | deal (ray : Ray) (cls : Nat)
  deriving DecidableEq, Repr

/-- R61, R64, R66, R536, R537. The kind of pixel (i, j) of a tile at level `d`. The unit reads the class plane and then the
residual plane of every pixel that the ray map describes; the residual of a pixel whose class word cannot be read is not requested, and
only a pixel whose own word cannot be read is affected (assumption 52). -/
def State.rayKind (s : State) (d tile i j : Nat) : RayKind :=
  match s.rayHdrAt tile i j with
  | none => .dark
  | some h =>
    match s.rmapRead (h.clsAddr i j) 2 with
    | .error e => .failed 0 (h.clsAddr i j) e
    | .ok cls =>
      let res : Except AccErr (Option Nat) := if h.nores then .ok none else
        (match s.rmapRead (h.resAddr i j) 4 with
         | .ok w => .ok (some w)
         | .error e => .error e)
      match res with
      | .error e => .failed 1 (h.resAddr i j) e
      | .ok r =>
        let ray := rayOf h i j r
        if rayDark cls || !ray.has then .dark
        else if raySkipped d cls then .skipped
        else .deal ray cls

/-! ### Spans (Division of work, R63) -/

/-- A piece of a span: a run of columns of one tile band. -/
structure Piece where
  tile : Nat
  c0 : Nat
  w : Nat
  deriving DecidableEq, Repr

/-- The columns [lo, hi) of the list of all columns, as pieces: `off` is the list index of the tile's column 0. -/
def cutColumns (width : Nat → Nat) (lo hi : Nat) : List Nat → Nat → List Piece
  | [], _ => []
  | t :: ts, off =>
    let a := max lo off
    let b := min hi (off + width t)
    (if a < b then [⟨t, a - off, b - a⟩] else []) ++ cutColumns width lo hi ts (off + width t)

/-- The pieces of hamlet `h` of `n` hamlets in one band (Division of work). -/
def State.spanPieces (s : State) (h n : Nat) : List Piece :=
  let ts := s.tilesOn
  let even := decide (ts.length % n = 0) &&
    (match ts with
     | t :: rest => rest.all (fun u => decide (s.tileW u = s.tileW t))
     | [] => true)
  if even then
    (ts.zip (List.range ts.length)).filterMap (fun p => if p.2 % n = h then some ⟨p.1, 0, s.tileW p.1⟩ else none)
  else
    let c := (ts.map s.tileW).sum
    cutColumns s.tileW (h * c / n) ((h + 1) * c / n) ts 0

/-- Bands of a frame: 64 lines each, the last one with what is left. -/
def State.bandCount (s : State) : Nat := ceilDiv s.active 64
/-- The lines of band index `i` of a frame. -/
def State.bandLines (s : State) (i : Nat) : Nat := min 64 (s.active - 64 * i)

/-- The band indexes that a work item covers: all of a frame, or its own band's. -/
def State.workBands (s : State) (w : SynWork) : List Nat :=
  match w.band with
  | some b => if s.bandCount = 0 then [] else [b % s.bandCount]
  | none => List.range s.bandCount

/-- R63. The pieces of a work item on hamlet `h` in dealing order, with their band index and lines. -/
def State.workSpan (s : State) (w : SynWork) (h : Nat) : List (Nat × Piece × Nat) :=
  (s.workBands w).flatMap (fun i => (s.spanPieces h s.member.hamlets).map (fun p => (i, p, s.bandLines i)))

/-- R63. The pixel at index `pos` of a span: band index, tile, tile line and column; piece by piece, line by line, left to right. -/
def locatePixel : List (Nat × Piece × Nat) → Nat → Option (Nat × Nat × Nat × Nat)
  | [], _ => none
  | (i, p, n) :: rest, pos =>
    if pos < p.w * n then some (i, p.tile, 64 * i + pos / p.w, p.c0 + pos % p.w) else locatePixel rest (pos - p.w * n)

/-- The number of pixels of a span. -/
def spanSize (l : List (Nat × Piece × Nat)) : Nat := (l.map (fun x => x.2.1.w * x.2.2)).sum

/-- Replace a work item. -/
def State.setSynWork (s : State) (k : Nat) (w : SynWork) : State :=
  { s with syn := { s.syn with works := tabPut s.syn.works k w } }
/-- The span that a hamlet deals. -/
def State.span (s : State) (h : Nat) : Option SpanSt := tabGet s.syn.spans h
/-- Replace the span of a hamlet. -/
def State.setSpan (s : State) (h : Nat) (x : SpanSt) : State := { s with syn := { s.syn with spans := tabPut s.syn.spans h x } }

/-- R82, R83, R166. The target address of a pixel: the back buffer's base + line × pitch + 4 × column, or the same in the ring
slot of the band; slot s holds its 64 lines from the ring base + s × 64 × pitch (assumption 22). -/
def State.targetAddr (s : State) (w : SynWork) (tile line col : Nat) : Nat :=
  (match w.band with
   | some b =>
     let slot := b % s.ringDepth
     s.ringBase tile + (slot * 64 + line % 64) * s.ringPitch tile + 4 * col
   | none =>
     match w.targets.find? (fun t => decide (t.tile = tile)) with
     | some t => t.base + line * t.pitch + 4 * col
     | none => 0) % 2 ^ 48

/-- R65. One more ray of a tile band counts as written. -/
def SynWork.addWritten (w : SynWork) (tile line n : Nat) : SynWork :=
  let k := tile * 64 + line / 64
  { w with written := tabPut w.written k ((tabGet w.written k).getD 0 + n) }

/-- R65. Rays count as written in a work item. -/
def State.countWritten (s : State) (wk tile line n : Nat) : State :=
  match s.synWork wk with
  | some w => s.setSynWork wk (w.addWritten tile line n)
  | none => s

/-! ### Words that the unit writes itself (R64, R66) -/

/-- R66. A self-written word is lost: counted, logged and reported. -/
def State.issueWFault (s : State) (h tile ctx va : Nat) (e : AccErr) : State :=
  let s := s.bump (R.SYN_HCNT_COUNT h 7)
  let s := s.log 8 0 h 7 2 va
  s.accFail (0x20 + h) (3 + 4 * tile) ctx va .write 5 e

/-- R64–R66, R120. The unit writes a word itself; a word that cannot be written is lost, and the ray counts as written. -/
def State.selfWrite (s : State) (h wk tile line col word : Nat) : State :=
  match s.synWork wk with
  | none => s
  | some w =>
    let va := s.targetAddr w tile line col
    let s := match s.vwrite w.ctx va (leBytes 4 word) with
      | .ok s' => s'.noteStore w.ctx va word
      | .error e => s.issueWFault h tile w.ctx va e
    s.countWritten wk tile line 1

/-- Would a word that the unit writes for this pixel be lost? -/
def State.selfWriteFails (s : State) (wk tile line col : Nat) : Bool :=
  match s.synWork wk with
  | none => false
  | some w => match s.vtargets w.ctx (s.targetAddr w tile line col) .write 4 with
    | .ok _ => false
    | .error _ => true

/-- R66. A failed ray map read is counted once per request of a 256-byte block, logged and reported. -/
def State.rmapFault (s : State) (h tile plane va : Nat) (e : AccErr) : State :=
  match s.span h with
  | none => s
  | some sp =>
    let last := if plane = 0 then sp.failCls else sp.failRes
    if last = some (va / 256) then s
    else
      let s := s.setSpan h (if plane = 0 then { sp with failCls := some (va / 256) } else { sp with failRes := some (va / 256) })
      let s := s.bump (R.SYN_HCNT_COUNT h 6)
      let s := s.log 8 0 h 6 2 va
      let s := s.accFail (0x20 + h) (2 + 4 * tile) s.rmapCtx va .read 5 e
      s.raise Irq.SYN_RMAP_FAULT

/-! ### Dealing (R63, R64) -/

/-- R63. Advance the unit's position by one pixel. -/
def State.advanceSpan (s : State) (h : Nat) : State :=
  match s.span h with
  | some sp => s.setSpan h { sp with pos := sp.pos + 1 }
  | none => s

/-- The pixel at the front of a hamlet's span: the work, its level, and band index, tile, line and column. -/
def State.frontPixel (s : State) (h : Nat) : Option (Nat × SynWork × Nat × Nat × Nat × Nat) :=
  match s.span h with
  | none => none
  | some sp => match s.synWork sp.work with
    | none => none
    | some w => match locatePixel (s.workSpan w h) sp.pos with
      | none => none
      | some (i, t, y, x) => some (sp.work, w, i, t, y, x)

/-- R64, R66. The unit passes the pixel at its position where it deals no ray for it: the word it writes itself. None where the
pixel's ray is dealt. -/
def State.passPixel (s : State) (h : Nat) : Option State :=
  match s.frontPixel h with
  | none => none
  | some (wk, w, _, t, y, x) =>
    match s.rayKind w.level t x y with
    | .deal _ _ => none
    | .dark => some ((s.selfWrite h wk t y x 0).advanceSpan h)
    | .skipped => some ((s.selfWrite h wk t y x (w.level * 2 ^ 30)).advanceSpan h)
    | .failed plane va e => some (((s.rmapFault h t plane va e).selfWrite h wk t y x 0).advanceSpan h)

/-- SYN_STAT.ACTIVE (R94): a span is being dealt while some hamlet's unit has not found its span's end. -/
def State.syncActive (s : State) : State :=
  s.put R.SYN_STAT_ACTIVE (b2n (s.syn.spans.any (fun p => match s.synWork p.2.work with
    | some w => !bitAt w.exhausted p.1 && !w.abandoned
    | none => false)))

/-- A batch as it is dealt: the rays with their class words, of one band. -/
structure Batch where
  rays : List (DealtRay × Ray × Nat)
  band : Option Nat
  deriving DecidableEq, Repr

/-- R63. Deal rays from the unit's position: at most `room` pixels are looked at; the batch ends at 64 rays, at the end of the
span, or where the band changes. -/
def State.dealRays (h : Nat) : Nat → State → Batch → State × Batch
  | 0, s, b => (s, b)
  | n + 1, s, b =>
    if 64 ≤ b.rays.length then (s, b)
    else match s.frontPixel h with
      | none => (s, b)
      | some (_, w, i, t, y, x) =>
        if b.rays ≠ [] ∧ b.band ≠ some i then (s, b)
        else match s.rayKind w.level t x y with
          | .deal ray cls =>
            let d : DealtRay := { lane := b.rays.length, tile := t, line := y, col := x, addr := s.targetAddr w t y x }
            State.dealRays h n (s.advanceSpan h) { rays := b.rays ++ [(d, ray, cls)], band := some i }
          | _ => match s.passPixel h with
            | some s' => State.dealRays h n s' b
            | none => (s, b)

/-! ### Retiring (R65) -/

/-- R65. A batch is retired: its rays count as written. -/
def State.retireBatch (s : State) (wk : Nat) (rays : List DealtRay) : State :=
  rays.foldl (fun s r => s.countWritten wk r.tile r.line 1) s

/-- The work item of a thread's launch. -/
def State.thrWork (s : State) (k : Nat) : Option Nat :=
  match s.launch (s.thr k).launch with
  | some l => l.work
  | none => none

/-- R120. The batch of a thread that is killed: the unit writes 0 for each ray and the batch is retired. -/
def State.killBatch (s : State) (k : Nat) : State :=
  let th := s.thr k
  let s := s.setThr k { th with batch := [] }
  match s.thrWork k with
  | none => s
  | some wk => th.batch.foldl (fun s r => s.selfWrite (k / 64) wk r.tile r.line r.col 0) s

/-! ### RISSUE (R161) -/

/-- R161. The eight register words of a dealt ray. -/
def rayWords (d : DealtRay) (r : Ray) (cls : Nat) : List Nat :=
  [r.ox, r.oy, r.sx, r.sy, cls % 65536 + d.tile * 65536, d.col % 8192 + d.line % 4096 * 65536,
   d.addr % 2 ^ 32, d.addr / 2 ^ 32 % 65536]

/-- R161. The eight registers of one lane. -/
def ThreadSt.setRay (t : ThreadSt) (d l : Nat) (ws : List Nat) : ThreadSt :=
  foldRange 8 (fun t i => t.setV (d + i) l (ws.getD i 0)) t

/-- R161. The registers, the predicate and BAND after a batch. -/
def ThreadSt.takeBatch (t : ThreadSt) (d p : Nat) (b : Batch) (band : Nat) : ThreadSt :=
  let t := foldRange 64 (fun t l => t.setRay d l (match b.rays[l]? with
    | some (x, r, c) => rayWords x r c
    | none => [])) t
  let t := t.setP false p (2 ^ b.rays.length - 1)
  { t with batch := b.rays.map (·.1), band := BitVec.ofNat 32 band }

/-- R161. RISSUE of an engine thread: it retires the previous batch and deals the next. The unit deals nothing while
SYN_CTL.ENABLE is 0, and the thread waits (assumption 23). -/
def State.runIssue (s : State) (t : Thr) (d p : Nat) : State :=
  let legal := !(thrIsS t) && decide (d % 8 = 0)
  s.issue t legal ⟨(List.range 8).map (d + ·), []⟩ (fun th =>
    match t with
    | .eng e sl =>
      let k := e * 4 + sl
      let h := e / 16
      match s.thrWork k with
      | none => s.setThr k (th.takeBatch d p ⟨[], none⟩ 0xFFFFFFFF).next
      | some wk =>
        if !s.on R.SYN_CTL_ENABLE then s
        else
          let s := s.retireBatch wk th.batch
          match s.synWork wk, s.span h with
          | some w, some sp =>
            if sp.work ≠ wk ∨ w.abandoned then s.setThr k (th.takeBatch d p ⟨[], none⟩ th.band.toNat).next
            else
              let r := State.dealRays h (spanSize (s.workSpan w h) - sp.pos) s ⟨[], none⟩
              let s := r.1
              let s := if r.2.rays = [] then
                  (match s.synWork wk with
                   | some w => (s.setSynWork wk { w with exhausted := w.exhausted ||| 2 ^ h }).syncActive
                   | none => s)
                else s
              let band := match w.band, r.2.band with
                | some b, _ => b
                | none, some i => i
                | none, none => th.band.toNat
              s.setThr k (th.takeBatch d p r.2 band).next
          | _, _ => s.setThr k (th.takeBatch d p ⟨[], none⟩ th.band.toNat).next
    | _ => s)

/-- R63, R161 RISSUE. -/
def execRissue (t : Thr) (d p : Nat) (s : State) : Host.Outcome State Fault Refusal := .next (s.runIssue t d p)

/-- R66. A ray map read of the unit fails at its position: the affected ray takes 0, and dealing continues. -/
def execRmapFault (hamlet : Nat) (s : State) : Host.Outcome State Fault Refusal :=
  .next (match s.frontPixel hamlet with
    | none => s
    | some (_, w, _, t, y, x) => match s.rayKind w.level t x y with
      | .failed _ _ _ => (match s.passPixel hamlet with
        | some s' => s'
        | none => s)
      | _ => s)

/-- R66. A word that the unit writes itself at its position is lost; the ray counts as written. -/
def execIssueWfault (hamlet : Nat) (s : State) : Host.Outcome State Fault Refusal :=
  .next (match s.frontPixel hamlet with
    | none => s
    | some (wk, _, _, t, y, x) =>
      if s.selfWriteFails wk t y x then
        (match s.passPixel hamlet with
         | some s' => s'
         | none => s)
      else s)

end Sys2Proof.Machine
end

