-- ==== Sys2Proof/Machine/Time.lean ====
section
/-! DEFINITION. The PTP clock: its advance, the servo, steps, the PPS pins and the timers (R379, R382–R389). -/
namespace Sys2Proof.Machine

/-- Replace the PTP clock's state. -/
def State.setPtp (s : State) (x : PtpSt) : State := { s with ptp := x }
/-- EPOCH. -/
def State.epoch (s : State) : Nat := s.get R.PTP_STAT_EPOCH
/-- The PTP time in units of 1/65,536 ns. -/
def State.ptpFine (s : State) : Nat := s.ptp.time / 65536

/-! ### Advance (R379, R382) -/

/-- R379. INC_NOM in units of 2^-32 ns. -/
def incNom : Nat := 0x31A6031A6
/-- R379. INC under an applied rate in 1/256 ppb. -/
def incOf (rate : Int) : Nat := ((incNom : Int) + (incNom : Int) * rate / 256000000000).toNat
/-- R393. log2 of the interval in s, −4 to 4. -/
def State.interval (s : State) : Int := clampI (-4) 4 (toInt 4 (s.get R.PTP_SERVO_INTERVAL))
/-- R382, R393. SLEW in 1/256 ppb. -/
def State.slew (s : State) : Nat := clampN 1 20 (s.get R.PTP_LIMITS_SLEW) * 100 * 256
/-- Ticks of the interval, times 16. -/
def State.slewTicks (s : State) : Nat := 322265625 * 2 ^ (s.interval + 4).toNat

/-- R382. In one tick the applied rate moves toward its target, evenly, by SLEW in each interval (assumption 37); it holds while SERVO_EN is
0. -/
def State.slewTick (s : State) : State :=
  let p := s.ptp
  if !s.on R.PTP_CTL_SERVO_EN ∨ p.rate = p.target then s.setPtp { p with slewAcc := 0 }
  else
    let acc := p.slewAcc + 16 * s.slew
    if acc < s.slewTicks then s.setPtp { p with slewAcc := acc }
    else
      let r := if p.rate < p.target then p.rate + 1 else p.rate - 1
      (s.setPtp { p with rate := r, slewAcc := acc - s.slewTicks }).put R.PTP_RATE_RATE (ofInt 32 r)

/-- R379. The PTP counter advances by one tick. -/
def State.ptpTick (s : State) : State :=
  let s := s.slewTick
  s.setPtp { s.ptp with time := (s.ptp.time + incOf s.ptp.rate) % 2 ^ 96 }

/-! ### Servo (R382–R384) -/

/-- R382, R393. FREQ_MAX in 1/256 ppb. -/
def State.freqMax (s : State) : Int := (clampN 1 200 (s.get R.PTP_LIMITS_FREQ_MAX) * 1000 * 256 : Nat)
/-- R382. K × o / t in 1/256 ppb, for a gain register and an offset in 1/65,536 ns; rounded down (assumption 37). -/
def State.gainTerm (s : State) (k : Nat) (o : Int) : Int :=
  (k : Int) * o * 16 / ((65536 * 2 ^ (s.interval + 4).toNat : Nat) : Int)

/-- R383. An offset is refused. -/
def State.ofsRefuse (s : State) : State :=
  let n := min 255 (s.get R.PTP_STAT_REFUSALS + 1)
  let was := s.get R.PTP_STAT_REFUSALS
  let s := (s.put R.PTP_STAT_REFUSALS n).bump (R.PTP_CNT_COUNT 1)
  if was < 8 ∧ n = 8 then (((s.put R.PTP_STAT_MCS 1).bump (R.PTP_CNT_COUNT 3)).log 19 0 0 3 2 0).raise Irq.PTP_MCS else s

/-- R382. An offset is accepted. -/
def State.ofsAccept (s : State) (o : Int) : State :=
  let m := s.freqMax
  let integ := clampI (-m) m (s.ptp.integ - s.gainTerm (s.get R.PTP_SERVO_KI) o)
  let target := clampI (-m) m (integ - s.gainTerm (s.get R.PTP_SERVO_KP) o)
  let s := s.setPtp { s.ptp with integ := integ, target := target, lastAccept := s.ticks }
  ((s.put R.PTP_STAT_REFUSALS 0).put R.PTP_STAT_HOLDOVER 0).bump (R.PTP_CNT_COUNT 0)

/-- R382, R386. PTP_OFS_B.GO: the offset of PTP_OFS_A and PTP_OFS_B is stale, refused or accepted. -/
def State.ofsGo (s : State) : State :=
  if !s.on R.PTP_CTL_SERVO_EN then s
  else
    let o : Int := toInt 32 (s.get R.PTP_OFS_A_OFFSET) * 65536 + (s.get R.PTP_OFS_B_FRAC : Nat)
    if s.get R.PTP_OFS_B_EPOCH ≠ s.epoch ∨ s.on R.PTP_STAT_STEP_PENDING then s.bump (R.PTP_CNT_COUNT 2)
    else if zeroActs 1 (s.get R.PTP_LIMITS_STEP_LIM) * 65536 < o.natAbs then s.ofsRefuse
    else s.ofsAccept o

/-- R382. OFFSET_GO: a write of PTP_OFS_B with GO. -/
def execOffsetGo (frac epoch : Nat) (s : State) : Host.Outcome State Fault Refusal :=
  .next ((s.put R.PTP_OFS_B_FRAC frac).put R.PTP_OFS_B_EPOCH epoch).ofsGo

/-- R384, R393. Have HOLD_S seconds passed since an offset was accepted, or since reset? -/
def State.holdDue (s : State) : Bool :=
  decide (1000000 * zeroActs 1 (s.get R.PTP_SERVO_HOLD_S) ≤ s.since s.ptp.lastAccept)

/-- R384. PTP_HOLDOVER: no offset has been accepted for HOLD_S seconds. -/
def execPtpHoldover (s : State) : Host.Outcome State Fault Refusal :=
  .next (
    if s.on R.PTP_STAT_HOLDOVER || !s.holdDue then s
    else
      let s := ((s.put R.PTP_STAT_HOLDOVER 1).bump (R.PTP_CNT_COUNT 6)).setPtp { s.ptp with target := s.ptp.integ }
      (s.log 19 0 0 6 0 0).raise Irq.PTP_HOLDOVER)

/-! ### The PTP frame clock (R195) -/

/-- R195. Edge `n` of the PTP frame clock under given copies of its registers, in PTP ns. -/
def fcEdge (t0 num den n : Nat) : Nat := t0 + n * num * 1000000000 / zeroActs 1 den

/-- R195. The number of the last edge at or before PTP time `now`, if there is one. -/
def fcIndex (t0 num den now : Nat) : Option Nat :=
  if now < t0 then none else some ((((now - t0) + 1) * zeroActs 1 den - 1) / (zeroActs 1 num * 1000000000))

/-- R195. The frame clock's last edge in force. -/
def State.fcNow (s : State) : Option Nat :=
  fcIndex (s.getA R.SCO_FCT0_LO_T0 + 2 ^ 32 * s.getA R.SCO_FCT0_HI_T0)
    (s.getA R.SCO_FCNUM_FC_NUM) (s.getA R.SCO_FCDEN_FC_DEN) s.ptpNs

/-- R195. Edges of the PTP frame clock count from here: those up to now are past. -/
def State.restartEdges (s : State) : State := { s with sco := { s.sco with lastN := s.fcNow } }

/-! ### Steps (R385, R386) -/

/-- R385. PTP_STEP_CTL.GO: only the host makes a step. -/
def State.stepGo (s : State) (who : Who) : State :=
  match who with
  | .host =>
    (s.setPtp { s.ptp with step := some (s.on R.PTP_STEP_CTL_ABS, toInt 64 (s.get64 R.PTP_STEP_LO_STEP R.PTP_STEP_HI_STEP)) }).put R.PTP_STAT_STEP_PENDING 1
  | _ => s.bump (R.PTP_CNT_COUNT 5)

/-- R385. STEP_GO. -/
def execStepGo (who : Who) (absolute : Bool) (s : State) : Host.Outcome State Fault Refusal :=
  .next ((s.put R.PTP_STEP_CTL_ABS (b2n absolute)).stepGo who)

/-- R385, R386. STEP_APPLY: the step is applied at a tick boundary. -/
def execStepApply (s : State) : Host.Outcome State Fault Refusal :=
  .next (match s.ptp.step with
    | none => s
    | some (a, v) =>
      let t := if a then ofInt 64 v * 2 ^ 32 else ofInt 96 ((s.ptp.time : Int) + v * 2 ^ 32)
      let s := s.setPtp { s.ptp with time := t, step := none }
      let s := ((s.put R.PTP_STAT_STEP_PENDING 0).put R.PTP_STAT_EPOCH (s.epoch + 1)).put R.PTP_STAT_REFUSALS 0
      let s := { s with sco := { s.sco with stepped := true } }.restartEdges
      ((s.bump (R.PTP_CNT_COUNT 4)).log 19 0 0 4 0 (ofInt 64 v)).raise Irq.PTP_STEP)

/-! ### PPS pins and timers (R165, R386–R389) -/

/-- R165. The timer event: a timer's number, or 0xFF for PPS_IN, and its time. -/
def timerEv (n time : Nat) : Ev := mkEv (5 + 256 * n) time 0 0
/-- Have less than 0.5 s passed since a tick? -/
def State.halfSecond (s : State) (t : Option Nat) : Bool :=
  match t with
  | none => false
  | some t => decide ((s.ticks - t) * 64 < 20625 * 500000)

/-- R387. PPS_IN_EDGE. -/
def execPpsInEdge (s : State) : Host.Outcome State Fault Refusal :=
  .next (
    if !s.on R.PTP_CTL_PPS_IN_EN then s
    else if s.halfSecond s.ptp.ppsIn then (s.bump (R.PTP_CNT_COUNT 8)).raise Irq.PTP_PPSIN_GLITCH
    else
      let s := (s.setPtp { s.ptp with ppsIn := some s.ticks }).bump (R.PTP_CNT_COUNT 7)
      let s := (s.put64 R.PTP_S_PPSIN_LO_TIME R.PTP_S_PPSIN_HI_TIME s.ptpNs).put R.PTP_S_PPSIN_FRAC_FRAC s.ptpFine
      s.sendEvent 0 (timerEv 0xFF s.ptpNs))

/-- R388. Has (PTP time − PPS_OFS) mod 10^9 crossed 0 in the last tick? -/
def State.ppsCrossed (s : State) : Bool :=
  let period := 1000000000 * 2 ^ 32
  decide ((s.ptp.time % period + period - min 999999999 (s.get R.PTP_PPS_OFS_OFS) * 2 ^ 32) % period < incOf s.ptp.rate)

/-- R388. PPS_OUT_RISE: (PTP time − PPS_OFS) mod 10^9 crosses 0. -/
def execPpsOutRise (s : State) : Host.Outcome State Fault Refusal :=
  .next (
    if !s.on R.PTP_CTL_PPS_OUT_EN || s.halfSecond s.ptp.ppsLast || !s.ppsCrossed then s
    else s.setPtp { s.ptp with ppsOut := true, ppsLast := some s.ticks })

/-- R388, R393. Has the pulse lasted PPS_W ms? -/
def State.ppsOver (s : State) : Bool :=
  match s.ptp.ppsLast with
  | some t => decide (1000 * clampN 1 999 (s.get R.PTP_PPS_PPS_W) ≤ tickUs t s.ticks)
  | none => true

/-- R388. PPS_OUT_FALL: PPS_W ms after the rise, or once PPS_OUT_EN is 0. -/
def execPpsOutFall (s : State) : Host.Outcome State Fault Refusal :=
  .next (if s.on R.PTP_CTL_PPS_OUT_EN && !s.ppsOver then s else s.setPtp { s.ptp with ppsOut := false })

/-- R388, R393. PTP_CTL has been written: while PPS_OUT_EN is 0 the pin is low. -/
def State.ptpCtlWritten (s : State) : State :=
  if s.on R.PTP_CTL_PPS_OUT_EN then s else s.setPtp { s.ptp with ppsOut := false }

/-- R389. TIME of a timer. -/
def State.timerTime (s : State) (n : Nat) : Nat := s.get64 (R.PTP_TMR_LO_TIME n) (R.PTP_TMR_HI_TIME n)

/-- R386, R389. PTP_TIMER_FIRE: PTP time has reached the timer's TIME; a periodic timer goes on whole periods past the time. -/
def execPtpTimerFire (n : Nat) (s : State) : Host.Outcome State Fault Refusal :=
  .next (
    let t := s.timerTime n
    if !s.on (R.PTP_TMR_CTL_EN n) ∨ s.ptpNs < t then s
    else
      let s := s.sendEvent (s.get (R.PTP_TMR_CTL_CORE n)) (timerEv n s.ptpNs)
      let per := s.get (R.PTP_TMR_PER_PERIOD n)
      if per = 0 then s.put (R.PTP_TMR_CTL_EN n) 0
      else s.put64 (R.PTP_TMR_LO_TIME n) (R.PTP_TMR_HI_TIME n) (t + ((s.ptpNs - t) / per + 1) * per))

end Sys2Proof.Machine
end

