-- ==== Sys2Proof/Machine/Timing.lean ====
section
/-! DEFINITION. The panel's geometry and the timing generator's own figures: periods, ready points, the lock source and the
scan-out events (R12, R165, R186–R197). -/
namespace Sys2Proof.Machine

/-! ### Geometry in force (R186) -/

/-- PIX clocks of 3.2 ns on the model's time base (assumption 3). -/
def State.pix (s : State) : Nat := s.ticks * 32 / 33
/-- LINE_CLKS in force. -/
def State.lineClks (s : State) : Nat := s.getA R.SCO_LINE_LINE_CLKS
/-- VTOTAL_MIN in force. -/
def State.vMin (s : State) : Nat := s.getA R.SCO_VTOTAL_VTOTAL_MIN
/-- VTOTAL_MAX in force. -/
def State.vMax (s : State) : Nat := s.getA R.SCO_VTOTAL_VTOTAL_MAX
/-- ACTIVE + VBLANK_MIN, the shortest frame that an edge can end (R193). -/
def State.shortest (s : State) : Nat := s.active + s.getA R.SCO_VGEOM_VBLANK_MIN
/-- The LOCKED class is in force (R188). -/
def State.lockedClass (s : State) : Bool := s.onA R.SCO_MODE_CLASS
/-- The PTP frame clock is the lock source in force (R192). -/
def State.ptpSource (s : State) : Bool := decide (s.getA R.SCO_MODE_SRC = 1)
/-- R186, R193. The shortest period for `n` enabled tiles, in PIX clocks. -/
def pMin (n : Nat) : Nat := if 32 < n then 5200000 else 2600000
/-- R225. EXIT_LEAD in lines. -/
def State.exitLead (s : State) : Nat := zeroActs 1 (s.get R.WYL_CTL_EXIT_LEAD)
/-- R189. LEAD_L: 2 lines, or max(2, EXIT_LEAD) while the lanes are idle. -/
def State.leadL (s : State) : Nat := if s.sco.idle then max 2 s.exitLead else 2
/-- R189. Has the frame that became ready waited its LEAD_L: the one of its ready point, or the larger one of lanes that have gone idle since? -/
def State.leadPast (s : State) (r line : Nat) : Bool := decide (r + max s.sco.lead s.leadL ≤ line)
/-- Replace the scan-out state. -/
def State.setSco (s : State) (x : ScoSt) : State := { s with sco := x }
/-- FRAME of the current frame. -/
def State.frameNo (s : State) : Nat := s.get R.SCO_S_FRAME_FRAME
/-- PTP time of the last FRAME_START. -/
def State.frameStartNs (s : State) : Nat := s.get64 R.SCO_S_FS_LO_TIME R.SCO_S_FS_HI_TIME

/-! ### Scan-out events (R12, R13, R165) -/

/-- The mask of the tiles enabled. -/
def State.tileMask (s : State) : Nat := (s.tilesOn.map (2 ^ ·)).sum
/-- R165. Send a scan-out event to every running steward core (assumption 20). -/
def State.scoEvent (s : State) (code tiles : Nat) : State :=
  s.runningCores.foldl (fun s c => s.sendEvent c (mkEv (4 + 256 * code + 2 ^ 32 * s.frameNo) s.ptpNs tiles 0)) s

/-! ### Openings of camera sets under SRC 1 (R285) -/

/-- R285. Under SRC 1 a set is to open `us` µs from now, with the number of an edge of the PTP frame clock where one is given. -/
def State.setOpensIn (s : State) (us : Nat) (num : Option Nat) : State :=
  if s.on R.CAM_CTL_ENABLE && s.on R.CAM_SETCTL_SRC then
    { s with cam := { s.cam with setDue := s.cam.setDue ++ [(s.pix + us * 625 / 2, num)] } }
  else s

/-- R285. The PIX clocks between openings while scan-out does not run. -/
def State.freeSetPeriod (s : State) : Nat := s.vMin * s.lineClks

/-- R285. Scan-out stops, or SRC 1 takes effect: openings count from here. -/
def State.restartSets (s : State) : State := { s with cam := { s.cam with setDue := [], freeAt := s.pix + s.freeSetPeriod } }

/-! ### Commit points (R189, R191, R197) -/

/-- R191. The first line boundary of the current frame at or after the due time. -/
def State.dueLine (s : State) (due : Nat) : Nat :=
  ceilDiv ((due - s.frameStartNs) * 5) (16 * zeroActs 1 s.lineClks)

/-- R191. The earliest line for a commit point: SCO_DUE holds it back in VARIABLE frame mode. -/
def State.dueHold (s : State) (point : Nat) : Nat :=
  let due := s.get64 R.SCO_DUE_LO_DUE R.SCO_DUE_HI_DUE
  if s.lockedClass || s.bandMode || decide (due = 0) then point else max point (s.dueLine due - s.leadL)

/-- R189, R191. Does a commit whose point is `p` allow a start at or before VTOTAL_MAX? -/
def State.startsInTime (s : State) (p : Nat) : Bool := decide (max s.vMin (s.dueHold p + s.leadL) ≤ s.vMax)

/-- R189, R197. A commit point in VARIABLE: it stands if the start that follows lies at or before VTOTAL_MAX; otherwise it waits for the
repeat. SCO_DUE holds it back as it is reached. -/
def State.variablePoint (s : State) (line p : Nat) : ArmedCommit :=
  if s.startsInTime p then ⟨line, p, false⟩ else ⟨line, s.active, true⟩

/-- R197. The commit point of a commit armed in line `a`, and whether it is late for its blanking. -/
def State.commitPoint (s : State) (a : Nat) : ArmedCommit × Bool :=
  if a + s.getA R.SCO_VGEOM_WINDOW < s.active then
    (if s.lockedClass then ⟨a, s.active, false⟩ else s.variablePoint a s.active, false)
  else if s.lockedClass then (⟨a, s.active, true⟩, true)
  else (s.variablePoint a (max s.active (a + 1 + s.getA R.SCO_VGEOM_WINDOW)), false)

/-! ### The lock source (R192–R196) -/

/-- R193. Is a period allowed: from max((ACTIVE + VBLANK_MIN) × LINE_CLKS, 0.995 × P_MIN) to VTOTAL_MAX × LINE_CLKS? -/
def State.periodOk (s : State) (p : Nat) : Bool :=
  decide (s.shortest * s.lineClks ≤ p) && decide (995 * pMin s.tilesOn.length ≤ 1000 * p) && decide (p ≤ s.vMax * s.lineClks)

/-- R193. Do three intervals differ by at most 0.1 %, and lie within the allowed period? -/
def State.qualifies (s : State) (l : List Nat) : Bool :=
  decide (3 ≤ l.length) &&
  (let t := l.take 3
   let hi := t.foldl max 0
   let lo := t.foldl min hi
   decide ((hi - lo) * 1000 ≤ lo) && t.all s.periodOk)

/-- Has the current frame run ACTIVE + VBLANK_MIN lines, or is none running (R193)? -/
def State.longEnough (s : State) : Bool := !s.sco.inFrame || (s.sco.blank && decide (s.shortest ≤ s.sco.line))

/-- R193. P_meas. -/
def State.pMeas (s : State) : Nat := s.get R.SCO_S_PERIOD_P_MEAS

/-- R193. The predicted edge: P_meas after the last one. -/
def State.predicted (s : State) : Option Nat := s.sco.edgeAt.map (· + s.pMeas)

/-- R193. May a frame start in holdover: 256 PIX clocks after the prediction where an edge is missed, or after P_meas, or after VTOTAL_MIN lines
where it has never been measured? -/
def State.holdoverDue (s : State) : Bool :=
  if s.on R.SCO_STAT_LOCKED then match s.predicted with
    | some e => decide (e + 256 ≤ s.pix)
    | none => true
  else if !s.sco.inFrame then true
  else if s.pMeas = 0 then decide (s.vMin ≤ s.sco.line)
  else decide (s.pMeas < (s.sco.line + 1) * s.lineClks)

/-- R189, R194, R225. May the wake start now: in VARIABLE from a ready point, or EXIT_LEAD lines before VTOTAL_MAX; in LOCKED EXIT_LEAD lines
before the predicted start? -/
def State.wakeDue (s : State) : Bool :=
  if !s.lockedClass then s.sco.ready.isSome || decide (s.vMax ≤ s.sco.line + s.exitLead)
  else match s.predicted with
    | some e => decide (e + s.getA R.SCO_PHASE_PHASE ≤ s.pix + s.exitLead * s.lineClks)
    | none => decide ((if s.pMeas = 0 then s.vMin else s.pMeas / zeroActs 1 s.lineClks) ≤ s.sco.line + s.exitLead)

/-- R209. PHERR: the signed PIX clocks by which a start comes after a reference edge + PHASE. -/
def State.putPhaseError (s : State) (edge : Option Nat) : State :=
  match edge with
  | some e => s.put R.SCO_S_PHERR_PHERR (subMod 32 s.pix (e + s.getA R.SCO_PHASE_PHASE))
  | none => s

/-! ### Band mode (R83, R85) -/

/-- R83. The number of the band at the top of the next frame. -/
def State.nextTop (s : State) : Nat :=
  if s.sco.bandFirst then 0 else s.sco.bandBase + ceilDiv s.active 64
/-- R83. The number of the band that line `y` of the current frame belongs to. -/
def State.bandOfLine (s : State) (y : Nat) : Nat := s.sco.bandBase + y / 64
/-- The ready flag of (tile, slot). -/
def State.readyFlag (s : State) (t slot : Nat) : Bool :=
  bitAt (s.get (R.SYN_READY_LO_READY t) + 2 ^ 32 * s.get (R.SYN_READY_HI_READY t)) slot
/-- Replace the ready flag of (tile, slot). -/
def State.setReadyFlag (s : State) (t slot : Nat) (b : Bool) : State :=
  let f := if slot < 32 then R.SYN_READY_LO_READY t else R.SYN_READY_HI_READY t
  let v := s.get f
  let m := 2 ^ (slot % 32)
  s.put f (if b then v ||| m else v - (v &&& m))

/-- R85. Are the first LEAD bands of the next frame complete? No more than the frame's own bands count. -/
def State.leadReady (s : State) : Bool :=
  let n := min (s.getA R.SYN_BAND_LEAD) (ceilDiv s.active 64)
  (List.range n).all (fun i => s.tilesOn.all (fun t => s.readyFlag t ((s.nextTop + i) % s.ringDepth)))

end Sys2Proof.Machine
end

