-- ==== Sys2Proof/Machine/Density.lean ====
section
/-! DEFINITION. The density level: the counts of a ray map, the budget estimator and its history, and the density record
(R87–R91, R538). -/
namespace Sys2Proof.Machine

/-- Replace the estimator's state. -/
def State.setDens (s : State) (d : DensSt) : State := { s with syn := { s.syn with dens := d } }

/-! ### Counts (R538) -/

/-- R538. Does the ray of a pixel count at level `d`? -/
def State.rayCounts (s : State) (d tile i j : Nat) : Bool :=
  match s.rayKind d tile i j with
  | .deal _ _ => true
  | _ => false

/-- R538. n(s, b, d) for one piece of a span: the rays of its columns and lines that are synthesized at level `d`. -/
def State.countPiece (s : State) (d y0 lines : Nat) (p : Piece) : Nat :=
  ((List.range lines).map (fun y => ((List.range p.w).filter (fun x => s.rayCounts d p.tile (p.c0 + x) (y0 + y))).length)).sum

/-- R538. n(s, b, d) of span `h` and band `b`. -/
def State.countBand (s : State) (d h b : Nat) : Nat :=
  ((s.spanPieces h s.member.hamlets).map (s.countPiece d (64 * b) (s.bandLines b))).sum

/-- The largest of a list. -/
def listMax (l : List Nat) : Nat := l.foldl max 0

/-- R538. The frame program counts the rays of the bound map, at a binding and when a commit changes SCO_TEN or SCO_TSIZE. -/
def State.countRays (s : State) : State :=
  let n := fun d => (List.range s.member.hamlets).map (fun h => (List.range s.bandCount).map (fun b => s.countBand d h b))
  s.setDens { s.syn.dens with
    bandMax := (List.range 4).map (fun d => listMax ((n d).map listMax))
    frameMax := (List.range 4).map (fun d => listMax ((n d).map List.sum)) }

/-! ### History (R90) -/

/-- R90. The history is cleared, and u with it. -/
def State.clearHistory (s : State) : State := s.setDens { s.syn.dens with hist := [], measured := 0, freed := false, qual := 0 }

/-- R62, R90, R538. A binding takes effect. -/
def State.takeMap (s : State) (m : RayMap) : State := { s with syn := { s.syn with rmap := some m } }.countRays.clearHistory

/-- R90. A write that changes SYN_DCTL.AUTO from 0 to 1 clears the history and u. -/
def State.autoSet (s : State) : State := s.clearHistory

/-- R90. A write that sets SYN_DCTL.AUTO. -/
def execDctlAutoSet (s : State) : Host.Outcome State Fault Refusal :=
  .next (if s.on R.SYN_DCTL_AUTO then s else (s.put R.SYN_DCTL_AUTO 1).autoSet)

/-! ### The estimate (R88, R89) -/

/-- A quotient of naturals, compared by cross multiplication. -/
structure Ratio where
  num : Nat
  den : Nat
  deriving DecidableEq, Repr

/-- Is `a` at most `b`? -/
def Ratio.le (a b : Ratio) : Bool := decide (a.num * b.den ≤ b.num * a.den)

/-- R538. The count at level `d` that belongs to the mode in force. -/
def State.levelCount (s : State) (d : Nat) : Nat :=
  (if s.bandMode then s.syn.dens.bandMax else s.syn.dens.frameMax).getD d 0

/-- R538. f_d; 0 where no ray counts at level 0. -/
def State.fraction (s : State) (d : Nat) : Ratio :=
  if s.levelCount 0 = 0 then ⟨0, 1⟩ else ⟨s.levelCount d, s.levelCount 0⟩

/-- R89. clk_now: the engine clock ceiling in MHz. -/
def State.clkNow (s : State) : Nat := zeroActs 1 (s.get R.THM_CEIL_CLK_NOW)

/-- R89. A measured cost scaled to level 0 and to the clock in force. -/
def State.scaled (s : State) (c : CostRec) : Ratio :=
  let f := s.fraction c.level
  if f.num = 0 then ⟨c.cost * c.clk, s.clkNow⟩ else ⟨c.cost * c.clk * f.den, s.clkNow * f.num⟩

/-- R89, R90. m: the largest scaled cost of the last two measured frames; none with no measured frame. -/
def State.scaledMax (s : State) : Option Ratio :=
  s.syn.dens.hist.foldl (fun (m : Option Ratio) c =>
    let x := s.scaled c
    match m with
    | none => some x
    | some y => some (if y.le x then x else y)) none

/-- R89. e_d = m × f_d. -/
def State.estimate (s : State) (m : Ratio) (d : Nat) : Ratio :=
  let f := s.fraction d
  ⟨m.num * f.num, m.den * f.den⟩

/-- R193. The frame period in LOCKED, in PIX clocks: P_meas, or VTOTAL_MIN lines while it has not been measured. -/
def State.lockPeriod (s : State) : Nat := if s.pMeas = 0 then s.vMin * s.lineClks else s.pMeas

/-- R93. FILL, clamped to 50–100 where it is used (assumption 84). -/
def State.fillPct (s : State) : Nat := clampN 50 100 (s.get R.SYN_DBUDGET_FILL)
/-- R93. UP_MARGIN, clamped where it is used (assumption 84). -/
def State.upMargin (s : State) : Nat := clampN 50 100 (s.get R.SYN_DBUDGET_UP_MARGIN)

/-- R88. The budget B in ns. -/
def State.budget (s : State) : Ratio :=
  if s.bandMode then ⟨64 * s.lineClks * 16 * s.fillPct, 500⟩
  else if s.lockedClass then ⟨s.lockPeriod * 16 * s.fillPct, 500⟩
  else if s.get R.SYN_DBUDGET_TARGET = 0 then ⟨s.vMax * s.lineClks * 16 * s.fillPct, 500⟩
  else ⟨s.get R.SYN_DBUDGET_TARGET * 10000 * s.fillPct, 100⟩

/-- R89. The smallest level up to MAX_LEVEL whose estimate is within the budget, else MAX_LEVEL. -/
def State.budgetLevel (s : State) (m : Ratio) : Nat :=
  let top := s.get R.SYN_DCTL_MAX_LEVEL
  ((List.range (top + 1)).find? (fun d => (s.estimate m d).le s.budget)).getD top

/-- R89. The late clause. -/
def State.lateLevel (s : State) (d : Nat) : Nat :=
  if s.syn.dens.late then max d (min (s.get R.SYN_DSTAT_LEVEL + 1) (s.get R.SYN_DCTL_MAX_LEVEL)) else d

/-- R89. The hysteresis clause: the level, and u. -/
def State.hysteresis (s : State) (m : Ratio) (d : Nat) : Nat × Nat :=
  let prev := s.get R.SYN_DSTAT_LEVEL
  let u := s.syn.dens.qual
  if d < prev then
    if s.get R.SYN_DCTL_MAX_LEVEL < prev then (s.get R.SYN_DCTL_MAX_LEVEL, 0)
    else
      let b := s.budget
      if (s.estimate m (prev - 1)).le ⟨b.num * s.upMargin, b.den * 100⟩ then
        if zeroActs 1 (s.get R.SYN_DCTL_UP_FRAMES) ≤ u then (prev - 1, 0) else (prev, u + 1)
      else (prev, 0)
  else (d, 0)

/-- R90. The next level follows the first measured frame: the hysteresis clause is skipped once. -/
def State.skipsHysteresis (s : State) : Bool := decide (s.syn.dens.measured = 1) && !s.syn.dens.freed

/-- R87, R89, R90. The level chosen and u. -/
def State.chooseLevel (s : State) : Nat × Nat :=
  if !s.on R.SYN_DCTL_AUTO then (s.get R.SYN_DCTL_FIXED_LEVEL, s.syn.dens.qual)
  else match s.scaledMax with
    | none => (s.get R.SYN_DCTL_MAX_LEVEL, 0)
    | some m =>
      let d := s.lateLevel (s.budgetLevel m)
      if s.skipsHysteresis then (d, 0) else s.hysteresis m d

/-- R91. The CAUSE byte of the level `d`. -/
def State.levelCause (s : State) (d : Nat) : Nat :=
  let auto := s.on R.SYN_DCTL_AUTO
  let top := s.get R.SYN_DCTL_MAX_LEVEL
  let above := fun l => match s.scaledMax with
    | some m => !(s.estimate m l).le s.budget
    | none => false
  let late := match s.scaledMax with
    | some m => decide (s.budgetLevel m < s.lateLevel (s.budgetLevel m))
    | none => false
  let empty := s.bandMode && s.syn.camSet.isNone
  b2n (auto && decide (0 < d) && above (d - 1)) + 2 * b2n (decide (s.get R.THM_CEIL_CLK_NOW < s.get R.HLT_CEIL_CEIL_MHZ)) +
  4 * b2n (auto && late) + 8 * b2n (!auto) + 16 * b2n (s.bandMode && s.syn.setRepeat) + 32 * b2n (auto && decide (d = top) && above top) +
  64 * b2n (auto && decide (s.syn.dens.measured < 2)) + 128 * b2n empty

/-- R87, R89. At a frame's first dealing its level is chosen; `top` is its first band in band mode. The frame is bound to the level and to
the camera set bound last, with the table's entries. -/
def State.bindFrame (s : State) (top : Option Nat) (cams : List (Nat × List Byte)) : State :=
  let c := s.chooseLevel
  let cause := s.levelCause c.1
  let bound : FrameBind := { top := top, level := c.1, cause := cause, est := s.scaledMax.map (fun m => let e := s.estimate m c.1; e.num / zeroActs 1 e.den),
                              set := if top.isSome then s.syn.camSet else none, cams := cams }
  let d := { s.syn.dens with qual := c.2, late := false, freed := s.syn.dens.freed || decide (s.syn.dens.measured = 1) }
  let s := { s with syn := { s.syn with bound := bound, dens := d } }
  (s.put R.SYN_DSTAT_LEVEL c.1).put R.SYN_DSTAT_CAUSE cause

/-! ### Measured frames (R89) -/

/-- The panel frame that a work item belongs to: (true, its first band) or (false, the item). -/
def State.frameKey (s : State) (k : Nat) (w : SynWork) : Bool × Nat :=
  match w.band with
  | some b => (true, b - b % zeroActs 1 s.bandCount)
  | none => (false, k)

/-- R65. Is every tile band of a work item complete? -/
def State.workComplete (s : State) (w : SynWork) : Bool :=
  s.tilesOn.all (fun t => (s.workBands w).all (fun i => w.complete.contains (t * 64 + i)))

/-- Does a launch other than `but` run on a work item? -/
def State.worked (s : State) (but wk : Nat) : Bool := s.aq.launches.any (fun p => decide (p.1 ≠ but) && decide (p.2.work = some wk))

/-- The larger of two costs; the first where they are equal. -/
def maxCost (a b : Option CostRec) : Option CostRec :=
  match a, b with
  | some x, some y => some (if x.cost < y.cost then y else x)
  | some x, none => some x
  | none, y => y

/-- R89. A frame is measured once all its bands have been launched (or its time is past), each is complete or abandoned, and no launch
other than `but` runs on them: its slowest cost enters the history and its record. A band that came late counts with what its launches
cost (assumption 29). -/
def State.measureFrame (s : State) (key : Bool × Nat) (but : Nat) (past : Bool) : State :=
  let ws := s.syn.works.filter (fun p => decide (s.frameKey p.1 p.2 = key))
  let whole := past || !key.1 || decide (ws.length = s.bandCount)
  if whole && ws.all (fun p => (p.2.abandoned || s.workComplete p.2) && !p.2.measured && !s.worked but p.1) then
    match ws.foldl (fun m p => maxCost m p.2.cost) none with
    | none => s
    | some c =>
      let d := s.syn.dens
      { s with syn := { s.syn with
          works := s.syn.works.map (fun p => if s.frameKey p.1 p.2 = key then (p.1, { p.2 with measured := true }) else p)
          dens := { d with hist := (c :: d.hist).take 2, measured := d.measured + 1,
                           recs := d.recs.map (fun r => if r.key = some key then { r with meas := some c } else r) } } }
  else s

/-! ### Lateness (R89, R91) -/

/-- R91. Change the record of the panel frame that started last. -/
def State.mapLastRec (s : State) (g : DensRec → DensRec) : State :=
  let d := s.syn.dens
  match d.recs.getLast? with
  | some r => s.setDens { d with recs := d.recs.dropLast ++ [g r] }
  | none => s

/-- R89. In frame mode a frame came late: it counts for the next choice and in the record (assumption 80). -/
def State.frameLate (s : State) : State :=
  if s.bandMode then s
  else (s.setDens { s.syn.dens with late := true }).mapLastRec (fun r => { r with late := true })

/-- R89, R91. A band came late: its frame is late. It counts for the next choice unless a later frame has been dealt since. -/
def State.bandLate (s : State) (b : Nat) : State :=
  let top := b - b % zeroActs 1 s.bandCount
  let counts := match s.syn.bound.top with
    | some t => decide (t ≤ top)
    | none => true
  (s.setDens { s.syn.dens with late := s.syn.dens.late || counts }).mapLastRec (fun r => { r with late := true, lateBands := r.lateBands + 1 })

/-! ### The density record (R91) -/

/-- R91. At a frame start the record of the panel frame is opened: what the frame shown is bound to. `w` is its work item (the first
band's in band mode). -/
def State.openRecord (s : State) (key : Option (Bool × Nat)) (w : Option SynWork) : State :=
  let b := match w with
    | some w => w.bound
    | none => s.syn.bound
  let src := match w with
    | some w => if w.band.isSome then w.bound.set.getD 0 else w.seq
    | none => 0
  let meas := match w with
    | some w => if w.measured then (s.syn.works.filter (fun p => decide (some (s.frameKey p.1 p.2) = key))).foldl (fun m p => maxCost m p.2.cost) none else none
    | none => none
  let d := s.syn.dens
  let r : DensRec := { key := key, frame := s.frameNo, src := src, startNs := s.frameStartNs, level := b.level, cause := b.cause, est := b.est,
                        meas := meas, lateBands := 0, late := false, changed := decide (b.level ≠ d.shownLevel) }
  s.setDens { d with shownLevel := b.level, recs := d.recs ++ [r] }

/-- R91. The 32 bytes of a record. A cost that was not measured and an estimate that was not made are free (assumption 29). -/
def DensRec.bytes (r : DensRec) (free : Nat) : List Byte :=
  let meas := match r.meas with
    | some c => c.cost
    | none => free
  let clk := match r.meas with
    | some c => c.clk
    | none => free / 2 ^ 32
  leBytes 4 r.frame ++ leBytes 4 r.src ++ leBytes 8 r.startNs ++ leBytes 1 r.level ++ leBytes 1 r.cause ++
  leBytes 2 clk ++ leBytes 4 (r.est.getD (free / 2 ^ 48)) ++ leBytes 4 meas ++ leBytes 2 r.lateBands ++ leBytes 2 (b2n r.late + 2 * b2n r.changed)

/-- R91. The address of the next record. -/
def State.dlogAddr (s : State) : Nat :=
  s.addrOf R.SYN_DLOG_LO_ADDR R.SYN_DLOG_HI_ADDR + 32 * (s.get R.SYN_DLOG_HEAD_HEAD % 2 ^ clampN 4 16 (s.get R.SYN_DLOG_CNT_LOG2N))

/-- R91. A record is written, or dropped where it cannot be; HEAD advances either way. -/
def State.densityRecord (s : State) (r : DensRec) (rest : List DensRec) : State :=
  let f := s.fresh
  let s := f.2
  let va := s.dlogAddr
  let s := match s.vwrite 0 va (r.bytes f.1) with
    | .ok s' => s'
    | .error e => (s.accFail 0x36 0 0 va .write 9 e).bump R.SYN_DLOG_DROP_DROP
  (s.setDens { s.syn.dens with recs := rest }).bump R.SYN_DLOG_HEAD_HEAD

/-- R91. After a panel frame's last band or commit, the frame program writes its density record, the oldest first. -/
def execDensityRecord (s : State) : Host.Outcome State Fault Refusal :=
  .next (match s.syn.dens.recs with
    | [] => s
    | r :: rest => s.densityRecord r rest)

end Sys2Proof.Machine
end

