-- ==== Sys2Proof/Machine/Wydel.lean ====
section
/-! DEFINITION. The Wydel ports: control blocks, framing, electrical idle, the back channel, the spare lane with its substitution, and
the link states (R211–R238, R439). -/
namespace Sys2Proof.Machine

/-! ### Ports -/

/-- A port as it is after reset. -/
def portDefault (_ : Nat) : PortSt :=
  { acount := 0, queue := [], nextShadow := none, mapDue := false, clean := 0, dirty := false, errs := [], unlock := [], ival := [], mism := none,
    failing := none, sent := false, exch := false, newMap := [], mapSeq := 0, qualAt := none, trainAt := 0, retraining := false, bcLost := none, bcGood := 0,
    bcBad := [], lost := [], trig := 0, cleanAt := none, asked := [], framed := false, retrying := false, gap := none, history := [] }
/-- Port `t`. -/
def State.port (s : State) (t : Nat) : PortSt := mapGet portDefault s.ports t
/-- Replace port `t`. -/
def State.setPort (s : State) (t : Nat) (x : PortSt) : State := { s with ports := mapPut portDefault s.ports t x }
/-- STATE of port `t` (R238): 0 OFF, 1 TRAIN, 2 UP, 3 EI, 4 HOLD, 5 FAILED. -/
def State.portState (s : State) (t : Nat) : Nat := s.get (R.WYL_PSTAT_STATE t)
/-- R236, R237. A port enters a state; WYL_UP shows the ports in UP. -/
def State.setPortState (s : State) (t st : Nat) : State :=
  let f := if t < 32 then R.WYL_UP_LO_UP else R.WYL_UP_HI_UP
  let v := s.get f
  let b := 2 ^ (t % 32)
  (s.put (R.WYL_PSTAT_STATE t) st).put f (if st = 2 then v ||| b else v - (v &&& b))
/-- Does the port exchange blocks with its tile in service: UP, EI or HOLD? -/
def State.portServes (s : State) (t : Nat) : Bool := [2, 3, 4].contains (s.portState t)

/-- R238. The physical lane that carries logical lane `l`. -/
def State.physLane (s : State) (t l : Nat) : Nat :=
  s.get (match l with
    | 0 => R.WYL_PSTAT_P0 t | 1 => R.WYL_PSTAT_P1 t | 2 => R.WYL_PSTAT_P2 t | _ => R.WYL_PSTAT_P3 t)
/-- Replace the physical lane of a logical lane. -/
def State.setPhysLane (s : State) (t l p : Nat) : State :=
  s.put (match l with
    | 0 => R.WYL_PSTAT_P0 t | 1 => R.WYL_PSTAT_P1 t | 2 => R.WYL_PSTAT_P2 t | _ => R.WYL_PSTAT_P3 t) p
/-- The logical lane that a physical lane carries, if it carries one. -/
def State.logLane (s : State) (t p : Nat) : Option Nat := (List.range 4).find? (fun l => decide (s.physLane t l = p))
/-- R234. Is a physical lane retired? -/
def State.laneRetired (s : State) (t p : Nat) : Bool := s.on (R.WYL_LANE_STAT_FAILED t p)
/-- R234. Does the port have a spare that may be used or qualified? -/
def State.hasSpare (s : State) (t : Nat) : Bool := !s.laneRetired t (s.get (R.WYL_PSTAT_PSPARE t))

/-- R226, R227, R234. The drivers of a port's lanes enter or leave electrical idle; a retired lane stays idle. -/
def State.drive (s : State) (t : Nat) (on : Bool) : State := s.emit (.lanes t ((List.range 5).filter (fun p => !s.laneRetired t p)) on)

/-! ### Block coding (R214, R215): a lane's bits, given the line bits that it sent before (assumption 47) -/

/-- R215. The line bit of payload bit `d` after a history: bit 0 of the history is the line bit sent last. -/
def scrBit (h : BitVec 58) (d : Bool) : Bool := (d ^^ h.getLsbD 38) ^^ h.getLsbD 57
/-- R215. The history after a line bit. -/
def scrNext (h : BitVec 58) (b : Bool) : BitVec 58 := (h <<< 1) ||| (BitVec.ofBool b).setWidth 58
/-- R215. The line bits of payload bits, and the history after them. -/
def scramble : BitVec 58 → List Bool → List Bool × BitVec 58
  | h, [] => ([], h)
  | h, d :: ds =>
    let b := scrBit h d
    let r := scramble (scrNext h b) ds
    (b :: r.1, r.2)
/-- R215. The payload bits that a receiver with a history takes from line bits. -/
def descramble : BitVec 58 → List Bool → List Bool
  | _, [] => []
  | h, b :: bs => scrBit h b :: descramble (scrNext h b) bs
/-- R214. The bits of a block on a lane, in order: the sync header, 0b01 for data and 0b10 for control, and the scrambled payload. -/
def laneBits (h : BitVec 58) (control : Bool) (payload : BitVec 64) : List Bool × BitVec 58 :=
  let r := scramble h ((List.range 64).map payload.getLsbD)
  ((!control) :: control :: r.1, r.2)

/-- R214. Is a sync header, bit 0 sent first, valid? -/
def headerValid (h : Nat) : Bool := decide (h = 1) || decide (h = 2)

/-! ### Control blocks (R217, R218) -/

/-- The XOR of the `n` low bytes of a word. -/
def xorBytes : Nat → Nat → Nat
  | 0, _ => 0
  | n + 1, v => (v % 256) ^^^ xorBytes n (v / 256)

/-- R217. A control block of a type with D[55:8], completed by its CHK. -/
def ctlBlock (code d : Nat) : Nat :=
  let v := code + 256 * (d % 2 ^ 48)
  v + xorBytes 7 v * 2 ^ 56

/-- IDLE with an EIC. -/
def idleBlock (eic : Nat) : Nat := ctlBlock 0x1E eic
/-- HOLD with a REASON. -/
def holdBlock (reason : Nat) : Nat := ctlBlock 0x4B reason
/-- WAKE with a REMAIN. -/
def wakeBlock (remain : Nat) : Nat := ctlBlock 0x55 (remain * 256)
/-- ALIGN of a physical lane. -/
def alignBlock (port lane acount : Nat) : Nat := ctlBlock 0x3C (lane + port * 2 ^ 8 + acount % 2 ^ 32 * 2 ^ 16)
/-- FRAME_START. -/
def frameStartBlock (frame : Nat) (rep st cls : Bool) (mapSeq : Nat) : Nat :=
  ctlBlock 0x2D (frame % 2 ^ 32 + b2n rep * 2 ^ 32 + b2n st * 2 ^ 33 + b2n cls * 2 ^ 34 + mapSeq % 256 * 2 ^ 40)
/-- LINE_START. -/
def lineStartBlock (line frame g0 ngrp : Nat) : Nat :=
  ctlBlock 0x33 (line % 65536 + frame % 256 * 2 ^ 16 + g0 % 256 * 2 ^ 24 + ngrp % 1024 * 2 ^ 32)
/-- LANE_MAP. -/
def laneMapBlock (p0 p1 p2 p3 spare shadow seq : Nat) (at1 : Bool) : Nat :=
  ctlBlock 0x66 (p0 + p1 * 2 ^ 4 + p2 * 2 ^ 8 + p3 * 2 ^ 12 + spare * 2 ^ 16 + shadow * 2 ^ 20 + seq % 256 * 2 ^ 24 + b2n at1 * 2 ^ 32)
/-- REGION. -/
def regionBlock (y0 h x0g wg rid : Nat) : Nat := ctlBlock 0x78 (y0 % 4096 + h % 4096 * 2 ^ 12 + x0g % 512 * 2 ^ 24 + wg % 512 * 2 ^ 33 + rid % 64 * 2 ^ 42)
/-- HOLD_WRITE. -/
def holdWriteBlock (phase gen : Nat) : Nat := ctlBlock 0x87 (phase + gen % 2 ^ 32 * 2 ^ 8)
/-- STATUS_REQ. -/
def statusReqBlock (req tag : Nat) : Nat := ctlBlock 0x99 (req % 256 + tag % 256 * 2 ^ 8)

/-- A port sends a control block as a column. -/
def State.column (s : State) (t blk : Nat) : State := s.emit (.column t blk)
/-- R218. A LANE_MAP goes out in three consecutive columns. -/
def State.sendMap (s : State) (t blk : Nat) : State := ((s.column t blk).column t blk).column t blk

/-- R218. Queue a block for the blanking lines. -/
def State.queueBlock (s : State) (t blk : Nat) : State := s.setPort t { s.port t with queue := (s.port t).queue ++ [blk] }

/-- R217. Is it a STATUS_REQ block; its REQ and TAG. -/
def isStatusReq (b : Nat) : Bool := decide (b % 256 = 0x99)

/-- R218, R238. In a blanking line an UP port sends its queued blocks in order; GO of a STATUS_REQ then reads 0. -/
def State.drainQueue (s : State) (t : Nat) : State :=
  if s.portState t ≠ 2 then s
  else
    let x := s.port t
    let reqs := x.queue.filter isStatusReq
    let s := x.queue.foldl (fun s b => s.column t b) s
    let s := s.setPort t { x with queue := [], asked := x.asked ++ reqs.map (fun b => b / 2 ^ 8 % 256 * 256 + b / 2 ^ 16 % 256) }
    if reqs = [] then s else s.put (R.WYL_SREQ_GO t) 0

/-! ### Streams (R219, R220) -/

/-- R219. The 960-bit word of 32 pixels, the pixel at index 0 lowest. -/
def groupWord : List Nat → Nat
  | [] => 0
  | p :: ps => p % 2 ^ 30 + 2 ^ 30 * groupWord ps

/-- R219. The 15 data blocks of a group. -/
def groupBlocks (px : List Nat) : List Nat := (List.range 15).map (fun b => groupWord px / 2 ^ (64 * b) % 2 ^ 64)

/-- R219, R220. The stream of a line: LINE_START, then the data blocks of groups g0 to g0 + ngrp − 1; a short last group is padded with
zero pixels. -/
def lineStream (line frame g0 ngrp : Nat) (words : List Nat) : List Nat :=
  lineStartBlock line frame g0 ngrp ::
  (List.range ngrp).flatMap (fun g => groupBlocks ((words.drop ((g0 + g) * 32)).take 32))

/-- R220. The block in column `c` of logical lane `l`: stream block 4c + l, of which the first is a control block, or IDLE. -/
def streamBlock (blks : List Nat) (c l : Nat) : Bool × Nat :=
  match blks[4 * c + l]? with
  | some b => (decide (4 * c + l = 0), b)
  | none => (true, idleBlock 0)

/-- R220, R230. The blocks that the lanes of a port send in stream column `c`, with the spare's copy of logical lane `shadow` (assumption 92). -/
def State.columnBlocks (s : State) (t : Nat) (blks : List Nat) (shadow c : Nat) : List (Nat × Bool × Nat) :=
  (List.range 5).filterMap (fun p =>
    if s.laneRetired t p then none
    else match s.logLane t p with
      | some l => some (p, streamBlock blks c l)
      | none => some (p, if s.on R.WYL_CTL_SHADOW_EN && decide (shadow < 4) then streamBlock blks c shadow else (true, idleBlock 0)))

/-- R220, R221. The LINE_CLKS columns of a line whose stream is `blks`: an ALIGN displaces the stream columns after it by one. -/
def State.lineColumns (s : State) (t : Nat) (blks : List Nat) : List (List (Nat × Bool × Nat)) :=
  let now := s.get (R.WYL_PSTAT_SHADOW t)
  (List.range s.lineClks).map (fun c =>
    match (s.port t).gap with
    | none => s.columnBlocks t blks now c
    | some (g, was) => if c < g then s.columnBlocks t blks was c else if c = g then [] else s.columnBlocks t blks now (c - 1))

/-- R214, R215. The last line bits of a physical lane after columns that it sends; its block in an empty column is `al`, the ALIGN's. -/
def laneHistory (p al : Nat) (h : BitVec 58) (cols : List (List (Nat × Bool × Nat))) : BitVec 58 :=
  cols.foldl (fun h c =>
    if c = [] then (laneBits h true (BitVec.ofNat 64 al)).2
    else match c.find? (fun b => decide (b.1 = p)) with
      | some b => (laneBits h b.2.1 (BitVec.ofNat 64 b.2.2)).2
      | none => h) h

/-- R215, R230. The lanes' histories after a line: each lane scrambles on its own, and the spare copies the scrambled stream of the lane that it
shadows. -/
def State.historyAfter (s : State) (t : Nat) (cols : List (List (Nat × Bool × Nat))) : List (Nat × BitVec 58) :=
  let x := s.port t
  let sh := s.get (R.WYL_PSTAT_SHADOW t)
  x.history.map (fun q =>
    let p := if s.on R.WYL_CTL_SHADOW_EN ∧ sh < 4 ∧ (s.logLane t q.1).isNone then s.physLane t sh else q.1
    (q.1, laneHistory p (alignBlock t p (x.acount - 1)) ((tabGet x.history p).getD 0) cols))

/-- R221. An ALIGN has fallen in a blanking line. -/
def State.dropGap (s : State) (t : Nat) : State := if (s.port t).gap.isSome then s.setPort t { s.port t with gap := none } else s

/-- R219–R221. A port sends a line's stream. -/
def State.sendStream (s : State) (t : Nat) (blks : List Nat) : State :=
  let cols := s.lineColumns t blks
  let s := s.emit (.stream t cols)
  s.setPort t { s.port t with gap := none, history := s.historyAfter t cols }

/-! ### HOLD and electrical idle (R190, R223, R225–R227, R236) -/

/-- R231. The shadow change that a LANE_MAP has announced takes effect after an ALIGN column. -/
def State.takeShadow (s : State) (t : Nat) : State :=
  let x := s.port t
  match x.nextShadow with
  | some l => if x.mapDue then s else (s.setPort t { x with nextShadow := none }).put (R.WYL_PSTAT_SHADOW t) l
  | none => s

/-- R223, R227, R231. The LANE_MAP with AT = 0 of a shadow change goes out, where the port sends other blocks than HOLD. -/
def State.sendShadow (s : State) (t : Nat) : State :=
  let x := s.port t
  match x.nextShadow with
  | some l =>
    if !x.mapDue ∨ s.portState t ≠ 2 then s
    else (s.setPort t { x with mapDue := false }).sendMap t
      (laneMapBlock (s.physLane t 0) (s.physLane t 1) (s.physLane t 2) (s.physLane t 3) (s.get (R.WYL_PSTAT_PSPARE t)) l x.mapSeq false)
  | none => s

/-- R231. A shadow change is announced: at once, or once the port has woken or left HOLD. -/
def State.announceShadow (s : State) (t l : Nat) : State :=
  let x := s.port t
  (s.setPort t { x with nextShadow := some l, mapDue := true, mapSeq := (x.mapSeq + 1) % 256 }).sendShadow t

/-- R233 step 2. The LANE_MAP with AT = 1 of a substitution. -/
def State.substMap (s : State) (t l : Nat) : Nat :=
  let x := s.port t
  laneMapBlock (x.newMap.getD 0 0) (x.newMap.getD 1 0) (x.newMap.getD 2 0) (x.newMap.getD 3 0) (s.physLane t l) 7 x.mapSeq true

/-- R233 step 2, R235. In a blanking line the LANE_MAP with AT = 1 is sent: the spare will carry the failing lane. -/
def State.sendSubst (s : State) (t : Nat) : State :=
  let x := s.port t
  match x.failing with
  | none => s
  | some l =>
    if x.sent ∨ s.portState t ≠ 2 ∨ !s.hasSpare t then s
    else
      let map := (List.range 4).map (fun k => if k = l then s.get (R.WYL_PSTAT_PSPARE t) else s.physLane t k)
      let s := s.setPort t { x with sent := true, newMap := map, mapSeq := (x.mapSeq + 1) % 256 }
      s.sendMap t (s.substMap t l)

/-- R227 steps 1 to 3. A port's lanes wake: WAKE columns, and the ALIGN column with ACOUNT 0. -/
def State.wakePort (s : State) (t : Nat) : State :=
  let s := (s.drive t true).column t (wakeBlock 0xFF)
  let s := foldRange 32 (fun s i => s.column t (wakeBlock (31 - i))) s
  let s := (foldRange 5 (fun s l => if s.laneRetired t l then s else s.column t (alignBlock t l 0)) s).setPortState t 2
  (s.setPort t { s.port t with acount := 1 }).takeShadow t

/-- R227, R235. What was due while the lanes were idle is sent, and a LANE_MAP whose frame boundary fell in electrical idle again. -/
def State.sendDue (s : State) (t : Nat) : State :=
  let s := s.sendShadow t
  match (s.port t).failing with
  | some l => if (s.port t).sent then s.sendMap t (s.substMap t l) else s.sendSubst t
  | none => s

/-- R227. The lanes wake. -/
def State.wakePorts (s : State) : State :=
  let s := foldRange 64 (fun s t => if s.portState t = 3 then (s.wakePort t).sendDue t else s) s
  s.setSco { s.sco with idle := false }

/-- R223, R227, R236. Every port in service starts to send HOLD with a REASON; idle lanes wake first. -/
def State.holdPorts (s : State) (reason : Nat) : State :=
  let s := foldRange 64 (fun s t =>
    if s.portState t = 2 ∨ s.portState t = 3 then
      let s := if s.portState t = 3 then s.wakePort t else s
      (((s.setPortState t 4).setPort t { s.port t with framed := false }).column t (holdBlock reason)).bump (R.WYL_CNT_COUNT t 10)
    else if s.portState t = 4 then (s.setPort t { s.port t with framed := false }).column t (holdBlock reason)
    else s) s
  s.setSco { s.sco with hold := some reason, idle := false }

/-- R226. Entry into electrical idle: eight IDLE columns count down, and the drivers go idle. -/
def State.portsIdle (s : State) : State :=
  let s := foldRange 64 (fun s t =>
    if s.portState t = 2 then
      let s := foldRange 8 (fun s i => s.column t (idleBlock (8 - i))) s
      ((s.drive t false).setPortState t 3).bump (R.WYL_CNT_COUNT t 7)
    else s) s
  s.setSco { s.sco with idle := true }

/-- R189, R194, R227. The lanes wake from electrical idle, where the wake is due. -/
def execWake (s : State) : Host.Outcome State Fault Refusal := .next (if s.sco.idle && s.wakeDue then s.wakePorts else s)

/-- R221, R231. The ALIGN column of a port, at a column of the line that starts next (assumption 90): ACOUNT counts, and a shadow change that was
announced takes effect after it. -/
def execAlign (place : AlignAt) (s : State) : Host.Outcome State Fault Refusal :=
  .next (
    let tile := place.tile
    if !([1, 2, 4].contains (s.portState tile)) then s
    else
      let x := s.port tile
      let s := foldRange 5 (fun s l => if s.laneRetired tile l then s else s.column tile (alignBlock tile l x.acount)) s
      (s.setPort tile { x with acount := (x.acount + 1) % 2 ^ 32, gap := some (place.column, s.get (R.WYL_PSTAT_SHADOW tile)) }).takeShadow tile)

/-! ### Substitution (R230–R235) -/

/-- R234. The lane in the spare role is retired: its driver goes idle until reset, and the port has no spare. -/
def State.retireSpare (s : State) (t : Nat) : State :=
  let p := s.get (R.WYL_PSTAT_PSPARE t)
  let x := s.port t
  let s := (s.setPort t { x with qualAt := none, nextShadow := none, clean := 0 }).emit (.lanes t [p] false)
  let s := (((s.put (R.WYL_LANE_STAT_FAILED t p) 1).put (R.WYL_LANE_STAT_QUAL t p) 0).put (R.WYL_PSTAT_SPARE_OK t) 0).put (R.WYL_PSTAT_SHADOW t) 7
  let s := (((s.bump (R.WYL_CNT_COUNT t 5)).log 13 0 t 5 4 p).raise Irq.WYL_RETIRE).put (R.WYL_PSTAT_NO_SPARE t) 1
  let s := (s.log 13 0 t 0x81 2 p).raise Irq.WYL_NO_SPARE
  s.testOutcome x.trig true [13, t, p]

/-- R232, R234. The lane in the spare role goes under qualification. -/
def State.qualify (s : State) (t : Nat) : State :=
  let p := s.get (R.WYL_PSTAT_PSPARE t)
  ((s.setPort t { s.port t with qualAt := some s.ticks, clean := 0, dirty := false }).put (R.WYL_PSTAT_SPARE_OK t) 0).put (R.WYL_LANE_STAT_QUAL t p) 1

/-- R236. A substitution or shadow change that is pending is cancelled, and the port trains. -/
def State.portTrain (s : State) (t : Nat) (re : Bool) : State :=
  let s := s.setPort t { s.port t with failing := none, sent := false, nextShadow := none, trainAt := s.ticks, retraining := re, framed := false,
                                        clean := 0, errs := [], unlock := [], ival := [], mism := none, lost := [], retrying := false }
  let s := foldRange 5 (fun s l => (s.put (R.WYL_LANE_STAT_LOCK t l) 0).put (R.WYL_LANE_STAT_ALIGNED t l) 0) s
  ((s.setPortState t 1).drive t true).column t (holdBlock (if re then 4 else 1))

/-- R236. Retraining starts, from any state but OFF and TRAIN. -/
def State.portRetrain (s : State) (t : Nat) : State :=
  if [2, 3, 4, 5].contains (s.portState t) then
    (s.portTrain t true).bump (R.WYL_CNT_COUNT t 6)
  else s

/-- R232, R233, R235. A logical lane is failing: it is shadowed for substitution where the spare may take it, else LANE_FAIL is flagged;
with two lanes lost the port retrains under AUTO_RETRAIN. A lane lost earlier is substituted once the spare may take it. An
exchange under way is abandoned for it and becomes due again (R442). -/
def State.laneFailing (s : State) (t l : Nat) : State :=
  let x := s.port t
  if x.failing = some l then s
  else if s.on R.WYL_CTL_AUTO_SUB && s.on (R.WYL_PSTAT_SPARE_OK t) && s.hasSpare t && (x.failing.isNone || x.exch) then
    let s : State := if x.exch then { s with cal := { s.cal with exchanged := tabDel s.cal.exchanged t } } else s
    (s.setPort t { x with failing := some l, sent := false, exch := false, trig := s.lastSeq, lost := x.lost.filter (fun k => decide (k ≠ l)) }).announceShadow t l
  else if x.lost.contains l then s
  else
    let s := s.setPort t { x with lost := x.lost ++ [l] }
    let s := ((s.put (R.WYL_PSTAT_LANE_FAIL t) 1).log 13 0 t 0x80 2 l).raise Irq.WYL_LANE_FAIL
    if s.on R.WYL_CTL_AUTO_RETRAIN && decide (2 ≤ (s.port t).lost.length) then s.portRetrain t else s

/-- R233, R235. The spare becomes SPARE_OK: a lane that is still failing is substituted. -/
def State.spareOk (s : State) (t : Nat) : State :=
  let s := s.put (R.WYL_PSTAT_SPARE_OK t) 1
  match (s.port t).lost with
  | l :: _ => s.laneFailing t l
  | [] => s

/-- R233 step 2. The substitution of a failing lane is announced in a blanking line. -/
def execWylSubstitution (tile : Nat) (s : State) : Host.Outcome State Fault Refusal :=
  .next (if s.sco.inFrame && !s.sco.blank then s else s.sendSubst tile)

/-- R233 step 3. The new map takes effect at FRAME_START. -/
def State.takeLaneMap (s : State) (t : Nat) : State :=
  let x := s.port t
  match x.failing with
  | some l =>
    if !x.sent then s
    else
      let old := s.physLane t l
      let sp := s.get (R.WYL_PSTAT_PSPARE t)
      let s := ((s.setPhysLane t l sp).put (R.WYL_PSTAT_PSPARE t) old).put (R.WYL_PSTAT_SHADOW t) 7
      let s := s.setPort t { x with failing := none, sent := false, exch := false, newMap := [], nextShadow := none, mapDue := false, clean := 0, dirty := false,
                                     errs := tabDel x.errs old, unlock := tabDel x.unlock old }
      let s := (((s.bump (R.WYL_CNT_COUNT t 3)).substNote [13, t, old]).log 13 0 t 3 0 old).raise Irq.WYL_SUBST
      s.qualify t
  | none => s

/-- R217, R222, R223, R236. FRAME_START on a port: HOLD ends, a waiting map takes effect, and framing runs from here. A port whose tile is
not enabled sends IDLE columns (R200). -/
def State.portFrameStart (s : State) (rep st : Bool) (t : Nat) : State :=
  if s.portState t ≠ 2 ∧ s.portState t ≠ 4 then s
  else
    let s := s.setPortState t 2
    if !s.tileOn t then s.column t (idleBlock 0)
    else
      let s := s.column t (frameStartBlock s.frameNo rep st s.lockedClass (s.port t).mapSeq)
      let s := s.takeLaneMap t
      s.setPort t { s.port t with framed := true, history := (List.range 5).map (fun p => (p, Config.lineHistory t p s.frameNo s.frameStartNs)) }

/-- Have `n` seconds passed since tick `t`? -/
def State.older (s : State) (n t : Nat) : Bool := decide (20625 * 1000000 * n ≤ (s.ticks - t) * 64)

/-- R234, R237. Has the lane in the spare role been under qualification for QUAL_S seconds, 0 acting as 1? -/
def State.qualified (s : State) (t : Nat) : Bool :=
  match (s.port t).qualAt with
  | some q => s.older (zeroActs 1 (s.get R.WYL_SUBCTL_QUAL_S)) q
  | none => false

/-- R234. Qualification ends after QUAL_S clean seconds: the fault was transient, and the lane is SPARE_OK. -/
def execQualificationEnd (tile : Nat) (s : State) : Host.Outcome State Fault Refusal :=
  .next (
    let x := s.port tile
    if !s.qualified tile then s
    else
      let p := s.get (R.WYL_PSTAT_PSPARE tile)
      let s := s.setPort tile { x with qualAt := none, clean := 0 }
      let s := (s.put (R.WYL_LANE_STAT_QUAL tile p) 0).bump (R.WYL_CNT_COUNT tile 4)
      (s.testOutcome x.trig false [13, tile, p]).spareOk tile)

/-- R231. A rotation falls due: the rotation that ends is judged, and the next shadow is announced. -/
def State.rotate (s : State) (t : Nat) : State :=
  let x := s.port t
  if !s.on R.WYL_CTL_SHADOW_EN || !s.portServes t || !s.hasSpare t || x.failing.isSome || s.on (R.WYL_PSTAT_BC_LOSS t) then s
  else
    let was := s.get (R.WYL_PSTAT_SHADOW t)
    let ok := decide (was ≠ 7) && !x.dirty
    let clean := if ok then x.clean + 1 else 0
    let s := s.setPort t { x with clean := clean, dirty := false, cleanAt := if 4 ≤ clean then some s.ticks else x.cleanAt }
    let s := if 4 ≤ clean ∧ x.qualAt.isNone then s.spareOk t else s
    if (s.port t).failing.isSome then s else s.announceShadow t (if was = 7 then 0 else (was + 1) % 4)

/-- R231. A shadow rotation falls due. -/
def execShadowRotation (tile : Nat) (s : State) : Host.Outcome State Fault Refusal := .next (s.rotate tile)

/-- R232. A write of 1 to WYL_PCTL.SUB_REQ with SUB_LANE names a logical lane as failing. -/
def State.subReq (s : State) (t : Nat) : State :=
  let l := s.get (R.WYL_PCTL_SUB_LANE t)
  if l < 4 ∧ s.portServes t then s.laneFailing t l else s
/-- R232. The write of SUB_REQ. -/
def execSubReq (tile lane : Nat) (s : State) : Host.Outcome State Fault Refusal := .next ((s.put (R.WYL_PCTL_SUB_LANE tile) lane).subReq tile)

/-! ### Messages of the back channel (R228, R229, R232) -/

/-- A field of D[55:8] of a message, by its place in D. -/
def msgBits (d : BitVec 48) (lsb w : Nat) : Nat := bitsOf d.toNat (lsb - 8) w

/-- R232, R439. The errors of a lane in the last ten seconds, with those of a message added. -/
def State.addLaneErrs (s : State) (t p n : Nat) : State :=
  let x := s.port t
  let l := ((tabGet x.errs p).getD []).filter (fun e => !s.older 10 e.1)
  s.setPort t { x with errs := tabPut x.errs p (if n = 0 then l else (s.ticks, n) :: l) }

/-- R232. Is the physical lane failing by its errors of one second, or by two messages in a row without lock? -/
def State.laneBad (s : State) (t p : Nat) : Bool :=
  let x := s.port t
  let recent := ((tabGet x.errs p).getD []).filter (fun e => !s.older 1 e.1)
  decide (zeroActs 1 (s.get R.WYL_SUBCTL_ERR_LIM) ≤ (recent.map Prod.snd).sum) || decide (2 ≤ (tabGet x.unlock p).getD 0)

/-- R232, R234. A mismatch in an interval in which the shadowed lane had no error counts against the spare: it is qualified again. -/
def State.spareMismatch (s : State) (t : Nat) : State :=
  if (s.port t).qualAt.isSome then s else (s.setPort t { s.port t with trig := s.lastSeq }).qualify t

/-- R232. The interval of a LANE_STAT message is noted, and a mismatch that waited for it is judged. -/
def State.noteInterval (s : State) (t p acount err : Nat) : State :=
  let x := s.port t
  let s := s.setPort t { x with ival := tabPut x.ival p (acount, err), mism := if x.mism = some (p, acount) then none else x.mism }
  if x.mism = some (p, acount) ∧ err = 0 ∧ s.portServes t ∧ s.hasSpare t then s.spareMismatch t else s

/-- R228, R232, R234. LANE_STAT: the lane's bits and errors are taken and judged. -/
def execLaneStat (tile : Nat) (d : BitVec 48) (s : State) : Host.Outcome State Fault Refusal :=
  .next (
    let p := msgBits d 8 3
    if 4 < p ∨ !s.on (R.WYL_PSTAT_BC_LOCK tile) then s
    else
      let lock := msgBits d 11 1
      let al := msgBits d 12 1
      let err := msgBits d 16 16
      let s := ((s.put (R.WYL_LANE_STAT_LOCK tile p) lock).put (R.WYL_LANE_STAT_ALIGNED tile p) al).put (R.WYL_LANE_STAT_ERR tile p) err
      let s := if err = 0 then s else ((s.bumpBy (R.WYL_CNT_COUNT tile 0) err).log 13 0 tile 0 1 p).raise Irq.WYL_LINK_ERR
      let s := (s.addLaneErrs tile p err).noteInterval tile p (msgBits d 32 24) err
      let x := s.port tile
      let s := s.setPort tile { x with unlock := tabPut x.unlock p (if lock = 1 ∧ al = 1 then 0 else (tabGet x.unlock p).getD 0 + 1) }
      if !s.portServes tile then s
      else match s.logLane tile p with
        | some l => if s.laneBad tile p then s.laneFailing tile l else s
        | none =>
          if err = 0 then s
          else
            let s := s.setPort tile { s.port tile with dirty := true }
            if (s.port tile).qualAt.isSome then s.retireSpare tile else s)

/-- R228, R231, R232, R234. SHADOW: mismatches are judged against the spare unless the shadowed lane had errors in the same interval, which ACOUNT
names; where its LANE_STAT has not come, they wait for it. -/
def execShadow (tile : Nat) (d : BitVec 48) (s : State) : Host.Outcome State Fault Refusal :=
  .next (
    let p := msgBits d 8 3
    let n := msgBits d 16 16
    if 4 < p ∨ n = 0 ∨ !s.on (R.WYL_PSTAT_BC_LOCK tile) ∨ !s.portServes tile ∨ !s.hasSpare tile then s
    else
      let s := ((s.bumpBy (R.WYL_CNT_COUNT tile 2) n).log 13 0 tile 2 1 p).raise Irq.WYL_LINK_ERR
      let s := s.setPort tile { s.port tile with dirty := true }
      if (s.port tile).qualAt.isSome then s.retireSpare tile
      else match tabGet (s.port tile).ival p with
        | some (ac, err) =>
          if ac = msgBits d 32 24 then (if err = 0 then s.spareMismatch tile else s)
          else s.setPort tile { s.port tile with mism := some (p, msgBits d 32 24) }
        | none => s.setPort tile { s.port tile with mism := some (p, msgBits d 32 24) })

/-- R229, R238. The payload of a message with its ID and CHK. -/
def msgPayload (id : Nat) (d : BitVec 48) : Nat := ctlBlock id d.toNat

/-- R229, R238. A reply to a STATUS_REQ is shown. -/
def State.putResponse (s : State) (t payload : Nat) : State :=
  (s.put (R.WYL_SRESP_LO_D t) payload).put (R.WYL_SRESP_HI_D t) (payload / 2 ^ 32)

/-- R228, R229, R252. TILE_STATUS: with TAG 0 it updates WYL_TSTAT and HOLD_CAP; an answer to a request updates WYL_SRESP. -/
def execTileStatus (tile : Nat) (d : BitVec 48) (s : State) : Host.Outcome State Fault Refusal :=
  .next (
    if !s.on (R.WYL_PSTAT_BC_LOCK tile) then s
    else
      let tag := msgBits d 32 8
      let x := s.port tile
      let s := if tag = 0 then
          ((s.put (R.WYL_TSTAT_D tile) (d.toNat % 2 ^ 32)).put (R.PNL_TSTAT_HOLD_CAP tile) (msgBits d 24 1)).bumpBy (R.WYL_CNT_COUNT tile 11) (msgBits d 40 8)
        else s
      if x.asked.contains (256 + tag) then (s.setPort tile { s.port tile with asked := x.asked.erase (256 + tag) }).putResponse tile (msgPayload 3 d)
      else s)

/-- R229. A message with a wrong CHK or an unknown ID is discarded and counted. -/
def execBcHdrErr (tile : Nat) (s : State) : Host.Outcome State Fault Refusal :=
  .next (if s.on (R.WYL_PSTAT_BC_LOCK tile) then ((s.bump (R.WYL_CNT_COUNT tile 8)).log 13 0 tile 8 1 0).raise Irq.WYL_LINK_ERR else s)

/-- R238. A write of 1 to WYL_SREQ.GO queues a STATUS_REQ with the REQ and TAG that stand there; while one waits it does nothing more. -/
def State.statusReq (s : State) (t : Nat) : State :=
  if s.on (R.WYL_SREQ_GO t) then s
  else (s.queueBlock t (statusReqBlock (s.get (R.WYL_SREQ_REQ t)) (s.get (R.WYL_SREQ_TAG t)))).put (R.WYL_SREQ_GO t) 1

/-- R218, R238. The write of STATUS_REQ. -/
def execStatusReq (tile req tag : Nat) (s : State) : Host.Outcome State Fault Refusal :=
  .next (((s.put (R.WYL_SREQ_REQ tile) req).put (R.WYL_SREQ_TAG tile) tag).statusReq tile)

/-! ### Link states (R216, R229, R236) -/

/-- R216, R229. The back-channel receiver gains or loses block lock, and its count starts afresh. -/
def State.setBcLock (s : State) (t : Nat) (lock : Bool) : State :=
  let x := { s.port t with bcGood := 0, bcBad := [] }
  let s := s.put (R.WYL_PSTAT_BC_LOCK t) (b2n lock)
  if lock then (s.setPort t { x with bcLost := none }).put (R.WYL_PSTAT_BC_LOSS t) 0
  else s.setPort t { x with bcLost := if x.bcLost.isSome then x.bcLost else some s.ticks }

/-- R217, R228. Is a control block of the back channel good: ALIGN or IDLE, with its CHK? -/
def bcControlOk (d : Nat) : Bool := (decide (d % 256 = 0x1E) || decide (d % 256 = 0x3C)) && decide (d / 2 ^ 56 % 256 = xorBytes 7 d)

/-- R214, R216, R217. A block of the back channel, its sync header and its payload: 64 valid headers in a row gain block lock, 16 invalid ones among
64 lose it; in lock, a control block that is not good is discarded and counted as a check error (assumption 91). -/
def State.bcBlock (s : State) (t header payload : Nat) : State :=
  let x := s.port t
  let ok := headerValid header
  let x := { x with bcGood := if ok then min 64 (x.bcGood + 1) else 0, bcBad := ((!ok) :: x.bcBad).take 64 }
  let s := s.setPort t x
  if !s.on (R.WYL_PSTAT_BC_LOCK t) then (if x.bcGood = 64 then s.setBcLock t true else s)
  else if 16 ≤ x.bcBad.countP id then s.setBcLock t false
  else if header = 2 ∧ !bcControlOk payload then ((s.bump (R.WYL_CNT_COUNT t 1)).log 13 0 t 1 1 0).raise Irq.WYL_LINK_ERR
  else s

/-- R216, R229. Blocks of the back channel arrive, each its sync header and descrambled payload: block lock is gained or lost by their headers. -/
def execBcBlockLock (tile : Nat) (blocks : List (Nat × Nat)) (s : State) : Host.Outcome State Fault Refusal :=
  .next (if s.portState tile = 0 then s else blocks.foldl (fun s b => s.bcBlock tile b.1 b.2) s)

/-- R229, R236. The back channel has been out of lock for 1 ms. -/
def execBcLoss (tile : Nat) (s : State) : Host.Outcome State Fault Refusal :=
  .next (
    let x := s.port tile
    if x.bcLost.isNone ∨ s.on (R.WYL_PSTAT_BC_LOSS tile) then s
    else
      let s := (((s.put (R.WYL_PSTAT_BC_LOSS tile) 1).bump (R.WYL_CNT_COUNT tile 9)).log 13 0 tile 9 2 0).raise Irq.WYL_BC_LOSS
      let s := s.setPort tile { s.port tile with clean := 0, nextShadow := none }
      if s.on R.WYL_CTL_AUTO_RETRAIN && s.portServes tile then s.portRetrain tile else s)

/-- R236. A write of 1 to WYL_PCTL.RETRAIN. -/
def execRetrain (tile : Nat) (s : State) : Host.Outcome State Fault Refusal := .next (s.portRetrain tile)

/-- R236. Have all lanes that are not retired reported LOCK and ALIGNED, with back-channel lock? -/
def State.portReady (s : State) (t : Nat) : Bool :=
  s.on (R.WYL_PSTAT_BC_LOCK t) && (List.range 5).all (fun l => s.laneRetired t l || (s.on (R.WYL_LANE_STAT_LOCK t l) && s.on (R.WYL_LANE_STAT_ALIGNED t l)))

/-- R208, R223, R236. A training port reaches UP; while the ports send HOLD it goes on to HOLD. -/
def execPortUp (tile : Nat) (s : State) : Host.Outcome State Fault Refusal :=
  .next (
    if !([1, 5].contains (s.portState tile) && s.portReady tile) then s
    else
      let s := (s.setPort tile { s.port tile with acount := 0, retraining := false, framed := false, retrying := false, clean := 0 }).setPortState tile 2
      let s := (s.put (R.WYL_PSTAT_LANE_FAIL tile) 0).eyeTake tile
      match s.sco.hold with
      | some r => ((s.setPortState tile 4).column tile (holdBlock r)).bump (R.WYL_CNT_COUNT tile 10)
      | none => s)

/-- R236. TRAIN has not reached UP within 10 ms; a FAILED port whose retry fails sends nothing again. -/
def execPortTrainTimeout (tile : Nat) (s : State) : Host.Outcome State Fault Refusal :=
  .next (
    if s.portState tile = 5 ∧ (s.port tile).retrying then (s.setPort tile { s.port tile with retrying := false }).drive tile false
    else if s.portState tile ≠ 1 then s
    else (((s.setPortState tile 5).drive tile false).log 13 0 tile 0x86 2 0).raise Irq.WYL_PORT_FAILED)

/-- R236. A FAILED port trains again; FAILED stays set until UP. -/
def execPortTrainRetry (tile : Nat) (s : State) : Host.Outcome State Fault Refusal :=
  .next (
    if s.portState tile ≠ 5 then s
    else
      let re := (s.port tile).retraining
      ((s.setPort tile { s.port tile with trainAt := s.ticks, retrying := true }).drive tile true).column tile (holdBlock (if re then 4 else 1)))

/-- R236. WYL_CTL.ENABLE or a PORT_EN has been written: ports leave OFF, or return to it. -/
def State.syncPorts (s : State) : State :=
  foldRange 64 (fun s t =>
    let en := s.on R.WYL_CTL_ENABLE && s.on (R.WYL_PCTL_PORT_EN t) && decide (t < s.member.tiles)
    if en && decide (s.portState t = 0) then s.portTrain t false
    else if !en && decide (s.portState t ≠ 0) then
      let x := s.port t
      let s := s.setPort t { x with failing := none, sent := false, nextShadow := none, framed := false, retrying := false, queue := [], bcLost := none, bcGood := 0, bcBad := [], asked := [] }
      (((s.setPortState t 0).put (R.WYL_PSTAT_BC_LOCK t) 0).put (R.WYL_SREQ_GO t) 0).drive t false
    else s) s

/-- R236. A write of WYL_CTL.ENABLE and of a port's PORT_EN. -/
def execPortEnable (tile : Nat) (en portEn : Bool) (s : State) : Host.Outcome State Fault Refusal :=
  .next (((s.put R.WYL_CTL_ENABLE (b2n en)).put (R.WYL_PCTL_PORT_EN tile) (b2n portEn)).syncPorts)

/-! ### Exchange with the spare by the Gleaner (R439) -/

/-- R439. The lane in the spare role is SPARE_OK and an active lane has shown errors in the last 10 s: it is exchanged by steps 2 to 4 of
R233, at most once in 10 s per port and not during a qualification. -/
def State.exchangeLane (s : State) (t l : Nat) : State :=
  let x := s.port t
  let recent := match tabGet s.cal.exchanged t with
    | some e => decide ((s.ticks - e) * 64 < 20625 * 10000000)
    | none => false
  if recent || x.qualAt.isSome || x.failing.isSome || !s.on (R.WYL_PSTAT_SPARE_OK t) || !s.portServes t then s
  else
    let s := s.setPort t { x with failing := some l, sent := false, exch := true }
    ({ s with cal := { s.cal with exchanged := tabPut s.cal.exchanged t s.ticks } }.bump (R.CAL_CNT_COUNT 1 6))

end Sys2Proof.Machine
end

