-- ==== Sys2Proof/Machine/Panel.lean ====
section
/-! DEFINITION. The panel: rails, region updates, the checksum comparison, the hold write and the start-up report (R239–R251). -/
namespace Sys2Proof.Machine

/-- Replace the panel state. -/
def State.setPnl (s : State) (x : PnlSt) : State := { s with pnl := x }

/-! ### Rails going down (R239–R241) -/

/-- The highest rail that is enabled. -/
def State.topRail (s : State) : Option Nat := (List.range 4).reverse.find? (fun n => bitAt (s.get R.PNL_PWRSTAT_EN) n)

/-- R239. The descending sequence starts; with no rail enabled it is over at once. -/
def State.railsDown (s : State) : State :=
  let s := s.setPnl { s.pnl with offWaits := false }
  match s.topRail with
  | some n => (s.setPnl { s.pnl with rail := n }).put R.PNL_PWRSTAT_STATE 3
  | none => s.put R.PNL_PWRSTAT_STATE 0

/-! ### Region updates (R243–R245) -/

/-- The updates of a tile, in queue order. -/
def State.regions (s : State) (t : Nat) : List Region := (tabGet s.pnl.regions t).getD []
/-- Replace the updates of a tile; QUEUED shows those that wait. -/
def State.setRegions (s : State) (t : Nat) (l : List Region) : State :=
  (s.setPnl { s.pnl with regions := if l = [] then tabDel s.pnl.regions t else tabPut s.pnl.regions t l }).put (R.PNL_TSTAT_QUEUED t)
    (l.filter (fun r => !r.sending)).length

/-- R243. Do the rectangles of two updates intersect? -/
def Region.meets (a b : Region) : Bool :=
  decide (a.y0 ≤ b.y0 + b.h) && decide (b.y0 ≤ a.y0 + a.h) && decide (a.x0g < b.x0g + b.wg) && decide (b.x0g < a.x0g + a.wg)
/-- R245. Does the rectangle of `a` lie wholly inside that of `b`? -/
def Region.inside (a b : Region) : Bool :=
  decide (b.y0 ≤ a.y0) && decide (a.y0 + a.h ≤ b.y0 + b.h) && decide (b.x0g ≤ a.x0g) && decide (a.x0g + a.wg ≤ b.x0g + b.wg)
/-- R244. Do two updates share a line? -/
def Region.sharesLine (a b : Region) : Bool := decide (a.y0 ≤ b.y0 + b.h) && decide (b.y0 ≤ a.y0 + a.h)
/-- Does an update cover line `y`? -/
def Region.hasLine (a : Region) (y : Nat) : Bool := decide (a.y0 ≤ y) && decide (y ≤ a.y0 + a.h)

/-- R243, R245. PNL_RQ_B.GO with the request that stands in PNL_RQ_A and PNL_RQ_B. -/
def State.regionGo (s : State) : State :=
  let t := s.get R.PNL_RQ_A_TILE
  let y0 := s.get R.PNL_RQ_A_Y0
  let h := s.get R.PNL_RQ_A_H
  let x := s.get R.PNL_RQ_B_X0G
  let wg := s.get R.PNL_RQ_B_WG
  if s.member.tiles ≤ t ∨ 4095 < y0 + h ∨ wg = 0 ∨ 256 < x + wg ∨ 16 ≤ (s.regions t).length then s.put R.PNL_RQ_STAT_REFUSED 1
  else
    let rid := (tabGet s.pnl.nextRid t).getD 0
    let r : Region := ⟨rid, y0, h, x, wg, false⟩
    let gone := (s.regions t).filter (fun o => !o.sending && o.inside r)
    let kept := (s.regions t).filter (fun o => o.sending || !o.inside r)
    let s := (s.setPnl { s.pnl with nextRid := tabPut s.pnl.nextRid t ((rid + 1) % 64) }).bumpBy (R.PNL_CNT_COUNT t 5) gone.length
    ((s.setRegions t (kept ++ [r])).put R.PNL_RQ_STAT_RID rid).put R.PNL_RQ_STAT_REFUSED 0

/-- R243. A write of PNL_RQ_A, then of PNL_RQ_B with GO. -/
def execRegionRequest (y0 h tile x0g wg : Nat) (s : State) : Host.Outcome State Fault Refusal :=
  .next (((((s.put R.PNL_RQ_A_Y0 y0).put R.PNL_RQ_A_H h).put R.PNL_RQ_A_TILE tile).put R.PNL_RQ_B_X0G x0g).put R.PNL_RQ_B_WG wg).regionGo

/-- R244. One pass over a tile's updates in queue order: those before, and those chosen. -/
def chooseRegions : List Region → List Region → List Region → List Region × List Region
  | [], before, chosen => (before, chosen)
  | r :: rest, before, chosen =>
    if !r.sending && !(before.any r.meets) && !(chosen.any r.sharesLine) then
      chooseRegions rest (before ++ [{ r with sending := true }]) (chosen ++ [r])
    else chooseRegions rest (before ++ [r]) chosen

/-- R244. The device chooses the updates of a tile for the next frame, and queues their REGION blocks. -/
def State.chooseFor (s : State) (t : Nat) : State :=
  if !s.tileOn t ∨ !s.onA (R.PNL_TCTL_MODE t) then s
  else
    let c := chooseRegions (s.regions t) [] []
    c.2.foldl (fun s r => s.queueBlock t (regionBlock r.y0 r.h r.x0g r.wg r.rid)) (s.setRegions t c.1)

/-- R243. An update is DONE. -/
def State.regionDone (s : State) (t : Nat) (r : Region) : State :=
  ((s.setRegions t ((s.regions t).erase r)).put (R.PNL_TSTAT_LAST_RID t) r.rid).bump (R.PNL_CNT_COUNT t 4)

/-- R244. The updates of a tile whose last line, `y`, has left the lanes are DONE. -/
def State.regionsThrough (s : State) (t y : Nat) : State :=
  ((s.regions t).filter (fun r => r.sending && decide (r.y0 + r.h ≤ y))).foldl (fun s r => s.regionDone t r) s

/-- R244. HOLD cuts into the frame: updates being sent go back to QUEUED at their places. -/
def State.regionsBack (s : State) : State :=
  foldRange 64 (fun s t => if (s.regions t).any (·.sending) then s.setRegions t ((s.regions t).map (fun r => { r with sending := false })) else s) s

/-! ### Checksums (R246, R247) -/

/-- R247. The sums of a region of a tile are compared, where every line of it was read and a writer's sum is kept; `skip` marks a region with a
fault, an underrun or a fallback. -/
def State.compareSums (s : State) (t : Nat) (writer : Option Nat) (reader : Nat) (whole skip : Bool) : State :=
  if !s.on R.PNL_CTL_CHK_EN then s
  else if skip then s.bump (R.PNL_CNT_COUNT t 1)
  else match whole, writer with
    | true, some w =>
      let s := (s.put (R.PNL_WSUM_SUM t) w).put (R.PNL_RSUM_SUM t) reader
      if w = reader then s
      else (((s.put (R.PNL_TSTAT_CHK_MISMATCH t) 1).bump (R.PNL_CNT_COUNT t 0)).log 14 0 t 0 2 0).raise Irq.PNL_CHK_MISMATCH
    | _, _ => s

/-! ### The hold write (R248–R250) -/

/-- The tiles of a mask. -/
def tilesIn (mask : Nat) : List Nat := (List.range 64).filter (bitAt mask)

/-- R248. The tiles that a hold write takes. -/
def State.holdMask (s : State) : Nat :=
  ((s.tilesOn.filter (fun t => s.on (R.PNL_TCTL_HOLD_EN t) && s.on (R.PNL_TSTAT_HOLD_CAP t))).map (2 ^ ·)).sum

/-- R250. The DATA of the HOLD_DONE record: the tiles that succeeded, and the previous entries of the others. -/
def State.holdRecord (s : State) (w : HoldWr) : List Nat :=
  (w.good ++ s.pnl.entries.filter (fun e => !(w.good.any (fun g => decide (g.1 = e.1))))).flatMap (fun e => [e.1, e.2.1, e.2.2])

/-- R250. After the last attempt the record HOLD_DONE is asked for. -/
def State.holdFinish (s : State) (w : HoldWr) (failed : Bool) : State :=
  (s.setPnl { s.pnl with hold := some { w with phase := if failed then .doneFail else .done } }).ledgerAsk 0x11 (s.holdRecord w)

/-- R250, R252. HOLD_DONE is in the Ledger: PNL_HGEN, DONE and FAIL; a power-down that waited for the hold write goes on (R241). -/
def State.holdDone (s : State) (w : HoldWr) (d : List Nat) : State :=
  let s := (s.setPnl { s.pnl with hold := none, entries := holdEntries d }).put R.PNL_HGEN_GEN (maxGen d)
  let s := w.good.foldl (fun s g => s.put (R.PNL_TSTAT_HOLD_DIRTY g.1) 0) s
  let s := (s.put R.PNL_HOLD_GO 0).put R.PNL_HOLD_DONE 1
  let s := if w.phase = .doneFail then s.put R.PNL_HOLD_FAIL 1 else s
  let s := s.raise Irq.PNL_HOLD_DONE
  if s.pnl.offWaits then s.railsDown else s

/-- R250, R471. LEDGER_RECORD: the oldest record that waits is entered, or counted into SKIPPED; a HOLD_DONE that is entered ends its hold write. -/
def execLedgerRecord (s : State) : Host.Outcome State Fault Refusal :=
  .next (
    let s' := s.ledgerTake
    match s.ledgerReq, s.pnl.hold with
    | r :: _, some w =>
      if r.cls = 0x11 ∧ !s.watch.down ∧ (w.phase = .done ∨ w.phase = .doneFail) then s'.holdDone w r.data else s'
    | _, _ => s')

/-- R248 step 1. An attempt begins: its HOLD_BEGIN record is asked for. -/
def State.holdAttempt (s : State) (w : HoldWr) : State :=
  (s.setPnl { s.pnl with hold := some { w with phase := .record, acks := [], sigs := [] } }).ledgerAsk 0x10 [w.gen, w.mask]

/-- R241, R248. A hold write starts, unless one is under way; with no tile to write it is done at once. -/
def State.holdStart (s : State) : State :=
  if s.pnl.hold.isSome then s
  else
    let mask := s.holdMask
    let s := s.put R.PNL_HOLD_GO 1
    if mask = 0 then
      let s := ((s.put R.PNL_HOLD_GO 0).put R.PNL_HOLD_DONE 1).raise Irq.PNL_HOLD_DONE
      if s.pnl.offWaits then s.railsDown else s
    else s.holdAttempt { gen := (s.get R.PNL_HGEN_GEN + 1) % 2 ^ 32, mask := mask, phase := .record, acks := [], tries := 0, good := [], sigs := [] }

/-- R248. A write of 1 to PNL_HOLD.GO. -/
def execHoldWrite (s : State) : Host.Outcome State Fault Refusal := .next s.holdStart

/-- R248. The HOLD_BEGIN record is in the Ledger; BEGIN goes out in the next vertical blanking. -/
def execHoldBegin (s : State) : Host.Outcome State Fault Refusal :=
  .next (match s.pnl.hold with
    | some w => if w.phase = .record ∧ !(s.ledgerReq.any (fun r => decide (r.cls = 0x10))) then s.setPnl { s.pnl with hold := some { w with phase := .begin } } else s
    | none => s)

/-- R250. A tile has failed in this attempt. -/
def State.holdFailTile (s : State) (t : Nat) : State :=
  (((s.put (R.PNL_TSTAT_HOLD_FAIL t) 1).bump (R.PNL_CNT_COUNT t 3)).log 14 0 t 3 2 0).raise Irq.PNL_HOLD_FAIL

/-- R250. The attempt is decided: failed tiles are tried again up to RETRY times, each time with a new G. -/
def State.holdDecide (s : State) (w : HoldWr) : State :=
  let ok := (tilesIn w.mask).filter (fun t => w.acks.any (fun a => decide (a.1 = t) && a.2))
  let bad := (tilesIn w.mask).filter (fun t => !(ok.contains t))
  let s := ok.foldl (fun s t => s.bump (R.PNL_CNT_COUNT t 2)) s
  let s := bad.foldl (fun s t => s.holdFailTile t) s
  let w := { w with good := w.good ++ ok.map (fun t => (t, w.gen, (tabGet w.sigs t).getD 0)) }
  if bad = [] then s.holdFinish w false
  else if w.tries < s.get R.PNL_HCTL_RETRY then
    s.holdAttempt { w with gen := (w.gen + 1) % 2 ^ 32, mask := (bad.map (2 ^ ·)).sum, tries := w.tries + 1 }
  else s.holdFinish w true

/-- R250. HOLD blocks cut into F: END is not sent, and every tile of the attempt has failed. -/
def State.holdCut (s : State) : State :=
  match s.pnl.hold with
  | some w => if w.phase = .scanning then s.holdDecide w else s
  | none => s

/-- R250. ACK_TMO expires. -/
def execHoldAckTimeout (s : State) : Host.Outcome State Fault Refusal :=
  .next (match s.pnl.hold with
    | some w => if w.phase = .acks then s.holdDecide w else s
    | none => s)

/-- R248 steps 2 and 3. At the start of blanking BEGIN goes out, or, after F, END. -/
def State.holdBlank (s : State) : State :=
  match s.pnl.hold with
  | some w =>
    if w.phase = .begin then
      (tilesIn w.mask).foldl (fun s t => s.queueBlock t (holdWriteBlock 1 w.gen)) (s.setPnl { s.pnl with hold := some { w with phase := .frame } })
    else if w.phase = .scanning then
      let sigs := (tilesIn w.mask).map (fun t => (t, s.get (R.SCO_SIG_SIG t)))
      (tilesIn w.mask).foldl (fun s t => s.queueBlock t (holdWriteBlock 2 w.gen)) (s.setPnl { s.pnl with hold := some { w with phase := .acks, sigs := sigs } })
    else s
  | none => s

/-- R248 step 2. The frame that starts after BEGIN is the hold frame. -/
def State.holdFrame (s : State) : State :=
  match s.pnl.hold with
  | some w => if w.phase = .frame then s.setPnl { s.pnl with hold := some { w with phase := .scanning } } else s
  | none => s

/-- R248. Is every line sent to the tile in this frame because it is a hold frame, and is the next frame one? -/
def State.inHoldFrame (s : State) (t : Nat) : Bool :=
  match s.pnl.hold with
  | some w => (w.phase == .scanning) && bitAt w.mask t
  | none => false
/-- R248. Is the next frame the tile's hold frame? -/
def State.holdFrameNext (s : State) (t : Nat) : Bool :=
  match s.pnl.hold with
  | some w => (w.phase == .begin || w.phase == .frame) && bitAt w.mask t
  | none => false

/-! ### The start-up report (R251) -/

/-- R251. In the first blanking every hold-capable tile is asked for its hold report. -/
def State.askReports (s : State) : State :=
  if s.pnl.asked then s
  else
    let ts := s.tilesOn.filter (fun t => s.on (R.PNL_TSTAT_HOLD_CAP t))
    ts.foldl (fun s t => s.queueBlock t (statusReqBlock 2 0)) (s.setPnl { s.pnl with asked := true, report := ts })

/-- R251. The outcome of a tile's report: 0 NONE, 1 MATCH, 2 AHEAD, 3 TORN. -/
def State.reportOutcome (s : State) (t result crc gen : Nat) : Nat :=
  if result = 0 then
    if s.pnl.entries.any (fun e => decide (e.1 = t) && decide (e.2.1 % 256 = gen) && decide (e.2.2 = crc)) then 1 else 2
  else if result = 1 then 3 else 0

/-- R251. The outcome is shown; TORN is counted, logged, recorded and raised. -/
def State.setReport (s : State) (t o : Nat) : State :=
  let s := (s.setPnl { s.pnl with report := s.pnl.report.erase t }).put (R.PNL_TSTAT_START t) o
  if o = 3 then (((s.bump (R.PNL_CNT_COUNT t 6)).log 14 0 t 6 2 0).ledgerAsk 0x12 [t]).raise Irq.PNL_TORN else s

/-- R229, R250, R251, R253. HOLD_ACK: the answer to END, or to the request for a report. -/
def execHoldAck (tile : Nat) (d : BitVec 48) (s : State) : Host.Outcome State Fault Refusal :=
  .next (
    if !s.on (R.WYL_PSTAT_BC_LOCK tile) then s
    else
      let result := msgBits d 8 8
      let crc := msgBits d 16 32
      let gen := msgBits d 48 8
      let s := s.put (R.PNL_HCRC_CRC tile) crc
      let x := s.port tile
      let asked := x.asked.find? (fun a => decide (a / 256 = 2))
      let s := match asked with
        | some a => (s.setPort tile { x with asked := x.asked.erase a }).putResponse tile (msgPayload 4 d)
        | none => s
      if s.pnl.report.contains tile && asked.isSome then s.setReport tile (s.reportOutcome tile result crc gen)
      else match s.pnl.hold with
        | some w =>
          if w.phase = .acks ∧ bitAt w.mask tile ∧ !(w.acks.any (fun a => decide (a.1 = tile))) ∧ asked.isNone then
            let ok := decide (result = 0) && decide (gen = w.gen % 256) && decide (some crc = tabGet w.sigs tile)
            let w := { w with acks := w.acks ++ [(tile, ok)] }
            if w.acks.length = (tilesIn w.mask).length then s.holdDecide w else s.setPnl { s.pnl with hold := some w }
          else s
        | none => s)

/-- R251. No HOLD_ACK arrives in time after the request: START is NONE. -/
def execHoldReportTimeout (tile : Nat) (s : State) : Host.Outcome State Fault Refusal :=
  .next (if s.pnl.report.contains tile then s.setReport tile 0 else s)

end Sys2Proof.Machine
end

