-- ==== Sys2Proof/Machine/Jxs.lean ====
section
/-! DEFINITION. The JPEG XS subset (R50–R52, R55, R72): the walk over a codestream's markers and slices, what first touch judges
of it, and the slices that a strip decodes. Marker codes stand in R51; the lengths of segments, the places of their items, the
precinct headers and the profile codes are those of the ISO/IEC 21122 parts the spec names (assumption 9). -/
namespace Sys2Proof.Machine

/-- A 16-bit big-endian field of a codestream. -/
def be16 (bs : List Byte) (o : Nat) : Nat := (bs.getD o 0).toNat * 256 + (bs.getD (o + 1) 0).toNat

/-! ### The items of PIH -/

/-- The body of a PIH segment, after its length field. -/
abbrev Pih := List Byte

/-- Lcod. -/
def Pih.lcod (p : Pih) : Nat := be16 p 0 * 65536 + be16 p 2
/-- Ppih. -/
def Pih.profile (p : Pih) : Nat := be16 p 4
/-- Wf. -/
def Pih.width (p : Pih) : Nat := be16 p 8
/-- Hf. -/
def Pih.height (p : Pih) : Nat := be16 p 10
/-- Cw. -/
def Pih.cw (p : Pih) : Nat := be16 p 12
/-- Hsl. -/
def Pih.hsl (p : Pih) : Nat := be16 p 14
/-- Nc. -/
def Pih.nc (p : Pih) : Nat := (p.getD 16 0).toNat
/-- Cpih. -/
def Pih.cpih (p : Pih) : Nat := (p.getD 21 0).toNat % 16
/-- NLx. -/
def Pih.nlx (p : Pih) : Nat := (p.getD 22 0).toNat / 16
/-- NLy. -/
def Pih.nly (p : Pih) : Nat := (p.getD 22 0).toNat % 16
/-- The wavelet bands of all components. -/
def Pih.bands (p : Pih) : Nat := p.nc * (2 * min p.nlx p.nly + max p.nlx p.nly + 1)
/-- The rows of texels of a precinct. -/
def Pih.rowsPer (p : Pih) : Nat := 2 ^ p.nly
/-- The rows of precincts of the image. -/
def Pih.precinctRows (p : Pih) : Nat := ceilDiv p.height p.rowsPer
/-- The precincts in a row of them: Cw is the width of a precinct in units of 8 × 2^NLx texels, 0 the whole image. -/
def Pih.perRow (p : Pih) : Nat := if p.cw = 0 then 1 else ceilDiv p.width (8 * p.cw * 2 ^ p.nlx)
/-- R51. The number of slices that Hf and Hsl give. -/
def Pih.sliceCount (p : Pih) : Nat := ceilDiv p.precinctRows p.hsl

/-! ### The walk -/

/-- R72. What the walk over a codestream finds: the marker segments, the slices (number of the SLH, first byte, end), a marker that
R51 does not allow, a break of the syntax, and the byte after EOC. -/
structure JxsScan where
  segs : List (Nat × List Byte)
  slices : List (Nat × Nat × Nat)
  unsup : Bool
  bad : Bool
  ended : Option Nat
  deriving DecidableEq, Repr

/-- The bodies of the segments of a marker. -/
def JxsScan.of (j : JxsScan) (m : Nat) : List (List Byte) := (j.segs.filter (fun x => decide (x.1 = m))).map (·.2)

/-- The end of `n` precincts that begin at `o`: a header of five bytes, whose first three are the length of the data, two bits a
band, and the data. -/
def precinctsEnd (bs : List Byte) (bands : Nat) : Nat → Nat → Option Nat
  | 0, o => some o
  | n + 1, o =>
    let e := o + 5 + ceilDiv bands 4 + ((bs.getD o 0).toNat * 65536 + be16 bs (o + 1))
    if bs.length < e then none else precinctsEnd bs bands n e

/-- The precincts of the slice that begins after `done` slices. -/
def Pih.slicePrecincts (p : Pih) (done : Nat) : Nat := p.perRow * min p.hsl (p.precinctRows - done * p.hsl)

/-- R51, R72. The walk from byte `o`, after SOC. It stops at EOC, at a marker outside R51 (the tile is then UNSUP whatever follows)
and where the syntax breaks. Two bytes below 0xFF00 where a marker is due are no marker: a break of the syntax, since R51's
unsupported markers are markers (DEDUCED, assumption 9). -/
def jxsWalk (bs : List Byte) : Nat → Nat → JxsScan → JxsScan
  | 0, _, j => { j with bad := true }
  | n + 1, o, j =>
    let m := be16 bs o
    if bs.length < o + 2 ∨ m < 0xFF00 then { j with bad := true }
    else if m = 0xFF11 then { j with ended := some (o + 2) }
    else if m = 0xFF20 then
      (match j.of 0xFF12 with
       | p :: _ =>
         let k := Pih.slicePrecincts p j.slices.length
         if be16 bs (o + 2) ≠ 4 ∨ bs.length < o + 6 ∨ k = 0 then { j with bad := true }
         else (match precinctsEnd bs (Pih.bands p) k (o + 6) with
           | none => { j with bad := true }
           | some e => jxsWalk bs n e { j with slices := j.slices ++ [(be16 bs (o + 4), o + 6, e)] })
       | [] => { j with bad := true })
    else if ([0xFF12, 0xFF13, 0xFF14, 0xFF15, 0xFF50].contains m) = false then { j with unsup := true }
    else
      let l := be16 bs (o + 2)
      let j' := { j with segs := j.segs ++ [(m, (bs.drop (o + 4)).take (l - 2))] }
      if l < 2 ∨ bs.length < o + 2 + l then { j' with bad := true } else jxsWalk bs n (o + 2 + l) j'

/-- R51. The walk over a whole codestream: SOC is required first. -/
def jxsScan (bs : List Byte) : JxsScan :=
  if be16 bs 0 = 0xFF10 then jxsWalk bs (bs.length + 1) 2 ⟨[], [], false, false, none⟩ else ⟨[], [], true, false, none⟩

/-! ### What first touch judges -/

/-- R50. The PIH items of a segment of the right length. The profile codes are those of ISO/IEC 21122-2 as the model presumes them
(assumption 9). What Cw and Hsl the profile permits that part says; an Hsl of 0 gives no slices and no profile permits it (DEDUCED,
assumption 9). -/
def pihOk (p : Pih) (w h : Nat) : Bool :=
  [0x3A40, 0x4A40, 0x4E40].contains p.profile && decide (p.width = w) && decide (p.height = h) &&
  (decide (p.nc = 3) || (decide (p.nc = 4) && decide (p.profile = 0x4E40))) && decide (p.cpih < 2) &&
  decide (1 ≤ p.nlx) && decide (p.nlx ≤ 5) && decide (p.nly ≤ 2) &&
  decide (1 ≤ p.hsl) && Config.jxsProfilePermits p.profile p.cw p.hsl

/-- R50. The CDT items: every component has 10 bits and no subsampling. -/
def cdtOk (nc : Nat) (c : List Byte) : Bool :=
  (List.range nc).all (fun i => decide ((c.getD (2 * i) 0).toNat = 10) && decide ((c.getD (2 * i + 1) 0).toNat = 0x11))

/-- R50, R51, R57. Is the tile UNSUP: a marker outside R51, one of PIH, CDT, WGT and CAP missing or repeated, a capability bit, or an
item of R50? A segment of a wrong length is a break of the syntax (R52) and its items are not judged. -/
def JxsScan.isUnsup (j : JxsScan) (w h : Nat) : Bool :=
  j.unsup ||
  (match j.of 0xFF12, j.of 0xFF13, j.of 0xFF14, j.of 0xFF50 with
   | [p], [c], [_], [cap] =>
     cap.any (· ≠ 0) ||
     (decide (p.length = 24) && (!pihOk p w h || (decide (c.length = 2 * Pih.nc p) && !cdtOk (Pih.nc p) c)))
   | _, _, _, _ => true)

/-- R50–R52, R57. Is the codestream sound: no break of the syntax, segments of the right lengths, Lcod equal to LENGTH, EOC as its last
two bytes, and one SLH for each slice in order? -/
def JxsScan.sound (j : JxsScan) (len : Nat) : Bool :=
  !j.bad && decide (j.ended = some len) &&
  (match j.of 0xFF12, j.of 0xFF13, j.of 0xFF14 with
   | p :: _, c :: _, g :: _ =>
     decide (p.length = 24) && decide (c.length = 2 * Pih.nc p) && decide (g.length = 2 * Pih.bands p) &&
     decide (Pih.lcod p = len) && decide (j.slices.map (·.1) = List.range (Pih.sliceCount p))
   | _, _, _ => false)

/-- R50, R51, R55, R57, R72. What first touch judges of a JXS tile: the reason code, none where the tile passes. UNSUP is judged
before CORRUPT. -/
def jxsCheck (bs : List Byte) (w h : Nat) : Option Nat :=
  let j := jxsScan bs
  if j.isUnsup w h then some 1 else if j.sound bs.length then none else some 2

/-! ### Strips -/

/-- R52. A texel word of decoded components, clamped; A is 1,023 without a fourth. -/
def texelOf (c : List Int) : Nat :=
  let v := fun i => (clampI 0 1023 (c.getD i 1023)).toNat
  v 2 + v 1 * 2 ^ 10 + v 0 * 2 ^ 20 + (if 4 ≤ c.length then v 3 else 1023) * 2 ^ 30

/-- R72. Does slice `t` overlap the rows [lo, hi)? -/
def Pih.overlaps (p : Pih) (t lo hi : Nat) : Bool :=
  decide (t * (p.hsl * p.rowsPer) < hi) && decide (lo < (t + 1) * (p.hsl * p.rowsPer))

/-- R52, R72. The bytes of the rows [lo, hi) of a JXS tile: every slice that overlaps them is decoded, and its rows outside them are
discarded. None where one of those slices breaks its syntax. -/
def jxsStrip (bs : List Byte) (w lo hi : Nat) : Option (List Byte) :=
  let j := jxsScan bs
  match j.of 0xFF12 with
  | [] => none
  | p :: _ =>
    let need := (List.range j.slices.length).filter (fun t => Pih.overlaps p t lo hi)
    if j.bad ∨ need = [] ∨ need.any (fun t =>
        let sl := j.slices.getD t (0, 0, 0)
        !Config.jxsSliceOk p ((bs.drop sl.2.1).take (sl.2.2 - sl.2.1))) then none
    else some ((List.range (hi - lo)).flatMap (fun i =>
      let row := Config.jxsRow bs (lo + i)
      (List.range w).flatMap (fun x => leBytes 5 (texelOf (row.getD x [])))))

end Sys2Proof.Machine
end

