-- ==== Sys2Proof/Machine/Caddy.lean ====
section
/-! DEFINITION. Caddy and the tile decoder (R67–R74): resolved entries, invalid tiles, lines and fills, the checks of first
touch, and strips. -/
namespace Sys2Proof.Machine

/-! ### Resolved entries (R67) -/

/-- R67. A resolved directory entry. -/
structure ResEntry where
  code : Nat
  len : Nat
  addr : Nat
  pcrc : Nat
  seq : Nat
  index : Nat
  inv : Nat
  seen : Nat
  deriving DecidableEq, Repr

/-- R67. The entry that 32 bytes hold. -/
def ResEntry.ofBytes (bs : List Byte) : ResEntry :=
  { code := leAt bs 0 4 % 4, len := leAt bs 0 4 / 256, addr := leAt bs 4 8, pcrc := leAt bs 12 4, seq := leAt bs 16 4,
    index := leAt bs 20 4 % 2 ^ 22, inv := leAt bs 24 2 % 16, seen := leAt bs 26 2 }

/-- R67. The 32 bytes of an entry. -/
def ResEntry.bytes (e : ResEntry) : List Byte :=
  leBytes 4 (e.code + 256 * e.len) ++ leBytes 8 e.addr ++ leBytes 4 e.pcrc ++ leBytes 4 e.seq ++ leBytes 4 e.index ++
  leBytes 2 e.inv ++ leBytes 2 e.seen ++ zeros 4

/-- Write a few bytes of a resolved entry; a write that fails leaves it as it is. -/
def State.entryPut (s : State) (ctx va : Nat) (bs : List Byte) : State :=
  match s.vwrite ctx va bs with
  | .ok s' => s'
  | .error _ => s

/-- R57, R68. A hamlet counts the tile of an invalid entry once: its SEEN bit, the counter, the interrupt and the error log. -/
def State.countInvalid (s : State) (h ctx va : Nat) : State :=
  match s.vread ctx va .read 32 with
  | .error _ => s
  | .ok bs =>
    let e := ResEntry.ofBytes bs
    if e.inv = 0 ∨ bitAt e.seen h then s
    else
      let s := s.entryPut ctx (va + 0x1A) (leBytes 2 (setBits e.seen h 1 1))
      let s := (s.bump (R.SYN_HCNT_COUNT h (8 + e.inv % 8))).raise Irq.SYN_INVALID
      s.log 8 0 h (8 + e.inv % 8) 2 va

/-- R68. A hamlet finds the tile of an entry invalid: the first reason stands. -/
def State.markInvalid (s : State) (h ctx va reason : Nat) : State :=
  match s.vread ctx va .read 32 with
  | .error _ => s
  | .ok bs =>
    let e := ResEntry.ofBytes bs
    (if e.inv = 0 then s.entryPut ctx (va + 0x18) (leBytes 2 reason) else s).countInvalid h ctx va

/-! ### Lines (R69–R71) -/

/-- What an untouched Caddy slice holds. -/
def caddyDefault (_ : Nat) : CaddySt := ⟨[], [], [], 0, []⟩
/-- A hamlet's Caddy slice. -/
def State.caddy (s : State) (h : Nat) : CaddySt := mapGet caddyDefault s.syn.caddy h
/-- Replace a hamlet's Caddy slice. -/
def State.setCaddy (s : State) (h : Nat) (c : CaddySt) : State :=
  { s with syn := { s.syn with caddy := mapPut caddyDefault s.syn.caddy h c } }

/-- The payload that a line belongs to, if it is of a tile. -/
def LineTag.payload : LineTag → Option (Nat × Nat × Nat)
  | .tex a b c _ => some (a, b, c)
  | .dep a b c _ => some (a, b, c)
  | .cam _ _ _ _ => none

/-- Is the line of the stream slot? -/
def LineTag.ofSlot (n : Nat) : LineTag → Bool
  | .tex a _ _ _ => decide (a = n)
  | .dep a _ _ _ => decide (a = n)
  | .cam _ _ _ _ => false

/-- R72. Drop the indexes of payloads that no valid line or fill covers any more. -/
def CaddySt.prune (c : CaddySt) : CaddySt :=
  { c with indexed := c.indexed.filter (fun p =>
      c.lines.any (fun l => decide (l.tag.payload = some p)) || c.fills.any (fun f => decide (f.tag.payload = some p))) }

/-- R69. The line with a tag. -/
def CaddySt.find (c : CaddySt) (t : LineTag) : Option CLine := c.lines.find? (fun l => decide (l.tag = t))

/-- A use of a line. -/
def CaddySt.touch (c : CaddySt) (t : LineTag) : CaddySt :=
  { c with stamp := c.stamp + 1, lines := c.lines.map (fun l => if l.tag = t then { l with used := c.stamp + 1 } else l) }

/-- R70. The least recently used line of a list among those that `held` does not hold. -/
def lruLine (held : LineTag → Bool) (ls : List CLine) : Option LineTag :=
  (ls.foldl (fun (b : Option CLine) l =>
    if held l.tag then b
    else match b with
      | none => some l
      | some x => if l.used < x.used then some l else b) none).map (·.tag)

/-- R69. Put a line beside the lines that are kept. -/
def CaddySt.install (c : CaddySt) (keep : List CLine) (t : LineTag) (data : List Byte) : CaddySt :=
  { c with stamp := c.stamp + 1, lines := keep ++ [⟨t, data, c.stamp + 1⟩] }

/-- The keys of the engine threads of a hamlet. -/
def hamletKeys (h : Nat) : List Nat := (List.range 64).map (fun i => h * 64 + i)

/-- R70. Do unfinished SWEEP or SAMPLE steps of these threads hold the line pinned? -/
def State.pinnedBy (s : State) (keys : List Nat) (t : LineTag) : Bool :=
  keys.any (fun k => (s.thr k).got.any (fun g => decide (g.1 = t)))

/-- R70. The oldest waiting request of a hamlet: the thread that began to wait first. -/
def State.oldestWaiter (s : State) (h : Nat) : Option Nat := (s.caddy h).waiters.find? (fun k => (s.thr k).wait == .caddy)

/-- R70. A thread begins to wait; one that waits again within the same instruction keeps its place. -/
def CaddySt.enqueue (c : CaddySt) (k : Nat) (again : Bool) : CaddySt :=
  if again && c.waiters.contains k then c else { c with waiters := c.waiters.filter (· ≠ k) ++ [k] }

/-- R70. The lines that stay when a fill of the line completes, in a store of 200. A fill replaces the least recently used unpinned
line. Sixteen lines are the oldest waiting request's: the other threads pin at most 184, and a fill of theirs that finds no line to
replace is given up (none). A fill for the oldest request always has a line: where every line is pinned, the lanes it has served
give up the least recently used of its own lines (their group is done), and after those one that it shares with others
(assumption 78). -/
def State.fillKeep (s : State) (h : Nat) (t : LineTag) : Option (List CLine) :=
  let keep := (s.caddy h).lines.filter (fun l => decide (l.tag ≠ t))
  let old := s.oldestWaiter h
  let serves := match old with
    | some k => (s.thr k).want.contains t
    | none => false
  let others := s.pinnedBy ((hamletKeys h).filter (fun k => decide (some k ≠ old)))
  let drop := fun (v : LineTag) => keep.filter (fun l => decide (l.tag ≠ v))
  if !serves && decide (184 ≤ (keep.filter (fun l => others l.tag)).length) then none
  else if keep.length < 200 then some keep
  else match lruLine (s.pinnedBy (hamletKeys h)) keep with
    | some v => some (drop v)
    | none => if serves then (match lruLine others keep with
        | some v => some (drop v)
        | none => (lruLine (fun _ => false) keep).map drop)
      else none

/-- R70. A fill completes: threads that wait for the line have it, and a thread that waits for no further line goes on. No bytes
stand for a line that could not be had. -/
def State.deliverLine (s : State) (h : Nat) (t : LineTag) (data : List Byte) : State :=
  (hamletKeys h).foldl (fun s k =>
    let th := s.thr k
    if th.wait == .caddy then
      let th := if th.want.contains t then { th with got := th.got ++ [(t, data)], want := th.want.filter (fun x => decide (x ≠ t)) } else th
      s.setThr k (if th.want = [] then { th with wait := .none } else th)
    else s) s

/-- Remove the fill of a line. -/
def State.dropFill (s : State) (h : Nat) (t : LineTag) : State :=
  let c := s.caddy h
  s.setCaddy h { c with fills := c.fills.filter (fun f => decide (f.tag ≠ t)) }.prune

/-- R74. A check fails: the whole tile is invalid; the strips being filled and every valid line of the payload are dropped. -/
def State.tileInvalid (s : State) (h ctx va reason : Nat) (pay : Option (Nat × Nat × Nat)) : State :=
  let s := s.markInvalid h ctx va reason
  let c := s.caddy h
  let gone := c.fills.filter (fun f => decide (f.tag.payload = pay))
  let s := s.setCaddy h { c with lines := c.lines.filter (fun l => decide (l.tag.payload ≠ pay)),
                                 fills := c.fills.filter (fun f => decide (f.tag.payload ≠ pay)) }.prune
  gone.foldl (fun s f => s.deliverLine h f.tag []) s

/-! ### First touch (R50, R51, R55, R72) -/

/-- R53. The raw length of a tile. -/
def rawLen (dep : Bool) (w h : Nat) : Nat := (if dep then 2 else 5) * w * h

/-- R72, R306. What first touch judges of a KPK tile: the chunk headers and the total length. -/
def kpkCheck (bs : List Byte) (dep : Bool) (w h : Nat) : Option Nat :=
  match kpkIndex bs (bs.length + 1) 0 0 with
  | .error _ => some 2
  | .ok cs => if (cs.map (fun c => c.2.olen)).sum = rawLen dep w h then none else some 2

/-- Is the fill of a depth tile? -/
def LineTag.isDep : LineTag → Bool
  | .dep _ _ _ _ => true
  | _ => false

/-- The bytes of a payload (R67). -/
def State.payload (s : State) (ctx : Nat) (e : ResEntry) : Except AccErr (List Byte) := s.vread ctx (e.addr % 2 ^ 48) .read e.len

/-- Does the stream in the slot carry payload CRCs? -/
def State.slotCrc (s : State) (slot : Nat) : Bool :=
  match tabGet s.syn.streams slot with
  | some st => st.crc
  | none => false

/-- R355, R357. A failed read of the tile decoder or sampler is reported with its unit number. -/
def State.decodeFail (s : State) (h unit item ctx va : Nat) (e : AccErr) : State :=
  s.accFail (0x20 + h) (unit + 4 * item) ctx va .read 5 e

/-- R55, R72. First touch of the payload of a fill: FAULT, then CRC, then UNSUP and CORRUPT; where it passes, its index is held. -/
def State.firstTouch (s : State) (h : Nat) (f : CFill) (slot seq index : Nat) : State :=
  let pay := some (slot, seq, index)
  match s.vread f.ctx f.src .read 32 with
  | .error e => (s.decodeFail h 0 0 f.ctx f.src e).tileInvalid h f.ctx f.src 7 pay
  | .ok eb =>
    let e := ResEntry.ofBytes eb
    match s.payload f.ctx e with
    | .error err => (s.decodeFail h 0 0 f.ctx (e.addr % 2 ^ 48) err).tileInvalid h f.ctx f.src 7 pay
    | .ok bs =>
      if s.slotCrc slot && decide (crc32c bs ≠ e.pcrc) then s.tileInvalid h f.ctx f.src 3 pay
      else match (if e.code = 0 then jxsCheck bs f.width f.height else kpkCheck bs f.tag.isDep f.width f.height) with
        | some r => s.tileInvalid h f.ctx f.src r pay
        | none =>
          let c := s.caddy h
          s.setCaddy h { c with indexed := c.indexed ++ [(slot, seq, index)] }

/-- R72. The read of a whole payload at a hamlet's first touch completes, for the oldest fill whose payload has no index. -/
def execFirstTouch (hamlet : Nat) (s : State) : Host.Outcome State Fault Refusal :=
  let c := s.caddy hamlet
  .next (match c.fills.find? (fun f => match f.tag.payload with
      | some p => !c.indexed.contains p
      | none => false) with
    | none => s
    | some f => match f.tag.payload with
      | some (a, b, i) => s.firstTouch hamlet f a b i
      | none => s)

/-! ### Strips (R52, R53, R72, R74) -/

/-- R72. The original bytes [lo, hi) of a KPK payload from every chunk that holds some of them, each checked. -/
def kpkRange (bs : List Byte) (cs : List (Nat × ChunkHdr)) (lo hi : Nat) : Except Nat (List Byte) :=
  cs.foldl (fun (r : Except Nat (List Byte)) c =>
    match r with
    | .error e => .error e
    | .ok out =>
      let base := c.2.index * 65536
      if hi ≤ base ∨ base + c.2.olen ≤ lo then .ok out
      else match chunkBytes c.2 ((bs.drop c.1).take c.2.clen) with
        | .error e => .error e
        | .ok o => .ok (out ++ (o.drop (lo - base)).take (hi - max lo base))) (.ok [])

/-- R306. The reason code of a chunk's STATUS: CRC, else CORRUPT. -/
def kpkReason (st : Nat) : Nat := if st = 0x24 then 3 else 2

/-- R72, R74. The bytes of a strip of a tile, or the reason code. -/
def stripBytes (e : ResEntry) (bs : List Byte) (dep : Bool) (w h strip : Nat) : Except Nat (List Byte) :=
  let rows := min 16 (h - 16 * strip)
  let unit := if dep then 2 else 5
  if e.code = 0 then
    (match jxsStrip bs w (16 * strip) (16 * strip + rows) with
     | none => .error 2
     | some o => .ok o)
  else match kpkIndex bs (bs.length + 1) 0 0 with
    | .error _ => .error 2
    | .ok cs => match kpkRange bs cs (unit * w * 16 * strip) (unit * w * (16 * strip + rows)) with
      | .error st => .error (kpkReason st)
      | .ok o => if o.length = unit * w * rows then .ok o else .error 2

/-- The strip number of a tile line. -/
def LineTag.strip : LineTag → Nat
  | .tex _ _ _ k => k
  | .dep _ _ _ k => k
  | .cam _ _ r _ => r

/-- R69. The bytes of a camera strip: its rows, each fetched without decoding. -/
def State.camStrip (s : State) (f : CFill) : Nat → Nat → Except (Nat × AccErr) (List Byte)
  | 0, _ => .ok []
  | n + 1, va =>
    match s.vread f.ctx va .read f.width with
    | .error e => .error (va, e)
    | .ok row => match s.camStrip f n (va + f.pitch) with
      | .error e => .error e
      | .ok rows => .ok (row ++ rows)

/-- R70. A fill that finds no line is given up: the threads that wanted the line ask again. -/
def State.giveUpFill (s : State) (h : Nat) (t : LineTag) : State :=
  (hamletKeys h).foldl (fun s k =>
    let th := s.thr k
    let want := th.want.filter (fun x => decide (x ≠ t))
    if th.wait == .caddy then s.setThr k { th with want := want, wait := if want = [] then .none else .caddy } else s) (s.dropFill h t)

/-- R70, R72. A strip is complete: where the slice has a line for it, the line is filled, a decoded strip counts, and the threads
waiting on it go on. -/
def State.fillLine (s : State) (h : Nat) (t : LineTag) (decoded : Bool) (data : List Byte) : State :=
  match s.fillKeep h t with
  | none => s.giveUpFill h t
  | some keep =>
    let s := s.dropFill h t
    let s := s.setCaddy h ((s.caddy h).install keep t data).prune
    let s := s.deliverLine h t data
    if decoded then s.bump (R.SYN_HCNT_COUNT h 3) else s

/-- R57, R74. The completion of a fill. -/
def State.stripDecoded (s : State) (h : Nat) (f : CFill) : State :=
  match f.tag with
  | .cam _ _ _ _ =>
    (match s.camStrip f f.height f.src with
     | .ok data => s.fillLine h f.tag false data
     | .error (va, e) => ((s.decodeFail h 1 0 f.ctx va e).dropFill h f.tag).deliverLine h f.tag [])
  | _ =>
    match s.vread f.ctx f.src .read 32 with
    | .error e => (s.decodeFail h 0 0 f.ctx f.src e).tileInvalid h f.ctx f.src 7 f.tag.payload
    | .ok eb =>
      let e := ResEntry.ofBytes eb
      match s.payload f.ctx e with
      | .error err => (s.decodeFail h 0 0 f.ctx (e.addr % 2 ^ 48) err).tileInvalid h f.ctx f.src 7 f.tag.payload
      | .ok bs => match stripBytes e bs f.tag.isDep f.width f.height f.tag.strip with
        | .error r => s.tileInvalid h f.ctx f.src r f.tag.payload
        | .ok data => s.fillLine h f.tag true data

/-- R72, R74. The tile decoder completes the `i`-th outstanding fill of a hamlet; a tile's payload must have had its first touch. -/
def execStripDecoded (hamlet i : Nat) (s : State) : Host.Outcome State Fault Refusal :=
  let c := s.caddy hamlet
  .next (match c.fills[i]? with
    | none => s
    | some f => match f.tag.payload with
      | some p => if c.indexed.contains p then s.stripDecoded hamlet f else s
      | none => s.stripDecoded hamlet f)

/-! ### Invalidation (R71) -/

/-- R71. An invalidation waits until the outstanding fills of its scope complete. -/
def State.invalidate (s : State) (x : Option Nat) : State :=
  ({ s with syn := { s.syn with invs := s.syn.invs ++ [x] } }).put R.SYN_STAT_INV_BUSY 1

/-- R71. A write of 1 to SYN_CADDY_INV.ALL. -/
def execCaddyInvAll (s : State) : Host.Outcome State Fault Refusal := .next (s.invalidate none)

/-- R71. A write of 1 to SYN_CADDY_INV.STREAM with a SLOT. -/
def execCaddyInvStream (slot : Nat) (s : State) : Host.Outcome State Fault Refusal :=
  .next ((s.put R.SYN_CADDY_INV_SLOT slot).invalidate (some slot))

/-- R69, R71. Drop every line, or those of a slot, in every hamlet. -/
def State.dropLines (s : State) (x : Option Nat) : State :=
  foldRange 16 (fun s h =>
    let c := s.caddy h
    s.setCaddy h { c with lines := match x with
      | none => []
      | some n => c.lines.filter (fun l => !l.tag.ofSlot n) }.prune) s

/-- Has the scope of an invalidation no outstanding fill? -/
def State.fillsDone (s : State) (x : Option Nat) : Bool :=
  (List.range 16).all (fun h => (s.caddy h).fills.all (fun f => match x with
    | none => false
    | some n => !f.tag.ofSlot n))

/-- R71. The oldest invalidation completes once outstanding fills have; INV_BUSY clears with the last. -/
def execCaddyInvComplete (s : State) : Host.Outcome State Fault Refusal :=
  .next (match s.syn.invs with
    | [] => s
    | x :: rest =>
      if s.fillsDone x then
        let s := s.dropLines x
        ({ s with syn := { s.syn with invs := rest } }).put R.SYN_STAT_INV_BUSY (b2n (decide (rest ≠ [])))
      else s)

end Sys2Proof.Machine
end

