-- ==== Sys2Proof/Machine/Sampler.lean ====
section
/-! DEFINITION. The layer sampler (R37–R43, R55, R56, R70, R75–R81): planes and texels, bilinear and trilinear filters, height
fields, camera images, and the instructions SWEEP, SAMPLE and DHINT (R156–R160). -/
namespace Sys2Proof.Machine

/-! ### The plane list (R35, R156) -/

/-- R35. A plane descriptor; binary32 fields as their words. -/
structure PlaneDesc where
  id : Nat
  kind : Nat
  premul : Bool
  width : Nat
  height : Nat
  levels : Nat
  dshift : Nat
  texIndex : Nat
  z : Nat
  xl : Nat
  yt : Nat
  tx : Nat
  ty : Nat
  dz : Nat
  ntex : Nat
  depthIndex : Nat
  ndepth : Nat
  deriving DecidableEq, Repr

/-- R35. The descriptor that 64 bytes hold. -/
def PlaneDesc.ofBytes (b : List Byte) : PlaneDesc :=
  { id := leAt b 0 2, kind := leAt b 2 1, premul := bitAt (leAt b 3 1) 0, width := leAt b 4 2, height := leAt b 6 2,
    levels := leAt b 8 1, dshift := leAt b 9 1, texIndex := leAt b 12 4, z := leAt b 16 4, xl := leAt b 20 4, yt := leAt b 24 4,
    tx := leAt b 28 4, ty := leAt b 32 4, dz := leAt b 36 4, ntex := leAt b 40 4, depthIndex := leAt b 44 4, ndepth := leAt b 48 4 }

/-- R41. Width of level `m`. -/
def PlaneDesc.w (p : PlaneDesc) (m : Nat) : Nat := ceilDiv p.width (2 ^ m)
/-- R41. Height of level `m`. -/
def PlaneDesc.h (p : PlaneDesc) (m : Nat) : Nat := ceilDiv p.height (2 ^ m)
/-- R41. Tiles of level `m`. -/
def PlaneDesc.tilesOf (p : PlaneDesc) (m : Nat) : Nat := ceilDiv (p.w m) 256 * ceilDiv (p.h m) 256
/-- R42. The directory index of tile (i, j) of level `m`. -/
def PlaneDesc.texEntry (p : PlaneDesc) (m i j : Nat) : Nat :=
  p.texIndex + ((List.range m).map p.tilesOf).sum + j * ceilDiv (p.w m) 256 + i
/-- R43. Width of the depth map. -/
def PlaneDesc.wd (p : PlaneDesc) : Nat := ceilDiv p.width (2 ^ p.dshift)
/-- R43. Height of the depth map. -/
def PlaneDesc.hd (p : PlaneDesc) : Nat := ceilDiv p.height (2 ^ p.dshift)

/-- Where a sampler instruction works: hamlet, thread, launch context, stream slot and its context, resolved directory, planes. -/
structure SampEnv where
  h : Nat
  key : Nat
  ctx : Nat
  slot : Nat
  sctx : Nat
  rdir : Nat
  planes : List PlaneDesc
  trilinear : Bool
  /-- The lines the instruction has obtained. -/
  got : List (LineTag × List Byte)
  deriving DecidableEq, Repr

/-- What an evaluation gathers: the state (invalid tiles are counted as they are met), the lines it lacks, and the lines it used. -/
structure Samp where
  s : State
  needs : List CFill
  used : List LineTag
  /-- The first failed read of the resolved directory. -/
  rerr : Option (Nat × AccErr)
  deriving DecidableEq, Repr

/-- The outcome of one read: a value, an invalid tile or a camera dropped, or a line that is not present. -/
inductive Got (α : Type) where
  | val (a : α)
  | bad
  | need
  deriving DecidableEq, Repr

/-! ### Lines and texels (R45, R47, R53, R69, R70) -/

/-- R69, R70. Read `n` bytes at `off` of a line, or note that it is needed. -/
def Samp.line (a : Samp) (e : SampEnv) (f : CFill) (off n : Nat) : Samp × Got Nat :=
  match e.got.find? (fun g => decide (g.1 = f.tag)) with
  | some (_, []) => (a, .bad)
  | some (_, bs) => (a, .val (leAt bs off n))
  | none => match (a.s.caddy e.h).find f.tag with
    | some l => ({ a with used := if a.used.contains f.tag then a.used else a.used ++ [f.tag] }, .val (leAt l.data off n))
    | none => ({ a with needs := if a.needs.any (fun x => decide (x.tag = f.tag)) then a.needs else a.needs ++ [f] }, .need)

/-- R45, R47, R67, R68. Texel or sample (x, y) of tile entry `idx`, whose tile is `tw` × `th`: position within the tile. -/
def Samp.tileWord (a : Samp) (e : SampEnv) (dep : Bool) (idx tw th x y : Nat) : Samp × Got Nat :=
  let va := (e.rdir + 32 * idx) % 2 ^ 48
  match a.s.vread e.sctx va .read 32 with
  | .error err => ({ a with rerr := match a.rerr with
      | none => some (va, err)
      | some r => some r }, .bad)
  | .ok bs =>
    let r := ResEntry.ofBytes bs
    if r.inv ≠ 0 then ({ a with s := a.s.countInvalid e.h e.sctx va }, .bad)
    else if 2 ≤ r.code then (a, .val r.addr)
    else
      let tag := if dep then LineTag.dep e.slot r.seq r.index (y / 16) else LineTag.tex e.slot r.seq r.index (y / 16)
      let unit := if dep then 2 else 5
      a.line e { tag := tag, ctx := e.sctx, src := va, width := tw, height := th, pitch := 0, hint := false } ((y % 16 * tw + x) * unit) unit

/-- A texel of level `m` at (x, y), as its 40-bit word (R42, R53). -/
def Samp.texel (a : Samp) (e : SampEnv) (p : PlaneDesc) (m x y : Nat) : Samp × Got Nat :=
  let i := x / 256
  let j := y / 256
  a.tileWord e false (p.texEntry m i j) (min 256 (p.w m - 256 * i)) (min 256 (p.h m - 256 * j)) (x % 256) (y % 256)

/-- R43, R53. A depth sample at (x, y). -/
def Samp.depth (a : Samp) (e : SampEnv) (p : PlaneDesc) (x y : Nat) : Samp × Got Nat :=
  let i := x / 256
  let j := y / 256
  a.tileWord e true (p.depthIndex + j * ceilDiv p.wd 256 + i) (min 256 (p.wd - 256 * i)) (min 256 (p.hd - 256 * j)) (x % 256) (y % 256)

/-- Four reads: a line that is not present stops the sample, else an invalid tile does. -/
def Samp.four (a : Samp) (rd : Samp → Nat → Nat → Samp × Got Nat) (x0 x1 y0 y1 : Nat) : Samp × Got (Nat × Nat × Nat × Nat) :=
  let r1 := rd a x0 y0
  let r2 := rd r1.1 x1 y0
  let r3 := rd r2.1 x0 y1
  let r4 := rd r3.1 x1 y1
  (r4.1, match r1.2, r2.2, r3.2, r4.2 with
    | .val p, .val q, .val r, .val t => .val (p, q, r, t)
    | .bad, _, _, _ => .bad
    | _, .bad, _, _ => .bad
    | _, _, .bad, _ => .bad
    | _, _, _, .bad => .bad
    | _, _, _, _ => .need)

/-! ### Filters (R76–R78) -/

/-- A binary32 integer. -/
def fi (n : Nat) : Nat := fofInt f32 .ne (n : Int)
/-- 1.0. -/
def one32 : Nat := 0x3F800000
/-- R78. One component of a bilinear sample. -/
def lerp4 (t00 t10 t01 t11 fx fy : Nat) : Nat :=
  let top := fadd f32 t00 (fmul f32 fx (fsub f32 t10 t00))
  let bot := fadd f32 t01 (fmul f32 fx (fsub f32 t11 t01))
  fadd f32 top (fmul f32 fy (fsub f32 bot top))

/-- An index clamped to [0, n − 1]. -/
def clampIdx (n : Nat) (i : Int) : Nat := (clampI 0 ((n : Int) - 1) i).toNat

/-- R78. The weight: the fractional part rounded down to a multiple of 1/256. -/
def weight256 (x : Nat) : Nat :=
  let q := ffloorInt (fmul f32 x 0x43800000)
  fround f32 .ne false (q % 256).toNat (-8) false

/-- R76, R78. The components R, G, B, A of a texel word as c / 1,023. -/
def texelF (w : Nat) : List Nat := [bitsOf w 20 10, bitsOf w 10 10, bitsOf w 0 10, bitsOf w 30 10].map (fun c => fdiv f32 (fi c) (fi 1023))

/-- Combine four texels component by component. -/
def lerpTexels (f : Nat → List Nat) (q : Nat × Nat × Nat × Nat) (fx fy : Nat) : List Nat :=
  (List.range 4).map (fun c => lerp4 ((f q.1).getD c 0) ((f q.2.1).getD c 0) ((f q.2.2.1).getD c 0) ((f q.2.2.2).getD c 0) fx fy)

/-- R78. The bilinear sample of level `m` at level-0 coordinates (u, v). -/
def Samp.bilinear (a : Samp) (e : SampEnv) (p : PlaneDesc) (m u v : Nat) : Samp × Got (List Nat) :=
  let x := fsub f32 (fdiv f32 (fmul f32 u (fi (p.w m))) (fi p.width)) 0x3F000000
  let y := fsub f32 (fdiv f32 (fmul f32 v (fi (p.h m))) (fi p.height)) 0x3F000000
  let ix := ffloorInt x
  let iy := ffloorInt y
  let r := a.four (fun a x y => a.texel e p m x y) (clampIdx (p.w m) ix) (clampIdx (p.w m) (ix + 1)) (clampIdx (p.h m) iy) (clampIdx (p.h m) (iy + 1))
  (r.1, match r.2 with
    | .val q => .val (lerpTexels texelF q (weight256 x) (weight256 y))
    | .bad => .bad
    | .need => .need)

/-- R55. The sample from the first valid level at or after `m`; transparent black where there is none. -/
def Samp.firstValid (e : SampEnv) (p : PlaneDesc) (u v : Nat) : Nat → Nat → Samp → Samp × Got (List Nat)
  | 0, _, a => (a, .val [0, 0, 0, 0])
  | n + 1, m, a =>
    if p.levels ≤ m then (a, .val [0, 0, 0, 0])
    else
      let r := a.bilinear e p m u v
      match r.2 with
      | .bad => Samp.firstValid e p u v n (m + 1) r.1
      | x => (r.1, x)

/-- The larger of two binary32 values. -/
def fbig (a b : Nat) : Nat := if flt f32 a b then b else a
/-- The smaller of two binary32 values. -/
def fsmall (a b : Nat) : Nat := if flt f32 b a then b else a

/-- R77. The level of detail of a hit at depth `zh` for the ray map of a tile; a free value where no ray map describes the tile
(assumption 24). -/
def State.lod (s : State) (tile : Nat) (p : PlaneDesc) (zh : Nat) : Nat :=
  let bias := fdiv f32 (fofInt f32 .ne (toInt 8 (s.get R.SYN_LOD_BIAS))) (fi 16)
  match s.syn.rmap.bind (fun m => tabGet m.tiles tile) with
  | none => Config.lodFree tile % 2 ^ 32
  | some h =>
    let a1 := fsqrt f32 (fadd f32 (fmul f32 h.a1x h.a1x) (fmul f32 h.a1y h.a1y))
    let f := fbig a1 (fdiv f32 (fmul f32 (fabs f32 zh) (fbig h.px h.py)) h.gap)
    fadd f32 (flog2Near (fdiv f32 f (fsmall p.tx p.ty))) bias

/-- R55, R77. The filtered sample of a plane's texture at (u, v) with level of detail `lam`; below 0 it reads level 0 alone (assumption 86). -/
def Samp.filtered (a : Samp) (e : SampEnv) (p : PlaneDesc) (lam u v : Nat) : Samp × Got (List Nat) :=
  let top : Int := (p.levels : Int) - 1
  if !e.trilinear then
    Samp.firstValid e p u v (p.levels + 1) (clampI 0 top (ffloorInt (fadd f32 lam 0x3F000000))).toNat a
  else
    let m0 := (clampI 0 top (ffloorInt lam)).toNat
    let m1 := min (m0 + 1) (p.levels - 1)
    if m0 = m1 ∨ flt f32 lam 0 then Samp.firstValid e p u v (p.levels + 1) m0 a
    else
      let r0 := a.bilinear e p m0 u v
      let r1 := r0.1.bilinear e p m1 u v
      match r0.2, r1.2 with
      | .val x, .val y =>
        let t := fsub f32 lam (fofInt f32 .ne (ffloorInt lam))
        (r1.1, .val ((List.range 4).map (fun c => fadd f32 (x.getD c 0) (fmul f32 t (fsub f32 (y.getD c 0) (x.getD c 0))))))
      | .bad, _ => Samp.firstValid e p u v (p.levels + 1) m0 r1.1
      | _, .bad => Samp.firstValid e p u v (p.levels + 1) m0 r1.1
      | _, _ => (r1.1, .need)

/-! ### Hits (R37, R38, R79) -/

/-- The ray of a lane. -/
structure LaneRay where
  ox : Nat
  oy : Nat
  sx : Nat
  sy : Nat
  tile : Nat
  deriving DecidableEq, Repr

/-- R37. Texture coordinates of the ray's point at depth `z`. -/
def uvAt (p : PlaneDesc) (r : LaneRay) (z : Nat) : Nat × Nat :=
  let hx := fadd f32 r.ox (fmul f32 z r.sx)
  let hy := fadd f32 r.oy (fmul f32 z r.sy)
  (fdiv f32 (fsub f32 hx p.xl) p.tx, fdiv f32 (fsub f32 p.yt hy) p.ty)

/-- R37. Do the coordinates lie over the plane? -/
def overPlane (p : PlaneDesc) (uv : Nat × Nat) : Bool :=
  fle f32 0 uv.1 && flt f32 uv.1 (fi p.width) && fle f32 0 uv.2 && flt f32 uv.2 (fi p.height)

/-- R38. D(u, v): the depth map interpolated at full binary32 precision; none where a sample lies in an invalid tile. -/
def Samp.surface (a : Samp) (e : SampEnv) (p : PlaneDesc) (uv : Nat × Nat) : Samp × Got Nat :=
  let sc := fi (2 ^ p.dshift)
  let x := fsub f32 (fdiv f32 uv.1 sc) 0x3F000000
  let y := fsub f32 (fdiv f32 uv.2 sc) 0x3F000000
  let ix := ffloorInt x
  let iy := ffloorInt y
  let r := a.four (fun a x y => a.depth e p x y) (clampIdx p.wd ix) (clampIdx p.wd (ix + 1)) (clampIdx p.hd iy) (clampIdx p.hd (iy + 1))
  let fx := fsub f32 x (fofInt f32 .ne ix)
  let fy := fsub f32 y (fofInt f32 .ne iy)
  (r.1, match r.2 with
    | .val q => .val (lerp4 (fi (q.1 % 65536)) (fi (q.2.1 % 65536)) (fi (q.2.2.1 % 65536)) (fi (q.2.2.2 % 65536)) fx fy)
    | .bad => .bad
    | .need => .need)

/-- R79. The height h of the ray above the surface at depth `z`; `bad` where the point is not inside. -/
def Samp.heightAt (a : Samp) (e : SampEnv) (p : PlaneDesc) (r : LaneRay) (z : Nat) : Samp × Got Nat :=
  let uv := uvAt p r z
  if !overPlane p uv then (a, .bad)
  else
    let d := a.surface e p uv
    (d.1, match d.2 with
      | .val x => .val (fsub f32 z (fadd f32 p.z (fmul f32 p.dz x)))
      | .bad => .bad
      | .need => .need)

/-- R79. Halve the bracket [lo, hi] six times; the hit is its midpoint. -/
def Samp.bisect (e : SampEnv) (p : PlaneDesc) (r : LaneRay) : Nat → Nat → Nat → Samp → Samp × Got Nat
  | 0, lo, hi, a => (a, .val (fmul f32 (fadd f32 lo hi) 0x3F000000))
  | n + 1, lo, hi, a =>
    let mid := fmul f32 (fadd f32 lo hi) 0x3F000000
    let x := a.heightAt e p r mid
    match x.2 with
    | .need => (x.1, .need)
    | .bad => Samp.bisect e p r n lo mid x.1
    | .val h => if fle f32 h 0 then Samp.bisect e p r n mid hi x.1 else Samp.bisect e p r n lo mid x.1

/-- R79. The march from step `k` on, `left` steps left; `prev` is z and h of the step before where it was inside. -/
def Samp.march (e : SampEnv) (p : PlaneDesc) (r : LaneRay) (zhi step : Nat) : Nat → Nat → Option (Nat × Nat) → Samp → Samp × Got Nat
  | 0, _, _, a => (a, .bad)
  | left + 1, k, prev, a =>
    let z := fsub f32 zhi (fmul f32 (fi k) step)
    let x := a.heightAt e p r z
    match x.2 with
    | .need => (x.1, .need)
    | .bad => Samp.march e p r zhi step left (k + 1) none x.1
    | .val h =>
      if k = 0 ∧ fle f32 h 0 then (x.1, .val z)
      else match prev with
        | some (zp, hp) => if flt f32 0 hp ∧ fle f32 h 0 then Samp.bisect e p r 6 z zp x.1
            else Samp.march e p r zhi step left (k + 1) (some (z, h)) x.1
        | none => Samp.march e p r zhi step left (k + 1) (some (z, h)) x.1

/-- The smallest integer at or above a finite binary32 value. -/
def fceilInt (a : Nat) : Int := -(ffloorInt (fneg f32 a))

/-- R37, R79. The depth of the ray's hit on a plane; `bad` where it misses. -/
def Samp.hit (a : Samp) (e : SampEnv) (p : PlaneDesc) (r : LaneRay) : Samp × Got Nat :=
  if p.kind = 1 then
    let zf := fadd f32 p.z (fmul f32 (fi 65535) p.dz)
    let zhi := fbig p.z zf
    let zlo := fsmall p.z zf
    let a0 := uvAt p r zhi
    let a1 := uvAt p r zlo
    let du := fsub f32 a0.1 a1.1
    let dv := fsub f32 a0.2 a1.2
    let sv := fdiv f32 (fsqrt f32 (fadd f32 (fmul f32 du du) (fmul f32 dv dv))) (fi (2 ^ p.dshift))
    let n := if fisFinite f32 sv then (clampI 1 256 (fceilInt sv)).toNat else 256
    let step := fdiv f32 (fsub f32 zhi zlo) (fi n)
    Samp.march e p r zhi step (n + 1) 0 none a
  else (a, if overPlane p (uvAt p r p.z) then .val p.z else .bad)

/-- R40. Premultiplied colour and alpha. -/
def premulOf (p : PlaneDesc) (c : List Nat) : List Nat :=
  if p.premul then c
  else let al := c.getD 3 0; [fmul f32 (c.getD 0 0) al, fmul f32 (c.getD 1 0) al, fmul f32 (c.getD 2 0) al, al]

/-- R75 steps 1 and 2. The premultiplied sample of a plane and the depth of the hit; `bad` where the ray misses. -/
def Samp.plane (a : Samp) (e : SampEnv) (p : PlaneDesc) (r : LaneRay) : Samp × Got (List Nat × Nat) :=
  let x := a.hit e p r
  match x.2 with
  | .bad => (x.1, .bad)
  | .need => (x.1, .need)
  | .val z =>
    let uv := uvAt p r z
    let y := x.1.filtered e p (x.1.s.lod r.tile p z) uv.1 uv.2
    (y.1, match y.2 with
      | .val c => .val (premulOf p c, z)
      | .bad => .bad
      | .need => .need)

/-! ### Compositing (R75, R76) -/

/-- R76. The running colour and alpha. -/
structure Accum where
  c : List Nat
  al : Nat
  deriving DecidableEq, Repr

/-- R76. Add a sample in front-to-back order. -/
def Accum.add (x : Accum) (smp : List Nat) : Accum :=
  let t := fsub f32 one32 x.al
  { c := (List.range 3).map (fun i => fadd f32 (x.c.getD i 0) (fmul f32 t (smp.getD i 0))), al := fadd f32 x.al (fmul f32 t (smp.getD 3 0)) }

/-- R75. Has the accumulated alpha reached 1,020 / 1,024? -/
def Accum.full (x : Accum) : Bool := fle f32 0x3F7F0000 x.al

/-- R76. The background colour K. -/
def State.bkgnd (s : State) : List Nat :=
  let k := s.get R.SYN_BKGND_COLOUR
  [bitsOf k 20 10, bitsOf k 10 10, bitsOf k 0 10].map (fun c => fdiv f32 (fi c) (fi 1023))

/-- R76. floor(x × 1,023 + 0.5) of a component clamped to [0, 1]. -/
def unorm10 (x : Nat) : Nat :=
  let x := if fle f32 0 x then fsmall x one32 else 0
  (ffloorInt (fadd f32 (fmul f32 x (fi 1023)) 0x3F000000)).toNat

/-- R76. The RAY30 word of a colour with the tag. -/
def ray30 (tag : Nat) (c : List Nat) : Nat :=
  unorm10 (c.getD 2 0) + unorm10 (c.getD 1 0) * 2 ^ 10 + unorm10 (c.getD 0 0) * 2 ^ 20 + tag % 4 * 2 ^ 30

/-- R75. Visit the planes in descriptor order. -/
def Samp.sweepPlanes (e : SampEnv) (r : LaneRay) : List PlaneDesc → Accum → Samp → Samp × Got Accum
  | [], x, a => (a, .val x)
  | p :: ps, x, a =>
    let y := a.plane e p r
    match y.2 with
    | .need => (y.1, .need)
    | .bad => Samp.sweepPlanes e r ps x y.1
    | .val (c, _) =>
      let x := x.add c
      if x.full then (y.1, .val x) else Samp.sweepPlanes e r ps x y.1

/-- R75, R76. The word of one lane in plane mode. -/
def Samp.sweepLane (a : Samp) (e : SampEnv) (tag : Nat) (r : LaneRay) : Samp × Got Nat :=
  let y := Samp.sweepPlanes e r e.planes ⟨[0, 0, 0], 0⟩ a
  (y.1, match y.2 with
    | .val x =>
      let k := a.s.bkgnd
      .val (ray30 tag (if x.full then x.c.map (fun c => fdiv f32 c x.al)
        else (List.range 3).map (fun i => fadd f32 (x.c.getD i 0) (fmul f32 (fsub f32 one32 x.al) (k.getD i 0)))))
    | .bad => .bad
    | .need => .need)

/-! ### Projective-camera mode (R80, R81) -/

/-- R80. A camera table entry. -/
structure CamEntry where
  idx : Nat
  slot : Nat
  valid : Bool
  marked : Bool
  set : Nat
  base : Nat
  pitch : Nat
  width : Nat
  height : Nat
  p : List Nat
  axis : List Nat
  cosLimit : Nat
  deriving DecidableEq, Repr

/-- R80. The entry that 128 bytes hold. -/
def CamEntry.ofBytes (i : Nat) (b : List Byte) : CamEntry :=
  { idx := i, slot := leAt b 0 4 % 32, valid := bitAt (leAt b 0 4) 8, marked := bitAt (leAt b 0 4) 9, set := leAt b 4 4,
    base := leAt b 8 8 % 2 ^ 48, pitch := leAt b 16 4, width := leAt b 20 2, height := leAt b 22 2,
    p := (List.range 12).map (fun k => leAt b (0x18 + 4 * k) 4), axis := (List.range 3).map (fun k => leAt b (0x48 + 4 * k) 4),
    cosLimit := leAt b 0x54 4 }

/-- R80. Address of camera table entry `i`. -/
def State.camtabAddr (s : State) (i : Nat) : Nat := s.addrOf R.SYN_CAMTAB_LO_ADDR R.SYN_CAMTAB_HI_ADDR + 128 * i

/-- R80, R84, R159. The entries of the camera table bound to the frame that a thread's launch works on; none where its frame has none
bound, or the launch deals no rays. -/
def State.camTable (s : State) (k : Nat) : List CamEntry :=
  match s.launch (s.thr k).launch with
  | some l => (match l.work.bind s.synWork with
    | some w => w.bound.cams.map (fun p => CamEntry.ofBytes p.1 p.2)
    | none => [])
  | none => []

/-- R275. Does a sensor slot write RGB16F images? -/
def State.camF16 (s : State) (slot : Nat) : Bool := decide (s.get (R.CAM_SCFG_OUTFMT slot) = 1)

/-- R69, R275. Pixel (x, y) of a camera image as its word, through Caddy camera lines. -/
def Samp.camPixel (a : Samp) (e : SampEnv) (c : CamEntry) (x y : Nat) : Samp × Got Nat :=
  let wide := a.s.camF16 c.slot
  let bpp := if wide then 8 else 4
  let sw := if wide then 128 else 256
  let col := x / sw
  let row := y / 16
  a.line e { tag := .cam c.slot c.set row col, ctx := e.ctx, src := c.base + row * 16 * c.pitch + col * sw * bpp,
             width := bpp * min sw (c.width - col * sw), height := min 16 (c.height - row * 16), pitch := c.pitch, hint := false }
    ((y % 16) * (bpp * min sw (c.width - col * sw)) + x % sw * bpp) bpp

/-- R275. The components of a camera pixel; A is 1. -/
def camPixelF (wide : Bool) (w : Nat) : List Nat :=
  if wide then [bitsOf w 0 16, bitsOf w 16 16, bitsOf w 32 16].map (fconv f16 f32 .ne) ++ [one32]
  else [bitsOf w 20 10, bitsOf w 10 10, bitsOf w 0 10].map (fun c => fdiv f32 (fi c) (fi 1023)) ++ [one32]

/-- R81. The bilinear sample of a camera image at pixel (x, y); pixel centres lie at whole coordinates (assumption 25). -/
def Samp.camSample (a : Samp) (e : SampEnv) (c : CamEntry) (x y : Nat) : Samp × Got (List Nat) :=
  let ix := ffloorInt x
  let iy := ffloorInt y
  let r := a.four (fun a x y => a.camPixel e c x y) (clampIdx c.width ix) (clampIdx c.width (ix + 1)) (clampIdx c.height iy) (clampIdx c.height (iy + 1))
  (r.1, match r.2 with
    | .val q => .val (lerpTexels (camPixelF (a.s.camF16 c.slot)) q (weight256 x) (weight256 y))
    | .bad => .bad
    | .need => .need)

/-- R81. A row of P applied to a point. -/
def rowDot (p : List Nat) (r : Nat) (x y z : Nat) : Nat :=
  fadd f32 (fadd f32 (fadd f32 (fmul f32 (p.getD (4 * r) 0) x) (fmul f32 (p.getD (4 * r + 1) 0) y)) (fmul f32 (p.getD (4 * r + 2) 0) z))
    (p.getD (4 * r + 3) 0)

/-- R81 steps 2 and 3. The pixel that a camera sees the point at, if the camera is a candidate. -/
def CamEntry.project (c : CamEntry) (skipMarked : Bool) (x y z : Nat) : Option (Nat × Nat) :=
  if !c.valid || (c.marked && skipMarked) then none
  else
    let w := rowDot c.p 2 x y z
    let px := fdiv f32 (rowDot c.p 0 x y z) w
    let py := fdiv f32 (rowDot c.p 1 x y z) w
    if decide (0 < c.width) && decide (0 < c.height) && flt f32 0 w && fle f32 0 px && fle f32 px (fi (c.width - 1)) && fle f32 0 py && fle f32 py (fi (c.height - 1)) then some (px, py) else none

/-- R81 step 4. The raw weight of a camera for a ray. -/
def CamEntry.weight (c : CamEntry) (r : LaneRay) : Nat :=
  let n := fsqrt f32 (fadd f32 (fadd f32 (fmul f32 r.sx r.sx) (fmul f32 r.sy r.sy)) one32)
  let dot := fadd f32 (fadd f32 (fmul f32 (fdiv f32 r.sx n) (c.axis.getD 0 0)) (fmul f32 (fdiv f32 r.sy n) (c.axis.getD 1 0)))
    (fmul f32 (fdiv f32 one32 n) (c.axis.getD 2 0))
  fsub f32 (fneg f32 dot) c.cosLimit

/-- R81 step 5. Keep the `k` cameras of largest weight; ties go to the lower index. -/
def keepLargest (k : Nat) (cs : List (CamEntry × Nat × (Nat × Nat))) : List (CamEntry × Nat × (Nat × Nat)) :=
  let put := fun (acc : List (CamEntry × Nat × (Nat × Nat))) c =>
    acc.takeWhile (fun x => !(flt f32 x.2.1 c.2.1)) ++ [c] ++ acc.dropWhile (fun x => !(flt f32 x.2.1 c.2.1))
  (cs.foldl put []).take k

/-- R81. KMAX; values other than 1–8 act as 8. -/
def State.kmax (s : State) : Nat := let k := s.get R.SYN_CAM_KMAX; if 1 ≤ k ∧ k ≤ 8 then k else 8

/-- R81 step 6. The samples of the kept cameras with their raw weights; a camera whose image cannot be read is dropped (R357). -/
def Samp.camSamples (e : SampEnv) : List (CamEntry × Nat × (Nat × Nat)) → Samp → Samp × Got (List (Nat × List Nat))
  | [], a => (a, .val [])
  | (c, w, px) :: rest, a =>
    let x := a.camSample e c px.1 px.2
    let y := Samp.camSamples e rest x.1
    (y.1, match x.2, y.2 with
      | .val v, .val more => .val ((w, v) :: more)
      | .bad, .val more => .val more
      | .need, _ => .need
      | _, .need => .need
      | _, .bad => .bad)

/-- R81. The word of one lane in projective-camera mode; `bad` where the ray has no view. -/
def Samp.camLane (a : Samp) (e : SampEnv) (tag : Nat) (r : LaneRay) : Samp × Got Nat :=
  match e.planes with
  | [] => (a, .bad)
  | p :: _ =>
    let x := a.hit e p r
    match x.2 with
    | .bad => (x.1, .bad)
    | .need => (x.1, .need)
    | .val z =>
      let hx := fadd f32 r.ox (fmul f32 z r.sx)
      let hy := fadd f32 r.oy (fmul f32 z r.sy)
      let cands := (x.1.s.camTable e.key).filterMap (fun c =>
        match c.project (x.1.s.on R.SYN_CAM_SKIP_MARKED) hx hy z with
        | some px => let w := c.weight r; if flt f32 0 w then some (c, w, px) else none
        | none => none)
      let y := Samp.camSamples e (keepLargest x.1.s.kmax cands) x.1
      match y.2 with
      | .need => (y.1, .need)
      | .bad => (y.1, .bad)
      | .val [] => (y.1, .bad)
      | .val ws =>
        let sum := ws.foldl (fun t w => fadd f32 t w.1) 0
        (y.1, .val (ray30 tag ((List.range 3).map (fun i => ws.foldl (fun t w => fadd f32 t (fmul f32 (fdiv f32 w.1 sum) (w.2.getD i 0))) 0))))

/-! ### Issue of format X (R70, R156–R160) -/

/-- R156. The plane list that a thread's constant memory holds at offset `pl`, and the environment of its instruction. -/
def State.sampEnv (s : State) (k : Nat) (f : FmtX) : SampEnv :=
  let h := k / 64
  let l := s.launch (s.thr k).launch
  let size := match l with
    | some l => l.desc.constSize
    | none => 0
  let rd := fun a n => s.constRead h size (f.pl + a) n
  let slot := rd 2 1 % 16
  let n := min 64 (rd 0 2)
  { h := h, key := k, ctx := (match l with
      | some l => l.desc.ctx
      | none => 64),
    slot := slot, sctx := (match tabGet s.syn.streams slot with
      | some st => st.ctx
      | none => 64),
    rdir := rd 8 8 % 2 ^ 64, planes := (List.range n).map (fun i => PlaneDesc.ofBytes (leBytes 64 (rd (0x10 + 64 * i) 64))),
    trilinear := if f.filt = 0 then decide (s.get R.SYN_CTL_FILTER = 1) else decide (f.filt = 2), got := (s.thr k).got }

/-- R157. The ray of a lane from its registers. -/
def ThreadSt.laneRay (t : ThreadSt) (f : FmtX) (l : Nat) : LaneRay :=
  { ox := t.vr f.a l, oy := t.vr (f.a + 1) l, sx := t.vr (f.a + 2) l, sy := t.vr (f.a + 3) l, tile := bitsOf (t.vr f.b l) 16 6 }

/-- Evaluate every acting lane; the results of the lanes that have one. -/
def sampLanes {α : Type} (lane : Samp → Nat → Samp × Got α) : List Nat → Samp → Samp × List (Nat × Got α)
  | [], a => (a, [])
  | l :: ls, a =>
    let x := lane a l
    let y := sampLanes lane ls x.1
    (y.1, (l, x.2) :: y.2)

/-- R70. Request the lines that are lacking: merge with a fill, start one while fewer than 16 are outstanding, or stall. -/
def State.request (h : Nat) (hint : Bool) : List CFill → State → List LineTag → State × List LineTag
  | [], s, want => (s, want)
  | f :: fs, s, want =>
    let c := s.caddy h
    if c.fills.any (fun x => decide (x.tag = f.tag)) then
      State.request h hint fs (s.bump (R.SYN_HCNT_COUNT h 2)) (want ++ [f.tag])
    else if c.fills.length < 16 then
      State.request h hint fs ((s.setCaddy h { c with fills := c.fills ++ [{ f with hint := hint }] }).bump (R.SYN_HCNT_COUNT h 1)) (want ++ [f.tag])
    else if hint then State.request h hint fs s want
    else (s.bump (R.SYN_HCNT_COUNT h 4), want)

/-- What an evaluation leaves whatever its outcome: lines used are touched and counted, a failed read of the resolved directory is
reported. -/
def Samp.settle (a : Samp) (e : SampEnv) : State :=
  let s := a.used.foldl (fun s t => (s.setCaddy e.h ((s.caddy e.h).touch t)).bump (R.SYN_HCNT_COUNT e.h 0)) a.s
  match a.rerr with
  | some (va, err) => s.decodeFail e.h 0 0 e.sctx va err
  | none => s

/-- R70. The thread waits for the lines it lacks, and keeps those it used. -/
def Samp.stall (a : Samp) (e : SampEnv) : State :=
  let used := a.used.filterMap (fun t => ((a.s.caddy e.h).find t).map (fun l => (t, l.data)))
  let s := a.settle e
  let r := State.request e.h false a.needs s []
  let th := r.1.thr e.key
  let s := r.1.setCaddy e.h ((r.1.caddy e.h).enqueue e.key (th.got ≠ []))
  s.setThr e.key { th with got := th.got ++ used, want := r.2, wait := .caddy }

/-- The outcomes that are values. -/
def gotVals {α : Type} (l : List (Nat × Got α)) : List (Nat × α) :=
  l.filterMap (fun x => match x.2 with
    | .val v => some (x.1, v)
    | _ => none)

/-- Does a lane lack a line? -/
def anyNeed {α : Type} (l : List (Nat × Got α)) : Bool :=
  l.any (fun x => match x.2 with
    | .need => true
    | _ => false)

/-- The registers that a format X instruction touches. -/
def touchX (f : FmtX) (dst : Nat) : Touch := ⟨[f.a, f.a + 1, f.a + 2, f.a + 3, f.b] ++ (List.range dst).map (f.d + ·), []⟩

/-- The lanes that act. -/
def ThreadSt.lanesX (t : ThreadSt) (f : FmtX) : List Nat := (List.range 64).filter (fun l => bitAt (t.eff false f.pred f.neg) l)

/-- R75–R81, R158. SWEEP as a whole. The sampler does nothing while SYN_CTL.ENABLE is 0, and the thread waits (assumption 23). -/
def State.runSweep (s : State) (t : Thr) (f : FmtX) : State :=
  s.issue t (legalX (thrIsS t) f 0) (touchX f 1) (fun th =>
    if !s.on R.SYN_CTL_ENABLE then s
    else
      let k := thrKey t
      let e := s.sampEnv k f
      let tag := s.launchTag k
      let bg := ray30 tag.1 s.bkgnd
      let lane := fun a l => if tag.2 then Samp.camLane a e tag.1 (th.laneRay f l) else Samp.sweepLane a e tag.1 (th.laneRay f l)
      let r := sampLanes lane (th.lanesX f) ⟨s, [], [], none⟩
      if anyNeed r.2 then r.1.stall e
      else
        let s := r.1.settle e
        let s := if tag.2 then s.bumpBy (R.SYN_HCNT_COUNT e.h 5) ((r.2.length) - (gotVals r.2).length) else s
        let th := r.2.foldl (fun th x => th.setV f.d x.1 (match x.2 with
          | .val v => v
          | _ => bg)) th
        s.setThr k { th.next with got := [], want := [] })

/-- R159. The lane results of SAMPLE: four components and the fifth register; `bad` gives the miss result. -/
def Samp.sampleLane (a : Samp) (e : SampEnv) (f : FmtX) (r : LaneRay) : Samp × Got (List Nat × Nat) :=
  if f.cam then
    match e.planes with
    | [] => (a, .bad)
    | p :: _ =>
      let x := a.hit e p r
      match x.2 with
      | .bad => (x.1, .bad)
      | .need => (x.1, .need)
      | .val z =>
        match (x.1.s.camTable e.key).find? (fun c => decide (c.idx = f.index)) with
        | none => (x.1, .bad)
        | some c =>
          match c.project (x.1.s.on R.SYN_CAM_SKIP_MARKED) (fadd f32 r.ox (fmul f32 z r.sx)) (fadd f32 r.oy (fmul f32 z r.sy)) z with
          | none => (x.1, .bad)
          | some px =>
            let y := x.1.camSample e c px.1 px.2
            (y.1, match y.2 with
              | .val v => .val (v, c.weight r)
              | .bad => .bad
              | .need => .need)
  else
    match e.planes[f.index]? with
    | none => (a, .bad)
    | some p => a.plane e p r

/-- R159. SAMPLE as a whole. -/
def State.runSample (s : State) (t : Thr) (f : FmtX) : State :=
  s.issue t (legalX (thrIsS t) f 1) (touchX f 5) (fun th =>
    if !s.on R.SYN_CTL_ENABLE then s
    else
      let k := thrKey t
      let e := s.sampEnv k f
      let r := sampLanes (fun a l => Samp.sampleLane a e f (th.laneRay f l)) (th.lanesX f) ⟨s, [], [], none⟩
      if anyNeed r.2 then r.1.stall e
      else
        let s := r.1.settle e
        let put := fun (th : ThreadSt) (l : Nat) (c : List Nat) (z : Nat) =>
          (foldRange 4 (fun th i => th.setV (f.d + i) l (c.getD i 0)) th).setV (f.d + 4) l z
        let th := r.2.foldl (fun th x => match x.2 with
          | .val (c, z) => put th x.1 c z
          | _ => put th x.1 [] f32.qnan) th
        s.setThr k { th.next with got := [], want := [] })

/-- R160. DHINT as a whole: it requests lines and writes nothing. -/
def State.runDhint (s : State) (t : Thr) (f : FmtX) : State :=
  s.issue t (legalX (thrIsS t) f 2) (touchX f 0) (fun th =>
    let k := thrKey t
    if !s.on R.SYN_CTL_ENABLE then s.setThr k th.next
    else
      let e := s.sampEnv k f
      let r := sampLanes (fun a l => Samp.sampleLane a e f (th.laneRay f l)) (th.lanesX f) ⟨s, [], [], none⟩
      let s := (State.request e.h true r.1.needs (r.1.settle e) []).1
      s.setThr k th.next)

/-- R75–R81, R158 SWEEP. -/
def execSweep (t : Thr) (f : FmtX) (s : State) : Host.Outcome State Fault Refusal := .next (s.runSweep t f)
/-- R159 SAMPLE. -/
def execSample (t : Thr) (f : FmtX) (s : State) : Host.Outcome State Fault Refusal := .next (s.runSample t f)
/-- R160 DHINT. -/
def execDhint (t : Thr) (f : FmtX) (s : State) : Host.Outcome State Fault Refusal := .next (s.runDhint t f)

end Sys2Proof.Machine
end

