-- ==== Sys2Proof/Machine/Compose.lean ====
section
/-! DEFINITION. Layer composition: overlay formats and placement, density fill, blending, the composed line with its checksums,
signature and write-back, and the answers to faults (R166–R178). -/
namespace Sys2Proof.Machine

/-! ### Tile pipes -/

/-- A pipe at the start of its first frame. -/
def scanDefault (_ : Nat) : TileScan :=
  { crc := 0xFFFFFFFF, sum := 0, lines := 0, skip := false, faulted := 0, clsFault := false, resFault := false, wbStop := false, wbBad := false,
    late := false, line := [], run := 0, seen := false }
/-- The pipe of tile `t`. -/
def State.scan (s : State) (t : Nat) : TileScan := mapGet scanDefault s.sco.tiles t
/-- Replace the pipe of tile `t`. -/
def State.setScan (s : State) (t : Nat) (x : TileScan) : State := s.setSco { s.sco with tiles := mapPut scanDefault s.sco.tiles t x }

/-- R181, R182, R185. Does the pipe of the tile fetch and compose? -/
def State.composes (s : State) (t : Nat) : Bool := s.on R.CMP_CTL_ENABLE && s.onA (R.CMP_TCTL_EN t)

/-- A flag of CMP_TSTAT is set, counted, logged and raised; flag `i` has counter `c` and cause CMP_LFAULT + i. -/
def State.cmpFlag (s : State) (t i c n detail : Nat) : State :=
  let f := R.CMP_TSTAT_FLAGS t
  (((s.put f (s.get f ||| 2 ^ i)).bumpBy (R.CMP_CNT_COUNT t c) n).log 11 0 t c 2 detail).raise (Irq.CMP_LFAULT + i)

/-- R178. A layer fetch has faulted: the layer uses its fallback colour for the rest of the frame in this tile. -/
def State.layerFault (s : State) (t l : Nat) : State :=
  let s := s.setScan t { s.scan t with faulted := (s.scan t).faulted ||| 2 ^ l, skip := (s.scan t).skip || decide (l = 0) }
  let f := R.CMP_TSTAT_FAULT_LAYERS t
  (s.put f (s.get f ||| 2 ^ l)).cmpFlag t 0 0 1 l
/-- R178. The class plane has faulted. -/
def State.classFault (s : State) (t : Nat) : State := (s.setScan t { s.scan t with clsFault := true }).cmpFlag t 6 7 1 0
/-- R178. The residual plane has faulted. -/
def State.residualFault (s : State) (t : Nat) : State := (s.setScan t { s.scan t with resFault := true }).cmpFlag t 6 7 1 1
/-- R178. A write-back store has faulted: write-back stops for the rest of the frame in the tile. -/
def State.wbFault (s : State) (t : Nat) : State := (s.setScan t { s.scan t with wbStop := true, wbBad := true }).cmpFlag t 3 5 1 0
/-- R355, R370. A failed access of composition is reported with client 0x30 and its tile and layer. -/
def State.cmpFail (s : State) (t l ctx va : Nat) (acc : Acc) (cls : Nat) (e : AccErr) : State := s.accFail 0x30 (t + 256 * l) ctx va acc cls e

/-! ### Layers (R167, R183) -/

/-- R183. The committed values of a layer. -/
structure Layer where
  en : Bool
  place : Bool
  dres : Bool
  fmt : Nat
  blend : Nat
  galpha : Nat
  base : Nat
  pitch : Nat
  srcW : Nat
  srcH : Nat
  dstX : Nat
  dstY : Nat
  dstW : Nat
  dstH : Nat
  fb : Nat
  opq : Bool
  z : Nat
  xl : Nat
  yt : Nat
  tx : Nat
  ty : Nat
  deriving DecidableEq, Repr

/-- The values of layer `l` of tile `t` through a way of reading fields: the committed copies, or the shadow copies. -/
def layerOf (g : Fld → Nat) (t l : Nat) : Layer :=
  { en := decide (g (R.CMP_LCTL_EN t l) ≠ 0), place := decide (g (R.CMP_LCTL_PLACE t l) ≠ 0), dres := decide (g (R.CMP_LCTL_DRES t l) ≠ 0),
    fmt := g (R.CMP_LCTL_FMT t l), blend := g (R.CMP_LCTL_BLEND t l), galpha := g (R.CMP_LCTL_GALPHA t l),
    base := g (R.CMP_LBASE_LO_ADDR t l) * 256 + 2 ^ 32 * g (R.CMP_LBASE_HI_ADDR t l), pitch := g (R.CMP_LPITCH_PITCH t l),
    srcW := g (R.CMP_LSRC_SRC_W t l), srcH := g (R.CMP_LSRC_SRC_H t l), dstX := g (R.CMP_LDPOS_DST_X t l), dstY := g (R.CMP_LDPOS_DST_Y t l),
    dstW := g (R.CMP_LDSIZE_DST_W t l), dstH := g (R.CMP_LDSIZE_DST_H t l), fb := g (R.CMP_LFB_COLOUR t l),
    opq := decide (g (R.CMP_LFB_OPAQUE t l) ≠ 0), z := g (R.CMP_LZ_VALUE t l), xl := g (R.CMP_LXL_VALUE t l), yt := g (R.CMP_LYT_VALUE t l),
    tx := g (R.CMP_LTX_VALUE t l), ty := g (R.CMP_LTY_VALUE t l) }
/-- The layer in effect. -/
def State.layer (s : State) (t l : Nat) : Layer := layerOf s.getA t l

/-- A colour with alpha in 10-bit codes. -/
structure Rgba where
  r : Nat
  g : Nat
  b : Nat
  a : Nat
  deriving DecidableEq, Repr

/-- The colour of a RAY30 word with an alpha. -/
def rgbaOf (w a : Nat) : Rgba := ⟨bitsOf w 20 10, bitsOf w 10 10, bitsOf w 0 10, a⟩
/-- Bits [29:0] of a colour. -/
def Rgba.word (c : Rgba) : Nat := c.r % 1024 * 2 ^ 20 + c.g % 1024 * 2 ^ 10 + c.b % 1024
/-- R178. The fallback colour of a layer. -/
def Layer.fallback (y : Layer) : Rgba := rgbaOf y.fb (if y.opq then 1023 else 0)

/-- R167. An 8-bit code as 10 bits. -/
def code8 (c : Nat) : Nat := (c * 4) ||| (c / 64)
/-- R167. A binary16 component as 10 bits: floor(clamp(c, 0, 1) × 1,023 + 0.5), 0 for NaN. -/
def codeHalf (h : Nat) : Nat :=
  let e := bitsOf h 10 5
  let m := bitsOf h 0 10
  if e = 31 ∧ m ≠ 0 then 0
  else if bitAt h 15 then 0
  else
    let n := if e = 0 then m else (1024 + m) * 2 ^ (e - 1)
    if 2 ^ 24 ≤ n then 1023 else (n * 1023 * 2 + 2 ^ 24) / 2 ^ 25

/-- R167. Bytes per pixel. -/
def pixelBytes (fmt : Nat) : Nat := if fmt = 2 then 8 else 4
/-- R167. A pixel of a format as 10-bit components. -/
def pixelCode (fmt v : Nat) : Rgba :=
  match fmt with
  | 0 => rgbaOf v (bitsOf v 30 2 * 341)
  | 1 => ⟨code8 (bitsOf v 0 8), code8 (bitsOf v 8 8), code8 (bitsOf v 16 8), code8 (bitsOf v 24 8)⟩
  | 2 => ⟨codeHalf (bitsOf v 0 16), codeHalf (bitsOf v 16 16), codeHalf (bitsOf v 32 16), codeHalf (bitsOf v 48 16)⟩
  | _ => rgbaOf v 1023

/-- Cut bytes into pixels of a format, `n` of them. -/
def pixelsOf (fmt : Nat) : Nat → List Byte → List Rgba
  | 0, _ => []
  | n + 1, bs => pixelCode fmt (leNat (bs.take (pixelBytes fmt))) :: pixelsOf fmt n (bs.drop (pixelBytes fmt))

/-- A row of a layer's source image, or the failing address. -/
def State.srcRow (s : State) (y : Layer) (row : Nat) : Except (Nat × AccErr) (List Rgba) :=
  let va := y.base + row * y.pitch
  match s.vread 0 va .read (y.srcW * pixelBytes y.fmt) with
  | .ok bs => .ok (pixelsOf y.fmt y.srcW bs)
  | .error e => .error (va, e)

/-! ### Screen placement (R168) -/

/-- R168. The samples of an axis with source size `S` and destination size `D` at destination pixel `x`: index and weight in 256ths. -/
def axisTaps (S D x : Nat) : List (Nat × Nat) :=
  if S ≤ D then
    let n : Int := ((2 * x + 1) * S : Nat) - (D : Int)
    let d : Int := ((2 * D : Nat) : Int)
    let i := n / d
    let w := ((n % d) * 256 / d).toNat
    [(clampIdx S i, 256 - w), (clampIdx S (i + 1), w)]
  else
    let lo := x * S / D
    let hi := ceilDiv ((x + 1) * S) D
    let part := (List.range (hi - lo - 1)).map (fun k => (lo + k, (min ((lo + k + 1) * D) ((x + 1) * S) - max ((lo + k) * D) (x * S)) * 256 / S))
    part ++ [(hi - 1, 256 - (part.map Prod.snd).sum)]

/-- R168. One pass: (Σ c × w256 + 128) div 256, component by component. -/
def resample (taps : List (Nat × Nat)) (at' : Nat → Rgba) : Rgba :=
  let f := fun (c : Rgba → Nat) => ((taps.map (fun p => c (at' p.1) * p.2)).sum + 128) / 256
  ⟨f (·.r), f (·.g), f (·.b), f (·.a)⟩

/-- The rows that some taps name. -/
def State.tapRows (s : State) (y : Layer) : List (Nat × Nat) → Except (Nat × AccErr) (List (Nat × List Rgba))
  | [] => .ok []
  | (i, _) :: rest => match s.srcRow y i with
    | .error e => .error e
    | .ok r => match s.tapRows y rest with
      | .error e => .error e
      | .ok more => .ok ((i, r) :: more)

/-- Transparent black. -/
def clear : Rgba := ⟨0, 0, 0, 0⟩

/-- R168. The pixels of a screen-placed layer on tile line `k`, by column of its rectangle; the vertical axis first. -/
def State.screenLine (s : State) (y : Layer) (k : Nat) : Except (Nat × AccErr) (List Rgba) :=
  let taps := axisTaps y.srcH y.dstH (k - y.dstY)
  match s.tapRows y taps with
  | .error e => .error e
  | .ok rows =>
    let col := fun x => resample taps (fun i => ((tabGet rows i).getD []).getD x clear)
    let mid := (List.range y.srcW).map col
    .ok ((List.range y.dstW).map (fun x => resample (axisTaps y.srcW y.dstW x) (fun i => mid.getD i clear)))

/-! ### Depth placement (R169) -/

/-- R169. The layer as a plane of R37. -/
def Layer.plane (y : Layer) : PlaneDesc :=
  { id := 0, kind := 0, premul := false, width := y.srcW, height := y.srcH, levels := 1, dshift := 0, texIndex := 0, z := y.z, xl := y.xl,
    yt := y.yt, tx := y.tx, ty := y.ty, dz := 0, ntex := 0, depthIndex := 0, ndepth := 0 }

/-- One pixel of the source image. -/
def State.srcPixel (s : State) (y : Layer) (i j : Nat) : Except (Nat × AccErr) Rgba :=
  let va := y.base + j * y.pitch + i * pixelBytes y.fmt
  match s.vread 0 va .read (pixelBytes y.fmt) with
  | .ok bs => .ok (pixelCode y.fmt (leNat bs))
  | .error e => .error (va, e)

/-- R169. floor(x + 0.5) of a component, as a code. -/
def codeOf (x : Nat) : Nat := (clampI 0 1023 (ffloorInt (fadd f32 x 0x3F000000))).toNat

/-- R78, R169. The bilinear sample of the image at (u, v), on code values. -/
def State.srcBilinear (s : State) (y : Layer) (u v : Nat) : Except (Nat × AccErr) Rgba :=
  let fx := fsub f32 (fdiv f32 (fmul f32 u (fi y.srcW)) (fi y.srcW)) 0x3F000000
  let fy := fsub f32 (fdiv f32 (fmul f32 v (fi y.srcH)) (fi y.srcH)) 0x3F000000
  let ix := ffloorInt fx
  let iy := ffloorInt fy
  let x0 := clampIdx y.srcW ix
  let x1 := clampIdx y.srcW (ix + 1)
  let y0 := clampIdx y.srcH iy
  let y1 := clampIdx y.srcH (iy + 1)
  match s.srcPixel y x0 y0, s.srcPixel y x1 y0, s.srcPixel y x0 y1, s.srcPixel y x1 y1 with
  | .ok a, .ok b, .ok c, .ok d =>
    let f := fun (k : Rgba → Nat) => codeOf (lerp4 (fi (k a)) (fi (k b)) (fi (k c)) (fi (k d)) (weight256 fx) (weight256 fy))
    .ok ⟨f (·.r), f (·.g), f (·.b), f (·.a)⟩
  | .error e, _, _, _ => .error e
  | _, .error e, _, _ => .error e
  | _, _, .error e, _ => .error e
  | _, _, _, .error e => .error e

/-- R62, R537. The header that describes pixel (i, j) of a tile in the map of the frame shown. -/
def State.shownHdr (s : State) (t i j : Nat) : Option RayHdr :=
  match s.sco.rmap with
  | none => none
  | some m => match tabGet m.tiles t with
    | some h => if i < h.width ∧ j < h.height then some h else none
    | none => none
/-- The context of the planes of that map. -/
def State.shownCtx (s : State) : Nat :=
  match s.sco.rmap with
  | some m => m.ctx
  | none => 0

/-- R169. A pixel of a depth-placed layer: none where it does not cover the ray. `res` is the residual word, where residuals are used. -/
def State.depthPixel (s : State) (y : Layer) (t i j : Nat) (res : Option Nat) : Except (Nat × AccErr) (Option Rgba) :=
  match s.shownHdr t i j with
  | none => .ok none
  | some h =>
    let ray := rayOf h i j res
    let p := y.plane
    let uv := uvAt p { ox := ray.ox, oy := ray.oy, sx := ray.sx, sy := ray.sy, tile := t } p.z
    if ray.has && overPlane p uv then
      (match s.srcBilinear y uv.1 uv.2 with
       | .ok c => .ok (some c)
       | .error e => .error e)
    else .ok none

/-- R169. The pixels of a depth-placed layer on tile line `k`, by column of its rectangle. -/
def State.depthCols (s : State) (y : Layer) (t k : Nat) (res : Nat → Option Nat) : List Nat → Except (Nat × AccErr) (List (Option Rgba))
  | [] => .ok []
  | x :: xs => match s.depthPixel y t (y.dstX + x) k (res (y.dstX + x)) with
    | .error e => .error e
    | .ok c => match s.depthCols y t k res xs with
      | .error e => .error e
      | .ok cs => .ok (c :: cs)

/-- R169, R178. The residual words of a line of the tile, from column 0; none where they are not used, an error where the read fails. -/
def State.residualLine (s : State) (t k : Nat) : Option (Except (Nat × AccErr) (List Nat)) :=
  match s.shownHdr t 0 k with
  | none => none
  | some h =>
    if h.nores then none
    else match s.vread s.shownCtx (h.resAddr 0 k) .read (4 * h.width) with
      | .ok bs => some (.ok (bytesWords h.width bs))
      | .error e => some (.error (h.resAddr 0 k, e))

/-! ### Overlays (R168–R170, R176, R178) -/

/-- R178, R536, R537. A layer's fallback colour over its coverage on tile line `k`: its destination rectangle, and of a depth-placed layer
the rays in it. -/
def State.fallLine (s : State) (y : Layer) (t k : Nat) : List (Option Rgba) :=
  (List.range y.dstW).map (fun x =>
    if !y.place then some y.fallback
    else match s.shownHdr t (y.dstX + x) k with
      | some h => if (rayOf h (y.dstX + x) k none).has then some y.fallback else none
      | none => none)

/-- A faulted fetch of an overlay: flagged, reported, and its fallback line. -/
def State.overlayFail (s : State) (t l k : Nat) (y : Layer) (e : Nat × AccErr) : State × List (Option Rgba) :=
  ((s.layerFault t l).cmpFail t l 0 e.1 .read 6 e.2, s.fallLine y t k)

/-- The samples of overlay `l` on tile line `k`, by column of its rectangle; `late` says that its data missed the deadline. -/
def State.overlayLine (s : State) (t l k : Nat) (late : Bool) : State × List (Option Rgba) :=
  let y := s.layer t l
  if k < y.dstY ∨ y.dstY + y.dstH ≤ k then (s, [])
  else if bitAt (s.scan t).faulted l then (s, s.fallLine y t k)
  else if late then (s.cmpFlag t 1 1 1 l, s.fallLine y t k)
  else if !y.place then
    (match s.screenLine y k with
     | .ok cs => (s, cs.map some)
     | .error e => s.overlayFail t l k y e)
  else
    let res := if y.dres && !(s.scan t).resFault then s.residualLine t k else none
    let s := match res with
      | some (.error e) => (s.residualFault t).cmpFail t l s.shownCtx e.1 .read 6 e.2
      | _ => s
    let words := match res with
      | some (.ok ws) => fun x => some (ws.getD x 0)
      | _ => fun _ => none
    match s.depthCols y t k words (List.range y.dstW) with
    | .ok cs => (s, cs)
    | .error e => s.overlayFail t l k y e

/-! ### L0 and density fill (R166, R174, R175) -/

/-- R83, R166. The address of L0 line `k` of a tile. -/
def State.l0Addr (s : State) (t k : Nat) : Nat :=
  if s.bandMode then
    let slot := s.bandOfLine k % s.ringDepth
    (s.ringBase t + (slot * 64 + k % 64) * s.ringPitch t) % 2 ^ 48
  else ((s.layer t 0).base + k * (s.layer t 0).pitch) % 2 ^ 48

/-- R174. What the fill knows of a pixel of the line: its L0 word, its class word, and its lenslet where it has one. -/
structure FillPx where
  word : Nat
  cls : Option Nat
  len : Option (Nat × Nat)
  deriving DecidableEq, Repr

/-- R174. Is the pixel a candidate for the lenslet `len`: described, under the lenslet, neither skipped nor DARK? -/
def FillPx.candidate (p : FillPx) (d : Nat) (len : Nat × Nat) : Bool :=
  match p.cls with
  | some c => !raySkipped d c && !rayDark c && decide (p.len = some len)
  | none => false

/-- R174. The columns of the search window by rising distance, the lower column first. -/
def windowCols (j w : Nat) : List Nat :=
  (List.range 33).flatMap (fun k => if k = 0 then [] else
    (if k ≤ j then [j - k] else []) ++ (if j + k < w then [j + k] else []))

/-- R174. The filled colour of a skipped ray at column `j` of class `c`; none where no candidate exists. -/
def fillColour (line : List FillPx) (d j c : Nat) (len : Nat × Nat) : Option Nat :=
  let g := 2 ^ d
  let r := c % g
  let px := fun (i : Nat) => line.getD i ⟨0, none, none⟩
  let cand := (windowCols j line.length).filter (fun i => (px i).candidate d len)
  let ofClass := fun k => cand.find? (fun i => decide ((px i).cls.map rayClass = some k))
  match ofClass (c - r), ofClass (c - r + g) with
  | some a, some b =>
    let f := fun lsb => (bitsOf (px a).word lsb 10 * (g - r) + bitsOf (px b).word lsb 10 * r + g / 2) / g
    some (f 20 * 2 ^ 20 + f 10 * 2 ^ 10 + f 0)
  | some a, none => some ((px a).word % 2 ^ 30)
  | none, some b => some ((px b).word % 2 ^ 30)
  | none, none => cand.head?.map (fun i => (px i).word % 2 ^ 30)

/-- R174. The line as the fill sees it, with the class words that the map gives. -/
def State.fillLine' (s : State) (t k : Nat) (words : List Nat) (cls : List Nat) : List FillPx :=
  (words.zip (List.range words.length)).map (fun p =>
    match s.shownHdr t p.2 k with
    | some h =>
      let ray := rayOf h p.2 k none
      ⟨p.1, cls[p.2]?, if ray.has then some (ray.l1, ray.l2) else none⟩
    | none => ⟨p.1, none, none⟩)

/-- R174, R175. What becomes of an L0 word: it passes, it is filled with a colour, or the L0 fallback colour takes its place because no
candidate was found. -/
inductive Filled where
  | pass
  | colour (c : Nat)
  | miss
  deriving DecidableEq, Repr

/-- R174. What becomes of each word of a line. -/
def fillWords (d : Nat) (line : List FillPx) : List Filled :=
  (line.zip (List.range line.length)).map (fun p =>
    match p.1.cls, p.1.len with
    | some c, some len =>
      if bitsOf p.1.word 30 2 = d ∧ raySkipped d c then
        (match fillColour line d p.2 (rayClass c) len with
         | some x => .colour x
         | none => .miss)
      else .pass
    | _, _ => .pass)

/-- R174, R175, R178. The colour of an L0 word and the tag that is written back; the fallback colour carries tag 0. -/
def Filled.px (y : Layer) (f : Filled) (w : Nat) : Rgba × Nat :=
  match f with
  | .pass => (rgbaOf w 1023, bitsOf w 30 2)
  | .colour c => (rgbaOf c 1023, bitsOf w 30 2)
  | .miss => (y.fallback, 0)

/-- R174, R178. The class words of a line of the tile, from column 0. -/
def State.classLine (s : State) (t k : Nat) : Except (Nat × AccErr) (List Nat) :=
  match s.shownHdr t 0 k with
  | none => .ok []
  | some h => match s.vread s.shownCtx (h.clsAddr 0 k) .read (2 * h.width) with
    | .ok bs => .ok ((List.range h.width).map (fun i => leAt bs (2 * i) 2))
    | .error e => .error (h.clsAddr 0 k, e)

/-- R178. After a fault of the class plane: words with a tag and no colour take the L0 fallback colour, the others pass. -/
def darkWord (w : Nat) : Filled := if 1 ≤ bitsOf w 30 2 ∧ w % 2 ^ 30 = 0 then .miss else .pass

/-- R174, R178, R184. What becomes of the L0 words of a line; every skipped ray that the fill takes counts as FILLED, and those without a
candidate as FILL_MISS. -/
def State.fillL0 (s : State) (t k : Nat) (words : List Nat) : State × List Filled :=
  let d := s.sco.level
  if d = 0 ∨ !s.onA (R.CMP_TCTL_FILL_EN t) ∨ s.sco.rmap.isNone then (s, words.map (fun _ => .pass))
  else if (s.scan t).clsFault then (s, words.map darkWord)
  else match s.classLine t k with
    | .error e => ((s.classFault t).cmpFail t 0 s.shownCtx e.1 .read 6 e.2, words.map darkWord)
    | .ok cls =>
      let out := fillWords d (s.fillLine' t k words cls)
      let miss := (out.filter (· == .miss)).length
      let s := s.bumpBy (R.CMP_CNT_COUNT t 4) (out.filter (· != .pass)).length
      (if miss = 0 then s else s.cmpFlag t 5 3 miss 0, out)

/-- R175, R246. The L0 words as read enter the reader's sum. -/
def State.sumL0 (s : State) (t k : Nat) (words : List Nat) : State :=
  let x := s.scan t
  let n := ((words.zip (List.range words.length)).map (fun p => chkTerm k p.2 p.1)).sum
  s.setScan t { x with sum := if s.on R.PNL_CTL_CHK_EN then (x.sum + n) % 2 ^ 32 else x.sum, lines := x.lines + 1 }

/-- R166, R174, R178. Line `k` of L0: the colours, and the tags that R175 writes back. `late`: its data missed the deadline. -/
def State.l0Line (s : State) (t k : Nat) (late : Bool) : State × List (Rgba × Nat) :=
  let y := s.layer t 0
  let w := s.tileW t
  let fall := List.replicate w (y.fallback, 0)
  if !y.en then (s, [])
  else if (s.scan t).late ∨ bitAt (s.scan t).faulted 0 then (s.setScan t { s.scan t with skip := true, lines := (s.scan t).lines + 1 }, fall)
  else if late then ((s.setScan t { s.scan t with skip := true, lines := (s.scan t).lines + 1 }).cmpFlag t 1 1 1 0, fall)
  else match s.vread 0 (s.l0Addr t k) .read (4 * w) with
    | .error e =>
      let s := (s.layerFault t 0).cmpFail t 0 0 (s.l0Addr t k) .read 6 e
      (s.setScan t { s.scan t with lines := (s.scan t).lines + 1 }, fall)
    | .ok bs =>
      let words := bytesWords w bs
      let r := (s.sumL0 t k words).fillL0 t k words
      (r.1, (r.2.zip words).map (fun p => p.1.px y p.2))

/-! ### Blending (R172, R173) -/

/-- R172. The layers from the bottom. -/
def State.layerOrder (s : State) (t : Nat) : List Nat :=
  if s.onA (R.CMP_TCTL_PROG t) then (List.range 8).map (fun i => bitsOf (s.getA (R.CMP_ORDER_ORDER t)) (3 * i) 3) else List.range 8

/-- R173. One component: running colour `cd`, sample `cs` with alpha `as`. -/
def blendCh (mode ga as cs cd : Nat) : Nat :=
  let a := (as * ga + 511) / 1023
  match mode with
  | 0 => (cs * a + cd * (1023 - a) + 511) / 1023
  | 1 => min 1023 ((cs * ga + 511) / 1023 + (cd * (1023 - a) + 511) / 1023)
  | 2 => min 1023 (cd + (cs * a + 511) / 1023)
  | _ => cs

/-- R173. A sample acts on the running colour. -/
def blend (y : Layer) (c : Rgba) (cd : Rgba) : Rgba :=
  ⟨blendCh y.blend y.galpha c.a c.r cd.r, blendCh y.blend y.galpha c.a c.g cd.g, blendCh y.blend y.galpha c.a c.b cd.b, 1023⟩

/-- R173. The composed colour at column `x` from the samples of each layer, bottom to top: first column of coverage and samples. -/
def blendAt (x : Nat) (base : Rgba) (ls : List (Layer × Nat × List (Option Rgba))) : Rgba :=
  ls.foldl (fun cd p =>
    if x < p.2.1 then cd
    else match p.2.2[x - p.2.1]? with
      | some (some c) => blend p.1 c cd
      | _ => cd) base

/-! ### The composed line (R175–R178, R202) -/

/-- R176. The samples of every enabled layer on line `k`, bottom to top, with the tags of L0. `late` names layers whose data came late. -/
def State.sampleLayers (s : State) (t k : Nat) (late : List Nat) :
    List Nat → State × List (Layer × Nat × List (Option Rgba)) × List Nat
  | [] => (s, [], [])
  | l :: ls =>
    if l = 0 then
      let r := s.l0Line t k (late.contains 0)
      let q := r.1.sampleLayers t k late ls
      (q.1, (s.layer t 0, 0, r.2.map (fun p => some p.1)) :: q.2.1, r.2.map Prod.snd)
    else if !(s.layer t l).en ∨ s.sco.passed.contains (t * 8 + l) then s.sampleLayers t k late ls
    else
      let r := s.overlayLine t l k (late.contains l)
      let q := r.1.sampleLayers t k late ls
      (q.1, (s.layer t l, (s.layer t l).dstX, r.2) :: q.2.1, q.2.2)

/-- R177. The composed line is written back; `full` says that the buffer of four lines was full. -/
def State.writeBack (s : State) (t k : Nat) (words : List Nat) (full : Bool) : State :=
  if !s.onA (R.CMP_TCTL_WB_EN t) ∨ (s.scan t).wbStop then s
  else if full then (s.setScan t { s.scan t with wbBad := true }).cmpFlag t 4 6 1 0
  else
    let va := (s.addrOfA (R.CMP_WB_LO_ADDR t) (R.CMP_WB_HI_ADDR t) + k * s.getA (R.CMP_WB_PITCH_PITCH t)) % 2 ^ 48
    match s.vwrite 0 va (wordBytes words) with
    | .ok s' => s'
    | .error e => (s.wbFault t).cmpFail t 0 0 va .write 6 e

/-- R202. A composed line enters the signature. -/
def State.signLine (s : State) (t : Nat) (words : List Nat) : State :=
  s.setScan t { s.scan t with crc := crcRun 0xEDB88320 (s.scan t).crc (wordBytes (words.map (· % 2 ^ 30))), line := words }

/-- R172–R177, R185. Line `k` of a tile is composed. -/
def State.composeLine (s : State) (t k : Nat) (late : List Nat) : State :=
  let base := s.getA (R.CMP_TBASE_COLOUR t)
  if !s.composes t then
    let words := List.replicate (s.tileW t) (base % 2 ^ 30)
    (s.signLine t words).writeBack t k words (late.contains 8)
  else
    let r := s.sampleLayers t k late (s.layerOrder t)
    let words := (List.range (s.tileW t)).map (fun x => (blendAt x (rgbaOf base 1023) r.2.1).word + r.2.2.getD x 0 * 2 ^ 30)
    (r.1.signLine t words).writeBack t k words (late.contains 8)

/-- R242. Is line `k` of a tile sent in this frame: all lines in REFRESH and in a hold frame, else those of updates being sent? -/
def State.lineSent (s : State) (t k : Nat) : Bool :=
  !s.onA (R.PNL_TCTL_MODE t) || s.inHoldFrame t || (s.regions t).any (fun r => r.sending && r.hasLine k)

/-! ### Bands (R11, R83, R246, R247) -/

/-- R62. A ray map that waits with band `b`, which is given up before it starts, waits with the next band of the queue, else for the next
frame. -/
def State.passMap (s : State) (b : Nat) : State :=
  match s.syn.works.find? (fun p => decide (p.2.band = some b) && decide (p.2.started = 0) && p.2.newMap.isSome) with
  | none => s
  | some (k, w) =>
    let s := { s with syn := { s.syn with works := tabPut s.syn.works k { w with newMap := none } } }
    match s.syn.works.find? (fun p => p.2.band.isSome && decide (p.2.band ≠ some b) && decide (p.2.started = 0) && !p.2.abandoned) with
    | some (k', w') => { s with syn := { s.syn with works := tabPut s.syn.works k' { w' with newMap := if w'.newMap.isSome then w'.newMap else w.newMap } } }
    | none => { s with syn := { s.syn with rmapNext := if s.syn.rmapNext.isSome then s.syn.rmapNext else w.newMap } }

/-- R11, R62, R89. The synthesis of a late band is abandoned, and its frame is late; the frame may thereby be measured. -/
def State.abandonBand (s : State) (b : Nat) : State :=
  let s := (s.passMap b).bandLate b
  let s := { s with syn := { s.syn with works := s.syn.works.map (fun (p : Nat × SynWork) => if p.2.band = some b then (p.1, { p.2 with abandoned := true }) else p) } }
  s.measureFrame (true, b - b % zeroActs 1 s.bandCount) 0 false

/-- R11. At a band's first line the ready flag is checked. -/
def State.bandCheck (s : State) (t k : Nat) : State :=
  if !s.bandMode ∨ k % 64 ≠ 0 then s
  else
    let b := s.bandOfLine k
    let ok := s.readyFlag t (b % s.ringDepth)
    let s := s.setScan t { s.scan t with late := !ok, sum := 0, lines := 0, skip := decide (bitAt (s.scan t).faulted 0) }
    if ok then s
    else ((s.setScan t { s.scan t with skip := true }).cmpFlag t 7 8 1 0).abandonBand b

/-- R83, R247. Scan-out leaves a slot after its band's last line: the sums are compared and the ready flag is cleared. -/
def State.leaveSlot (s : State) (t k : Nat) : State :=
  if !s.bandMode ∨ ((k + 1) % 64 ≠ 0 ∧ k + 1 ≠ s.active) then s
  else
    let slot := s.bandOfLine k % s.ringDepth
    let x := s.scan t
    let w := s.writerSum t (s.ringBase t + slot * 64 * s.ringPitch t)
    let s := s.compareSums t w x.sum (decide (x.lines = s.bandLines (k / 64))) x.skip
    s.setReadyFlag t slot false

/-- R176. Line `k` is composed on every enabled tile that sends it. `late` names (tile, layer) whose data came late; layer 8 stands for
a full write-back buffer. -/
def State.composeAll (s : State) (k : Nat) (late : List (Nat × Nat)) : State :=
  let was := s.tilesOn.filter (fun t => (s.scan t).late)
  let s := s.tilesOn.foldl (fun s t =>
    let s := s.bandCheck t k
    let s := if s.lineSent t k then s.composeLine t k ((late.filter (fun p => decide (p.1 = t))).map Prod.snd)
      else s.setScan t { s.scan t with line := [] }
    s.leaveSlot t k) s
  let now := s.tilesOn.filter (fun t => (s.scan t).late && (decide (k % 64 = 0) || !(was.contains t)))
  if s.bandMode ∧ k % 64 = 0 ∧ now ≠ [] then s.scoEvent 6 (now.map (2 ^ ·)).sum else s

end Sys2Proof.Machine
end

