-- ==== Sys2Proof/Machine/Blitter.lean ====
section
/-! DEFINITION. The blitter: records, element order, conversion, hazards, watermarks, halts and waits (R309–R321). -/
namespace Sys2Proof.Machine

/-! ### Records (R309, R310, R312, R318) -/

/-- R321, R322. Is the blitter held by PAUSE or ENABLE? -/
def State.bltHeld (s : State) : Bool := !s.on R.BLT_CTL_ENABLE || s.on R.BLT_CTL_PAUSE
/-- R322. BLT_STAT follows the record in progress. -/
def State.bltStat (s : State) : State :=
  let wait := match s.blt.cur with
    | some c => c.waiting.isSome
    | none => false
  ((s.put R.BLT_STAT_BUSY (b2n s.blt.cur.isSome)).put R.BLT_STAT_HALTED (b2n (s.blt.fault || (s.blt.cur.isSome && s.bltHeld)))).put R.BLT_STAT_WAITING (b2n wait)
/-- Replace the blitter's state. -/
def State.setBlt (s : State) (x : BltSt) : State := ({ s with blt := x } : State).bltStat
/-- The context of the ring and its records. -/
def State.bltCtx (s : State) : Nat := s.get R.BLT_RCFG_RCTX
/-- R322. HEAD advances past a record. -/
def State.bltAdvance (s : State) : State :=
  (s.setBlt { s.blt with cur := none }).put R.BLT_HEAD_HEAD ((s.get R.BLT_HEAD_HEAD + 1) % 2 ^ clampN 2 12 (s.get R.BLT_RCFG_LOG2N))

/-- R310. The fields of a record. -/
def BltRec.op (c : BltRec) : Nat := leAt c.bytes 0 1
def BltRec.flags (c : BltRec) : Nat := leAt c.bytes 1 1
def BltRec.dfmt (c : BltRec) : Nat := leAt c.bytes 2 1 % 16
def BltRec.sfmt (c : BltRec) : Nat := leAt c.bytes 2 1 / 16
def BltRec.w (c : BltRec) : Nat := leAt c.bytes 4 2
def BltRec.h (c : BltRec) : Nat := leAt c.bytes 6 2
def BltRec.dst (c : BltRec) : Nat := leAt c.bytes 8 6
def BltRec.wm (c : BltRec) : Nat := leAt c.bytes 0xE 2
def BltRec.src (c : BltRec) : Nat := leAt c.bytes 0x10 6
def BltRec.value (c : BltRec) : Nat := leAt c.bytes 0x10 8
def BltRec.dpitch (c : BltRec) : Nat := leAt c.bytes 0x18 3
def BltRec.spitch (c : BltRec) : Nat := leAt c.bytes 0x1C 3
/-- COPY and CONVERT read a source. -/
def BltRec.reads (c : BltRec) : Bool := decide (c.op = 2) || decide (c.op = 3)
/-- FILL, COPY and CONVERT write a rectangle. -/
def BltRec.rect (c : BltRec) : Bool := decide (c.op = 1) || c.reads

/-- R312. Bytes of an element. -/
def elemBytes : Nat → Nat
  | 2 => 8 | 5 => 8 | 6 => 2 | 7 => 1 | _ => 4

/-- R318. The reason for which a record is refused, 0 for none; the lowest of those that hold (assumption 36). -/
def BltRec.badReason (c : BltRec) : Nat :=
  let de := elemBytes c.dfmt
  let se := elemBytes c.sfmt
  let isWait := decide (c.op = 5)
  let isFence := decide (c.op = 4)
  if c.op < 1 ∨ 5 < c.op then 1
  else if c.rect ∧ (7 < c.dfmt ∨ 7 < c.sfmt ∨ (c.op = 1 ∧ c.sfmt ≠ 0) ∨ (c.op = 2 ∧ c.sfmt ≠ c.dfmt) ∨ (c.op = 3 ∧ (5 < c.dfmt ∨ 5 < c.sfmt))) then 2
  else if (c.rect ∧ c.dst % de ≠ 0) ∨ (c.reads ∧ c.src % se ≠ 0) ∨ (isFence ∧ c.dst % 4 ≠ 0) then 3
  else if (c.rect ∧ (c.dpitch % de ≠ 0 ∨ c.dpitch < c.w * de ∨ c.dpitch = 0)) ∨ (c.reads ∧ (c.spitch % se ≠ 0 ∨ c.spitch < c.w * se ∨ c.spitch = 0)) then 4
  else if (c.rect ∧ (c.w < 1 ∨ 16384 < c.w ∨ c.h < 1 ∨ 16384 < c.h ∨ c.h < c.wm)) ∨ (isWait ∧ 4095 < c.w) then 5
  else if 8 ≤ c.flags ∨ leAt c.bytes 3 1 ≠ 0 ∨ leAt c.bytes 0x1B 1 ≠ 0 ∨ leAt c.bytes 0x1F 1 ≠ 0 ∨
      (c.op = 1 ∧ (2 ^ (8 * de) ≤ c.value ∨ c.spitch ≠ 0)) ∨ (c.reads ∧ leAt c.bytes 0x16 2 ≠ 0) ∨
      (isFence ∧ (c.flags % 4 ≠ 0 ∨ leAt c.bytes 2 1 ≠ 0 ∨ c.w ≠ 0 ∨ c.h ≠ 0 ∨ c.wm ≠ 0 ∨ c.dpitch ≠ 0 ∨ c.spitch ≠ 0 ∨ leAt c.bytes 0x14 4 ≠ 0)) ∨
      (isWait ∧ (c.flags % 4 ≠ 0 ∨ leAt c.bytes 2 1 ≠ 0 ∨ c.h ≠ 0 ∨ c.dst ≠ 0 ∨ c.wm ≠ 0 ∨ c.value ≠ 0 ∨ c.dpitch ≠ 0 ∨ c.spitch ≠ 0)) then 6
  else 0

/-- R318. A refused record: nothing is written, and the list goes on with the next. -/
def State.bltBad (s : State) (c : BltRec) (reason : Nat) : State :=
  let s := if s.on R.BLT_STAT_BADREC then s else ((s.put R.BLT_BADIDX_INDEX c.index).put R.BLT_BADIDX_REASON reason).put R.BLT_STAT_BADREC 1
  (((s.bump (R.BLT_CNT_COUNT 2)).log 10 0 0 2 2 c.index).raise Irq.BLT_BADREC).bltAdvance

/-- R319. A failure halts the record: index, cause and progress are shown. -/
def State.bltFault (s : State) (index rows cols va : Nat) (acc : Acc) (e : AccErr) : State :=
  let s := s.accFail 0x34 index s.bltCtx va acc 4 e
  let s := ((s.put R.BLT_FAULT_INDEX index).put R.BLT_FAULT_CAUSE (if e.code = 8 then 2 else 1)).put R.BLT_FROW_ROWS rows
  let s := (s.put R.BLT_FCOL_ELEMS cols).setBlt { s.blt with fault := true }
  ((s.bump (R.BLT_CNT_COUNT 3)).log 10 0 0 3 2 index).raise Irq.BLT_FAULT

/-- R309, R318, R319. The record in progress, or the next of the ring once it has been read and found good; `op` is the operation asked
for. A forced test keeps the blitter from the next record (R444). -/
def State.bltTake (s : State) (op : Nat) : State × Option BltRec :=
  if s.bltHeld || s.blt.fault then (s, none)
  else match s.blt.cur with
    | some c => if c.op = op ∧ !c.fin then (s, some c) else (s, none)
    | none =>
      let i := s.get R.BLT_HEAD_HEAD
      if i = s.get R.BLT_TAIL_TAIL ∨ s.testHeld 10 0 then (s, none)
      else
        let va := s.addrOf R.BLT_RBASE_LO_ADDR R.BLT_RBASE_HI_ADDR + 32 * i
        match s.vread s.bltCtx va .read 32 with
        | .error e => (s.bltFault i 0 0 va .read e, none)
        | .ok b =>
          let c : BltRec := ⟨i, b, 0, none, false, false, false⟩
          if c.badReason ≠ 0 then (s.bltBad c c.badReason, none)
          else if c.op ≠ op then (s, none)
          else (s.setBlt { s.blt with cur := some c }, some c)

/-! ### Elements (R311, R313–R315) -/

/-- R314. Row and column of the element that comes at place `k`. -/
def BltRec.at (c : BltRec) (k : Nat) : Nat × Nat :=
  let r := k / c.w
  let x := k % c.w
  (if bitAt c.flags 1 then c.h - 1 - r else r, if bitAt c.flags 0 then c.w - 1 - x else x)

/-- R314. The place of the element at a row and column. -/
def BltRec.place (c : BltRec) (row col : Nat) : Nat :=
  (if bitAt c.flags 1 then c.h - 1 - row else row) * c.w + (if bitAt c.flags 0 then c.w - 1 - col else col)

/-- R315. Has the record written the byte at an address before place `k`? -/
def BltRec.wrote (c : BltRec) (k a : Nat) : Bool :=
  let d := elemBytes c.dfmt
  let row := (a - c.dst) / c.dpitch
  let off := (a - c.dst) % c.dpitch
  decide (c.dst ≤ a) && decide (row < c.h) && decide (off < c.w * d) && decide (c.place row (off / d) < k)

/-- R313. The 10-bit components of an element. -/
def elemCode (fmt v : Nat) : Rgba :=
  match fmt with
  | 4 => pixelCode 3 v
  | 5 => pixelCode 2 v
  | f => pixelCode f v

/-- R313. The binary16 value nearest to c / 1,023, ties to even. -/
def half1023 (c : Nat) : Nat := fround f16 .ne false (c * 2 ^ 40 / 1023) (-40) (decide (c * 2 ^ 40 % 1023 ≠ 0))

/-- R313. The bytes of a destination element. -/
def elemOut (fmt : Nat) (c : Rgba) : List Byte :=
  let c8 := fun v => leBytes 1 ((v * 255 + 511) / 1023)
  match fmt with
  | 0 => leBytes 4 (c.b + c.g * 2 ^ 10 + c.r * 2 ^ 20 + (c.a * 3 + 511) / 1023 * 2 ^ 30)
  | 1 => c8 c.r ++ c8 c.g ++ c8 c.b ++ c8 c.a
  | 2 => leBytes 2 (half1023 c.r) ++ leBytes 2 (half1023 c.g) ++ leBytes 2 (half1023 c.b) ++ leBytes 2 (half1023 c.a)
  | 5 => leBytes 2 (half1023 c.r) ++ leBytes 2 (half1023 c.g) ++ leBytes 2 (half1023 c.b) ++ leBytes 2 0x3C00
  | _ => leBytes 4 (c.b + c.g * 2 ^ 10 + c.r * 2 ^ 20)

/-- R311, R313. The bytes of the element to write, from those read. -/
def BltRec.result (c : BltRec) (src : List Byte) : List Byte :=
  if c.op = 1 then leBytes (elemBytes c.dfmt) c.value
  else if c.sfmt = c.dfmt then src
  else elemOut c.dfmt (elemCode c.sfmt (leNat src))

/-- R315. The record reads a byte that it has written. -/
def State.bltHazard (s : State) (c : BltRec) : State :=
  let s := if s.on R.BLT_STAT_HAZARD then s else (s.put R.BLT_HZIDX_INDEX c.index).put R.BLT_STAT_HAZARD 1
  ((s.bump (R.BLT_CNT_COUNT 1)).log 10 0 0 1 2 c.index).raise Irq.BLT_HAZARD

/-- R246, R314, R319. One element: read, converted and written, or the halt at it. The flag says whether to go on. -/
def State.bltElem (s : State) (c : BltRec) : State × BltRec × Bool :=
  let p := c.at c.pos
  let da := c.dst + p.1 * c.dpitch + p.2 * elemBytes c.dfmt
  let sa := c.src + p.1 * c.spitch + p.2 * elemBytes c.sfmt
  let rd : Except AccErr (List Byte) := if c.reads then s.vread s.bltCtx sa .read (elemBytes c.sfmt) else .ok []
  match rd with
  | .error e => ((s.setBlt { s.blt with cur := some c }).bltFault c.index (c.pos / c.w) (c.pos % c.w) sa .read e, c, false)
  | .ok bs =>
    let hz := c.reads && !c.hazard && (List.range (elemBytes c.sfmt)).any (fun i => c.wrote c.pos (sa + i))
    let s := if hz then s.bltHazard c else s
    let c := { c with hazard := c.hazard || hz }
    match s.vwrite s.bltCtx da (c.result bs) with
    | .error e => ((s.setBlt { s.blt with cur := some c }).bltFault c.index (c.pos / c.w) (c.pos % c.w) da .write e, c, false)
    | .ok s => (if elemBytes c.dfmt = 4 then s.noteBytes s.bltCtx da (c.result bs) else s, { c with pos := c.pos + 1 }, true)

/-- R314. Up to `n` elements of the record. -/
def State.bltElems (s : State) (c : BltRec) : Nat → State
  | 0 => s.setBlt { s.blt with cur := some c }
  | n + 1 =>
    if c.w * c.h ≤ c.pos then s.setBlt { s.blt with cur := some { c with fin := true } }
    else
      let r := s.bltElem c
      if r.2.2 then
        (if r.2.1.w * r.2.1.h ≤ r.2.1.pos then r.1.setBlt { r.1.blt with cur := some { r.2.1 with fin := true } } else r.1.bltElems r.2.1 n)
      else r.1

/-- R309, R311, R314. The record in progress of an operation goes on by up to `n` elements. -/
def State.bltRun (s : State) (op n : Nat) : State :=
  let t := s.bltTake op
  match t.2 with
  | some c => t.1.bltElems c n
  | none => t.1

/-- R311. BLT_FILL: up to `n` elements of a FILL. -/
def execBltFill (n : Nat) (s : State) : Host.Outcome State Fault Refusal := .next (s.bltRun 1 n)
/-- R311, R314. BLT_COPY: up to `n` elements of a COPY. -/
def execBltCopy (n : Nat) (s : State) : Host.Outcome State Fault Refusal := .next (s.bltRun 2 n)
/-- R311, R313. BLT_CONVERT: up to `n` elements of a CONVERT. -/
def execBltConvert (n : Nat) (s : State) : Host.Outcome State Fault Refusal := .next (s.bltRun 3 n)

/-- R311, R319. BLT_FENCE: the fence word is written. -/
def execBltFence (s : State) : Host.Outcome State Fault Refusal :=
  .next (
    let t := s.bltTake 4
    match t.2 with
    | none => t.1
    | some c => match t.1.vwrite t.1.bltCtx c.dst (leBytes 4 (leAt c.bytes 0x10 4)) with
      | .error e => t.1.bltFault c.index 0 0 c.dst .write e
      | .ok s => (s.bump (R.BLT_CNT_COUNT 7)).setBlt { s.blt with cur := some { c with fin := true } })

/-- R311. A WAIT is over; `skip`: because scan-out is not running. -/
def State.waitOver (s : State) (c : BltRec) (skip : Bool) : State :=
  let s := if skip then s.bump (R.BLT_CNT_COUNT 5) else s
  s.setBlt { s.blt with cur := some { c with waiting := none, fin := true } }

/-- R311. BLT_WAIT: a WAIT starts to wait, or is over at once while scan-out is not running. -/
def execBltWait (s : State) : Host.Outcome State Fault Refusal :=
  .next (
    let t := s.bltTake 5
    match t.2 with
    | none => t.1
    | some c =>
      if !t.1.on R.SCO_STAT_RUNNING then t.1.waitOver c true
      else if c.waiting.isSome then t.1
      else t.1.setBlt { t.1.blt with cur := some { c with waiting := some (t.1.frameNo, t.1.sco.line) } })

/-- R311. BLT_WAIT_COMPLETE: the line number has become LINE since the WAIT began, or scan-out has stopped. -/
def execBltWaitComplete (s : State) : Host.Outcome State Fault Refusal :=
  .next (
    let t := s.bltTake 5
    match t.2 with
    | none => s
    | some c => match c.waiting with
      | none => s
      | some p =>
        if !s.on R.SCO_STAT_RUNNING then s.waitOver c true
        else if s.sco.line = c.w ∧ p ≠ (s.frameNo, s.sco.line) then s.waitOver c false
        else s)

/-! ### Watermarks and completion (R309, R317) -/

/-- R317. A record's watermark rows are done: BLT_WMSTAT, the count and the cause, once per record. -/
def State.bltWm (s : State) : State :=
  match s.blt.cur with
  | none => s
  | some c =>
    if !c.rect ∨ c.wm = 0 ∨ c.wmSeen ∨ c.pos < c.wm * c.w then s
    else
      let s := ((s.put R.BLT_WMSTAT_INDEX c.index).put R.BLT_WMSTAT_WM c.wm).setBlt { s.blt with cur := some { c with wmSeen := true } }
      (s.bump (R.BLT_CNT_COUNT 6)).raise Irq.BLT_WM

/-- R317. BLT_WM. -/
def execBltWm (s : State) : Host.Outcome State Fault Refusal := .next s.bltWm

/-- R309, R317. BLT_RECORD_COMPLETE: HEAD advances past a record that is done, after its watermark. -/
def execBltRecordComplete (s : State) : Host.Outcome State Fault Refusal :=
  .next (match s.blt.cur with
    | none => s
    | some c =>
      if !c.fin then s
      else
        let s := (s.bltWm.bump (R.BLT_CNT_COUNT 0)).bltAdvance
        if bitAt c.flags 2 then s.raise Irq.BLT_DONE else s)

/-! ### Resuming, skipping and pausing (R320, R321) -/

/-- R320. RESUME: the halted record goes on from the element after its progress. -/
def State.bltResume (s : State) : State := s.setBlt { s.blt with fault := false }
/-- R320. SKIP: the rest of the halted record is given up. -/
def State.bltSkip (s : State) : State :=
  if s.on R.BLT_STAT_HALTED then ((s.setBlt { s.blt with fault := false }).bltAdvance).bump (R.BLT_CNT_COUNT 4) else s

/-- R320. BLT_RESUME. -/
def execBltResume (s : State) : Host.Outcome State Fault Refusal := .next s.bltResume
/-- R320. BLT_SKIP. -/
def execBltSkip (s : State) : Host.Outcome State Fault Refusal := .next s.bltSkip
/-- R321. BLT_PAUSE: a write of BLT_CTL.ENABLE and PAUSE. -/
def execBltPause (en pause : Bool) (s : State) : Host.Outcome State Fault Refusal :=
  .next (((s.put R.BLT_CTL_ENABLE (b2n en)).put R.BLT_CTL_PAUSE (b2n pause)).bltStat)

end Sys2Proof.Machine
end

