-- ==== Sys2Proof/Machine/Dram.lean ====
section
/-! DEFINITION. The DRAM controllers: queues and hazards, command choice, refresh, ECC and poison, scrubbing, retraining, speed
changes, the mapping lock and lane repair (R324–R344). `mem` is memory as every later read sees it (R106), so an entry of a write queue
holds its granule and byte mask only, and a queued read the bytes that it is to return. -/
namespace Sys2Proof.Machine

/-! ### Controllers and banks (R324, R325) -/

/-- A controller that nothing has changed: empty queues. -/
def ctrlDefault (_ : Nat) : Ctrl :=
  { wq := [], rq := [], fly := [], drain := false, rows := [], refr := [], slots := 0, lanes := [], seq := 0, trainedAt := 0, trainedTemp := 0 }
/-- Controller `k`. -/
def State.ctrl (s : State) (k : Nat) : Ctrl := mapGet ctrlDefault s.dram.ctrls k
/-- Replace controller `k`. -/
def State.setCtrl (s : State) (k : Nat) (c : Ctrl) : State :=
  { s with dram := { s.dram with ctrls := mapPut ctrlDefault s.dram.ctrls k c } }

/-- R325. The pseudo-channel of a physical address. -/
def State.paPc (s : State) (pa : Nat) : Nat := s.hashSel 0 pa
/-- R325. The bank of a physical address within its controller: pseudo-channel × 64 + SID × 16 + bank group × 4 + bank. -/
def State.paBank (s : State) (pa : Nat) : Nat :=
  s.paPc pa * 64 + bitsOf pa 35 2 * 16 + (s.hashSel 7 pa + 2 * s.hashSel 8 pa) * 4 + s.hashSel 9 pa + 2 * s.hashSel 10 pa
/-- R325. The row of a physical address. -/
def paRow (pa : Nat) : Nat := bitsOf pa 21 14
/-- R325. The column of a physical address. -/
def paColumn (pa : Nat) : Nat := bitsOf pa 5 3 + 8 * bitsOf pa 19 2

/-- May the fabric reach HBM now: open (R340), and no change of speed in steps 1 to 5 (R339)? -/
def State.dramOpen (s : State) : Bool := s.hbmOpen && !s.on R.MEM_STAT_CHANGING

/-! ### Reads (R332) -/

/-- The bytes of a granule that a mask asks for. -/
def State.maskBytes (s : State) (g mask : Nat) : List Byte :=
  ((List.range 32).filter (fun i => bitAt mask i)).map (fun i => s.memByte (g * 32 + i))

/-- R332. Does an entry hold every byte asked for? -/
def WqEntry.holds (e : WqEntry) (mask : Nat) : Bool := decide (mask &&& e.mask = mask)

/-- A mask of all 32 bytes of a granule. -/
def wholeMask : Nat := 2 ^ 32 - 1

/-- R332. A granule's entries go to the front of the drain order and begin to drain. -/
def Ctrl.toFront (c : Ctrl) (g : Nat) : Ctrl :=
  { c with wq := (c.wq.filter (fun e => decide (e.granule = g))).map (fun e => { e with front := true, draining := true }) ++
                 c.wq.filter (fun e => decide (e.granule ≠ g)) }

/-- R23, R336, R337, R360, R420, R424. The class of a client's requests: 0 ISO, 1 LOW, 2 NORMAL, 3 BULK. -/
def State.clientClass (s : State) : Client → Nat
  | .composition | .writeBack | .camera | .backlight | .panelDrive => 0
  | .steward | .walk | .context | .health => 1
  | .rayEngine | .tileDecoder | .ispTable => 2
  | .dma engine ring => if ring = 2 then 2 else 2 + s.get (R.DMA_RCFG_CLASS engine ring)
  | .packer | .blitter | .bar2 | .gleaner | .scrubber => 3

/-- R332. The read of the bytes `mask` of granule `g` is compared with the entries of the write queue: forwarded, queued, or queued to wait
for the granule's entries. -/
def State.serveRead (s : State) (g mask tick cls : Nat) : State :=
  let k := s.paController (g * 32)
  let c := s.ctrl k
  let mine := c.wq.filter (fun e => decide (e.granule = g))
  let r : RdReq := { pa := g * 32, mask := mask, cls := cls, tick := tick, seq := c.seq, data := s.maskBytes g mask, waits := false, bad := false }
  match mine.getLast? with
  | none => s.setCtrl k { c with rq := c.rq ++ [r], seq := c.seq + 1 }
  | some e =>
    if e.holds mask then
      if s.poison.contains g && decide (e.mask ≠ wholeMask) then (s.poisonRead (g * 32)).emit (.dramError (g * 32))
      else (s.bump (R.MEM_CNT_COUNT k 2)).emit (.dramData (g * 32) (s.maskBytes g mask))
    else if mine.any (fun x => decide (x.mask &&& mask ≠ 0)) then
      (s.setCtrl k { (c.toFront g) with rq := c.rq ++ [{ r with waits := true }], seq := c.seq + 1 }).bump (R.MEM_CNT_COUNT k 3)
    else s.setCtrl k { c with rq := c.rq ++ [r], seq := c.seq + 1 }

/-! ### Writes (R330, R331) -/

/-- Write the bytes of a granule that a mask names; poison clears where all 32 are covered (R337). -/
def State.maskWrite (s : State) (g mask : Nat) (bs : List Byte) : State :=
  if mask = wholeMask then s.memPut (g * 32) ((List.range 32).map (fun i => bs.getD i 0))
  else foldRange 32 (fun s i => if bitAt mask i then s.memPut (g * 32 + i) [bs.getD i 0] else s) s

/-- R331. The queue after a write to a granule: it merges into the granule's newest entry unless that has begun to drain. -/
def Ctrl.enqueue (c : Ctrl) (g mask : Nat) (iso : Bool) : Ctrl :=
  match findIdx (fun (e : WqEntry) => decide (e.granule = g) && !e.draining) c.wq with
  | some i => (match c.wq[i]? with
    | some e => { c with wq := listSet c.wq i { e with mask := e.mask ||| mask, last := c.seq }, seq := c.seq + 1 }
    | none => c)
  | none => { c with wq := c.wq ++ [{ granule := g, mask := mask, iso := iso, draining := false, front := false, born := c.seq, last := c.seq }], seq := c.seq + 1 }

/-- R330. May a write enter the queue: an ISO one below 64 granules, any other below 56? -/
def Ctrl.accepts (c : Ctrl) (iso : Bool) : Bool := decide (c.wq.length < (if iso then 64 else 56))

/-- R106, R331. A write enters the queue and is acknowledged; every later read sees it. -/
def State.serveWrite (s : State) (g mask : Nat) (bytes : List Byte) (cls : Nat) : State :=
  let k := s.paController (g * 32)
  ((s.setCtrl k ((s.ctrl k).enqueue g mask (decide (cls = 0)))).maskWrite g mask bytes).emit (.dramAck (g * 32))

/-- R336. The mask of a 64-bit word of a granule. -/
def wordMask (word : Nat) : Nat := 0xFF * 2 ^ (8 * (word % 4))

/-- R336. Does a write of these bytes cover a part of some 64-bit word, so that the granule is read to merge it? -/
def merges (mask : Nat) : Bool := (List.range 4).any (fun i => decide (mask &&& wordMask i ≠ 0) && decide (mask &&& wordMask i ≠ wordMask i))

/-! ### ECC and poison (R336, R337, R341) -/

/-- R336, R416. A single-bit error is corrected: counted, logged with its address, and added to the lane's statistics; the first of a second
queues the lane's margin check. -/
def State.eccCorrected (s : State) (k pa lane : Nat) : State :=
  let c := s.ctrl k
  let l := s.paPc pa * 64 + lane
  let old := ((tabGet c.lanes l).getD []).filter (fun t => decide ((s.ticks - t) * 64 < 20625 * 1000000))
  let s := ((s.setCtrl k { c with lanes := tabPut c.lanes l (s.ticks :: old) }).bump (R.MEM_CNT_COUNT k 5)).log 20 0 k 5 1 pa
  if old = [] then { s with hlt := { s.hlt with laneTests := s.hlt.laneTests ++ [(k * 128 + l, s.lastSeq)] } } else s

/-- R337. The reads of a granule that have been queued or issued find it bad. -/
def Ctrl.spoil (c : Ctrl) (g : Nat) : Ctrl :=
  let mark := fun (r : RdReq) => if r.pa / 32 = g then { r with bad := true } else r
  { c with rq := c.rq.map mark, fly := c.fly.map mark }

/-- R336. An uncorrectable error is detected: the granule is poisoned, the error is counted, logged and raised, and the first address is
latched. -/
def State.eccDetected (s : State) (k pa : Nat) : State :=
  let g := pa / 32
  let s := (if s.poison.contains g then s else { s with poison := g :: s.poison }).setCtrl k ((s.ctrl k).spoil g)
  let s := (s.bump (R.MEM_CNT_COUNT k 6)).log 20 0 k 6 2 (g * 32)
  let s := if s.on R.MEM_UE_LO_VALID then s else
    ((s.put R.MEM_UE_LO_ADDR g).put R.MEM_UE_HI_ADDR (g / 2 ^ 27)).put R.MEM_UE_LO_VALID 1
  s.raise Irq.MEM_UE

/-- R336, R337. The granule `g` of controller `k` is read in the DRAM: its poison is met, or its check has the outcome `ecc`. Answers
whether its data are good. -/
def State.dramCheck (s : State) (k g : Nat) (ecc : Ecc) : State × Bool :=
  if s.poison.contains g then (s.poisonRead (g * 32), false)
  else match ecc with
    | .clean => (s, true)
    | .single lane _ => (s.eccCorrected k (g * 32) lane, true)
    | .double => (s.eccDetected k (g * 32), false)

/-- R337. Poison leaves a granule as all of its bytes are written in the DRAM. -/
def State.cleanse (s : State) (g mask : Nat) : State :=
  if mask = wholeMask then { s with poison := s.poison.filter (fun p => decide (p ≠ g)) } else s

/-- R336, R337. A write goes to the DRAM, read and checked first where it covers a part of a word. -/
def State.writeDram (s : State) (k : Nat) (e : WqEntry) (ecc : Ecc) : State :=
  let s := s.bump (R.MEM_CNT_COUNT k 1)
  if merges e.mask then (s.dramCheck k e.granule ecc).1 else s.cleanse e.granule e.mask

/-! ### Atomics (R333) -/

/-- R108, R154, R333. An atomic: the granule's entries drain, the granule is read, and the new value enters the write queue. `cmp` is the
value that a compare-and-swap expects. -/
def State.serveAtomic (s : State) (pa aop : Nat) (wide : Bool) (value : BitVec 64) (cmp : Option (BitVec 64)) (ecc : Ecc) : State :=
  let n := if wide then 8 else 4
  let g := pa / 32
  let k := s.paController pa
  let c := s.ctrl k
  let s := s.setCtrl k { c with wq := c.wq.filter (fun e => decide (e.granule ≠ g)) }
  let s := (c.wq.filter (fun e => decide (e.granule = g))).foldl (fun (s : State) e => s.writeDram k e .clean) s
  let p := (s.bump (R.MEM_CNT_COUNT k 0)).dramCheck k g ecc
  if !p.2 then p.1.emit (.dramError pa)
  else
    let s := p.1
    let old := leNat (s.memBytes pa n)
    let v := value.toNat % 2 ^ (8 * n)
    let new := match cmp with
      | some x => if old = x.toNat % 2 ^ (8 * n) then v else old
      | none => atomicOp aop (8 * n) old v
    let mask := (2 ^ n - 1) * 2 ^ (pa % 32)
    ((s.setCtrl k ((s.ctrl k).enqueue g mask false)).memPut pa (leBytes n new)).emit (.dramData pa (leBytes n old))

/-! ### Requests at the fabric (R330, R333, R339) -/

/-- The granule of a request. -/
def DramReq.granule : DramReq → Nat
  | .read g _ _ _ | .write g _ _ _ | .fix g _ => g
  | .atomic pa _ _ _ _ _ => pa / 32
/-- R23, R336. The class by which held requests go on; an atomic is an engine's request. -/
def DramReq.cls : DramReq → Nat
  | .read _ _ _ c | .write _ _ _ c => c
  | .fix _ _ => 1
  | .atomic _ _ _ _ _ _ => 2
/-- Is it an atomic? -/
def DramReq.isAtomic : DramReq → Bool
  | .atomic _ _ _ _ _ _ => true
  | _ => false

/-- R330, R332, R333, R339. Can the controller take a request, `ahead` being those that came before it and are held? A read needs one of the
32 places of its pseudo-channel's queue, or a forward; a write needs room; an atomic also waits for the earlier reads of its granule;
nothing passes an atomic to its granule, and nothing is taken while the speed changes. -/
def State.takes (s : State) (ahead : List DramReq) (q : DramReq) : Bool :=
  let pa := q.granule * 32
  let c := s.ctrl (s.paController pa)
  !s.on R.MEM_STAT_CHANGING && !ahead.any (fun h => h.isAtomic && decide (h.granule = q.granule)) &&
  match q with
  | .read g mask _ _ =>
    decide ((c.rq.filter (fun x => decide (s.paPc x.pa = s.paPc pa))).length < 32) ||
    ((c.wq.filter (fun e => decide (e.granule = g))).getLast?).any (fun e => e.holds mask)
  | .write _ _ _ cls => c.accepts (decide (cls = 0))
  | .atomic _ _ _ _ _ _ => c.accepts false && !c.rq.any (fun r => decide (r.pa / 32 = q.granule))
  | .fix _ _ => c.accepts false

/-- R330–R333, R336. The controller takes a request. A corrected word is written back unless a newer write to the granule is queued. -/
def State.serve (s : State) : DramReq → State
  | .read g mask tick cls => s.serveRead g mask tick cls
  | .write g mask bytes cls => s.serveWrite g mask bytes cls
  | .atomic pa aop wide value cmp ecc => s.serveAtomic pa aop wide value cmp ecc
  | .fix g word =>
    let k := s.paController (g * 32)
    if (s.ctrl k).wq.any (fun e => decide (e.granule = g)) then s else s.setCtrl k ((s.ctrl k).enqueue g (wordMask word) false)

/-- R330, R339. A request arrives: it is taken, or held at the fabric. -/
def State.arrive (s : State) (q : DramReq) : State :=
  if s.takes s.dram.held q then s.serve q else { s with dram := { s.dram with held := s.dram.held ++ [q] } }

/-- R23, R330, R339. The held requests that can now be taken go on, by class and then by age. -/
def State.release (s : State) : State :=
  ((List.range 4).flatMap (fun c => s.dram.held.filter (fun q => decide (q.cls = c)))).foldl (fun (s : State) q =>
    if s.takes (s.dram.held.takeWhile (fun h => decide (h ≠ q))) q then
      ({ s with dram := { s.dram with held := s.dram.held.erase q } } : State).serve q
    else s) s

/-- R340. Is an address of HBM closed to the fabric? -/
def State.dramShut (s : State) (pa : Nat) : Bool := decide (hbmTop ≤ pa) || !s.hbmOpen

/-- R332, R340. DRAM_READ_REQUEST: a client reads the bytes `mask` of the granule at `pa`. -/
def execDramReadRequest (pa : Nat) (mask : BitVec 32) (client : Client) (s : State) : Host.Outcome State Fault Refusal :=
  .next (if s.dramShut pa then s.emit (.dramError pa)
    else s.arrive (.read (pa / 32) mask.toNat s.ticks (s.clientClass client)))

/-- R331, R340. DRAM_WRITE_REQUEST: a client writes the bytes `mask` of the granule at `pa`. -/
def execDramWriteRequest (pa : Nat) (mask : BitVec 32) (bytes : List Byte) (client : Client) (s : State) : Host.Outcome State Fault Refusal :=
  .next (if s.dramShut pa then s.emit (.dramError pa)
    else s.arrive (.write (pa / 32) mask.toNat bytes (s.clientClass client)))

/-- R333, R340. DRAM_ATOMIC: an atomic on the 4 or 8 bytes at `pa`. -/
def execDramAtomic (pa aop : Nat) (wide : Bool) (arg : AtomArg) (ecc : Ecc) (s : State) :
    Host.Outcome State Fault Refusal :=
  .next (if s.dramShut pa || decide (pa % (if wide then 8 else 4) ≠ 0) then s.emit (.dramError pa)
    else s.arrive (.atomic pa aop wide arg.value arg.cmp ecc))

/-! ### The next command of a pseudo-channel (R328, R329, R334) -/

/-- Units of 10 ns that a read has waited. -/
def RdReq.waited (r : RdReq) (now : Nat) : Nat := (now - r.tick) * 6400 / 20625

/-- R328. The class that a read counts as: one that has waited AGE or longer counts as NORMAL. -/
def State.rank (s : State) (r : RdReq) : Nat :=
  if r.cls = 3 ∧ zeroActs 1 (s.get R.MEM_SCHED_AGE) * 10 ≤ r.waited s.ticks then 2 else r.cls

/-- R328. An urgent ISO read. -/
def State.urgent (s : State) (r : RdReq) : Bool :=
  decide (r.cls = 0) && decide (zeroActs 1 (s.get R.MEM_SCHED_ISO_URGENT) ≤ r.waited s.ticks)

/-- R329. The watermarks in force. -/
def State.highWm (s : State) : Nat :=
  let h := s.get R.MEM_SCHED_HIGH_WM
  if h ≤ s.get R.MEM_SCHED_LOW_WM ∨ 56 < h then 48 else h
/-- R329. The low watermark in force. -/
def State.lowWm (s : State) : Nat :=
  let h := s.get R.MEM_SCHED_HIGH_WM
  if h ≤ s.get R.MEM_SCHED_LOW_WM ∨ 56 < h then 16 else s.get R.MEM_SCHED_LOW_WM

/-- R332. A read that waits for entries of its granule that were there as it arrived may not issue. -/
def Ctrl.blocked (c : Ctrl) (r : RdReq) : Bool :=
  r.waits && c.wq.any (fun e => decide (e.granule = r.pa / 32) && e.front && decide (e.born < r.seq))

/-- R332. An entry does not drain until every read of its granule that came before its newest write has issued, nor before an older entry of
its granule. -/
def Ctrl.heldBack (c : Ctrl) (e : WqEntry) : Bool :=
  c.rq.any (fun r => decide (r.pa / 32 = e.granule) && decide (r.seq < e.last)) ||
  c.wq.any (fun x => decide (x.granule = e.granule) && decide (x.born < e.born))

/-- The first of a list for which nothing later is better. -/
def bestOf {α : Type} (better : α → α → Bool) : List α → Option α
  | [] => none
  | x :: xs => match bestOf better xs with
    | none => some x
    | some y => if better y x then some y else some x

/-- R328. The read to issue: by class, then to an open row, then the oldest. -/
def State.pickRead (s : State) (c : Ctrl) (rs : List RdReq) : Option RdReq :=
  let isOpen := fun (r : RdReq) => decide (tabGet c.rows (s.paBank r.pa) = some (paRow r.pa))
  bestOf (fun y x => decide (s.rank y < s.rank x) || (decide (s.rank y = s.rank x) && isOpen y && !isOpen x)) rs

/-- Issue a read: it leaves the queue, its row is open, and its data will return. -/
def State.issueRead (s : State) (k : Nat) (r : RdReq) : State :=
  let c := s.ctrl k
  (s.setCtrl k { c with rq := c.rq.erase r, fly := c.fly ++ [r], rows := tabPut c.rows (s.paBank r.pa) (paRow r.pa) }).bump (R.MEM_CNT_COUNT k 0)

/-- Issue a write: the entry leaves the queue and goes to the DRAM. -/
def State.issueWrite (s : State) (k : Nat) (e : WqEntry) (ecc : Ecc) : State :=
  let c := s.ctrl k
  (s.setCtrl k { c with wq := c.wq.erase e, rows := tabPut c.rows (s.paBank (e.granule * 32)) (paRow (e.granule * 32)) }).writeDram k e ecc

/-- One refresh of a bank is made. -/
def Ctrl.refreshed (c : Ctrl) (b : Nat) : Ctrl :=
  let n := (tabGet c.refr b).getD 0
  { c with refr := if n ≤ 1 then tabDel c.refr b else tabPut c.refr b (n - 1), rows := tabDel c.rows b }

/-- Does any request wait for a bank? -/
def State.bankWanted (s : State) (c : Ctrl) (b : Nat) : Bool :=
  c.rq.any (fun r => decide (s.paBank r.pa = b)) || c.wq.any (fun e => decide (s.paBank (e.granule * 32) = b))

/-- R329. Start or end a drain by the watermarks. -/
def State.drainState (s : State) (k : Nat) : State :=
  let c := s.ctrl k
  if !c.drain && decide (s.highWm ≤ c.wq.length) then (s.setCtrl k { c with drain := true }).bump (R.MEM_CNT_COUNT k 4)
  else if c.drain && decide (c.wq.length ≤ s.lowWm) then s.setCtrl k { c with drain := false }
  else s

/-- R328, R329. Pseudo-channel `pc` of controller `k` chooses its next command: a refresh that can wait no longer, a write that a read
waits for, an urgent ISO read, the next write of a drain, a read, a write, and last a refresh that no request waits for. All writes drain
while a change of speed empties the queues (R339). -/
def State.dramCommand (s : State) (k pc : Nat) (ecc : Ecc) : State :=
  let s := s.drainState k
  let c := s.ctrl k
  let reads := c.rq.filter (fun r => decide (s.paPc r.pa = pc) && !c.blocked r)
  let writes := c.wq.filter (fun e => decide (s.paPc (e.granule * 32) = pc) && !c.heldBack e)
  match c.refr.find? (fun p => decide (p.1 / 64 = pc) && decide (9 ≤ p.2)) with
  | some p => s.setCtrl k (c.refreshed p.1)
  | none =>
  match writes.find? (fun e => e.front) with
  | some e => s.issueWrite k e ecc
  | none =>
  match s.pickRead c (reads.filter s.urgent) with
  | some r => s.issueRead k r
  | none =>
  match (if c.drain then writes.head? else none) with
  | some e => s.issueWrite k e ecc
  | none =>
  match s.pickRead c reads with
  | some r => s.issueRead k r
  | none =>
  match (if c.rq = [] || s.on R.MEM_STAT_CHANGING then writes.head? else none) with
  | some e => s.issueWrite k e ecc
  | none =>
  match c.refr.find? (fun p => decide (p.1 / 64 = pc) && !s.bankWanted c p.1) with
  | some p => s.setCtrl k (c.refreshed p.1)
  | none => s

/-- R328, R330. DRAM_COMMAND_ISSUE: the next command of a pseudo-channel; requests held at the fabric take the room that it makes. `ecc` is
what the check finds where a write is merged. -/
def execDramCommandIssue (chan : Chan) (ecc : Ecc) (s : State) : Host.Outcome State Fault Refusal :=
  .next (s.dramCommand chan.ctrl chan.pc ecc).release

/-- R334. A refresh of a bank falls due: it is made at once while no request waits for the bank; else up to 8 are
postponed and counted, and a ninth becomes due. -/
def execRefreshDue (ctrl pc bank : Nat) (s : State) : Host.Outcome State Fault Refusal :=
  .next (
    let b := pc * 64 + bank
    let c := s.ctrl ctrl
    let n := (tabGet c.refr b).getD 0
    if s.bankWanted c b then
      let s := s.setCtrl ctrl { c with refr := tabPut c.refr b (n + 1) }
      if n < 8 then s.bump (R.MEM_CNT_COUNT ctrl 11) else s
    else s.setCtrl ctrl { c with rows := tabDel c.rows b })

/-! ### Returns and scrubbing (R336, R337) -/

/-- R336. What a check finds, its kind and place given apart. -/
def eccFound (k : EccKind) (p : EccPlace) : Ecc :=
  match k with
  | .clean => .clean
  | .single => .single p.lane p.word
  | .double => .double

/-- R336. A corrected word is written back to the granule. -/
def State.writeBackFix (s : State) (g : Nat) : Ecc → State
  | .single _ word => s.arrive (.fix g word)
  | _ => s

/-- R336, R337. The data of the oldest issued read of a controller returns; `ecc` is the kind of what its check finds, and `place` where a
single-bit error lies. -/
def execDramReadData (ctrl : Nat) (ecc : EccKind) (place : EccPlace) (s : State) : Host.Outcome State Fault Refusal :=
  .next (match (s.ctrl ctrl).fly with
    | [] => s
    | r :: rest =>
      let s := s.setCtrl ctrl { s.ctrl ctrl with fly := rest }
      let g := r.pa / 32
      if r.bad then (s.poisonRead r.pa).emit (.dramError r.pa)
      else
        let p := s.dramCheck ctrl g (eccFound ecc place)
        if p.2 then (p.1.writeBackFix g (eccFound ecc place)).emit (.dramData r.pa r.data) else p.1.emit (.dramError r.pa))

/-- R337. The patrol scrubber reads its next granule and corrects or poisons it. -/
def execScrubRead (ecc : EccKind) (place : EccPlace) (s : State) : Host.Outcome State Fault Refusal :=
  .next (
    if !s.on R.MEM_CTL_SCRUB_EN || !s.dramOpen then s
    else
      let g := s.dram.scrub
      let k := s.paController (g * 32)
      let s : State := { s with dram := { s.dram with scrub := if hbmTop ≤ (g + 1) * 32 then 0 else g + 1 } }
      let p := (s.bump (R.MEM_CNT_COUNT k 0)).dramCheck k g (eccFound ecc place)
      if p.2 then
        (match ecc with
         | .single => (p.1.bump (R.MEM_CNT_COUNT k 7)).writeBackFix g (eccFound ecc place)
         | _ => p.1)
      else p.1)

/-! ### Retraining (R338, R342) -/

/-- R338. Retraining of a channel falls due: 64 slots. -/
def State.retrainDue (s : State) (k : Nat) : State :=
  (s.setCtrl k { s.ctrl k with slots := 64 }).put (R.MEM_CHSTAT_RETRAINING k) 1

/-- R343. The temperature last read of the stack of controller `k`, in °C. -/
def State.stackTemp (s : State) (k : Nat) : Int := toInt 8 (s.get (R.MEM_STKTEMP_TEMP (k / 16)))

/-- R338. A channel has been trained: time and temperature are noted. -/
def State.trainedNow (s : State) (k : Nat) : State :=
  s.setCtrl k { s.ctrl k with trainedAt := s.ticks, trainedTemp := s.stackTemp k }

/-- R338, R342. Have PERIOD ms passed since the channel's last retraining, or has its stack moved by DTEMP °C or more since? -/
def State.retrainOld (s : State) (k : Nat) : Bool :=
  let c := s.ctrl k
  decide (1000 * max 10 (s.get R.MEM_RETRAIN_PERIOD) ≤ tickUs c.trainedAt s.ticks) ||
  decide (clampN 1 31 (s.get R.MEM_RETRAIN_DTEMP) ≤ (s.stackTemp k - c.trainedTemp).natAbs)

/-- R338. RETRAIN_DUE: periodic retraining of a channel falls due by time or temperature. -/
def execRetrainDue (ctrl : Nat) (s : State) : Host.Outcome State Fault Refusal :=
  .next (if s.on R.MEM_CTL_RETRAIN_EN && !s.on (R.MEM_CHSTAT_RETRAINING ctrl) && s.retrainOld ctrl then s.retrainDue ctrl else s)

/-- R342. NOW makes retraining of every channel due. -/
def State.retrainAll (s : State) : State := foldRange 64 State.retrainDue s

/-- R342. A write of 1 to MEM_RETRAIN.NOW. -/
def execRetrainNow (s : State) : Host.Outcome State Fault Refusal := .next s.retrainAll

/-! ### The mapping (R326) -/

/-- R325. The base bit of selector `i`. -/
def baseBit (i : Nat) : Nat := 8 + i

/-- R326. Is the set of masks valid: each includes its own base bit, and no other selector's? -/
def State.masksOk (s : State) : Bool :=
  (List.range 11).all (fun i => (List.range 11).all (fun j => bitAt (s.hashMask i) (baseBit j) == decide (i = j)))

/-- R326. Setting MAP_LOCK checks the masks and locks the mapping, or sets MAP_ERR. -/
def State.mapLock (s : State) : State :=
  if s.on R.MEM_CTL_MAP_LOCK then s
  else if s.masksOk then s.put R.MEM_CTL_MAP_LOCK 1
  else (s.put R.MEM_STAT_MAP_ERR 1).raise Irq.MEM_MAP_ERR

/-- R326. A write of 1 to MEM_CTL.MAP_LOCK. -/
def execMapLock (s : State) : Host.Outcome State Fault Refusal := .next s.mapLock

/-- R340, R344. Initial training completes. -/
def execInitialTrainingDone (s : State) : Host.Outcome State Fault Refusal := .next ((foldRange 64 State.trainedNow s).put R.MEM_STAT_TRAINED 1)

/-! ### Lane repair (R341) -/

/-- R341. A failing lane of a byte: remapped to the byte's spare, or the channel is marked DEGRADED where the spare is used. -/
def State.repairLane (s : State) (k pc lane : Nat) : State :=
  let byte := lane / 8 % 4
  let f := if pc = 0 then R.MEM_CHSTAT_SPARES0 k else R.MEM_CHSTAT_SPARES1 k
  let sp := s.get f
  if bitAt sp byte && !s.hlt.exercise.contains (8 * k + 4 * pc + byte) then
    let s := ((s.put f (sp - 2 ^ byte)).bump (R.MEM_CNT_COUNT k 10)).log 20 0 k 10 0 (pc * 64 + lane)
    let s := s.setCtrl k { s.ctrl k with lanes := tabDel (s.ctrl k).lanes (pc * 64 + lane) }
    (s.bump (R.HLT_CNT_COUNT 6)).ledgerAsk 0x22 [k, pc, lane]
  else if s.on (R.MEM_CHSTAT_DEGRADED k) then s
  else (s.put (R.MEM_CHSTAT_DEGRADED k) 1).raise Irq.MEM_DEGRADED

/-! ### Speed changes (R339, R340) -/

/-- R339. A request is refused with a reason. -/
def State.speedRefuse (s : State) (why : Nat) : State := (s.put R.MEM_SPEED_REFUSED 1).put R.MEM_SPEED_REASON why

/-- R339, R340. A write of 1 to MEM_SPEED.GO with the REQ that stands there. -/
def State.speedGo (s : State) : State :=
  let req := s.get R.MEM_SPEED_REQ
  if s.on R.MEM_STAT_CHANGING then s.speedRefuse 2
  else if req = 3 then s.speedRefuse 3
  else if req = s.get R.MEM_STAT_SPEED then s.put R.MEM_STAT_PENDING 0
  else { (s.put R.MEM_STAT_PENDING 1) with dram := { s.dram with target := req, goAt := s.ticks } }

/-- R339. A write of MEM_SPEED with GO. -/
def execSpeedGo (req : Nat) (camWait : Bool) (s : State) : Host.Outcome State Fault Refusal :=
  .next ((s.put R.MEM_SPEED_REQ req).put R.MEM_SPEED_CAM_WAIT (b2n camWait)).speedGo

/-- R339, R340. No suitable blanking came within 1 s; a request waits for initial training however long that takes. -/
def execSpeedChangeTimeout (s : State) : Host.Outcome State Fault Refusal :=
  .next (if s.on R.MEM_STAT_PENDING && s.on R.MEM_STAT_TRAINED && decide (1000000 ≤ tickUs s.dram.goAt s.ticks) then (s.put R.MEM_STAT_PENDING 0).speedRefuse 1 else s)

/-- R340. A retraining in progress is abandoned. -/
def State.dropRetraining (s : State) : State :=
  foldRange 64 (fun s k =>
    if (s.ctrl k).slots = 0 then s
    else
      let s := (s.setCtrl k { s.ctrl k with slots := 0 }).put (R.MEM_CHSTAT_RETRAINING k) 0
      { s with dram := { s.dram with redo := true } }) s

/-- R339. Are all read and write queues empty? -/
def State.queuesEmpty (s : State) : Bool := s.dram.ctrls.all (fun p => decide (p.2.wq = []) && decide (p.2.rq = []) && decide (p.2.fly = []))

/-- R339, R340. The change completes, once the queues have drained: requests flow again, a retraining that was abandoned is due on every
channel, and the lane repairs that waited are made. -/
def execSpeedChangeDone (s : State) : Host.Outcome State Fault Refusal :=
  .next (
    if !s.on R.MEM_STAT_CHANGING || !s.queuesEmpty then s
    else
      let s := ((s.put R.MEM_STAT_CHANGING 0).put R.MEM_STAT_SPEED s.dram.target).put R.MEM_SPEED_DONE 1
      let s := foldRange 64 (fun (s : State) k => s.setCtrl k { s.ctrl k with rows := [], drain := false }) s
      let s := if s.dram.redo then { s with dram := { s.dram with redo := false } }.retrainAll else s
      let due := s.dram.repairs
      let s := due.foldl (fun (s : State) x => s.repairLane x.1 x.2.1 x.2.2) ({ s with dram := { s.dram with repairs := [] } } : State)
      (s.raise Irq.MEM_SPEED_DONE).release)

/-! ### Lane repairs due (R340, R341) -/

/-- R340, R341. A data lane is failing, by its corrections within one second or by its margin; the repair waits for a change of
speed to end. -/
def execLaneRepair (ctrl pc lane : Nat) (margin : Bool) (s : State) : Host.Outcome State Fault Refusal :=
  .next (
    let n := (((tabGet (s.ctrl ctrl).lanes (pc * 64 + lane)).getD []).filter (fun t => decide ((s.ticks - t) * 64 < 20625 * 1000000))).length
    if !s.on R.MEM_CTL_REPAIR_EN || !(margin || decide (zeroActs 1 (s.get R.MEM_REPAIR_CE_LIM) ≤ n)) then s
    else if s.on R.MEM_STAT_CHANGING then { s with dram := { s.dram with repairs := s.dram.repairs ++ [(ctrl, pc, lane)] } }
    else s.repairLane ctrl pc lane)

end Sys2Proof.Machine
end

