-- ==== Sys2Proof/Machine/Mmu.lean ====
section
/-! DEFINITION. The MMU's commands (R345–R356, R366, R367): requests and walks, invalidation, the save maps, the lock of context
0, and the closing of error-log windows (R422). -/
namespace Sys2Proof.Machine

/-- R355. The ACCESS code of an access. -/
def accOf : Nat → Acc
  | 0 => .read | 1 => .write | 2 => .fetch | _ => .atomic

/-- Replace the MMU's state. -/
def State.setMmu (s : State) (m : MmuSt) : State := { s with mmu := m }

/-- R346, R351. A client's address is translated: a cached translation serves it, else a page walk starts, 32 at once. -/
def execTranslationRequest (client ctx va acc : Nat) (s : State) : Host.Outcome State Fault Refusal :=
  .next (
    if !s.ctxOn ctx || decide (2 ^ 48 ≤ va) then s
    else if s.mmu.tlb.any (fun e => e.covers ctx va) then s
    else if 32 ≤ s.mmu.walks.length then s.bump (R.MMU_CNT_COUNT 0)
    else
      let s := (s.bump (R.MMU_CNT_COUNT 0)).bump (R.MMU_CNT_COUNT 1)
      s.setMmu { s.mmu with walks := s.mmu.walks ++ [{ client := client, ctx := ctx, va := va, acc := accOf acc, retry := false }] })

/-- R349, R351. Fill the shared TLB of 8,192 entries. -/
def State.tlbFill (s : State) (e : TlbEntry) : State :=
  let rest := s.mmu.tlb.filter (fun x => decide (x ≠ e))
  s.setMmu { s.mmu with tlb := (e :: rest).take 8192 }

/-- R351. The table entries of a walk fill the walk cache of 512. -/
def State.walkFill (s : State) (ctx va : Nat) : State :=
  let es := s.walkTables ctx va (s.walkStart ctx va).1 (s.walkStart ctx va).2
  s.setMmu { s.mmu with wcache := (es ++ s.mmu.wcache.filter (fun e => !es.contains e)).take 512 }

/-- R349, R353, R354. Walk `i` completes: it fills the caches, or yields a cause, which TRANSLATION_FAULT reports. A walk that an
accepted invalidation covers is made again from the tables as they then stand. -/
def execWalkComplete (i : Nat) (s : State) : Host.Outcome State Fault Refusal :=
  .next (match s.mmu.walks[i]? with
    | none => s
    | some w =>
      if w.retry then (s.setMmu { s.mmu with walks := listSet s.mmu.walks i { w with retry := false } }).bump (R.MMU_CNT_COUNT 6)
      else
        let s := s.setMmu { s.mmu with walks := s.mmu.walks.eraseIdx i }
        match s.walk w.ctx w.va with
        | .ok e => (s.walkFill w.ctx w.va).tlbFill e
        | .error c => s.walkRead w.ctx w.va c)

/-- R354–R356. A translation failure is reported. -/
def execTranslationFault (client id ctx va acc cls cause : Nat) (s : State) : Host.Outcome State Fault Refusal :=
  .next (s.mmuFault client id ctx va (accOf acc) cls cause)

/-- R422. The coalescing window of an open log entry closes, 1 ms after its first occurrence. -/
def execLogWindowClose (i : Nat) (s : State) : Host.Outcome State Fault Refusal :=
  .next (match s.logWin[i]? with
    | none => s
    | some w => if withinMs w.firstTick s.ticks then s else { s with logWin := s.logWin.eraseIdx i })

/-- R345. A write of 1 to LOCK0: it stays 1 until reset. -/
def execLock0 (s : State) : Host.Outcome State Fault Refusal := .next (s.put R.MMU_CTL_LOCK0 1)

/-! ### The save maps (R366) -/

/-- R366. The pages from `va` to `fin` of a save area: each valid, writable, pinned and of 64 KiB or more. -/
def State.savePages (s : State) (ctx fin : Nat) : Nat → Nat → Option (List TlbEntry)
  | 0, _ => none
  | n + 1, va =>
    if fin ≤ va then some []
    else match s.walk ctx va with
      | .error _ => none
      | .ok e =>
        if !e.w || !e.pin || decide (e.log2 < 16) then none
        else match s.savePages ctx fin n (e.va + 2 ^ e.log2) with
          | none => none
          | some rest => some (e :: rest)

/-- R125. Offset of hamlet `h` in a save area. -/
def saveOff (h : Nat) : Nat := 0x1000 + h * 0x511000

/-- R366. The entries of a hamlet's save map that serve other launches. -/
def State.saveOthers (s : State) (k h : Nat) : Nat :=
  (s.mmu.saveMap.map (fun p => if p.1 % 16 = h ∧ p.1 / 16 ≠ k then p.2.length else 0)).sum

/-- R366. A hamlet's part of the save area of launch `k`, with the group header for the lowest hamlet. -/
def State.saveMapOf (s : State) (k ctx save h : Nat) (lowest : Bool) : Option (List TlbEntry) :=
  match (if lowest then s.savePages ctx (save + 0x1000) 130 save else some []), s.savePages ctx (save + saveOff h + 0x511000) 130 (save + saveOff h) with
  | some a, some b =>
    let all := a ++ b.filter (fun e => !a.contains e)
    if !s.ctxOn ctx || decide (2 ^ 48 < save + saveOff h + 0x511000) || decide (128 < all.length + s.saveOthers k h) then none else some all
  | _, _ => none

/-- The hamlets of a mask. -/
def maskList (n m : Nat) : List Nat := (List.range n).filter (fun h => bitAt m h)

/-- R366. The save maps of a launch that starts; none where the area is refused. -/
def State.saveMaps (s : State) (k : Nat) (d : LaunchDesc) : Option (List (Nat × List TlbEntry)) :=
  let hs := maskList 16 d.hmask
  hs.foldr (fun h r => match r, s.saveMapOf k d.ctx d.save h (hs.head? == some h) with
    | some m, some p => some (tabPut m (k * 16 + h) p)
    | _, _ => none) (some [])

/-- R366. SAVE_REFUSED is set and counted, and logged. -/
def State.saveRefused (s : State) : State := ((s.put R.MMU_STAT_SAVE_REFUSED 1).bump (R.MMU_CNT_COUNT 5)).log 4 0 0 5 0 0

/-! ### Invalidation (R352, R353, R367) -/

/-- R352. Does a request cover a range of a context? -/
def InvReq.covers (r : InvReq) (ctx va len : Nat) : Bool :=
  match r.scope with
  | 0 => true
  | 1 => decide (r.ctx = ctx)
  | _ => decide (r.ctx = ctx) && decide (va < r.addr + 4096 * r.pages) && decide (r.addr < va + len)

/-- R352. Does a request drop a walk-cache entry? A range drops every one of its context. -/
def InvReq.drops (r : InvReq) (e : WalkEntry) : Bool := decide (r.scope = 0) || decide (r.ctx = e.ctx)

/-- The invalidation queue of a port. -/
def State.invQueue (s : State) (port : Nat) : List InvReq := (tabGet s.mmu.invq port).getD []

/-- R352, R353. A request is queued on a port: scope 3 is refused and a ninth waiting request is not taken (assumption 26); walks in
flight that it covers will be made again. -/
def State.invGo (s : State) (port : Nat) : State :=
  let scope := s.get (R.MMU_INV_A_SCOPE port)
  let q := s.invQueue port
  if scope = 3 ∨ 8 ≤ q.length then s
  else
    let s := s.bump (R.MMU_INV_SEQ_QSEQ port)
    let r : InvReq := { seq := s.get (R.MMU_INV_SEQ_QSEQ port), scope := scope, ctx := s.get (R.MMU_INV_A_CTX port),
                        addr := s.addrOf (R.MMU_INV_ADDR_LO_ADDR port) (R.MMU_INV_ADDR_HI_ADDR port),
                        pages := zeroActs 1 (s.get (R.MMU_INV_PAGES_PAGES port)) }
    s.setMmu { s.mmu with invq := tabPut s.mmu.invq port (q ++ [r]),
                          walks := s.mmu.walks.map (fun w => if r.covers w.ctx (w.va / 4096 * 4096) 4096 then { w with retry := true } else w) }

/-- R352. A write of 1 to MMU_INV_A.GO, with the CTX and SCOPE written. -/
def execInvalidate (port ctx scope : Nat) (s : State) : Host.Outcome State Fault Refusal :=
  .next (((s.put (R.MMU_INV_A_CTX port) ctx).put (R.MMU_INV_A_SCOPE port) scope).invGo port)

/-- R367. Walk the covered pages of a save map again; where that fails and the launch runs, it can no longer be saved; where the
launch is saved, its restore will meet the failure. -/
def State.rewalkSave (s : State) (r : InvReq) (key : Nat) (es : List TlbEntry) : State :=
  if es.any (fun e => r.covers e.ctx e.va (2 ^ e.log2)) then
    match s.launch (key / 16) with
    | none => s.setMmu { s.mmu with saveMap := tabDel s.mmu.saveMap key }
    | some l =>
      match s.saveMapOf (key / 16) l.desc.ctx l.desc.save (key % 16) ((maskList 16 l.desc.hmask).head? == some (key % 16)) with
      | some m => s.setMmu { s.mmu with saveMap := tabPut s.mmu.saveMap key m }
      | none =>
        let s := s.setMmu { s.mmu with saveMap := tabDel s.mmu.saveMap key }
        if bitAt l.savedMask (key % 16) then s else (s.setLaunch (key / 16) { l with noSave := true }).saveRefused
  else s

/-- R352, R367. The oldest request of a port is done: no cache holds a translation that it covers. It waits while a hamlet whose save
map it covers saves or restores. -/
def execInvalidationDone (port : Nat) (s : State) : Host.Outcome State Fault Refusal :=
  .next (match s.invQueue port with
    | [] => s
    | r :: rest =>
      let held := (List.range 16).any (fun h => (s.hamlet h).phase != .normal &&
        s.mmu.saveMap.any (fun p => decide (p.1 % 16 = h) && p.2.any (fun e => r.covers e.ctx e.va (2 ^ e.log2))))
      if held then s
      else
        let s := s.setMmu { s.mmu with invq := tabPut s.mmu.invq port rest,
                                       wcache := s.mmu.wcache.filter (fun e => !r.drops e),
                                       tlb := s.mmu.tlb.filter (fun e => !r.covers e.ctx e.va (2 ^ e.log2)) }
        let s := s.mmu.saveMap.foldl (fun s p => s.rewalkSave r p.1 p.2) s
        (s.put (R.MMU_INV_SEQ_DSEQ port) r.seq).bump (R.MMU_CNT_COUNT 4))

end Sys2Proof.Machine
end

