-- ==== Sys2Proof/Machine/Dma.lean ====
section
/-! DEFINITION. The DMA engines (R360–R365): descriptors, elements, completion records, halting and resuming. -/
namespace Sys2Proof.Machine

/-- What a ring without a descriptor holds. -/
def dmaDefault (_ : Nat) : DmaRing := ⟨none, 0, 0, none, 0⟩
/-- Ring `r` of engine `e`. -/
def State.dmaRing (s : State) (e r : Nat) : DmaRing := mapGet dmaDefault s.dma.rings (e * 4 + r)
/-- Replace ring `r` of engine `e`; PROW, PBYTE and BUSY follow it (R364). -/
def State.setDmaRing (s : State) (e r : Nat) (x : DmaRing) : State :=
  let s := { s with dma := { s.dma with rings := mapPut dmaDefault s.dma.rings (e * 4 + r) x } }
  ((s.put (R.DMA_PROW_ROWS_DONE e r) x.rows).put (R.DMA_PBYTE_BYTES_DONE e r) x.bytes).put (R.DMA_RSTAT_BUSY e r) (b2n x.cur.isSome)

/-- R360. The context of a ring: RCFG.CTX, or on ring 2 the context of the launch that holds the hamlet. -/
def State.dmaCtx (s : State) (e r : Nat) : Nat :=
  if r = 2 then
    match (s.hamlet e).holder.bind s.launch with
    | some l => l.desc.ctx
    | none => 64
  else s.get (R.DMA_RCFG_CTX e r)

/-- R360, R371. Does the engine serve the ring: it is on, has a descriptor, and is neither halted nor paused? Ring 0 with context 0
serves nothing. -/
def State.dmaRunnable (s : State) (e r : Nat) : Bool :=
  s.on (R.DMA_RCFG_EN e r) && !s.on (R.DMA_RSTAT_HALTED e r) && !s.on (R.DMA_RCTL_PAUSE e r) &&
  !(decide (r = 0) && decide (s.get (R.DMA_RCFG_CTX e 0) = 0)) &&
  ((s.dmaRing e r).cur.isSome || decide (s.get (R.DMA_HEAD_HEAD e r) ≠ s.get (R.DMA_TAIL_TAIL e r))) &&
  (s.dmaRing e r).stop.isNone && !(decide (r = 2) && decide ((s.hamlet e).phase ≠ .normal))

/-- R360. A ring moves data while no ring served before it does: ring 2, then 1, then 0. -/
def State.dmaServed (s : State) (e r : Nat) : Bool :=
  s.dmaRunnable e r && (List.range 3).all (fun q => decide (q ≤ r) || !s.dmaRunnable e q)

/-- R360, R371. The number of entries of a ring. -/
def State.dmaSize (s : State) (e r : Nat) : Nat := 2 ^ clampN 2 12 (s.get (R.DMA_RCFG_LOG2N e r))

/-- R361. The descriptor that 64 bytes hold; `bad` where it breaks the rules for ring `r` with context `ctx`. -/
def DmaDesc.ofBytes (r ctx : Nat) (b : List Byte) : DmaDesc :=
  let op := leAt b 0 1
  let fill := decide (op = 2)
  let rb := leAt b 0x18 4
  let rows := leAt b 0x1C 4
  let sp := leAt b 0x20 4
  let dp := leAt b 0x24 4
  let bad := decide (op ≠ 1 ∧ op ≠ 2) || decide (leAt b 2 1 ≠ (if r = 2 then 0 else ctx)) || decide (rb < 1 ∨ 2 ^ 30 < rb) ||
    decide (rows < 1 ∨ 65536 < rows) || (if !fill && decide (1 < rows) then decide (sp < rb) else decide (sp ≠ 0)) ||
    (if 1 < rows then decide (dp < rb) else decide (dp ≠ 0)) || decide (leAt b 0x28 8 % 32 ≠ 0) ||
    (fill && (decide (rb % 4 ≠ 0) || decide (leAt b 0x10 8 % 4 ≠ 0) || decide (leAt b 0xC 4 ≠ 0)))
  { fill := fill, db := bitAt (leAt b 1 1) 0, tag := leAt b 4 4, src := leAt b 8 8, dst := leAt b 0x10 8, rowBytes := rb, rows := rows,
    spitch := sp, dpitch := dp, done := leAt b 0x28 8, bad := bad }

/-- R355. The ID of a DMA failure. -/
def dmaId (e r i : Nat) : Nat := e + 16 * r + 64 * i

/-- R364. A ring stops on a failure: the access is reported, and DMA_DESCRIPTOR_COMPLETE halts the ring. -/
def State.dmaStop (s : State) (e r va : Nat) (acc : Acc) (err : AccErr) : State :=
  let s := s.accFail (0x10 + e) (dmaId e r (s.get (R.DMA_HEAD_HEAD e r))) (s.dmaCtx e r) va acc 4 err
  s.setDmaRing e r { s.dmaRing e r with stop := some 1, cause := err.code }

/-- R361, R444. Take the descriptor at HEAD of a ring without one, unless a forced test holds the engine; a failed read stops the ring. -/
def State.dmaFetch (s : State) (e r : Nat) : State :=
  if (s.dmaRing e r).cur.isSome || s.testHeld 5 e then s
  else
    let va := s.addrOf (R.DMA_RBASE_LO_ADDR e r) (R.DMA_RBASE_HI_ADDR e r) + 64 * (s.get (R.DMA_HEAD_HEAD e r) % s.dmaSize e r)
    match s.vread (s.dmaCtx e r) va .read 64 with
    | .error err => s.dmaStop e r va .read err
    | .ok b =>
      let d := DmaDesc.ofBytes r (s.dmaCtx e r) b
      s.setDmaRing e r { cur := some d, rows := 0, bytes := 0, stop := if d.bad then some 0x10 else none, cause := 0 }

/-- Bytes moved count in MiB (R371). -/
def State.dmaMoved (s : State) (e n : Nat) : State :=
  let m := (tabGet s.dma.moved e).getD 0 + n
  ({ s with dma := { s.dma with moved := tabPut s.dma.moved e (m % 2 ^ 20) } }).bumpBy (R.DMA_CNT_COUNT e 1) (m / 2 ^ 20)

/-- R361. Byte `i` of a row of a FILL: the pattern's bytes in turn. -/
def fillBytes (pat off n : Nat) : List Byte := (List.range n).map (fun i => BitVec.ofNat 8 (pat / 256 ^ ((off + i) % 4)))

/-- R362. Move the next element of the descriptor: the part of the row within one 64-byte-aligned block of the destination. -/
def State.dmaElement (s : State) (e r : Nat) : State :=
  let x := s.dmaRing e r
  match x.cur, x.stop with
  | some d, none =>
    let ctx := s.dmaCtx e r
    let dst := (d.dst + x.rows * d.dpitch + x.bytes) % 2 ^ 64
    let src := (d.src + x.rows * d.spitch + x.bytes) % 2 ^ 64
    let n := min (64 - dst % 64) (d.rowBytes - x.bytes)
    match (if d.fill then .ok (fillBytes d.src x.bytes n) else s.vread ctx src .read n) with
    | .error err => s.dmaStop e r src .read err
    | .ok bs => match s.vwrite ctx dst bs with
      | .error err => s.dmaStop e r dst .write err
      | .ok s =>
        let s := s.dmaMoved e n
        let x := if x.bytes + n = d.rowBytes then { x with rows := x.rows + 1, bytes := 0 } else { x with bytes := x.bytes + n }
        s.setDmaRing e r { x with stop := if x.rows = d.rows then some 0 else none }
  | _, _ => s

/-- R362. Up to `n` elements in order. -/
def State.dmaElements (e r : Nat) : Nat → State → State
  | 0, s => s
  | n + 1, s => State.dmaElements e r n (s.dmaElement e r)

/-- R361, R362. A descriptor of the kind given moves up to `n` elements. -/
def State.dmaRun (s : State) (e r n : Nat) (fill : Bool) : State :=
  if !s.dmaServed e r then s
  else
    let t := s.dmaFetch e r
    match (t.dmaRing e r).cur with
    | some d => if d.bad then t else if d.fill = fill then State.dmaElements e r n t else s
    | none => t

/-- R362 COPY: up to `n` elements of the ring's descriptor. -/
def execDmaCopy (engine ring n : Nat) (s : State) : Host.Outcome State Fault Refusal := .next (s.dmaRun engine ring n false)
/-- R361 FILL: up to `n` elements of the ring's descriptor. -/
def execDmaFill (engine ring n : Nat) (s : State) : Host.Outcome State Fault Refusal := .next (s.dmaRun engine ring n true)

/-- R363. Write the completion record with a STATUS; a record that cannot be written is dropped and counted. -/
def State.dmaRecord (s : State) (e r status : Nat) : State :=
  let x := s.dmaRing e r
  match x.cur with
  | none => s
  | some d =>
    let s := if d.done = 0 ∨ d.done % 32 ≠ 0 then s
      else match s.vwrite (s.dmaCtx e r) d.done (leBytes 4 d.tag ++ leBytes 2 status ++ zeros 2 ++ leBytes 4 x.rows ++ leBytes 4 x.bytes ++
          leBytes 8 s.ptpNs ++ zeros 8) with
        | .ok s => s
        | .error err => (s.accFail (0x10 + e) (dmaId e r (s.get (R.DMA_HEAD_HEAD e r))) (s.dmaCtx e r) d.done .write 9 err).bump (R.DMA_CNT_COUNT e 6)
    if d.db then s.deviceDoorbell (s.get (R.DMA_RCFG_DB_RING e r)) (s.get (R.DMA_HEAD_HEAD e r)) else s

/-- R363. HEAD advances past the descriptor. -/
def State.dmaAdvance (s : State) (e r : Nat) : State :=
  (s.put (R.DMA_HEAD_HEAD e r) ((s.get (R.DMA_HEAD_HEAD e r) + 1) % s.dmaSize e r)).setDmaRing e r (dmaDefault 0)

/-- R363, R364. A descriptor completes (its record is written and HEAD advances), or halts its ring with HEAD left at it. -/
def execDmaDescriptorComplete (engine ring : Nat) (s : State) : Host.Outcome State Fault Refusal :=
  .next (
    let s := if s.dmaRunnable engine ring then s.dmaFetch engine ring else s
    match (s.dmaRing engine ring).stop with
    | none => s
    | some 1 =>
      if s.on (R.DMA_RSTAT_HALTED engine ring) then s
      else
        let s := s.dmaRecord engine ring 1
        let s := (s.put (R.DMA_RSTAT_HALTED engine ring) 1).put (R.DMA_RSTAT_CAUSE engine ring) (s.dmaRing engine ring).cause
        ((s.bump (R.DMA_CNT_COUNT engine 2)).log 5 0 engine 2 2 ring).raise Irq.DMA_HALT
    | some st =>
      let s := s.dmaRecord engine ring st
      let s := s.bump (R.DMA_CNT_COUNT engine (if st = 0 then 0 else 5))
      let s := if st = 0 then s else (s.log 5 0 engine 5 2 ring).raise Irq.DMA_BADDESC
      s.dmaAdvance engine ring)

/-- R368. Where the writes to a ring go: for ring 2 of a hamlet that no launch holds while a launch of it is saved, to the saved state
(assumption 27). -/
def State.dmaSavedAt (s : State) (e r : Nat) : Option Nat :=
  if r = 2 ∧ (s.hamlet e).holder = none then findIdx (fun (x : SavedHamlet) => decide (x.hamlet = e)) s.aq.saved else none

/-- Change the saved ring 2 of saved hamlet `i`. -/
def State.mapSaved (s : State) (i : Nat) (f : SavedHamlet → SavedHamlet) : State :=
  match s.aq.saved[i]? with
  | some x => { s with aq := { s.aq with saved := listSet s.aq.saved i (f x) } }
  | none => s

/-- R364. RESUME: the ring continues from the failing element. -/
def State.dmaResume (s : State) (e r : Nat) : State :=
  match s.dmaSavedAt e r with
  | some i => s.mapSaved i (fun x => { x with ring2 := listSet x.ring2 6 0, dma2 := { x.dma2 with stop := none } })
  | none =>
    if s.on (R.DMA_RSTAT_HALTED e r) then
      ((s.put (R.DMA_RSTAT_HALTED e r) 0).put (R.DMA_RSTAT_CAUSE e r) 0).setDmaRing e r { s.dmaRing e r with stop := none, cause := 0 }
    else s

/-- R364. SKIP: the rest of the halted descriptor is abandoned with SKIPPED and HEAD advances. -/
def State.dmaSkip (s : State) (e r : Nat) : State :=
  match s.dmaSavedAt e r with
  | some i => s.mapSaved i (fun x => { x with ring2 := listSet x.ring2 6 0, dma2 := { x.dma2 with stop := some 2 } })
  | none =>
    if s.on (R.DMA_RSTAT_HALTED e r) then
      let s := ((s.put (R.DMA_RSTAT_HALTED e r) 0).put (R.DMA_RSTAT_CAUSE e r) 0).dmaRecord e r 2
      ((s.bump (R.DMA_CNT_COUNT e 3)).log 5 0 e 3 2 r).dmaAdvance e r
    else s

/-- R364. A write of 1 to DMA_RCTL.RESUME. -/
def execDmaResume (engine ring : Nat) (s : State) : Host.Outcome State Fault Refusal := .next (s.dmaResume engine ring)
/-- R364. A write of 1 to DMA_RCTL.SKIP. -/
def execDmaSkip (engine ring : Nat) (s : State) : Host.Outcome State Fault Refusal := .next (s.dmaSkip engine ring)

/-- R364. PAUSE halts the ring at an element boundary without a record, or lets it continue. -/
def State.dmaPause (s : State) (e r : Nat) (on : Bool) : State :=
  match s.dmaSavedAt e r with
  | some i => s.mapSaved i (fun x => { x with ring2 := listSet x.ring2 5 (4 * b2n on) })
  | none => s.put (R.DMA_RCTL_PAUSE e r) (b2n on)

/-- R364. A write to DMA_RCTL.PAUSE. -/
def execDmaPause (engine ring : Nat) (on : Bool) (s : State) : Host.Outcome State Fault Refusal := .next (s.dmaPause engine ring on)

/-! ### Ring 2 and its launch (R365) -/

/-- The BAR0 offset of ring 2's registers of an engine. -/
def ring2Base (e : Nat) : Nat := 0x51080 + e * 0x100

/-- The nine register words of ring 2. -/
def State.ring2Words (s : State) (e : Nat) : List Nat := (List.range 9).map (fun i => s.word (ring2Base e + 4 * i))

/-- R365. Ring 2 reads zero for a launch that takes the hamlet, and is off. -/
def State.ring2Clear (s : State) (e : Nat) : State :=
  (foldRange 9 (fun s i => s.setWord (ring2Base e + 4 * i) 0) s).setDmaRing e 2 (dmaDefault 0)

/-- R365. Reload a saved ring 2. -/
def State.ring2Load (s : State) (e : Nat) (ws : List Nat) (x : DmaRing) : State :=
  let s := foldRange 9 (fun s i => s.setWord (ring2Base e + 4 * i) (ws.getD i 0)) s
  s.setDmaRing e 2 x

/-- R365. The launch completes: every descriptor still in ring 2 completes with ABANDONED. -/
def State.ring2Finish (e : Nat) : Nat → State → State
  | 0, s => s
  | n + 1, s =>
    if s.get (R.DMA_HEAD_HEAD e 2) = s.get (R.DMA_TAIL_TAIL e 2) % s.dmaSize e 2 then s
    else
      let s := s.dmaFetch e 2
      let s := (s.dmaRecord e 2 3).bump (R.DMA_CNT_COUNT e 4)
      State.ring2Finish e n (s.dmaAdvance e 2)

/-- R365. The launch is aborted or loses its context: its descriptors are abandoned without records. -/
def State.ring2Abandon (s : State) (e : Nat) : State :=
  let n := (s.get (R.DMA_TAIL_TAIL e 2) + s.dmaSize e 2 - s.get (R.DMA_HEAD_HEAD e 2) % s.dmaSize e 2) % s.dmaSize e 2
  (s.bumpBy (R.DMA_CNT_COUNT e 4) n).ring2Clear e

end Sys2Proof.Machine
end

