-- ==== Sys2Proof/Machine/Launch.lean ====
section
/-! DEFINITION. Launches: the steward instructions, start and completion, pre-emption with its save area, thread faults, engine
errors and spare engines (R96–R132, R164, R165, R365–R368, R412, R413). -/
namespace Sys2Proof.Machine

/-! ### Launch descriptors and records (R113–R115) -/

/-- R113. The descriptor that 96 bytes hold. -/
def LaunchDesc.ofBytes (b : List Byte) : LaunchDesc :=
  let fl := leAt b 0x1E 2
  { code := leAt b 0 8, codeSize := leAt b 8 4, ctx := leAt b 0xC 2, hmask := leAt b 0xE 2, const := leAt b 0x10 8,
    constSize := leAt b 0x18 4, threads := leAt b 0x1C 1, prio := leAt b 0x1D 1 % 4, rays := bitAt fl 0, full := bitAt fl 1,
    save := leAt b 0x20 8, done := leAt b 0x28 8, frame := leAt b 0x30 4, work := leAt b 0x34 4,
    args := (List.range 4).map (fun i => leAt b (0x40 + 8 * i) 8) }

/-- R113, R114. Does a field break its alignment or range, or is a reserved field nonzero? -/
def LaunchDesc.bad (d : LaunchDesc) (b : List Byte) : Bool :=
  decide (d.code % 256 ≠ 0) || decide (d.codeSize % 8 ≠ 0) || decide (d.codeSize < 8) || decide (1048576 < d.codeSize) ||
  decide (d.ctx = 0) || decide (63 < d.ctx) || decide (d.hmask = 0) || decide (d.const % 256 ≠ 0) ||
  decide (65536 < d.constSize) || decide (d.constSize % 16 ≠ 0) || decide (d.threads = 0) || decide (4 < d.threads) ||
  decide (4 ≤ leAt b 0x1D 1) || decide (4 ≤ leAt b 0x1E 2) || decide (d.save % 4096 ≠ 0) || decide (d.done % 32 ≠ 0) ||
  decide (leAt b 0x38 8 ≠ 0)

/-- R128, R133. The logical engines of a hamlet that are present, one bit each. -/
def State.live (s : State) (h : Nat) : Nat := s.get (R.ENG_HSTAT_LIVE h)

/-- R114. The status of a refused launch, the checks in the order of the table; 0 where it is accepted. -/
def State.launchRefusal (s : State) (d : LaunchDesc) (b : List Byte) : Nat :=
  if (maskList 16 d.hmask).any (fun h => decide (s.member.hamlets ≤ h)) then 1
  else if d.rays && !s.on R.SYN_STAT_RMAP_BOUND then 2
  else if d.bad b then 3
  else if d.full && (maskList 16 d.hmask).any (fun h => decide (s.live h ≠ 0xFFFF)) then 4
  else 0

/-- R165. The completion event. -/
def completionEv (handle status done work : Nat) : Ev := mkEv (2 + 65536 * handle + 2 ^ 32 * status) done work 0

/-- R115. The 32 bytes of the completion record. -/
def completionRecord (work status killed start run preempts rays : Nat) : List Byte :=
  leBytes 4 work ++ leBytes 2 status ++ leBytes 2 killed ++ leBytes 8 start ++ leBytes 4 run ++ leBytes 4 preempts ++
  leBytes 4 rays ++ leBytes 4 0

/-- R115, R357. The completion record is written, or dropped where it cannot be, and the completion event is sent. -/
def State.launchDone (s : State) (handle core : Nat) (d : LaunchDesc) (status killed start run preempts rays : Nat) : State :=
  let rec32 := completionRecord d.work status killed start run preempts rays
  let s := match s.vwrite d.ctx d.done rec32 with
    | .ok s' => s'
    | .error e => s.accFail ((maskList 16 d.hmask).headD 0) 0 d.ctx d.done .write 9 e
  s.sendEvent core (completionEv handle status d.done d.work)

/-- R115. The record of a launch no thread of which has started: START has no stated value and is free (assumption 2). -/
def State.launchNever (s : State) (handle core : Nat) (d : LaunchDesc) (status : Nat) : State :=
  let r := s.fresh
  r.2.launchDone handle core d status 0 r.1 0 0 0

/-! ### Hamlets: holders and what ENG_STAT shows (R97, R133) -/

/-- R133. ENG_STAT follows the hamlets: BUSY while a launch holds one, SAVING while it saves or restores. -/
def State.syncEng (s : State) : State :=
  let busy := ((List.range 16).map (fun h => if (s.hamlet h).holder = none then 0 else 2 ^ h)).sum
  let saving := ((List.range 16).map (fun h => if (s.hamlet h).phase = .normal then 0 else 2 ^ h)).sum
  (s.put R.ENG_STAT_BUSY busy).put R.ENG_STAT_SAVING saving

/-- The hamlets that a launch holds. -/
def State.held (s : State) (k : Nat) : List Nat := (List.range 16).filter (fun h => decide ((s.hamlet h).holder = some k))

/-- A hamlet becomes free: its threads are idle and its barriers empty. -/
def State.freeHamlet (s : State) (h : Nat) : State :=
  let s := (hamletKeys h).foldl (fun s k => s.setThr k (thrDefault 0)) s
  (s.setHamlet h { s.hamlet h with holder := none, phase := .normal, barH := [] }).ring2Clear h

/-! ### Running time (R115) -/

/-- Is the launch running now: not every hamlet of it is saved? -/
def LaunchSt.runs (l : LaunchSt) : Bool := (l.phase == .running) && decide (l.savedMask ≠ l.desc.hmask)

/-- R115. RUN in ns: the time from the first start, without the time in which every hamlet of the launch is saved. -/
def State.runNs (s : State) (l : LaunchSt) : Nat :=
  (l.runTicks + (if l.runs then s.ticks - l.runFrom else 0)) * 512 / 165 % 2 ^ 32

/-- The lowest hamlet of a launch. -/
def LaunchSt.first (l : LaunchSt) : Nat := (maskList 16 l.desc.hmask).headD 0

/-- R89. The mean engine clock over the launch's running time, in MHz. -/
def State.runMhz (s : State) (l : LaunchSt) : Nat :=
  let cyc := l.clkRun + (if l.runs then s.coreClk l.first - l.clkFrom else 0)
  let ns := s.runNs l
  if ns = 0 then s.get R.THM_CEIL_CLK_NOW else cyc * 1000 / ns

/-! ### The cost of synthesis (R89, R115) -/

/-- R89. The cost of a RAYS launch that completes counts for its work item, and its frame may thereby be measured. -/
def State.measureRun (s : State) (k : Nat) (l : LaunchSt) : State :=
  match l.work with
  | none => s
  | some wk => match s.synWork wk with
    | none => s
    | some w =>
      let w := { w with cost := maxCost w.cost (some ⟨s.runNs l, s.runMhz l, w.level⟩) }
      (s.setSynWork wk w).measureFrame (s.frameKey wk w) k false

/-! ### Ending a launch (R115, R120, R122, R365) -/

/-- Saved hamlets of a launch. -/
def State.savedOf (s : State) (k : Nat) : List SavedHamlet := s.aq.saved.filter (fun x => decide (x.handle = k))

/-- R122, R124. The restores of a launch that have not taken their hamlets yet are given up. -/
def State.dropRestores (s : State) (k : Nat) : State :=
  foldRange 16 (fun (s : State) h => if (s.hamlet h).phase = .restoring k then s.setHamlet h { s.hamlet h with phase := .normal } else s) s

/-- A launch is over: its hamlets are free, its saved state and save maps are gone, and its record is written. -/
def State.endLaunch (s : State) (k : Nat) (l : LaunchSt) (status : Nat) : State :=
  let run := s.runNs l
  let s := ((s.held k).foldl State.freeHamlet s).dropRestores k
  let s := { s with aq := { s.aq with saved := s.aq.saved.filter (fun x => decide (x.handle ≠ k)), launches := tabDel s.aq.launches k },
                    syn := { s.syn with spans := s.syn.spans.filter (fun p => !(bitAt l.desc.hmask p.1 && decide (some p.2.work = l.work))) } }
  let s := s.setMmu { s.mmu with saveMap := s.mmu.saveMap.filter (fun p => decide (p.1 / 16 ≠ k)) }
  let s := (s.syncEng).syncActive
  if l.phase = .queued then s.launchNever k l.core l.desc status
  else s.launchDone k l.core l.desc status l.killed l.startPtp run l.preempts l.killedRays

/-- The words of a batch's rays are written as 0 by the unit of a hamlet (R120). -/
def State.zeroBatch (s : State) (h : Nat) (wk : Option Nat) (b : List DealtRay) : State :=
  match wk with
  | some w => b.foldl (fun s r => s.selfWrite h w r.tile r.line r.col 0) s
  | none => s

/-- R120. A live thread of a launch is killed: its batch is written and retired, and both are counted. -/
def State.killThread (s : State) (k key : Nat) : State :=
  let th := s.thr key
  if th.state = .runnable ∨ th.state = .suspended then
    let s := (s.killBatch key).endThr (.eng (key / 4) (key % 4))
    match s.launch k with
    | some l => s.setLaunch k { l with killed := l.killed + 1, killedRays := l.killedRays + th.batch.length }
    | none => s
  else s

/-- R120, R124. The live threads of a saved hamlet are killed in the saved state. -/
def State.killSaved (s : State) (k : Nat) (x : SavedHamlet) : State :=
  x.threads.foldl (fun s (p : Nat × ThreadSt) =>
    if p.2.state = .runnable ∨ p.2.state = .suspended then
      match s.launch k with
      | some l => (s.zeroBatch x.hamlet l.work p.2.batch).setLaunch k { l with killed := l.killed + 1, killedRays := l.killedRays + p.2.batch.length }
      | none => s
    else s) s

/-- R96. Does the thread hold its slot: it is runnable or suspended? -/
def ThreadSt.live (t : ThreadSt) : Bool := (t.state == .runnable) || (t.state == .suspended)

/-! ### Leaving a physical engine (R124, R126, R128) -/

/-- R123 step 2. The drain of a thread: pending results land; a waiting SAMPLE, SWEEP or RISSUE is abandoned. -/
def ThreadSt.drain (t : ThreadSt) : ThreadSt :=
  { t.landAll with got := [], want := [], wait := if t.wait = .caddy then .none else t.wait }

/-- R120, R128. The threads of a logical engine in a saved context are killed there. -/
def State.killSavedEngine (s : State) (i : Nat) (x : SavedHamlet) (eid : Nat) : State :=
  let mine := x.threads.filter (fun p => decide (p.1 / 4 = eid) && p.2.live)
  let s := s.killSaved x.handle { x with threads := mine }
  s.mapSaved i (fun x => { x with threads := x.threads.map (fun p =>
    if decide (p.1 / 4 = eid) && p.2.live then (p.1, { p.2 with state := .ended, batch := [], wait := .none }) else p) })

/-- R128. An engine is retired without a spare: its logical engine is absent, its threads are killed, those of saved contexts too, and the
hamlet is degraded. -/
def State.retireLogical (s : State) (h e : Nat) : State :=
  let x := s.hamlet h
  let p := s.get (R.ENG_MAP_PHYS h e)
  let s := s.setHamlet h { x with retired := x.retired ||| 2 ^ p }
  let s := (s.put (R.ENG_HSTAT_LIVE h) (s.live h - (s.live h &&& 2 ^ e))).put (R.ENG_HSTAT_DEGRADED h) 1
  let s := match x.holder with
    | some k => (engineKeys (h * 16 + e)).foldl (fun (s : State) key => s.killThread k key) s
    | none => s
  let s := foldRange s.aq.saved.length (fun (s : State) i => match s.aq.saved[i]? with
    | some y => if y.hamlet = h then s.killSavedEngine i y (h * 16 + e) else s
    | none => s) s
  s.raise Irq.ENG_DEGRADED

/-- R124, R126, R128, R413, R442. A logical engine is to leave its physical engine: the move to a spare that is SPARE_OK begins; without one
the engine is retired. It waits for a save or restore in progress and for another engine's move, and goes before a rotation, which becomes
due again. -/
def State.substitute (s : State) (h e : Nat) : State :=
  let x := s.hamlet h
  let busy := match x.subst with
    | some m => !m.rotate
    | none => false
  if !bitAt (s.live h) e then s
  else if busy || decide (x.phase ≠ .normal) then s.setHamlet h { x with substWait := if x.substWait.contains e then x.substWait else x.substWait ++ [e] }
  else
    let sp := s.get (R.ENG_HSTAT_SPARE h)
    if sp = 0x1F ∨ !x.spareOk then s.retireLogical h e
    else
      let s := (engineKeys (h * 16 + e)).foldl (fun s key => s.setThr key (s.thr key).drain) s
      let s : State := if x.subst.isSome then { s with cal := { s.cal with ran := tabDel s.cal.ran (8 * 2 ^ 32 + h) } } else s
      s.setHamlet h { s.hamlet h with subst := some ⟨e, sp, false⟩, testSeq := s.lastSeq }

/-- R124, R126. The requests that waited are taken up again, in order. -/
def State.runSubstWaits (s : State) (h : Nat) : State :=
  let es := (s.hamlet h).substWait
  es.foldl (fun s e => s.substitute h e) (s.setHamlet h { s.hamlet h with substWait := [] })

/-! ### Launches that are aborted (R122, R164) -/

/-- R164 ABORT, R122. Every thread ends as KILL ends it, the DMA is abandoned, and the launch completes with a status. -/
def State.abortLaunch (s : State) (k status : Nat) : State :=
  match s.launch k with
  | none => s
  | some _ =>
    let s := (s.held k).foldl (fun s h => ((hamletKeys h).foldl (fun s key => s.killThread k key) s).ring2Abandon h) s
    let s := (s.savedOf k).foldl (fun s x => s.killSaved k x) s
    match s.launch k with
    | some l => (maskList 16 l.desc.hmask).foldl State.runSubstWaits (s.endLaunch k l status)
    | none => s

/-- R122. The launch loses its context: it is aborted on all its hamlets, the ray words it had not written keep what memory holds,
and its record carries CONTEXT_LOST. -/
def State.contextLost (s : State) (k : Nat) : State :=
  match s.launch k with
  | none => s
  | some l => (maskList 16 l.desc.hmask).foldl State.runSubstWaits (((s.held k).foldl (fun s h => s.ring2Abandon h) s).endLaunch k l 0x11)

/-! ### The steward instructions (R164, R165) -/

/-- Is it a steward core? -/
def isSteward : Thr → Bool
  | .stw _ => true
  | _ => false

/-- R131, R132. A steward-only instruction: illegal elsewhere. -/
def State.runStw (s : State) (t : Thr) (regs : List Nat) (legal : Bool) (effect : ThreadSt → State) : State :=
  s.issue t (isSteward t && regs.all scaOk && legal) ⟨[], regs⟩ effect

/-- The core of a steward thread. -/
def coreOf : Thr → Nat
  | .stw c => c
  | _ => 0

/-- The first handle at or after `h` that no unfinished launch has; 0 names no launch. -/
def State.freeHandle (s : State) : Nat → Nat → Nat
  | 0, h => h
  | n + 1, h => if h = 0 ∨ (s.launch h).isSome then s.freeHandle n ((h + 1) % 65536) else h

/-- R113. The 96 bytes at a descriptor address: in steward SRAM below its end, else in global memory, context 0. -/
def State.readDesc (s : State) (a : Nat) : Except AccErr (List Byte) :=
  if a < 0x200000 then .ok (mapGetList byteDefault s.aq.sram a 96) else s.vread 0 a .read 96

/-- R113, R114. The launch of a descriptor is queued, or refused with its record. -/
def State.launchQueue (s : State) (core : Nat) (b : List Byte) : State × Nat :=
  let d := LaunchDesc.ofBytes b
  let k := s.freeHandle (s.aq.launches.length + 1) (s.aq.nextHandle % 65536)
  let s := { s with aq := { s.aq with nextHandle := (k + 1) % 65536 } }
  let st := s.launchRefusal d b
  if st ≠ 0 then (s.launchNever k core d st, k)
  else
    let l : LaunchSt := { desc := d, core := core, phase := .queued, order := s.aq.nextOrder, startPtp := 0, runFrom := 0, runTicks := 0,
                           clkFrom := 0, clkRun := 0, preempts := 0, killed := 0, killedRays := 0, savedMask := 0, noSave := decide (d.save = 0), abortStatus := 0,
                           saveSeq := 0, work := none, projective := false }
    ({ s with aq := { s.aq with nextOrder := s.aq.nextOrder + 1 } }.setLaunch k l, k)

/-- R113–R115, R164 LAUNCH: it does not issue while the core's queue of 16 entries is full. -/
def execLaunch (t : Thr) (d a : Nat) (s : State) : Host.Outcome State Fault Refusal :=
  .next (s.runStw t [d, a] true (fun th =>
    let adr := th.sr a
    let mine := s.aq.launches.filter (fun p => decide (p.2.core = coreOf t) && (p.2.phase == .queued))
    if adr % 32 ≠ 0 then s.faultThread t 3 0 adr
    else if 16 ≤ mine.length then s
    else match s.readDesc adr with
      | .error e => (s.accFail 0x36 0 0 adr .read 8 e).faultThread t (e.thrCause.getD 2) 0 adr
      | .ok b =>
        let r := s.launchQueue (coreOf t) b
        r.1.setThr (thrKey t) (((r.1.thr (thrKey t)).setS d r.2).next)))

/-- R121. May the hamlet be saved: a launch with a save area and below PRIO 3 holds it, and it is not being saved or restored? -/
def State.savable (s : State) (h : Nat) : Bool :=
  let x := s.hamlet h
  (x.phase == .normal) && (match x.holder with
    | some k => (match s.launch k with
      | some l => !l.noSave && decide (l.desc.prio < 3)
      | none => false)
    | none => false)

/-- R121, R164 PREEMPT: the save of the named hamlets begins. -/
def execPreempt (t : Thr) (a : Nat) (s : State) : Host.Outcome State Fault Refusal :=
  .next (s.runStw t [a] true (fun th =>
    let s1 := (maskList 16 (th.sr a)).foldl (fun s h =>
      if s.savable h then s.setHamlet h { s.hamlet h with phase := .saving none } else s) s
    (s1.setThr (thrKey t) th.next).syncEng))

/-- Priority order: higher PRIO first, then the older launch. -/
def LaunchSt.ahead (a b : LaunchSt) : Bool :=
  decide (b.desc.prio < a.desc.prio) || (decide (a.desc.prio = b.desc.prio) && decide (a.order < b.order))

/-- The saved launch of the highest priority that is saved on a hamlet. -/
def State.bestSaved (s : State) (h : Nat) : Option Nat :=
  s.aq.saved.foldl (fun r x =>
    if x.hamlet = h then
      match r, s.launch x.handle with
      | none, some _ => some x.handle
      | some k, some l => (match s.launch k with
        | some o => if l.ahead o then some x.handle else r
        | none => some x.handle)
      | _, none => r
    else r) none

/-- R121. The saved launch that may be restored to a free hamlet: no queued launch that needs the hamlet is ahead of it. -/
def State.restorable (s : State) (h : Nat) : Option Nat :=
  match (s.hamlet h).phase with
  | .restoring k => if (s.hamlet h).holder = none then some k else none
  | .saving _ => none
  | .normal =>
    if (s.hamlet h).holder ≠ none then none
    else match s.bestSaved h with
      | none => none
      | some k => match s.launch k with
        | none => none
        | some l => if s.aq.launches.any (fun p => (p.2.phase == .queued) && bitAt p.2.desc.hmask h && p.2.ahead l) then none else some k

/-- R121, R164 RESTORE: the restore of the named hamlets begins, where they are free and a saved launch is the highest-priority launch that
waits for them. -/
def execRestore (t : Thr) (a : Nat) (s : State) : Host.Outcome State Fault Refusal :=
  .next (s.runStw t [a] true (fun th =>
    let s1 := (maskList 16 (th.sr a)).foldl (fun s h =>
      match s.restorable h with
      | some k => s.setHamlet h { s.hamlet h with phase := .restoring k }
      | none => s) s
    (s1.setThr (thrKey t) th.next).syncEng))

/-- The index of the saved entry of a launch on a hamlet. -/
def State.savedIdx (s : State) (k h : Nat) : Option Nat :=
  findIdx (fun (x : SavedHamlet) => decide (x.handle = k) && decide (x.hamlet = h)) s.aq.saved

/-- R118, R119. The steward's answer to a thread of a launch: RESUME or KILL. A thread whose hamlet is saved takes it at restore. -/
def State.answer (s : State) (k tid : Nat) (resume : Bool) : State :=
  match s.launch k with
  | none => s
  | some _ => match s.savedIdx k (tid / 64) with
    | some i => s.mapSaved i (fun x => { x with acts := x.acts ++ [(tid, resume)] })
    | none =>
      let th := s.thr tid
      if th.launch ≠ k ∨ (s.hamlet (tid / 64)).holder ≠ some k then s
      else if resume then
        (if th.state = .suspended ∧ th.cause ≠ 7 ∧ th.cause ≠ 8 then s.setThr tid { th with state := .runnable } else s)
      else s.killThread k tid

/-- R118, R164 RESUME. -/
def execResumeThread (t : Thr) (a b : Nat) (s : State) : Host.Outcome State Fault Refusal :=
  .next (s.runStw t [a, b] true (fun th =>
    (if th.sr a < 65536 ∧ th.sr b < 1024 then s.answer (th.sr a) (th.sr b) true else s).setThr (thrKey t) th.next))

/-- R118, R120, R164 KILL. -/
def execKill (t : Thr) (a b : Nat) (s : State) : Host.Outcome State Fault Refusal :=
  .next (s.runStw t [a, b] true (fun th =>
    (if th.sr a < 65536 ∧ th.sr b < 1024 then s.answer (th.sr a) (th.sr b) false else s).setThr (thrKey t) th.next))

/-- R124. Is a hamlet of the launch in the course of a save? -/
def State.savingNow (s : State) (k : Nat) : Bool :=
  (s.held k).any (fun h => match (s.hamlet h).phase with
    | .saving _ => true
    | _ => false)

/-- R124, R164 ABORT: while a hamlet of the launch is being saved it waits for the save's end. -/
def execAbort (t : Thr) (a : Nat) (s : State) : Host.Outcome State Fault Refusal :=
  .next (s.runStw t [a] true (fun th =>
    let k := th.sr a
    let s1 := if 65536 ≤ k then s else match s.launch k with
      | none => s
      | some l => if s.savingNow k then s.setLaunch k { l with abortStatus := 0x12 } else s.abortLaunch k 0x12
    s1.setThr (thrKey t) th.next))

/-- R131. An event that a source keeps pending enters the queue when room frees. -/
def State.admitEvents (s : State) (c : Nat) : State :=
  let q := s.stw c
  let n := 256 - q.evq.length
  s.setStw c { evq := q.evq ++ q.held.take n, held := q.held.drop n }

/-- R131, R164, R165 WAITEV: the next event in sD to sD+3; it waits for one while NB is 0. -/
def execWaitev (t : Thr) (d : Nat) (nb : Bool) (s : State) : Host.Outcome State Fault Refusal :=
  .next (s.runStw t [d, d + 1, d + 2, d + 3] (decide (d % 4 = 0) && decide (4 ≤ d)) (fun th =>
    let c := coreOf t
    let four := fun (e : Ev) => (((th.setS d e.w0.toNat).setS (d + 1) e.w1.toNat).setS (d + 2) e.w2.toNat).setS (d + 3) e.w3.toNat
    match (s.stw c).evq with
    | e :: rest => ((s.setStw c { s.stw c with evq := rest }).admitEvents c).setThr (thrKey t) (four e).next
    | [] => if nb then s.setThr (thrKey t) (four (mkEv 0 0 0 0)).next else s))

/-- R131. A source delivers its pending events into a core's queue as far as there is room. -/
def execStewardEvent (core : Nat) (s : State) : Host.Outcome State Fault Refusal := .next (s.admitEvents core)

/-! ### Start (R97, R99, R103, R115, R365, R366) -/

/-- R99. A thread of a launch at its start. -/
def startThread (k : Nat) (d : LaunchDesc) : ThreadSt :=
  let t : ThreadSt := { thrDefault 0 with pc := BitVec.ofNat 48 d.code, state := .runnable, launch := k }
  foldRange 4 (fun t i => t.setS (1 + i) (d.args.getD i 0)) t

/-- R104. The local stores of hamlet `h` hold undefined bytes at a launch. -/
def State.freeStores (s : State) (h : Nat) : State :=
  let cells := (Config.freeCells s.freeCtr).filter (fun c => decide (c.1 / 2 ^ 22 = h))
  { s with aq := { s.aq with lstore := putCells (s.aq.lstore.filter (fun p => decide (p.1 / 2 ^ 22 ≠ h))) cells }, freeCtr := s.freeCtr + 1 }

/-- R96, R97, R104, R128. The threads of hamlet `h` at the start of a launch: slots below THREADS of the engines present. -/
def State.startHamlet (s : State) (k : Nat) (d : LaunchDesc) (h : Nat) : State :=
  let s := s.freeStores h
  let s := (hamletKeys h).foldl (fun s key =>
    s.setThr key (if bitAt (s.live h) (key / 4 % 16) && decide (key % 4 < d.threads) then startThread k d else thrDefault 0)) s
  (s.setHamlet h { s.hamlet h with holder := some k, phase := .normal, barH := [] }).ring2Clear h

/-- R103. Copy the constant block into a hamlet's buffer. -/
def State.loadConst (s : State) (h : Nat) (bs : List Byte) : State :=
  { s with aq := { s.aq with constBuf := mapPutList byteDefault s.aq.constBuf (h * 65536) bs } }

/-- R115, R121, R444. May the queued launch start: hamlets take launches, none is ahead of it in the queues, and every hamlet of its mask
is free, of a saved launch ahead of it and of a forced test too. -/
def State.mayStart (s : State) (k : Nat) (l : LaunchSt) : Bool :=
  (l.phase == .queued) && s.on R.ENG_CTL_ENABLE &&
  s.aq.launches.all (fun p => decide (p.1 = k) || (p.2.phase == .running) || !p.2.ahead l) &&
  (maskList 16 l.desc.hmask).all (fun h =>
    let x := s.hamlet h
    decide (x.holder = none) && (x.phase == .normal) && decide (x.subst = none) && !s.testHeld 7 h && !s.testHeld 8 h &&
    (match s.bestSaved h with
     | some o => (match s.launch o with
       | some lo => !lo.ahead l
       | none => true)
     | none => true))

/-- R63, R83. The oldest work of the mode in force that is due and that no hamlet of the mask has started. -/
def State.nextDue (s : State) (hmask : Nat) : Option (Nat × SynWork) :=
  s.syn.works.find? (fun p => decide (p.2.started &&& hmask = 0) && !p.2.abandoned && (p.2.band.isSome == s.bandMode))

/-- R83. Is the ready flag of band `b`'s slot still set, from an earlier band, on a tile whose rays the hamlets of the mask deal? -/
def State.slotReady (s : State) (w : SynWork) (b hmask : Nat) : Bool :=
  (maskList 16 hmask).any (fun h => (s.workSpan w h).any (fun x =>
    s.readyFlag x.2.1.tile (b % s.ringDepth) && !w.complete.contains (x.2.1.tile * 64 + x.1)))

/-- R287. The address of the record of camera set `n`. -/
def State.setRecAddr (s : State) (n : Nat) : Nat :=
  s.addrOf R.CAM_SREC_LO_ADDR R.CAM_SREC_HI_ADDR + 0x400 * (n % 2 ^ clampN 2 10 (s.get R.CAM_SREC_CNT_LOG2N))

/-- R80, R287. One camera-table entry takes the image, token and mark of its slot in a set; an entry whose slot has no image in the set, and
one that cannot be read or written, stays as it is (assumption 83). -/
def State.bindCamera (s : State) (ctx set : Nat) (rec : List Byte) (i : Nat) : State :=
  match s.vread ctx (s.camtabAddr i) .read 128 with
  | .error _ => s
  | .ok b =>
    let slot := leAt b 0 4 % 32
    let o := 0x20 + 16 * slot
    let buf := leAt rec (o + 1) 1
    if !bitAt (leAt rec 4 4) slot || decide (buf = 0xFF) then s
    else
      let base := s.addrOf (R.CAM_SIMG_LO_ADDR slot) (R.CAM_SIMG_HI_ADDR slot) + buf * (s.get (R.CAM_SSTRIDE_STRIDE slot) * 256)
      let fl := setBits (leAt b 0 4) 9 1 (b2n (decide (leAt rec (o + 4) 4 ≠ 0)))
      let nb := leBytes 4 fl ++ leBytes 4 set ++ leBytes 8 base ++ (b.drop 0x10).take 0x48 ++ (rec.drop (o + 2)).take 2 ++ b.drop 0x5A
      match s.vwrite ctx (s.camtabAddr i) nb with
      | .ok s' => s'
      | .error _ => s

/-- R84, R203. At the first band of a panel frame, the newest camera set not yet bound is bound, else the last one again, else an empty
table. A record of the set that cannot be read leaves the entries as they are (assumption 83). -/
def State.bindSet (s : State) (ctx : Nat) : State :=
  match s.syn.newSet with
  | none => { s with syn := { s.syn with setRepeat := s.syn.camSet.isSome } }
  | some n =>
    let s := ({ s with syn := { s.syn with camSet := some n, setRepeat := false, newSet := none } }.put R.SCO_FINFO_GEN_ADV 1).put R.SCO_FINFO_STATIC 0
    match s.vread 0 (s.setRecAddr n) .read 0x220 with
    | .ok rec => foldRange 32 (fun s i => s.bindCamera ctx n rec i) s
    | .error _ => s

/-- R80, R84. The camera table as it is bound to a frame: its readable entries, and none where no set is bound. -/
def State.boundCams (s : State) (ctx : Nat) : List (Nat × List Byte) :=
  match s.syn.camSet with
  | none => []
  | some _ => (List.range 32).filterMap (fun i => match s.vread ctx (s.camtabAddr i) .read 128 with
    | .ok b => some (i, b)
    | .error _ => none)

/-- R62, R84, R87. At a panel frame's first dealing, a binding waiting for it takes effect, its camera set is bound and its level chosen. -/
def State.frameFirst (s : State) (w : SynWork) (ctx : Nat) : State :=
  match w.band with
  | some b =>
    let s := s.bindSet ctx
    s.bindFrame (some (b - b % zeroActs 1 s.bandCount)) (s.boundCams ctx)
  | none => s.bindFrame none []

/-- Is the frame of a work item already bound: some band of it has been dealt? -/
def State.frameBound (s : State) (w : SynWork) : Bool :=
  match w.band with
  | some b => decide (s.syn.bound.top = some (b - b % zeroActs 1 s.bandCount)) &&
      s.syn.works.any (fun p => p.2.band.isSome && decide (p.2.started ≠ 0) && decide (p.2.bound.top = s.syn.bound.top))
  | none => false

/-- R247. The regions that a work item writes, their sums opened. -/
def State.openWork (s : State) (wk : Nat) (w : SynWork) : State :=
  match w.band with
  | none => w.targets.foldl (fun s t => s.openSum { tile := t.tile, base := t.base, pitch := t.pitch, ctx := w.ctx, y0 := 0, lines := s.active, slot := none, work := wk, sum := 0 }) s
  | some b =>
    let i := b % s.bandCount
    let slot := b % s.ringDepth
    s.tilesOn.foldl (fun s t => s.openSum { tile := t, base := s.ringBase t + slot * 64 * s.ringPitch t, pitch := s.ringPitch t, ctx := w.ctx, y0 := 64 * i, lines := s.bandLines i, slot := some slot, work := wk, sum := 0 }) s

/-- R63, R84, R87. A RAYS launch takes the work: its span on each hamlet, with the frame's level, camera set and targets where the
work starts for the first time. -/
def State.takeWork (s : State) (k : Nat) (l : LaunchSt) (tgt : List TileTarget) : State :=
  match s.nextDue l.desc.hmask with
  | none => s
  | some (wk, w) =>
    let fresh := decide (w.started = 0)
    let s := if fresh then (match w.newMap with
      | some m => s.takeMap m
      | none => s) else s
    let s := if fresh && !s.frameBound w then s.frameFirst w l.desc.ctx else s
    let w := if fresh then { w with bound := s.syn.bound, ctx := l.desc.ctx, targets := if w.band.isSome then [] else tgt, startNs := s.ptpNs } else w
    let w := { w with started := w.started ||| l.desc.hmask }
    let s := s.setSynWork wk w
    let s := if fresh then s.openWork wk w else s
    let s := (maskList 16 l.desc.hmask).foldl (fun s h => s.setSpan h ⟨wk, 0, none, none⟩) s
    (s.setLaunch k { l with work := some wk }).syncActive

/-- R97–R99, R103, R115, R366. A queued launch starts on all its hamlets at once. `tgt` names the back buffers of a frame. -/
def State.launchStart (s : State) (k : Nat) (l : LaunchSt) (tgt : List TileTarget) : State :=
  let hs := maskList 16 l.desc.hmask
  match s.vread l.desc.ctx l.desc.const .read l.desc.constSize with
  | .error e => (s.accFail (hs.headD 0) 0 l.desc.ctx l.desc.const .read 2 e).endLaunch k l 0x12
  | .ok bs =>
    let s := hs.foldl (fun s h => (s.loadConst h bs).startHamlet k l.desc h) s
    let l := { l with phase := .running, startPtp := s.ptpNs, runFrom := s.ticks, clkFrom := s.coreClk l.first, projective := s.bandMode }
    let s := if l.desc.save = 0 then s.setLaunch k l else
      match s.saveMaps k l.desc with
      | some m => (s.setMmu { s.mmu with saveMap := m }).setLaunch k l
      | none => s.saveRefused.setLaunch k { l with noSave := true }
    let s := if l.desc.rays then (match s.launch k with
      | some l => s.takeWork k l tgt
      | none => s) else s
    s.syncEng

/-- R62. The first frame under a new ray map waits until every frame begun under the old one has been committed. -/
def State.mapBlocked (s : State) (wk : Nat) (w : SynWork) : Bool :=
  w.newMap.isSome && decide (w.started = 0) && s.syn.works.any (fun p => decide (p.1 ≠ wk) && decide (p.2.started ≠ 0) && !p.2.abandoned &&
    (if p.2.band.isSome then !s.workComplete p.2 else decide (s.sco.shown ≠ some p.1) && decide (s.sco.next ≠ some p.1)))

/-- R115. A queued launch starts; a band whose slot is still ready is not dealt (R83). -/
def execLaunchStart (handle : Nat) (tgt : List TileTarget) (s : State) : Host.Outcome State Fault Refusal :=
  .next (match s.launch handle with
    | none => s
    | some l =>
      let blocked := l.desc.rays && (match s.nextDue l.desc.hmask with
        | some (wk, w) => s.mapBlocked wk w || (match w.band with
          | some b => s.slotReady w b l.desc.hmask
          | none => false)
        | none => false)
      if s.mayStart handle l && !blocked then s.launchStart handle l tgt else s)

/-! ### Completion (R109, R115, R365) -/

/-- R65, R115. Is every tile band of the launch's span complete? -/
def State.spanComplete (s : State) (l : LaunchSt) : Bool :=
  match l.work with
  | none => true
  | some wk => match s.synWork wk with
    | none => true
    | some w => w.abandoned || (maskList 16 l.desc.hmask).all (fun h =>
        (s.workSpan w h).all (fun x => w.complete.contains (x.2.1.tile * 64 + x.1)))

/-- R109, R115. A launch completes once every thread has ended, every store is complete and its tile bands are. -/
def execLaunchComplete (handle : Nat) (s : State) : Host.Outcome State Fault Refusal :=
  .next (match s.launch handle with
    | none => s
    | some l =>
      let keys := (s.held handle).flatMap hamletKeys
      let quiet := keys.all (fun k => decide ((s.thr k).state = .idle ∨ (s.thr k).state = .ended))
      if l.phase = .running ∧ l.savedMask = 0 ∧ !s.savingNow handle ∧ quiet ∧ s.spanComplete l then
        let s := (s.held handle).foldl (fun s h => State.ring2Finish h 4096 s) s
        let s := s.measureRun handle l
        s.endLaunch handle l (if l.killed = 0 then 0 else 0x10)
      else s)

/-! ### Access to a save area (R122, R366) -/

/-- R366. The physical address that a save map gives a virtual address. -/
def saveAt (m : List TlbEntry) (va : Nat) : Option Nat :=
  (m.find? (fun e => decide (e.va ≤ va) && decide (va < e.va + 2 ^ e.log2))).map (fun e => e.pa + (va - e.va))

/-- The targets of a run of bytes in a save area; none where the map or the memory fails. -/
def State.saveTargets (s : State) (m : List TlbEntry) (va : Nat) : Nat → Option (List Nat)
  | 0 => some []
  | n + 1 => match saveAt m va with
    | none => none
    | some pa => match s.physWritable pa, s.saveTargets m (va + 1) n with
      | none, some ps => some (pa :: ps)
      | _, _ => none

/-- Write a run of bytes of a save area. -/
def State.saveWrite (s : State) (m : List TlbEntry) (va : Nat) (bs : List Byte) : Option State :=
  (s.saveTargets m va bs.length).map (fun ps => (runsOf (ps.zip bs)).foldl (fun s r => s.physPut r.1 r.2) s)

/-- The save map of a launch's hamlet. -/
def State.saveMapFor (s : State) (k h : Nat) : List TlbEntry := (tabGet s.mmu.saveMap (k * 16 + h)).getD []

/-! ### Faults that no instruction raises by itself (R101, R116–R118, R132) -/

/-- R125. The targets of a saved thread record's STATE and cause in the save area. -/
def savedStateOff (h key : Nat) : Nat := saveOff h + 0x1000 + key / 4 % 16 * 0x51000 + 0x200 + key % 4 * 0x4200 + 0x4148

/-- R118, R124. A thread of a saved hamlet becomes REG_UE or LS_UE: it is saved so, in its record too, and the fault sends its event. -/
def State.savedFault (s : State) (k h i cause key : Nat) : State :=
  match s.launch k, s.aq.saved[i]? with
  | some l, some x =>
    (match x.threads.find? (fun p => decide (p.1 = key)) with
     | some (_, th) =>
       if th.live then
         let s := s.mapSaved i (fun x => { x with threads := x.threads.map (fun p => if p.1 = key then (key, { p.2 with state := .suspended, cause := cause }) else p) })
         let s := (s.bump (R.ENG_CNT_COUNT h 5)).sendEvent l.core (faultEv cause k key 0 th.pc.toNat 0)
         match s.saveWrite (s.saveMapFor k h) (l.desc.save + savedStateOff h key) (leBytes 4 2 ++ leBytes 4 cause) with
         | some s => s
         | none => s.contextLost k
       else s
     | none => s)
  | _, _ => s

/-- R116–R118. A live thread faults, on a fetch that does not translate or an uncorrectable error, and is suspended. LS_UE is raised
on every thread of the engine. -/
def execThreadFault (t : Thr) (cause : Nat) (lanes : BitVec 64) (addr : Nat) (s : State) : Host.Outcome State Fault Refusal :=
  .next (if cause = 0 ∨ 8 < cause then s else match t with
    | .eng e _ =>
      if cause = 8 then
        (engineKeys e).foldl (fun s k => if (s.thr k).live then s.faultThread (.eng e (k % 4)) 8 lanes.toNat addr else s) s
      else if cause = 7 then (if (s.thr (thrKey t)).live then s.faultThread t 7 lanes.toNat addr else s)
      else if (s.thr (thrKey t)).state = .runnable then s.faultThread t cause lanes.toNat addr else s
    | .stw c => if bitAt (s.get R.STW_STAT_HALTED) c then s else s.faultThread t cause lanes.toNat addr
    | .watch => if (s.thr 1032).state = .runnable then s.faultThread t cause lanes.toNat addr else s)

/-- R132. A running steward core faults. -/
def execStewardFault (core : Nat) (s : State) : Host.Outcome State Fault Refusal :=
  .next (if bitAt (s.get R.STW_STAT_HALTED) core then s else s.haltSteward core)

/-- The logical engine that physical engine `p` of hamlet `h` carries. -/
def State.logicalOf (s : State) (h p : Nat) : Option Nat :=
  (List.range 16).find? (fun e => decide (s.get (R.ENG_MAP_PHYS h e) = p) && bitAt (s.live h) e)

/-- R101, R117. A single-bit error is corrected and counted; an uncorrectable one is counted, raised, and suspends the thread with
REG_UE, or every thread of the engine with LS_UE. -/
def execEngineEccError (hamlet phys : Nat) (store uncorrected : Bool) (slot : Nat) (s : State) : Host.Outcome State Fault Refusal :=
  .next (
    if !uncorrected then
      let n := if store then 1 else 0
      (s.bump (R.ENG_CNT_COUNT hamlet n)).log 7 0 hamlet n 1 phys
    else
      let s := ((s.bump (R.ENG_CNT_COUNT hamlet 2)).log 7 0 hamlet 2 2 phys).raise Irq.ENG_UE
      match s.logicalOf hamlet phys with
      | none => s
      | some e =>
        let eid := hamlet * 16 + e
        let cause := if store then 8 else 7
        let hit := if store then engineKeys eid else [eid * 4 + slot]
        match (s.hamlet hamlet).holder, (s.hamlet hamlet).phase with
        | some k, .saving _ =>
          (match s.savedIdx k hamlet with
           | some i => hit.foldl (fun s key => s.savedFault k hamlet i cause key) s
           | none => hit.foldl (fun s key => if (s.thr key).live then s.faultThread (.eng eid (key % 4)) cause 0 0 else s) s)
        | _, _ => hit.foldl (fun s key => if (s.thr key).live then s.faultThread (.eng eid (key % 4)) cause 0 0 else s) s)

/-! ### The save area (R122, R123, R125) -/

/-- Can a region of a save area be read, granule by granule? -/
def State.saveReadable (s : State) (m : List TlbEntry) (va n : Nat) : Bool :=
  (List.range (n / 32)).all (fun i => match saveAt m (va + 32 * i) with
    | some pa => (match s.physByte pa with
      | .ok _ => true
      | .error _ => false)
    | none => false)

/-- R125. STATE of a thread record. -/
def TState.code : TState → Nat
  | .idle => 0 | .runnable => 1 | .suspended => 2 | .ended => 3

/-- R125. A thread record; the batch reference is device-defined and free (assumption 2). -/
def ThreadSt.saveBytes (t : ThreadSt) (free : Nat) : List Byte :=
  (List.range 4096).flatMap (fun i => leBytes 4 (t.vr (i / 64) (i % 64))) ++
  (List.range 32).flatMap (fun i => leBytes 8 (t.sr i)) ++ (List.range 8).flatMap (fun i => leBytes 8 (t.pr false i)) ++
  leBytes 8 t.pc.toNat ++ leBytes 4 t.state.code ++ leBytes 4 t.cause ++ leBytes 8 t.faddr.toNat ++ leBytes 8 t.fmask.toNat ++
  leBytes 8 free ++ zeros 152

/-- R125. An engine header: the logical index with a valid bit for an engine present, and BAR.E state, the slots that wait there. The
places of the bits are the model's (assumption 82). -/
def State.engineHeader (s : State) (h e : Nat) : List Byte :=
  leBytes 4 (e + 2 ^ 31 * b2n (bitAt (s.live h) e)) ++
  leBytes 4 (((List.range 4).filter (fun sl => (s.thr ((h * 16 + e) * 4 + sl)).wait == .barE)).map (2 ^ ·)).sum ++ zeros 504

/-- R125. The pieces of a hamlet's part of a save area, by offset from its base: the device-defined hamlet record, and per engine the
header, the thread records and the local store. -/
def State.savePieces (s : State) (h free : Nat) : List (Nat × List Byte) :=
  (0, leBytes 4096 free) ::
  (List.range 16).flatMap (fun e =>
    let eid := h * 16 + e
    let o := 0x1000 + e * 0x51000
    [(o, s.engineHeader h e)] ++
    (List.range 4).map (fun sl => (o + 0x200 + sl * 0x4200, (s.thr (eid * 4 + sl)).saveBytes (free / 2 ^ 32832))) ++
    [(o + 0x11000, mapGetList byteDefault s.aq.lstore (eid * 2 ^ 18) 0x40000)])

/-- R122, R123. Write the pieces; none where an access to the area fails. -/
def State.saveAll (m : List TlbEntry) (base : Nat) : List (Nat × List Byte) → State → Option State
  | [], s => some s
  | (o, bs) :: rest, s => match s.saveWrite m (base + o) bs with
    | some s' => State.saveAll m base rest s'
    | none => none

/-- The local store of a hamlet's engines. -/
def State.hamletStore (s : State) (h : Nat) : List (Nat × Byte) :=
  s.aq.lstore.filter (fun p => decide (p.1 / 2 ^ 22 = h))

/-- R122, R123. The hamlet stops, drains, and its record and engine records are written; a failure loses the launch its context. -/
def State.hamletSave (s : State) (k h : Nat) (l : LaunchSt) : State :=
  let s := (hamletKeys h).foldl (fun s key => s.setThr key (s.thr key).drain) s
  let r := s.fresh
  let s := r.2
  let m := s.saveMapFor k h
  match State.saveAll m (l.desc.save + saveOff h) (s.savePieces h r.1) s with
  | none => s.contextLost k
  | some s =>
    let x : SavedHamlet := { handle := k, hamlet := h, threads := (hamletKeys h).map (fun key => (key, s.thr key)), stores := s.hamletStore h,
                              barH := (s.hamlet h).barH, ring2 := s.ring2Words h, dma2 := s.dmaRing h 2, acts := [], span := s.span h }
    { s with aq := { s.aq with saved := s.aq.saved ++ [x] } }

/-- R121. The waiting launch that takes the hamlet by priority: the first in the queues, of higher priority than the holder. -/
def State.preemptor (s : State) (h : Nat) : Option Nat :=
  if !s.on R.ENG_CTL_PREEMPT_EN || !s.savable h then none
  else match (s.hamlet h).holder with
    | none => none
    | some k => match s.launch k with
      | none => none
      | some l =>
        (s.aq.launches.find? (fun p => (p.2.phase == .queued) && bitAt p.2.desc.hmask h && decide (l.desc.prio < p.2.desc.prio) &&
          s.aq.launches.all (fun q => decide (q.1 = p.1) || (q.2.phase == .running) || !q.2.ahead p.2))).map (·.1)

/-- R121–R123. The scheduler selects a hamlet, by priority or for PREEMPT, and writes its context. -/
def execHamletSave (hamlet : Nat) (s : State) : Host.Outcome State Fault Refusal :=
  .next (match (s.hamlet hamlet).holder with
    | none => s
    | some k => match s.launch k with
      | none => s
      | some l =>
        if (s.hamlet hamlet).subst.isSome then s
        else match (s.hamlet hamlet).phase with
        | .saving _ => if (s.savedIdx k hamlet).isSome then s else s.hamletSave k hamlet l
        | .normal => (match s.preemptor hamlet with
          | some w => ((s.setHamlet hamlet { s.hamlet hamlet with phase := .saving (some w) }).syncEng).hamletSave k hamlet l
          | none => s)
        | .restoring _ => s)

/-- R125. The group header. -/
def groupHeader (work hmask seq ptp : Nat) : List Byte :=
  [0x41, 0x51, 0x43, 0x58] ++ leBytes 4 work ++ leBytes 4 hmask ++ leBytes 4 seq ++ leBytes 8 ptp ++ zeros 4072

/-- R123. The unit's position leaves the hamlet with its saved context. -/
def State.dropSpan (s : State) (h : Nat) : State := ({ s with syn := { s.syn with spans := tabDel s.syn.spans h } } : State).syncActive

/-- R123 step 5. Another hamlet of the group is still being saved. -/
def State.groupOpen (s : State) (k h : Nat) : Bool :=
  (s.held k).any (fun o => decide (o ≠ h) && (match (s.hamlet o).phase with
    | .saving _ => true
    | _ => false))

/-- R123, R124. A hamlet's save completes: the header is written and PREEMPTS counted with the last hamlet of the group, the hamlet is
free for the waiting launch, and an ABORT or substitution that waited goes on. -/
def execSaveComplete (hamlet : Nat) (s : State) : Host.Outcome State Fault Refusal :=
  .next (match (s.hamlet hamlet).phase, (s.hamlet hamlet).holder with
    | .saving _, some k => (match s.launch k, s.savedIdx k hamlet with
      | some l, some _ =>
        let last := !s.groupOpen k hamlet
        let mask := l.savedMask ||| 2 ^ hamlet
        let l := { l with savedMask := mask, preempts := l.preempts + b2n last, saveSeq := l.saveSeq + b2n last }
        let l := if mask = l.desc.hmask then { l with runTicks := l.runTicks + (s.ticks - l.runFrom), clkRun := l.clkRun + (s.coreClk l.first - l.clkFrom) } else l
        let s := (s.bump (R.ENG_CNT_COUNT hamlet 3)).setLaunch k l
        let hdr := if last then s.saveWrite (s.saveMapFor k l.first) l.desc.save (groupHeader l.desc.work mask l.saveSeq s.ptpNs) else some s
        (match hdr with
         | none => s.contextLost k
         | some s =>
           let s := ((s.freeHamlet hamlet).dropSpan hamlet).syncEng
           let s := s.runSubstWaits hamlet
           if last ∧ l.abortStatus ≠ 0 then s.abortLaunch k l.abortStatus else s)
      | _, _ => s)
    | _, _ => s)

/-- R121–R123, R103. A free hamlet is given back to its saved launch: the area is read and the constants are loaded again; a failure
loses the launch its context. -/
def execHamletRestore (hamlet : Nat) (s : State) : Host.Outcome State Fault Refusal :=
  .next (match s.restorable hamlet with
    | none => s
    | some k => match s.launch k with
      | none => s
      | some l =>
        let m := s.saveMapFor k hamlet
        let base := l.desc.save + saveOff hamlet
        let ok := s.ctxOn l.desc.ctx && s.saveReadable m base 0x1000 && (List.range 16).all (fun e =>
          let o := base + 0x1000 + e * 0x51000
          s.saveReadable m o 0x10A00 && s.saveReadable m (o + 0x11000) 0x40000)
        if !ok then s.contextLost k
        else match s.vread l.desc.ctx l.desc.const .read l.desc.constSize with
          | .error e => (s.accFail hamlet 0 l.desc.ctx l.desc.const .read 2 e).abortLaunch k 0x12
          | .ok bs => ((s.loadConst hamlet bs).setHamlet hamlet { s.hamlet hamlet with holder := some k, phase := .restoring k }).syncEng)

/-- R119. The answers that waited for the restore. -/
def State.lateAnswers (s : State) (k : Nat) (acts : List (Nat × Bool)) : State :=
  acts.foldl (fun s a => s.answer k a.1 a.2) s

/-- R119, R123, R365. A restore completes: threads, stores, barriers and ring 2 are as saved, and the threads run on. -/
def execRestoreComplete (hamlet : Nat) (s : State) : Host.Outcome State Fault Refusal :=
  .next (match (s.hamlet hamlet).phase, (s.hamlet hamlet).holder with
    | .restoring k, some k' =>
      if k ≠ k' then s else
      (match s.launch k, s.aq.saved.find? (fun x => decide (x.handle = k) && decide (x.hamlet = hamlet)) with
      | some l, some x =>
        let s := x.threads.foldl (fun (s : State) p => s.setThr p.1 p.2) s
        let keep := s.aq.lstore.filter (fun p => decide (p.1 / 2 ^ 22 ≠ hamlet))
        let s := { s with aq := { s.aq with
          lstore := x.stores.foldl (fun m (p : Nat × Byte) => mapPut byteDefault m p.1 p.2) keep,
          saved := s.aq.saved.filter (fun y => !(decide (y.handle = k) && decide (y.hamlet = hamlet))) } }
        let s := s.setHamlet hamlet { s.hamlet hamlet with phase := .normal, barH := x.barH }
        let s := s.ring2Load hamlet x.ring2 x.dma2
        let all := decide (l.savedMask = l.desc.hmask)
        let l := { l with savedMask := l.savedMask - 2 ^ hamlet, runFrom := if all then s.ticks else l.runFrom,
                          clkFrom := if all then s.coreClk l.first else l.clkFrom }
        let s := match x.span with
          | some sp => s.setSpan hamlet sp
          | none => s
        ((((s.setLaunch k l).lateAnswers k x.acts).syncEng).syncActive).runSubstWaits hamlet
      | _, _ => s)
    | _, _ => s)

/-! ### Spare engines (R126–R128, R413) -/

/-- R126. A failing engine stops and drains, and its move to the spare begins. -/
def execEngineSubstitution (hamlet logical : Nat) (s : State) : Host.Outcome State Fault Refusal := .next (s.substitute hamlet logical)

/-- R126, R127, R439. The move completes: the spare carries the logical engine, and the engine it leaves goes to its self-test; after a
rotation it is the spare. -/
def execSubstitutionComplete (hamlet : Nat) (s : State) : Host.Outcome State Fault Refusal :=
  .next (
    let x := s.hamlet hamlet
    match x.subst with
    | none => s
    | some m =>
      let old := s.get (R.ENG_MAP_PHYS hamlet m.logical)
      let s := ((s.put (R.ENG_MAP_PHYS hamlet m.logical) m.spare).put (R.ENG_HSTAT_SPARE hamlet) 0x1F).bump (R.ENG_CNT_COUNT hamlet 4)
      let s := s.setHamlet hamlet { x with subst := none, testing := if m.rotate then x.testing else some old, spareOk := false, bistFails := 0 }
      let s := if m.rotate then s.put (R.ENG_HSTAT_SPARE hamlet) old else s
      (((s.substNote [7, hamlet, old]).log 7 0 hamlet 4 0 old).raise Irq.ENG_SUBST).runSubstWaits hamlet)

/-- R413. A pass of the spare's self-test ends: the spare is SPARE_OK, or the pass is repeated, or the engine is retired. -/
def execSpareBistPass (hamlet : Nat) (ok : Bool) (s : State) : Host.Outcome State Fault Refusal :=
  .next (
    let x := s.hamlet hamlet
    let sp := s.get (R.ENG_HSTAT_SPARE hamlet)
    if sp = 0x1F ∨ x.subst.isSome then s
    else if ok then
      let s := { s with cal := { s.cal with bist := tabPut s.cal.bist (hamlet * 32 + sp) s.ticks } }
      s.setHamlet hamlet { x with spareOk := true, bistFails := 0, passes := min 65535 (x.passes + 1) }
    else if x.bistFails = 0 then s.setHamlet hamlet { x with spareOk := false, bistFails := 1 }
    else (s.setHamlet hamlet { x with spareOk := false, bistFails := 0, retired := x.retired ||| 2 ^ sp }).put (R.ENG_HSTAT_SPARE hamlet) 0x1F)

end Sys2Proof.Machine
end

