-- ==== Sys2Proof/Machine/Calib.lean ====
section
/-! DEFINITION. The Gleaner: its tasks, the checks of their results, the approach of new values, exchanges and rotations, and requests
(R338, R416, R437–R444). -/
namespace Sys2Proof.Machine

/-- Replace the calibration state. -/
def State.setCal (s : State) (x : CalSt) : State := { s with cal := x }

/-! ### Tasks and results (R437, R440–R442) -/

/-- R442. Does the Gleaner run task `n`: CAL_CTL.EN and the task's enable? -/
def State.calRuns (s : State) (n : Nat) : Bool := s.on R.CAL_CTL_EN && bitAt (s.get R.CAL_TASKEN_TASK) (n - 1)
/-- Count one event of a task: 0 RUNS, 1 APPLIED, 2 REJECTED, 3 DEFERRED, 4 FORCED, 5 DIP_DISCARD, 6 EXCHANGES. -/
def State.calCount (s : State) (task n : Nat) : State := s.bump (R.CAL_CNT_COUNT task n)
/-- R442. A supply-dip episode is under way. -/
def State.inDip (s : State) : Bool := s.on R.SPV_STAT_DIP

/-- R437. Is a task that runs every `n` seconds due on an element? It is at first, and again after a result that was rejected or
discarded (R440, R442). -/
def State.calDue (s : State) (key n : Nat) : Bool :=
  match tabGet s.cal.ran key with
  | some t => decide (n * 1000000 ≤ s.since t)
  | none => true

/-- The key of an element of a task. -/
def elemKey (task elem : Nat) : Nat := task * 2 ^ 32 + elem
/-- R441, R455. An element: a sensor's offset stands in THM_TRIM, any other value is 0 before its first result. -/
def State.calElem (s : State) (task elem : Nat) : CalElem :=
  match tabGet s.cal.elems (elemKey task elem) with
  | some e => e
  | none =>
    let v := if task = 4 then toInt 8 (s.get (R.THM_TRIM_OFS elem)) else 0
    ⟨v, v, 0⟩
/-- Replace an element. -/
def State.setCalElem (s : State) (task elem : Nat) (e : CalElem) : State :=
  s.setCal { s.cal with elems := tabPut s.cal.elems (elemKey task elem) e }

/-- R440. The block of the unit that a task's elements belong to. -/
def taskBlock : Nat → Nat
  | 1 => 13 | 2 => 20 | 3 => 16 | 4 => 23 | 5 => 15 | 6 => 13 | _ => 7

/-- R339, R440. The unit that an element belongs to: a DRAM channel's elements of its speed points belong to the channel. -/
def elemUnit (task elem : Nat) : Nat := if task = 2 then elem % 64 else elem

/-- R440. A result is rejected: the old values stay, and the third rejection in a row queues the element's targeted self-test. -/
def State.calReject (s : State) (task elem : Nat) : State :=
  let e := s.calElem task elem
  let s := ((s.calCount task 2).log 22 0 task 2 1 (elemUnit task elem)).raise Irq.CAL_REJ
  if e.rejects + 1 < 3 then s.setCalElem task elem { e with rejects := e.rejects + 1 }
  else
    let src := logSource (taskBlock task) 0 (elemUnit task elem)
    let s := s.setCalElem task elem { e with rejects := 0 }
    if s.hlt.tests.any (fun p => decide (p.1 = src)) then s
    else { s with hlt := { s.hlt with tests := s.hlt.tests ++ [(src, s.lastSeq)] } }

/-- R440, R441. A result is accepted: it replaces the element's target. -/
def State.calAccept (s : State) (task elem : Nat) (target : Int) : State :=
  (s.calCount task 1).setCalElem task elem { s.calElem task elem with target := target, rejects := 0 }

/-- R437, R440, R442. A task's result for an element: discarded in a supply-dip episode, rejected outside its limits, else accepted. The
run counts toward the task's interval only where the result is accepted. -/
def State.calResult (s : State) (task elem : Nat) (ok : Bool) (target : Int) : State :=
  let s := s.calCount task 0
  let ran := if s.inDip || !ok then tabDel s.cal.ran (elemKey task elem) else tabPut s.cal.ran (elemKey task elem) s.ticks
  let s := s.setCal { s.cal with ran := ran }
  if s.inDip then s.calCount task 5
  else if ok then s.calAccept task elem target else s.calReject task elem

/-! ### Frame steps (R437, R441, R442) -/

/-- R441. One step toward a target. -/
def stepTo (value target : Int) : Int := if value < target then value + 1 else if target < value then value - 1 else value

/-- R441. Is the element's step due at a frame step? The D-PHY taps step at the port's own frame starts; a Wydel lane steps while it is in
the spare role. -/
def State.stepsNow (s : State) (key : Nat) : Bool :=
  let task := key / 2 ^ 32
  let elem := key % 2 ^ 32
  if task = 3 then false
  else if task = 1 then decide (s.get (R.WYL_PSTAT_PSPARE (elem / 8)) = elem % 8) else true

/-- R441, R455. One element steps; a sensor's offset is shown in THM_TRIM and recorded (R470). -/
def State.stepElem (s : State) (p : Nat × CalElem) : State :=
  let v := stepTo p.2.value p.2.target
  let s := s.setCal { s.cal with elems := tabPut s.cal.elems p.1 { p.2 with value := v } }
  if p.1 / 2 ^ 32 = 4 then (s.put (R.THM_TRIM_OFS (p.1 % 2 ^ 32)) (ofInt 8 v)).ledgerAsk 0x27 [p.1 % 2 ^ 32, ofInt 8 v] else s

/-- R439. One leg of a termination is replaced. -/
def TermSt.step (x : TermSt) : TermSt :=
  let out := (List.range 24).find? (fun i => bitAt x.sel i && !bitAt x.target i)
  let inn := (List.range 24).find? (fun i => !bitAt x.sel i && bitAt x.target i)
  let sel := match out with
    | some i => x.sel - 2 ^ i
    | none => x.sel
  { x with sel := match inn with
    | some i => sel + 2 ^ i
    | none => sel }

/-- R437, R441, R442. A frame step: every element moves one step toward its target. None is taken in a supply-dip episode, in HOLD under
R204 or R205, or while EN is 0. -/
def State.gleanerStep (s : State) : State :=
  if !s.on R.CAL_CTL_EN || s.inDip || s.sco.hold == some 2 then s
  else
    let s := s.setCal { s.cal with terms := s.cal.terms.map (fun p => (p.1, p.2.step)), stepAt := s.ticks }
    (s.cal.elems.filter (fun p => s.stepsNow p.1 && decide (p.2.value ≠ p.2.target))).foldl State.stepElem s

/-- R437. While scan-out is not running, a frame step is taken every 16.667 ms. -/
def execFrameStepTimer (s : State) : Host.Outcome State Fault Refusal :=
  .next (if s.sco.inFrame || decide (s.since s.cal.stepAt < 16667) then s else s.gleanerStep)

/-! ### The tasks (R437) -/

/-- R439. An active lane of a port with errors in the last ten seconds. -/
def State.lameLane (s : State) (t : Nat) : Option Nat :=
  (List.range 4).find? (fun l => ((tabGet (s.port t).errs (s.physLane t l)).getD []).any (fun e => decide (e.2 ≠ 0) && !s.older 10 e.1))

/-- R437, R439. LANE_ADAPT on a port: whether the lane was clean over four intervals, the back-channel eye in mV and 1/128 UI, and the
equalisation preset found, every LANE_S seconds. -/
def execLaneAdapt (tile : Nat) (clean : Bool) (mv ui preset : Nat) (s : State) : Host.Outcome State Fault Refusal :=
  .next (
    if !s.calRuns 1 then s
    else if !s.portServes tile || !s.hasSpare tile then s.calCount 1 3
    else
      let p := s.get (R.WYL_PSTAT_PSPARE tile)
      if !s.calDue (elemKey 1 (tile * 8 + p)) (zeroActs 1 (s.get R.CAL_PERIOD_LANE_S)) then s
      else
      let s := s.calResult 1 (tile * 8 + p) (clean && decide (30 ≤ mv) && decide (300 * 128 ≤ ui * 1000)) preset
      if s.inDip then s
      else
        let s := (s.put (R.HLT_EYE_HEIGHT tile) mv).put (R.HLT_EYE_WIDTH tile) ui
        if !s.on R.CAL_CTL_EXCH_EN then s
        else match s.lameLane tile with
          | some l => s.exchangeLane tile l
          | none => s)

/-- R293, R437, R531. DPHY_SKEW: a deskew sequence gives the skew of a lane of a camera port in taps of 1/32 UI; with every lane within
±0.5 UI the port is DESKEWED (assumption 95). -/
def execDphySkew (port lane : Nat) (taps : Int) (s : State) : Host.Outcome State Fault Refusal :=
  .next (
    if !s.calRuns 3 then s
    else
      let e := s.calElem 3 (port * 8 + lane)
      let out := s.cal.skewed.filter (fun k => decide (k ≠ port * 8 + lane))
      let out := if taps.natAbs ≤ 16 then out else (port * 8 + lane) :: out
      let s := (s.setCal { s.cal with skewed := out }).put (R.CAM_PSTAT_DESKEWED port) (b2n (out.all (fun k => decide (k / 8 ≠ port))))
      s.calResult 3 (port * 8 + lane) (decide (taps.natAbs ≤ 16) && decide ((taps - e.value).natAbs ≤ 4)) taps)

/-- R437, R441. At a frame start of a port's slots its taps move one step. -/
def State.dphyStep (s : State) (port : Nat) : State :=
  if !s.on R.CAL_CTL_EN || s.inDip then s
  else (s.cal.elems.filter (fun p => decide (p.1 / 8 = (3 * 2 ^ 32) / 8 + port))).foldl State.stepElem s

/-- R437. TSENSE_TRIM: the offset of a die sensor found against its reference diode, in 1/8 °C, every 60 s. -/
def execTsenseTrim (sensor : Nat) (ofs : Int) (s : State) : Host.Outcome State Fault Refusal :=
  .next (
    if !s.calRuns 4 || !s.calDue (elemKey 4 sensor) 60 then s
    else
      let e := s.calElem 4 sensor
      s.calResult 4 sensor (decide (ofs.natAbs ≤ 24) && decide ((ofs - e.value).natAbs ≤ 4)) ofs)

/-- R261, R265, R437. Is a string lit: its chain found and not blanked, and the string not switched off? -/
def State.stringLit (s : State) (c drv str : Nat) : Bool := (s.chain c).found && !s.chainBlanked c && !s.stringOff (s.chain c) drv str

/-- R437. BKL_TRIM: the trim of a lit string computed from ISENSE, and the deviation measured, in 1/4,096. -/
def execBklTrim (chain driver str : Nat) (trim dev : Int) (s : State) : Host.Outcome State Fault Refusal :=
  .next (
    if !s.calRuns 5 || !s.stringLit chain driver str then s
    else s.calResult 5 (chain * 4096 + driver * 16 + str) (decide (trim.natAbs * 100 ≤ 3 * 4096) && decide (dev.natAbs * 100 ≤ 10 * 4096)) trim)

/-- R439. The termination as it is first: sixteen legs of 800 Ω give 50 Ω. -/
def termDefault : TermSt := ⟨0xFFFF, 0xFFFF, 0⟩
/-- R439. A leg that measures outside 800 Ω ± 20 %. -/
def legBad (ohm : Nat) : Bool := decide (ohm < 640) || decide (960 < ohm)
/-- R439. The distance of the parallel value of some legs from 50 Ω, as a fraction of two conductances in nΩ⁻¹: |G − G50|. -/
def legMiss (g : Nat) : Nat := if g < 20000000 then 20000000 - g else g - 20000000
/-- The mask of legs, and their conductance in nΩ⁻¹. -/
def legSet (ohms : List Nat) (ls : List Nat) : Nat × Nat := ((ls.map (2 ^ ·)).sum, (ls.map (fun i => 1000000000 / ohms.getD i 1)).sum)

/-- R437, R439. TERM_TRIM: the 24 legs of a termination as measured. The legs nearest to 50 Ω are chosen among the good ones, lowest
numbers first, 12 to 20 of them, every 60 s. -/
def execTermTrim (term : Nat) (ohms : List Nat) (s : State) : Host.Outcome State Fault Refusal :=
  .next (
    if !s.calRuns 6 || !s.calDue (elemKey 6 term) 60 then s
    else
      let x := (tabGet s.cal.terms term).getD termDefault
      let bad := (List.range 24).foldl (fun b i => if legBad (ohms.getD i 0) && !bitAt b i then b + 2 ^ i else b) x.bad
      let good := (List.range 24).filter (fun i => !bitAt bad i)
      let sets := ((List.range 9).map (· + 12)).map (fun n => legSet ohms (good.take n))
      let best := sets.foldl (fun (b : Nat × Nat) c => if legMiss c.2 < legMiss b.2 then c else b) (legSet ohms (good.take 12))
      let ok := decide (12 ≤ good.length) && decide (45 * best.2 ≤ 1000000000) && decide (1000000000 ≤ 55 * best.2)
      let s := s.calResult 6 term ok 0
      if s.inDip then s
      else s.setCal { s.cal with terms := tabPut s.cal.terms term (if ok then { x with target := best.1, bad := bad } else { x with bad := bad }) })

/-- R339. The element of a controller's channel at the speed point in force: each point keeps its own trained values. -/
def State.dramElem (s : State) (k : Nat) : Nat := 64 * s.get R.MEM_STAT_SPEED + k

/-- R338, R437, R441. The margins and the centre move of a channel's retraining are judged: margins in 1/64 UI, the move in 1/128 UI. -/
def State.retrainResult (s : State) (k rd wr : Nat) (move : Int) : State :=
  let ok := decide (6 ≤ rd) && decide (6 ≤ wr) && decide (move.natAbs ≤ 8)
  let dip := s.inDip
  let s := s.calResult 2 (s.dramElem k) ok ((s.calElem 2 (s.dramElem k)).value + move)
  if dip then s
  else
    let s := (s.put (R.HLT_HMARG_RD k) rd).put (R.HLT_HMARG_WR k) wr
    if ok then s else s.bump (R.MEM_CNT_COUNT k 9)

/-- R416. A margin check that waits for this controller is made: it passes, or the lane is failing and is repaired. -/
def State.laneTest (s : State) (k : Nat) (ok : Bool) : State :=
  match s.hlt.laneTests.find? (fun p => decide (p.1 / 128 = k)) with
  | none => s
  | some (key, seq) =>
    let s := { s with hlt := { s.hlt with laneTests := s.hlt.laneTests.filter (fun p => decide (p.1 ≠ key)) } }
    let s := s.testOutcome seq (!ok) [20, k, key % 128]
    if ok || !s.on R.MEM_CTL_REPAIR_EN then s else s.repairLane k (key / 64 % 2) (key % 64)

/-- R341, R412. An unused spare is exercised; one that fails is not used. -/
def State.spareExercise (s : State) (k : Nat) : Option Nat → State
  | none => s
  | some n =>
    if !bitAt (s.get (if n < 4 then R.MEM_CHSTAT_SPARES0 k else R.MEM_CHSTAT_SPARES1 k)) (n % 4) || s.hlt.exercise.contains (8 * k + n) then s
    else { s with hlt := { s.hlt with exercise := (8 * k + n) :: s.hlt.exercise } }

/-- R338, R341, R416. A retraining slot follows a per-bank refresh of a pseudo-channel, unless an urgent ISO read waits there. A margin check that is queued runs in
it; `badSpare` is an unused spare (4 × pseudo-channel + byte) whose exercise fails; the last of the 64 slots gives the result. -/
def execRetrainSlot (chan : Chan) (rd wr : Nat) (move : Int) (laneOk : Bool) (badSpare : Option Nat) (s : State) : Host.Outcome State Fault Refusal :=
  .next (
    let ctrl := chan.ctrl
    let c := s.ctrl ctrl
    if s.on R.MEM_STAT_CHANGING || !s.dramOpen then s
    else if c.rq.any (fun r => decide (s.paPc r.pa = chan.pc) && s.urgent r) then s.calCount 2 3
    else
      let s := (s.laneTest ctrl laneOk).spareExercise ctrl badSpare
      let c := s.ctrl ctrl
      if c.slots = 0 || !s.calRuns 2 then s
      else
        let s := s.setCtrl ctrl { c with slots := c.slots - 1 }
        if c.slots = 1 then (((s.trainedNow ctrl).bump (R.MEM_CNT_COUNT ctrl 8)).put (R.MEM_CHSTAT_RETRAINING ctrl) 0).retrainResult ctrl rd wr move else s)

/-- R442. Targets of the old speed point are dropped. -/
def State.dropTargets (s : State) : State :=
  s.setCal { s.cal with elems := s.cal.elems.map (fun p => if p.1 / 2 ^ 32 = 2 then (p.1, { p.2 with target := p.2.value }) else p) }

/-- R339. Lines of blanking left before the earliest possible next FRAME_START, in PIX clocks: VTOTAL_MIN, or the predicted edge. -/
def State.blankLeft (s : State) : Nat :=
  if s.lockedClass then
    (match s.sco.edgeAt with
     | some e => e + s.pMeas + s.getA R.SCO_PHASE_PHASE - s.pix
     | none => (s.vMin - s.sco.line) * s.lineClks)
  else (s.vMin - s.sco.line) * s.lineClks

/-- R339, R340. A pending speed change starts: at the start of a blanking with 200 µs left, or at any time while scan-out is not running;
with CAM_WAIT only while no camera slot has a frame in progress. -/
def execSpeedChangeStart (s : State) : Host.Outcome State Fault Refusal :=
  .next (
    let window := !s.sco.inFrame || (s.sco.blank && decide (s.sco.line = s.active) && decide (62500 ≤ s.blankLeft))
    let camOk := !s.on R.MEM_SPEED_CAM_WAIT || !(s.cam.slots.any (fun p => p.2.frames.any (·.isOpen)))
    if !s.on R.MEM_STAT_PENDING || !s.on R.MEM_STAT_TRAINED || !window || !camOk then s
    else ((s.dropRetraining.put R.MEM_STAT_PENDING 0).put R.MEM_STAT_CHANGING 1).dropTargets)

/-! ### Self-tests of units without a spare (R416, R418, R438) -/

/-- R416, R418, R438, R444. The oldest queued logic and memory test runs in its gap. -/
def execSelftest (pass : Bool) (s : State) : Host.Outcome State Fault Refusal :=
  .next (match s.hlt.tests with
    | [] => s
    | (src, seq) :: rest =>
      if s.inDip then s.calCount 7 5
      else
        let s := ({ s with hlt := { s.hlt with tests := rest } }.calCount 7 0).put R.CAL_STAT_TEST_WAIT 0
        let s : State := if !pass && (src / 1024 = 7 || src / 1024 = 8) then { s with hlt := { s.hlt with shared := (src % 256) :: s.hlt.shared } } else s
        (if pass then s.calCount 7 1 else s).testOutcome seq (!pass) [src / 1024, src % 256])

/-- R416. The targeted self-test of an engine that left its place ends: it becomes the spare, or it is retired. -/
def execTargetedSelfTest (hamlet : Nat) (pass : Bool) (s : State) : Host.Outcome State Fault Refusal :=
  .next (
    let x := s.hamlet hamlet
    match x.testing with
    | none => s
    | some p =>
      if pass then
        let s := { s with cal := { s.cal with bist := tabPut s.cal.bist (hamlet * 32 + p) s.ticks } }
        ((s.setHamlet hamlet { x with testing := none, spareOk := true, bistFails := 0 }).put (R.ENG_HSTAT_SPARE hamlet) p).testOutcome x.testSeq false [7, hamlet, p]
      else (s.setHamlet hamlet { x with testing := none, retired := x.retired ||| 2 ^ p }).testOutcome x.testSeq true [7, hamlet, p])

/-! ### Engine rotation (R439) -/

/-- R439. The live logical engine whose physical engine has gone longest without a self-test pass. -/
def State.oldestEngine (s : State) (h : Nat) : Option Nat :=
  let at' := fun e => (tabGet s.cal.bist (h * 32 + s.get (R.ENG_MAP_PHYS h e))).getD 0
  ((List.range 16).filter (bitAt (s.live h))).foldl (fun (b : Option Nat) e =>
    match b with
    | some o => if at' e < at' o then some e else some o
    | none => some e) none

/-- R439, R442. A rotation starts: the oldest engine moves onto the spare. -/
def State.rotateEngine (s : State) (h : Nat) : State :=
  let x := s.hamlet h
  let sp := s.get (R.ENG_HSTAT_SPARE h)
  match s.oldestEngine h with
  | none => s
  | some e =>
    let s := (engineKeys (h * 16 + e)).foldl (fun (s : State) key => s.setThr key (s.thr key).drain) s
    (s.setHamlet h { x with subst := some ⟨e, sp, true⟩ }).calCount 8 6

/-- R439. May the hamlet's spare take a rotation? -/
def State.mayRotate (s : State) (h : Nat) : Bool :=
  let x := s.hamlet h
  x.spareOk && decide (x.phase = .normal) && x.subst.isNone && x.substWait.isEmpty && decide (s.get (R.ENG_HSTAT_SPARE h) ≠ 0x1F)

/-- R437, R439, R442. ENG_ROTATE on a hamlet, every ENG_H hours. -/
def execEngRotate (hamlet : Nat) (s : State) : Host.Outcome State Fault Refusal :=
  .next (
    if !s.calRuns 8 || !s.on R.CAL_CTL_EXCH_EN || decide (s.get R.CAL_PERIOD_ENG_H = 0) || s.inDip || !s.calDue (elemKey 8 hamlet) (3600 * s.get R.CAL_PERIOD_ENG_H) then s
    else if s.mayRotate hamlet then ((s.calCount 8 0).setCal { s.cal with ran := tabPut s.cal.ran (elemKey 8 hamlet) s.ticks }).rotateEngine hamlet else s.calCount 8 3)

/-! ### Requests (R443, R444) -/

/-- R443. How many instances a unit's block has for requests; 0 for a block without a unit to test or calibrate. -/
def State.instances (s : State) : Nat → Nat
  | 5 => 18 | 6 => 8 | 7 => s.member.hamlets | 8 => s.member.hamlets | 9 => 1 | 10 => 1 | 11 => s.member.tiles | 12 => 1
  | 13 => 320 | 15 => 4 | 16 => 32 | 17 => 32 | 20 => 64 | 23 => 40 | _ => 0

/-- R437, R443. The blocks whose units a task serves. -/
def taskServes : Nat → Nat → Bool
  | 1, b => b == 13 | 2, b => b == 20 | 3, b => b == 16 | 4, b => b == 23 | 5, b => b == 15
  | 6, b => b == 13 || b == 16 || b == 20 | 7, _ => true | 8, b => b == 7 | _, _ => false

/-- R443. Does the request name a task, unit and instance that exist? A Wydel lane is physical lane × 64 + tile. -/
def State.requestOk (s : State) (task blk inst : Nat) : Bool :=
  taskServes task blk && decide (inst < s.instances blk) && (blk != 13 || decide (inst % 64 < s.member.tiles))

/-- R443. Can a spare stand in? -/
def State.spareStands (s : State) (task blk inst : Nat) : Bool :=
  match blk with
  | 7 => s.mayRotate inst && (task == 7 || task == 8)
  | 13 =>
    let t := inst % 64
    let p := inst / 64
    (task == 1 || task == 7) && s.portServes t && s.hasSpare t && !s.laneRetired t p &&
      (decide (s.get (R.WYL_PSTAT_PSPARE t) = p) || s.on (R.WYL_PSTAT_SPARE_OK t))
  | 20 => (task == 2 || task == 7) && decide (s.get (R.MEM_CHSTAT_SPARES0 inst) + s.get (R.MEM_CHSTAT_SPARES1 inst) ≠ 0)
  | _ => false

/-- R443. The exercise of a unit for which a spare stands in. -/
def State.exerciseNow (s : State) (blk inst : Nat) : State :=
  match blk with
  | 7 => s.rotateEngine inst
  | 13 =>
    let t := inst % 64
    let p := inst / 64
    if s.get (R.WYL_PSTAT_PSPARE t) = p then s.qualify t
    else match s.logLane t p with
      | some l => s.exchangeLane t l
      | none => s
  | _ => { s with hlt := { s.hlt with laneTests := s.hlt.laneTests ++ [(inst * 128, s.lastSeq)] } }

/-- R438. A unit whose gap is vertical blanking: its slice and interval in µs, or none while blanking offers no slice. -/
def State.blankSlice (s : State) : Option (Nat × Nat) :=
  if !s.sco.inFrame then some (16667, 16667)
  else
    let n := s.vMin - s.active - 4
    if n = 0 then none else some (n * s.lineClks * 16 / 5000, s.vMax * s.lineClks * 16 / 5000)

/-- R438. The gap of a unit: 0 vertical blanking, 1 refresh windows, 2 unit idle or electrical idle, 3 D-PHY LP state. -/
def gapOf (task blk : Nat) : Nat :=
  if blk = 20 then 1 else if blk = 11 ∨ blk = 12 then 0 else if blk = 16 then 3 else if blk = 13 ∧ task ≠ 6 then 0 else 2

/-- R443. BOUND_MS of a request. The length of a task and a sensor's frame period are not given (assumption 31). -/
def State.boundMs (s : State) (task blk : Nat) : Nat :=
  let len := Config.taskUs task blk
  let b := fun (sl p : Nat) => ceilDiv ((ceilDiv len (zeroActs 1 sl)) * p + p) 1000
  min 0xFFFF (match gapOf task blk with
    | 0 => (match s.blankSlice with
      | some (sl, p) => b sl p
      | none => 0xFFFF)
    | 1 => ceilDiv (ceilDiv (len * 1000) 128 * 814 + 814) 10000000
    | 2 => zeroActs 1 (s.get R.CAL_FORCE_MS)
    | _ => b (Config.taskUs 0 blk) (Config.taskUs 0 blk))

/-- R443. CAL_REQ.GO with the task, block and instance that stand there. -/
def State.calGo (s : State) : State :=
  let task := s.get R.CAL_REQ_TASK
  let blk := s.get R.CAL_REQ_BLOCK
  let inst := s.get R.CAL_REQ_INSTANCE
  let id := (s.get R.CAL_RSP_ID + 1) % 256
  let s := s.put R.CAL_RSP_ID id
  let queued := (s.cal.reqs.filter (fun r => !r.now)).length
  if !s.requestOk task blk inst || decide (8 ≤ queued) then (s.put R.CAL_RSP_ANSWER 2).put R.CAL_RSP_BOUND_MS 0
  else
    let now := s.spareStands task blk inst
    let bound := if now then 0 else s.boundMs task blk
    let s := s.setCal { s.cal with reqs := s.cal.reqs ++ [⟨id, task, blk, inst, bound, now, false, s.ticks⟩] }
    let s := (s.put R.CAL_RSP_ANSWER (b2n now)).put R.CAL_RSP_BOUND_MS bound
    if now then s.exerciseNow blk inst else s

/-- R443. A write of CAL_REQ with GO. -/
def execCalRequest (task block inst : Nat) (s : State) : Host.Outcome State Fault Refusal :=
  .next ((((s.put R.CAL_REQ_TASK task).put R.CAL_REQ_BLOCK block).put R.CAL_REQ_INSTANCE inst).calGo)

/-- R444. Is a request the next work of its unit: no triggered test of the unit is queued, and no earlier request of the unit is open? -/
def State.reqNext (s : State) (r : CalReq) : Bool :=
  s.hlt.tests.all (fun p => decide (p.1 / 1024 ≠ r.block) || decide (p.1 % 256 ≠ r.inst)) &&
  (s.cal.reqs.takeWhile (fun q => decide (q.id ≠ r.id))).all (fun q => decide (q.block ≠ r.block) || decide (q.inst ≠ r.inst))

/-- R442, R444. A request completes: CAL_DONE shows it, and the cause CAL_DONE is raised. -/
def execCalRequestDone (id : Nat) (pass : Bool) (s : State) : Host.Outcome State Fault Refusal :=
  .next (match s.cal.reqs.find? (fun r => decide (r.id = id)) with
    | none => s
    | some r =>
      if !s.on R.CAL_CTL_EN || s.inDip || !s.reqNext r then s
      else
        let s := (s.setCal { s.cal with reqs := s.cal.reqs.filter (fun q => decide (q.id ≠ id)) }).calCount r.task 0
        (((if pass then s.calCount r.task 1 else s).put R.CAL_DONE_ID id).put R.CAL_DONE_PASS (b2n pass)).raise Irq.CAL_DONE)

/-- R444. The bound of a queued request expires and its work is forced; a test whose gap offers no slice waits. -/
def execCalForceExpiry (id : Nat) (s : State) : Host.Outcome State Fault Refusal :=
  .next (match s.cal.reqs.find? (fun r => decide (r.id = id)) with
    | none => s
    | some r =>
      if r.forced || r.now || decide (s.since r.asked < 1000 * r.bound) then s
      else
        let s := (s.setCal { s.cal with reqs := s.cal.reqs.map (fun q => if q.id = id then { q with forced := true } else q) }).calCount r.task 4
        if gapOf r.task r.block = 0 ∧ s.blankSlice.isNone then s.put R.CAL_STAT_TEST_WAIT 1 else s)

end Sys2Proof.Machine
end

