-- ==== Sys2Proof/Machine/Isp.lean ====
section
/-! DEFINITION. The image pipeline as arithmetic: unpacking of raw lines, corrections, demosaicing, colour matrix, output formats and
statistics (R270, R275, R279, R281–R284). -/
namespace Sys2Proof.Machine

/-! ### Raw lines (R270, R273, R279) -/

/-- R270. The bits of a pixel of a data type; 0 for a type that is not supported. -/
def dtBits : Nat → Nat
  | 0x2A => 8 | 0x2B => 10 | 0x2C => 12 | 0x2D => 14 | 0x2E => 16 | _ => 0

/-- R270. Pixel `i` of a packed line. CSI-2 gives the packing (assumption 32). -/
def rawPixel (dt : Nat) (bs : List Byte) (i : Nat) : Nat :=
  let b := fun k => (bs.getD k 0).toNat
  match dt with
  | 0x2A => b i
  | 0x2B => b (i / 4 * 5 + i % 4) * 4 + bitsOf (b (i / 4 * 5 + 4)) (2 * (i % 4)) 2
  | 0x2C => b (i / 2 * 3 + i % 2) * 16 + bitsOf (b (i / 2 * 3 + 2)) (4 * (i % 2)) 4
  | 0x2D =>
    let g := i / 4 * 7
    b (g + i % 4) * 64 + bitsOf (b (g + 4) + 256 * b (g + 5) + 65536 * b (g + 6)) (6 * (i % 4)) 6
  | _ => b (2 * i) * 256 + b (2 * i + 1)

/-- R273, R279. The `w` normalised pixels of a line; missing pixels take the last received value. -/
def rawLine (dt w : Nat) (bs : List Byte) : List Nat :=
  let n := min w (bs.length * 8 / zeroActs 1 (dtBits dt))
  (List.range w).map (fun i => if n = 0 then 0 else rawPixel dt bs (min i (n - 1)) * 2 ^ (16 - dtBits dt))

/-! ### Sampled registers of a frame (R272, R294) -/

/-- A field of the sampled ISP words. -/
def CamFrame.ispF (f : CamFrame) (word lsb w : Nat) : Nat := bitsOf (f.isp.getD word 0) lsb w
/-- BL of a channel. -/
def CamFrame.bl (f : CamFrame) (ch : Nat) : Nat := f.ispF (ch / 2) (16 * (ch % 2)) 16
/-- WB of a channel. -/
def CamFrame.wb (f : CamFrame) (ch : Nat) : Nat := f.ispF (2 + ch / 2) (16 * (ch % 2)) 16
/-- Coefficient i of the colour matrix, in row order. -/
def CamFrame.ccm (f : CamFrame) (i : Nat) : Int := toInt 16 (f.ispF (4 + i / 2) (16 * (i % 2)) 16)
/-- Offset of an output. -/
def CamFrame.ofs (f : CamFrame) (i : Nat) : Int := toInt 16 (f.ispF (9 + i / 2) (16 * (i % 2)) 16)
/-- PAT; other values act as MONO. -/
def CamFrame.pat (f : CamFrame) : Nat := min 4 (bitsOf f.cfg 20 3)
/-- OUTFMT. -/
def CamFrame.fmt (f : CamFrame) : Nat := bitsOf f.cfg 18 2

/-- R279. The CFA channel of a pixel: 0 R, 1 Gr, 2 Gb, 3 B. -/
def CamFrame.chan (f : CamFrame) (x y : Nat) : Nat :=
  let p := x % 2 + 2 * (y % 2)
  match f.pat with
  | 0 => p
  | 1 => [1, 0, 3, 2].getD p 0
  | 2 => [2, 3, 0, 1].getD p 0
  | 3 => 3 - p
  | _ => 1

/-- R281. Neighbours beyond the image are mirrored. -/
def mirror (n : Nat) (i : Int) : Nat :=
  let j : Int := if i < 0 then -i else if (n : Int) ≤ i then 2 * ((n : Int) - 1) - i else i
  (clampI 0 ((n : Int) - 1) j).toNat

/-- Results are clamped to 0–65,535. -/
def clamp16 (i : Int) : Nat := (clampI 0 65535 i).toNat

/-! ### Corrections (R281) -/

/-- Black level at a pixel of the image. -/
def CamFrame.black (f : CamFrame) (x y : Int) : Nat :=
  let x := mirror f.w x
  let y := mirror f.h y
  (f.raws.getD y []).getD x 0 - f.bl (f.chan x y)

/-- Is the pixel listed in the defect map? -/
def CamFrame.listed (f : CamFrame) (x y : Int) : Bool := f.dmap.contains (mirror f.w x, mirror f.h y)

/-- Static defects. -/
def CamFrame.static (f : CamFrame) (x y : Int) : Nat :=
  if !f.listed x y then f.black x y
  else
    let ns := ([(x - 2, y), (x + 2, y), (x, y - 2), (x, y + 2)] : List (Int × Int)).filter (fun p => !f.listed p.1 p.2)
    if ns = [] then f.black x y else (ns.map (fun p => f.black p.1 p.2)).sum / ns.length

/-- A list of naturals in rising order. -/
def insertSorted (v : Nat) : List Nat → List Nat
  | [] => [v]
  | x :: xs => if v ≤ x then v :: x :: xs else x :: insertSorted v xs
/-- Sort by insertion. -/
def sortNat (l : List Nat) : List Nat := l.foldr insertSorted []

/-- Dynamic defects: the value, and whether it was corrected. -/
def CamFrame.dynamic (f : CamFrame) (x y : Int) : Nat × Bool :=
  let v := f.static x y
  if f.ispF 11 0 1 = 0 ∨ f.listed x y then (v, false)
  else
    let o : List Int := [-2, 0, 2]
    let ns := sortNat ((o.flatMap (fun dy => o.map (fun dx => (dx, dy)))).filterMap (fun p => if p.1 = 0 ∧ p.2 = 0 then none else some (f.static (x + p.1) (y + p.2))))
    let thr := f.ispF 11 16 16
    if ns.getD 7 0 + thr < v ∨ v + thr < ns.getD 0 0 then ((ns.getD 3 0 + ns.getD 4 0) / 2, true) else (v, false)

/-- Lens shading: the gain of a channel at a pixel, in binary32. -/
def CamFrame.gain (f : CamFrame) (grid : List Nat) (ch x y : Nat) : Nat :=
  let u := fdiv f32 (fmul f32 (fi x) (fi 63)) (fi (f.w - 1))
  let v := fdiv f32 (fmul f32 (fi y) (fi 47)) (fi (f.h - 1))
  let i := min 62 (ffloorInt u).toNat
  let j := min 46 (ffloorInt v).toNat
  let at' := fun i j => fi (grid.getD (ch * 3072 + j * 64 + i) 0)
  lerp4 (at' i j) (at' (i + 1) j) (at' i (j + 1)) (at' (i + 1) (j + 1)) (fsub f32 u (fi i)) (fsub f32 v (fi j))

/-- Line `y` after lens shading, from which statistics are taken. -/
def CamFrame.shaded (f : CamFrame) (y : Nat) : List Nat :=
  (List.range f.w).map (fun (x : Nat) =>
    let v := (f.dynamic x y).1
    match f.lsc with
    | none => v
    | some g => clamp16 (ffloorInt (fdiv f32 (fmul f32 (fi v) (f.gain g (f.chan x y) x y)) (fi 4096))))

/-- Line `y` after white balance. -/
def CamFrame.balanced (f : CamFrame) (y : Nat) : List Nat :=
  (f.shaded y).mapIdx (fun x v => min 65535 ((v * f.wb (f.chan x y) + 2048) / 4096))

/-- Dynamic corrections on line `y`. -/
def CamFrame.dynCount (f : CamFrame) (y : Nat) : Nat := ((List.range f.w).filter (fun (x : Nat) => (f.dynamic x y).2)).length

/-! ### Demosaicing, colour matrix and output (R275, R282, R283) -/

/-- R282. Green at a site, from five balanced lines: `v dx dy` is the balanced value at an offset. -/
def greenAt (v : Int → Int → Int) : Int :=
  let c := v 0 0
  let ch := (v (-1) 0 - v 1 0).natAbs + (2 * c - v (-2) 0 - v 2 0).natAbs
  let cv := (v 0 (-1) - v 0 1).natAbs + (2 * c - v 0 (-2) - v 0 2).natAbs
  let eh := (v (-1) 0 + v 1 0) / 2 + (2 * c - v (-2) 0 - v 2 0) / 4
  let ev := (v 0 (-1) + v 0 1) / 2 + (2 * c - v 0 (-2) - v 0 2) / 4
  (clamp16 (if ch < cv then eh else if cv < ch then ev else (eh + ev) / 2) : Int)

/-- R282. Red, green and blue of a pixel; `val x y` is the balanced image, mirrored at the edges. -/
def CamFrame.demosaic (f : CamFrame) (val : Int → Int → Int) (x y : Nat) : List Int :=
  if f.pat = 4 then [val x y, val x y, val x y]
  else
    let chn := fun (i j : Int) => f.chan (mirror f.w i) (mirror f.h j)
    let green := fun (i j : Int) => if chn i j = 1 ∨ chn i j = 2 then val i j else greenAt (fun dx dy => val (i + dx) (j + dy))
    let diff := fun (i j : Int) => val i j - green i j
    let X : Int := x
    let Y : Int := y
    let g := green X Y
    let row := (clamp16 (g + (diff (X - 1) Y + diff (X + 1) Y) / 2) : Int)
    let col := (clamp16 (g + (diff X (Y - 1) + diff X (Y + 1)) / 2) : Int)
    let dia := (clamp16 (g + (diff (X - 1) (Y - 1) + diff (X + 1) (Y - 1) + diff (X - 1) (Y + 1) + diff (X + 1) (Y + 1)) / 4) : Int)
    match f.chan x y with
    | 0 => [val X Y, g, dia]
    | 1 => [row, g, col]
    | 2 => [col, g, row]
    | _ => [dia, g, val X Y]

/-- R283. The colour matrix. -/
def CamFrame.matrix (f : CamFrame) (c : List Int) : List Nat :=
  (List.range 3).map (fun i => clamp16 (((List.range 3).map (fun j => f.ccm (3 * i + j) * c.getD j 0)).sum.add 2048 / 4096 + f.ofs i))

/-- R283. The binary16 value nearest to out / 65,535, ties to even. -/
def half65535 (n : Nat) : Nat := fround f16 .ne false (n * 2 ^ 40 / 65535) (-40) (decide (n * 2 ^ 40 % 65535 ≠ 0))

/-- R275, R283. The bytes of an output pixel. -/
def CamFrame.pixelOut (f : CamFrame) (c : List Nat) : List Byte :=
  let p := fun i => c.getD i 0
  if f.fmt = 1 then leBytes 2 (half65535 (p 0)) ++ leBytes 2 (half65535 (p 1)) ++ leBytes 2 (half65535 (p 2)) ++ leBytes 2 0x3C00
  else
    let q := fun i => min 1023 ((p i + 32) / 64)
    leBytes 4 (q 0 * 2 ^ 20 + q 1 * 2 ^ 10 + q 2)

/-- R275, R278. The bytes of output line `y`. -/
def CamFrame.outLine (f : CamFrame) (y : Nat) : List Byte :=
  if 2 ≤ f.fmt then (f.raws.getD y []).flatMap (leBytes 2)
  else
    let rows := (List.range 7).map (fun k => f.balanced (mirror f.h ((y : Int) + (k : Int) - 3)))
    let val := fun (i j : Int) => (((rows.getD (j - (y : Int) + 3).toNat []).getD (mirror f.w i) 0 : Nat) : Int)
    (List.range f.w).flatMap (fun x => f.pixelOut (f.matrix (f.demosaic val x y)))

/-! ### Statistics (R284) -/

/-- R284. Add one to a bin. -/
def bumpAt (l : List Nat) (i : Nat) : List Nat := listSet l i (min (2 ^ 32 - 1) (l.getD i 0 + 1))

/-- R284. The bin lists that a sample of a channel enters. -/
def CamFrame.bins (f : CamFrame) (ch : Nat) : List Nat :=
  if f.pat = 4 then [0, 1, 2] else [if ch = 0 then 0 else if ch = 3 then 2 else 1]

/-- R284. The four samples of the quad at quad coordinates, in channel order R, Gr, Gb, B. -/
def CamFrame.quad (f : CamFrame) (top bot : List Nat) (qx : Nat) : List Nat :=
  let px := [(2 * qx, 0), (2 * qx + 1, 0), (2 * qx, 1), (2 * qx + 1, 1)]
  let val := fun (p : Nat × Nat) => (if p.2 = 0 then top else bot).getD p.1 0
  if f.pat = 4 then px.map val
  else (List.range 4).map (fun c => match px.find? (fun p => decide (f.chan p.1 p.2 = c)) with
    | some p => val p
    | none => 0)

/-- R284. The cell of a quad along one axis. -/
def cellOf (n q cells : Nat) : Nat := if n / cells = 0 then cells - 1 else min (cells - 1) (q / (n / cells))

/-- R284. The histograms as 1,024 bins, and the grid as 768 cells of four words, after all lines. -/
def CamFrame.statistics (f : CamFrame) : List Nat × List Nat :=
  let lines := (List.range f.h).map f.shaded
  let h0 := List.replicate 1024 0
  let h1 := (lines.zip (List.range f.h)).foldl (fun h (p : List Nat × Nat) =>
    (p.1.zip (List.range f.w)).foldl (fun h (q : Nat × Nat) => (f.bins (f.chan q.2 p.2)).foldl (fun h b => bumpAt h (b * 256 + q.1 / 256)) h) h) h0
  let quads := (List.range (f.h / 2)).flatMap (fun qy => (List.range (f.w / 2)).map (fun qx => (qx, qy, f.quad (lines.getD (2 * qy) []) (lines.getD (2 * qy + 1) []) qx)))
  let h2 := quads.foldl (fun h q => bumpAt h (768 + q.2.2.sum / 4 / 256)) h1
  let dark := f.ispF 17 0 16
  let sat := f.ispF 17 16 16
  let grid := quads.foldl (fun (g : List Nat) q =>
    if q.2.2.all (fun v => decide (dark ≤ v) && decide (v ≤ sat)) then
      let c := 4 * (cellOf (f.h / 2) q.2.1 24 * 32 + cellOf (f.w / 2) q.1 32)
      let s := fun i => q.2.2.getD i 0
      let y := q.2.2.sum / 4
      let adds := if f.pat = 4 then [y, y, y, 1] else [s 0, (s 1 + s 2) / 2, s 3, 1]
      (List.range 4).foldl (fun g i => listSet g (c + i) (g.getD (c + i) 0 + adds.getD i 0)) g
    else g) (List.replicate 3072 0)
  (h2, grid)

end Sys2Proof.Machine
end

