-- ==== Sys2Proof/Machine/Camera.lean ====
section
/-! DEFINITION. Camera intake: packets, slot frames, pipe buffers, image and statistics writes, camera sets, and exposure requests
(R270–R278, R280, R284–R291). -/
namespace Sys2Proof.Machine

/-! ### Records of slots -/

/-- What an unlisted slot holds: nothing. -/
def slotDefault (_ : Nat) : SlotSt := ⟨false, [], none, none, [], none, 0, false, [], false⟩
/-- A slot beyond registers. -/
def State.slotSt (s : State) (n : Nat) : SlotSt := (tabGet s.cam.slots n).getD (slotDefault n)
/-- Replace a slot. -/
def State.setSlot (s : State) (n : Nat) (x : SlotSt) : State := { s with cam := { s.cam with slots := tabPut s.cam.slots n x } }
/-- The lines that wait in a pipe's buffer. -/
def State.pipe (s : State) (p : Nat) : List PipeLine := (tabGet s.cam.pipes p).getD []
/-- R278. The line that a pipe is processing. -/
def State.pipeBusy (s : State) (p : Nat) : Option PipeLine := tabGet s.cam.busy p
/-- R278, R294. Replace the lines that wait; ISP_PSTAT shows the pixels that wait. -/
def State.setPipe (s : State) (p : Nat) (l : List PipeLine) : State :=
  { s with cam := { s.cam with pipes := tabPut s.cam.pipes p l } }.put (R.ISP_PSTAT_FILL p) (l.map PipeLine.size).sum

/-- Replace the frame of a slot that has the key `k`. -/
def State.onFrame (s : State) (n k : Nat) (g : CamFrame → CamFrame) : State :=
  s.setSlot n { s.slotSt n with frames := (s.slotSt n).frames.map (fun f => if f.key = k then g f else f) }
/-- A slot's frame with the key `k`. -/
def State.camFrame (s : State) (n k : Nat) : Option CamFrame := (s.slotSt n).frames.find? (fun f => decide (f.key = k))
/-- FCOUNT of a slot's frame. -/
def State.frameCount (s : State) (n k : Nat) : Nat := ((s.camFrame n k).map CamFrame.fcount).getD 0
/-- The open frame of a slot. -/
def State.openFrame (s : State) (n : Nat) : Option CamFrame := (s.slotSt n).frames.find? (·.isOpen)

/-- R291, R293. A counted event of a slot, logged. -/
def State.camCount (s : State) (n c sev detail : Nat) : State := (s.bump (R.CAM_CNT_COUNT n c)).log 16 0 n c sev detail
/-- R271, R293. A counted event of a port, logged and raised. -/
def State.portCount (s : State) (p c : Nat) : State := ((s.bump (R.CAM_PCNT_COUNT p c)).log 16 1 p c 2 0).raise Irq.CAM_PKT_ERR
/-- R271, R294. A corrected header of a slot is counted, logged and raised. -/
def State.corrected (s : State) (n : Nat) (corr : Bool) : State := if corr then (s.camCount n 1 1 0).raise Irq.CAM_PKT_ERR else s
/-- R277. Mark a frame, count the event and raise CAM_MARK. -/
def State.camMark (s : State) (n k bit c : Nat) : State :=
  ((s.onFrame n k (fun f => { f with mark := f.mark ||| 2 ^ bit })).camCount n c 2 (s.frameCount n k)).raise Irq.CAM_MARK

/-- Adding to a 16-bit field that saturates. -/
def sat16 (a b : Nat) : Nat := min 65535 (a + b)

/-! ### Frame fields (R272) -/

/-- PIPE of the frame. -/
def CamFrame.pipe (f : CamFrame) : Nat := bitsOf f.cfg 14 2
/-- PRIO of the frame. -/
def CamFrame.prio (f : CamFrame) : Nat := bitsOf f.cfg 16 2
/-- DT of the frame. -/
def CamFrame.dt (f : CamFrame) : Nat := bitsOf f.cfg 8 6
/-- R275. RAW16 bypasses the pipe; OUTFMT 0b11 acts as it (assumption 33). -/
def CamFrame.bypass (f : CamFrame) : Bool := decide (2 ≤ f.fmt)

/-- R272. CAM_SCFG of a slot as its packets find it: as sampled for its open frame, or, at a frame start and between frames, as it stands. -/
def State.binding (s : State) (n : Nat) (start : Bool) : Nat :=
  match s.openFrame n with
  | some f => if start then s.word (R.CAM_SCFG_EN n).addr else f.cfg
  | none => s.word (R.CAM_SCFG_EN n).addr

/-- R272. The slots that receive a stream of (port, VC): among the bound slots that name it, the lowest of each DT. -/
def State.slotsOf (s : State) (port vc : Nat) (start : Bool) : List Nat :=
  let dt := fun n => bitsOf (s.binding n start) 8 6
  let named := (List.range 32).filter (fun n =>
    let b := s.binding n start
    bitAt b 0 && decide (bitsOf b 1 3 = port) && decide (bitsOf b 4 4 = vc))
  named.filter (fun n => !(named.any (fun m => decide (m < n) && decide (dt m = dt n))))

/-- R291, R293. Does the receiver of a port take packets? -/
def State.portTakes (s : State) (port : Nat) : Bool := s.on R.CAM_CTL_ENABLE && s.on (R.CAM_PCFG_EN port)

/-! ### Packets (R270, R271, R293) -/

/-- R293. The bytes of a packet, in order, from what the four data lanes received: CAM_PCFG gives the number of lanes, the lane that carries each
logical lane, and inversions (assumption 94). -/
def State.received (s : State) (port : Nat) (lanes : List (List Byte)) : List Byte :=
  let n := [1, 2, 4, 4].getD (s.get (R.CAM_PCFG_LANES port)) 4
  let lane := fun (l : Nat) =>
    let p := bitsOf (s.get (R.CAM_PCFG_MAP port)) (2 * l) 2
    if bitAt (s.get (R.CAM_PCFG_POL port)) p then (lanes.getD p []).map (fun b => ~~~b) else lanes.getD p []
  (List.range ((List.range n).map (fun l => (lane l).length)).sum).map (fun i => (lane (i % n)).getD (i / n) 0)

/-- R270. The virtual channel of a header: VC[1:0] from the data identifier, VC[3:2] from the VCX bits of the ECC byte. -/
def pktVc (b : List Byte) : Nat := bitsOf (leAt b 0 4) 6 2 + 4 * bitsOf (leAt b 0 4) 30 2
/-- R270. The data type of a header. -/
def pktDt (b : List Byte) : Nat := bitsOf (leAt b 0 4) 0 6
/-- The word count of a header, or the value that a short packet carries. -/
def pktWc (b : List Byte) : Nat := bitsOf (leAt b 0 4) 8 16
/-- The payload of a long packet. -/
def pktPayload (b : List Byte) : List Byte := (b.drop 4).take (pktWc b)

/-- One bit of the CSI-2 CRC-16, least significant bit first (assumption 94). -/
def crc16Step : Nat → Nat → Nat
  | 0, c => c
  | n + 1, c => crc16Step n (if c % 2 = 1 then c / 2 ^^^ 0x8408 else c / 2)
/-- R271. The CSI-2 CRC-16 of a payload, polynomial x^16 + x^12 + x^5 + 1. -/
def crc16 (bs : List Byte) : Nat := bs.foldl (fun c b => crc16Step 8 (c ^^^ b.toNat)) 0xFFFF
/-- R271. Does the checksum after the payload match? -/
def pktCrcOk (b : List Byte) : Bool := decide (crc16 (pktPayload b) = leAt b (4 + pktWc b) 2)

/-! ### Camera sets (R285–R287) -/

/-- Replace the set. -/
def State.setCamSet (s : State) (c : Option CamSet) : State := { s with cam := { s.cam with set := c } }

/-- R287. The 16 bytes of a slot's entry: STATUS, BUF, TOKEN, MARK, FCOUNT, TFLAGS. -/
def setEntry (status : Nat) (l : Option CamLast) : List Byte :=
  match l with
  | none => leBytes 1 status ++ leBytes 1 0xFF ++ leBytes 2 0 ++ leBytes 4 (if status = 0 then 0 else 2 ^ 4) ++ leBytes 4 0 ++ leBytes 2 0 ++ leBytes 2 0
  | some l => leBytes 1 status ++ leBytes 1 l.buf ++ leBytes 2 l.token ++ leBytes 4 (if status = 0 then l.mark else l.mark ||| 2 ^ 4) ++ leBytes 4 l.fcount ++ leBytes 2 l.tflags ++ leBytes 2 0

/-- R286. The status of a mask slot at the close, with what its entry carries. -/
def State.memberEntry (s : State) (c : CamSet) (n : Nat) : Nat × Option CamLast :=
  match c.members.find? (fun m => decide (m.slot = n)) with
  | none => (2, (s.slotSt n).last)
  | some m => if m.status = 0 then (0, m.info) else (m.status, (s.slotSt n).last)

/-- R287. The bytes of a set record. -/
def State.setRecord (s : State) (c : CamSet) : List Byte :=
  let es := (List.range 32).map (fun n => if bitAt c.mask n then s.memberEntry c n else (0, none))
  let notOk := (List.range 32).filter (fun n => decide ((es.getD n (0, none)).1 ≠ 0))
  leBytes 4 c.num ++ leBytes 4 c.mask ++ leBytes 8 c.ptp ++ leBytes 8 s.ptpNs ++ leBytes 4 (notOk.map (2 ^ ·)).sum ++ leBytes 4 0 ++
  es.flatMap (fun e => setEntry e.1 e.2)

/-- R280, R286, R287. The open set closes: record, CAM_SETNUM, doorbell and cause. -/
def State.closeSet (s : State) : State :=
  match s.cam.set with
  | none => s
  | some c =>
    if c.closed then s
    else
      let va := s.setRecAddr c.num
      let s := match s.vwrite 0 va (s.setRecord c) with
        | .ok s' => s'
        | .error e => s.accFail 0x31 0 0 va .write 9 e
      let s := (s.setCamSet (some { c with closed := true })).put R.CAM_SETNUM_SET c.num
      let s := { s with syn := { s.syn with newSet := some c.num } }
      (s.deviceDoorbell (s.get R.CAM_SETCTL_DB_RING) c.num).raise Irq.SET_DONE

/-- R286. The set closes once the member frame of every mask slot is complete. -/
def State.closeWhole (s : State) : State :=
  match s.cam.set with
  | none => s
  | some c => if (List.range 32).all (fun n => !bitAt c.mask n || c.members.any (fun m => decide (m.slot = n) && decide (m.status = 0))) then s.closeSet else s

/-- R285. A set opens with a number; the one before it closes. -/
def State.openSet (s : State) (num : Nat) : State :=
  let s := s.closeSet
  let s := s.setCamSet (some ⟨num % 2 ^ 32, s.cam.order, s.ptpNs, s.ticks, s.get R.CAM_SETMASK_MASK, [], false⟩)
  { s with cam := { s.cam with order := s.cam.order + 1, nextSet := (num + 1) % 2 ^ 32 } }

/-- Have `us` µs passed since the opening of a set? -/
def State.setAged (s : State) (c : CamSet) (us : Nat) : Bool := decide (20625 * us ≤ (s.ticks - c.tick) * 64)

/-- R285, R286. Where a frame start of a slot falls: its set; whether it is a second one in the window; whether it is late. -/
def State.setFor (s : State) (n : Nat) : Option (Nat × Nat) × Bool × Bool :=
  match s.cam.set with
  | none => (none, false, false)
  | some c =>
    if !bitAt c.mask n then (none, false, false)
    else if !s.setAged c (s.get R.CAM_SETWIN_WINDOW) then
      if c.members.any (fun m => decide (m.slot = n)) then (none, true, false) else (some (c.num, c.key), false, false)
    else (none, false, true)

/-- R286. Change the member of a slot in the set, if the frame is its member. -/
def State.onMember (s : State) (n k : Nat) (g : CamMember → CamMember) : State :=
  match s.cam.set with
  | none => s
  | some c => s.setCamSet (some { c with members := c.members.map (fun m => if m.slot = n ∧ m.key = k then g m else m) })

/-! ### Exposure tokens (R290) -/

/-- R290. TOKEN and TFLAGS of frame `fc` of a slot. -/
def SlotSt.tokenOf (x : SlotSt) (fc : Nat) : Nat × Nat :=
  let fail := if x.failed then 8 else 0
  match x.toks.find? (fun t => decide (t.2.1 ≤ fc)) with
  | none => (0, 4 + fail)
  | some t => (t.1, (if t.2.1 = fc then 1 + (if t.2.2 then 2 else 0) else 0) + fail)

/-! ### Lines (R273, R275, R277, R278, R281) -/

/-- R278, R281, R282. The lines that the pipe must have processed below an output line before it is written: two, or as many as its value
depends on where they are more. Static and dynamic correction reach two lines down each, and demosaicing three (assumption 34). -/
def CamFrame.reach (f : CamFrame) : Nat :=
  max 2 ((if f.dmap = [] then 0 else 2) + 2 * f.ispF 11 0 1 + (if f.pat = 4 then 0 else 3))

/-- R277. Write output line `y` of a frame; a line whose write faults is dropped from memory. -/
def State.writeLine (s : State) (n fc y : Nat) : State :=
  match s.camFrame n fc with
  | none => s
  | some f =>
    if f.buf = none then s
    else
      let va := f.img + y * f.pitch
      let dyn := if f.bypass then 0 else f.dynCount y
      let s := if dyn = 0 then s else (s.onFrame n fc (fun f => { f with dpc := sat16 f.dpc dyn })).bumpBy (R.ISP_PCNT_COUNT f.pipe 2) dyn
      match s.vwrite 0 va (f.outLine y) with
      | .ok s' => s'
      | .error e => (s.accFail 0x31 n 0 va .write 7 e).camMark n fc 6 9

/-- R273, R278. Take raw lines until `k` are there: each missing one is a copy of the last, or a zero line. -/
def CamFrame.pad (f : CamFrame) (k : Nat) : CamFrame :=
  { f with raws := f.raws ++ List.replicate (k - f.raws.length) (f.raws.getLast?.getD (List.replicate f.w 0)) }

/-- How many output lines have been written once `k` raw lines have been taken and more may come. -/
def CamFrame.settled (f : CamFrame) (k : Nat) : Nat := if f.bypass then k else k - f.reach

/-- R278. Take raw line `line` of a frame, with the lost lines before it, and write what is settled. -/
def State.takeLine (s : State) (n fc line : Nat) (px : List Nat) : State :=
  match s.camFrame n fc with
  | none => s
  | some f =>
    let had := f.raws.length
    let s := s.onFrame n fc (fun f => { f.pad line with raws := (f.pad line).raws ++ [px] })
    let s := if f.bypass then s else s.bumpBy (R.ISP_PCNT_COUNT f.pipe 0) (line + 1 - had)
    (List.range (f.settled (line + 1) - f.settled had)).foldl (fun (s : State) i => s.writeLine n fc (f.settled had + i)) s

/-- R276. The 64 bytes of the frame record. -/
def State.frameRecord (s : State) (f : CamFrame) : List Byte :=
  leBytes 4 f.fcount ++ leBytes 4 ((f.set.map Prod.fst).getD 0xFFFFFFFF) ++ leBytes 8 f.fsPtp ++ leBytes 8 s.ptpNs ++ leBytes 2 f.token ++
  leBytes 2 f.tflags ++ leBytes 4 f.mark ++ leBytes 2 f.dropped ++ leBytes 2 f.rcvd ++ leBytes 2 f.crcs ++ leBytes 2 f.eccs ++
  leBytes 2 f.w ++ leBytes 2 f.h ++ leBytes 2 f.dpc ++ leBytes 2 f.sfn ++ zeros 16

/-- R280. Has the set that the frame belongs to closed? -/
def State.setGone (s : State) (f : CamFrame) : Bool :=
  match f.set, s.cam.set with
  | some p, some c => decide (c.key ≠ p.2) || c.closed
  | some _, none => true
  | none, _ => false

/-- R277, R284. The statistics of a frame are written. -/
def State.writeStats (s : State) (n : Nat) (f : CamFrame) : State :=
  if f.bypass then s
  else
    let st := f.statistics
    match s.vwrite 0 (f.sta + 0x40) (wordBytes st.1 ++ wordBytes st.2) with
    | .ok s' => s'
    | .error e => (((s.accFail 0x31 n 0 (f.sta + 0x40) .write 7 e).onFrame n f.key (fun f => { f with mark := f.mark ||| 2 ^ 7 })).log 16 0 n 0x81 2 f.fcount).raise Irq.CAM_MARK

/-- R292. CAM_XSTAT.QUEUED shows the requests that wait on the slot CAM_XREQ_A names. -/
def State.showQueued (s : State) : State := s.put R.CAM_XSTAT_QUEUED (s.slotSt (s.get R.CAM_XREQ_A_SLOT)).queue.length

/-- R290. In an open window that has started none, the slot's first queued request that is no IMM one starts: its controller will serve it. -/
def State.startRequest (s : State) (n : Nat) : State :=
  let x := s.slotSt n
  match x.window, x.queue.find? (fun r => !r.imm) with
  | some k, some r =>
    if x.used then s
    else
      let s := s.setSlot n { x with queue := x.queue.erase r, used := true }
      ({ s with cam := { s.cam with started := s.cam.started ++ [CciJob.mk n r k x.windowAt (s.get (R.CAM_SFCNT_FCOUNT n))] } } : State).showQueued
  | _, _ => s

/-- R276, R277, R286, R287, R290. The frame record is written, and the frame is the slot's most recent complete one: its CCI window opens, and a
set whose members are all complete closes. -/
def State.writeRecord (s : State) (n : Nat) (f : CamFrame) : State :=
  match s.vwrite 0 f.sta (s.frameRecord f) with
  | .error e => (s.accFail 0x31 n 0 f.sta .write 7 e).onMember n f.key (fun m => { m with status := 2 })
  | .ok s =>
    let b := f.buf.getD 0
    let l : CamLast := ⟨b, f.token, f.mark, f.fcount, f.tflags⟩
    let s := (s.bump (R.CAM_CNT_COUNT n 0)).onMember n f.key (fun m => { m with status := 0, info := some l })
    let s := (s.put (R.CAM_SLAST_BUF n) b).put (R.CAM_SLAST_VALID n) 1
    let s := s.setSlot n { s.slotSt n with last := some l, window := some f.fcount, windowAt := s.cam.order, used := false }
    (({ s with cam := { s.cam with order := s.cam.order + 1 } } : State).startRequest n).closeWhole

/-- Forget a slot's frame. -/
def State.dropFrame (s : State) (n k : Nat) : State :=
  s.setSlot n { s.slotSt n with frames := (s.slotSt n).frames.filter (fun f => decide (f.key ≠ k)) }

/-- R278. Does a line of the frame wait for its pipe, or is one under way in it? -/
def State.linesLeft (s : State) (n : Nat) (f : CamFrame) : Bool :=
  (s.pipe f.pipe ++ (s.pipeBusy f.pipe).toList).any (fun l => decide (l.slot = n) && decide (l.key = f.key))

/-- R276, R280. A closed frame with no line left in its pipe is complete: its last lines, statistics and record are written. -/
def State.finishCamFrame (s : State) (n fc : Nat) : State :=
  match s.camFrame n fc with
  | none => s
  | some f =>
    if f.isOpen ∨ s.linesLeft n f then s
    else if f.buf = none then s.dropFrame n fc
    else
      let had := f.raws.length
      let s := s.onFrame n fc (fun f => f.pad f.h)
      let s := if f.bypass then s else s.bumpBy (R.ISP_PCNT_COUNT f.pipe 0) (f.h - had)
      let s := (List.range (f.h - f.settled had)).foldl (fun (s : State) i => s.writeLine n fc (f.settled had + i)) s
      let s := s.writeStats n ((s.camFrame n fc).getD f)
      let s := if s.setGone f then s.camMark n fc 4 6 else s
      let tk := (s.slotSt n).tokenOf f.fcount
      let s := s.onFrame n fc (fun f => { f with token := tk.1, tflags := tk.2 })
      let s := if tk.2 / 2 % 2 = 1 then s.bump (R.CAM_CNT_COUNT n 12) else s
      let s := s.writeRecord n ((s.camFrame n fc).getD f)
      s.dropFrame n fc

/-- R273. A frame is closed: as by its frame end, or (TRUNC) by another frame start or a disable. -/
def State.closeFrame (s : State) (n : Nat) (trunc : Bool) : State :=
  match s.openFrame n with
  | none => s
  | some f =>
    let s := if trunc then s.camMark n f.key 3 5 else s
    let s := if f.rcvd < f.h then s.camMark n f.key 2 4 else s
    (s.onFrame n f.key (fun f => { f with isOpen := false })).finishCamFrame n f.key

/-! ### Frame starts (R272, R274, R281) -/

/-- R274. The buffer for a slot's next frame. -/
def State.chooseBuf (s : State) (n : Nat) : Option Nat :=
  let k := clampN 2 16 (s.get (R.CAM_SNBUF_NBUF n))
  let x := s.slotSt n
  let first := match x.chosen with
    | none => 0
    | some b => b + 1
  ((List.range k).map (fun i => (first + i) % k)).find? (fun b => !bitAt (s.get (R.CAM_SLOCK_LOCK n)) b && decide (x.last.map (·.buf) ≠ some b))

/-- R281. The entries of a defect map, as (column, line): it ends at the first entry not greater than its predecessor. -/
def mapEntries : Option Nat → List Nat → List (Nat × Nat)
  | _, [] => []
  | prev, e :: rest =>
    let key := bitsOf e 16 13 * 8192 + bitsOf e 0 13
    if prev.any (fun p => decide (key ≤ p)) then [] else (bitsOf e 0 13, bitsOf e 16 13) :: mapEntries (some key) rest

/-- R281. A correction table cannot be read: that step passes values unchanged, and the frame is marked FAULT. -/
def State.tableFault (s : State) (n va : Nat) (f : CamFrame) (e : AccErr) : State :=
  let s := (s.accFail 0x32 n 0 va .read 7 e).camMark n f.key 6 9
  ((s.bump (R.ISP_PCNT_COUNT f.pipe 3)).log 17 0 f.pipe 3 2 n).raise Irq.ISP_TABLE_FAULT

/-- R281. The tables of a frame are read at its start. -/
def State.readTables (s : State) (n : Nat) (f : CamFrame) : State :=
  if f.bypass ∨ f.buf = none then s
  else
    let s := if f.ispF 11 2 1 = 0 then s else
      let va := f.ispF 15 8 24 * 256 + 2 ^ 32 * f.ispF 16 0 16
      (match s.vread 0 va .read 24576 with
       | .error e => s.tableFault n va f e
       | .ok bs => s.onFrame n f.key (fun f => { f with lsc := some ((List.range 12288).map (fun i => leAt bs (2 * i) 2)) }))
    if f.ispF 11 1 1 = 0 then s else
      let va := f.ispF 12 4 28 * 16 + 2 ^ 32 * f.ispF 13 0 16
      let k := min 65536 (f.ispF 14 0 17)
      match s.vread 0 va .read (4 * k) with
      | .error e => s.tableFault n va f e
      | .ok bs => s.onFrame n f.key (fun f => { f with dmap := mapEntries none (bytesWords k bs) })

/-- R272, R274, R285, R286. A slot's frame starts. -/
def State.startFrame (s : State) (n sfn : Nat) (corr : Bool) : State :=
  let s := (s.closeFrame n true).corrected n corr
  let s := if !s.on R.CAM_SETCTL_SRC ∧ s.get R.CAM_SETCTL_LEAD = n then s.openSet s.cam.nextSet else s
  let fc := (s.get (R.CAM_SFCNT_FCOUNT n) + 1) % 2 ^ 32
  let b := s.chooseBuf n
  let w := s.setFor n
  let k := b.getD 0
  let key := s.cam.order
  let f : CamFrame :=
    { key := key, fcount := fc, sfn := sfn, fsPtp := s.ptpNs, set := w.1, buf := b, cfg := s.word (R.CAM_SCFG_EN n).addr, w := s.get (R.CAM_SSIZE_W n),
      h := s.get (R.CAM_SSIZE_H n),
      img := s.addrOf (R.CAM_SIMG_LO_ADDR n) (R.CAM_SIMG_HI_ADDR n) + k * (s.get (R.CAM_SSTRIDE_STRIDE n) * 256),
      pitch := s.get (R.CAM_SPITCH_PITCH n), sta := s.addrOf (R.CAM_SSTA_LO_ADDR n) (R.CAM_SSTA_HI_ADDR n) + k * 0x4100,
      isp := (List.range 18).map (fun i => s.word (0x111000 + n * 0x80 + 4 * i)), mark := 0, dropped := 0, rcvd := 0, crcs := 0, eccs := 0,
      dpc := 0, token := 0, tflags := 0, isOpen := true, raws := [], dmap := [], lsc := none }
  let x := s.slotSt n
  let s := (s.setSlot n { x with on := true, frames := x.frames ++ [f], chosen := if b = none then x.chosen else b, window := none }).put (R.CAM_SFCNT_FCOUNT n) fc
  let s : State := { s with cam := { s.cam with order := key + 1 } }
  let s := match s.cam.set with
    | some c => if w.1 = some (c.num, c.key) then s.setCamSet (some { c with members := c.members ++ [CamMember.mk n key (if b = none then 3 else 1) none] }) else s
    | none => s
  let s := if w.2.1 then (s.camCount n 10 2 fc).raise Irq.CAM_NOSET else s
  let s := if w.2.2 then s.camMark n key 4 6 else s
  let s := if b = none then (s.camCount n 8 2 fc).raise Irq.CAM_RING_FULL else s
  s.readTables n ((s.camFrame n key).getD f)

/-- R272, R273, R531. FRAME_START_PACKET: a frame start, from what the port's lane 0 and its other three data lanes received; `corr`: its header was corrected. A frame
received with the port's skew outside its range counts in SYNC_ERR. -/
def execFrameStartPacket (port : Nat) (lane0 : List Byte) (lanes : List (List Byte)) (corr : Bool) (s : State) : Host.Outcome State Fault Refusal :=
  .next (
    let b := s.received port (lane0 :: lanes)
    if !s.portTakes port || decide (pktDt b ≠ 0) then s
    else match s.slotsOf port (pktVc b) true with
      | [] => s.portCount port 0
      | ns =>
        let s := (ns.foldl (fun (s : State) n => s.startFrame n (pktWc b) corr) s).dphyStep port
        if s.cal.skewed.any (fun k => decide (k / 8 = port)) then s.portCount port 3 else s)

/-- R273. FRAME_END_PACKET: a frame end. -/
def execFrameEndPacket (port : Nat) (lanes : List (List Byte)) (corr : Bool) (s : State) : Host.Outcome State Fault Refusal :=
  .next (
    let b := s.received port lanes
    if !s.portTakes port || decide (pktDt b ≠ 1) then s
    else match s.slotsOf port (pktVc b) false with
      | [] => s.portCount port 0
      | ns =>
        let s := ns.foldl (fun (s : State) n => s.corrected n corr) s
        let opened := ns.filter (fun n => (s.openFrame n).isSome)
        if opened = [] then s.portCount port 1 else opened.foldl (fun (s : State) n => s.closeFrame n false) s)

/-- R270. Is the data type that of a line start, a line end or a generic short packet? -/
def ignoredDt (dt : Nat) : Bool := decide (dt = 2) || decide (dt = 3) || decide (8 ≤ dt ∧ dt ≤ 15)

/-- R270. IGNORED_SHORT_PACKET: a line start, line end or generic short packet; a corrected header is still counted. -/
def execIgnoredShortPacket (port : Nat) (lanes : List (List Byte)) (corr : Bool) (s : State) : Host.Outcome State Fault Refusal :=
  .next (
    let b := s.received port lanes
    if !s.portTakes port || !ignoredDt (pktDt b) then s
    else (s.slotsOf port (pktVc b) false).foldl (fun (s : State) n => s.corrected n corr) s)

/-! ### Long packets and the pipes (R271, R273, R278) -/

/-- R278. A line is lost: the frame is marked DROP and the line counted. -/
def State.lostLine (s : State) (p n fc : Nat) : State :=
  let s := (s.onFrame n fc (fun f => { f with dropped := sat16 f.dropped 1 })).camMark n fc 5 7
  ((s.bump (R.ISP_PCNT_COUNT p 1)).log 17 0 p 1 0 n).raise Irq.ISP_DROP

/-- R278. The newest of the waiting lines that have the lowest priority. -/
def victim (l : List PipeLine) : Option PipeLine :=
  let low := l.foldl (fun (m : Nat) x => min m x.prio) 3
  (l.filter (fun x => decide (x.prio = low))).getLast?

/-- The pixels a pipe's buffer holds. -/
def pipeSize : Nat := 131072

/-- R278. Admission: waiting lines are discarded until the arriving line fits or is itself discarded. The lines to wait, and those lost. -/
def enqueueLine : Nat → List PipeLine → List PipeLine → PipeLine → List PipeLine × List PipeLine
  | 0, l, lost, a => (l, lost ++ [a])
  | k + 1, l, lost, a =>
    if (l.map PipeLine.size).sum + a.size ≤ pipeSize then (l ++ [a], lost)
    else match victim l with
      | none => (l, lost ++ [a])
      | some v => if a.prio ≤ v.prio then (l, lost ++ [a]) else enqueueLine k (l.erase v) (lost ++ [v]) a

/-- R278. The line that a free pipe takes: the highest PRIO, then the line that completed first, then the lower slot. -/
def nextLine (l : List PipeLine) : Option PipeLine :=
  l.foldl (fun (b : Option PipeLine) x => match b with
    | none => some x
    | some y => if y.prio < x.prio ∨ (y.prio = x.prio ∧ (x.order < y.order ∨ (x.order = y.order ∧ x.slot < y.slot))) then some x else some y) none

/-- R278, R444. A free pipe takes the next of the waiting lines, unless a forced test holds it. -/
def State.pipeNext (s : State) (p : Nat) : State :=
  match s.pipeBusy p, nextLine (s.pipe p) with
  | none, some l => if s.testHeld 17 p then s else ({ s with cam := { s.cam with busy := tabPut s.cam.busy p l } } : State).setPipe p ((s.pipe p).erase l)
  | _, _ => s

/-- R278. A line arrives at its pipe; a closed frame that loses its last waiting line is complete. -/
def State.admitLine (s : State) (p : Nat) (a : PipeLine) : State :=
  let r := enqueueLine ((s.pipe p).length + 1) (s.pipe p) [] a
  (r.2.foldl (fun (s : State) v => (s.lostLine p v.slot v.key).finishCamFrame v.slot v.key) (s.setPipe p r.1)).pipeNext p

/-- R271, R273, R278, R340. A long packet of a slot is its frame's next line. -/
def State.slotLine (s : State) (n dt : Nat) (bs : List Byte) (crcOk corr : Bool) (f : CamFrame) : State :=
  let fc := f.key
  let line := f.rcvd
  let s := s.onFrame n fc (fun f => { f with rcvd := sat16 f.rcvd 1 })
  let s := s.corrected n corr
  let s := if crcOk then s else
    ((s.onFrame n fc (fun f => { f with crcs := sat16 f.crcs 1 })).camMark n fc 1 3).raise Irq.CAM_PKT_ERR
  if f.h ≤ line then s.camMark n fc 2 4
  else
    let s := if bs.length * 8 = f.w * dtBits dt then s else s.camMark n fc 2 4
    if f.buf = none then s
    else if s.on R.MEM_STAT_CHANGING then s.lostLine f.pipe n fc
    else
      let px := rawLine dt f.w bs
      if f.bypass then s.takeLine n fc line px
      else
        let a : PipeLine := { size := bs.length * 8 / zeroActs 1 (dtBits dt), slot := n, key := fc, line := line, prio := f.prio, order := s.cam.order, px := px }
        ({ s with cam := { s.cam with order := s.cam.order + 1 } } : State).admitLine f.pipe a

/-- R271, R273. LONG_PACKET: a long packet, from what the port's four data lanes received; `corr`: its header was corrected. -/
def execLongPacket (port : Nat) (lane0 lane1 lane2 lane3 : List Byte) (corr : Bool) (s : State) : Host.Outcome State Fault Refusal :=
  .next (
    let b := s.received port [lane0, lane1, lane2, lane3]
    if !s.portTakes port || decide (pktDt b < 16) then s
    else match (s.slotsOf port (pktVc b) false).find? (fun n => decide (bitsOf (s.binding n false) 8 6 = pktDt b) && decide (dtBits (pktDt b) ≠ 0)) with
      | none => s.portCount port 0
      | some n => match s.openFrame n with
        | none => (s.corrected n corr).portCount port 1
        | some f => s.slotLine n (pktDt b) (pktPayload b) (pktCrcOk b) corr f)

/-- R278. ISP_LINE_DONE: the pipe finishes the line that it has taken, and takes the next; a closed frame whose last line this was is
complete. A pipe without a line, as after a forced test, takes the next. -/
def execIspLineDone (pipe : Nat) (s : State) : Host.Outcome State Fault Refusal :=
  .next (match s.pipeBusy pipe with
    | none => s.pipeNext pipe
    | some l =>
      let s : State := { s with cam := { s.cam with busy := tabDel s.cam.busy pipe } }
      ((s.takeLine l.slot l.key l.line l.px).finishCamFrame l.slot l.key).pipeNext pipe)

/-- R271. HEADER_ECC_ERROR: an uncorrectable header on a port; every frame in progress there is marked HDR_ECC. -/
def execHeaderEccError (port : Nat) (s : State) : Host.Outcome State Fault Refusal :=
  .next (
    if !s.portTakes port then s
    else (List.range 32).foldl (fun (s : State) n => match s.openFrame n with
      | none => s
      | some f =>
        if bitsOf f.cfg 1 3 = port then (s.onFrame n f.key (fun f => { f with eccs := sat16 f.eccs 1 })).camMark n f.key 0 2 else s)
      (s.portCount port 2))

/-- R531. HS_SYNC_ERROR: a high-speed sync error on a port. -/
def execHsSyncError (port : Nat) (s : State) : Host.Outcome State Fault Refusal :=
  .next (if s.portTakes port then s.portCount port 3 else s)

/-! ### Sets, ENABLE and slot enables (R280, R285, R291) -/

/-- R285. CAM_SET_OPEN: under SRC 1 a set opens, OFS after an edge of the lock source or a frame start, or as the period of a stopped scan-out
comes round; the edge of the PTP frame clock gives its number, and otherwise it counts. -/
def execCamSetOpen (s : State) : Host.Outcome State Fault Refusal :=
  .next (
    if !s.on R.CAM_CTL_ENABLE || !s.on R.CAM_SETCTL_SRC then s
    else match s.cam.setDue with
      | (at', n) :: rest =>
        if s.pix < at' then s
        else ({ s with cam := { s.cam with setDue := rest } } : State).openSet (n.getD s.cam.nextSet)
      | [] =>
        if s.sco.inFrame || decide (s.pix < s.cam.freeAt) then s
        else ({ s with cam := { s.cam with freeAt := s.cam.freeAt + s.freeSetPeriod } } : State).openSet s.cam.nextSet)

/-- R286. Has the open set run for DEADLINE, which acts as WINDOW where it is below it? -/
def State.setOverdue (s : State) : Bool :=
  match s.cam.set with
  | some c => !c.closed && s.setAged c (max (s.get R.CAM_SETWIN_DEADLINE) (s.get R.CAM_SETWIN_WINDOW))
  | none => false

/-- R286, R287. CAM_SET_CLOSE: DEADLINE has passed since the set opened. A set also closes with its last member frame and as the next opens. -/
def execCamSetClose (s : State) : Host.Outcome State Fault Refusal := .next (if s.setOverdue then s.closeSet else s)

/-- R285. SRC 1 has taken effect, where it was not in force. -/
def State.setSource (s : State) (was : Bool) : State := if !was && s.on R.CAM_SETCTL_SRC then s.restartSets else s

/-- R273, R291. CAM_CTL.ENABLE was `was`: clearing it closes every open frame and the open set, setting it restarts set numbers. -/
def State.camEnable (s : State) (was : Bool) : State :=
  let now := s.on R.CAM_CTL_ENABLE
  if was && !now then (foldRange 32 (fun (s : State) n => s.closeFrame n true) s).closeSet
  else if !was && now then
    let s := s.setCamSet none
    { s with cam := { s.cam with nextSet := 0, setDue := [] }, syn := { s.syn with camSet := none, newSet := none } }
  else s

/-- R291. CAM_ENABLE. -/
def execCamEnable (en : Bool) (s : State) : Host.Outcome State Fault Refusal :=
  .next ((s.put R.CAM_CTL_ENABLE (b2n en)).camEnable (s.on R.CAM_CTL_ENABLE))

/-- R272, R273. A slot's EN was `was`: FCOUNT is 0 when the slot is enabled, and disabling it closes its frame. -/
def State.slotEnable (s : State) (n : Nat) (was : Bool) : State :=
  let now := s.on (R.CAM_SCFG_EN n)
  if was && !now then s.closeFrame n true
  else if !was && now then s.put (R.CAM_SFCNT_FCOUNT n) 0
  else s

/-- R280. CAM_SETMASK_WRITE: a write to CAM_SETMASK, or (`ctl`) to CAM_SETCTL, closes the open set before it is stored. -/
def execCamSetmaskWrite (ctl : Bool) (value : Nat) (s : State) : Host.Outcome State Fault Refusal :=
  .next (if ctl then (s.closeSet.setWord 0x100010 (value &&& 0xFF1F01)).setSource (s.on R.CAM_SETCTL_SRC) else s.closeSet.put R.CAM_SETMASK_MASK value)

/-! ### Exposure requests (R288–R290) -/

/-- R289. The bytes of a request's list. -/
def State.listBytes (s : State) (list nent : Nat) : Except AccErr (List Byte) := s.vread 0 list .read (8 * nent)
/-- R289. KIND of entry `i`. -/
def entryKind (bs : List Byte) (i : Nat) : Nat := bitsOf (leAt bs (8 * i) 4) 8 2
/-- R289. Data bytes of entry `i`. -/
def entryLen (bs : List Byte) (i : Nat) : Nat := bitsOf (leAt bs (8 * i) 4) 10 2 + 1

/-- R289. Is the list refused because an entry has KIND 0b11? -/
def State.listRefused (s : State) (list nent : Nat) : Bool :=
  match s.listBytes list nent with
  | .ok bs => (List.range nent).any (fun i => decide (entryKind bs i = 3))
  | .error _ => false

/-- R289. A request is queued with TOKEN, or refused. -/
def State.queueRequest (s : State) (token : Nat) : State :=
  let n := s.get R.CAM_XREQ_A_SLOT
  let nent := s.get R.CAM_XREQ_A_NENT
  let list := s.addrOf R.CAM_XLIST_LO_ADDR R.CAM_XLIST_HI_ADDR
  let x := s.slotSt n
  if 8 ≤ x.queue.length ∨ nent = 0 ∨ s.listRefused list nent then s.put R.CAM_XSTAT_REFUSED 1
  else ((s.setSlot n { x with queue := x.queue ++ [XReq.mk token (s.get R.CAM_XREQ_A_LAT) (s.on R.CAM_XREQ_A_IMM) nent list] }).showQueued).startRequest n

/-- R289. EXPOSURE_REQUEST: a write of 1 to CAM_XREQ_B.GO with TOKEN. -/
def execExposureRequest (token : Nat) (s : State) : Host.Outcome State Fault Refusal :=
  .next ((s.put R.CAM_XREQ_B_TOKEN token).queueRequest token)

/-- R289, R290. What a slot's controller may serve for it: its oldest IMM request, or its started request whose window opened before those of the
other slots of the same controller. -/
def State.serves (s : State) (n : Nat) : Option CciJob :=
  match (s.slotSt n).queue.find? (·.imm) with
  | some r => some ⟨n, r, 0, 0, 0⟩
  | none => match s.cam.started.find? (fun j => decide (j.slot = n)) with
    | none => none
    | some j =>
      if s.cam.started.any (fun k => decide (s.get (R.CAM_SCFG_CCI k.slot) = s.get (R.CAM_SCFG_CCI n)) && decide (k.order < j.order)) then none else some j

/-- R288. The clock divider in force: a smaller DIV acts as the smallest that keeps SCL within 1 MHz in I2C and 12.5 MHz in I3C. -/
def State.cciDiv (s : State) (c : Nat) : Nat := max (s.get (R.CAM_CCI_DIV c)) (if s.on (R.CAM_CCI_MODE c) then 1 else 24)

/-- R289. What entry `i` of a list sends: the register address, high byte first, and, for a write, the data from bits [39:32] up; a CCC sends its
code in place of the register address. -/
def cciMsg (bs : List Byte) (i : Nat) : CciMsg :=
  let w := leAt bs (8 * i) 4
  let data := (bs.drop (8 * i + 4)).take (entryLen bs i)
  let reg : List Byte := [BitVec.ofNat 8 (w / 2 ^ 24), BitVec.ofNat 8 (w / 2 ^ 16)]
  match entryKind bs i with
  | 0 => { addr := bitsOf w 0 7, ccc := none, bytes := reg ++ data, reads := 0 }
  | 1 => { addr := bitsOf w 0 7, ccc := none, bytes := reg, reads := entryLen bs i }
  | _ => { addr := bitsOf w 0 7, ccc := some (bitsOf w 16 8), bytes := data, reads := 0 }

/-- R273, R290, R293. A request ends: CAM_XDONE shows it. -/
def State.xDone (s : State) (n : Nat) (r : XReq) (ok slip : Bool) (entry : Nat) : State :=
  s.setWord (R.CAM_XDONE_TOKEN n).addr (r.token % 65536 + b2n ok * 2 ^ 16 + b2n (!ok) * 2 ^ 17 + b2n slip * 2 ^ 18 + entry % 256 * 2 ^ 24)

/-- R290. A request fails at an entry: its token never takes effect. -/
def State.xFail (s : State) (n : Nat) (r : XReq) (entry : Nat) : State :=
  let s := s.setSlot n { s.slotSt n with failed := (s.slotSt n).failed || !r.imm }
  ((s.xDone n r false false entry).camCount n 11 2 entry).raise Irq.CAM_CCI_FAIL

/-- A request leaves the queue or the started ones as its controller serves it. -/
def State.unqueue (s : State) (j : CciJob) : State :=
  if j.req.imm then (s.setSlot j.slot { s.slotSt j.slot with queue := (s.slotSt j.slot).queue.erase j.req }).showQueued
  else { s with cam := { s.cam with started := s.cam.started.erase j } }

/-- R288–R290. CCI_REQUEST_START: a slot's request goes out once its controller's bus is free; the list is sent. -/
def execCciRequestStart (slot : Nat) (s : State) : Host.Outcome State Fault Refusal :=
  .next (
    let c := s.get (R.CAM_SCFG_CCI slot)
    match s.serves slot with
    | none => s
    | some j =>
      if (tabGet s.cam.cci c).isSome then s
      else
        let s := s.unqueue j
        match s.listBytes j.req.list j.req.nent with
        | .error e => (s.accFail 0x31 slot 0 j.req.list .read 7 e).xFail slot j.req 0
        | .ok bs => ({ s with cam := { s.cam with cci := tabPut s.cam.cci c j } } : State).emit
            (.cci c (s.on (R.CAM_CCI_MODE c)) (s.cciDiv c) ((List.range j.req.nent).map (cciMsg bs))))

/-- R289. The bytes read by the read entries before `stop` are stored back into DATA. -/
def State.storeReads (s : State) (r : XReq) (reads : List Nat) (stop : Nat) : State :=
  match s.listBytes r.list r.nent with
  | .error _ => s
  | .ok bs => (List.range (min r.nent stop)).foldl (fun (s : State) i =>
      if entryKind bs i = 1 then
        (match s.vwrite 0 (r.list + 8 * i + 4) (leBytes (entryLen bs i) (reads.getD i 0)) with
         | .ok s' => s'
         | .error e => s.accFail 0x31 0 0 (r.list + 8 * i + 4) .write 7 e)
      else s) s

/-- R290. A request completes: its effective frame and SLIP. -/
def State.xComplete (s : State) (j : CciJob) : State :=
  if j.req.imm then s.xDone j.slot j.req true false 0
  else
    let slip := decide (s.get (R.CAM_SFCNT_FCOUNT j.slot) ≠ j.fcount)
    let eff := j.frame + (if slip then 2 else 1) + j.req.lat
    let s := s.setSlot j.slot { s.slotSt j.slot with toks := ((j.req.token, eff, slip) :: (s.slotSt j.slot).toks).take 16, failed := false }
    s.xDone j.slot j.req true slip 0

/-- R290. CCI_REQUEST_COMPLETE: the request on a controller's bus ends, or fails at an entry; `reads` are the values of the read entries by
entry. -/
def execCciRequestComplete (ctrl : Nat) (failAt : Option Nat) (reads : List Nat) (s : State) : Host.Outcome State Fault Refusal :=
  .next (match tabGet s.cam.cci ctrl with
    | none => s
    | some j =>
      let s := { s with cam := { s.cam with cci := tabDel s.cam.cci ctrl } }
      match failAt with
      | some i => (s.storeReads j.req reads i).xFail j.slot j.req i
      | none => (s.storeReads j.req reads j.req.nent).xComplete j)

end Sys2Proof.Machine
end

