-- ==== Sys2Proof/Machine/Rails.lean ====
section
/-! DEFINITION. The panel rails' sequence, which only the Watch runs (R239–R241). -/
namespace Sys2Proof.Machine

/-- R239. The lowest fitted rail at or above `n`. -/
def State.fittedFrom (s : State) (n : Nat) : Option Nat := (List.range 4).find? (fun i => decide (n ≤ i) && bitAt s.watch.rails i)

/-- R239. The rising sequence goes on to the next fitted rail at or above `n`, or to ON. -/
def State.railNext (s : State) (n : Nat) : State :=
  match s.fittedFrom n with
  | some r => s.setPnl { s.pnl with rail := r }
  | none => s.put R.PNL_PWRSTAT_STATE 2

/-- R239, R465. The ascending sequence starts, under the rail fields in force now. -/
def State.railsUp (s : State) : State := ((s.railLoad).put R.PNL_PWRSTAT_STATE 1).railNext 0

/-- R241. Must a hold write run before the rails go down? -/
def State.holdFirst (s : State) : Bool := s.on R.PNL_PWRREQ_HOLD_FIRST && s.tilesOn.any (fun t => s.on (R.PNL_TCTL_HOLD_EN t))

/-- R239–R241. The Watch takes the request that stands in PNL_PWRREQ. -/
def State.powerRequest (s : State) : State :=
  let st := s.get R.PNL_PWRSTAT_STATE
  if s.watch.down || s.watch.romOnly then s
  else if s.on R.PNL_PWRREQ_ON then
    let s := s.setPnl { s.pnl with offWaits := false }
    if st = 0 && !s.pnl.blocked then s.railsUp else s
  else if st = 4 then (s.setPnl { s.pnl with blocked := false }).put R.PNL_PWRSTAT_STATE 0
  else if (st = 1 || st = 2) && !s.pnl.offWaits then
    (if s.holdFirst then (s.setPnl { s.pnl with offWaits := true }).holdStart else s.railsDown)
  else s

/-- R239. PNL_POWER_REQUEST: a write of PNL_PWRREQ. -/
def execPnlPowerRequest (on holdFirst : Bool) (s : State) : Host.Outcome State Fault Refusal :=
  .next (((s.put R.PNL_PWRREQ_ON (b2n on)).put R.PNL_PWRREQ_HOLD_FIRST (b2n holdFirst)).powerRequest)

/-- R239. The enable of rail `n` is driven. -/
def State.railDrive (s : State) (n : Nat) (up : Bool) : State :=
  let e := s.get R.PNL_PWRSTAT_EN
  s.put R.PNL_PWRSTAT_EN (if up then e ||| 2 ^ n else if bitAt e n then e - 2 ^ n else e)

/-- R239. The level of PNL_PGOOD[n] is shown. -/
def State.pgoodShow (s : State) (n : Nat) (up : Bool) : State :=
  let e := s.get R.PNL_PWRSTAT_PGOOD
  s.put R.PNL_PWRSTAT_PGOOD (if up then e ||| 2 ^ n else if bitAt e n then e - 2 ^ n else e)

/-- R239. RAIL_STEP: a delay D_n ends, and the next enable rises or falls. Rails that are down and wanted again rise. -/
def execRailStep (s : State) : Host.Outcome State Fault Refusal :=
  .next (
    match s.get R.PNL_PWRSTAT_STATE with
    | 1 => s.railDrive s.pnl.rail true
    | 3 =>
      let s := s.railDrive s.pnl.rail false
      (match s.topRail with
       | some n => s.setPnl { s.pnl with rail := n }
       | none =>
         let s := s.put R.PNL_PWRSTAT_STATE 0
         if s.on R.PNL_PWRREQ_ON && !s.pnl.blocked then s.railsUp else s)
    | _ => s)

/-- R239. PNL_PGOOD_RISE. -/
def execPnlPgoodRise (rail : Nat) (s : State) : Host.Outcome State Fault Refusal :=
  .next (
    let s := s.pgoodShow rail true
    if s.get R.PNL_PWRSTAT_STATE = 1 ∧ s.pnl.rail = rail ∧ bitAt (s.get R.PNL_PWRSTAT_EN) rail then s.railNext (rail + 1) else s)

/-- R240. A rail fault. -/
def State.railFault (s : State) (rail : Nat) : State :=
  let s := ((s.railsDrop 4).put R.PNL_PWRSTAT_FAULT_RAIL rail).setPnl { (s.railsDrop 4).pnl with blocked := true }
  ((s.log 14 0 0 0x88 2 rail).ledgerAsk 0x32 [rail]).raise Irq.PNL_RAIL_FAULT

/-- R240. RAIL_FAULT: G_n ends with no power-good on the rail that rises, or PNL_PGOOD[rail] falls; a fall while the enable is low is no
fault. -/
def execRailFault (rail : Nat) (timeout : Bool) (s : State) : Host.Outcome State Fault Refusal :=
  .next (
    let en := bitAt (s.get R.PNL_PWRSTAT_EN) rail
    if timeout then
      (if s.get R.PNL_PWRSTAT_STATE = 1 ∧ s.pnl.rail = rail ∧ en then s.railFault rail else s)
    else
      let s := s.pgoodShow rail false
      if en then s.railFault rail else s)

/-- R241. HOLD_FIRST_TIMEOUT: 2 s pass, and the rails go down without waiting longer. -/
def execHoldFirstTimeout (s : State) : Host.Outcome State Fault Refusal := .next (if s.pnl.offWaits then s.railsDown else s)

end Sys2Proof.Machine
end

