-- ==== Sys2Proof/Machine/Commit.lean ====
section
/-! DEFINITION. Commits: writes of SH fields, the checks of a commit, its effect on every block, layers that wait for a fence, and
the bands and the lock source that start afresh with it (R5, R171, R179, R191, R197–R200). -/
namespace Sys2Proof.Machine

/-! ### Register stores (R5, R199) -/

/-- R5. A field of a register after a write of `v` over `old`: `armed` keeps SH fields, `watch` lets LK fields change. Fields that are
read only, and those whose write is an action, keep their values here. -/
def FieldRow.store (f : FieldRow) (armed watch : Bool) (old v acc : Nat) : Nat :=
  match f.typ with
  | .rw => setBits acc f.lsb f.width (bitsOf v f.lsb f.width)
  | .sh => if armed then acc else setBits acc f.lsb f.width (bitsOf v f.lsb f.width)
  | .lk => if watch then setBits acc f.lsb f.width (bitsOf v f.lsb f.width) else acc
  | .w1c => setBits acc f.lsb f.width (bitsOf old f.lsb f.width - (bitsOf old f.lsb f.width &&& bitsOf v f.lsb f.width))
  | .ro | .wo | .w1s | .rc => acc

/-- Does the register at BAR0 offset `a` hold an SH field? -/
def holdsSh (a : Nat) : Bool :=
  match regRow a with
  | some (r, _) => r.fields.any (fun f => f.typ == .sh)
  | none => false

/-- R199. A write reaches a register with SH fields while a commit is armed. -/
def State.writeDrop (s : State) : State :=
  ((s.put R.SCO_CSTAT_WR_DROP 1).bump (R.SCO_CNT_COUNT 4)).raise Irq.SCO_WR_DROP

/-- R5, R199. A write of a register word reaches the fields that simply take it. -/
def State.storeFields (s : State) (watch : Bool) (a v : Nat) : State :=
  match regRow a with
  | none => s
  | some (r, _) =>
    let armed := s.sco.armed.isSome
    let old := s.word a
    let v := presentBits s.member a v
    let s := s.setWord a (r.fields.foldl (fun acc f => f.store armed watch old v acc) old)
    if armed && r.fields.any (fun f => f.typ == .sh) then s.writeDrop else s

/-- R199. A write to a register that holds SH fields while a commit is armed. -/
def execShWriteDrop (addr value : Nat) (s : State) : Host.Outcome State Fault Refusal :=
  .next (if s.sco.armed.isSome && holdsSh addr then s.storeFields false addr value else s)

/-! ### The checks (R171, R186, R198) -/

/-- R186. The tiles that the shadow copies enable. -/
def State.shadowTiles (s : State) : List Nat :=
  (List.range s.member.tiles).filter (fun t => bitAt (if t < 32 then s.get R.SCO_TEN_LO_EN else s.get R.SCO_TEN_HI_EN) (t % 32))

/-- R171. May the depth fields of a layer be used? -/
def Layer.depthOk (y : Layer) : Bool :=
  [y.z, y.xl, y.yt, y.tx, y.ty].all (fisFinite f32) && flt f32 0 y.tx && flt f32 0 y.ty

/-- R171. Is n_v above 8? The depth quotient is compared in binary32: ceil(q) + 2 > 8 when q > 6. -/
def State.vlinesBad (s : State) (y : Layer) (t : Nat) : Bool :=
  if !y.place then decide (y.dstH < y.srcH) && decide (8 < ceilDiv y.srcH y.dstH + 1)
  else y.depthOk && flt f32 (fi 6) (fdiv f32 (fadd f32 (s.get (R.CMP_DOY_VALUE t))
    (fmul f32 (fabs f32 y.z) (fsub f32 (s.get (R.CMP_SYMAX_VALUE t)) (s.get (R.CMP_SYMIN_VALUE t))))) y.ty)

/-- R58, R171. PITCH_X of a tile in the bound ray map. -/
def State.pitchX (s : State) (t : Nat) : Nat :=
  match s.syn.rmap with
  | some m => match tabGet m.tiles t with
    | some h => h.px
    | none => 0
  | none => 0

/-- R171. Is n_h above 4,096? -/
def State.hwidthBad (s : State) (y : Layer) (t : Nat) : Bool :=
  decide (4096 < y.srcW) && (!y.place || (y.depthOk && flt f32 (fi 4094) (fdiv f32 (fadd f32 (fadd f32 (fmul f32 (fi y.dstW) (s.pitchX t))
    (s.get (R.CMP_DOX_VALUE t))) (fmul f32 (fabs f32 y.z) (fsub f32 (s.get (R.CMP_SXMAX_VALUE t)) (s.get (R.CMP_SXMIN_VALUE t))))) y.tx)))

/-- R171. The reason for which an overlay is refused. -/
def State.overlayReason (s : State) (y : Layer) (t : Nat) : Option Nat :=
  if s.vlinesBad y t then some 1
  else if s.hwidthBad y t then some 2
  else if !y.place ∧ (16 * y.srcW < y.dstW ∨ 16 * y.srcH < y.dstH) then some 3
  else if s.get (R.SCO_TSIZE_W t) < y.dstX + y.dstW ∨ s.get (R.SCO_TSIZE_H t) < y.dstY + y.dstH ∨
      y.srcW = 0 ∨ y.srcH = 0 ∨ y.dstW = 0 ∨ y.dstH = 0 then some 4
  else if 3 < y.fmt ∨ y.pitch % 256 ≠ 0 ∨ y.pitch < y.srcW * pixelBytes y.fmt then some 6
  else if y.place ∧ (!y.depthOk ∨ s.syn.rmap.isNone) then some 7
  else none

/-- R166, R167, R171. The reason for which L0 is refused: in frame mode its pitch must hold a row of the tile. -/
def State.rayLayerReason (s : State) (y : Layer) (t : Nat) : Option Nat :=
  if s.on R.SYN_CTL_MODE then none
  else if y.pitch % 256 ≠ 0 ∨ y.pitch < 4 * s.get (R.SCO_TSIZE_W t) then some 6 else none

/-- R171. CMP_ORDER is a permutation of 0–7. -/
def orderOk (v : Nat) : Bool := (List.range 8).all (fun l => (List.range 8).any (fun i => decide (bitsOf v (3 * i) 3 = l)))

/-- R171. The first failing layer of a tile, with its reason; ORDER is recorded at layer 0. -/
def State.tileReason (s : State) (t : Nat) : Option (Nat × Nat) :=
  let reason := fun l =>
    let y := layerOf s.get t l
    let order := decide (l = 0) && s.on (R.CMP_TCTL_PROG t) && !orderOk (s.get (R.CMP_ORDER_ORDER t))
    if order then some 5
    else if !y.en then none
    else if l = 0 then s.rayLayerReason y t else s.overlayReason y t
  (List.range 8).findSome? (fun l => (reason l).map (fun r => (l, r)))

/-- R171. The first failing tile and layer of the composition checks, with the reason. -/
def State.cmpReason (s : State) : Option (Nat × Nat × Nat) :=
  (s.shadowTiles.filter (fun t => s.on (R.CMP_TCTL_EN t))).findSome? (fun t => (s.tileReason t).map (fun p => (t, p)))

/-- R186. LINE_CLKS breaks its range, or is too short for an enabled tile. -/
def State.lineBad (s : State) : Bool :=
  let l := s.get R.SCO_LINE_LINE_CLKS
  decide (l < 64) || s.shadowTiles.any (fun t => decide (l < ceilDiv (ceilDiv (s.get (R.SCO_TSIZE_W t)) 32 * 15 + 1) 4 + 1))

/-- R186. VTOTAL_MIN, VTOTAL_MAX or the shortest period breaks its check. -/
def State.periodBad (s : State) : Bool :=
  let l := s.get R.SCO_LINE_LINE_CLKS
  let lo := s.get R.SCO_VTOTAL_VTOTAL_MIN
  let hi := s.get R.SCO_VTOTAL_VTOTAL_MAX
  decide (lo < s.get R.SCO_VGEOM_ACTIVE + s.get R.SCO_VGEOM_VBLANK_MIN) || decide (hi < lo) || decide (13021875 < hi * l) ||
  decide (lo * l < pMin s.shadowTiles.length)

/-- R186. A tile size or ACTIVE breaks its check. -/
def State.geometryBad (s : State) : Bool :=
  let a := s.get R.SCO_VGEOM_ACTIVE
  decide (a = 0) || decide (4096 < a) || (s.on R.SYN_CTL_MODE && decide (a % 64 ≠ 0)) ||
  s.shadowTiles.any (fun t => decide (s.get (R.SCO_TSIZE_W t) = 0) || decide (8192 < s.get (R.SCO_TSIZE_W t)) || decide (s.get (R.SCO_TSIZE_H t) ≠ a))

/-- R83, R198. LEAD must lie between 1 and DEPTH − 2 and DEPTH between 4 and 64, in either mode. -/
def State.bandBad (s : State) : Bool :=
  decide (s.get R.SYN_BAND_LEAD = 0) || decide (s.get R.SYN_BAND_DEPTH < s.get R.SYN_BAND_LEAD + 2) ||
  decide (clampN 4 64 (s.get R.SYN_BAND_DEPTH) ≠ s.get R.SYN_BAND_DEPTH)

/-- R193, R198. LOCKED to the PTP frame clock with a period that is not allowed. -/
def State.ptpPeriodBad (s : State) : Bool :=
  let num := s.get R.SCO_FCNUM_FC_NUM
  let den := s.get R.SCO_FCDEN_FC_DEN
  let l := s.get R.SCO_LINE_LINE_CLKS
  let p := num * 312500000
  decide (num = 0) || decide (den = 0) || decide (p < (s.get R.SCO_VGEOM_ACTIVE + s.get R.SCO_VGEOM_VBLANK_MIN) * l * den) ||
  decide (1000 * p < 995 * pMin s.shadowTiles.length * den) || decide (s.get R.SCO_VTOTAL_VTOTAL_MAX * l * den < p)

/-- R198. The lock source breaks its check. -/
def State.lockBad (s : State) : Bool :=
  (s.on R.SCO_MODE_CLASS && decide (s.get R.SCO_MODE_SRC = 1) && s.ptpPeriodBad) || decide (2 ≤ s.get R.SCO_MODE_SRC) ||
  decide (s.get R.SCO_MODE_GL_DIV = 0)

/-- R186. VBLANK_MIN or WINDOW is outside its range. -/
def State.windowBad (s : State) : Bool :=
  let w := s.get R.SCO_VGEOM_WINDOW
  decide (s.get R.SCO_VGEOM_VBLANK_MIN < 8) || decide (w < 4) || decide (s.get R.SCO_VGEOM_ACTIVE < w)

/-- R198. The REASON of the first failing check, in code order; 0 where every check passes. -/
def State.commitReason (s : State) : Nat :=
  if s.cmpReason.isSome then 1 else if s.lineBad then 2 else if s.periodBad then 3 else if s.geometryBad then 4
  else if s.bandBad then 5 else if s.lockBad then 6 else if s.windowBad then 7 else 0

/-! ### Fences (R179) -/

/-- The BAR0 offset of layer `l` of tile `t`. -/
def layerBase (t l : Nat) : Nat := 0xB2000 + t * 0x200 + l * 0x40
/-- The committed words of a layer. -/
def State.layerWords (s : State) (t l : Nat) : List Nat := (List.range 16).map (fun i => s.actWord (layerBase t l + 4 * i))
/-- Replace the committed words of a layer. -/
def State.putLayerWords (s : State) (t l : Nat) (ws : List Nat) : State :=
  (ws.foldl (fun (p : State × Nat) w => (p.1.setActWord p.2 w, p.2 + 4)) (s, layerBase t l)).1

/-- R179, R345. Read the fence word of a layer's values and compare: ready when (fence − CMP_LFVAL) is not negative; a read that faults is
reported, and the layer is not ready. -/
def State.fenceReady (s : State) (t l : Nat) (ws : List Nat) : State × Bool :=
  let va := ws.getD 13 0 / 4 * 4 + 2 ^ 32 * (ws.getD 14 0 % 2 ^ 16)
  match s.vread 0 va .read 4 with
  | .ok bs => (s, decide (subMod 32 (leNat bs) (ws.getD 15 0) < 2 ^ 31))
  | .error e => (s.cmpFail t l 0 va .read 6 e, false)

/-- PENDING of a layer. -/
def State.setPendingLayer (s : State) (t l : Nat) (on : Bool) : State :=
  let f := R.CMP_TSTAT_PENDING t
  let v := s.get f
  s.put f (if on then v ||| 2 ^ l else v - (v &&& 2 ^ l))

/-- R179. One layer as a commit takes effect: with its fence not ready, its new values wait, and the layer keeps its previous values or is
passed over. -/
def State.gateLayer (old : State) (s : State) (t l : Nat) : State :=
  if !(s.composes t && s.onA (R.CMP_LCTL_FENCE_EN t l)) then s.setPendingLayer t l false
  else
    let ws := s.layerWords t l
    let r := s.fenceReady t l ws
    if r.2 then r.1.setPendingLayer t l false
    else
      let s := r.1
      let hold := s.onA (R.CMP_LCTL_HOLD_PREV t l) && old.onA (R.CMP_LCTL_EN t l)
      let s := (s.putLayerWords t l (old.layerWords t l)).setPendingLayer t l true
      s.setSco { s.sco with
        waiting := tabPut s.sco.waiting (t * 8 + l) ws
        passed := if hold then s.sco.passed else s.sco.passed ++ [t * 8 + l] }

/-- R178, R179. A fence read of a layer faults: the layer is not ready. Its values wait and it is passed over, unless they wait already. -/
def State.fenceFault (s : State) (t l : Nat) : State :=
  let s := s.cmpFlag t 2 2 1 l
  if (tabGet s.sco.waiting (t * 8 + l)).isSome ∨ !s.onA (R.CMP_LCTL_FENCE_EN t l) then s
  else
    let s := s.setPendingLayer t l true
    s.setSco { s.sco with waiting := tabPut s.sco.waiting (t * 8 + l) (s.layerWords t l), passed := s.sco.passed ++ [t * 8 + l] }

/-- R179. Every overlay of every tile as a commit takes effect; waiting values of an earlier commit are replaced. -/
def State.gateLayers (old s : State) : State :=
  let s := s.setSco { s.sco with waiting := [], passed := [] }
  (List.range 64).foldl (fun s t => (List.range 7).foldl (fun s l => old.gateLayer s t (l + 1)) s) s

/-- R179. At the start of blanking the fences of the waiting layers are read again; values whose fence is ready take effect. -/
def State.retryFences (s : State) : State :=
  s.sco.waiting.foldl (fun s p =>
    let t := p.1 / 8
    let l := p.1 % 8
    let r := if s.composes t then s.fenceReady t l p.2 else (s, false)
    if r.2 then
      let s := (r.1.putLayerWords t l p.2).setPendingLayer t l false
      s.setSco { s.sco with waiting := tabDel s.sco.waiting p.1, passed := s.sco.passed.filter (fun k => decide (k ≠ p.1)) }
    else r.1) s

/-- R179. NOT_READY is counted for every layer that waits as a frame starts. -/
def State.countWaiting (s : State) : State :=
  s.sco.waiting.foldl (fun s p => s.cmpFlag (p.1 / 8) 2 2 1 (p.1 % 8)) s

/-! ### Faults named from outside (R178) -/

/-- R178. A layer, class-plane, residual, fence or write-back access of a tile faults: 0 layer, 1 class plane, 2 residual plane, 3 fence,
4 write-back. -/
def execLayerFetchFault (tile layer kind : Nat) (s : State) : Host.Outcome State Fault Refusal :=
  .next (
    if !s.sco.inFrame ∨ !s.tileOn tile ∨ !s.composes tile then s
    else match kind with
      | 0 => s.layerFault tile layer
      | 1 => s.classFault tile
      | 2 => s.residualFault tile
      | 3 => if layer = 0 then s else s.fenceFault tile layer
      | _ => s.wbFault tile)

/-! ### Bands and the lock source (R83, R86, R193, R200) -/

/-- R83. The frame program queues the next band. -/
def State.addBand (s : State) : State :=
  let b := s.syn.nextBand
  let w : SynWork := { band := some b, ring := 0, tag := 0, slot := 0, seq := 0, pts := 0, isStatic := false, bound := s.syn.bound, started := 0, exhausted := 0,
                        ctx := 0, targets := [], written := [], complete := [], abandoned := false, startNs := 0, newMap := if b % zeroActs 1 s.bandCount = 0 then s.syn.rmapNext else none,
                        cost := none, measured := false }
  { s with syn := { s.syn with works := tabPut s.syn.works s.syn.nextWork w,
                               nextWork := s.syn.nextWork + 1, nextBand := b + 1,
                               rmapNext := if b % zeroActs 1 s.bandCount = 0 then none else s.syn.rmapNext } }

/-- R83. The bands queued are given up; a ray map that none of them has taken waits again. -/
def State.dropBands (s : State) : State :=
  let m := s.syn.works.findSome? (fun p => if p.2.band.isSome ∧ p.2.started = 0 then p.2.newMap else none)
  { s with syn := { s.syn with works := s.syn.works.filter (fun p => p.2.band.isNone), rmapNext := if s.syn.rmapNext.isSome then s.syn.rmapNext else m } }

/-- R86. A change of mode that a commit carried waits for the old mode to drain. -/
def State.modeDue (s : State) : Bool := s.sco.modeHeld && (s.on R.SYN_CTL_MODE != s.bandMode)

/-- R86. Is the old mode drained: in frame mode, every frame taken has been committed; in band mode, no band is outstanding? -/
def State.drained (s : State) : Bool :=
  s.syn.works.all (fun p => if p.2.band.isSome then (p.2.abandoned || s.workComplete p.2) && !s.worked 0 p.1
    else s.bandMode || decide (s.sco.shown = some p.1) || decide (s.sco.next = some p.1))

/-- R86. The committed values that a commit of the shadow copies gives: with a change of mode while the old mode is not drained, MODE keeps
its committed value, and the frame program commits again once it is (assumption 79). -/
def State.moveShadows (s : State) : State :=
  let held := (s.on R.SYN_CTL_MODE != s.bandMode) && !s.drained
  let mode := s.getA R.SYN_CTL_MODE
  let s := { s with act := s.regs.filter (fun p => holdsSh p.1), sco := { s.sco with modeHeld := held } }
  if held then s.putA R.SYN_CTL_MODE mode else s

/-- R83. Bands are launched until `n` have been. -/
def State.addBands (s : State) (n : Nat) : State := if s.modeDue then s else foldRange (n - s.syn.nextBand) (fun s _ => s.addBand) s

/-- R83, R86. Band mode starts: numbering restarts, every ready flag is clear, and the first LEAD bands are launched. -/
def State.enterBandMode (s : State) : State :=
  let s := s.dropBands
  let s := { s with syn := { s.syn with nextBand := 0 } }
  let s := s.setSco { s.sco with bandFirst := true, bandBase := 0 }
  let s := foldRange 64 (fun s t => (s.put (R.SYN_READY_LO_READY t) 0).put (R.SYN_READY_HI_READY t) 0) s
  s.addBands (s.getA R.SYN_BAND_LEAD)

/-- R193. Qualification starts again from the next edge. -/
def State.requalify (s : State) : State :=
  (s.setSco { s.sco with ivals := [], edgeAt := none, div := 0, due := none, stepped := false }).restartEdges.put R.SCO_STAT_LOCKED 0

/-- R200. The lock source starts afresh when the class becomes LOCKED or the source, polarity or divider changes. -/
def State.newSource (old s : State) : State :=
  let fs := [R.SCO_MODE_SRC, R.SCO_MODE_GL_POL, R.SCO_MODE_GL_DIV]
  if s.lockedClass && (!old.lockedClass || fs.any (fun f => decide (s.getA f ≠ old.getA f))) then
    (s.requalify.put R.SCO_S_PERIOD_P_MEAS 0).put R.SCO_STAT_HOLDOVER (b2n (!s.ptpSource))
  else if !s.lockedClass && old.lockedClass then (s.requalify.put R.SCO_STAT_HOLDOVER 0)
  else if [R.SCO_FCT0_LO_T0, R.SCO_FCT0_HI_T0, R.SCO_FCNUM_FC_NUM, R.SCO_FCDEN_FC_DEN].any (fun f => decide (s.getA f ≠ old.getA f)) then s.restartEdges
  else s

/-- R62, R90, R200, R538. What follows from the values that a commit has changed. -/
def State.commitEffects (old s : State) : State :=
  let s := s.put R.SCO_STAT_CLASS (s.getA R.SCO_MODE_CLASS)
  let s := old.newSource s
  let s := if s.bandMode && !old.bandMode then s.enterBandMode
    else if !s.bandMode && old.bandMode then s.dropBands else s
  let s := if s.tilesOn ≠ old.tilesOn ∨ (List.range 64).any (fun t => decide (s.actWord (R.SCO_TSIZE_W t).addr ≠ old.actWord (R.SCO_TSIZE_W t).addr))
    then s.countRays else s
  if s.bandMode ≠ old.bandMode ∨ s.lockedClass ≠ old.lockedClass then s.clearHistory else s

/-! ### Arming and resolving (R191, R197, R198) -/

/-- R189. The line of the generator at which the next frame became ready. -/
def State.markReady (s : State) : State :=
  if s.lockedClass ∨ s.bandMode then s else s.setSco { s.sco with ready := some s.sco.line, lead := s.leadL }

/-- R203. The frame program sets SCO_FINFO for the new content of the work that a commit shows. -/
def State.setFinfo (s : State) (k : Nat) : State :=
  match s.synWork k with
  | some w => (s.put R.SCO_FINFO_GEN_ADV 1).put R.SCO_FINFO_STATIC (b2n w.isStatic)
  | none => s

/-- R198. Every shadow copy moves to its active copy, on all tiles and blocks at once. -/
def State.acceptCommit (s : State) : State :=
  let old := s
  let s := s.moveShadows
  let s := old.commitEffects s
  let s := old.gateLayers s
  let s := ((((s.put R.SCO_CSTAT_ACCEPTED 1).put R.SCO_CSTAT_REFUSED 0).put R.SCO_CSTAT_REASON 0).put R.CMP_REJ_VALID 0)
  let s := match s.sco.armedWork with
    | some k => (s.setSco { s.sco with next := some k, armedWork := none, rmap := s.syn.rmap }).setFinfo k
    | none => if s.sco.rmap.isNone then s.setSco { s.sco with rmap := s.syn.rmap } else s
  ((s.setSco { s.sco with accepted := true }).switchCounted).markReady

/-- R198. No SH register of any block takes effect; SCO_CSTAT and CMP_REJ record the first failure. -/
def State.refuseCommit (s : State) (r : Nat) : State :=
  let s := ((s.put R.SCO_CSTAT_ACCEPTED 0).put R.SCO_CSTAT_REFUSED 1).put R.SCO_CSTAT_REASON r
  let s := match s.cmpReason with
    | some (t, l, c) => (((s.put R.CMP_REJ_VALID 1).put R.CMP_REJ_REASON c).put R.CMP_REJ_TILE t).put R.CMP_REJ_LAYER l
    | none => s
  ((s.setSco { s.sco with armedWork := none }).bump (R.SCO_CNT_COUNT 3)).raise Irq.SCO_REFUSED

/-- R197, R198. The armed commit resolves: the checks decide, CSEQ counts, and the commit-done event is raised. -/
def State.resolveCommit (s : State) : State :=
  let s := ((s.setSco { s.sco with armed := none }).put R.SCO_STAT_ARMED 0).put R.SCO_COMMIT_COMMIT 0
  let r := s.commitReason
  let s := (if r = 0 then s.acceptCommit else s.refuseCommit r).bump R.SCO_CSTAT_CSEQ
  s.scoEvent 4 (if r = 0 then s.tileMask else 0)

/-- R197. LATE_COMMIT is set, counted and raised; the frame in progress is late (R89). -/
def State.lateCommit (s : State) : State :=
  let s := ((s.put R.SCO_CSTAT_LATE_COMMIT 1).bump (R.SCO_CNT_COUNT 2)).raise Irq.SCO_LATE_COMMIT
  s.frameLate.scoEvent 5 0

/-- R197, R199. COMMIT is written: a commit is armed, unless one is armed already. While no frame is in progress its commit point has come. -/
def State.armCommit (s : State) : State :=
  if s.sco.armed.isSome then s
  else
    let c : ArmedCommit × Bool := if s.sco.inFrame then s.commitPoint s.sco.line else (⟨0, 0, false⟩, false)
    let s := ((s.setSco { s.sco with armed := some c.1 }).put R.SCO_STAT_ARMED 1).put R.SCO_COMMIT_COMMIT 1
    if c.2 then s.lateCommit else s

/-- R197. A write of 1 to SCO_COMMIT.COMMIT. -/
def execCommit (s : State) : Host.Outcome State Fault Refusal := .next s.armCommit

/-- R191, R197. Has the commit point of the armed commit come? SCO_DUE and LEAD_L are reckoned as the lines pass. -/
def State.atCommitPoint (s : State) : Bool :=
  match s.sco.armed with
  | none => false
  | some c => !s.sco.inFrame || (!c.wait && s.sco.blank && (s.lockedClass || s.startsInTime c.point) && decide (s.dueHold c.point ≤ s.sco.line))

/-- R191, R197. As a frame starts, the commit point of a commit that is still armed is reckoned in the new frame. -/
def State.rearm (s : State) : State :=
  match s.sco.armed with
  | some _ => s.setSco { s.sco with armed := some (if s.lockedClass then ⟨0, s.active, false⟩ else s.variablePoint 0 s.active) }
  | none => s

end Sys2Proof.Machine
end

