-- ==== Sys2Proof/Machine/WorkRing.lean ====
section
/-! DEFINITION. Host work rings: entries, completions, doorbells, and a ring's start and stop (R399–R404). -/
namespace Sys2Proof.Machine

/-- A ring with nothing taken. -/
def wringDefault (_ : Nat) : WorkRing := ⟨0, 0, 0, []⟩
/-- Work ring `n`. -/
def State.wring (s : State) (n : Nat) : WorkRing := mapGet wringDefault s.hst.rings n
/-- Replace work ring `n`. -/
def State.setWring (s : State) (n : Nat) (r : WorkRing) : State := { s with hst := { s.hst with rings := mapPut wringDefault s.hst.rings n r } }
/-- Entries of a ring: LOG2N clamped to 2–12. -/
def State.wringSize (s : State) (n : Nat) : Nat := 2 ^ clampN 2 12 (s.get (R.HST_WR_CFG_LOG2N n))
/-- The ring's context. -/
def State.wringCtx (s : State) (n : Nat) : Nat := s.get (R.HST_WR_CFG_CTX n)
/-- Is the ring served: EN, a context, and STATE RUN? -/
def State.wringRuns (s : State) (n : Nat) : Bool :=
  s.on (R.HST_WR_CFG_EN n) && decide (s.wringCtx n ≠ 0) && decide (s.get (R.HST_WR_STAT_STATE n) = 1) && s.fwu.switch.isNone

/-! ### Halts, starts and stops (R399, R403) -/

/-- R399. A translation failure halts the ring. -/
def State.haltRing (s : State) (n cause : Nat) : State :=
  ((s.put (R.HST_WR_STAT_STATE n) 2).put (R.HST_WR_STAT_CAUSE n) cause).raise Irq.HST_WR_FAULT

/-- R399, R403. EN of a ring has been written: off, or on at HEAD with completions numbered from 0. -/
def State.ringEnable (s : State) (n : Nat) (was : Bool) : State :=
  if !s.on (R.HST_WR_CFG_EN n) then ((s.put (R.HST_WR_STAT_STATE n) 0).put (R.HST_WR_STAT_CQ_FULL n) 0)
  else if was then s
  else
    let h := s.get (R.HST_WR_HEAD_HEAD n)
    let s := s.setWring n { s.wring n with tail := h, taken := h, cqn := 0 }
    if s.wringCtx n = 0 then s else (s.put (R.HST_WR_STAT_STATE n) 1).put (R.HST_WR_STAT_CAUSE n) 0

/-- R399, R403. A write of HST_WR_CFG.EN. -/
def execWorkRingEn (ring : Nat) (en : Bool) (s : State) : Host.Outcome State Fault Refusal :=
  .next (
    let was := s.on (R.HST_WR_CFG_EN ring)
    (s.put (R.HST_WR_CFG_EN ring) (b2n en)).ringEnable ring was)

/-- R358, R399. A translation failure on an access of the ring by firmware, through DMA ring 1 of engine 0. -/
def State.ringFail (s : State) (n va : Nat) (acc : Acc) (e : AccErr) : State :=
  (s.accFail 0x10 (1 * 16) (s.wringCtx n) va acc 4 e).haltRing n e.code

/-- R399. A translation failure on a work ring's access. -/
def execWorkRingHalt (ring cause : Nat) (s : State) : Host.Outcome State Fault Refusal :=
  .next (if s.wringRuns ring then s.haltRing ring cause else s)

/-! ### Doorbells (R400, R401) -/

/-- R400. A doorbell write with a TAIL. -/
def State.doorbell (s : State) (n tail : Nat) : State :=
  if !s.on (R.HST_WR_CFG_EN n) ∨ s.wringCtx n = 0 ∨ s.wringSize n ≤ tail then s.bump (R.HST_CNT_COUNT 4)
  else (s.setWring n { s.wring n with tail := tail }).ring (s.get (R.HST_WR_CFG_CORE n)) n tail

/-- R400. A write of HST_WR_DB. -/
def execDoorbell (ring tail : Nat) (s : State) : Host.Outcome State Fault Refusal := .next (s.doorbell ring tail)

/-- R401. A unit of the device rings a doorbell number. -/
def execDeviceDoorbell (n value : Nat) (s : State) : Host.Outcome State Fault Refusal := .next (s.deviceDoorbell n value)

/-! ### Entries (R399, R402, R404) -/

/-- R402. The address of the entry at HEAD. -/
def State.entryAddr (s : State) (n : Nat) : Nat :=
  s.addrOf (R.HST_WR_SQ_LO_ADDR n) (R.HST_WR_SQ_HI_ADDR n) + 64 * s.get (R.HST_WR_HEAD_HEAD n)

/-- R399, R400, R402. The frame program takes the next entry of a ring if `want` accepts it: `f` acts on its 64 bytes, with the
command noted in the ring. A ring whose STATE is not RUN, or with no entry announced, gives none. -/
def State.takeEntry (s : State) (n : Nat) (want : List Byte → Bool) (f : State → List Byte → State) : State :=
  let h := s.get (R.HST_WR_HEAD_HEAD n)
  if !s.wringRuns n ∨ h = (s.wring n).tail then s
  else
    let va := s.entryAddr n
    match s.vread (s.wringCtx n) va .read 64 with
    | .error e => s.ringFail n va .read e
    | .ok b =>
      if !want b then s
      else
        let c : TakenCmd := { slot := leAt b 0x20 4, done := none, tag := leAt b 4 4, op := leAt b 0 1, irq := bitAt (leAt b 1 1) 0, seq := 0, oldest := 0 }
        let r := s.wring n
        let s := s.setWring n { r with taken := (h + 1) % s.wringSize n, cmds := r.cmds ++ [c] }
        f (s.put (R.HST_WR_HEAD_HEAD n) ((h + 1) % s.wringSize n)) b

/-- Change the newest command taken from a ring. -/
def State.mapNewest (s : State) (n : Nat) (f : TakenCmd → TakenCmd) : State :=
  let r := s.wring n
  match r.cmds.reverse with
  | [] => s
  | c :: rest => s.setWring n { r with cmds := (f c :: rest).reverse }

/-- A command's completion. -/
def TakenCmd.finish (c : TakenCmd) (status : Nat) (result : List Byte) : TakenCmd :=
  { c with done := some { tag := c.tag, status := status, op := c.op, irq := c.irq, result := (result ++ zeros 24).take 24 } }

/-- R403. The newest command of a ring completes with a status and a result. -/
def State.finishNewest (s : State) (n status : Nat) (result : List Byte) : State := s.mapNewest n (fun c => c.finish status result)

/-- R404. An entry whose OP the frame program does not define. -/
def execBadop (ring : Nat) (s : State) : Host.Outcome State Fault Refusal :=
  .next (s.takeEntry ring (fun b => decide (leAt b 0 1 = 0) || decide (4 < leAt b 0 1)) (fun s _ => s.finishNewest ring 1 []))

/-! ### Completions (R403) -/

/-- R403. The 32 bytes of completion `i` in a ring of `n` entries. -/
def Completion.bytes (c : Completion) (i n : Nat) : List Byte :=
  leBytes 4 c.tag ++ leBytes 2 c.status ++ leBytes 1 c.op ++ leBytes 1 (1 - i / n % 2) ++ c.result

/-- R403. Is there room for the next completion? -/
def State.cqRoom (s : State) (n : Nat) : Bool :=
  decide (subMod 13 (s.wring n).cqn (s.get (R.HST_WR_CQH_CQH n)) < s.wringSize n)

/-- R403, R407. The oldest command's completion is written, held while the ring is full, or dropped where the ring is off. -/
def State.writeCompletion (s : State) (n : Nat) : State :=
  let r := s.wring n
  match r.cmds with
  | c :: rest => match c.done with
    | none => s
    | some d =>
      if !s.on (R.HST_WR_CFG_EN n) then (s.setWring n { r with cmds := rest }).bump (R.HST_CNT_COUNT 5)
      else if !s.wringRuns n then s
      else if !s.cqRoom n then s.put (R.HST_WR_STAT_CQ_FULL n) 1
      else
        let va := s.addrOf (R.HST_WR_CQ_LO_ADDR n) (R.HST_WR_CQ_HI_ADDR n) + 32 * (r.cqn % s.wringSize n)
        match s.vwrite (s.wringCtx n) va (d.bytes r.cqn (s.wringSize n)) with
        | .error e => s.ringFail n va .write e
        | .ok s =>
          let s := (s.setWring n { s.wring n with cqn := (r.cqn + 1) % 8192, cmds := rest }).put (R.HST_WR_STAT_CQ_FULL n) 0
          if d.irq then s.raise Irq.HST_WR_DONE else s
  | [] => s

/-- R403. A command's completion is written. -/
def execWorkCompletion (ring : Nat) (s : State) : Host.Outcome State Fault Refusal := .next (s.writeCompletion ring)

/-- R403. A write of HST_WR_CQH frees completion space. -/
def State.cqhWritten (s : State) (n : Nat) : State := if s.cqRoom n then s.put (R.HST_WR_STAT_CQ_FULL n) 0 else s
/-- R403. A write of HST_WR_CQH, after which a held completion may be written. -/
def execCqhWrite (ring cqh : Nat) (s : State) : Host.Outcome State Fault Refusal :=
  .next (
    let held := s.on (R.HST_WR_STAT_CQ_FULL ring)
    let s := (s.put (R.HST_WR_CQH_CQH ring) cqh).cqhWritten ring
    if held then s.writeCompletion ring else s)

end Sys2Proof.Machine
end

