-- ==== Sys2Proof/Machine/FrameProg.lean ====
section
/-! DEFINITION. What the shipped frame program does with finished synthesis: tile bands, ready flags, the commit of a frame, and the
completion of its command (R49, R65, R82, R83, R85, R91, R190, R404). -/
namespace Sys2Proof.Machine

/-! ### Tile bands (R65) -/

/-- R65. Is the tile band written out: every ray of it counted, and the spans that deal it exhausted? -/
def State.bandWritten (s : State) (w : SynWork) (t i : Nat) : Bool :=
  decide ((tabGet w.written (t * 64 + i)).getD 0 = s.tileW t * s.bandLines i) &&
  (List.range s.member.hamlets).all (fun h =>
    !(s.workSpan w h).any (fun x => decide (x.1 = i) && decide (x.2.1.tile = t)) || bitAt w.exhausted h)

/-- R190. The due time of a frame; 0 where its stream has no anchor. -/
def State.dueOf (s : State) (w : SynWork) : Nat :=
  match tabGet s.syn.streams w.slot with
  | some st =>
    if st.anchorPtp = 0 then 0
    else ((st.anchorPtp : Int) + ((w.pts : Int) - st.anchorPts) * st.tbNum * 1000000000 / (zeroActs 1 st.tbDen : Nat)).toNat % 2 ^ 64
  | none => 0

/-- R82, R191. The frame program writes the L0 bases of a complete frame and its due time, and sets SCO_COMMIT. -/
def State.armWork (s : State) (k : Nat) (w : SynWork) : State :=
  let s := w.targets.foldl (fun s t =>
    ((s.put (R.CMP_LBASE_LO_ADDR t.tile 0) (t.base / 256)).put (R.CMP_LBASE_HI_ADDR t.tile 0) (t.base / 2 ^ 32)).put (R.CMP_LPITCH_PITCH t.tile 0) t.pitch) s
  let s := s.put64 R.SCO_DUE_LO_DUE R.SCO_DUE_HI_DUE (s.dueOf w)
  (s.setSco { s.sco with armedWork := some k }).armCommit

/-- R82, R86. The oldest complete frame that has not been committed is committed, once no commit is armed and the last one is shown. A
change of mode that waited is committed once the old mode is drained. -/
def State.frameArm (s : State) : State :=
  if s.modeDue && s.drained then s.armCommit
  else if s.bandMode ∨ s.sco.armed.isSome ∨ s.sco.next.isSome then s
  else match s.syn.works.find? (fun p => p.2.band.isNone && decide (p.2.started ≠ 0) && decide (s.sco.shown ≠ some p.1) && s.workComplete p.2) with
    | some (k, w) => s.armWork k w
    | none => s

/-- R85, R189. In VARIABLE band mode the next frame is ready once its first LEAD bands are complete. -/
def State.bandReady (s : State) : State :=
  if s.bandMode && !s.lockedClass && s.sco.ready.isNone && s.leadReady then s.setSco { s.sco with ready := some s.sco.line, lead := s.leadL } else s

/-- R65, R82, R83. A tile band of a work item becomes complete. -/
def execTileBandComplete (work tile band : Nat) (s : State) : Host.Outcome State Fault Refusal :=
  .next (match s.synWork work with
    | none => s
    | some w =>
      if !(s.workBands w).contains band ∨ !s.tileOn tile ∨ w.complete.contains (tile * 64 + band) ∨ w.abandoned ∨ !s.bandWritten w tile band then s
      else
        let w := { w with complete := w.complete ++ [tile * 64 + band] }
        let s := s.setSynWork work w
        match w.band with
        | some b => (s.setReadyFlag tile (b % s.ringDepth) true).bandReady.frameArm
        | none => if s.workComplete w then s.frameArm else s)

/-! ### Frames shown (R190, R404) -/

/-- R49, R404. The FRAME command of a work that is shown for the first time completes. -/
def State.finishFrame (s : State) (w : SynWork) : State :=
  let r := s.wring w.ring
  let isIt := fun (c : TakenCmd) => decide (c.op = 2) && decide (c.tag = w.tag) && decide (c.slot = w.slot) && decide (c.seq = w.seq) && c.done.isNone
  let res := fun (c : TakenCmd) => leBytes 4 w.seq ++ leBytes 4 c.oldest ++ leBytes 4 s.frameNo ++ leBytes 1 w.level ++ leBytes 1 w.cause
  s.setWring w.ring { r with cmds := r.cmds.map (fun c => if isIt c then c.finish 0 (res c) else c) }

/-- R404. Does a FRAME command of a stream slot still run? -/
def State.frameRuns (s : State) (slot : Nat) : Bool :=
  s.hst.rings.any (fun p => p.2.cmds.any (fun c => decide (c.op = 2) && decide (c.slot = slot) && c.done.isNone))
/-- Is a command a CLOSE_STREAM of the slot that still waits? -/
def TakenCmd.closing (c : TakenCmd) (slot : Nat) : Bool := decide (c.op = 3) && decide (c.slot = slot) && c.done.isNone
/-- R404. Does a CLOSE_STREAM of a slot wait for its earlier frames? -/
def State.isClosing (s : State) (slot : Nat) : Bool := s.hst.rings.any (fun p => p.2.cmds.any (fun c => c.closing slot))

/-- R71, R404. A stream whose close waits closes once its earlier FRAME commands have completed: its Caddy lines are invalidated. -/
def State.closeReady (s : State) (slot : Nat) : State :=
  if s.isClosing slot && !s.frameRuns slot then
    let s := foldRange 32 (fun (s : State) n =>
      let r := s.wring n
      s.setWring n { r with cmds := r.cmds.map (fun c => if c.closing slot then c.finish 0 [] else c) }) s
    ({ s with syn := { s.syn with streams := tabDel s.syn.streams slot } } : State).invalidate (some slot)
  else s

/-- R190. A stream without an anchor takes the FRAME_START of its first frame. -/
def State.anchor (s : State) (w : SynWork) : State :=
  match tabGet s.syn.streams w.slot with
  | some st => if st.anchorPtp ≠ 0 then s else
    { s with syn := { s.syn with streams := tabPut s.syn.streams w.slot { st with anchorPtp := s.frameStartNs, anchorPts := w.pts } } }
  | none => s

/-- R82, R404. At a frame start the work of the accepted commit is shown, and the one shown before is given up. -/
def State.showNext (s : State) : State :=
  match s.sco.next with
  | none => s
  | some k =>
    let old := s.sco.shown
    let s := s.setSco { s.sco with shown := some k, next := none }
    let s := match old with
      | some o => { s with syn := { s.syn with works := tabDel s.syn.works o } }
      | none => s
    match s.synWork k with
    | some w => ((s.setSco { s.sco with level := w.level }).finishFrame w |>.anchor w).closeReady w.slot
    | none => s

/-- R83, R89. Works of bands below `top` have been scanned: their frames are measured, and they are dropped unless a launch still runs on
them. -/
def State.dropOld (s : State) (top : Nat) : State :=
  let old := s.syn.works.filter (fun p => match p.2.band with
    | some b => decide (b < top)
    | none => false)
  let s := old.foldl (fun s p => s.measureFrame (s.frameKey p.1 p.2) 0 true) s
  { s with syn := { s.syn with works := s.syn.works.filter (fun p => match p.2.band with
    | some b => decide (top ≤ b) || s.worked 0 p.1
    | none => true) } }

/-- The work item of the frame whose first band is `top` that tells what the frame is bound to. -/
def State.topWork (s : State) (top : Nat) : Option SynWork :=
  (s.syn.works.find? (fun p => decide (p.2.started ≠ 0) && decide (s.frameKey p.1 p.2 = (true, top)))).map (·.2)

/-- R83. At a frame start in band mode the frame's bands follow those of the frame before, and the bands left behind are dropped. -/
def State.showBands (s : State) : State :=
  let top := s.nextTop
  let level := match s.topWork top with
    | some w => w.level
    | none => s.syn.bound.level
  (s.setSco { s.sco with bandBase := top, bandFirst := false, level := level, rmap := s.syn.rmap }).dropOld top

/-- R91. The record of the panel frame that starts is opened. -/
def State.openShown (s : State) : State :=
  if s.bandMode then s.openRecord (some (true, s.sco.bandBase)) (s.topWork s.sco.bandBase)
  else match s.sco.shown with
    | some k => s.openRecord (some (false, k)) (s.synWork k)
    | none => s.openRecord none none

end Sys2Proof.Machine
end

