-- ==== Sys2Proof/Machine/Scanout.lean ====
section
/-! DEFINITION. Scan-out: frame starts, lines, vertical blanking, the lock source, the freeze detector and the two sequencers
(R83, R189–R197, R200–R208). -/
namespace Sys2Proof.Machine

/-! ### Lines on the lanes (R219, R220, R242) -/

/-- R220, R242, R252. Line `k` of a tile is sent: whole, or the groups of the update that covers it; a hold-capable tile's panel then
differs from its held image. -/
def State.sendTile (s : State) (t k : Nat) : State :=
  if !s.lineSent t k then s
  else
    let words := (s.scan t).line
    let whole := !s.onA (R.PNL_TCTL_MODE t) || s.inHoldFrame t
    let g : Nat × Nat := match (s.regions t).find? (fun r => r.sending && r.hasLine k) with
      | some r => if whole then (0, ceilDiv (s.tileW t) 32) else (r.x0g, r.wg)
      | none => (0, ceilDiv (s.tileW t) 32)
    let s := if s.portState t = 2 ∧ (s.port t).framed then s.sendStream t (lineStream k s.frameNo g.1 g.2 words) else s
    let s := if s.pnl.entries.any (fun e => decide (e.1 = t)) then s.put (R.PNL_TSTAT_HOLD_DIRTY t) 1 else s
    if whole then s else s.regionsThrough t k

/-- R176. Line `k` leaves the lanes on every enabled tile. -/
def State.sendLine (s : State) (k : Nat) : State := s.tilesOn.foldl (fun s t => s.sendTile t k) s

/-! ### Sequencers taking control (R204–R207, R414) -/

/-- R206, R207, R414. B gives up control to A at a frame start. -/
def State.returnToA (s : State) : State :=
  let tested := decide (s.sco.seqA = .passed)
  let s := (s.setSco { s.sco with seqA := .fit, seqB := if s.sco.seqB = .failed then .failed else .proven, provenAt := s.ptpNs, transfer := none }).put R.SCO_STAT_SEQ 0
  let s := s.bump (R.SCO_CNT_COUNT 8)
  if tested then s.testOutcome s.hlt.seqA false [12, 0, 0] else s

/-- R205–R207, R418. Control changes at a frame start where a transfer has run its frame in step, and where A alone can take it. -/
def State.passControl (s : State) : State :=
  if s.get R.SCO_STAT_SEQ = 2 then
    let s := (s.setSco { s.sco with seqA := .fit, transfer := none }).put R.SCO_STAT_SEQ 0
    (s.bump (R.SCO_CNT_COUNT 8)).testOutcome s.hlt.seqA false [12, 0, 0]
  else match s.sco.transfer with
    | some 0 => s.setSco { s.sco with transfer := some 1 }
    | some 1 =>
      if s.get R.SCO_STAT_SEQ = 0 then
        (s.setSco { s.sco with seqB := .inControl, provenAt := s.ptpNs, transfer := none }).put R.SCO_STAT_SEQ 1
      else s
    | some _ => s.returnToA
    | none => s

/-! ### Frame start (R189, R203, R222) -/

/-- The pipe of a tile at a frame start. -/
def TileScan.fresh (x : TileScan) : TileScan := { scanDefault 0 with run := x.run, seen := x.seen }

/-- R204. After a switch-over an armed commit takes effect before the frame; answers whether the committed content is scanned again. -/
def State.switchCommit (s : State) (rep : Bool) : State × Bool :=
  if s.sco.hold ≠ some 2 then (s, rep)
  else if s.sco.armed.isSome then
    let s := s.resolveCommit
    (s, !s.on R.SCO_CSTAT_ACCEPTED)
  else (s, true)

/-- R203. SCO_FINFO is sampled and cleared. -/
def State.sampleFinfo (s : State) : State :=
  let s := s.setSco { s.sco with genAdv := s.on R.SCO_FINFO_GEN_ADV, isStatic := s.on R.SCO_FINFO_STATIC }
  (s.put R.SCO_FINFO_GEN_ADV 0).put R.SCO_FINFO_STATIC 0

/-- R189, R195, R203, R222. A frame starts with a FRAME number; `rep` marks content that is scanned again. -/
def State.beginFrame (s : State) (frame : Nat) (rep : Bool) : State :=
  let c := s.switchCommit rep
  let rep := c.2
  let s := c.1.passControl
  let s := if s.sco.idle then s.wakePorts else s
  let s := s.put R.SCO_S_FRAME_FRAME frame
  let s := s.put64 R.SCO_S_FS_LO_TIME R.SCO_S_FS_HI_TIME s.ptpNs
  let s := ((s.put R.SCO_S_LINE_LINE 0).put R.SCO_STAT_RUNNING 1).put R.SCO_STAT_VBLANK 0
  let s := s.bump (R.SCO_CNT_COUNT 0)
  let s := s.setSco { s.sco with inFrame := true, line := 0, blank := false, ready := none, due := none, hold := none,
                                  tiles := (s.sco.tiles.map (fun p => (p.1, p.2.fresh))).filter (fun p => decide (p.2 ≠ scanDefault p.1)) }
  let s := if s.bandMode then s.showBands else s.showNext
  let s := ((s.rearm.countWaiting).sampleFinfo).switchRepeat rep
  let s := s.ceilTake.openShown
  let s := (s.put R.BKL_STAT_FREE_RUN 0).bklFrame
  let s := s.gleanerStep.holdFrame
  let s := foldRange 64 (fun s t => s.portFrameStart rep s.sco.isStatic t) s
  let s := if s.lockedClass then s else s.setOpensIn (s.get R.CAM_SETOFS_OFS) none
  let s := s.put R.CMP_STAT_ACTIVE (s.get R.CMP_CTL_ENABLE)
  let s := s.scoEvent 2 0
  let l0 := s.sco.late0
  let l1 := s.sco.late1
  let s := s.setSco { s.sco with late0 := [], late1 := [] }
  let s := (s.composeAll 0 l0).sendLine 0
  let s := if 1 < s.active then s.composeAll 1 l1 else s
  s.frameArm

/-- Is scan-out enabled, with a sequencer to carry it? -/
def State.canScan (s : State) : Bool :=
  s.on R.SCO_CTL_ENABLE && s.sco.accepted && (decide (s.get R.SCO_STAT_SEQ ≠ 2) || decide (s.sco.seqA = .passed)) &&
  !(decide (s.get R.SCO_STAT_SEQ = 0) && decide (s.sco.seqA ≠ .fit))

/-- R189, R204. In VARIABLE, has the line come at which a frame that is ready starts? After a switch-over it starts at once. -/
def State.startLine (s : State) : Bool :=
  if !s.sco.inFrame then !s.bandMode || s.leadReady || decide (s.sco.hold = some 2)
  else s.sco.blank && (match s.sco.ready with
    | some r => decide (s.vMin ≤ s.sco.line) && s.leadPast r s.sco.line
    | none => false)

/-- R197. Does the frame that starts scan committed content again because its commit came late in LOCKED? -/
def State.lateRepeat (s : State) : Bool :=
  match s.sco.armed with
  | some c => c.wait
  | none => false

/-- R189, R192, R204, R205, R208. A frame starts: in VARIABLE once it is ready, in LOCKED where a start is due after its edge. -/
def execFrameStart (s : State) : Host.Outcome State Fault Refusal :=
  .next (
    if !s.canScan then s
    else if s.lockedClass then
      (match s.sco.due with
       | some f => (s.putPhaseError s.sco.edgeAt).beginFrame (f.getD (s.frameNo + 1)) s.lateRepeat
       | none => s)
    else if s.startLine then s.beginFrame (s.frameNo + 1) false else s)

/-- R189, R91, R201. VTOTAL_MAX is reached and no ready point allows a start: the last content is scanned again. -/
def execMaxFrameRepeat (s : State) : Host.Outcome State Fault Refusal :=
  .next (
    let tooLate := match s.sco.ready with
      | some r => !s.leadPast r s.vMax
      | none => true
    if !s.canScan || s.lockedClass || !s.sco.inFrame || !s.sco.blank || decide (s.sco.line < s.vMax) || !tooLate then s
    else
      let s := ((s.put R.SCO_CSTAT_MAXED 1).bump (R.SCO_CNT_COUNT 1)).raise Irq.SCO_MAXED
      let s := s.frameLate
      s.beginFrame (s.frameNo + 1) (!s.bandMode))

/-! ### Commit points (R197, R198) -/

/-- R198. The commit point of the armed commit has come: the checks resolve. -/
def execCommitPoint (s : State) : Host.Outcome State Fault Refusal :=
  .next (if s.atCommitPoint then s.resolveCommit.bandReady else s)

/-! ### Lines (R176, R190, R194) -/

/-- R190, R194, R226. May the lanes go idle in this blanking line: 256 lines into blanking, with no start in sight in VARIABLE, or with a
source period that leaves more than 256 lines in LOCKED? -/
def State.idleNow (s : State) : Bool :=
  s.on R.SCO_CTL_IDLE_EN && !s.sco.idle && decide (s.sco.line = s.sco.blankAt + 256) &&
  (if s.lockedClass then decide ((s.active + 256) * s.lineClks < s.pMeas) else s.sco.ready.isNone)

/-- R218, R223, R233. What every blanking line does on the ports. -/
def State.blankLine (s : State) : State := foldRange 64 (fun s t => if s.portState t = 2 then (((s.drainQueue t).sendShadow t).sendSubst t).dropGap t else s) s

/-- R12, R176, R190, R258. A line boundary of the timing generator. `late` names (tile, layer) whose data missed the deadline of the line
that is composed; layer 8 stands for a full write-back buffer. In blanking, the last two lists name what missed the deadlines of lines 0 and
1 of the next frame (assumption 88). While no frame runs, it is a line of the backlight's own frame (R260, assumption 93). -/
def execScanoutLine (late : List (Nat × Nat)) (s : State) : Host.Outcome State Fault Refusal :=
  .next (
    if !s.sco.inFrame then s.bklFreeLine s.active
    else if (decide (s.active ≤ s.sco.line) && !s.sco.blank) || (!s.lockedClass && decide (s.vMax ≤ s.sco.line)) then s
    else
      let k := s.sco.line + 1
      let s := (s.setSco { s.sco with line := k }).put R.SCO_S_LINE_LINE k
      let s := if s.sco.blank then
          let s := (s.setSco { s.sco with late0 := s.sco.late1, late1 := late }).blankLine
          if s.idleNow then s.portsIdle else s
        else if k < s.active then
          let s := s.sendLine k
          if k + 1 < s.active then s.composeAll (k + 1) late else s
        else s
      s.bklSlotLine k (if s.sco.blank then s.sco.blankAt else s.active))

/-- R12, R83. Scan-out passes the watermark line of a tile; on the reference tile the frame program launches band b + LEAD. -/
def execWatermarkLine (tile : Nat) (s : State) : Host.Outcome State Fault Refusal :=
  .next (
    if !s.bandMode || !s.sco.inFrame || !s.tileOn tile || decide (s.active ≤ s.sco.line) || decide (s.sco.line % 64 ≠ s.getA (R.SYN_WMARK_LINE tile)) then s
    else
      let s := s.scoEvent 3 (2 ^ tile)
      if s.tilesOn.head? = some tile then s.addBands (s.bandOfLine s.sco.line + s.getA R.SYN_BAND_LEAD + 1) else s)

/-! ### Vertical blanking (R177, R179, R202, R203, R244, R247) -/

/-- R209. FRZ_N: 0 disables detection, 1 acts as 2. -/
def State.frzN (s : State) : Nat := let n := s.get R.SCO_FRZ_FRZ_N; if n = 1 then 2 else n

/-- R203. The freeze detector judges a tile whose signature was `old` and is `new`: its run, and whether it has frozen. -/
def State.freezeTile (s : State) (t old new : Nat) : State × Bool :=
  let x := s.scan t
  if !s.sco.genAdv || s.sco.isStatic then (s.setScan t { x with seen := true }, false)
  else
    let run := if x.seen ∧ old = new then x.run + 1 else 0
    (s.setScan t { x with run := run, seen := true }, decide (s.frzN ≠ 0) && decide (run = s.frzN))

/-- R203. A tile has frozen. -/
def State.frozen (s : State) (t : Nat) : State :=
  let f := if t < 32 then R.SCO_FRZ_LO_FROZEN else R.SCO_FRZ_HI_FROZEN
  (((s.put f (s.get f ||| 2 ^ (t % 32))).bump (R.SCO_CNT_COUNT 10)).log 12 0 0 10 2 t).raise Irq.SCO_FREEZE

/-- R202, R203. The signatures of the frame are latched and judged. -/
def State.latchSignatures (s : State) : State :=
  let r := s.tilesOn.foldl (fun (p : State × List Nat) t =>
    let s := p.1
    let old := s.get (R.SCO_SIG_SIG t)
    let new := (s.scan t).crc ^^^ 0xFFFFFFFF
    let q := (s.put (R.SCO_SIG_SIG t) new).freezeTile t old new
    if q.2 then (q.1.frozen t, p.2 ++ [t]) else (q.1, p.2)) (s, [])
  if r.2 = [] then r.1 else r.1.scoEvent 7 (r.2.map (2 ^ ·)).sum

/-- R177, R247. At the end of a tile's last active line the L0 sums of frame mode are compared, and a frame whose every line was written
back is shown. -/
def State.endTile (s : State) (t : Nat) : State :=
  let x := s.scan t
  let s := if s.onA (R.CMP_TCTL_WB_EN t) && !x.wbBad then s.put (R.CMP_WBDONE_FRAME t) s.frameNo else s
  if s.bandMode || !s.composes t || !(s.layer t 0).en then s
  else s.compareSums t (s.writerSum t (s.layer t 0).base) x.sum (decide (x.lines = s.active)) x.skip

/-- R12, R177, R179, R202, R203, R243–R251. Vertical blanking starts. -/
def execVblank (s : State) : Host.Outcome State Fault Refusal :=
  .next (
    if !s.sco.inFrame || s.sco.blank || decide (s.sco.line < s.active) then s
    else
      let s := ((s.setSco { s.sco with blank := true, blankAt := s.sco.line }).put R.SCO_STAT_VBLANK 1).put R.CMP_STAT_ACTIVE 0
      let s := s.latchSignatures
      let s := s.tilesOn.foldl State.endTile s
      let s := s.tilesOn.foldl (fun s t => s.regionsThrough t 4096) s
      let s := s.retryFences
      let s := s.holdBlank.askReports
      let s := s.tilesOn.foldl (fun s t => if s.holdFrameNext t then s else s.chooseFor t) s
      (s.blankLine.scoEvent 1 0).bandReady)

/-! ### The lock source (R192–R196) -/

/-- R192, R204, R208, R209. A frame starts at an edge + PHASE: at once where PHASE is 0, else FRAME_START follows. An edge at which scan-out cannot
run starts none. -/
def State.edgeStart (s : State) (frame : Option Nat) : State :=
  if !s.canScan then s
  else if s.getA R.SCO_PHASE_PHASE = 0 then (s.putPhaseError s.sco.edgeAt).beginFrame (frame.getD (s.frameNo + 1)) s.lateRepeat
  else s.setSco { s.sco with due := some frame }

/-- R193. An edge is measured: P_meas, and the last intervals. -/
def State.measureEdge (s : State) : State :=
  let now := s.pix
  match s.sco.edgeAt with
  | none => s.setSco { s.sco with edgeAt := some now, stepped := false }
  | some e => (s.setSco { s.sco with edgeAt := some now, ivals := ((now - e) :: s.sco.ivals).take 3, stepped := false }).put R.SCO_S_PERIOD_P_MEAS (now - e)

/-- R193. A qualified edge starts a frame, or is skipped before the frame has run its shortest length. -/
def State.takeEdge (s : State) (frame : Option Nat) : State :=
  let s := (s.put R.SCO_STAT_HOLDOVER 0)
  if s.longEnough then (s.put R.SCO_STAT_LOCKED 1).edgeStart frame
  else s.bump (R.SCO_CNT_COUNT 6)

/-- R192, R193. An edge of GENLOCK_IN: every GL_DIV-th edge of the polarity counts. -/
def execGenlockEdge (falling : Bool) (s : State) : Host.Outcome State Fault Refusal :=
  .next (
    if !s.on R.SCO_CTL_ENABLE || !s.lockedClass || s.ptpSource || s.onA R.SCO_MODE_GL_POL != falling then s
    else if s.sco.div + 1 < zeroActs 1 (s.getA R.SCO_MODE_GL_DIV) then s.setSco { s.sco with div := s.sco.div + 1 }
    else
      let s := (s.setSco { s.sco with div := 0 }).measureEdge.setOpensIn (s.get R.CAM_SETOFS_OFS) none
      if s.on R.SCO_STAT_LOCKED then s.takeEdge none
      else if s.qualifies s.sco.ivals then (s.put R.SCO_STAT_LOCKED 1).takeEdge none
      else s)

/-- R192, R195, R196. An edge of the PTP frame clock, which needs no qualification. Each edge comes once. -/
def execFrameClockEdge (s : State) : Host.Outcome State Fault Refusal :=
  .next (
    if !s.on R.SCO_CTL_ENABLE || !s.lockedClass || !s.ptpSource then s
    else match s.fcNow with
      | none => s
      | some n => if s.sco.lastN = some n then s else ((s.setSco { s.sco with lastN := some n }).measureEdge.setOpensIn (s.get R.CAM_SETOFS_OFS) (some (n % 2 ^ 32))).takeEdge (some (n % 2 ^ 32)))

/-- R193, R208. No edge has come in time: lock is lost, and a frame starts from the prediction. -/
def execHoldoverStart (s : State) : Host.Outcome State Fault Refusal :=
  .next (
    if !s.on R.SCO_CTL_ENABLE || !s.lockedClass || !s.holdoverDue then s
    else
      let edge := s.predicted
      let s := if s.on R.SCO_STAT_LOCKED then (s.requalify.bump (R.SCO_CNT_COUNT 5)).raise Irq.SCO_LOCK_LOSS else s
      let s := s.put R.SCO_STAT_HOLDOVER 1
      if s.longEnough && s.canScan then ((s.setOpensIn 0 none).putPhaseError edge).beginFrame (s.frameNo + 1) s.lateRepeat else s)

/-! ### Start and stop (R208) -/

/-- Frames stop being generated, the ports send HOLD with a REASON, and the backlight runs free (R260). -/
def State.stopFrames (s : State) (reason : Nat) : State :=
  let s := (s.regionsBack.holdCut).holdPorts reason
  let s : State := { s with bkl := { s.bkl with line := s.sco.line } }
  let s := (s.setSco { s.sco with inFrame := false, line := 0, blank := false, due := none }).put R.BKL_STAT_FREE_RUN 1
  (((s.restartSets.put R.SCO_STAT_RUNNING 0).put R.SCO_STAT_VBLANK 0).put R.SCO_S_LINE_LINE 0).put R.CMP_STAT_ACTIVE 0

/-- R193, R208. SCO_CTL.ENABLE has been written: frames stop, or the generator starts, in LOCKED with the qualification of GENLOCK_IN. -/
def State.scanEnable (s : State) (was : Bool) : State :=
  if was && !s.on R.SCO_CTL_ENABLE then (s.stopFrames 1).requalify.put R.SCO_STAT_HOLDOVER 0
  else if !was && s.on R.SCO_CTL_ENABLE && s.lockedClass then s.restartEdges.put R.SCO_STAT_HOLDOVER (b2n (!s.ptpSource)) else s
/-- R208. A write of SCO_CTL.ENABLE. -/
def execScanoutEnable (en : Bool) (s : State) : Host.Outcome State Fault Refusal :=
  .next (
    let was := s.on R.SCO_CTL_ENABLE
    (s.put R.SCO_CTL_ENABLE (b2n en)).scanEnable was)

/-! ### Sequencers (R204–R207, R414, R416, R418) -/

/-- R204, R223. A fault of sequencer A: in control, the ports send HOLD and B is to take over; standing by, it leaves for its test. -/
def execSequencerFault (s : State) : Host.Outcome State Fault Refusal :=
  .next (
    if s.get R.SCO_STAT_SEQ = 0 ∧ s.sco.seqA = .fit then
      let s := s.stopFrames 2
      s.setSco { s.sco with seqA := .testing, transfer := none }
    else if s.get R.SCO_STAT_SEQ = 1 ∧ (s.sco.seqA = .fit ∨ s.sco.seqA = .passed) then
      s.setSco { s.sco with seqA := .testing, transfer := none }
    else s)

/-- R205, R217. No sequencer is in control: the ports send HOLD with REASON 0x03, and A's self-test is to come where it stands by. -/
def State.noSequencer (s : State) : State :=
  let s := (s.setSco { s.sco with seqA := if s.sco.seqA = .fit then .testing else s.sco.seqA, seqB := .failed, transfer := none }).put R.SCO_STAT_SEQ 2
  (s.log 12 0 0 0x8F 2 0).raise Irq.SCO_NOSEQ

/-- R204, R205. B takes control with the active state, or fails its start check. -/
def execSwitchover (ok : Bool) (s : State) : Host.Outcome State Fault Refusal :=
  .next (
    if s.get R.SCO_STAT_SEQ ≠ 0 ∨ s.sco.seqA = .fit then s
    else if !ok ∨ s.sco.seqB = .failed then
      let s := (s.holdPorts 3).noSequencer
      { s with hlt := { s.hlt with seqA := s.lastSeq } }
    else
      let s := (s.setSco { s.sco with seqB := .inControl, provenAt := s.ptpNs }).put R.SCO_STAT_SEQ 1
      let s := ((s.bump (R.SCO_CNT_COUNT 7)).log 12 0 0 7 2 0).raise Irq.SCO_SWITCHOVER
      { s.substNote [12, 0, 0] with hlt := { s.hlt with seqA := s.lastSeq } })

/-- R205, R418. B fails while it is in control. -/
def execSequencerBFault (s : State) : Host.Outcome State Fault Refusal :=
  .next (if s.get R.SCO_STAT_SEQ ≠ 1 then s else (s.stopFrames 3).noSequencer)

/-- R206, R416. Sequencer A's self-test ends: it may return, or stays out and is tested again. -/
def execSequencerSelfTest (pass : Bool) (s : State) : Host.Outcome State Fault Refusal :=
  .next (
    if s.sco.seqA ≠ .testing ∧ s.sco.seqA ≠ .failed then s
    else if pass then
      let back := decide (s.get R.SCO_STAT_SEQ = 1) && s.on R.SCO_SEQCTL_AUTO_RETURN && !s.on R.SCO_SEQCTL_FORCE_B
      s.setSco { s.sco with seqA := .passed, transfer := if back then some 0 else none }
    else
      let first := decide (s.sco.seqA = .testing)
      let s := s.setSco { s.sco with seqA := .failed, transfer := none }
      if first then s.testOutcome s.hlt.seqA true [12, 0, 0] else s)

/-- R206. The frame that A ran in step with B ends: A takes control at the next FRAME_START, or fails to return and is tested again. -/
def execSequencerReturn (same : Bool) (s : State) : Host.Outcome State Fault Refusal :=
  .next (
    if s.get R.SCO_STAT_SEQ ≠ 1 ∨ s.sco.transfer ≠ some 1 then s
    else if same then s.setSco { s.sco with transfer := some 2 }
    else
      let s := s.setSco { s.sco with transfer := none, seqA := .testing }
      (s.bump (R.SCO_CNT_COUNT 9)).raise Irq.SCO_RETURN_FAIL)

/-- R207. SCO_SEQCTL.FORCE_B has been written. -/
def State.forceB (s : State) : State :=
  if s.on R.SCO_SEQCTL_FORCE_B then
    (if s.get R.SCO_STAT_SEQ = 0 then
      (if s.sco.seqB = .failed ∨ s.sco.seqA ≠ .fit ∨ s.sco.transfer.isSome then s else s.setSco { s.sco with transfer := some 0 })
     else s.setSco { s.sco with transfer := none })
  else if s.get R.SCO_STAT_SEQ = 1 ∧ (s.sco.seqA = .fit ∨ s.sco.seqA = .passed) then
    (if s.sco.transfer.isSome then s else s.setSco { s.sco with transfer := some 0 })
  else if s.get R.SCO_STAT_SEQ = 0 then s.setSco { s.sco with transfer := none } else s

/-- R207. A write of SCO_SEQCTL.FORCE_B. -/
def execForceB (force : Bool) (s : State) : Host.Outcome State Fault Refusal := .next (s.put R.SCO_SEQCTL_FORCE_B (b2n force)).forceB

end Sys2Proof.Machine
end

