-- ==== Sys2Proof/Machine/Security.lean ====
section
/-! DEFINITION. The flash, signed objects, the Watch configuration, attestation and requests to the Watch (R460–R473, R482). -/
namespace Sys2Proof.Machine

/-! ### The flash (R482) -/

/-- An erased flash byte. -/
def flashDefault (_ : Nat) : Byte := 0xFF
/-- `n` bytes of the flash. -/
def State.flashBytes (s : State) (a n : Nat) : List Byte := mapGetList flashDefault s.flash.bytes a n
/-- Program flash bytes over an erased range. -/
def State.flashPut (s : State) (a : Nat) (bs : List Byte) : State :=
  { s with flash := { s.flash with bytes := mapPutList flashDefault s.flash.bytes a bs } }
/-- Erase the flash bytes of [a, a + n). -/
def State.flashErase (s : State) (a n : Nat) : State :=
  { s with flash := { s.flash with bytes := s.flash.bytes.filter (fun p => !(decide (a ≤ p.1) && decide (p.1 < a + n))) } }

/-! ### Signed objects (R460–R462) -/

/-- Bytes [o, o + n) of an object. -/
def bytesAt (b : List Byte) (o n : Nat) : List Byte := (b.drop o).take n
/-- Are `n` bytes of an object from `o` on present and zero? -/
def zeroAt (b : List Byte) (o n : Nat) : Bool := bytesAt b o n == zeros n
/-- R460. The payload of an object. -/
def objPayload (b : List Byte) : List Byte := bytesAt b 0xC00 (leAt b 0x0C 4)
/-- R460. An object's SVN, and its SVN_COMMIT. -/
def objSvn (b : List Byte) : Nat := leAt b 0x08 4
/-- R460. SVN_COMMIT of an object. -/
def objCommit (b : List Byte) : Bool := bitAt (leAt b 0x05 1) 0

/-- R461. The OID that SP 800-208 assigns to XMSS-SHAKE256_20_256, big-endian. -/
def xmssOid : List Byte := [0, 0, 0, 0x12]

/-- R462. The minimum SVN of a KIND. -/
def State.svnMin (s : State) (kind : Nat) : Nat := s.otp.svn.getD (kind - 1) 0

/-- R461, R483. The code with which a verifier rejects an object of an expected KIND with PLEN in [lo, hi]; 0 where it accepts it. -/
def State.verify (s : State) (kind lo hi : Nat) (b : List Byte) : Nat :=
  let pk := bytesAt b 0x40 68
  if bytesAt b 0 4 ≠ [0x4B, 0x53, 0x49, 0x47] ∨ !zeroAt b 0x06 2 ∨ !zeroAt b 0x30 16 ∨ !zeroAt b 0xB88 120 then 0x10
  else if leAt b 4 1 ≠ kind then 0x11
  else if bytesAt pk 0 4 ≠ xmssOid ∨ s.otp.ikh ≠ some (Config.shake256 pk 32) then 0x12
  else if !Config.xmssVerify pk (bytesAt b 0 0x40) (bytesAt b 0x84 2820) then 0x13
  else if bytesAt b 0x10 32 ≠ Config.shake256 (objPayload b) 32 then 0x14
  else if objSvn b < s.svnMin kind then 0x15
  else if leAt b 0x0C 4 < lo ∨ hi < leAt b 0x0C 4 then 0x16
  else 0

/-- R475. SPV_SVN. -/
def State.svnShow (s : State) : State := s.put R.SPV_SVN_MIN (s.svnMin 1 + 256 * s.svnMin 2 + 65536 * s.svnMin 3)

/-- R462. An accepted object with SVN_COMMIT raises the minimum of its KIND; a raise is recorded. -/
def State.svnCommit (s : State) (kind svn : Nat) : State :=
  if svn ≤ s.svnMin kind then s
  else
    let s : State := { s with otp := { s.otp with svn := s.otp.svn.set (kind - 1) (min svn 64) } }
    (s.svnShow).ledgerAsk 0x42 [kind, svn]

/-! ### Configurations (R463–R465) -/

/-- R463. Do the fields of a configuration payload lie in range? -/
def cfgInRange (p : List Byte) : Bool :=
  let b := fun i => leAt p i 1
  (bytesAt p 0 4 == [0x57, 0x43, 0x46, 0x47]) &&
  (List.range 4).all (fun n => decide (1 ≤ leAt p (0x10 + 2 * n) 2) && decide (leAt p (0x10 + 2 * n) 2 ≤ 10000)) &&
  decide (b 0x18 ≤ 100) && decide (b 0x19 ≤ 10) && decide (b 0x1A ≤ 100) && decide (b 0x1B / 16 ≤ 8) &&
  (List.range 4).all (fun n => decide (leAt p (0x1C + 2 * n) 2 ≤ 4095)) &&
  decide (1 ≤ b 0x24) && decide (b 0x24 ≤ 15) && decide (110 ≤ b 0x25) && decide (b 0x25 ≤ 135) &&
  decide (6 ≤ b 0x26) && decide (b 0x26 ≤ 40) && decide (1 ≤ b 0x27)

/-- R482. The object in configuration copy `k`. -/
def State.cfgCopy (s : State) (k : Nat) : List Byte := s.flashBytes (0x10000 * (k + 1)) 3136
/-- R464. Does copy `k` pass R461 and R463? -/
def State.cfgCopyOk (s : State) (k : Nat) : Bool := decide (s.verify 3 64 64 (s.cfgCopy k) = 0) && cfgInRange (objPayload (s.cfgCopy k))
/-- SEQ of copy `k`. -/
def State.cfgCopySeq (s : State) (k : Nat) : Nat := leAt (objPayload (s.cfgCopy k)) 4 4

/-- R464. The copy that the Watch uses. -/
def State.cfgChoice (s : State) : Option Nat :=
  if s.cfgCopyOk 0 then (if s.cfgCopyOk 1 ∧ s.cfgCopySeq 0 < s.cfgCopySeq 1 then some 1 else some 0)
  else if s.cfgCopyOk 1 then some 1 else none

/-- R464, R465, R475. A configuration payload comes into force; the backlight and rail fields are taken later. -/
def State.cfgApply (s : State) (p : List Byte) : State :=
  let s := s.putWords 0x10100 (bytesWords 16 p)
  ((((s.put R.SPV_STAT_CFG_VALID 1).put R.SPV_STAT_ATT_EN (leAt p 0x28 1)).put R.SPV_CFGSEQ_SEQ (leAt p 4 4))).thmLoad

/-- R464. At Watch start: a copy, or the safe values; the LK registers are loaded. -/
def State.cfgStart (s : State) : State :=
  let s := match s.cfgChoice with
    | some k => s.cfgApply (objPayload (s.cfgCopy k))
    | none => (((s.put R.SPV_STAT_CFG_VALID 0).put R.SPV_STAT_ATT_EN 0).put R.SPV_CFGSEQ_SEQ 0).thmLoad
  (foldRange 4 State.bklLoad s).railLoad

/-! ### Requests (R473) -/

/-- The mailbox's first `n` bytes. -/
def State.mailbox (s : State) (n : Nat) : List Byte := (wordBytes ((List.range ((n + 3) / 4)).map (fun w => s.get (R.SEC_MBOX_W w)))).take n

/-- R473. The answer to a request is ready. -/
def State.secAnswer (s : State) (op status : Nat) (body : List Byte) : State :=
  s.setWatch { s.watch with req := none, reply := some ⟨op, status, body⟩ }

/-- R473. The LEN that an OP takes. -/
def secLen : Nat → Option Nat
  | 1 => some 3136 | 2 => some 64 | 3 => some 8 | _ => none

/-- R473. SEC_REQ.GO: the request is handed to the Watch, unless one is being served. -/
def State.secGo (s : State) : State :=
  if s.on R.SEC_STAT_BUSY || s.watch.held.isSome then s
  else
    let op := s.get R.SEC_REQ_OP
    let s := (s.put R.SEC_STAT_BUSY 1).put R.SPV_RSTAT_DONE 0
    match secLen op with
    | none => s.secAnswer op 1 []
    | some n =>
      if s.get R.SEC_REQ_LEN ≠ n then s.secAnswer op 2 []
      else s.setWatch { s.watch with req := some ⟨op, s.mailbox n⟩, reply := none }
/-- R473. SEC_GO: a write of SEC_REQ with GO. -/
def execSecGo (op len : Nat) (s : State) : Host.Outcome State Fault Refusal := .next (((s.put R.SEC_REQ_OP op).put R.SEC_REQ_LEN len).secGo)

/-- R473. The request that waits with an OP; the Watch's ROM functions serve none. -/
def State.secReq (s : State) (op : Nat) : Option (List Byte) :=
  match s.watch.req with
  | some r => if r.op = op ∧ !s.watch.down ∧ !s.watch.romOnly then some r.body else none
  | none => none

/-- R465. The code of an update: R461's, 0x30 SEQ, 0x31 RANGE, or 0. -/
def State.cfgCode (s : State) (b : List Byte) : Nat :=
  let r := s.verify 3 64 64 b
  if r ≠ 0 then r
  else if s.cfgValid ∧ leAt (objPayload b) 4 4 ≤ s.get R.SPV_CFGSEQ_SEQ then 0x30
  else if !cfgInRange (objPayload b) then 0x31
  else 0

/-- R462, R465. CFG_UPDATE: the copy not in force is overwritten, and the new configuration is made current and recorded. -/
def execCfgUpdate (s : State) : Host.Outcome State Fault Refusal :=
  .next (
    match s.secReq 1 with
    | none => s
    | some b =>
      let code := s.cfgCode b
      if code ≠ 0 then s.secAnswer 1 code []
      else
        let old := s.get R.SPV_CFGSEQ_SEQ
        let k := if s.cfgValid ∧ s.cfgChoice = some 0 then 1 else 0
        let s := ((s.flashErase (0x10000 * (k + 1)) 0x10000).flashPut (0x10000 * (k + 1)) b).cfgApply (objPayload b)
        let s := s.ledgerAsk 0x40 [old, leAt (objPayload b) 4 4]
        let s := if objCommit b then s.svnCommit 3 (objSvn b) else s
        s.secAnswer 1 0 [])

/-! ### Attestation (R466–R468) -/

/-- R466. The payload of a report. -/
def State.reportPayload (s : State) (nonce user : List Byte) (leaf : Nat) : List Byte :=
  let cfg := if s.cfgValid then Config.shake256 (wordBytes ((List.range 16).map (fun w => s.get (R.SPV_CFG_W w)))) 32 else zeros 32
  nonce ++ user ++ leBytes 4 (s.word 0) ++ leBytes 4 leaf ++ leBytes 4 (s.get R.SPV_CFGSEQ_SEQ) ++
  leBytes 4 (b2n s.cfgValid + 2 * s.get R.FWU_DIR_ACTIVE + 4 * s.get R.HLT_STAT_LASTING) ++ leBytes 8 s.ptpNs ++
  leBytes 4 (s.get R.HLT_POH_HOURS) ++ leBytes 1 (s.svnMin 2) ++ leBytes 1 (s.svnMin 1) ++ leBytes 1 (s.svnMin 3) ++ zeros 1 ++
  (s.watch.hash ++ zeros 32).take 32 ++ (match s.fwu.run with
    | some f => (f.hash ++ zeros 32).take 32
    | none => zeros 32) ++ cfg ++ zeros 64

/-- R460, R466. A signed object of KIND 0x04 over a payload, by a leaf. -/
def signReport (p : List Byte) (leaf : Nat) : List Byte :=
  let h := [0x4B, 0x53, 0x49, 0x47, 4, 0, 0, 0] ++ leBytes 4 0 ++ leBytes 4 p.length ++ Config.shake256 p 32 ++ zeros 16
  h ++ Config.devicePk ++ Config.xmssSign leaf h ++ zeros 120 ++ p

/-- R467. The next leaf is used: the first of a block burns an OTP bit, and its bitmap bit is programmed. -/
def State.useLeaf (s : State) (n : Nat) : State :=
  let blocks := if n % 1024 = 0 then s.otp.blocks + 1 else s.otp.blocks
  let s : State := { s with otp := { s.otp with blocks := blocks }, flash := { s.flash with leaves := n :: s.flash.leaves } }
  s.put R.SPV_ATT_LEAF (n + 1)

/-- R467. Every block is used: the next leaf would be the first of a block after the last. -/
def State.leavesOut (s : State) : Bool := decide (s.get R.SPV_ATT_LEAF % 1024 = 0) && decide (1024 ≤ s.otp.blocks)

/-- R466–R468. ATTEST. -/
def execAttest (s : State) : Host.Outcome State Fault Refusal :=
  .next (
    match s.secReq 2 with
    | none => s
    | some b =>
      if !s.on R.SPV_STAT_ATT_EN then s.secAnswer 2 0x22 []
      else if s.leavesOut then s.secAnswer 2 0x21 []
      else if s.get R.SPV_ATT_CREDIT = 0 then
        (s.put R.SPV_ATTWAIT_WAIT_S (900 - (s.spNow - s.watch.gainAt) / 1000)).secAnswer 2 0x20 []
      else
        let leaf := s.get R.SPV_ATT_LEAF
        let s := (s.useLeaf leaf).put R.SPV_ATT_CREDIT (s.get R.SPV_ATT_CREDIT - 1)
        let s := s.ledgerAsk 0x43 [leaf, s.get R.SPV_ATT_CREDIT]
        s.secAnswer 2 0 (signReport (s.reportPayload (bytesAt b 0 32) (bytesAt b 32 32) leaf) leaf))

/-- R467. The next leaf at Watch start: the first unprogrammed bit of the block that the OTP counter names, or the first of the next block. -/
def State.leafStart (s : State) : State :=
  let b := s.otp.blocks
  let n := if b = 0 then 0 else match (List.range 1024).find? (fun i => !s.flash.leaves.contains ((b - 1) * 1024 + i)) with
    | some i => (b - 1) * 1024 + i
    | none => b * 1024
  let credit := match s.ledgerLast 0x43 (fun _ => true) with
    | some d => d.getD 1 0
    | none => 0
  (s.put R.SPV_ATT_LEAF n).put R.SPV_ATT_CREDIT (min credit 64)

/-- R468. CREDIT_GAIN: 900 s of SP time have passed. -/
def execCreditGain (s : State) : Host.Outcome State Fault Refusal :=
  .next (if s.watch.down || decide (s.spNow < s.watch.gainAt + 900000) then s else (s.put R.SPV_ATT_CREDIT (min 64 (s.get R.SPV_ATT_CREDIT + 1))).setWatch { s.watch with gainAt := s.spNow })

/-- R472. LEDGER_READ: a starting SEQ and a count of 1–255. -/
def execLedgerRead (s : State) : Host.Outcome State Fault Refusal :=
  .next (
    match s.secReq 3 with
    | none => s
    | some b => s.secAnswer 3 0 ((s.ledgerFrom (leAt b 0 4) (clampN 1 255 (leAt b 4 4))).flatMap LedgerRec.bytes))

/-- R473. SPV_DONE: the reply is shown. -/
def execSpvDone (s : State) : Host.Outcome State Fault Refusal :=
  .next (
    match s.watch.reply with
    | none => s
    | some r =>
      let s := s.putWords 0x14000 (bytesWords ((r.body.length + 3) / 4) r.body)
      let s := (((s.put R.SPV_RSTAT_OP r.op).put R.SPV_RSTAT_STATUS r.status).put R.SPV_RSTAT_LEN r.body.length).put R.SPV_RSTAT_DONE 1
      ((s.setWatch { s.watch with reply := none }).put R.SEC_STAT_BUSY 0).raise Irq.SPV_DONE)

end Sys2Proof.Machine
end

