-- ==== Sys2Proof/Machine/Firmware.lean ====
section
/-! DEFINITION. Start-up and firmware: the slot directory, the choice of a slot, the Watch's start, the release of the main domain, the boot
stages, recovery, programming, and the live switch (R464, R467, R472, R476–R492). -/
namespace Sys2Proof.Machine

/-! ### The slot directory (R484) -/

/-- R484. The record in the directory copy at flash offset `a`, if its MAGIC and CRC are good. -/
def State.dirCopy (s : State) (a : Nat) : Option Dir :=
  let b := s.flashBytes a 64
  if bytesAt b 0 4 ≠ [0x46, 0x57, 0x44, 0x52] ∨ crc32c (bytesAt b 0 60) ≠ leAt b 0x3C 4 then none
  else some ⟨leAt b 4 4, leAt b 8 1, leAt b 9 1, leAt b 10 1, leAt b 11 1, leAt b 12 4, leAt b 16 4⟩

/-- R484. The directory in force: the good copy with the higher SEQ; with none, ACTIVE 0 and both slots STAGED. -/
def State.dir (s : State) : Dir :=
  match s.dirCopy 0, s.dirCopy 0x8000 with
  | some a, some b => if a.seq < b.seq then b else a
  | some a, none => a
  | none, some b => b
  | none, none => ⟨0, 0, 2, 2, 0, 0, 0⟩
/-- R484. Neither copy is good. -/
def State.dirLost (s : State) : Bool := (s.dirCopy 0).isNone && (s.dirCopy 0x8000).isNone

/-- R484. The 64 bytes of a directory record. -/
def Dir.bytes (d : Dir) : List Byte :=
  let b := ([0x46, 0x57, 0x44, 0x52] : List Byte) ++ leBytes 4 d.seq ++ leBytes 1 d.active ++ leBytes 1 d.stA ++ leBytes 1 d.stB ++ leBytes 1 d.tries ++
    leBytes 4 d.svnA ++ leBytes 4 d.svnB ++ zeros 40
  b ++ leBytes 4 (crc32c b)

/-- R494. FWU_DIR. -/
def State.dirShow (s : State) : State :=
  let d := s.dir
  (((s.put R.FWU_DIR_ACTIVE d.active).put R.FWU_DIR_STATE_A d.stA).put R.FWU_DIR_STATE_B d.stB).put R.FWU_DIR_TRIES d.tries

/-- R484. The Watch rewrites the copy with the lower SEQ, which is then current. -/
def State.dirWrite (s : State) (d : Dir) : State :=
  let d := { d with seq := s.dir.seq + 1 }
  let a := match s.dirCopy 0, s.dirCopy 0x8000 with
    | some a, some b => if a.seq < b.seq then 0 else 0x8000
    | some _, none => 0x8000
    | none, _ => 0
  ((s.flashErase a 64).flashPut a d.bytes).dirShow

/-- The STATE of a slot. -/
def Dir.state (d : Dir) (k : Nat) : Nat := if k = 0 then d.stA else d.stB
/-- The directory with another STATE for a slot. -/
def Dir.setState (d : Dir) (k v : Nat) : Dir := if k = 0 then { d with stA := v } else { d with stB := v }
/-- TRIES of a slot. -/
def Dir.triesOf (d : Dir) (k : Nat) : Nat := bitsOf d.tries (4 * k) 4
/-- The directory with another TRIES for a slot. -/
def Dir.setTries (d : Dir) (k v : Nat) : Dir := { d with tries := setBits d.tries (4 * k) 4 v }
/-- The directory with another SVN for a slot. -/
def Dir.setSvn (d : Dir) (k v : Nat) : Dir := if k = 0 then { d with svnA := v } else { d with svnB := v }
/-- The SVN of a slot. -/
def Dir.svn (d : Dir) (k : Nat) : Nat := if k = 0 then d.svnA else d.svnB

/-- R486. A change of the directory is recorded with the slot, its SVN and the outcome. -/
def State.dirChange (s : State) (d : Dir) (k : Nat) : State := (s.dirWrite d).ledgerAsk 0x41 [k, d.svn k, d.state k]

/-! ### Slots (R482, R483) -/

/-- R482. The flash offset of a slot. -/
def slotBase (k : Nat) : Nat := 0x100000 + k * 0x1800000
/-- R483. The object at offset `off` of a slot, with a payload of at most `hi` bytes. -/
def State.slotObj (s : State) (k off hi : Nat) : List Byte :=
  s.flashBytes (slotBase k + off) (0xC00 + min hi (leAt (s.flashBytes (slotBase k + off) 16) 12 4))
/-- R483. The steward object of a slot. -/
def State.stewardObj (s : State) (k : Nat) : List Byte := s.slotObj k 0 20968448
/-- R483. The Watch object of a slot. -/
def State.watchObj (s : State) (k : Nat) : List Byte := s.slotObj k 0x1400000 196608
/-- R461, R483. The code of a steward object. -/
def State.stewardCode (s : State) (b : List Byte) : Nat := s.verify 1 4096 20968448 b
/-- R461, R483. The code of a Watch object. -/
def State.watchCode (s : State) (b : List Byte) : Nat := s.verify 2 4096 196608 b

/-- The firmware that a steward object holds. -/
def firmwareOf (k : Nat) (b : List Byte) : Firmware := ⟨k, objSvn b, objCommit b, bytesAt b 0x10 32, objPayload b⟩

/-! ### The Watch's start (R464, R467, R478, R486) -/

/-- R486. The slot whose Watch object runs: ACTIVE's if it is GOOD, otherwise the other GOOD one; a failed object leaves the other. -/
def State.watchSlot (s : State) : Option Nat :=
  let d := s.dir
  let order := if d.active = 0 then [0, 1] else [1, 0]
  order.find? (fun k => decide (d.state k = 4) && decide (s.watchCode (s.watchObj k) = 0))

/-- R478. COLD_START: the Watch starts from its ROM: OTP, its firmware, its configuration, the leaf, and the Ledger's head; BOOT is recorded. -/
def execColdStart (s : State) : Host.Outcome State Fault Refusal :=
  .next (
    if !s.watch.down then s
    else
      let s := s.svnShow.putWords 0x10280 (match s.otp.ikh with
        | some h => bytesWords 8 h
        | none => List.replicate 8 0)
      let s := s.putWords 0x10200 (bytesWords 17 Config.devicePk)
      let w := s.watchSlot
      let s := s.setWatch { s.watch with down := false, romOnly := w.isNone, hash := match w with
        | some k => bytesAt (s.watchObj k) 0x10 32
        | none => [] }
      let s := if w.isNone then s.railLoad else s.cfgStart
      let s := (s.leafStart.dirShow).setWatch { s.leafStart.dirShow.watch with gainAt := s.spNow }
      s.ledgerWrite 0x01 0 [s.watch.held.getD 0])

/-! ### The release of the main domain (R477, R486, R488) -/

/-- R477. May the Watch release the main domain, with an AVSBus readback of `mv`? -/
def State.mayRelease (s : State) (mv : Nat) : Bool :=
  let w := s.watch
  let t := s.get R.HLT_AVS_SET_MV
  !w.down && w.held.isSome && !w.porst && !w.wrst && w.coreOk && !w.trip && !s.on R.THM_SHSTAT_LATCHED_OFF &&
  !w.lost.contains 0 && !w.lost.contains 4 && (decide (w.coreBack = 0) || decide (10000 ≤ tickUs w.coreBack s.ticks)) &&
  (decide (w.held ≠ some 3) || decide (1000 ≤ tickUs w.heldAt s.ticks)) && decide (mv ≤ t + 10) && decide (t ≤ mv + 10)

/-- R341, R478. The recorded lane repairs are reapplied. -/
def State.repairsApply (s : State) : State :=
  ((s.ledgerOf 0x22).map (·.data) ++ (s.ledgerReq.filter (fun r => decide (r.cls = 0x22))).map (·.data)).foldl (fun (s : State) d =>
    let f := if d.getD 1 0 = 0 then R.MEM_CHSTAT_SPARES0 (d.getD 0 0) else R.MEM_CHSTAT_SPARES1 (d.getD 0 0)
    let b := d.getD 2 0 / 8 % 4
    if bitAt (s.get f) b then s.put f (s.get f - 2 ^ b) else s) s

/-- R488. Recovery: HBM at 3.2 Gbit/s under the default masks, and GLB_READY. -/
def State.recovery (s : State) : State :=
  let s := (((s.mapLock).put R.MEM_STAT_TRAINED 1).put R.MEM_STAT_SPEED 2).repairsApply
  ((({ s with fwu := { s.fwu with run := none } } : State).put R.GLB_BOOT_STAGE 0xE).put R.GLB_BOOT_FALLBACK 0).raise Irq.GLB_READY

/-- R486. A slot fails: it becomes BAD, and ACTIVE passes to the other slot where that is GOOD or STAGED. -/
def State.slotFails (s : State) (k : Nat) : State :=
  let d := s.dir.setState k 5
  let o := 1 - k
  s.dirChange (if d.state o = 4 ∨ d.state o = 2 then { d with active := o } else d) k

/-- R486. Steps 1 and 2 for slot `k`, with `n` slots to try: the state, and the slot booted. STAGED is treated as TRIAL. -/
def State.bootChoose : Nat → Nat → State → State × Option Nat
  | 0, _, s => (s, none)
  | n + 1, k, s =>
    let d := s.dir
    let st := d.state k
    let trial := decide (st = 3) || decide (st = 2)
    if st ≠ 4 ∧ !trial then (s, none)
    else if trial && decide (3 ≤ d.triesOf k) then
      let s := s.slotFails k
      if s.dir.active = k then (s, none) else State.bootChoose n (1 - k) s
    else
      let s := if trial then s.dirChange ((d.setTries k (d.triesOf k + 1)).setState k 3) k else s
      if s.stewardCode (s.stewardObj k) = 0 then (s, some k)
      else
        let s := s.slotFails k
        if s.dir.active = k then (s, none) else State.bootChoose n (1 - k) s

/-- R486, R488. The boot ROM chooses a slot and boots it, or enters recovery. -/
def State.bootRom (s : State) : State :=
  if s.watch.romOnly then s.recovery
  else
    let first := s.dir.active
    let r := State.bootChoose 2 first s
    match r.2 with
    | none => r.1.recovery
    | some k =>
      let s : State := { r.1 with fwu := { r.1.fwu with run := some (firmwareOf k (r.1.stewardObj k)) } }
      (s.put R.GLB_BOOT_SLOT k).put R.GLB_BOOT_FALLBACK (b2n (decide (k ≠ first)))

/-- R477, R478 step 7, R480. MAIN_RELEASE: the AVSBus setpoint has been written and read back as `mv`. The main domain leaves its reset, and the
boot ROM starts. -/
def execMainRelease (mv : Nat) (s : State) : Host.Outcome State Fault Refusal :=
  .next (
    if !s.mayRelease mv then s
    else
      let cause := s.watch.held.getD 0
      let s := (s.emit (.avs (s.get R.HLT_AVS_SET_MV))).mainReset
      let s := s.setWatch { s.watch with held := none, releasedAt := s.ticks }
      let s := ((s.put R.GLB_BOOT_STAGE 1).put R.GLB_BOOT_CAUSE cause).dirShow
      let s := if s.dirLost then s.log 25 0 0 0x90 2 0 else s
      let s := if s.cfgValid then s else s.raise Irq.SPV_CFG_INVALID
      s.bootRom)

/-! ### Boot stages (R478, R480) -/

/-- Steward SRAM bytes that a restart of the stewards keeps begin here (R490: the top 64 KiB). -/
def sramKept : Nat := 0x1F0000

/-- R478 step 9, R490, R491. The boot ROM starts stage 1 of a payload on steward core 0: STW is reset, stage 1 stands in steward SRAM from
address 0 on, and the rest below the top 64 KiB is undefined (assumption 44). -/
def State.stewardStart (s : State) (payload : List Byte) : State :=
  let keep := s.aq.sram.filter (fun p => decide (sramKept ≤ p.1))
  let cells := (Config.freeCells s.freeCtr).filter (fun c => decide (c.1 < sramKept))
  let s : State := { s with
    regs := s.regs.filter (fun p => decide (p.1 / 0x10000 ≠ 6))
    aq := { s.aq with
      threads := s.aq.threads.filter (fun p => decide (p.1 < 1024) || decide (1032 ≤ p.1))
      sram := mapPutList byteDefault (putCells keep cells) 0 (payload.take 1572864) }
    freeCtr := s.freeCtr + 1 }
  s.put R.STW_STAT_HALTED 0xFE

/-- R413, R478 step 12. Every engine has completed its first self-test pass. -/
def State.bistAll (s : State) : State :=
  foldRange s.member.hamlets (fun s h =>
    let x := s.hamlet h
    s.setHamlet h { x with spareOk := true, passes := min 65535 (x.passes + 1) }) s

/-- R437, R478 step 12. The initial calibration takes effect at once. -/
def State.calibrateNow (s : State) : State :=
  { s with cal := { s.cal with elems := s.cal.elems.map (fun p => (p.1, { p.2 with value := p.2.target })), terms := s.cal.terms.map (fun p => (p.1, { p.2 with sel := p.2.target })) } }

/-- R478 steps 9, 11, 13, 14, 15. What the boot stage that ends has done. -/
def State.bootStage (s : State) (stage : Nat) : State :=
  match stage with
  | 1 => (s.stewardStart (match s.fwu.run with
      | some f => f.payload
      | none => [])).put R.GLB_BOOT_STAGE 2
  | 2 => (((s.mapLock).put R.MEM_STAT_TRAINED 1).repairsApply).put R.GLB_BOOT_STAGE 3
  | 3 =>
    let s := ((s.put R.MMU_CTL_ENABLE 1).put R.MMU_CTL_LOCK0 1).bistAll.calibrateNow
    let s := ((s.put R.WYL_CTL_ENABLE 1).syncPorts).put R.GLB_BOOT_STAGE 4
    (s.put R.PNL_PWRREQ_ON 1).powerRequest
  | 4 =>
    let s := foldRange s.member.tiles (fun s t => s.put (R.PNL_TCTL_MODE t) 1) s
    let was := s.on R.SCO_CTL_ENABLE
    ((s.put R.SCO_CTL_ENABLE 1).scanEnable was).put R.GLB_BOOT_STAGE 5
  | 5 => (s.put R.GLB_BOOT_STAGE 6).raise Irq.GLB_READY
  | _ => s

/-- R478, R480. BOOT_STAGE_DONE: ROM to LOADED, HBM, LINK, SCANOUT and READY. -/
def execBootStageDone (s : State) : Host.Outcome State Fault Refusal :=
  .next (if s.watch.held.isSome then s else s.bootStage (s.get R.GLB_BOOT_STAGE))

/-! ### Programming and activation (R487, R489) -/

/-- R489. An operation completes with a RESULT, in a STATE. -/
def State.fwuEnd (s : State) (result state : Nat) : State :=
  let s : State := { s with fwu := { s.fwu with op := none } }
  (((s.put R.FWU_STAT_RESULT result).put R.FWU_STAT_STATE state).put R.FWU_STAT_BUSY 0).raise Irq.FWU_DONE
/-- R489. An operation that changes nothing completes with a RESULT. -/
def State.fwuResult (s : State) (result : Nat) : State := (s.put R.FWU_STAT_RESULT result).raise Irq.FWU_DONE

/-- R487. May PROGRAM write the slot? -/
def State.mayProgram (s : State) (k : Nat) : Bool :=
  match s.fwu.run with
  | none => true
  | some f => decide (s.dir.active ≠ k) && decide (f.slot ≠ k)

/-- R489. PROGRAM: the image is read and both its objects are checked before any erase; the slot is then WRITING. -/
def State.fwuProgram (s : State) (k : Nat) : State :=
  let src := s.addrOf R.FWU_SRC_LO_ADDR R.FWU_SRC_HI_ADDR
  let len := s.get R.FWU_LEN_LEN
  if !s.mayProgram k then s.fwuResult 0x40
  else if hbmTop < src + len ∨ 25165824 < len then s.fwuResult 0x46
  else match s.physRead src len with
    | .error _ => s.fwuResult 0x46
    | .ok img =>
      let c1 := s.stewardCode img
      let c2 := s.watchCode (img.drop 0x1400000)
      if c1 ≠ 0 then s.fwuResult c1
      else if c2 ≠ 0 then s.fwuResult c2
      else
        let s := (s.dirChange ((s.dir.setState k 1).setSvn k (objSvn img)) k).put R.FWU_PROG_DONE 0
        let s : State := { s with fwu := { s.fwu with op := some ⟨1, k, img⟩ } }
        (s.put R.FWU_STAT_BUSY 1).put R.FWU_STAT_STATE 1

/-- R489. PREPARE starts, for a slot that is STAGED or TRIAL. -/
def State.fwuPrepare (s : State) (k : Nat) : State :=
  if s.dir.state k ≠ 2 ∧ s.dir.state k ≠ 3 then s.fwuResult 0x40
  else
    let s : State := { s with fwu := { s.fwu with op := some ⟨2, k, []⟩, prepared := none } }
    (s.put R.FWU_STAT_BUSY 1).put R.FWU_STAT_STATE 0

/-- R490, R492. ACTIVATE_LIVE: the running firmware is told, and the target is TRIAL with TRIES 0. -/
def State.fwuLive (s : State) (force : Bool) : State :=
  match s.fwu.prepared with
  | none => s.fwuResult 0x42
  | some (k, _) =>
    if s.bandMode && !force then s.fwuResult 0x43
    else
      let s := s.dirChange ((s.dir.setState k 3).setTries k 0) k
      let s : State := { s with fwu := { s.fwu with switch := some ⟨k, none, s.fwu.run⟩ } }
      ((s.put R.FWU_STAT_BUSY 1).put R.FWU_STAT_STATE 3).sendEvent 0 (mkEv (5 + 256 * 0xFE) s.ptpNs 0 0)

/-- R489, R492. ACTIVATE_RESTART: the target is TRIAL with TRIES 0 and ACTIVE, and the main domain is reset. -/
def State.fwuRestart (s : State) (k : Nat) : State :=
  if !([2, 3, 4].contains (s.dir.state k)) then s.fwuResult 0x40
  else ((s.dirChange { (s.dir.setState k 3).setTries k 0 with active := k } k).fwuResult 0).holdMain 3

/-- R462, R489, R492. CONFIRM: the running slot is GOOD and ACTIVE. -/
def State.fwuConfirm (s : State) : State :=
  match s.fwu.run with
  | none => s.fwuResult 0x40
  | some f =>
    let s := s.dirChange { s.dir.setState f.slot 4 with active := f.slot } f.slot
    let s := if f.commit then s.svnCommit 1 f.svn else s
    s.fwuEnd 0 0

/-- R489. ABORT: PREPARE is cancelled, or a live switch before its halt. -/
def State.fwuAbort (s : State) : State :=
  match s.fwu.op, s.fwu.switch with
  | some ⟨2, _, _⟩, _ => s.fwuEnd 0x47 0
  | _, some ⟨_, none, _⟩ => ({ s with fwu := { s.fwu with switch := none } } : State).fwuEnd 0x47 2
  | _, _ => s.fwuResult 0

/-- R490, R491. ALIVE: the new firmware has started; the switch awaits CONFIRM. -/
def State.fwuAlive (s : State) : State :=
  match s.fwu.switch with
  | some ⟨_, some t, _⟩ =>
    let s : State := { s with fwu := { s.fwu with switch := none, prepared := none } }
    (s.put R.FWU_SWSTAT_HALT_US (tickUs t s.ticks)).fwuEnd 0 4
  | _ => s.fwuResult 0

/-- R489. FWU_CMD.GO, with the operation that stands in FWU_CMD: while BUSY only ABORT and ALIVE act. Codes without an operation do nothing. -/
def State.fwuGo (s : State) : State :=
  let op := s.get R.FWU_CMD_OP
  let k := s.get R.FWU_CMD_SLOT
  if s.watch.held.isSome then s
  else if s.on R.FWU_STAT_BUSY && op ≠ 6 && op ≠ 7 then s.fwuResult 0x45
  else match op with
    | 1 => s.fwuProgram k
    | 2 => s.fwuPrepare k
    | 3 => s.fwuLive (s.on R.FWU_CMD_FORCE_BAND)
    | 4 => s.fwuRestart k
    | 5 => s.fwuConfirm
    | 6 => s.fwuAbort
    | 7 => s.fwuAlive
    | _ => s

/-- R489, R494. A write of FWU_CMD with an OP, SLOT, FORCE_BAND and GO. -/
def State.fwuCmd (s : State) (op slot : Nat) (force : Bool) : State :=
  (((s.put R.FWU_CMD_OP op).put R.FWU_CMD_SLOT slot).put R.FWU_CMD_FORCE_BAND (b2n force)).fwuGo

/-- R489. PROGRAM. -/
def execProgram (slot : Nat) (s : State) : Host.Outcome State Fault Refusal := .next (s.fwuCmd 1 slot false)
/-- R489. PREPARE. -/
def execPrepare (slot : Nat) (s : State) : Host.Outcome State Fault Refusal := .next (s.fwuCmd 2 slot false)
/-- R490. ACTIVATE_LIVE. -/
def execActivateLive (force : Bool) (s : State) : Host.Outcome State Fault Refusal := .next (s.fwuCmd 3 (s.get R.FWU_CMD_SLOT) force)
/-- R489. ACTIVATE_RESTART. -/
def execActivateRestart (slot : Nat) (s : State) : Host.Outcome State Fault Refusal := .next (s.fwuCmd 4 slot false)
/-- R489. CONFIRM. -/
def execConfirm (s : State) : Host.Outcome State Fault Refusal := .next (s.fwuCmd 5 (s.get R.FWU_CMD_SLOT) false)
/-- R489. FWU_ABORT. -/
def execFwuAbort (s : State) : Host.Outcome State Fault Refusal := .next (s.fwuCmd 6 (s.get R.FWU_CMD_SLOT) false)
/-- R491. ALIVE. -/
def execAlive (s : State) : Host.Outcome State Fault Refusal := .next (s.fwuCmd 7 (s.get R.FWU_CMD_SLOT) false)

/-- R484, R489. PROGRAM_DONE: the slot is STAGED, or left WRITING where erase, program or read-back failed. -/
def execProgramDone (ok : Bool) (s : State) : Host.Outcome State Fault Refusal :=
  .next (
    match s.fwu.op with
    | some ⟨1, k, img⟩ =>
      if !ok then s.fwuEnd 0x41 0
      else
        let s := (s.flashErase (slotBase k) 0x1800000).flashPut (slotBase k) img
        let s := (s.dirChange ((s.dir.setState k 2).setTries k 0) k).put R.FWU_PROG_DONE img.length
        s.fwuEnd 0 0
    | _ => s)

/-- R461, R489. PREPARE_DONE: the steward object stands in HBM at FWU_STAGE, and has been checked. -/
def execPrepareDone (s : State) : Host.Outcome State Fault Refusal :=
  .next (
    match s.fwu.op with
    | some ⟨2, k, _⟩ =>
      let b := s.stewardObj k
      let va := s.addrOf R.FWU_STAGE_LO_ADDR R.FWU_STAGE_HI_ADDR
      if hbmTop < va + b.length ∨ !s.hbmOpen then s.fwuEnd 0x46 0
      else
        let s := s.physPut va b
        let c := s.stewardCode b
        if c ≠ 0 then s.fwuEnd c 0
        else ({ s with fwu := { s.fwu with prepared := some (k, va) } } : State).fwuEnd 0 2
    | _ => s)

/-! ### The live switch (R490, R491) -/

/-- R491. The old image starts again with the same handover record; the target is BAD. -/
def State.switchBack (s : State) (k : Nat) (old : Option Firmware) (result : Nat) : State :=
  let s : State := { s with fwu := { s.fwu with switch := none, prepared := none, run := old } }
  let s := s.stewardStart (match old with
    | some f => f.payload
    | none => [])
  let s := (s.dirChange (s.dir.setState k 5) k).put R.GLB_BOOT_SLOT (match old with
    | some f => f.slot
    | none => s.get R.GLB_BOOT_SLOT)
  s.fwuEnd result 0

/-- The steward object staged at device physical address `a`, of slot `k`. -/
def State.stagedObj (s : State) (k a : Nat) : List Byte :=
  match s.physRead a (s.stewardObj k).length with
  | .ok b => b
  | .error _ => []

/-- R490. LIVE_SWITCH_HALT: once every launch has completed, the stewards halt at the commit-done event; the staged payload is checked
against PHASH and started. -/
def execLiveSwitchHalt (s : State) : Host.Outcome State Fault Refusal :=
  .next (
    match s.fwu.switch, s.fwu.prepared with
    | some ⟨k, none, old⟩, some (_, a) =>
      if s.aq.launches ≠ [] then s
      else
      let s := s.put R.FWU_SWSTAT_REPEATS 0
      let b := s.stagedObj k a
      if bytesAt b 0x10 32 ≠ Config.shake256 (objPayload b) 32 ∨ b = [] then s.switchBack k old 0x14
      else
        let s : State := { s with fwu := { s.fwu with switch := some ⟨k, some s.ticks, old⟩, run := some (firmwareOf k b), counting := true } }
        (s.stewardStart (objPayload b)).put R.GLB_BOOT_SLOT k
    | _, _ => s)

/-- R491. ALIVE_TIMEOUT: ALIVE is not written within FWU_ALIVE.MS of the halt, or a steward faults first. -/
def execAliveTimeout (s : State) : Host.Outcome State Fault Refusal :=
  .next (
    match s.fwu.switch with
    | some ⟨k, some t, old⟩ =>
      if decide (zeroActs 1 (s.get R.FWU_ALIVE_MS) * 1000 ≤ tickUs t s.ticks) || decide (s.get R.STW_STAT_FAULT ≠ 0) then s.switchBack k old 0x44 else s
    | _ => s)

end Sys2Proof.Machine
end

