-- ==== Sys2Proof/Machine/Health.lean ====
section
/-! DEFINITION. Health: replica samples, the margin plan, the AVSBus, the daily record and its projection, the health report, and
HLT_LOG_CLR (R414, R419, R420, R423, R426–R433). -/
namespace Sys2Proof.Machine

/-- Replace the health state. -/
def State.setHlt (s : State) (x : HltSt) : State := { s with hlt := x }

/-! ### Voltage and clock steps (R428, R429, R431, R432) -/

/-- R432. MIN_MV as clamped. -/
def State.minMv (s : State) : Nat := clampN 720 850 (s.get R.HLT_AVSLIM_MIN_MV)
/-- R432. MAX_MV as clamped. -/
def State.maxMv (s : State) : Nat := max s.minMv (clampN 720 850 (s.get R.HLT_AVSLIM_MAX_MV))
/-- FLOOR_MHZ as clamped (R434). -/
def State.floorMhz (s : State) : Nat := clampN 400 1600 (s.get R.HLT_CEIL_FLOOR_MHZ)

/-- R431. A step's voltage write goes out on the AVSBus. -/
def State.avsWrite (s : State) (mv : Nat) : State := (s.setHlt { s.hlt with target := some mv, waits := none, fails := 0 }).emit (.avs mv)

/-- R428, R431. A voltage step is due: logged and counted; in a supply-dip episode its write waits. After AVS_FAIL, and while a step awaits its
readback, none is taken. -/
def State.avsStep (s : State) (mv : Nat) : State :=
  if s.on R.HLT_STAT_AVS_FAIL || s.hlt.target.isSome || s.hlt.waits.isSome then s
  else
    let up := decide (s.get R.HLT_AVS_SET_MV < mv)
    let s := (s.bump (R.HLT_CNT_COUNT (if up then 7 else 8))).log 21 0 0 0x82 0 mv
    if s.watch.dip.isSome then s.setHlt { s.hlt with waits := some mv } else s.avsWrite mv

/-- R428. A step of the clock ceiling: counted, logged and recorded. -/
def State.ceilStep (s : State) (mhz : Nat) : State :=
  let down := decide (mhz < s.get R.HLT_CEIL_CEIL_MHZ)
  let s := (s.bump (R.HLT_CNT_COUNT (if down then 9 else 10))).put R.HLT_CEIL_CEIL_MHZ mhz
  ((s.log 21 0 0 0x83 0 mhz).ledgerAsk 0x24 [mhz]).limitBits

/-- R428. MARGIN_EXHAUSTED or FIXED_SHORT is set, until reset. -/
def State.marginFlag (s : State) (f : Fld) (code : Nat) : State :=
  if s.on f then s else (((s.put f 1).log 21 0 0 code 2 0).ledgerAsk 0x25 [code]).raise Irq.HLT_MARGIN

/-- R426. Is replica `r` in CORE? -/
def replicaCore (r : Nat) : Bool := decide (r < 48)

/-- May the voltage still be raised? -/
def State.canRaise (s : State) : Bool := decide (s.get R.HLT_AVS_SET_MV < s.maxMv) && !s.on R.HLT_STAT_AVS_FAIL

/-- R428. Slack below SLACK_LO, given by replica `r`. -/
def State.planShort (s : State) (r : Nat) : State :=
  let mv := s.get R.HLT_AVS_SET_MV
  if s.canRaise then s.avsStep (mv + min 5 (s.maxMv - mv))
  else if replicaCore r then
    (if s.floorMhz + 25 ≤ s.get R.HLT_CEIL_CEIL_MHZ then s.ceilStep (s.get R.HLT_CEIL_CEIL_MHZ - 25) else s.marginFlag R.HLT_STAT_MARGIN_EXHAUSTED 0x85)
  else s.marginFlag R.HLT_STAT_FIXED_SHORT 0x86

/-- R428. Slack above SLACK_HI for 1,440 evaluations in a row. -/
def State.planEase (s : State) : State :=
  let mv := s.get R.HLT_AVS_SET_MV
  if s.hlt.highRun + 1 < 1440 then s.setHlt { s.hlt with highRun := s.hlt.highRun + 1 }
  else
    let s := s.setHlt { s.hlt with highRun := 0 }
    if s.get R.HLT_CEIL_CEIL_MHZ < 1600 then s.ceilStep (s.get R.HLT_CEIL_CEIL_MHZ + 25)
    else if s.minMv < mv then s.avsStep (mv - min 5 (mv - s.minMv))
    else s

/-- R428. A setpoint outside its limits moves toward them by at most 5 mV. -/
def State.planLimits (s : State) : State :=
  let mv := s.get R.HLT_AVS_SET_MV
  if s.maxMv < mv then s.avsStep (mv - min 5 (mv - s.maxMv)) else s.avsStep (mv + min 5 (s.minMv - mv))

/-- R428. PLAN_EVALUATE, every PLAN_S seconds: the lowest slack sampled in the period is judged. A period with no sample changes nothing. -/
def execPlanEvaluate (s : State) : Host.Outcome State Fault Refusal :=
  .next (
    if !s.on R.HLT_CTL_PLAN_EN || decide (s.since s.hlt.planAt < 1000000 * zeroActs 1 (s.get R.HLT_PLAN_PLAN_S)) then s
    else
      let s := s.setHlt { s.hlt with planAt := s.ticks }
      match s.hlt.low with
      | none => s
      | some (low, r) =>
        let s := s.setHlt { s.hlt with low := none, worst := low }
        let mv := s.get R.HLT_AVS_SET_MV
        let outside := decide (s.maxMv < mv) || decide (mv < s.minMv)
        let s := if low ≤ (s.get R.HLT_SLACK_SLACK_HI : Int) || low < (s.get R.HLT_SLACK_SLACK_LO : Int) then s.setHlt { s.hlt with highRun := 0 } else s
        (if outside && !s.on R.HLT_STAT_AVS_FAIL then s.planLimits
         else if low < (s.get R.HLT_SLACK_SLACK_LO : Int) then s.planShort r
         else if (s.get R.HLT_SLACK_SLACK_HI : Int) < low then s.planEase
         else s).limitBits)

/-- R429. A sample below SLACK_MIN takes one step at once, at most one in 10 ms. -/
def State.emergency (s : State) (r : Nat) : State :=
  let soon := match s.hlt.stepAt with
    | some t => decide (tickUs t s.ticks < 10000)
    | none => false
  if soon then s
  else
    let mv := s.get R.HLT_AVS_SET_MV
    let mark := fun (s : State) => (s.setHlt { s.hlt with stepAt := some s.ticks }).bump (R.HLT_CNT_COUNT 14)
    if s.canRaise then (mark s).avsStep (mv + min 5 (s.maxMv - mv))
    else if replicaCore r && decide (s.floorMhz + 25 ≤ s.get R.HLT_CEIL_CEIL_MHZ) then (mark s).ceilStep (s.get R.HLT_CEIL_CEIL_MHZ - 25)
    else s

/-! ### Samples (R426, R427, R429, R435) -/

/-- R426, R435. One replica's sample, in ps; `first`: the first of a period. -/
def State.replicaPut (s : State) (first : Bool) (r : Nat) (v : Int) : State :=
  let v := clampI (-128) 127 v
  let m := if first then v else min v (toInt 8 (s.get (R.HLT_REPL_MIN r)))
  let s := ((s.put (R.HLT_REPL_SLACK r) (ofInt 8 v)).put (R.HLT_REPL_MIN r) (ofInt 8 m)).put (R.HLT_REPL_CORE r) (b2n (replicaCore r))
  match s.hlt.low with
  | some (l, _) => if v < l then s.setHlt { s.hlt with low := some (v, r) } else s
  | none => s.setHlt { s.hlt with low := some (v, r) }

/-- The replica with the lowest of some slacks. -/
def lowestSlack (vs : List Int) : Option (Int × Nat) :=
  vs.zipIdx.foldl (fun (b : Option (Int × Nat)) p => match b with
    | some x => if p.1 < x.1 then some p else some x
    | none => some p) none

/-- R426, R427, R429. REPLICA_SAMPLE: the slacks of the 64 replicas in ps and the degradations of the 64 ageing monitors in ppm. Samples taken in
a supply-dip episode are discarded. -/
def execReplicaSample (slacks : List Int) (degr : List Nat) (s : State) : Host.Outcome State Fault Refusal :=
  .next (
    if s.watch.dip.isSome then s
    else
      let vs := slacks.take 64
      let ds := degr.take 64
      let first := s.hlt.low.isNone
      let s := vs.zipIdx.foldl (fun (s : State) p => s.replicaPut first p.2 p.1) s
      let s := ds.zipIdx.foldl (fun (s : State) p => (s.put (R.HLT_AGE_D p.2) (min 65535 p.1)).put (R.HLT_AGE_REGION p.2) (Config.ageRegion p.2)) s
      let s := s.setHlt { s.hlt with
        dayMv := max s.hlt.dayMv (s.get R.HLT_AVS_SET_MV)
        dayD := ds.foldl max s.hlt.dayD
        daySlack := vs.foldl min s.hlt.daySlack }
      match lowestSlack vs with
      | some (v, r) => if s.on R.HLT_CTL_PLAN_EN && decide (v < (s.get R.HLT_SLACK_SLACK_MIN : Int)) then s.emergency r else s
      | none => s)

/-! ### The AVSBus (R431) -/

/-- R431. AVS_FAIL: the setpoint stays at the last confirmed value. -/
def State.avsFail (s : State) : State :=
  let s := (s.setHlt { s.hlt with target := none, waits := none, fails := 0 }).put R.HLT_STAT_AVS_FAIL 1
  ((s.bump (R.HLT_CNT_COUNT 11)).log 21 0 0 0x84 2 0).raise Irq.HLT_AVS_FAIL

/-- R431. AVS_READBACK: a step's readback in mV, or a failed frame. Within ±10 mV the setpoint is confirmed and recorded; otherwise, and after a
second failed frame in a row, AVS_FAIL. -/
def execAvsReadback (mv : Option Nat) (s : State) : Host.Outcome State Fault Refusal :=
  .next (
    match s.hlt.target with
    | none => s
    | some t =>
      match mv with
      | none => if s.hlt.fails = 0 then s.setHlt { s.hlt with fails := 1 } else s.avsFail
      | some v =>
        if v ≤ t + 10 ∧ t ≤ v + 10 then
          (((s.setHlt { s.hlt with target := none, fails := 0 }).put R.HLT_AVS_SET_MV t).ledgerAsk 0x23 [t]).limitBits
        else s.avsFail)

/-! ### The daily record and the projection (R433) -/

/-- The fourth root of a count, in units of 2^-32 (R433: POH^0.25). -/
def root4 (n : Nat) : Nat := isqrt 40 (isqrt 80 (n * 2 ^ 128))

/-- R433. HLT_PROJ from the records of (POH, SET_MV), by least squares over POH^0.25, before AT_CEILING counts. -/
def projection (pts : List (Nat × Nat)) (maxMv poh : Nat) : Nat :=
  let n : Int := pts.length
  let sx : Int := (pts.map (fun p => (root4 p.1 : Int))).sum
  let sy : Int := (pts.map (fun p => (p.2 : Int))).sum
  let sxx : Int := (pts.map (fun p => (root4 p.1 : Int) * root4 p.1)).sum
  let sxy : Int := (pts.map (fun p => (root4 p.1 : Int) * p.2)).sum
  let num := n * sxy - sx * sy
  let den := n * sxx - sx * sx
  if den = 0 ∨ num ≤ 0 then 0xFFFF
  else
    let p := ((maxMv * n - sy) * den + num * sx).toNat
    let q := (n * num).toNat
    min 999 (10 * (p ^ 4 - poh * 2 ^ 128 * q ^ 4) / (8766 * 2 ^ 128 * q ^ 4))

/-- R433. The daily records with POH ≥ 168 that remain: POH and SET_MV. -/
def State.dailyPoints (s : State) : List (Nat × Nat) :=
  (((s.ledgerOf 0x26).map (·.data) ++ (s.ledgerReq.filter (fun r => decide (r.cls = 0x26))).map (·.data)).map
    (fun d => (d.getD 0 0, d.getD 1 0))).filter (fun p => decide (168 ≤ p.1))

/-- R433. Has a day of powered operation ended: 24 powered hours since the last daily record? -/
def State.dayDue (s : State) : Bool :=
  let last := (s.ledgerReq.filter (fun r => decide (r.cls = 0x26))).getLast?.map (·.data)
  match last.orElse (fun _ => s.ledgerLast 0x26 (fun _ => true)) with
  | some d => decide (d.getD 0 0 + 24 ≤ s.get R.HLT_POH_HOURS)
  | none => decide (24 ≤ s.get R.HLT_POH_HOURS)

/-- R433. DAILY: a day of powered operation ends. -/
def execDaily (s : State) : Host.Outcome State Fault Refusal :=
  .next (if !s.dayDue then s else
    let poh := s.get R.HLT_POH_HOURS
    let s := s.ledgerAsk 0x26 [poh, max s.hlt.dayMv (s.get R.HLT_AVS_SET_MV), s.get R.HLT_CEIL_CEIL_MHZ, s.hlt.dayD, ofInt 32 s.hlt.daySlack]
    let s := s.setHlt { s.hlt with dayMv := 0, dayD := 0, daySlack := 127 }
    let pts := s.dailyPoints
    let y := if pts.length < 7 then 0xFFFF else projection pts s.maxMv poh
    s.put R.HLT_PROJ_YEARS (if y = 0xFFFF then y else if s.on R.HLT_STAT_AT_CEILING then 0 else y))

/-! ### The report (R414, R419, R420) -/

/-- R419. The word of hamlet `h`. -/
def State.repHamlet (s : State) (h : Nat) : Nat :=
  if s.member.hamlets ≤ h then 0
  else
    let x := s.hamlet h
    s.get (R.ENG_HSTAT_SPARE h) + 32 * b2n x.spareOk + 64 * s.get (R.ENG_HSTAT_DEGRADED h) + 128 * b2n (s.hlt.shared.contains h) +
    256 * popCount 32 x.retired + 65536 * min 65535 x.passes

/-- R419. The word of tile port `t`. -/
def State.repPort (s : State) (t : Nat) : Nat :=
  if s.member.tiles ≤ t then 0
  else
    let lanes := fun (f : Nat → Fld) => ((List.range 5).filter (fun l => s.on (f l))).length
    let since := match (s.port t).cleanAt with
      | some c => min 255 (tickUs c s.ticks / 1000000)
      | none => 255
    s.get (R.WYL_PSTAT_SPARE_OK t) + 2 * s.get (R.WYL_PSTAT_NO_SPARE t) + 4 * s.get (R.WYL_PSTAT_LANE_FAIL t) +
    8 * b2n (decide (lanes (R.WYL_LANE_STAT_QUAL t) ≠ 0)) + 16 * lanes (R.WYL_LANE_STAT_FAILED t) + 256 * since +
    65536 * min 65535 (s.get (R.WYL_CNT_COUNT t 3))

/-- R419. The halfword of DRAM channel `c`. -/
def State.repChannel (s : State) (c : Nat) : Nat :=
  s.get (R.MEM_CHSTAT_SPARES0 c) + 16 * s.get (R.MEM_CHSTAT_SPARES1 c) + 256 * s.get (R.MEM_CHSTAT_DEGRADED c) +
  512 * b2n (s.hlt.exercise.any (fun x => decide (x / 8 = c)))

/-- R419. SEQ_A. -/
def State.repSeqA (s : State) : Nat :=
  match s.sco.seqA with
  | .fit => if s.get R.SCO_STAT_SEQ = 0 then 0 else 1
  | .passed => 1
  | .testing => 2
  | .failed => 3
/-- R414, R419. SEQ_B. -/
def State.repSeqB (s : State) : Nat :=
  match s.sco.seqB with
  | .untested => 0 | .proven => 1 | .inControl => 2 | .failed => 3

/-- R419. SUMMARY. -/
def State.repSummary (s : State) : Nat :=
  b2n ((List.range s.member.hamlets).any (fun h => !(s.hamlet h).spareOk) || s.tilesOn.any (fun t => !s.on (R.WYL_PSTAT_SPARE_OK t))) +
  2 * s.get R.HLT_STAT_LASTING + 4 * b2n (s.repSeqB == 0) + 8 * s.get R.HLT_STAT_AT_CEILING + 16 * s.get R.HLT_STAT_CLK_LIMITED +
  32 * s.get R.HLT_STAT_MARGIN_EXHAUSTED + 64 * s.get R.HLT_STAT_FIXED_SHORT + 128 * s.get R.HLT_STAT_OVERFLOW + 256 * s.get R.CAL_STAT_TEST_WAIT

/-- R419. The 512 bytes of a report with number `seq`. -/
def State.report (s : State) (seq : Nat) : List Byte :=
  leBytes 4 0x52544C48 ++ leBytes 4 seq ++ leBytes 8 s.ptpNs ++ leBytes 4 s.repSummary ++ leBytes 2 (s.get R.HLT_AVS_SET_MV) ++
  leBytes 2 (s.get R.HLT_CEIL_CEIL_MHZ) ++ leBytes 2 (s.get R.HLT_PROJ_YEARS) ++ leBytes 1 (ofInt 8 s.hlt.worst) ++ zeros 1 ++
  leBytes 4 (s.get R.HLT_POH_HOURS) ++ (List.range 16).flatMap (fun h => leBytes 4 (s.repHamlet h)) ++
  (List.range 64).flatMap (fun t => leBytes 4 (s.repPort t)) ++ (List.range 64).flatMap (fun c => leBytes 2 (s.repChannel c)) ++
  leBytes 1 s.repSeqA ++ leBytes 1 s.repSeqB ++ zeros 2 ++ leBytes 4 (s.get (R.SCO_CNT_COUNT 7)) ++ leBytes 8 s.sco.provenAt ++
  leBytes 4 (s.get R.HLT_LOG_HEAD_HEAD) ++ leBytes 4 (s.get R.HLT_LOG_TAIL_TAIL) ++ leBytes 4 (s.get (R.HLT_CNT_COUNT 2)) ++
  leBytes 4 (s.get (R.HLT_FIRST_W 5))

/-- R420. Is a report due: PERIOD_S seconds after the last, or on NOW? -/
def State.reportDue (s : State) : Bool :=
  s.on R.HLT_REPCTL_NOW || decide (1000000 * zeroActs 1 (s.get R.HLT_REPCTL_PERIOD_S) ≤ s.since s.hlt.repAt)

/-- R420. HEALTH_REPORT: the report is written, or dropped at a translation fault. -/
def execHealthReport (s : State) : Host.Outcome State Fault Refusal :=
  .next (if !s.reportDue then s else
    let s := (s.put R.HLT_REPCTL_NOW 0).setHlt { s.hlt with repAt := s.ticks }
    if !s.on R.HLT_REPCTL_EN then s
    else
      let va := s.addrOf R.HLT_REP_LO_ADDR R.HLT_REP_HI_ADDR
      match s.vwrite 0 va (s.report ((s.get R.HLT_REPSEQ_SEQ + 1) % 2 ^ 32)) with
      | .ok s' => s'.bump R.HLT_REPSEQ_SEQ
      | .error e => (s.accFail 0x36 0 0 va .write 9 e).bump (R.HLT_CNT_COUNT 13))

/-- R423. HLT_FIRST is armed again, and reads as zero until the next entry is written. -/
def State.firstClear (s : State) : State := { s.putWords 0x150100 [0, 0, 0, 0, 0, 0, 0, 0] with logFirst := true }
/-- R423. CLEAR. -/
def execClear (s : State) : Host.Outcome State Fault Refusal := .next s.firstClear

end Sys2Proof.Machine
end

