-- ==== Sys2Proof/Machine/HostIf.lean ====
section
/-! DEFINITION. The host interface: register reads, BAR2, access errors, snapshots, the endpoint and its messages (R3, R5–R8, R16–R22,
R395–R397, R405–R407). -/
namespace Sys2Proof.Machine

/-! ### Register reads (R3, R5–R8) -/

/-- R3. Does the member have the unit that the register belongs to? -/
def State.regPresent (s : State) (r : RegRow × Nat) : Bool :=
  match r.1.unit with
  | .none => true
  | .tile => decide (r.2 < s.member.tiles)
  | .hamlet => decide (r.2 < s.member.hamlets)

/-- R5. The bits of a register that a read returns: all but its WO fields. -/
def RegRow.readable (r : RegRow) : Nat := r.fields.foldl (fun acc f => if f.typ == .wo then acc else setBits acc f.lsb f.width (2 ^ f.width - 1)) 0
/-- R5. The bits of a register that a read clears. -/
def RegRow.clears (r : RegRow) : Nat := r.fields.foldl (fun acc f => if f.typ == .rc then setBits acc f.lsb f.width (2 ^ f.width - 1) else acc) 0

/-- R453. CAL_STAT.BUSY: tasks in progress, by code. A controller that retrains is in DRAM_RETRAIN, a rotation under way in ENG_ROTATE, and
an immediate or forced request in its own task; the other tasks begin and end within one command (assumption 62). -/
def State.calBusy (s : State) : Nat :=
  let asked := fun (n : Nat) => s.cal.reqs.any (fun r => (r.now || r.forced) && decide (r.task = n))
  let rotates := (List.range s.member.hamlets).any (fun h => match (s.hamlet h).subst with
    | some x => x.rotate
    | none => false)
  (List.range 8).foldl (fun m n => m + 2 ^ n * b2n (asked (n + 1) || (decide (n = 1) && (List.range 64).any (fun k => s.on (R.MEM_CHSTAT_RETRAINING k))) ||
    (decide (n = 7) && rotates))) 0

/-- R3, R5, R7, R8. What a read of the register at a BAR0 offset returns: snapshot copies come from the last latch. -/
def State.readReg (s : State) (a : Nat) : Nat :=
  match regRow a with
  | none => 0
  | some r =>
    if !s.regPresent r then 0
    else if a = R.CAL_STAT_BUSY.addr then setBits (s.word a &&& r.1.readable) 1 8 s.calBusy
    else presentBits s.member a (((s.word a &&& (2 ^ 32 - 1 - r.1.snapMask)) + (s.snapWord a &&& r.1.snapMask)) &&& r.1.readable)

/-- R5. A read of the register at a BAR0 offset: its value is returned, and RC fields are cleared. -/
def State.readClear (s : State) (a : Nat) : State :=
  let v := s.readReg a
  let s := match regRow a with
    | none => s
    | some r => if r.1.clears = 0 then s else s.setWord a (s.word a &&& (2 ^ 32 - 1 - r.1.clears))
  s.emit (.readData (leBytes 4 v))

/-- What a vector's table entry holds after the endpoint's reset: masked. -/
def msixDefault (_ : Nat) : MsixEntry := ⟨0, 0, true⟩
/-- R407. The table entry of a vector. -/
def State.msixEntry (s : State) (v : Nat) : MsixEntry := mapGet msixDefault s.int.msix v
/-- R21, R395. The word at offset `a` of BAR4: the message table, 16 bytes a vector, and the pending bits after it (assumption 45). -/
def State.msixWord (s : State) (a : Nat) : Nat :=
  let e := s.msixEntry (a / 16)
  if a < 0x400 then
    match a % 16 / 4 with
    | 0 => e.addr % 2 ^ 32
    | 1 => e.addr / 2 ^ 32
    | 2 => e.data
    | _ => b2n e.masked
  else if a = 0x400 then s.int.pba.toNat % 2 ^ 32
  else if a = 0x404 then s.int.pba.toNat / 2 ^ 32 else 0

/-- R395. Does the endpoint take the access: not the host's while the function is in D3hot? -/
def State.barOpen (s : State) (who : Who) : Bool := !(decide (who = .host) && s.hst.d3)

/-- R5, R395. RC_READ: a read of a register in BAR0 (0), or of a word of BAR4 (1). -/
def execRcRead (who : Who) (bar addr : Nat) (s : State) : Host.Outcome State Fault Refusal :=
  .next (
    if !s.barOpen who then s.emit .unsupported
    else if addr % 4 ≠ 0 then s
    else if bar = 0 then s.readClear addr else s.emit (.readData (leBytes 4 (s.msixWord addr))))

/-- R6, R396. BAR0_BAD_ACCESS: an access that is not an aligned 32-bit word. A read returns 0. -/
def execBar0BadAccess (off : Nat) (write : Bool) (s : State) : Host.Outcome State Fault Refusal :=
  .next (
    if !s.barOpen .host then (if write then s else s.emit .unsupported)
    else let s := s.accessError 0 off 1; if write then s else s.emit (.readData (zeros 4)))

/-- R396. BAR_ATOMIC_REQUEST: an AtomicOp request to BAR0 (0), BAR2 (1) or BAR4 (2). -/
def execBarAtomicRequest (bar off : Nat) (s : State) : Host.Outcome State Fault Refusal :=
  .next (if !s.barOpen .host then s.emit .unsupported else (s.accessError bar off 4).emit .unsupported)

/-! ### BAR2 (R21, R22, R337, R396) -/

/-- R21, R396, R408. The device physical address behind BAR2 offset `y`. -/
def State.bar2Addr (s : State) (y : Nat) : Nat := s.get R.HST_BAR2_BASE_BASE * 2 ^ 28 / 2 ^ s.hst.bar2Log * 2 ^ s.hst.bar2Log + y

/-- R22. The KIND for which an access of `n` bytes at BAR2 offset `y` completes without effect. An access with bytes on both sides of the end
of HBM while HBM is closed meets both conditions, and the spec does not say which KIND is recorded: DESIGN CHOICE (assumption 77), RANGE alone. -/
def State.bar2Kind (s : State) (y n : Nat) : Option Nat :=
  if hbmTop < s.bar2Addr y + n then some 2 else if !s.hbmOpen then some 5 else none

/-- R337. The poisoned granules that a read of `n` bytes at `pa` touches. -/
def State.poisonIn (s : State) (pa n : Nat) : List Nat := s.poison.filter (fun g => decide (pa / 32 ≤ g) && decide (g < (pa + n + 31) / 32))

/-- R22, R337, R396. BAR2_READ. -/
def execBar2Read (off n : Nat) (s : State) : Host.Outcome State Fault Refusal :=
  .next (if !s.barOpen .host then s.emit .unsupported else match s.bar2Kind off n with
    | some k => (s.accessError 1 off k).emit (.readData (zeros n))
    | none =>
      match s.poisonIn (s.bar2Addr off) n with
      | [] => s.emit (.readData (s.memBytes (s.bar2Addr off) n))
      | gs => ((gs.foldl (fun s g => s.poisonRead (32 * g)) s).accessError 1 off 3).emit .completerAbort)

/-- R22. BAR2_WRITE. -/
def execBar2Write (off : Nat) (bytes : List Byte) (s : State) : Host.Outcome State Fault Refusal :=
  .next (if !s.barOpen .host then s else match s.bar2Kind off bytes.length with
    | some k => s.accessError 1 off k
    | none => s.memPut (s.bar2Addr off) bytes)

/-! ### Snapshots (R8, R16, R17) -/

/-- R16. The SNAPCTL fields of block `b`. -/
def snapFld (b : Nat) : Fld := ⟨b * 0x10000 + 0xFFF0, 0, 1⟩
def snapBusyFld (b : Nat) : Fld := ⟨b * 0x10000 + 0xFFF0, 1, 1⟩
def snapSeqFld (b : Nat) : Fld := ⟨b * 0x10000 + 0xFFF0, 16, 16⟩
/-- R16. Has block `b` a snapshot control register? -/
def hasSnap (b : Nat) : Bool := (regRow (b * 0x10000 + 0xFFF0)).isSome

/-- R17. A write of 1 to SNAPCTL.SNAP: a latch starts, unless one is in progress. -/
def State.snapGo (s : State) (b : Nat) : State :=
  if !hasSnap b || s.on (snapBusyFld b) then s else (s.put (snapFld b) 1).put (snapBusyFld b) 1
/-- R17. SNAP. -/
def execSnap (block : Nat) (s : State) : Host.Outcome State Fault Refusal := .next (s.snapGo block)

/-- R17, R209, R393. The values of a block that follow a running count are brought up to date as it latches. -/
def State.snapLive (s : State) (b : Nat) : State :=
  if b = 19 then
    ((((s.put64 R.PTP_S_TIME_LO_TIME R.PTP_S_TIME_HI_TIME s.ptpNs).put R.PTP_S_FRAC_FRAC s.ptpFine).put64 R.PTP_S_CLK_LO_CLK R.PTP_S_CLK_HI_CLK (s.coreClk 0)).put64
      R.PTP_S_STW_LO_CLK R.PTP_S_STW_HI_CLK s.stwClk)
  else if b = 12 then s.put R.SCO_S_LINE_LINE s.sco.line
  else s

/-- Does the register at a BAR0 offset hold snapshot copies of block `b`? -/
def snapReg (b a : Nat) : Bool :=
  decide (a / 0x10000 = b) && (match regRow a with
    | some r => decide (r.1.snapMask ≠ 0)
    | none => false)

/-- R17. The copies of a block are taken. -/
def State.snapTake (s : State) (b : Nat) : State :=
  { s with snap := s.snap.filter (fun p => decide (p.1 < b * 0x10000)) ++ s.regs.filter (fun p => snapReg b p.1) ++
                    s.snap.filter (fun p => decide ((b + 1) * 0x10000 ≤ p.1)) }

/-- R17. SNAPSHOT_LATCH_COMPLETE. -/
def execSnapshotLatchComplete (block : Nat) (s : State) : Host.Outcome State Fault Refusal :=
  .next (
    if !hasSnap block || !s.on (snapBusyFld block) then s
    else ((((s.snapLive block).snapTake block).put (snapFld block) 0).put (snapBusyFld block) 0).bump (snapSeqFld block))

/-! ### The endpoint (R397, R407) -/

/-- R359, R397. HOST_WINDOW_ERROR: an outbound request fails and is recorded; one that failed outside, by UR, CA or a timeout, is the next
to its offset, which answers its client so (assumption 96). -/
def execHostWindowError (off kind : Nat) (s : State) : Host.Outcome State Fault Refusal :=
  .next (
    let s := s.hostWinErr off kind
    if 1 ≤ kind ∧ kind ≤ 3 then { s with hst := { s.hst with failed := tabPut s.hst.failed off kind } } else s)

/-- R407. One work ring as the endpoint's reset leaves it: commands taken run to completion. -/
def State.ringReset (s : State) (n : Nat) : State :=
  let s := ((s.put (R.HST_WR_CFG_EN n) 0).put (R.HST_WR_HEAD_HEAD n) 0).put (R.HST_WR_CQH_CQH n) 0
  (s.setWring n { s.wring n with tail := 0, taken := 0 }).ringEnable n true

/-- R407. The endpoint is reset; `perst`: by PERST_N. -/
def State.endpointReset (s : State) (perst : Bool) : State :=
  let s := { s with int := { s.int with msix := [], fmask := false }, hst := { s.hst with bar2Log := 28, d3 := false } }
  let s := (((s.setWord R.HST_CTL_HWIN_EN.addr 0).setWord R.HST_BAR2_BASE_BASE.addr 0).setWord R.HST_HWIN_LO_ADDR.addr 0).setWord R.HST_HWIN_HI_ADDR.addr 0
  let s := foldRange 32 State.ringReset s
  (s.bump (R.HST_CNT_COUNT (if perst then 7 else 6))).raise Irq.HST_LINK

/-- R407. ENDPOINT_RESET: by PERST_N (0), a hot reset (1), Function Level Reset (2) or a link that goes down (3). The link stays up through
2 alone (assumption 39). -/
def execEndpointReset (kind : Nat) (s : State) : Host.Outcome State Fault Refusal :=
  .next (
    let s := if kind = 2 then s else ((s.put R.HST_STAT_LINK_UP 0).put R.HST_STAT_SPEED 0).put R.HST_STAT_WIDTH 0
    let s := if kind = 0 then (({ s with hst := { s.hst with perst := true } } : State).put R.HST_STAT_PERST 1) else s
    s.endpointReset (decide (kind = 0)))

/-- R108, R395, R407, R408. PCIE_LINK_UP: the link has trained, at a speed (1–5) and a width, to a root port that completes AtomicOp
requests or does not. -/
def execPcieLinkUp (speed : Nat) (seen : PcieSeen) (s : State) : Host.Outcome State Fault Refusal :=
  .next (
    let s := ({ s with hst := { s.hst with perst := false, atomics := seen.atomics } } : State).put R.HST_STAT_PERST 0
    let s := ((s.put R.HST_STAT_LINK_UP 1).put R.HST_STAT_SPEED speed).put R.HST_STAT_WIDTH seen.width
    foldRange (min 16 seen.width) (fun s l => s.eyeTake (66 + l)) s)

/-! ### Messages (R406) -/

/-- R406. MSIX_MESSAGE: the message of a pending vector is sent once the vector and the function are unmasked and
the link is up. -/
def execMsixMessage (vector : Nat) (s : State) : Host.Outcome State Fault Refusal :=
  .next (
    let e := s.msixEntry vector
    if s.int.pba.toNat.testBit vector && !e.masked && !s.int.fmask && !s.hst.d3 && s.on R.HST_STAT_LINK_UP then
      ({ s with int := { s.int with pba := s.int.pba &&& ~~~(1#64 <<< vector) } } : State).emit (.msix vector e.addr e.data)
    else s)

/-- R406. INT_CAUSE of a group has been written with `mask`: the causes clear, and a vector of one of them that is still active sends its
message again. -/
def State.causeClear (s : State) (group mask : Nat) : State :=
  let s := (s.setWord (0x30000 + 4 * group) (s.word (0x30000 + 4 * group) &&& (2 ^ 32 - 1 - mask % 2 ^ 32))).revector
  (List.range 32).foldl (fun (s : State) b =>
    let v := s.get (causeVecFld (32 * group + b))
    if bitAt mask b && s.on (vactFld v) then s.setPending v else s) s

/-- R406. INT_CAUSE_CLEAR. -/
def execIntCauseClear (group mask : Nat) (s : State) : Host.Outcome State Fault Refusal := .next (s.causeClear group mask)

end Sys2Proof.Machine
end

