-- ==== Sys2Proof/Machine/Packer.lean ====
section
/-! DEFINITION. The lossless packer: job rings, PACK and UNPACK chunk by chunk, completion records and pausing (R295–R305). -/
namespace Sys2Proof.Machine

/-! ### Jobs (R299–R301) -/

/-- The job of a ring. -/
def State.pkrJob (s : State) (r : Nat) : Option PkrJob := tabGet s.pkr.jobs r
/-- R305, R307. Is the packer stopped by PAUSE or ENABLE? -/
def State.pkrStopped (s : State) : Bool := !s.on R.PKR_CTL_ENABLE || s.on R.PKR_CTL_PAUSE
/-- R307. PKR_STAT follows the jobs. -/
def State.pkrStat (s : State) : State :=
  let running := [1, 0].find? (fun r => match s.pkrJob r with
    | some j => j.stop.isNone
    | none => false)
  ((s.put R.PKR_STAT_BUSY (b2n running.isSome)).put R.PKR_STAT_HALTED (b2n (running.isSome && s.pkrStopped))).put R.PKR_STAT_RING (running.getD 0)
/-- Replace the job of a ring. -/
def State.setPkrJob (s : State) (r : Nat) (j : Option PkrJob) : State :=
  ({ s with pkr := { s.pkr with jobs := match j with
    | some j => tabPut s.pkr.jobs r j
    | none => tabDel s.pkr.jobs r } } : State).pkrStat

/-- R308. Entries of a ring. -/
def State.pkrSize (s : State) (r : Nat) : Nat := 2 ^ clampN 2 12 (s.get (R.PKR_RCFG_LOG2N r))

/-- R299, R308. Has the ring work: a job that runs, or a descriptor not taken? Ring 0 with RCTX 0 serves nothing. -/
def State.pkrWork (s : State) (r : Nat) : Bool :=
  match s.pkrJob r with
  | some j => j.stop.isNone
  | none => decide (s.get (R.PKR_HEAD_HEAD r) ≠ s.get (R.PKR_TAIL_TAIL r)) && !(decide (r = 0) && decide (s.get (R.PKR_RCFG_RCTX 0) = 0))

/-- R299, R305. The ring that the packer serves at a chunk boundary: ring 1 first. -/
def State.pkrRing (s : State) : Option Nat :=
  if s.pkrStopped then none else if s.pkrWork 1 then some 1 else if s.pkrWork 0 then some 0 else none

/-- R300. The job that 64 bytes describe. -/
def PkrJob.ofBytes (b : List Byte) : PkrJob :=
  { op := leAt b 0 1, level := leAt b 1 1, resume := bitAt (leAt b 2 1) 0, irq := bitAt (leAt b 2 1) 1, ctx := leAt b 3 1, job := leAt b 4 4,
    src := leAt b 8 8, srcLen := leAt b 0x10 8, dst := leAt b 0x18 8, dstLen := leAt b 0x20 8, done := leAt b 0x28 8, inDone := leAt b 0x30 8,
    outDone := leAt b 0x38 8, expect := if bitAt (leAt b 2 1) 0 then none else some 0, stop := none,
    chunk := if leAt b 0 1 = 1 then leAt b 0x30 8 / 65536 else 0, read := true }

/-- R300, R301, R302. Does a field break its range or alignment? -/
def PkrJob.bad (j : PkrJob) (ring : Nat) (b : List Byte) : Bool :=
  decide (j.op ≠ 1 ∧ j.op ≠ 2) || (if j.op = 1 then decide (j.level < 1 ∨ 9 < j.level) else decide (j.level ≠ 0)) || decide (4 ≤ leAt b 2 1) ||
  decide (63 < j.ctx) || (decide (ring = 0) && decide (j.ctx = 0)) || decide (j.srcLen < 1 ∨ 2 ^ 40 < j.srcLen) || decide (j.done % 32 ≠ 0) ||
  decide (j.srcLen ≤ j.inDone) || decide (j.dstLen ≤ j.outDone) || (!j.resume && decide (j.inDone ≠ 0 ∨ j.outDone ≠ 0)) ||
  (j.resume && decide (j.op = 1) && decide (j.inDone % 65536 ≠ 0 ∨ j.outDone % 16 ≠ 0))

/-- R301. Do the ranges overlap? -/
def PkrJob.overlaps (j : PkrJob) : Bool := decide (j.src < j.dst + j.dstLen) && decide (j.dst < j.src + j.srcLen)

/-- R301, R303, R305. A job stops with a STATUS: counted, and a fault or decode error logged and raised. -/
def State.pkrStop (s : State) (r : Nat) (j : PkrJob) (status : Nat) : State :=
  let s := s.setPkrJob r (some { j with stop := some status })
  if status = 1 then s.bump (R.PKR_CNT_COUNT 4)
  else if status = 2 then ((s.bump (R.PKR_CNT_COUNT 5)).log 9 0 r 5 2 0).raise Irq.PKR_FAULT
  else if status = 0x10 ∨ status = 0x11 then s.bump (R.PKR_CNT_COUNT 7)
  else if 0x20 ≤ status then ((s.bump (R.PKR_CNT_COUNT 6)).log 9 0 r 6 2 0).raise Irq.PKR_DECODE
  else s

/-- R305, R355. An access of a job fails. -/
def State.pkrFail (s : State) (r : Nat) (j : PkrJob) (va : Nat) (acc : Acc) (e : AccErr) : State :=
  (s.accFail 0x33 j.job j.ctx va acc 4 e).pkrStop r j 2

/-- R304. The output bytes of the stopping chunk are undefined: free bytes (assumption 2), as far as they can be written. -/
def State.pkrSpoil (s : State) (j : PkrJob) (n : Nat) : State :=
  let f := s.fresh
  let m := min n (j.dstLen - j.outDone)
  ((List.range m).zip (leBytes m f.1)).foldl (fun (s : State) p => match s.vwrite j.ctx (j.dst + j.outDone + p.1) [p.2] with
    | .ok s' => s'
    | .error _ => s) f.2

/-- A job that could not be read: its descriptor is unknown. -/
def pkrUnread (ctx : Nat) : PkrJob := { PkrJob.ofBytes (zeros 64) with ctx := ctx, read := false }

/-- R299, R301, R444. Take the descriptor at HEAD of a ring, unless a forced test holds the packer. -/
def State.pkrTake (s : State) (r : Nat) : State × Option PkrJob :=
  match s.pkrJob r with
  | some j => (s, some j)
  | none =>
    if s.testHeld 9 0 then (s, none)
    else
    let ctx := s.get (R.PKR_RCFG_RCTX r)
    let va := s.addrOf (R.PKR_RBASE_LO_ADDR r) (R.PKR_RBASE_HI_ADDR r) + 64 * s.get (R.PKR_HEAD_HEAD r)
    match s.vread ctx va .read 64 with
    | .error e => (s.pkrFail r (pkrUnread ctx) va .read e, none)
    | .ok b =>
      let j := PkrJob.ofBytes b
      if j.bad r b then (s.pkrStop r j 0x10, none)
      else if j.overlaps then (s.pkrStop r j 0x11, none)
      else (s.setPkrJob r (some j), some j)

/-! ### PACK (R298, R302) -/

/-- R295, R296, R302. The next chunk of a PACK job. -/
def State.packStep (s : State) (r : Nat) (j : PkrJob) : State :=
  let n := min 65536 (j.srcLen - j.inDone)
  match s.vread j.ctx (j.src + j.inDone) .read n with
  | .error e => (s.pkrFail r j (j.src + j.inDone) .read e).pkrSpoil j (n + 48)
  | .ok orig =>
    let last := decide (j.inDone + n = j.srcLen)
    let p := packChunk j.level orig
    let body := chunkHeader j.level last p.1 n p.2.length (crc32c orig) j.chunk ++ p.2
    let out := if last then body else body ++ zeros (up16 (j.outDone + body.length) - (j.outDone + body.length))
    if j.dstLen < j.outDone + out.length then (s.pkrStop r j 1).pkrSpoil j out.length
    else match s.vwrite j.ctx (j.dst + j.outDone) out with
      | .error e => (s.pkrFail r j (j.dst + j.outDone) .write e).pkrSpoil j out.length
      | .ok s =>
        let s := s.bump (R.PKR_CNT_COUNT (if p.1 then 2 else 1))
        let j := { j with inDone := j.inDone + n, outDone := j.outDone + out.length }
        if last then s.pkrStop r j 0 else s.setPkrJob r (some { j with chunk := j.chunk + 1 })

/-- R298, R302. PACK: the packer compresses the next chunk of the job it serves. -/
def execPack (s : State) : Host.Outcome State Fault Refusal :=
  .next (match s.pkrRing with
    | none => s
    | some r => let t := s.pkrTake r
      match t.2 with
      | some j => if j.op = 1 then t.1.packStep r j else s
      | none => t.1)

/-! ### UNPACK (R302, R303) -/

/-- R303, R304. A chunk of an UNPACK job fails with a STATUS; `n` output bytes may have been written. -/
def State.unpackFail (s : State) (r : Nat) (j : PkrJob) (status n : Nat) : State := (s.pkrStop r j status).pkrSpoil j n

/-- R303, R304. The chunk at which the job stops is the one expected; with none expected, the one that its header names where the
header's HCRC is good, else its index is free (assumption 2). -/
def State.unpackChunk (s : State) (j : PkrJob) (hdr : List Byte) : State × PkrJob :=
  match j.expect with
  | some k => (s, { j with chunk := k })
  | none =>
    if hdr.length = 32 ∧ leAt hdr 28 4 = crc32c (hdr.take 28) then (s, { j with chunk := leAt hdr 20 4 })
    else let f := s.fresh; (f.2, { j with chunk := f.1 % 2 ^ 32 })

/-- R302. The next chunk of an UNPACK job, its header parsed. -/
def State.unpackBody (s : State) (r : Nat) (j : PkrJob) (h : ChunkHdr) : State :=
  let va := j.src + j.inDone + 32
  let j := { j with chunk := h.index }
  if j.srcLen < j.inDone + 32 + h.clen then s.unpackFail r j 0x25 h.olen
  else match s.vread j.ctx va .read h.clen with
    | .error e => (s.pkrFail r j va .read e).pkrSpoil j h.olen
    | .ok data =>
      if j.dstLen < j.outDone + h.olen then s.unpackFail r j 1 h.olen
      else match chunkBytes h data with
        | .error c => s.unpackFail r j c h.olen
        | .ok o => match s.vwrite j.ctx (j.dst + j.outDone) o with
          | .error e => (s.pkrFail r j (j.dst + j.outDone) .write e).pkrSpoil j h.olen
          | .ok s =>
            let s := s.bump (R.PKR_CNT_COUNT 3)
            let fin := j.inDone + 32 + h.clen
            if h.last then s.pkrStop r { j with inDone := fin, outDone := j.outDone + h.olen } 0
            else s.setPkrJob r (some { j with inDone := up16 fin, outDone := j.outDone + h.olen, expect := some (h.index + 1) })

/-- R302, R303. The next chunk of an UNPACK job. -/
def State.unpackStep (s : State) (r : Nat) (j : PkrJob) : State :=
  let va := j.src + j.inDone
  if j.srcLen < j.inDone + 32 then let p := s.unpackChunk j []; p.1.unpackFail r p.2 0x25 65536
  else match s.vread j.ctx va .read 32 with
    | .error e => let p := s.unpackChunk j []; (p.1.pkrFail r p.2 va .read e).pkrSpoil p.2 65536
    | .ok b => match parseChunk b j.expect with
      | .error c => let p := s.unpackChunk j b; p.1.unpackFail r p.2 c 65536
      | .ok h => s.unpackBody r j h

/-- R302, R303. UNPACK: the packer checks and inflates the next chunk of the job it serves. -/
def execUnpack (s : State) : Host.Outcome State Fault Refusal :=
  .next (match s.pkrRing with
    | none => s
    | some r => let t := s.pkrTake r
      match t.2 with
      | some j => if j.op = 2 then t.1.unpackStep r j else s
      | none => t.1)

/-! ### Completion and pausing (R303, R305) -/

/-- R303. The 32 bytes of a completion record. -/
def PkrJob.record (j : PkrJob) (status : Nat) : List Byte :=
  leBytes 4 j.job ++ leBytes 2 status ++ leBytes 2 0 ++ leBytes 8 j.inDone ++ leBytes 8 j.outDone ++ leBytes 4 j.chunk ++ leBytes 4 0

/-- R303, R305. The record of a stopped job is written, or dropped where it cannot be, and HEAD advances. -/
def State.pkrComplete (s : State) (r : Nat) (j : PkrJob) (status : Nat) : State :=
  let s := if !j.read then s.bump (R.PKR_CNT_COUNT 8) else
    (match s.vwrite j.ctx j.done (j.record status) with
     | .ok s' => s'
     | .error e => (s.accFail 0x33 j.job j.ctx j.done .write 9 e).bump (R.PKR_CNT_COUNT 8))
  let s := (s.setPkrJob r none).put (R.PKR_HEAD_HEAD r) ((s.get (R.PKR_HEAD_HEAD r) + 1) % s.pkrSize r)
  let s := s.bump (R.PKR_CNT_COUNT 0)
  if j.irq then s.raise Irq.PKR_DONE else s

/-- R303. PACKER_JOB_COMPLETE: a job that has stopped completes, ring 1 first. -/
def execPackerJobComplete (s : State) : Host.Outcome State Fault Refusal :=
  .next (match [1, 0].findSome? (fun r => (s.pkrJob r).bind (fun j => j.stop.map (fun st => (r, j, st)))) with
    | some (r, j, st) => s.pkrComplete r j st
    | none => s)

/-- R305. PACKER_PAUSE: a write of PKR_CTL halts the running job at its chunk boundary, or lets it continue. -/
def execPackerPause (en pause : Bool) (s : State) : Host.Outcome State Fault Refusal :=
  .next (((s.put R.PKR_CTL_ENABLE (b2n en)).put R.PKR_CTL_PAUSE (b2n pause)).pkrStat)

end Sys2Proof.Machine
end

