-- ==== Sys2Proof/Machine/Pins.lean ====
section
/-! DEFINITION. The GPIO pins and the test access port (R507–R509). -/
namespace Sys2Proof.Machine

/-- Replace the pin state. -/
def State.setPins (s : State) (x : PinSt) : State := { s with pins := x }

/-! ### GPIO (R508, R509) -/

/-- R508. GPIO pin `n` is seen at a level: GPIO_IN shows it, and an edge that is enabled sets its status bit and raises the cause. -/
def State.pinSeen (s : State) (n : Nat) (up : Bool) : State :=
  let inp := s.get R.GPIO_IN_IN
  if bitAt inp n = up then s
  else
    let s := s.put R.GPIO_IN_IN (setBits inp n 1 (b2n up))
    let edge := if up then bitAt (s.get R.GPIO_IRQ_RISE_RISE) n else bitAt (s.get R.GPIO_IRQ_FALL_FALL) n
    if edge && bitAt (s.get R.GPIO_IRQ_EN_EN) n then (s.put R.GPIO_IRQ_STAT_STAT (setBits (s.get R.GPIO_IRQ_STAT_STAT) n 1 1)).raise Irq.GPIO else s

/-- R508. The level at pin `n`: the output while the pin drives, else what stands there from outside. -/
def State.pinLevel (s : State) (n : Nat) : Bool := if bitAt (s.get R.GPIO_OE_OE) n then bitAt (s.get R.GPIO_OUT_OUT) n else bitAt s.pins.gpio n

/-- R508. GPIO_OUT or GPIO_OE has been written: every pin without debounce is seen at its level; a debounced one once it has been stable. -/
def State.pinsDriven (s : State) : State :=
  foldRange 32 (fun s n => if bitAt (s.get R.GPIO_DEBEN_EN) n then s else s.pinSeen n (s.pinLevel n)) s

/-- R508. GPIO_EDGE: the level from outside at a pin has changed, and has been stable for DEB where the pin is debounced. -/
def execGpioEdge (pin : Nat) (up : Bool) (s : State) : Host.Outcome State Fault Refusal :=
  .next (
    let s := s.setPins { s.pins with gpio := setBits s.pins.gpio pin 1 (b2n up) }
    s.pinSeen pin (s.pinLevel pin))

/-- R508, R509. Output bits are set. -/
def State.gpioSet (s : State) (mask : Nat) : State := (s.put R.GPIO_OUT_OUT (s.get R.GPIO_OUT_OUT ||| mask)).pinsDriven
/-- R508, R509. Output bits are cleared. -/
def State.gpioClr (s : State) (mask : Nat) : State :=
  let o := s.get R.GPIO_OUT_OUT
  (s.put R.GPIO_OUT_OUT (o - (o &&& mask))).pinsDriven
/-- R509. GPIO_OUT_SET. -/
def execGpioOutSet (mask : Nat) (s : State) : Host.Outcome State Fault Refusal := .next (s.gpioSet mask)
/-- R509. GPIO_OUT_CLR. -/
def execGpioOutClr (mask : Nat) (s : State) : Host.Outcome State Fault Refusal := .next (s.gpioClr mask)

/-! ### The test access port (R507) -/

/-- R507. The controller's next state by IEEE 1149.1: 0 Test-Logic-Reset, 1 Run-Test/Idle, 2–8 Select, Capture, Shift, Exit1, Pause, Exit2 and
Update of the data register, 9–15 the same of the instruction register. -/
def tapNext (t : Nat) (tms : Bool) : Nat :=
  match t with
  | 0 => if tms then 0 else 1
  | 1 => if tms then 2 else 1
  | 2 => if tms then 9 else 3
  | 3 => if tms then 5 else 4
  | 4 => if tms then 5 else 4
  | 5 => if tms then 8 else 6
  | 6 => if tms then 7 else 6
  | 7 => if tms then 8 else 4
  | 8 => if tms then 2 else 1
  | 9 => if tms then 0 else 10
  | 10 => if tms then 12 else 11
  | 11 => if tms then 12 else 11
  | 12 => if tms then 15 else 13
  | 13 => if tms then 14 else 13
  | 14 => if tms then 15 else 11
  | _ => if tms then 2 else 1

/-- R507. The instruction that acts: while PORST_N is not asserted every instruction acts as BYPASS. -/
def State.tapActs (s : State) : Nat := if s.watch.porst then s.pins.ir else 0
/-- R507. The length of the data register that an instruction selects: BYPASS 1, IDCODE 32, else the boundary register. -/
def tapLength : Nat → Nat
  | 0 => 1 | 1 => 32 | _ => Config.tapCells
/-- Shift a bit into a register of `n` cells. -/
def shiftIn (n v : Nat) (tdi : Bool) : Nat := v / 2 + b2n tdi * 2 ^ (n - 1)

/-- R507. What a cycle of TCK does in the controller's state. What the boundary register captures is free. -/
def State.tapWork (s : State) (tdi : Bool) : State :=
  let p := s.pins
  let i := s.tapActs
  match p.tap with
  | 0 => s.setPins { p with ir := 1 }
  | 3 => s.setPins { p with drShift := if i = 0 then 0 else if i = 1 then 0xB6400A3D else Config.tapCapture p.gpio % 2 ^ Config.tapCells }
  | 4 => (s.emit (.tdo (bitAt p.drShift 0))).setPins { p with drShift := shiftIn (tapLength i) p.drShift tdi }
  | 8 => if i = 2 ∨ i = 3 then s.setPins { p with latch := p.drShift } else s
  | 10 => s.setPins { p with irShift := 1 }
  | 11 => (s.emit (.tdo (bitAt p.irShift 0))).setPins { p with irShift := shiftIn Config.tapWidth p.irShift tdi }
  | 15 => s.setPins { p with ir := Config.tapDecode p.irShift % 4 }
  | _ => s

/-- R507. TEST_ACCESS_PORT: a cycle of TCK with TMS and TDI; TRST_N low resets the port. -/
def execTestAccessPort (tms tdi trst : Bool) (s : State) : Host.Outcome State Fault Refusal :=
  .next (
    if trst then s.setPins { s.pins with tap := 0, ir := 1 }
    else
      let s := s.tapWork tdi
      s.setPins { s.pins with tap := tapNext s.pins.tap tms })

end Sys2Proof.Machine
end

