-- ==== Sys2Proof/Machine/Bus.lean ====
section
/-! DEFINITION. Register writes: what a write of a word does at every offset of BAR0, field by field and with the operation that the
register starts, and writes of the message table in BAR4 (R3, R5–R7, R17, R345, R396, R398, R407). -/
namespace Sys2Proof.Machine

/-- The index of `a` in an array of `n` registers that starts at `base`, `stride` apart. -/
def arrIdx (base stride n a : Nat) : Option Nat :=
  if base ≤ a ∧ (a - base) % stride = 0 ∧ (a - base) / stride < n then some ((a - base) / stride) else none

/-- An operation on an element of an array, where `a` is one. -/
def State.atIdx (s : State) (base stride n a : Nat) (f : State → Nat → State) : State :=
  match arrIdx base stride n a with
  | some i => f s i
  | none => s

/-- An operation that bit `b` of the word starts. -/
def State.ifBit (s : State) (v b : Nat) (f : State → State) : State := if bitAt v b then f s else s

/-! ### What a write starts, block by block: `old` is the word before, and `s` has stored the fields -/

/-- R400, R401, R403, R399. Host work rings. A doorbell by firmware is a device doorbell, without the host's checks. -/
def State.busHst (s : State) (who : Who) (old a v : Nat) : State :=
  let s := s.atIdx 0x21010 0x40 32 a (fun s n => s.ringEnable n (bitAt old 4))
  let s := s.atIdx 0x21014 0x40 32 a (fun s n => if who = .host then s.doorbell n (v % 4096) else s.deviceDoorbell n (v % 4096))
  s.atIdx 0x2101C 0x40 32 a (fun s n => s.cqhWritten n)

/-- R406. Causes, enables and vectors. -/
def State.busInt (s : State) (a : Nat) : State :=
  if (arrIdx 0x30040 4 8 a).isSome || (arrIdx 0x30100 4 64 a).isSome then s.revector else s

/-- R345, R352. LOCK0 and invalidations. -/
def State.busMmu (s : State) (a v : Nat) : State :=
  let s := if a = R.MMU_CTL_LOCK0.addr then s.ifBit v 1 (fun s => s.put R.MMU_CTL_LOCK0 1) else s
  s.atIdx 0x42000 0x20 2 a (fun s p => s.ifBit v 31 (fun s => s.invGo p))

/-- R364, R368. DMA_RCTL of a ring: RESUME, SKIP and PAUSE, which for a saved ring 2 apply to the saved state. -/
def State.rctlWritten (s : State) (e r v : Nat) : State :=
  let s := s.dmaPause e r (bitAt v 2)
  if bitAt v 1 then s.dmaSkip e r else s.ifBit v 0 (fun s => s.dmaResume e r)

/-- R364. The engine and ring whose DMA_RCTL is at `a`. -/
def rctlAt (a : Nat) : Option (Nat × Nat) :=
  (arrIdx 0x51014 0x40 64 a).bind (fun i => if i % 4 < 3 then some (i / 4, i % 4) else none)

/-- R71, R90. Caddy invalidation and the density control. -/
def State.busSyn (s : State) (old a v : Nat) : State :=
  if a = R.SYN_DCTL_AUTO.addr then (if !bitAt old 0 && bitAt v 0 then s.autoSet else s)
  else if a = R.SYN_CADDY_INV_ALL.addr then
    (s.ifBit v 0 (fun s => s.invalidate none)).ifBit v 1 (fun s => s.invalidate (some (s.get R.SYN_CADDY_INV_SLOT)))
  else s

/-- R197, R207, R208. Scan-out. -/
def State.busSco (s : State) (old a v : Nat) : State :=
  if a = R.SCO_CTL_ENABLE.addr then s.scanEnable (bitAt old 0)
  else if a = R.SCO_COMMIT_COMMIT.addr then s.ifBit v 0 State.armCommit
  else if a = R.SCO_SEQCTL_FORCE_B.addr then s.forceB else s

/-- R232, R236, R238. Ports. -/
def State.busWyl (s : State) (a v : Nat) : State :=
  let s := if a = R.WYL_CTL_ENABLE.addr then s.syncPorts else s
  let s := s.atIdx 0xD1000 4 64 a (fun s t => ((s.syncPorts).ifBit v 1 (fun s => s.portRetrain t)).ifBit v 2 (fun s => s.subReq t))
  s.atIdx 0xD1300 4 64 a (fun s t => s.ifBit v 16 (fun s => s.statusReq t))

/-- R239, R243, R247, R248. Checksums, panel rails, region updates and hold writes. -/
def State.busPnl (s : State) (a v : Nat) : State :=
  if a = R.PNL_CTL_CHK_EN.addr then s.chkWritten
  else if a = R.PNL_PWRREQ_ON.addr then s.powerRequest
  else if a = R.PNL_HOLD_GO.addr then s.ifBit v 0 State.holdStart
  else if a = R.PNL_RQ_B_GO.addr then s.ifBit v 31 State.regionGo else s

/-- R272, R285, R289, R291. Cameras. -/
def State.busCam (s : State) (old a v : Nat) : State :=
  let s := if a = R.CAM_CTL_ENABLE.addr then s.camEnable (bitAt old 0) else s
  let s := if a = R.CAM_SETCTL_SRC.addr then s.setSource (bitAt old 0) else s
  let s := if a = R.CAM_XREQ_A_SLOT.addr then s.showQueued else s
  let s := if a = R.CAM_XREQ_B_GO.addr then s.ifBit v 31 (fun s => s.queueRequest (v % 65536)) else s
  s.atIdx 0x101000 0x40 32 a (fun s n => s.slotEnable n (bitAt old 0))

/-- R382, R385, R388. Time. -/
def State.busPtp (s : State) (who : Who) (a v : Nat) : State :=
  if a = R.PTP_CTL_SERVO_EN.addr then s.ptpCtlWritten
  else if a = R.PTP_OFS_B_GO.addr then s.ifBit v 31 State.ofsGo
  else if a = R.PTP_STEP_CTL_GO.addr then s.ifBit v 0 (fun s => s.stepGo who) else s

/-- R326, R339, R342. Memory. -/
def State.busMem (s : State) (a v : Nat) : State :=
  if a = R.MEM_CTL_MAP_LOCK.addr then s.ifBit v 0 State.mapLock
  else if a = R.MEM_SPEED_GO.addr then s.ifBit v 4 State.speedGo
  else if a = R.MEM_RETRAIN_NOW.addr then s.ifBit v 16 State.retrainAll else s

/-- R420, R423, R428. Health. -/
def State.busHlt (s : State) (a v : Nat) : State :=
  if a = R.HLT_AVSLIM_MIN_MV.addr then s.limitBits
  else if a = R.HLT_LOG_CLR_CLEAR.addr then s.ifBit v 0 State.firstClear
  else if a = R.HLT_REPCTL_NOW.addr then s.ifBit v 0 (fun s => s.put R.HLT_REPCTL_NOW 1) else s

/-- R508, R509. GPIO. -/
def State.busGpio (s : State) (a v : Nat) : State :=
  if a = R.GPIO_OUT_SET_SET.addr then s.gpioSet v
  else if a = R.GPIO_OUT_CLR_CLR.addr then s.gpioClr v
  else if a = R.GPIO_OUT_OUT.addr ∨ a = R.GPIO_OE_OE.addr then s.pinsDriven else s

/-- What a write of `v` at `a` starts beyond the fields that it stores. -/
def State.busAct (s : State) (who : Who) (old a v : Nat) : State :=
  if (a % 0x10000) = 0xFFF0 then s.ifBit v 0 (fun s => s.snapGo (a / 0x10000))
  else match a / 0x10000 with
    | 0 => if a = R.GLB_RST_WARM.addr then s.ifBit v 0 (fun s => s.warmReset (bitsOf v 8 8)) else s
    | 2 => s.busHst who old a v
    | 3 => s.busInt a
    | 4 => s.busMmu a v
    | 8 => s.busSyn old a v
    | 9 => if a = R.PKR_CTL_ENABLE.addr then s.pkrStat else s
    | 10 => if a = R.BLT_CTL_ENABLE.addr then (if bitAt v 3 then s.bltSkip else s.ifBit v 2 State.bltResume).bltStat else s
    | 12 => s.busSco old a v
    | 13 => s.busWyl a v
    | 14 => s.busPnl a v
    | 16 => s.busCam old a v
    | 19 => s.busPtp who a v
    | 20 => s.busMem a v
    | 21 => s.busHlt a v
    | 22 => if a = R.CAL_REQ_GO.addr then s.ifBit v 31 State.calGo else s
    | 24 => if a = R.SEC_REQ_GO.addr then s.ifBit v 31 State.secGo else s
    | 25 => if a = R.FWU_CMD_GO.addr then s.ifBit v 31 State.fwuGo else s
    | 26 => s.busGpio a v
    | _ => s

/-! ### BAR0 (R3, R5–R7) -/

/-- R326, R345. Is the write discarded: by the host to context 0's registers under LOCK0, or of a hash mask under MAP_LOCK? -/
def State.busLocked (s : State) (who : Who) (a : Nat) : Bool :=
  (decide (who = .host) && s.on R.MMU_CTL_LOCK0 && decide (0x41000 ≤ a) && decide (a < 0x41010)) ||
  (s.on R.MEM_CTL_MAP_LOCK && decide (0x140100 ≤ a) && decide (a < 0x140158))

/-- R3, R7. Does a write reach a register that the member has? -/
def State.busReaches (s : State) (a : Nat) : Bool :=
  match regRow a with
  | some r => s.regPresent r
  | none => false

/-- R5. A write of `v` to the register at BAR0 offset `a`: its fields are stored by type, and the operation that it starts begins. -/
def State.busWrite (s : State) (who : Who) (a v : Nat) : State :=
  if !s.busReaches a || s.busLocked who a then s
  else match arrIdx 0x30000 4 8 a with
    | some g => s.causeClear g v
    | none => match rctlAt a with
      | some (e, r) => s.rctlWritten e r v
      | none =>
        if a = R.BKL_CTL_CH_EN.addr then s.bklCtl (bitsOf v 0 4) (bitAt v 8)
        else
          let s := if a = R.CAM_SETCTL_SRC.addr ∨ a = R.CAM_SETMASK_MASK.addr then s.closeSet else s
          let old := s.word a
          (s.storeFields (decide (who = .watch)) a v).busAct who old a v

/-! ### BAR4 (R395, R406, R407) -/

/-- R395. A write of word `v` at offset `a` of the message table, laid out as PCI Express has it: vector n at 16 × n, its address, its
data, and its mask bit (assumption 45). -/
def State.msixWrite (s : State) (a v : Nat) : State :=
  let n := a / 16
  let e := s.msixEntry n
  if 64 ≤ n then s  -- the pending bits are read only
  else
    let e := match a % 16 / 4 with
      | 0 => { e with addr := e.addr / 2 ^ 32 * 2 ^ 32 + v % 2 ^ 32 / 4 * 4 }
      | 1 => { e with addr := e.addr % 2 ^ 32 + 2 ^ 32 * (v % 2 ^ 32) }
      | 2 => { e with data := v % 2 ^ 32 }
      | _ => { e with masked := bitAt v 0 }
    { s with int := { s.int with msix := mapPut msixDefault s.int.msix n e } }

/-- R21, R395, R406. The host writes configuration space: the size of BAR2 as log2 (offset 0), the function's MSI-X mask (4), or the power
state, 0 D0 and 3 D3hot (8) (assumption 45). -/
def State.cfgWrite (s : State) (a v : Nat) : State :=
  match a with
  | 0 => if 28 ≤ v ∧ v ≤ 37 then { s with hst := { s.hst with bar2Log := v } } else s
  | 4 => { s with int := { s.int with fmask := bitAt v 0 } }
  | 8 => if v = 0 ∨ v = 3 then { s with hst := { s.hst with d3 := decide (v = 3) } } else s
  | _ => s

/-- R5. REGISTER_WRITE: a write of an aligned word to BAR0 (0), to the message table of BAR4 (1), or to configuration space (2). -/
def execRegisterWrite (who : Who) (bar addr value : Nat) (s : State) : Host.Outcome State Fault Refusal :=
  .next (
    if addr % 4 ≠ 0 then s
    else if bar = 2 then s.cfgWrite addr value
    else if !s.barOpen who then s
    else if bar = 0 then s.busWrite who addr value else s.msixWrite addr value)

end Sys2Proof.Machine
end

