-- ==== Sys2Proof/Machine/Ethernet.lean ====
section
/-! DEFINITION. The Ethernet ports: descriptor rings, transmit with one-step insertion, receive filters, and links (R373–R378, R380, R381). -/
namespace Sys2Proof.Machine

/-! ### Ports and rings (R373–R375, R392) -/

/-- R392. MAX_FRAME, clamped. -/
def State.maxFrame (s : State) (p : Nat) : Nat := clampN 60 9216 (s.get (R.ETH_PCFG_MAX_FRAME p))
/-- R374, R391. Does the port carry frames? -/
def State.ethUp (s : State) (p : Nat) : Bool := bitAt (s.get R.ETH_CTL_EN) p && s.on (R.ETH_PSTAT_LINK_UP p)
/-- R392. The context of a ring: TX1 and RX1 use 0. -/
def State.ethCtx (s : State) (p q : Nat) : Nat := if q % 2 = 1 then 0 else s.get (R.ETH_RCFG_CTX p q)
/-- R392. Is the ring served? -/
def State.ethRing (s : State) (p q : Nat) : Bool := s.on (R.ETH_RCFG_EN p q) && (decide (q % 2 = 1) || decide (s.ethCtx p q ≠ 0))
/-- R392. Entries of a ring. -/
def State.ethSize (s : State) (p q : Nat) : Nat := 2 ^ clampN 2 12 (s.get (R.ETH_RCFG_LOG2N p q))
/-- The address of descriptor `i` of a ring. -/
def State.ethDesc (s : State) (p q i : Nat) : Nat := s.addrOf (R.ETH_RBASE_LO_ADDR p q) (R.ETH_RBASE_HI_ADDR p q) + 32 * i
/-- R355. The ID of an Ethernet failure. -/
def ethId (p q i : Nat) : Nat := p + 4 * q + 16 * i
/-- The descriptors of a port that wait to be written back. -/
def State.ethFly (s : State) (p : Nat) : List EthTx := (tabGet s.eth.fly p).getD []
/-- Replace them. -/
def State.setEthFly (s : State) (p : Nat) (l : List EthTx) : State := { s with eth := { s.eth with fly := tabPut s.eth.fly p l } }

/-- R378. A failed access of a port is reported, counted, logged and raised. -/
def State.ethFail (s : State) (p q i va : Nat) (acc : Acc) (e : AccErr) : State :=
  (((s.accFail 0x37 (ethId p q i) (s.ethCtx p q) va acc 7 e).bump (R.ETH_CNT_COUNT p 7)).log 18 0 p 7 2 0).raise Irq.ETH_FAULT

/-- Add a signed ps adjustment to a time in 1/65,536 ns (R380). -/
def adjustTs (t ps : Nat) : Nat := ofInt 80 ((t : Int) + toInt 32 ps * 65536 / 1000)

/-! ### Transmit (R376, R380, R381) -/

/-- R376. A field of `n` bytes at `off` reaches beyond byte 255 or beyond LEN. -/
def beyond (off n len : Nat) : Bool := decide (256 < off + n) || decide (len < off + n)

/-- R376. Is a transmit descriptor refused? -/
def txBad (b : List Byte) (maxFrame : Nat) : Bool :=
  let len := leAt b 8 2
  let f := leAt b 0xA 1
  decide (len < 1 ∨ maxFrame < len) || decide (f / 16 % 8 ≠ 0) || decide (leAt b 0x13 1 ≠ 0) || decide (leAt b 0x16 2 ≠ 0) ||
  (bitAt f 1 && beyond (leAt b 0xC 2) 10 len) || (bitAt f 2 && beyond (leAt b 0xE 2) 8 len) || (bitAt f 3 && beyond (leAt b 0x10 2) 2 len)

/-- Big-endian bytes. -/
def beBytes (n v : Nat) : List Byte := (leBytes n v).reverse
/-- A big-endian number at an offset. -/
def beAt (bs : List Byte) (o n : Nat) : Nat := leNat ((bs.drop o).take n).reverse
/-- Bytes written over others at an offset. -/
def patch (bs : List Byte) (o : Nat) (x : List Byte) : List Byte := bs.take o ++ x ++ bs.drop (o + x.length)

/-- R381. The incremental update of the UDP checksum at `o` for the bytes changed between two frames; a checksum of 0 stays 0. -/
def udpUpdate (old new : List Byte) (o : Nat) : List Byte :=
  let c := beAt old o 2
  if c = 0 then new
  else
    let weight := fun i => if i % 2 = o % 2 then 256 else 1
    let sum := fun (bs : List Byte) => ((bs.zip (List.range bs.length)).map (fun p => p.1.toNat * weight p.2)).sum
    let sum' := (65535 - c) + sum new + 65535 * sum old - sum old
    let h := 65535 - sum' % 65535
    patch new o (beBytes 2 (if h = 0 then 65535 else h))

/-- R381. The frame with its transmit time `t` inserted, in 1/65,536 ns. -/
def oneStep (b frame : List Byte) (t : Nat) : List Byte :=
  let f := leAt b 0xA 1
  let ns := t / 65536
  let f1 := patch frame (leAt b 0xC 2) (beBytes 6 (ns / 1000000000) ++ beBytes 4 (ns % 1000000000))
  let co := leAt b 0xE 2
  let f2 := if bitAt f 2 then patch f1 co (beBytes 8 (beAt f1 co 8 + t % 65536)) else f1
  if bitAt f 3 then udpUpdate frame f2 (leAt b 0x10 2) else f2

/-- R373. A frame as it leaves: padded to 60 bytes, with its FCS. -/
def onWire (frame : List Byte) : List Byte :=
  let f := frame ++ zeros (60 - frame.length)
  f ++ leBytes 4 (crc32 f)

/-- R376, R381. A frame is sent, and its descriptor waits to be written back. -/
def State.txSend (s : State) (p q i : Nat) (b : List Byte) : State :=
  let va := leAt b 0 8
  let f := leAt b 0xA 1
  let wait := fun (s : State) (st t : Nat) => s.setEthFly p (s.ethFly p ++ [EthTx.mk q i st f t s.epoch])
  if txBad b (s.maxFrame p) then wait (s.bump (R.ETH_CNT_COUNT p 8)) 2 0
  else match s.vread (s.ethCtx p q) va .read (leAt b 8 2) with
    | .error e => wait (s.ethFail p q i va .read e) 1 0
    | .ok frame =>
      let t := adjustTs s.ptpFine (s.get (R.ETH_TSADJ_TX_PS p))
      let out := if bitAt f 1 then oneStep b frame t else frame
      wait ((s.bump (R.ETH_CNT_COUNT p 0)).emit (.eth p (onWire out))) 0 t

/-- R375. The index of the next descriptor of a transmit ring to take. -/
def State.txNext (s : State) (p q : Nat) : Nat :=
  (s.get (R.ETH_HEAD_HEAD p q) + ((s.ethFly p).filter (fun x => decide (x.q = q))).length) % s.ethSize p q

/-- R375, R376. TX_FRAME: the port takes the next transmit descriptor, TX1 before TX0. -/
def execTxFrame (port : Nat) (s : State) : Host.Outcome State Fault Refusal :=
  .next (
    if !s.ethUp port then s
    else match [1, 0].find? (fun q => s.ethRing port q && decide (s.txNext port q ≠ s.get (R.ETH_TAIL_TAIL port q))) with
      | none => s
      | some q =>
        let i := s.txNext port q
        match s.vread (s.ethCtx port q) (s.ethDesc port q i) .read 32 with
        | .error e =>
          let s := s.ethFail port q i (s.ethDesc port q i) .read e
          s.setEthFly port (s.ethFly port ++ [EthTx.mk q i 1 0 0 s.epoch])
        | .ok b => s.txSend port q i b)

/-- Write bytes of a descriptor; a failure is reported. -/
def State.ethWrite (s : State) (p q i off : Nat) (bs : List Byte) : State :=
  match s.vwrite (s.ethCtx p q) (s.ethDesc p q i + off) bs with
  | .ok s' => s'
  | .error e => s.ethFail p q i (s.ethDesc p q i + off) .write e

/-- R376. TX_TIMESTAMP_WRITEBACK: the oldest descriptor that waits is written back, and HEAD advances. -/
def execTxTimestampWriteback (port : Nat) (s : State) : Host.Outcome State Fault Refusal :=
  .next (match s.ethFly port with
    | [] => s
    | x :: rest =>
      let s := s.setEthFly port rest
      let s := s.ethWrite port x.q x.idx 0xA (leBytes 1 (x.flags % 128 + 128) ++ leBytes 1 x.status)
      let s := if x.status = 0 ∧ x.flags % 4 ≠ 0 then
          ((s.ethWrite port x.q x.idx 0x12 (leBytes 1 x.epoch)).ethWrite port x.q x.idx 0x14 (leBytes 2 x.ts)).ethWrite port x.q x.idx 0x18 (leBytes 8 (x.ts / 65536))
        else s
      s.put (R.ETH_HEAD_HEAD port x.q) ((x.idx + 1) % s.ethSize port x.q))

/-! ### Receive (R373–R375, R377) -/

/-- What the filters look at: EtherType after one tag, whether there is a tag, and the UDP destination port over IPv4. -/
structure FrameKind where
  etype : Nat
  vlan : Bool
  udp : Option Nat
  deriving DecidableEq, Repr

/-- R373, R375. The kind of a frame. -/
def frameKind (f : List Byte) : FrameKind :=
  let vlan := decide (beAt f 12 2 = 0x8100)
  let o := if vlan then 16 else 12
  let et := beAt f o 2
  let ip := o + 2
  let hl := beAt f ip 1 % 16 * 4
  let udp := decide (et = 0x0800) && decide (beAt f ip 1 / 16 = 4) && decide (beAt f (ip + 9) 1 = 17) && decide (beAt f (ip + 6) 2 % 8192 = 0)
  ⟨et, vlan, if udp then some (beAt f (ip + hl + 2) 2) else none⟩

/-- R373. Is it a PTP frame? -/
def FrameKind.ptp (k : FrameKind) : Bool := decide (k.etype = 0x88F7) || k.udp == some 319 || k.udp == some 320

/-- R373, R392. Does the port take the destination address? The MAC address is one big-endian number (assumption 38). -/
def State.macTakes (s : State) (p : Nat) (f : List Byte) : Bool :=
  s.on (R.ETH_PCFG_PROMISC p) || bitAt (beAt f 0 1) 0 || decide (beAt f 0 6 = s.get (R.ETH_MAC_HI_ADDR p) * 2 ^ 32 + s.get (R.ETH_MAC_LO_ADDR p))

/-- R375, R392. The filter that matches first. -/
def State.filterOf (s : State) (p : Nat) (k : FrameKind) : Option Nat :=
  (List.range 8).find? (fun i =>
    let v := s.get (R.ETH_FLT_VALUE p i)
    match s.get (R.ETH_FLT_KIND p i) with
    | 1 => decide (k.etype = v)
    | 2 => k.udp == some v
    | _ => false)

/-- R377. A received frame is written to the descriptor at HEAD of ring `q`, cut where its buffer is short. -/
def State.rxWrite (s : State) (p q flt : Nat) (k : FrameKind) (f : List Byte) : State :=
  let i := s.get (R.ETH_HEAD_HEAD p q)
  let t := adjustTs s.ptpFine (s.get (R.ETH_TSADJ_RX_PS p))
  let adv := fun (s : State) => s.put (R.ETH_HEAD_HEAD p q) ((i + 1) % s.ethSize p q)
  let back := fun (s : State) (flags : Nat) =>
    adv ((s.ethWrite p q i 0xA (leBytes 1 (flags + 128) ++ leBytes 1 flt ++ leBytes 2 f.length ++ leBytes 1 s.epoch)).ethWrite p q i 0x10 (leBytes 2 t)
      |>.ethWrite p q i 0x18 (leBytes 8 (t / 65536)))
  let kind := 2 * b2n k.ptp + 4 * b2n k.vlan
  match s.vread (s.ethCtx p q) (s.ethDesc p q i) .read 32 with
  | .error e => back (s.ethFail p q i (s.ethDesc p q i) .read e) (8 + kind)
  | .ok d =>
    let n := min f.length (leAt d 8 2)
    match s.vwrite (s.ethCtx p q) (leAt d 0 8) (f.take n) with
    | .error e => back (s.ethFail p q i (leAt d 0 8) .write e) (8 + kind)
    | .ok s =>
      let s := if n < f.length then s.bump (R.ETH_CNT_COUNT p 5) else s
      back (s.bump (R.ETH_CNT_COUNT p 1)) (b2n (decide (n < f.length)) + kind)

/-- R373–R375. A frame with a good FCS is filtered to a ring, or dropped. -/
def State.rxFrame (s : State) (p : Nat) (f : List Byte) : State :=
  if s.maxFrame p < f.length then s.bump (R.ETH_CNT_COUNT p 3)
  else if f.length < 60 then s
  else if beAt f 12 2 = 0x8808 then s.bump (R.ETH_CNT_COUNT p 6)
  else if !s.macTakes p f then s
  else
    let k := frameKind f
    let m := s.filterOf p k
    let q := match m with
      | some i => 2 + s.get (R.ETH_FLT_RING p i)
      | none => if k.ptp && s.on (R.ETH_PCFG_PTP_STW p) then 3 else 2
    if !s.ethRing p q ∨ s.get (R.ETH_HEAD_HEAD p q) = s.get (R.ETH_TAIL_TAIL p q) then s.bump (R.ETH_CNT_COUNT p 4)
    else s.rxWrite p q (m.getD 0xFF) k f

/-- R374, R375, R377. RX_FRAME: a frame without its FCS, whether the FCS matched, and what RS-FEC did to it: 0 nothing, 1 corrected it, 2 found
it uncorrectable. -/
def execRxFrame (port : Nat) (bytes : List Byte) (fcsOk : Bool) (fec : Nat) (s : State) : Host.Outcome State Fault Refusal :=
  .next (
    if !s.ethUp port then s
    else
      let s := if fec = 1 then s.bump (R.ETH_CNT_COUNT port 9)
        else if fec = 2 then ((s.bump (R.ETH_CNT_COUNT port 10)).log 18 0 port 10 2 0).raise Irq.ETH_FEC_UNCORR else s
      if fcsOk then s.rxFrame port bytes else s.bump (R.ETH_CNT_COUNT port 2))

/-- R374, R514. An Ethernet link goes down. -/
def State.ethDrop (s : State) (p : Nat) : State :=
  if !s.on (R.ETH_PSTAT_LINK_UP p) then s
  else
    let s := ((s.put (R.ETH_PSTAT_LINK_UP p) 0).put (R.ETH_PSTAT_BLOCK_LOCK p) 0).put (R.ETH_PSTAT_FEC_LOCK p) 0
    ((s.bump (R.ETH_CNT_COUNT p 11)).log 18 0 p 11 2 0).raise Irq.ETH_LINK_DOWN

/-- R374, R392. ETH_LINK_CHANGE: the link comes up, with its receiver locked, or is down; a link that is down shows what the
receiver then finds of its block lock and its error rate. -/
def execEthLinkChange (port : Nat) (seen : EthSeen) (s : State) : Host.Outcome State Fault Refusal :=
  .next (
    if seen.up then
      if !bitAt (s.get R.ETH_CTL_EN) port then s
      else (((s.put (R.ETH_PSTAT_LINK_UP port) 1).put (R.ETH_PSTAT_BLOCK_LOCK port) 1).put (R.ETH_PSTAT_FEC_LOCK port)
        (b2n (s.on (R.ETH_PCFG_FEC port) && !s.on (R.ETH_PCFG_SPEED port)))).put (R.ETH_PSTAT_HI_BER port) 0 |>.eyeTake (64 + port)
    else ((s.ethDrop port).put (R.ETH_PSTAT_BLOCK_LOCK port) (b2n seen.lock)).put (R.ETH_PSTAT_HI_BER port) (b2n seen.hiBer))

end Sys2Proof.Machine
end

