-- ==== Sys2Proof/Machine/Streams.lean ====
section
/-! DEFINITION. The commands of the shipped frame program: streams, RSF frames with their resolved directories, and ray-map bindings
(R26–R62, R67, R171, R404). -/
namespace Sys2Proof.Machine

/-- R358. A read by firmware through DMA ring 1 of engine 0 has failed. -/
def State.fwFail (s : State) (ctx va : Nat) (acc : Acc) (e : AccErr) : State := s.accFail 0x10 (1 * 16) ctx va acc 4 e

/-! ### Streams (R28, R29) -/

/-- R28. "RSFS", "RSFF" and "RSFM" as little-endian words. -/
def magicS : Nat := 0x53465352
def magicF : Nat := 0x46465352
def magicM : Nat := 0x4D465352

/-- R29. Does a stream header pass: MAGIC, major version, HCRC, HSIZE and the ranges? -/
def streamOk (b : List Byte) : Bool :=
  decide (leAt b 0 4 = magicS) && decide (leAt b 4 2 / 256 = 1) && decide (leAt b 0x3C 4 = crc32c (b.take 0x3C)) && decide (64 ≤ leAt b 6 2) &&
  decide (leAt b 0x10 4 ≠ 0) && decide (leAt b 0x14 4 ≠ 0) &&
  decide (1 ≤ leAt b 0x18 1) && decide (leAt b 0x18 1 ≤ 64) && decide (1 ≤ leAt b 0x19 1) && decide (leAt b 0x19 1 ≤ 8) &&
  decide (1 ≤ leAt b 0x1A 2) && decide (leAt b 0x1A 2 ≤ 16384)

/-- R28, R190. The stream that a header opens. -/
def streamOf (b : List Byte) (ctx ptp pts : Nat) : StreamSt :=
  { id := leAt b 8 4, ctx := ctx, crc := bitAt (leAt b 0xC 4) 0, tbNum := leAt b 0x10 4, tbDen := leAt b 0x14 4, maxPlanes := leAt b 0x18 1,
    maxLevels := leAt b 0x19 1, maxDim := leAt b 0x1A 2, anchorPtp := ptp, anchorPts := pts, last := none }

/-- R29, R404. OPEN_STREAM of ring `ring`, its entry's bytes `b`. -/
def State.openStream (s : State) (ring : Nat) (b : List Byte) : State :=
  let slot := leAt b 0x20 4
  let va := leAt b 8 8
  let ctx := s.wringCtx ring
  if 16 ≤ slot then s.finishNewest ring 2 []
  else if (tabGet s.syn.streams slot).isSome then s.finishNewest ring 0x11 []
  else match s.vread ctx va .read 64 with
    | .error e => (s.fwFail ctx va .read e).finishNewest ring 3 []
    | .ok h =>
      if streamOk h then
        ({ s with syn := { s.syn with streams := tabPut s.syn.streams slot (streamOf h ctx (leAt b 0x10 8) (leAt b 0x18 8)) } } : State).finishNewest ring 0 []
      else s.finishNewest ring 0x10 []

/-- R404. OPEN_STREAM. -/
def execOpenStream (ring : Nat) (s : State) : Host.Outcome State Fault Refusal :=
  .next (s.takeEntry ring (fun b => decide (leAt b 0 1 = 1)) (fun s b => s.openStream ring b))

/-- R404. CLOSE_STREAM completes, and the stream closes, once the slot's earlier FRAME commands have completed. -/
def execCloseStream (ring : Nat) (s : State) : Host.Outcome State Fault Refusal :=
  .next (s.takeEntry ring (fun b => decide (leAt b 0 1 = 3)) (fun s' b =>
    let slot := leAt b 0x20 4
    if (tabGet s'.syn.streams slot).isNone ∨ s.isClosing slot then s'.finishNewest ring 0x12 [] else s'.closeReady slot))

/-! ### Frame headers and planes (R31–R36, R41, R43) -/

/-- R33. Is SEQ greater than the last in serial-number order? -/
def seqAfter (last seq : Nat) : Bool := let d := subMod 32 seq last; decide (1 ≤ d) && decide (d < 2 ^ 31)

/-- R32, steps 3 and 4. The reject code of a frame header, 0 for none. -/
def StreamSt.headerCode (st : StreamSt) (b : List Byte) : Nat :=
  let np := leAt b 0x1C 2
  let nd := leAt b 0x20 4
  let po := leAt b 0x24 4
  let d := leAt b 0x28 4
  if leAt b 0 4 ≠ magicF then 1
  else if leAt b 4 2 / 256 ≠ 1 ∨ leAt b 6 2 < 64 then 2
  else if leAt b 0x3C 4 ≠ crc32c (b.take 0x3C) then 3
  else if leAt b 8 4 ≠ st.id then 4
  else if (match st.last with
    | some l => !seqAfter l.seq (leAt b 0xC 4) || decide (leAt b 0x10 8 ≤ l.pts)
    | none => false) then 5
  else if st.maxPlanes < np ∨ 4194304 < nd ∨ po % 16 ≠ 0 ∨ po < 64 ∨ d % 16 ≠ 0 ∨ d < po + 64 * np ∨ leAt b 0x30 8 < d + 16 * nd then 7
  else 0

/-- R41. Tiles of level `m`. -/
def levelTiles (w h m : Nat) : Nat := ceilDiv (ceilDiv w (2 ^ m)) 256 * ceilDiv (ceilDiv h (2 ^ m)) 256
/-- R41. NTEX. -/
def texCount (w h levels : Nat) : Nat := ((List.range levels).map (levelTiles w h)).sum
/-- R43. NDEPTH of a HEIGHT plane. -/
def depthCount (w h dshift : Nat) : Nat := ceilDiv (ceilDiv w (2 ^ dshift)) 256 * ceilDiv (ceilDiv h (2 ^ dshift)) 256

/-- R35. What the frame program keeps of a descriptor. -/
def planeOf (b : List Byte) : PlaneRec :=
  { id := leAt b 0 2, kind := leAt b 2 1, width := leAt b 4 2, height := leAt b 6 2, levels := leAt b 8 1, dshift := leAt b 9 1,
    texIndex := leAt b 0xC 4, depthIndex := leAt b 0x2C 4 }
/-- R36, R43. The depth tiles that a plane has. -/
def PlaneRec.depths (p : PlaneRec) : Nat := if p.kind = 1 then depthCount p.width p.height p.dshift else 0
/-- R41. The texture tiles that a plane has. -/
def PlaneRec.texs (p : PlaneRec) : Nat := texCount p.width p.height p.levels

/-- R36. The counts and ranges of one descriptor hold. -/
def rangesOk (ndir : Nat) (b : List Byte) : Bool :=
  let p := planeOf b
  decide (leAt b 0x28 4 = p.texs) && decide (p.texIndex + p.texs ≤ ndir) && decide (leAt b 0x30 4 = p.depths) &&
  decide (p.depthIndex + p.depths ≤ ndir) && (decide (p.kind = 1) || decide (p.depthIndex = 0))

/-- R36. No two of the ranges (first, count) overlap. -/
def disjointRanges : List (Nat × Nat) → Bool
  | [] => true
  | r :: rest => rest.all (fun q => decide (r.2 = 0) || decide (q.2 = 0) || decide (r.1 + r.2 ≤ q.1) || decide (q.1 + q.2 ≤ r.1)) && disjointRanges rest

/-- R35. The other fields of a descriptor hold; −0.0 counts as 0.0 (assumption 87). -/
def StreamSt.geometryOk (st : StreamSt) (b : List Byte) : Bool :=
  let p := planeOf b
  let f := fun o => leAt b o 4
  decide (p.kind ≤ 1) && decide (1 ≤ p.width) && decide (p.width ≤ st.maxDim) && decide (1 ≤ p.height) && decide (p.height ≤ st.maxDim) &&
  decide (1 ≤ p.levels) && decide (p.levels ≤ st.maxLevels) && decide (p.dshift ≤ (if p.kind = 1 then 3 else 0)) &&
  [0x10, 0x14, 0x18, 0x1C, 0x20, 0x24].all (fun o => fisFinite f32 (f o)) && flt f32 0 (f 0x1C) && flt f32 0 (f 0x20) &&
  (decide (p.kind = 1) || decide (f 0x24 % 2 ^ 31 = 0))

/-- R32, steps 7 and 8. The reject code of a frame's descriptors, 0 for none. -/
def StreamSt.planesCode (st : StreamSt) (ndir : Nat) (ds : List (List Byte)) : Nat :=
  let ps := ds.map planeOf
  if !ds.all (rangesOk ndir) || !disjointRanges (ps.flatMap (fun p => [(p.texIndex, p.texs), (p.depthIndex, p.depths)])) then 7
  else if !ds.all st.geometryOk || !decide (ps.map (·.id)).Nodup then 8
  else 0

/-! ### Resolved directories (R44–R49, R55, R67) -/

/-- What resolution needs of the frame that is taken: its address, SEQ, FSIZE, end of directory, and KEY. -/
structure FrameInfo where
  va : Nat
  seq : Nat
  size : Nat
  dirEnd : Nat
  key : Bool
  deriving DecidableEq, Repr

/-- R46, R55 step 1. The reason for which a directory entry itself is invalid; 0 for none. -/
def FrameInfo.entryReason (f : FrameInfo) (depth : Bool) (e : List Byte) : Nat :=
  let c := leAt e 0 1
  let len := leAt e 1 3
  let ofs := leAt e 4 8
  if 4 ≤ c then 6
  else if c = 0 ∧ depth then 6
  else if c = 2 ∧ (len ≠ 0 ∨ 2 ^ (if depth then 16 else 40) ≤ ofs) then 6
  else if c = 3 ∧ (len ≠ 0 ∨ ofs ≠ 0) then 6
  else if c < 2 ∧ (len = 0 ∨ ofs % 16 ≠ 0 ∨ 2 ^ 40 ≤ ofs ∨ f.size < ofs + len ∨ ofs < f.dirEnd) then 4
  else 0

/-- R48. The entry of the last accepted frame that a REPEAT entry names: the `k`-th texture or depth tile of a plane, at level `m`. -/
def State.repeated (s : State) (st : StreamSt) (f : FrameInfo) (p : PlaneRec) (depth : Bool) (m k : Nat) : Option ResEntry :=
  match st.last with
  | none => none
  | some l =>
    if f.key ∨ subMod 32 f.seq l.seq ≠ 1 then none
    else match l.planes.find? (fun q => decide (q.id = p.id)) with
      | none => none
      | some q =>
        if q.kind ≠ p.kind ∨ q.width ≠ p.width ∨ q.height ≠ p.height ∨ q.dshift ≠ p.dshift ∨ (!depth ∧ q.levels ≤ m) then none
        else match s.vread st.ctx (l.rdir + 32 * ((if depth then q.depthIndex else q.texIndex) + k)) .read 32 with
          | .error _ => none
          | .ok b => let e := ResEntry.ofBytes b; if e.inv = 0 then some { e with seen := 0 } else none

/-- R46, R48, R55, R67. The resolved entry of one tile; `e` is its directory entry and `i` its index. -/
def State.resolve (s : State) (st : StreamSt) (f : FrameInfo) (p : PlaneRec) (depth : Bool) (m k i : Nat) (e : List Byte) : ResEntry :=
  let c := leAt e 0 1 % 4
  let addr := if c < 2 then (f.va + leAt e 4 8) % 2 ^ 48 else leAt e 4 8
  let r := f.entryReason depth e
  let own : ResEntry := ⟨c, leAt e 1 3, addr, leAt e 0xC 4, f.seq, i, r, 0⟩
  if r ≠ 0 ∨ c ≠ 3 then own
  else match s.repeated st f p depth m k with
    | some x => x
    | none => { own with inv := 5 }

/-- The level of the `k`-th texture tile of a plane. -/
def PlaneRec.levelOf (p : PlaneRec) (k : Nat) : Nat :=
  ((List.range p.levels).find? (fun m => decide (k < texCount p.width p.height (m + 1)))).getD 0

/-- R48, R67. The resolved entries of a frame, with their indexes. -/
def State.resolveAll (s : State) (st : StreamSt) (f : FrameInfo) (ps : List PlaneRec) (dir : List Byte) : List (Nat × ResEntry) :=
  let at' := fun i => (dir.drop (16 * i)).take 16
  ps.flatMap (fun p =>
    (List.range p.texs).map (fun k => (p.texIndex + k, s.resolve st f p false (p.levelOf k) k (p.texIndex + k) (at' (p.texIndex + k)))) ++
    (List.range p.depths).map (fun k => (p.depthIndex + k, s.resolve st f p true 0 k (p.depthIndex + k) (at' (p.depthIndex + k)))))

/-- R49. OLDEST_REF. -/
def oldestRef (seq : Nat) (es : List (Nat × ResEntry)) : Nat :=
  let far := es.foldl (fun (d : Nat) e => if e.2.code < 2 ∧ e.2.inv = 0 then max d (subMod 32 seq e.2.seq) else d) 0
  subMod 32 seq far

/-- Write the resolved entries at `rdir`; the first failure ends it. -/
def State.writeDir (s : State) (ctx rdir : Nat) : List (Nat × ResEntry) → Except AccErr State
  | [] => .ok s
  | (i, e) :: rest => match s.vwrite ctx (rdir + 32 * i) e.bytes with
    | .error x => .error x
    | .ok s => s.writeDir ctx rdir rest

/-! ### FRAME (R32, R404) -/

/-- R404. The newest command of ring `ring` is rejected with a code of R32. -/
def State.rejectFrame (s : State) (ring code : Nat) : State := s.finishNewest ring (0x100 + code) []

/-- R33, R34, R48, R62. A frame is accepted: the stream keeps its directory and planes, and it waits for synthesis. -/
def State.acceptFrame (s : State) (ring slot : Nat) (st : StreamSt) (f : FrameInfo) (b : List Byte) (rdir : Nat) (ps : List PlaneRec) (oldest tag : Nat) : State :=
  let s := s.mapNewest ring (fun c => { c with seq := f.seq, oldest := oldest })
  let w : SynWork := { band := none, ring := ring, tag := tag, slot := slot, seq := f.seq, pts := leAt b 0x10 8, isStatic := bitAt (leAt b 0x18 4) 1,
                        bound := s.syn.bound, started := 0, exhausted := 0, ctx := st.ctx, targets := [], written := [], complete := [],
                        abandoned := false, startNs := 0, newMap := s.syn.rmapNext, cost := none, measured := false }
  { s with syn := { s.syn with
      streams := tabPut s.syn.streams slot { st with last := some ⟨f.seq, leAt b 0x10 8, rdir, ps⟩ },
      works := tabPut s.syn.works s.syn.nextWork w, nextWork := s.syn.nextWork + 1, rmapNext := none } }

/-- R32, steps 5 to 8. The descriptors and the directory of a frame are read and checked, its REPEAT entries resolved, and it is accepted. -/
def State.frameBody (s : State) (ring slot : Nat) (st : StreamSt) (va : Nat) (b : List Byte) (rdir tag : Nat) : State :=
  let np := leAt b 0x1C 2
  let nd := leAt b 0x20 4
  let po := leAt b 0x24 4
  let d := leAt b 0x28 4
  match s.vread st.ctx (va + po) .read (64 * np) with
  | .error e => (s.fwFail st.ctx (va + po) .read e).rejectFrame ring 9
  | .ok pb => match s.vread st.ctx (va + d) .read (16 * nd) with
    | .error e => (s.fwFail st.ctx (va + d) .read e).rejectFrame ring 9
    | .ok db =>
      if leAt b 0x38 4 ≠ crc32c (pb ++ db) then s.rejectFrame ring 6
      else
        let ds := (List.range np).map (fun i => (pb.drop (64 * i)).take 64)
        let code := st.planesCode nd ds
        if code ≠ 0 then s.rejectFrame ring code
        else
          let f : FrameInfo := ⟨va, leAt b 0xC 4, leAt b 0x30 8, d + 16 * nd, bitAt (leAt b 0x18 4) 0⟩
          let ps := ds.map planeOf
          let es := s.resolveAll st f ps db
          match s.writeDir st.ctx rdir es with
          | .error e => (s.fwFail st.ctx rdir .write e).rejectFrame ring 9
          | .ok s => s.acceptFrame ring slot st f b rdir ps (oldestRef f.seq es) tag

/-- R32, steps 1 to 4. -/
def State.frameTake (s : State) (ring slot : Nat) (st : StreamSt) (va rdir tag : Nat) : State :=
  if va % 256 ≠ 0 then s.rejectFrame ring 7
  else match s.vread st.ctx va .read 64 with
    | .error e => (s.fwFail st.ctx va .read e).rejectFrame ring 9
    | .ok b =>
      let code := st.headerCode b
      if code ≠ 0 then s.rejectFrame ring code else s.frameBody ring slot st va b rdir tag

/-- R32, R404. FRAME; `rdir` is where the frame program keeps the resolved directory (assumption 35). -/
def execFrame (ring rdir : Nat) (s : State) : Host.Outcome State Fault Refusal :=
  .next (s.takeEntry ring (fun b => decide (leAt b 0 1 = 2)) (fun s' b =>
    let slot := leAt b 0x20 4
    match tabGet s'.syn.streams slot with
    | none => s'.finishNewest ring 0x12 []
    | some st =>
      if s.isClosing slot then s'.finishNewest ring 0x12 []
      else if s'.syn.rmap.isNone then s'.finishNewest ring 2 []
      else s'.frameTake ring slot st (leAt b 8 8) rdir (leAt b 4 4)))

/-! ### Ray maps (R58, R62, R171) -/

/-- R58. The header that 128 bytes hold. -/
def rayHdrOf (b : List Byte) : RayHdr :=
  let f := fun o => leAt b o 4
  { model := leAt b 6 2 % 4, nores := bitAt (leAt b 6 2) 2, classes := leAt b 0xA 2, width := leAt b 0xC 2, height := leAt b 0xE 2,
    ox := f 0x10, oy := f 0x14, px := f 0x18, py := f 0x1C, gap := f 0x20, c0x := f 0x24, c0y := f 0x28, a1x := f 0x2C, a1y := f 0x30,
    a2x := f 0x34, a2y := f 0x38, resBase := leAt b 0x40 8, resPitch := f 0x48, clsPitch := f 0x4C, clsBase := leAt b 0x50 8 }

/-- R62. Does a tile header pass its checks at the position of tile `t`? -/
def rayHdrOk (t : Nat) (b : List Byte) : Bool :=
  let h := rayHdrOf b
  let det := fsub f32 (fmul f32 h.a1x h.a2y) (fmul f32 h.a1y h.a2x)
  decide (leAt b 0 4 = magicM) && decide (leAt b 4 2 / 256 = 1) && decide (leAt b 0x7C 4 = crc32c (b.take 0x7C)) &&
  decide (h.model ≤ 1) && decide (leAt b 8 2 = t) && decide (1 ≤ h.classes) && decide (h.classes ≤ 512) &&
  decide (1 ≤ h.width) && decide (h.width ≤ 8192) && decide (1 ≤ h.height) && decide (h.height ≤ 4096) &&
  [h.ox, h.oy, h.px, h.py, h.gap, h.c0x, h.c0y, h.a1x, h.a1y, h.a2x, h.a2y].all (fisFinite f32) &&
  flt f32 0 h.px && flt f32 0 h.py && flt f32 0 h.gap && fisFinite f32 det && decide (det % 2 ^ 31 ≠ 0) &&
  (h.nores || (decide (h.resBase % 256 = 0) && decide (h.resPitch % 256 = 0) && decide (4 * h.width ≤ h.resPitch))) &&
  decide (h.clsBase % 256 = 0) && decide (h.clsPitch % 256 = 0) && decide (2 * h.width ≤ h.clsPitch)

/-- Two binary32 bounds, the lower and the upper, widened by a value. -/
def widen (b : Option (Nat × Nat)) (v : Nat) : Option (Nat × Nat) :=
  match b with
  | none => some (v, v)
  | some (lo, hi) => some (if flt f32 v lo then v else lo, if flt f32 hi v then v else hi)

/-- R171. The bounds of a tile: the spreads of origin x and y so far, the bounds within the line, and the bounds of the slopes. -/
structure Figures where
  dox : Nat
  doy : Nat
  ox : Option (Nat × Nat)
  oy : Option (Nat × Nat)
  sx : Option (Nat × Nat)
  sy : Option (Nat × Nat)
  deriving DecidableEq, Repr

/-- R171. One ray is taken in; a ray without a lenslet is left out. -/
def Figures.add (g : Figures) (r : Ray) : Figures :=
  if r.has then { g with ox := widen g.ox r.ox, oy := widen g.oy r.oy, sx := widen g.sx r.sx, sy := widen g.sy r.sy } else g

/-- R171. A tile line ends. -/
def Figures.line (g : Figures) : Figures :=
  let spread := fun (b : Option (Nat × Nat)) (d : Nat) => match b with
    | none => d
    | some (lo, hi) => let w := fsub f32 hi lo; if flt f32 d w then w else d
  { g with dox := spread g.ox g.dox, doy := spread g.oy g.doy, ox := none, oy := none }

/-- R62. Read a line of a tile's class and residual planes: none where a CLASS is out of range. -/
def State.mapLine (s : State) (ctx : Nat) (h : RayHdr) (j : Nat) : Except (Nat × AccErr) (Option (List Nat)) :=
  match s.vread ctx (h.clsAddr 0 j) .read (2 * h.width) with
  | .error e => .error (h.clsAddr 0 j, e)
  | .ok cb =>
    if (List.range h.width).any (fun i => decide (h.classes ≤ leAt cb (2 * i) 2 % 512)) then .ok none
    else if h.nores then .ok (some [])
    else match s.vread ctx (h.resAddr 0 j) .read (4 * h.width) with
      | .error e => .error (h.resAddr 0 j, e)
      | .ok rb => .ok (some ((List.range h.width).map (fun i => leAt rb (4 * i) 4)))

/-- R62, R171, R537. The lines of a tile are read and checked from line `j` on, and the figures of its rays gathered: those within the
tile of `w` × `rows` pixels. -/
def State.mapLines (s : State) (ctx : Nat) (h : RayHdr) (w rows : Nat) : Nat → Nat → Figures → Except (Nat × AccErr) (Option Figures)
  | 0, _, g => .ok (some g)
  | n + 1, j, g => match s.mapLine ctx h j with
    | .error e => .error e
    | .ok none => .ok none
    | .ok (some res) =>
      let g := (List.range (if j < rows then min w h.width else 0)).foldl (fun (g : Figures) i =>
        let g := g.add (rayOf h i j none)
        if h.nores then g else g.add (rayOf h i j (some (res.getD i 0)))) g
      s.mapLines ctx h w rows n (j + 1) g.line

/-- R62. What a binding's check finds. -/
inductive MapCheck where
  | ok (tiles : List (Nat × RayHdr × Figures))
  | bad
  | failed (va : Nat) (err : AccErr)
  deriving DecidableEq, Repr

/-- R62. The tile headers present, `as` by tile, are checked in tile order. -/
def State.checkTiles (s : State) (ctx : Nat) : List (Nat × Nat) → List (Nat × RayHdr × Figures) → MapCheck
  | [], acc => if acc = [] then .bad else .ok acc.reverse
  | (t, a) :: rest, acc =>
    if a = 0 then s.checkTiles ctx rest acc
    else if s.member.tiles ≤ t then .bad
    else match s.vread ctx a .read 128 with
      | .error e => .failed a e
      | .ok b =>
        let h := rayHdrOf b
        if !rayHdrOk t b || acc.any (fun p => decide (p.2.1.classes ≠ h.classes)) then .bad
        else match s.mapLines ctx h (s.tileW t) (s.getA (R.SCO_TSIZE_H t)) h.height 0 ⟨0, 0, none, none, none, none⟩ with
          | .error e => .failed e.1 e.2
          | .ok none => .bad
          | .ok (some g) => s.checkTiles ctx rest ((t, h, g) :: acc)

/-- R171. The six figures of a tile are written into its CMP_T record. -/
def State.putFigures (s : State) (t : Nat) (g : Figures) : State :=
  let sx := g.sx.getD (0, 0)
  let sy := g.sy.getD (0, 0)
  (((((s.put (R.CMP_DOX_VALUE t) g.dox).put (R.CMP_DOY_VALUE t) g.doy).put (R.CMP_SXMIN_VALUE t) sx.1).put (R.CMP_SXMAX_VALUE t) sx.2).put
    (R.CMP_SYMIN_VALUE t) sy.1).put (R.CMP_SYMAX_VALUE t) sy.2

/-- R62. A binding is accepted: the first takes effect at once, a later one with the first frame taken after it. -/
def State.acceptMap (s : State) (ctx : Nat) (tiles : List (Nat × RayHdr × Figures)) : State :=
  let m : RayMap := ⟨ctx, tiles.map (fun p => (p.1, p.2.1))⟩
  let s := tiles.foldl (fun (s : State) p => s.putFigures p.1 p.2.2) s
  let s := s.put R.SYN_STAT_RMAP_BOUND 1
  if s.syn.rmap.isNone then s.takeMap m else { s with syn := { s.syn with rmapNext := some m } }

/-- R62, R404. BIND_RAYMAP. -/
def execBindRaymap (ring : Nat) (s : State) : Host.Outcome State Fault Refusal :=
  .next (s.takeEntry ring (fun b => decide (leAt b 0 1 = 4)) (fun s b =>
    let ctx := s.wringCtx ring
    let va := leAt b 8 8
    match s.vread ctx va .read 512 with
    | .error e => (s.fwFail ctx va .read e).finishNewest ring 3 []
    | .ok ab => match s.checkTiles ctx ((List.range 64).map (fun t => (t, leAt ab (8 * t) 8))) [] with
      | .ok tiles => (s.acceptMap ctx tiles).finishNewest ring 0 []
      | .bad => s.finishNewest ring 0x20 []
      | .failed a e => (s.fwFail ctx a .read e).finishNewest ring 0x20 []))

end Sys2Proof.Machine
end

