-- ==== Sys2Proof/Machine/Supply.lean ====
section
/-! DEFINITION. The supply monitors of VDD_CORE and the reference clocks (R458, R459, R514). -/
namespace Sys2Proof.Machine

/-! ### Supply-dip episodes and brown-outs (R458) -/

/-- R442, R453, R458. DIP_START: a point of VDD_CORE falls below 0.700 V, to `mv`; it ends a qualification period. -/
def execDipStart (mv : Nat) (s : State) : Host.Outcome State Fault Refusal :=
  .next (
    if s.watch.down || s.watch.held.isSome || decide (700 ≤ mv) then s
    else match s.watch.dip with
      | none => ((s.setWatch { s.watch with dip := some ⟨s.ticks, mv, none⟩ }).put R.SPV_STAT_DIP 1).put R.CAL_STAT_DIP_HOLD 1
      | some d => s.setWatch { s.watch with dip := some { d with low := min d.low mv, qual := none } })

/-- R458. SUPPLY_QUALIFICATION: every point rises above 0.710 V and a qualification period begins, or a point falls below 0.700 V, to `mv`, and
ends it. -/
def execSupplyQualification (begins : Bool) (mv : Nat) (s : State) : Host.Outcome State Fault Refusal :=
  .next (
    match s.watch.dip with
    | none => s
    | some d =>
      if begins then (if d.qual.isNone then s.setWatch { s.watch with dip := some { d with qual := some s.ticks } } else s)
      else s.setWatch { s.watch with dip := some { d with qual := none, low := min d.low mv } })

/-- R431, R442, R453, R458. DIP_END: the qualification has lasted 100 µs, so it succeeds and the episode ends; a voltage step that waited is
written. -/
def execDipEnd (s : State) : Host.Outcome State Fault Refusal :=
  .next (
    match s.watch.dip with
    | none => s
    | some d =>
      if d.qual.all (fun q => decide (tickUs q s.ticks < 100)) then s
      else
        let s := ((((s.setWatch { s.watch with dip := none }).put R.SPV_STAT_DIP 0).put R.CAL_STAT_DIP_HOLD 0).bump R.SPV_DIPCNT_COUNT).log 1 0 0 0x95 1 (tickUs d.start s.ticks + 2 ^ 32 * d.low)
        let s := s.raise Irq.SPV_ALARM
        match s.hlt.waits with
        | some mv => s.avsWrite mv
        | none => s)

/-- R458. A brown-out: the main domain is held in reset; the record carries the lowest reading and the episode's duration in µs. -/
def State.brownOut (s : State) (low : Nat) : State :=
  let dur := match s.watch.dip with
    | some d => tickUs d.start s.ticks
    | none => 0
  let low := match s.watch.dip with
    | some d => min d.low low
    | none => low
  let s := s.holdMain 5
  let s := (s.setWatch { s.watch with dip := none }).put R.SPV_STAT_DIP 0
  let s : State := { s with flash := { s.flash with brownouts := s.flash.brownouts + 1 } }
  (s.bump R.SPV_BOCNT_COUNT).ledgerAsk 0x05 [low, dur]

/-- R458. Has an episode lasted 1 ms with no qualification period that began within it and may still succeed? -/
def State.dipOver (s : State) : Bool :=
  match s.watch.dip with
  | some d => decide (1000 ≤ tickUs d.start s.ticks) && d.qual.all (fun q => decide (1000 < tickUs d.start q))
  | none => false

/-- R458. BROWNOUT: a point reaches 0.660 V, or an episode has lasted 1 ms with no qualification begun; `mv` is the lowest reading. -/
def execBrownout (mv : Nat) (s : State) : Host.Outcome State Fault Refusal :=
  .next (
    if s.watch.down || !(decide (mv ≤ 660) || s.dipOver) then s
    else
      let s := if s.watch.held.isNone then s.brownOut mv else s
      s.setWatch { s.watch with coreOk := false, lowAt := s.ticks })

/-- R458, R477. BROWNOUT_RELEASE: VDD_CORE has stayed above 0.710 V for 10 ms, so the Watch may release the main domain. -/
def execBrownoutRelease (s : State) : Host.Outcome State Fault Refusal :=
  .next (if tickUs s.watch.lowAt s.ticks < 10000 then s else s.setWatch { s.watch with coreOk := true })

/-! ### Reference clocks (R514) -/

/-- R514. PANEL_REFCLK is lost: the PIX domain stops, and no frame is under way. -/
def State.pixStop (s : State) : State :=
  let s := (s.regionsBack.holdCut)
  let s := s.setSco { s.sco with inFrame := false, line := 0, blank := false, due := none }
  ((s.put R.SCO_STAT_RUNNING 0).put R.SCO_STAT_VBLANK 0).put R.CMP_STAT_ACTIVE 0

/-- R407, R514. The PCIe link goes down. -/
def State.pcieDrop (s : State) : State :=
  (((s.put R.HST_STAT_LINK_UP 0).put R.HST_STAT_SPEED 0).put R.HST_STAT_WIDTH 0).endpointReset false

/-- R514. What the loss of a reference does: 0 CORE, 1 PANEL, 2 ETH, 3 PCIE, 4 the SP crystal. The loss of CORE_REFCLK gives no reading for its
BROWNOUT record, so that value is free. -/
def State.refLost (s : State) : Nat → State
  | 0 => if s.watch.held.isNone then s.fresh.2.brownOut s.fresh.1 else s
  | 1 => s.pixStop
  | 2 => (s.ethDrop 0).ethDrop 1
  | 3 => s.pcieDrop
  | _ => s.watchFault

/-- R514. REFCLK_LOSS: entered in the error log with its reference. -/
def execRefclkLoss (ref : Nat) (s : State) : Host.Outcome State Fault Refusal :=
  .next (
    if s.watch.down || s.watch.lost.contains ref then s
    else
      let s := (s.setWatch { s.watch with lost := ref :: s.watch.lost }).log 1 0 0 0x95 2 ref
      s.refLost ref)

/-- R514. REFCLK_RETURN: the PANEL ports retrain; CORE_REFCLK must run for 10 ms before a release. -/
def execRefclkReturn (ref : Nat) (s : State) : Host.Outcome State Fault Refusal :=
  .next (
    if !s.watch.lost.contains ref then s
    else
      let s := s.setWatch { s.watch with lost := s.watch.lost.filter (· ≠ ref), coreBack := if ref = 0 then s.ticks else s.watch.coreBack }
      if ref = 1 then foldRange 64 State.portRetrain s else s)

end Sys2Proof.Machine
end

