-- ==== Sys2Proof/Machine/Thermal.lean ====
section
/-! DEFINITION. Thermal control: the housekeeping round, warning, throttling, broken sensors, comparators, shutdown and restart
(R334, R335, R445–R452, R458, R519, R539). -/
namespace Sys2Proof.Machine

/-- Replace the thermal state. -/
def State.setThm (s : State) (x : ThmSt) : State := { s with thm := x }

/-! ### Channels (R445, R458) -/

/-- R445, R458. The nominal voltage in mV of a main rail's channel other than VDD_CORE's. -/
def railNominal (ch : Nat) : Option Nat :=
  if 64 ≤ ch ∧ ch < 70 then some 800
  else if 70 ≤ ch ∧ ch < 74 then some 1100
  else if 74 ≤ ch ∧ ch < 78 then some 400
  else if 78 ≤ ch ∧ ch < 82 then some 1800
  else if 82 ≤ ch ∧ ch < 86 then some 850
  else if 86 ≤ ch ∧ ch < 90 then some 1200
  else if ch = 90 then some 850
  else if ch = 91 then some 1200
  else if ch = 92 ∨ ch = 93 then some 1800
  else none

/-- R458. A rail reading outside ±8 % of nominal in two consecutive rounds is logged and raised. -/
def State.railCheck (s : State) (ch : Nat) (mv : Option Int) : State :=
  match railNominal ch, mv with
  | some n, some v =>
    if (v - n).natAbs * 100 ≤ 8 * n then s.setThm { s.thm with oor := tabDel s.thm.oor ch }
    else
      let k := (tabGet s.thm.oor ch).getD 0 + 1
      let s := s.setThm { s.thm with oor := tabPut s.thm.oor ch k }
      if 2 ≤ k then (s.log 1 0 0 0x96 2 ch).raise Irq.SPV_SUPPLY_OOR else s
  | _, _ => s

/-- R334, R335. The refresh scale (0 ×1, 1 ×2, 2 ×4) after a reading of `v` °C under the scale `cur`; `hot`: no reading since one that was
missing or invalid has been below 102 °C. -/
def refreshScale (cur : Nat) (hot : Bool) (v : Int) : Nat :=
  let up := if 105 < v then 2 else if 85 < v then 1 else 0
  let low := if 102 < v ∨ (hot ∧ v = 102) then 2 else if 82 < v then 1 else 0
  if cur ≤ up then up else min cur low

/-- R334, R335, R343. A stack's reading sets its refresh rate; a rise raises the temperature alert. -/
def State.stackRead (s : State) (st : Nat) (v : Option Int) : State :=
  let cur := s.get (R.MEM_STKTEMP_REFSCALE st)
  let n := match v with
    | none => 2
    | some v => refreshScale cur (s.dram.hot.contains st) v
  let hot := v.any (fun v => decide (v < 102)) = false ∧ (v = none ∨ s.dram.hot.contains st)
  let s : State := { s with dram := { s.dram with hot := if hot then st :: s.dram.hot.filter (· ≠ st) else s.dram.hot.filter (· ≠ st) } }
  let s := (s.put (R.MEM_STKTEMP_REFSCALE st) n).put (R.MEM_STKTEMP_INVALID st) (b2n v.isNone)
  let s := match v with
    | some v => s.put (R.MEM_STKTEMP_TEMP st) (ofInt 8 v)
    | none => s
  if cur < n then s.raise Irq.MEM_TEMP_ALERT else s

/-- R445, R455. HK_CHANNEL_READ: the round reads its next channel. `raw` is its reading in 1/8 °C before trim (channels 0–39), °C (40–43)
or mV, none where it could not be read; `code` is the converter's raw code. -/
def execHkChannelRead (raw : Option Int) (code : Nat) (s : State) : Host.Outcome State Fault Refusal :=
  .next (
    let ch := s.thm.chan
    let v := if ch < 40 then raw.map (· + toInt 8 (s.get (R.THM_TRIM_OFS ch))) else raw
    let s := s.setThm { s.thm with
      chan := (ch + 1) % 96
      full := s.thm.full || decide (ch = 95)
      vals := (match v with
        | some v => tabPut s.thm.vals ch v
        | none => tabDel s.thm.vals ch)
      codes := tabPut s.thm.codes ch code }
    let s := s.put (R.THM_CH_INVALID ch) (b2n v.isNone)
    let s := match v with
      | some v => s.put (R.THM_CH_VALUE ch) (ofInt 16 v)
      | none => s
    let s := if 40 ≤ ch ∧ ch < 44 ∧ s.watch.held = none then s.stackRead (ch - 40) v else s
    s.railCheck ch v)

/-! ### Sensors (R449, R539) -/

/-- R2, R3. Does the member have die sensor `n`? -/
def State.hasSensor (s : State) (n : Nat) : Bool := decide (32 ≤ n ∧ n < 40) || decide (n / 2 < s.member.hamlets ∧ n < 32)
/-- R539. The neighbours of a die sensor that the member has. -/
def State.neighbours (s : State) (n : Nat) : List Nat := (thmNeighbours n).filter s.hasSensor
/-- The sum of the last readings of a sensor's neighbours, in 1/8 °C. -/
def State.nbrSum (s : State) (n : Nat) : Int := ((s.neighbours n).map (fun m => (tabGet s.thm.vals m).getD 0)).sum
/-- R449. Is a die reading outside −70 to +170 °C? -/
def outOfRange (v : Int) : Bool := decide (v < -560) || decide (1360 < v)
/-- Is sensor `n` broken? -/
def State.isBroken (s : State) (n : Nat) : Bool := s.thm.broken.contains n

/-- R449. A die sensor's history after the round. -/
def State.nextHist (s : State) (n : Nat) : SensorSt :=
  let code := (tabGet s.thm.codes n).getD 0
  match tabGet s.thm.hist n with
  | some h => if h.code = code then { h with rounds := h.rounds + 1 } else ⟨code, 1, s.nbrSum n, h.valid⟩
  | none => ⟨code, 1, s.nbrSum n, 0⟩

/-- R449. Stuck: the same raw code for 64 rounds, while the neighbours' mean has moved by 3 °C or more since the first of them. -/
def State.isStuck (s : State) (n : Nat) (h : SensorSt) : Bool :=
  decide (64 ≤ h.rounds) && decide (24 * (s.neighbours n).length ≤ (s.nbrSum n - h.first).natAbs) && decide (s.neighbours n ≠ [])

/-- R449. One die sensor is judged: it breaks, or leaves the broken state after 2,048 valid rounds in a row. -/
def State.judgeSensor (s : State) (n : Nat) : State :=
  if !s.hasSensor n then s
  else
    let h := s.nextHist n
    let stuck := s.isStuck n h
    let bad := (match tabGet s.thm.vals n with
      | some v => outOfRange v
      | none => false) || stuck
    let read := (tabGet s.thm.vals n).isSome
    let h := { h with valid := if bad || !read then 0 else h.valid + 1 }
    let s := (s.setThm { s.thm with hist := tabPut s.thm.hist n h }).put (R.THM_CH_STUCK n) (b2n stuck)
    if bad && !s.isBroken n then
      (((s.setThm { s.thm with broken := n :: s.thm.broken }).put (R.THM_CH_BROKEN n) 1).bump (R.THM_CNT_COUNT 4)).log 23 0 n 4 2 0 |>.raise Irq.THM_BROKEN
    else if s.isBroken n && decide (2048 ≤ h.valid) then
      ((s.setThm { s.thm with broken := s.thm.broken.filter (· ≠ n) }).put (R.THM_CH_BROKEN n) 0).log 23 0 n 0x8E 0 0
    else s.put (R.THM_CH_BROKEN n) (b2n (s.isBroken n))

/-! ### Thresholds (R446, R447) -/

/-- R446. WARN and THROTTLE as clamped: WARN ≤ THROTTLE ≤ SHUT − 6. -/
def State.thrThrottle (s : State) : Int := min (s.get R.THM_THR_THROTTLE : Int) ((s.get R.THM_SHUT_SHUT : Int) - 6)
/-- R446. WARN as clamped. -/
def State.thrWarn (s : State) : Int := min (s.get R.THM_THR_WARN : Int) s.thrThrottle
/-- HYST. -/
def State.thmHyst (s : State) : Int := s.get R.THM_THR_HYST
/-- SHUT in 1/8 °C. -/
def State.thmShut (s : State) : Int := 8 * (s.get R.THM_SHUT_SHUT : Int)

/-- R446, R449. The reading of a region in 1/8 °C, as warning and throttling take it: a broken die sensor reads THROTTLE + 10, a stack without
a valid reading 128 °C. -/
def State.region (s : State) (ch : Nat) : Option Int :=
  if ch < 40 then
    if !s.hasSensor ch then none
    else if s.isBroken ch then some (8 * (s.thrThrottle + 10)) else tabGet s.thm.vals ch
  else if s.watch.held.isSome then none
  else match tabGet s.thm.vals ch with
    | some v => some (8 * v)
    | none => some 1024

/-- The regions' readings. -/
def State.regionVals (s : State) : List Int := (List.range 44).filterMap s.region
/-- R447. T, the highest region reading. -/
def State.hottest (s : State) : Int := s.regionVals.foldl max (-8000)

/-- R447. The step falls while T, in 1/8 °C, lies at or below THROTTLE + (k − 1) − HYST. -/
def throttleDown (throttle hyst t : Int) : Nat → Nat
  | 0 => 0
  | k + 1 => if t ≤ 8 * (throttle + k - hyst) then throttleDown throttle hyst t k else k + 1

/-- R447. The throttle step after a round. -/
def throttleStep (throttle hyst t : Int) (k : Nat) : Nat :=
  let k := if 8 * throttle < t then max k (min 16 ((t - 8 * throttle + 7) / 8).toNat) else k
  throttleDown throttle hyst t k

/-- R446. Warning is entered or left. -/
def State.judgeWarn (s : State) : State :=
  let vs := s.regionVals
  if s.on R.THM_STAT_WARN then
    (if vs.all (fun v => decide (v ≤ 8 * (s.thrWarn - s.thmHyst))) then s.put R.THM_STAT_WARN 0 else s)
  else if vs.any (fun v => decide (8 * s.thrWarn < v)) then
    (((s.put R.THM_STAT_WARN 1).bump (R.THM_CNT_COUNT 1)).log 23 0 0 1 1 0).raise Irq.THM_WARN
  else s

/-- R519. Every crossing of 125 °C is logged as THM_WARN. -/
def State.judgeHot (s : State) : State :=
  let hot := decide (1000 < s.hottest)
  if hot = s.thm.hot then s else (s.setThm { s.thm with hot := hot }).log 23 0 0 1 1 125

/-- R447. The throttle step, the thermal ceiling and clk_now. -/
def State.judgeThrottle (s : State) : State :=
  let k := s.get R.THM_STAT_STEP
  let n := throttleStep s.thrThrottle s.thmHyst s.hottest k
  let s := ((s.put R.THM_STAT_STEP n).put R.THM_STAT_THROTTLE (b2n (decide (0 < n)))).put R.THM_STAT_FACTOR (100 - 5 * n)
  let s := (s.put R.THM_CEIL_THERM_MHZ (1600 * (100 - 5 * n) / 100)).clkUpdate
  let s := if k < n then (s.bump (R.THM_CNT_COUNT 3)).log 23 0 0 3 1 n else s
  if k = 0 ∧ 0 < n then (s.bump (R.THM_CNT_COUNT 2)).raise Irq.THM_THROTTLE else s

/-! ### Shutdown (R449–R452) -/

/-- R449. A broken sensor whose neighbours are all broken. -/
def State.isBlind (s : State) (n : Nat) : Bool := s.isBroken n && (s.neighbours n).all s.isBroken

/-- R449, R450. The shutdown that a round calls for: a valid region at SHUT or above, or a blind one. -/
def State.roundShut (s : State) : Option ShutDue :=
  match (List.range 44).find? (fun ch => decide (ch < 40 → !s.isBroken ch) && (match (if ch < 40 && !s.hasSensor ch then none else tabGet s.thm.vals ch) with
      | some v => decide (s.thmShut ≤ if ch < 40 then v else 8 * v)
      | none => false)) with
  | some ch => some ⟨1, ch, (tabGet s.thm.vals ch).getD 0⟩
  | none => match (List.range 40).find? (fun n => s.hasSensor n && s.isBlind n) with
    | some n => some ⟨3, n, (tabGet s.thm.vals n).getD 0⟩
    | none => none

/-- R450. A shutdown is called for, unless one is in force or already due. -/
def State.callShut (s : State) (d : Option ShutDue) : State :=
  if s.watch.trip || s.watch.shutDue.isSome || s.watch.down then s else s.setWatch { s.watch with shutDue := d }

/-- R451. Do all valid die sensors read SHUT − RESTART_MARGIN or below? -/
def State.allCool (s : State) : Bool :=
  (List.range 40).all (fun n => !s.hasSensor n || s.isBroken n || (match tabGet s.thm.vals n with
    | some v => decide (v ≤ s.thmShut - 8 * (s.get R.THM_SHUT_RESTART_MARGIN : Int))
    | none => true))

/-- R449, R451. Comparators re-arm whose sensors read SHUT − HYST or below. -/
def State.rearmComparators (s : State) : State :=
  s.setWatch { s.watch with
    tripped := s.watch.tripped.filter (fun n => match tabGet s.thm.vals n with
      | some v => decide (s.thmShut - 8 * s.thmHyst < v)
      | none => true)
    coolAt := if s.allCool then some (s.watch.coolAt.getD s.ticks) else none }

/-- R446–R451. THERMAL_ROUND: the end of a round, once its last channel has been read. -/
def execThermalRound (s : State) : Host.Outcome State Fault Refusal :=
  .next (
    if !s.thm.full then s
    else
    let s := foldRange 40 State.judgeSensor ((s.setThm { s.thm with full := false }).bump (R.THM_CNT_COUNT 0))
    let s := s.put R.THM_STAT_BROKEN (b2n (decide (s.thm.broken ≠ [])))
    let s := s.judgeWarn.judgeHot.judgeThrottle
    (s.callShut s.roundShut).rearmComparators)

/-- R449, R450. COMPARATOR_TRIP: the comparator of a die sensor trips, unless it is disarmed. -/
def execComparatorTrip (sensor : Nat) (s : State) : Host.Outcome State Fault Refusal :=
  .next (
    if !s.hasSensor sensor || s.isBroken sensor || s.watch.tripped.contains sensor then s
    else
      let s := (s.bump (R.THM_CNT_COUNT 6)).setWatch { s.watch with tripped := sensor :: s.watch.tripped }
      s.callShut (some ⟨2, sensor, (tabGet s.thm.vals sensor).getD 0⟩))

/-- R452. The shutdowns of the last 24 h of SP time, with this one. -/
def State.shutWindow (s : State) : List Nat := s.spNow :: s.watch.shuts.filter (fun t => decide (s.spNow < t + 86400000))

/-- R450, R452. SHUTDOWN: the Watch takes the shutdown that is due. `late`: its record is not written by 1.9 ms, so THERM_TRIP_N is asserted
first and the record follows, marked LATE. -/
def execShutdown (late : Bool) (s : State) : Host.Outcome State Fault Refusal :=
  .next (
    match s.watch.shutDue with
    | none => s
    | some d =>
      let shuts := s.shutWindow
      let s := (s.bump (R.THM_CNT_COUNT 5)).holdMain 4
      let s := s.setWatch { s.watch with shutDue := none, shuts := shuts, coolAt := none, trip := true }
      let s := ((s.put R.THM_SHSTAT_COUNT24 (min 3 shuts.length)).put R.THM_SHSTAT_CAUSE d.cause).put R.THM_SHSTAT_SENSOR d.sensor
      let data := [d.cause, d.sensor, ofInt 32 d.value, shuts.length]
      let s : State := if late then { s with ledgerReq := { cls := 0x02, flags := 1, data := data } :: s.ledgerReq } else s.ledgerWrite 0x02 0 data
      let s := s.railsDrop 0
      if 3 ≤ shuts.length && !s.on R.THM_SHSTAT_LATCHED_OFF then (s.put R.THM_SHSTAT_LATCHED_OFF 1).ledgerAsk 0x04 [shuts.length] else s)

/-- R451. THERMAL_RELEASE: the sensors have stayed low enough for RESTART_S, and THERM_TRIP_N is deasserted. -/
def execThermalRelease (s : State) : Host.Outcome State Fault Refusal :=
  .next (
    match s.watch.coolAt with
    | none => s
    | some t =>
      if !s.watch.trip || s.on R.THM_SHSTAT_LATCHED_OFF || decide (tickUs t s.ticks < s.get R.THM_SHUT_RESTART_S * 1000000) then s
      else ((s.setWatch { s.watch with trip := false }).bump (R.THM_CNT_COUNT 7)).ledgerAsk 0x03 [s.get R.THM_SHSTAT_COUNT24])

end Sys2Proof.Machine
end

