-- ==== Sys2Proof/Machine/Dispatch.lean ====
section
/-! DEFINITION. The dispatcher: one arm per command of the table, each a direct call of its meaning. -/
namespace Sys2Proof.Machine

/-- The effect of a command on everything but the queue. -/
def exec (i : Instr) (s : State) : Host.Outcome State Fault Refusal :=
  match i with
  | .registerWrite who bar addr value => Sys2Proof.Machine.execRegisterWrite who bar addr value s
  | .rcRead who bar addr => Sys2Proof.Machine.execRcRead who bar addr s
  | .bar0BadAccess off write => Sys2Proof.Machine.execBar0BadAccess off write s
  | .barAtomicRequest bar off => Sys2Proof.Machine.execBarAtomicRequest bar off s
  | .bar2Read off n => Sys2Proof.Machine.execBar2Read off n s
  | .bar2Write off bytes => Sys2Proof.Machine.execBar2Write off bytes s
  | .snap block => Sys2Proof.Machine.execSnap block s
  | .snapshotLatchComplete block => Sys2Proof.Machine.execSnapshotLatchComplete block s
  | .openStream ring => Sys2Proof.Machine.execOpenStream ring s
  | .frame ring rdir => Sys2Proof.Machine.execFrame ring rdir s
  | .closeStream ring => Sys2Proof.Machine.execCloseStream ring s
  | .bindRaymap ring => Sys2Proof.Machine.execBindRaymap ring s
  | .badop ring => Sys2Proof.Machine.execBadop ring s
  | .rissue t d p => Sys2Proof.Machine.execRissue t d p s
  | .rmapFault hamlet => Sys2Proof.Machine.execRmapFault hamlet s
  | .issueWfault hamlet => Sys2Proof.Machine.execIssueWfault hamlet s
  | .tileBandComplete work tile band => Sys2Proof.Machine.execTileBandComplete work tile band s
  | .sweep t f => Sys2Proof.Machine.execSweep t f s
  | .sample t f => Sys2Proof.Machine.execSample t f s
  | .dhint t f => Sys2Proof.Machine.execDhint t f s
  | .firstTouch hamlet => Sys2Proof.Machine.execFirstTouch hamlet s
  | .stripDecoded hamlet which => Sys2Proof.Machine.execStripDecoded hamlet which s
  | .caddyInvAll => Sys2Proof.Machine.execCaddyInvAll s
  | .caddyInvStream slot => Sys2Proof.Machine.execCaddyInvStream slot s
  | .caddyInvComplete => Sys2Proof.Machine.execCaddyInvComplete s
  | .densityRecord => Sys2Proof.Machine.execDensityRecord s
  | .iadd t f => Sys2Proof.Machine.execIadd t f s
  | .isub t f => Sys2Proof.Machine.execIsub t f s
  | .imul t f => Sys2Proof.Machine.execImul t f s
  | .imulhi t f => Sys2Proof.Machine.execImulhi t f s
  | .umulhi t f => Sys2Proof.Machine.execUmulhi t f s
  | .imad t f => Sys2Proof.Machine.execImad t f s
  | .imin t f => Sys2Proof.Machine.execImin t f s
  | .imax t f => Sys2Proof.Machine.execImax t f s
  | .umin t f => Sys2Proof.Machine.execUmin t f s
  | .umax t f => Sys2Proof.Machine.execUmax t f s
  | .iabs t f => Sys2Proof.Machine.execIabs t f s
  | .andOp t f => Sys2Proof.Machine.execAndOp t f s
  | .orOp t f => Sys2Proof.Machine.execOrOp t f s
  | .xorOp t f => Sys2Proof.Machine.execXorOp t f s
  | .andn t f => Sys2Proof.Machine.execAndn t f s
  | .shl t f => Sys2Proof.Machine.execShl t f s
  | .shr t f => Sys2Proof.Machine.execShr t f s
  | .sar t f => Sys2Proof.Machine.execSar t f s
  | .popc t f => Sys2Proof.Machine.execPopc t f s
  | .clz t f => Sys2Proof.Machine.execClz t f s
  | .bfe t f => Sys2Proof.Machine.execBfe t f s
  | .bfi t f => Sys2Proof.Machine.execBfi t f s
  | .fadd t f => Sys2Proof.Machine.execFadd t f s
  | .fsub t f => Sys2Proof.Machine.execFsub t f s
  | .fmul t f => Sys2Proof.Machine.execFmul t f s
  | .ffma t f => Sys2Proof.Machine.execFfma t f s
  | .fmin t f => Sys2Proof.Machine.execFmin t f s
  | .fmax t f => Sys2Proof.Machine.execFmax t f s
  | .fabs t f => Sys2Proof.Machine.execFabs t f s
  | .fneg t f => Sys2Proof.Machine.execFneg t f s
  | .hadd2 t f => Sys2Proof.Machine.execHadd2 t f s
  | .hmul2 t f => Sys2Proof.Machine.execHmul2 t f s
  | .hfma2 t f => Sys2Proof.Machine.execHfma2 t f s
  | .hmin2 t f => Sys2Proof.Machine.execHmin2 t f s
  | .hmax2 t f => Sys2Proof.Machine.execHmax2 t f s
  | .frcp t f => Sys2Proof.Machine.execFrcp t f s
  | .frsq t f => Sys2Proof.Machine.execFrsq t f s
  | .fsqrt t f => Sys2Proof.Machine.execFsqrt t f s
  | .fdiv t f => Sys2Proof.Machine.execFdiv t f s
  | .fexp2 t f => Sys2Proof.Machine.execFexp2 t f s
  | .flog2 t f => Sys2Proof.Machine.execFlog2 t f s
  | .fsin t f => Sys2Proof.Machine.execFsin t f s
  | .fcos t f => Sys2Proof.Machine.execFcos t f s
  | .f2i t f => Sys2Proof.Machine.execF2i t f s
  | .f2u t f => Sys2Proof.Machine.execF2u t f s
  | .i2f t f => Sys2Proof.Machine.execI2f t f s
  | .u2f t f => Sys2Proof.Machine.execU2f t f s
  | .f2h2 t f => Sys2Proof.Machine.execF2h2 t f s
  | .h2fl t f => Sys2Proof.Machine.execH2fl t f s
  | .h2fh t f => Sys2Proof.Machine.execH2fh t f s
  | .f2un10 t f => Sys2Proof.Machine.execF2un10 t f s
  | .pk30 t f => Sys2Proof.Machine.execPk30 t f s
  | .icmp t f => Sys2Proof.Machine.execIcmp t f s
  | .ucmp t f => Sys2Proof.Machine.execUcmp t f s
  | .fcmp t f => Sys2Proof.Machine.execFcmp t f s
  | .pand t f => Sys2Proof.Machine.execPand t f s
  | .por t f => Sys2Proof.Machine.execPor t f s
  | .pxor t f => Sys2Proof.Machine.execPxor t f s
  | .pandn t f => Sys2Proof.Machine.execPandn t f s
  | .pcnt t f => Sys2Proof.Machine.execPcnt t f s
  | .ptos t f => Sys2Proof.Machine.execPtos t f s
  | .stop t f => Sys2Proof.Machine.execStop t f s
  | .mov t f => Sys2Proof.Machine.execMov t f s
  | .sel t f => Sys2Proof.Machine.execSel t f s
  | .lanerd t f => Sys2Proof.Machine.execLanerd t f s
  | .shfl t f => Sys2Proof.Machine.execShfl t f s
  | .movi t f => Sys2Proof.Machine.execMovi t f s
  | .movhi t f => Sys2Proof.Machine.execMovhi t f s
  | .iaddi t f => Sys2Proof.Machine.execIaddi t f s
  | .andi t f => Sys2Proof.Machine.execAndi t f s
  | .ori t f => Sys2Proof.Machine.execOri t f s
  | .xori t f => Sys2Proof.Machine.execXori t f s
  | .shli t f => Sys2Proof.Machine.execShli t f s
  | .shri t f => Sys2Proof.Machine.execShri t f s
  | .sari t f => Sys2Proof.Machine.execSari t f s
  | .ldl t f => Sys2Proof.Machine.execLdl t f s
  | .stl t f => Sys2Proof.Machine.execStl t f s
  | .ldg t f => Sys2Proof.Machine.execLdg t f s
  | .stg t f => Sys2Proof.Machine.execStg t f s
  | .ldc t f => Sys2Proof.Machine.execLdc t f s
  | .atl t f => Sys2Proof.Machine.execAtl t f s
  | .atg t f => Sys2Proof.Machine.execAtg t f s
  | .casl t f => Sys2Proof.Machine.execCasl t f s
  | .casg t f => Sys2Proof.Machine.execCasg t f s
  | .globalLoadReturn t which => Sys2Proof.Machine.execGlobalLoadReturn t which s
  | .branch t f => Sys2Proof.Machine.execBranch t f s
  | .brx t f => Sys2Proof.Machine.execBrx t f s
  | .call t f => Sys2Proof.Machine.execCall t f s
  | .callx t f => Sys2Proof.Machine.execCallx t f s
  | .nop t => Sys2Proof.Machine.execNop t s
  | .endThread t => Sys2Proof.Machine.execEndThread t s
  | .breakThread t => Sys2Proof.Machine.execBreakThread t s
  | .fenceL t => Sys2Proof.Machine.execFenceL t s
  | .fenceG t => Sys2Proof.Machine.execFenceG t s
  | .fenceS t => Sys2Proof.Machine.execFenceS t s
  | .barE t => Sys2Proof.Machine.execBarE t s
  | .barH t n count => Sys2Proof.Machine.execBarH t n count s
  | .movsr t pred neg d selr v => Sys2Proof.Machine.execMovsr t pred neg d selr v s
  | .illegalInstruction t word => Sys2Proof.Machine.execIllegalInstruction t word s
  | .launch t d a => Sys2Proof.Machine.execLaunch t d a s
  | .preempt t a => Sys2Proof.Machine.execPreempt t a s
  | .restore t a => Sys2Proof.Machine.execRestore t a s
  | .resumeThread t a b => Sys2Proof.Machine.execResumeThread t a b s
  | .kill t a b => Sys2Proof.Machine.execKill t a b s
  | .abort t a => Sys2Proof.Machine.execAbort t a s
  | .waitev t d nb => Sys2Proof.Machine.execWaitev t d nb s
  | .stewardEvent core => Sys2Proof.Machine.execStewardEvent core s
  | .launchStart handle tgt => Sys2Proof.Machine.execLaunchStart handle tgt s
  | .launchComplete handle => Sys2Proof.Machine.execLaunchComplete handle s
  | .threadFault t cause lanes addr => Sys2Proof.Machine.execThreadFault t cause lanes addr s
  | .stewardFault core => Sys2Proof.Machine.execStewardFault core s
  | .hamletSave hamlet => Sys2Proof.Machine.execHamletSave hamlet s
  | .saveComplete hamlet => Sys2Proof.Machine.execSaveComplete hamlet s
  | .hamletRestore hamlet => Sys2Proof.Machine.execHamletRestore hamlet s
  | .engineEccError hamlet phys store uncorrected slot => Sys2Proof.Machine.execEngineEccError hamlet phys store uncorrected slot s
  | .engineSubstitution hamlet logical => Sys2Proof.Machine.execEngineSubstitution hamlet logical s
  | .substitutionComplete hamlet => Sys2Proof.Machine.execSubstitutionComplete hamlet s
  | .spareBistPass hamlet ok => Sys2Proof.Machine.execSpareBistPass hamlet ok s
  | .dramReadRequest pa mask client => Sys2Proof.Machine.execDramReadRequest pa mask client s
  | .dramWriteRequest pa mask bytes client => Sys2Proof.Machine.execDramWriteRequest pa mask bytes client s
  | .dramAtomic pa aop wide arg ecc => Sys2Proof.Machine.execDramAtomic pa aop wide arg ecc s
  | .dramCommandIssue chan ecc => Sys2Proof.Machine.execDramCommandIssue chan ecc s
  | .dramReadData ctrl ecc place => Sys2Proof.Machine.execDramReadData ctrl ecc place s
  | .refreshDue ctrl pc bank => Sys2Proof.Machine.execRefreshDue ctrl pc bank s
  | .scrubRead ecc place => Sys2Proof.Machine.execScrubRead ecc place s
  | .retrainDue ctrl => Sys2Proof.Machine.execRetrainDue ctrl s
  | .retrainSlot chan rd wr move laneOk badSpare => Sys2Proof.Machine.execRetrainSlot chan rd wr move laneOk badSpare s
  | .retrainNow => Sys2Proof.Machine.execRetrainNow s
  | .mapLock => Sys2Proof.Machine.execMapLock s
  | .speedGo req camWait => Sys2Proof.Machine.execSpeedGo req camWait s
  | .speedChangeStart => Sys2Proof.Machine.execSpeedChangeStart s
  | .speedChangeDone => Sys2Proof.Machine.execSpeedChangeDone s
  | .speedChangeTimeout => Sys2Proof.Machine.execSpeedChangeTimeout s
  | .laneRepair ctrl pc lane margin => Sys2Proof.Machine.execLaneRepair ctrl pc lane margin s
  | .initialTrainingDone => Sys2Proof.Machine.execInitialTrainingDone s
  | .translationRequest client ctx va acc => Sys2Proof.Machine.execTranslationRequest client ctx va acc s
  | .walkComplete which => Sys2Proof.Machine.execWalkComplete which s
  | .translationFault client id ctx va acc cls cause => Sys2Proof.Machine.execTranslationFault client id ctx va acc cls cause s
  | .logWindowClose which => Sys2Proof.Machine.execLogWindowClose which s
  | .invalidate port ctx scope => Sys2Proof.Machine.execInvalidate port ctx scope s
  | .invalidationDone port => Sys2Proof.Machine.execInvalidationDone port s
  | .lock0 => Sys2Proof.Machine.execLock0 s
  | .dmaCopy engine ring n => Sys2Proof.Machine.execDmaCopy engine ring n s
  | .dmaFill engine ring n => Sys2Proof.Machine.execDmaFill engine ring n s
  | .dmaDescriptorComplete engine ring => Sys2Proof.Machine.execDmaDescriptorComplete engine ring s
  | .dmaResume engine ring => Sys2Proof.Machine.execDmaResume engine ring s
  | .dmaSkip engine ring => Sys2Proof.Machine.execDmaSkip engine ring s
  | .dmaPause engine ring on => Sys2Proof.Machine.execDmaPause engine ring on s
  | .pack => Sys2Proof.Machine.execPack s
  | .unpack => Sys2Proof.Machine.execUnpack s
  | .packerJobComplete => Sys2Proof.Machine.execPackerJobComplete s
  | .packerPause en hold => Sys2Proof.Machine.execPackerPause en hold s
  | .bltFill n => Sys2Proof.Machine.execBltFill n s
  | .bltCopy n => Sys2Proof.Machine.execBltCopy n s
  | .bltConvert n => Sys2Proof.Machine.execBltConvert n s
  | .bltFence => Sys2Proof.Machine.execBltFence s
  | .bltWait => Sys2Proof.Machine.execBltWait s
  | .bltWaitComplete => Sys2Proof.Machine.execBltWaitComplete s
  | .bltWm => Sys2Proof.Machine.execBltWm s
  | .bltRecordComplete => Sys2Proof.Machine.execBltRecordComplete s
  | .bltResume => Sys2Proof.Machine.execBltResume s
  | .bltSkip => Sys2Proof.Machine.execBltSkip s
  | .bltPause en hold => Sys2Proof.Machine.execBltPause en hold s
  | .commit => Sys2Proof.Machine.execCommit s
  | .commitPoint => Sys2Proof.Machine.execCommitPoint s
  | .shWriteDrop addr value => Sys2Proof.Machine.execShWriteDrop addr value s
  | .frameStart => Sys2Proof.Machine.execFrameStart s
  | .scanoutLine late => Sys2Proof.Machine.execScanoutLine late s
  | .watermarkLine tile => Sys2Proof.Machine.execWatermarkLine tile s
  | .vblank => Sys2Proof.Machine.execVblank s
  | .layerFetchFault tile layer kind => Sys2Proof.Machine.execLayerFetchFault tile layer kind s
  | .maxFrameRepeat => Sys2Proof.Machine.execMaxFrameRepeat s
  | .genlockEdge falling => Sys2Proof.Machine.execGenlockEdge falling s
  | .frameClockEdge => Sys2Proof.Machine.execFrameClockEdge s
  | .holdoverStart => Sys2Proof.Machine.execHoldoverStart s
  | .sequencerFault => Sys2Proof.Machine.execSequencerFault s
  | .switchover ok => Sys2Proof.Machine.execSwitchover ok s
  | .sequencerReturn same => Sys2Proof.Machine.execSequencerReturn same s
  | .forceB force => Sys2Proof.Machine.execForceB force s
  | .scanoutEnable en => Sys2Proof.Machine.execScanoutEnable en s
  | .wake => Sys2Proof.Machine.execWake s
  | .align place => Sys2Proof.Machine.execAlign place s
  | .bcBlockLock tile blocks => Sys2Proof.Machine.execBcBlockLock tile blocks s
  | .bcLoss tile => Sys2Proof.Machine.execBcLoss tile s
  | .laneStat tile d => Sys2Proof.Machine.execLaneStat tile d s
  | .shadow tile d => Sys2Proof.Machine.execShadow tile d s
  | .tileStatus tile d => Sys2Proof.Machine.execTileStatus tile d s
  | .holdAck tile d => Sys2Proof.Machine.execHoldAck tile d s
  | .shadowRotation tile => Sys2Proof.Machine.execShadowRotation tile s
  | .wylSubstitution tile => Sys2Proof.Machine.execWylSubstitution tile s
  | .qualificationEnd tile => Sys2Proof.Machine.execQualificationEnd tile s
  | .subReq tile lane => Sys2Proof.Machine.execSubReq tile lane s
  | .retrain tile => Sys2Proof.Machine.execRetrain tile s
  | .portUp tile => Sys2Proof.Machine.execPortUp tile s
  | .portTrainTimeout tile => Sys2Proof.Machine.execPortTrainTimeout tile s
  | .portTrainRetry tile => Sys2Proof.Machine.execPortTrainRetry tile s
  | .statusReq tile req tag => Sys2Proof.Machine.execStatusReq tile req tag s
  | .pnlPowerRequest on holdFirst => Sys2Proof.Machine.execPnlPowerRequest on holdFirst s
  | .railStep => Sys2Proof.Machine.execRailStep s
  | .pnlPgoodRise rail => Sys2Proof.Machine.execPnlPgoodRise rail s
  | .railFault rail timeout => Sys2Proof.Machine.execRailFault rail timeout s
  | .holdWrite => Sys2Proof.Machine.execHoldWrite s
  | .holdBegin => Sys2Proof.Machine.execHoldBegin s
  | .holdAckTimeout => Sys2Proof.Machine.execHoldAckTimeout s
  | .holdFirstTimeout => Sys2Proof.Machine.execHoldFirstTimeout s
  | .regionRequest y0 h tile x0g wg => Sys2Proof.Machine.execRegionRequest y0 h tile x0g wg s
  | .bklTransferComplete chain status => Sys2Proof.Machine.execBklTransferComplete chain status s
  | .bklFreeRunFrame => Sys2Proof.Machine.execBklFreeRunFrame s
  | .discover chEn disc => Sys2Proof.Machine.execDiscover chEn disc s
  | .discoveryEnd chain drivers => Sys2Proof.Machine.execDiscoveryEnd chain drivers s
  | .chainRediscover chain => Sys2Proof.Machine.execChainRediscover chain s
  | .lampOut chain => Sys2Proof.Machine.execLampOut chain s
  | .frameStartPacket port lane0 lanes corr => Sys2Proof.Machine.execFrameStartPacket port lane0 lanes corr s
  | .frameEndPacket port lanes corr => Sys2Proof.Machine.execFrameEndPacket port lanes corr s
  | .longPacket port lane0 lane1 lane2 lane3 corr => Sys2Proof.Machine.execLongPacket port lane0 lane1 lane2 lane3 corr s
  | .ignoredShortPacket port lanes corr => Sys2Proof.Machine.execIgnoredShortPacket port lanes corr s
  | .headerEccError port => Sys2Proof.Machine.execHeaderEccError port s
  | .ispLineDone pipe => Sys2Proof.Machine.execIspLineDone pipe s
  | .camSetOpen => Sys2Proof.Machine.execCamSetOpen s
  | .camSetClose => Sys2Proof.Machine.execCamSetClose s
  | .camEnable en => Sys2Proof.Machine.execCamEnable en s
  | .exposureRequest token => Sys2Proof.Machine.execExposureRequest token s
  | .cciRequestStart slot => Sys2Proof.Machine.execCciRequestStart slot s
  | .cciRequestComplete ctrl failAt reads => Sys2Proof.Machine.execCciRequestComplete ctrl failAt reads s
  | .txFrame port => Sys2Proof.Machine.execTxFrame port s
  | .txTimestampWriteback port => Sys2Proof.Machine.execTxTimestampWriteback port s
  | .rxFrame port bytes fcsOk fec => Sys2Proof.Machine.execRxFrame port bytes fcsOk fec s
  | .ethLinkChange port seen => Sys2Proof.Machine.execEthLinkChange port seen s
  | .offsetGo frac epoch => Sys2Proof.Machine.execOffsetGo frac epoch s
  | .ptpHoldover => Sys2Proof.Machine.execPtpHoldover s
  | .stepGo who absolute => Sys2Proof.Machine.execStepGo who absolute s
  | .stepApply => Sys2Proof.Machine.execStepApply s
  | .ppsInEdge => Sys2Proof.Machine.execPpsInEdge s
  | .ppsOutRise => Sys2Proof.Machine.execPpsOutRise s
  | .ppsOutFall => Sys2Proof.Machine.execPpsOutFall s
  | .ptpTimerFire n => Sys2Proof.Machine.execPtpTimerFire n s
  | .doorbell ring tail => Sys2Proof.Machine.execDoorbell ring tail s
  | .deviceDoorbell n value => Sys2Proof.Machine.execDeviceDoorbell n value s
  | .workCompletion ring => Sys2Proof.Machine.execWorkCompletion ring s
  | .cqhWrite ring cqh => Sys2Proof.Machine.execCqhWrite ring cqh s
  | .workRingHalt ring cause => Sys2Proof.Machine.execWorkRingHalt ring cause s
  | .msixMessage vector => Sys2Proof.Machine.execMsixMessage vector s
  | .intCauseClear group mask => Sys2Proof.Machine.execIntCauseClear group mask s
  | .hostWindowError off kind => Sys2Proof.Machine.execHostWindowError off kind s
  | .endpointReset kind => Sys2Proof.Machine.execEndpointReset kind s
  | .pcieLinkUp speed seen => Sys2Proof.Machine.execPcieLinkUp speed seen s
  | .targetedSelfTest hamlet pass => Sys2Proof.Machine.execTargetedSelfTest hamlet pass s
  | .healthReport => Sys2Proof.Machine.execHealthReport s
  | .clear => Sys2Proof.Machine.execClear s
  | .replicaSample slacks degr => Sys2Proof.Machine.execReplicaSample slacks degr s
  | .planEvaluate => Sys2Proof.Machine.execPlanEvaluate s
  | .avsReadback mv => Sys2Proof.Machine.execAvsReadback mv s
  | .daily => Sys2Proof.Machine.execDaily s
  | .poh => Sys2Proof.Machine.execPoh s
  | .laneAdapt tile clean mv ui preset => Sys2Proof.Machine.execLaneAdapt tile clean mv ui preset s
  | .dphySkew port lane taps => Sys2Proof.Machine.execDphySkew port lane taps s
  | .tsenseTrim sensor ofs => Sys2Proof.Machine.execTsenseTrim sensor ofs s
  | .bklTrim chain driver str trim dev => Sys2Proof.Machine.execBklTrim chain driver str trim dev s
  | .termTrim term ohms => Sys2Proof.Machine.execTermTrim term ohms s
  | .selftest pass => Sys2Proof.Machine.execSelftest pass s
  | .engRotate hamlet => Sys2Proof.Machine.execEngRotate hamlet s
  | .calRequest task block inst => Sys2Proof.Machine.execCalRequest task block inst s
  | .calRequestDone rid pass => Sys2Proof.Machine.execCalRequestDone rid pass s
  | .calForceExpiry rid => Sys2Proof.Machine.execCalForceExpiry rid s
  | .hkChannelRead raw code => Sys2Proof.Machine.execHkChannelRead raw code s
  | .thermalRound => Sys2Proof.Machine.execThermalRound s
  | .comparatorTrip sensor => Sys2Proof.Machine.execComparatorTrip sensor s
  | .shutdown late => Sys2Proof.Machine.execShutdown late s
  | .thermalRelease => Sys2Proof.Machine.execThermalRelease s
  | .watchFault cause => Sys2Proof.Machine.execWatchFault cause s
  | .dipStart mv => Sys2Proof.Machine.execDipStart mv s
  | .dipEnd => Sys2Proof.Machine.execDipEnd s
  | .brownout mv => Sys2Proof.Machine.execBrownout mv s
  | .brownoutRelease => Sys2Proof.Machine.execBrownoutRelease s
  | .refclkLoss ref => Sys2Proof.Machine.execRefclkLoss ref s
  | .secGo op len => Sys2Proof.Machine.execSecGo op len s
  | .cfgUpdate => Sys2Proof.Machine.execCfgUpdate s
  | .attest => Sys2Proof.Machine.execAttest s
  | .ledgerRead => Sys2Proof.Machine.execLedgerRead s
  | .spvDone => Sys2Proof.Machine.execSpvDone s
  | .creditGain => Sys2Proof.Machine.execCreditGain s
  | .ledgerRecord => Sys2Proof.Machine.execLedgerRecord s
  | .sectorCompaction => Sys2Proof.Machine.execSectorCompaction s
  | .coldStart => Sys2Proof.Machine.execColdStart s
  | .porstN asserted => Sys2Proof.Machine.execPorstN asserted s
  | .wrstN asserted => Sys2Proof.Machine.execWrstN asserted s
  | .warm conf => Sys2Proof.Machine.execWarm conf s
  | .mainRelease mv => Sys2Proof.Machine.execMainRelease mv s
  | .bootStageDone => Sys2Proof.Machine.execBootStageDone s
  | .program slot => Sys2Proof.Machine.execProgram slot s
  | .programDone ok => Sys2Proof.Machine.execProgramDone ok s
  | .prepare slot => Sys2Proof.Machine.execPrepare slot s
  | .activateLive force => Sys2Proof.Machine.execActivateLive force s
  | .liveSwitchHalt => Sys2Proof.Machine.execLiveSwitchHalt s
  | .activateRestart slot => Sys2Proof.Machine.execActivateRestart slot s
  | .confirm => Sys2Proof.Machine.execConfirm s
  | .fwuAbort => Sys2Proof.Machine.execFwuAbort s
  | .alive => Sys2Proof.Machine.execAlive s
  | .aliveTimeout => Sys2Proof.Machine.execAliveTimeout s
  | .gpioOutSet mask => Sys2Proof.Machine.execGpioOutSet mask s
  | .gpioOutClr mask => Sys2Proof.Machine.execGpioOutClr mask s
  | .gpioEdge pin up => Sys2Proof.Machine.execGpioEdge pin up s
  | .watchReset => Sys2Proof.Machine.execWatchReset s
  | .refclkReturn ref => Sys2Proof.Machine.execRefclkReturn ref s
  | .supplyQualification begins mv => Sys2Proof.Machine.execSupplyQualification begins mv s
  | .sequencerSelfTest pass => Sys2Proof.Machine.execSequencerSelfTest pass s
  | .sequencerBFault => Sys2Proof.Machine.execSequencerBFault s
  | .restoreComplete hamlet => Sys2Proof.Machine.execRestoreComplete hamlet s
  | .prepareDone => Sys2Proof.Machine.execPrepareDone s
  | .frameStepTimer => Sys2Proof.Machine.execFrameStepTimer s
  | .bcHdrErr tile => Sys2Proof.Machine.execBcHdrErr tile s
  | .hsSyncError port => Sys2Proof.Machine.execHsSyncError port s
  | .testAccessPort tms tdi trst => Sys2Proof.Machine.execTestAccessPort tms tdi trst s
  | .workRingEn ring en => Sys2Proof.Machine.execWorkRingEn ring en s
  | .camSetmaskWrite ctl value => Sys2Proof.Machine.execCamSetmaskWrite ctl value s
  | .portEnable tile en portEn => Sys2Proof.Machine.execPortEnable tile en portEn s
  | .dctlAutoSet => Sys2Proof.Machine.execDctlAutoSet s
  | .holdReportTimeout tile => Sys2Proof.Machine.execHoldReportTimeout tile s

end Sys2Proof.Machine
end

