-- ==== Sys2Proof/Machine/Tick.lean ====
section
/-! DEFINITION. The passage of time: what one tick of the PTP counter's clock changes (assumption 3). -/
namespace Sys2Proof.Machine

/-- R447, R458. The CORE cycles of a tick in units of 1/20,625 of a cycle: at clk_now, or half of it in a supply-dip episode. -/
def State.coreRate (s : State) : Nat := s.get R.THM_CEIL_CLK_NOW * (if s.watch.dip.isSome then 32 else 64)

/-- R447, R458. The CORE cycle counters of the hamlets advance by one tick. -/
def State.coreTick (s : State) : State :=
  foldRange s.member.hamlets (fun s h => s.setHamlet h { s.hamlet h with clkAcc := (s.hamlet h).clkAcc + s.coreRate }) s

/-- R131, R134. STW_EVCNT counts the STW cycles of a tick, `n`, for every core whose event queue is full. -/
def State.fullTick (s : State) (n : Nat) : State :=
  foldRange 8 (fun s c => if (s.stw c).evq.length < 256 then s else s.bumpBy (R.STW_EVCNT_COUNT c) n) s

/-- R379, R476, R493, R514. One tick passes: the model's time base goes on; while the main domain runs so do the CORE counters, the PTP counter
unless ETH_REFCLK is lost, and GLB_UPTIME. -/
def State.tick (s : State) : State :=
  let cycles := s.stwClk
  let s : State := { s with ticks := s.ticks + 1 }
  if s.watch.held.isSome then s
  else
    let s := s.coreTick.fullTick (s.stwClk - cycles)
    let s := if s.watch.lost.contains 2 then s else s.ptpTick
    s.put R.GLB_UPTIME_MS (tickUs s.watch.releasedAt s.ticks / 1000)

end Sys2Proof.Machine
end

