-- ==== Sys2Proof/WellFormed.lean ====
section
/-! DEFINITION. Which commands are well formed: every operand lies in the range that the spec gives it. -/
namespace Sys2Proof

/-- A steward core number is 0–7. -/
def Who.wf : Who → Bool
  | .host => true
  | .steward c => decide (c < 8)
  | .watch => true

/-- A DMA engine is 0–15 and its ring 0–2 (R360). -/
def Client.wf : Client → Bool
  | .dma engine ring => decide (engine < 16) && decide (ring < 3)
  | _ => true

/-- A bit of a 64-bit word, and one of the four words of a granule (R336). -/
def Ecc.wf : Ecc → Bool
  | .single lane word => decide (lane < 64) && decide (word < 4)
  | _ => true

/-- The same of the place of a single-bit error. -/
def EccPlace.wf (p : EccPlace) : Bool := decide (p.lane < 64) && decide (p.word < 4)

/-- A controller and one of its two pseudo-channels (R324). -/
def Chan.wf (c : Chan) : Bool := decide (c.ctrl < 64) && decide (c.pc < 2)

/-- EID 0–255 and slot 0–3 (R96, R100); core 0–7 (R129). -/
def Thr.wf : Thr → Bool
  | .eng e t => decide (e < 256) && decide (t < 4)
  | .stw c => decide (c < 8)
  | .watch => true

/-- Every field fits its bits (R136, R139). -/
def FmtA.wf (f : FmtA) : Bool :=
  decide (f.pred < 8) && decide (f.d < 64) && decide (f.a < 64) && decide (f.b < 64) && decide (f.rc < 64) && decide (f.mod < 8)

/-- Every field fits its bits (R136, R139). -/
def FmtI.wf (f : FmtI) : Bool :=
  decide (f.pred < 8) && decide (f.d < 64) && decide (f.a < 64) && decide (f.ik < 4) && decide (f.imm < 4294967296)

/-- Every field fits its bits (R136, R139). -/
def FmtM.wf (f : FmtM) : Bool :=
  decide (f.pred < 8) && decide (f.d < 64) && decide (f.a < 64) && decide (f.idx < 64) && decide (f.size < 4) &&
  decide (f.scale < 4) && decide (f.aop < 8) && decide (f.off < 16777216)

/-- Every field fits its bits (R136, R139). -/
def FmtB.wf (f : FmtB) : Bool :=
  decide (f.pred < 8) && decide (f.d < 64) && decide (f.a < 64) && decide (f.disp < 1073741824)

/-- Every field fits its bits (R136, R139). -/
def FmtX.wf (f : FmtX) : Bool :=
  decide (f.pred < 8) && decide (f.d < 64) && decide (f.a < 64) && decide (f.b < 64) && decide (f.filt < 4) &&
  decide (f.index < 64) && decide (f.pl < 65536)


/-- The well-formed commands: every index lies in the range that the spec gives it. -/
def Instr.wf : Instr → Bool
  | .registerWrite who bar _ value => who.wf && decide (bar < 3) && decide (value < 4294967296)
  | .rcRead who bar addr => who.wf && decide (bar < 2) && decide (addr < 33554432)
  | .bar0BadAccess off _ => decide (off < 33554432)
  | .barAtomicRequest bar _ => decide (bar < 3)
  | .bar2Read _ _ => true
  | .bar2Write _ _ => true
  | .snap block => decide (block < 27)
  | .snapshotLatchComplete block => decide (block < 27)
  | .openStream ring => decide (ring < 32)
  | .frame ring _ => decide (ring < 32)
  | .closeStream ring => decide (ring < 32)
  | .bindRaymap ring => decide (ring < 32)
  | .badop ring => decide (ring < 32)
  | .rissue t d p => t.wf && decide (d < 64) && decide (p < 8)
  | .rmapFault hamlet => decide (hamlet < 16)
  | .issueWfault hamlet => decide (hamlet < 16)
  | .tileBandComplete _ tile band => decide (tile < 64) && decide (band < 64)
  | .sweep t f => t.wf && f.wf
  | .sample t f => t.wf && f.wf
  | .dhint t f => t.wf && f.wf
  | .firstTouch hamlet => decide (hamlet < 16)
  | .stripDecoded hamlet _ => decide (hamlet < 16)
  | .caddyInvAll => true
  | .caddyInvStream slot => decide (slot < 16)
  | .caddyInvComplete => true
  | .densityRecord => true
  | .iadd t f => t.wf && f.wf
  | .isub t f => t.wf && f.wf
  | .imul t f => t.wf && f.wf
  | .imulhi t f => t.wf && f.wf
  | .umulhi t f => t.wf && f.wf
  | .imad t f => t.wf && f.wf
  | .imin t f => t.wf && f.wf
  | .imax t f => t.wf && f.wf
  | .umin t f => t.wf && f.wf
  | .umax t f => t.wf && f.wf
  | .iabs t f => t.wf && f.wf
  | .andOp t f => t.wf && f.wf
  | .orOp t f => t.wf && f.wf
  | .xorOp t f => t.wf && f.wf
  | .andn t f => t.wf && f.wf
  | .shl t f => t.wf && f.wf
  | .shr t f => t.wf && f.wf
  | .sar t f => t.wf && f.wf
  | .popc t f => t.wf && f.wf
  | .clz t f => t.wf && f.wf
  | .bfe t f => t.wf && f.wf
  | .bfi t f => t.wf && f.wf
  | .fadd t f => t.wf && f.wf
  | .fsub t f => t.wf && f.wf
  | .fmul t f => t.wf && f.wf
  | .ffma t f => t.wf && f.wf
  | .fmin t f => t.wf && f.wf
  | .fmax t f => t.wf && f.wf
  | .fabs t f => t.wf && f.wf
  | .fneg t f => t.wf && f.wf
  | .hadd2 t f => t.wf && f.wf
  | .hmul2 t f => t.wf && f.wf
  | .hfma2 t f => t.wf && f.wf
  | .hmin2 t f => t.wf && f.wf
  | .hmax2 t f => t.wf && f.wf
  | .frcp t f => t.wf && f.wf
  | .frsq t f => t.wf && f.wf
  | .fsqrt t f => t.wf && f.wf
  | .fdiv t f => t.wf && f.wf
  | .fexp2 t f => t.wf && f.wf
  | .flog2 t f => t.wf && f.wf
  | .fsin t f => t.wf && f.wf
  | .fcos t f => t.wf && f.wf
  | .f2i t f => t.wf && f.wf
  | .f2u t f => t.wf && f.wf
  | .i2f t f => t.wf && f.wf
  | .u2f t f => t.wf && f.wf
  | .f2h2 t f => t.wf && f.wf
  | .h2fl t f => t.wf && f.wf
  | .h2fh t f => t.wf && f.wf
  | .f2un10 t f => t.wf && f.wf
  | .pk30 t f => t.wf && f.wf
  | .icmp t f => t.wf && f.wf
  | .ucmp t f => t.wf && f.wf
  | .fcmp t f => t.wf && f.wf
  | .pand t f => t.wf && f.wf
  | .por t f => t.wf && f.wf
  | .pxor t f => t.wf && f.wf
  | .pandn t f => t.wf && f.wf
  | .pcnt t f => t.wf && f.wf
  | .ptos t f => t.wf && f.wf
  | .stop t f => t.wf && f.wf
  | .mov t f => t.wf && f.wf
  | .sel t f => t.wf && f.wf
  | .lanerd t f => t.wf && f.wf
  | .shfl t f => t.wf && f.wf
  | .movi t f => t.wf && f.wf
  | .movhi t f => t.wf && f.wf
  | .iaddi t f => t.wf && f.wf
  | .andi t f => t.wf && f.wf
  | .ori t f => t.wf && f.wf
  | .xori t f => t.wf && f.wf
  | .shli t f => t.wf && f.wf
  | .shri t f => t.wf && f.wf
  | .sari t f => t.wf && f.wf
  | .ldl t f => t.wf && f.wf
  | .stl t f => t.wf && f.wf
  | .ldg t f => t.wf && f.wf
  | .stg t f => t.wf && f.wf
  | .ldc t f => t.wf && f.wf
  | .atl t f => t.wf && f.wf
  | .atg t f => t.wf && f.wf
  | .casl t f => t.wf && f.wf
  | .casg t f => t.wf && f.wf
  | .globalLoadReturn t _ => t.wf
  | .branch t f => t.wf && f.wf
  | .brx t f => t.wf && f.wf
  | .call t f => t.wf && f.wf
  | .callx t f => t.wf && f.wf
  | .nop t => t.wf
  | .endThread t => t.wf
  | .breakThread t => t.wf
  | .fenceL t => t.wf
  | .fenceG t => t.wf
  | .fenceS t => t.wf
  | .barE t => t.wf
  | .barH t n count => t.wf && decide (n < 16) && decide (count ≤ 64)
  | .movsr t pred _ d selr _ => t.wf && decide (pred < 8) && decide (d < 64) && decide (selr < 16)
  | .illegalInstruction t word => t.wf && decide (word < 18446744073709551616)
  | .launch t d a => t.wf && decide (d < 64) && decide (a < 64)
  | .preempt t a => t.wf && decide (a < 64)
  | .restore t a => t.wf && decide (a < 64)
  | .resumeThread t a b => t.wf && decide (a < 64) && decide (b < 64)
  | .kill t a b => t.wf && decide (a < 64) && decide (b < 64)
  | .abort t a => t.wf && decide (a < 64)
  | .waitev t d _ => t.wf && decide (d < 64)
  | .stewardEvent core => decide (core < 8)
  | .launchStart handle _ => decide (handle < 65536)
  | .launchComplete handle => decide (handle < 65536)
  | .threadFault t cause _ addr => t.wf && decide (cause < 16) && decide (addr < 18446744073709551616)
  | .stewardFault core => decide (core < 8)
  | .hamletSave hamlet => decide (hamlet < 16)
  | .saveComplete hamlet => decide (hamlet < 16)
  | .hamletRestore hamlet => decide (hamlet < 16)
  | .engineEccError hamlet phys _ _ slot => decide (hamlet < 16) && decide (phys < 17) && decide (slot < 4)
  | .engineSubstitution hamlet logical => decide (hamlet < 16) && decide (logical < 16)
  | .substitutionComplete hamlet => decide (hamlet < 16)
  | .spareBistPass hamlet _ => decide (hamlet < 16)
  | .dramReadRequest pa _ client => decide (pa < 103079215104) && client.wf
  | .dramWriteRequest pa _ _ client => decide (pa < 103079215104) && client.wf
  | .dramAtomic pa aop _ _ ecc => decide (pa < 103079215104) && decide (aop < 8) && ecc.wf
  | .dramCommandIssue chan ecc => chan.wf && ecc.wf
  | .dramReadData ctrl _ place => decide (ctrl < 64) && place.wf
  | .refreshDue ctrl pc bank => decide (ctrl < 64) && decide (pc < 2) && decide (bank < 48)
  | .scrubRead _ place => place.wf
  | .retrainDue ctrl => decide (ctrl < 64)
  | .retrainSlot chan rd wr _ _ _ => chan.wf && decide (rd < 128) && decide (wr < 128)
  | .retrainNow => true
  | .mapLock => true
  | .speedGo req _ => decide (req < 4)
  | .speedChangeStart => true
  | .speedChangeDone => true
  | .speedChangeTimeout => true
  | .laneRepair ctrl pc lane _ => decide (ctrl < 64) && decide (pc < 2) && decide (lane < 32)
  | .initialTrainingDone => true
  | .translationRequest client ctx va acc => decide (client < 64) && decide (ctx < 64) && decide (va < 18446744073709551616) && decide (acc < 4)
  | .walkComplete _ => true
  | .translationFault client id ctx va acc cls cause => decide (client < 256) && decide (id < 4294967296) && decide (ctx < 64) && decide (va < 18446744073709551616) && decide (acc < 4) && decide (cls < 16) && decide (cause < 16)
  | .logWindowClose _ => true
  | .invalidate port ctx scope => decide (port < 2) && decide (ctx < 64) && decide (scope < 4)
  | .invalidationDone port => decide (port < 2)
  | .lock0 => true
  | .dmaCopy engine ring _ => decide (engine < 16) && decide (ring < 3)
  | .dmaFill engine ring _ => decide (engine < 16) && decide (ring < 3)
  | .dmaDescriptorComplete engine ring => decide (engine < 16) && decide (ring < 3)
  | .dmaResume engine ring => decide (engine < 16) && decide (ring < 3)
  | .dmaSkip engine ring => decide (engine < 16) && decide (ring < 3)
  | .dmaPause engine ring _ => decide (engine < 16) && decide (ring < 3)
  | .pack => true
  | .unpack => true
  | .packerJobComplete => true
  | .packerPause _ _ => true
  | .bltFill _ => true
  | .bltCopy _ => true
  | .bltConvert _ => true
  | .bltFence => true
  | .bltWait => true
  | .bltWaitComplete => true
  | .bltWm => true
  | .bltRecordComplete => true
  | .bltResume => true
  | .bltSkip => true
  | .bltPause _ _ => true
  | .commit => true
  | .commitPoint => true
  | .shWriteDrop _ _ => true
  | .frameStart => true
  | .scanoutLine _ => true
  | .watermarkLine tile => decide (tile < 64)
  | .vblank => true
  | .layerFetchFault tile layer kind => decide (tile < 64) && decide (layer < 8) && decide (kind < 5)
  | .maxFrameRepeat => true
  | .genlockEdge _ => true
  | .frameClockEdge => true
  | .holdoverStart => true
  | .sequencerFault => true
  | .switchover _ => true
  | .sequencerReturn _ => true
  | .forceB _ => true
  | .scanoutEnable _ => true
  | .wake => true
  | .align place => decide (place.tile < 64) && decide (place.column < 16384)
  | .bcBlockLock tile blocks => decide (tile < 64) && blocks.all (fun b => decide (b.1 < 4) && decide (b.2 < 2 ^ 64))
  | .bcLoss tile => decide (tile < 64)
  | .laneStat tile _ => decide (tile < 64)
  | .shadow tile _ => decide (tile < 64)
  | .tileStatus tile _ => decide (tile < 64)
  | .holdAck tile _ => decide (tile < 64)
  | .shadowRotation tile => decide (tile < 64)
  | .wylSubstitution tile => decide (tile < 64)
  | .qualificationEnd tile => decide (tile < 64)
  | .subReq tile lane => decide (tile < 64) && decide (lane < 8)
  | .retrain tile => decide (tile < 64)
  | .portUp tile => decide (tile < 64)
  | .portTrainTimeout tile => decide (tile < 64)
  | .portTrainRetry tile => decide (tile < 64)
  | .statusReq tile req tag => decide (tile < 64) && decide (req < 256) && decide (tag < 256)
  | .pnlPowerRequest _ _ => true
  | .railStep => true
  | .pnlPgoodRise rail => decide (rail < 4)
  | .railFault rail _ => decide (rail < 4)
  | .holdWrite => true
  | .holdBegin => true
  | .holdAckTimeout => true
  | .holdFirstTimeout => true
  | .regionRequest y0 h tile x0g wg => decide (y0 < 4096) && decide (h < 4096) && decide (tile < 64) && decide (x0g < 512) && decide (wg < 512)
  | .bklTransferComplete chain _ => decide (chain < 4)
  | .bklFreeRunFrame => true
  | .discover chEn _ => decide (chEn < 16)
  | .discoveryEnd chain _ => decide (chain < 4)
  | .chainRediscover chain => decide (chain < 4)
  | .lampOut chain => decide (chain < 4)
  | .frameStartPacket port _ lanes _ => decide (port < 8) && decide (lanes.length = 3)
  | .frameEndPacket port lanes _ => decide (port < 8) && decide (lanes.length = 4)
  | .longPacket port _ _ _ _ _ => decide (port < 8)
  | .ignoredShortPacket port lanes _ => decide (port < 8) && decide (lanes.length = 4)
  | .headerEccError port => decide (port < 8)
  | .ispLineDone pipe => decide (pipe < 4)
  | .camSetOpen => true
  | .camSetClose => true
  | .camEnable _ => true
  | .exposureRequest token => decide (token < 65536)
  | .cciRequestStart slot => decide (slot < 32)
  | .cciRequestComplete ctrl _ _ => decide (ctrl < 8)
  | .txFrame port => decide (port < 2)
  | .txTimestampWriteback port => decide (port < 2)
  | .rxFrame port _ _ fec => decide (port < 2) && decide (fec < 3)
  | .ethLinkChange port _ => decide (port < 2)
  | .offsetGo frac epoch => decide (frac < 65536) && decide (epoch < 256)
  | .ptpHoldover => true
  | .stepGo who _ => who.wf
  | .stepApply => true
  | .ppsInEdge => true
  | .ppsOutRise => true
  | .ppsOutFall => true
  | .ptpTimerFire n => decide (n < 8)
  | .doorbell ring tail => decide (ring < 32) && decide (tail < 4096)
  | .deviceDoorbell n _ => decide (n < 256)
  | .workCompletion ring => decide (ring < 32)
  | .cqhWrite ring cqh => decide (ring < 32) && decide (cqh < 8192)
  | .workRingHalt ring cause => decide (ring < 32) && decide (cause < 16)
  | .msixMessage vector => decide (vector < 64)
  | .intCauseClear group mask => decide (group < 8) && decide (mask < 4294967296)
  | .hostWindowError _ kind => decide (kind < 6)
  | .endpointReset kind => decide (kind < 4)
  | .pcieLinkUp speed seen => decide (speed < 6) && decide (seen.width < 17)
  | .targetedSelfTest hamlet _ => decide (hamlet < 16)
  | .healthReport => true
  | .clear => true
  | .replicaSample _ _ => true
  | .planEvaluate => true
  | .avsReadback _ => true
  | .daily => true
  | .poh => true
  | .laneAdapt tile _ _ _ _ => decide (tile < 64)
  | .dphySkew port lane _ => decide (port < 8) && decide (lane < 4)
  | .tsenseTrim sensor _ => decide (sensor < 40)
  | .bklTrim chain driver str _ _ => decide (chain < 4) && decide (driver < 256) && decide (str < 16)
  | .termTrim _ _ => true
  | .selftest _ => true
  | .engRotate hamlet => decide (hamlet < 16)
  | .calRequest task block inst => decide (task < 16) && decide (block < 32) && decide (inst < 512)
  | .calRequestDone rid _ => decide (rid < 256)
  | .calForceExpiry rid => decide (rid < 256)
  | .hkChannelRead _ _ => true
  | .thermalRound => true
  | .comparatorTrip sensor => decide (sensor < 40)
  | .shutdown _ => true
  | .thermalRelease => true
  | .watchFault cause => decide (cause < 3)
  | .dipStart mv => decide (mv < 1024)
  | .dipEnd => true
  | .brownout mv => decide (mv < 1024)
  | .brownoutRelease => true
  | .refclkLoss ref => decide (ref < 5)
  | .secGo op len => decide (op < 256) && decide (len < 32768)
  | .cfgUpdate => true
  | .attest => true
  | .ledgerRead => true
  | .spvDone => true
  | .creditGain => true
  | .ledgerRecord => true
  | .sectorCompaction => true
  | .coldStart => true
  | .porstN _ => true
  | .wrstN _ => true
  | .warm conf => decide (conf < 256)
  | .mainRelease mv => decide (mv < 1024)
  | .bootStageDone => true
  | .program slot => decide (slot < 2)
  | .programDone _ => true
  | .prepare slot => decide (slot < 2)
  | .activateLive _ => true
  | .liveSwitchHalt => true
  | .activateRestart slot => decide (slot < 2)
  | .confirm => true
  | .fwuAbort => true
  | .alive => true
  | .aliveTimeout => true
  | .gpioOutSet mask => decide (mask < 4294967296)
  | .gpioOutClr mask => decide (mask < 4294967296)
  | .gpioEdge pin _ => decide (pin < 32)
  | .watchReset => true
  | .refclkReturn ref => decide (ref < 5)
  | .supplyQualification _ mv => decide (mv < 1024)
  | .sequencerSelfTest _ => true
  | .sequencerBFault => true
  | .restoreComplete hamlet => decide (hamlet < 16)
  | .prepareDone => true
  | .frameStepTimer => true
  | .bcHdrErr tile => decide (tile < 64)
  | .hsSyncError port => decide (port < 8)
  | .testAccessPort _ _ _ => true
  | .workRingEn ring _ => decide (ring < 32)
  | .camSetmaskWrite _ _ => true
  | .portEnable tile _ _ => decide (tile < 64)
  | .dctlAutoSet => true
  | .holdReportTimeout tile => decide (tile < 64)

end Sys2Proof
end

