-- ==== Sys2Proof/Safety.lean ====
section
/-! DEFINITION. What counts as a safe step, and the terms in which claims say what a command changes. -/
namespace Sys2Proof.Machine

/-- The outcome is a next state. -/
def Completes (o : Host.Outcome State Fault Refusal) : Prop := ∃ s, o = .next s

/-- A run of `n` steps that ends in a next state. -/
def SafeRun (s : State) : Nat → Prop
  | 0 => True
  | n + 1 => ∃ t, step s = .next t ∧ SafeRun t n

/-! ### Registers -/

/-- The register words outside the addresses listed read as before. -/
def RegsBut (s u : State) (as : List Nat) : Prop := ∀ a, a ∉ as → u.word a = s.word a

/-! ### Aqken threads -/

/-- The record of a thread. -/
def State.th (s : State) (t : Thr) : ThreadSt := s.thr (thrKey t)
/-- Lane `l` of vector register `n` as a word. -/
def ThreadSt.vw (t : ThreadSt) (n l : Nat) : Word := mapGet lane0 t.v (n * 64 + l)
/-- Scalar register `n` as a 64-bit word; s0 is zero. -/
def ThreadSt.sw (t : ThreadSt) (n : Nat) : BitVec 64 := if n = 0 then 0 else mapGet reg0 t.s n
/-- R137. The effective predicate of an instruction as a mask of lanes. -/
def State.mask (s : State) (t : Thr) (pred : Nat) (neg : Bool) : Nat := (s.th t).eff (thrIsS t) pred neg
/-- R139. Source B of lane `l` as a word: vB, or bits [31:0] of sB under SB. -/
def State.laneB (s : State) (t : Thr) (f : FmtA) (l : Nat) : Word := if f.sb then ((s.th t).sw f.b).setWidth 32 else (s.th t).vw f.b l

/-- R105, R110, R141. The thread issues an instruction that touches the registers `x`: it may issue, PC lies in the code, and no such
register has a result pending. -/
def Issues (s : State) (t : Thr) (x : Touch) : Prop :=
  s.canIssue t = true ∧ s.inCode t (s.th t).pc.toNat = true ∧ (s.th t).busy x = false

/-- Nothing but the record of one thread changes. -/
def OnlyThread (s u : State) (t : Thr) : Prop :=
  u = { s with aq := { s.aq with threads := u.aq.threads } } ∧ ∀ k, k ≠ thrKey t → u.thr k = s.thr k

/-- PC moves to the next word, and nothing else changes. -/
def Passed (s u : State) (t : Thr) : Prop := OnlyThread s u t ∧ u.th t = { s.th t with pc := (s.th t).pc + 8 }

/-- R140. The lanes of `mask` in vector register `d` take new values and PC moves to the next word; nothing else changes. -/
def WroteLanes (s u : State) (t : Thr) (mask d : Nat) (val : Nat → Word) : Prop :=
  OnlyThread s u t ∧ u.th t = { s.th t with v := (u.th t).v, pc := (s.th t).pc + 8 } ∧
  ∀ n l, l < 64 → (u.th t).vw n l = if n = d ∧ bitAt mask l = true then val l else (s.th t).vw n l

/-- R98, R140. Scalar register `d` takes a new value where the instruction runs, s0 excepted, and PC moves on; nothing else changes. -/
def WroteScalar (s u : State) (t : Thr) (run : Bool) (d : Nat) (val : BitVec 64) : Prop :=
  OnlyThread s u t ∧ u.th t = { s.th t with s := (u.th t).s, pc := (s.th t).pc + 8 } ∧
  ∀ n, (u.th t).sw n = if n = d ∧ n ≠ 0 ∧ run = true then val else (s.th t).sw n

/-- R98, R129. Bits of predicate register `d` take new values, p0 excepted and on Aqken-S bit 0 alone, and PC moves on; nothing else
changes. -/
def WrotePred (s u : State) (t : Thr) (run : Bool) (d : Nat) (val : Nat → Bool) : Prop :=
  OnlyThread s u t ∧ u.th t = { s.th t with p := (u.th t).p, pc := (s.th t).pc + 8 } ∧
  ∀ n l, l < 64 → bitAt ((u.th t).pr (thrIsS t) n) l =
    if n = d ∧ n ≠ 0 ∧ run = true then val l && (!thrIsS t || decide (l = 0)) else bitAt ((s.th t).pr (thrIsS t) n) l

end Sys2Proof.Machine
end

