-- ==== Sys2Proof/Certificates/Slice0/Obligations.lean ====
section
/-! DEFINITION. The statements for the provers: what the commands do, taken from the rules of the spec, chapter by chapter. -/
namespace Sys2Proof.Machine
open Sys2Proof

/-! ### Ray synthesis (R63–R95) -/

/-- The events that a core's queue and its pending events hold, oldest first. -/
def State.events (s : State) (c : Nat) : List Ev := (s.stw c).evq ++ (s.stw c).held

/-- The rays that a hamlet's unit has still to deal, from its position on, in the order of R63: work, band index, tile, line, column. -/
def State.ahead (s : State) (h : Nat) : Nat := match s.span h with
  | some sp => match s.synWork sp.work with
    | some w => spanSize (s.workSpan w h) - sp.pos
    | none => 0
  | none => 0

end Sys2Proof.Machine

open Sys2Proof Sys2Proof.Machine in
/-- R63–R66, R161. Dealing rays.
Completion: on conditions on the state and the operands alone, each of these answers a next state that has its own effect: rissue, rmapFault,
issueWfault, tileBandComplete. -/
def Obligations.RayIssueDealsAndRetires : Prop :=
  (∀ (s : State) (e sl d p wk : Nat) (w : SynWork) (sp : SpanSt), let t := Thr.eng e sl; let th := s.th t
    Issues s t ⟨(List.range 8).map (d + ·), []⟩ → d % 8 = 0 → d < 64 → p < 8 → s.thrWork (e * 4 + sl) = some wk → s.on R.SYN_CTL_ENABLE = true →
    s.synWork wk = some w → s.span (e / 16) = some sp → sp.work = wk → w.abandoned = false →
    ∃ u, exec (.rissue t d p) s = .next u ∧ (u.th t).pc = th.pc + 8 ∧ (u.th t).s = th.s ∧ (u.th t).batch.length ≤ 64 ∧
      (∀ n, n ≠ 0 → n < 8 → (u.th t).pr false n = if n = p then 2 ^ (u.th t).batch.length - 1 else th.pr false n) ∧
      (∀ n l, l < 64 → (n < d ∨ d + 8 ≤ n) → (u.th t).vw n l = th.vw n l) ∧
      (∀ n l, l < 64 → d ≤ n → n < d + 8 → (u.th t).batch.length ≤ l → (u.th t).vw n l = 0) ∧
      (∀ l r, (u.th t).batch[l]? = some r → r.lane = l ∧ (u.th t).vw (d + 6) l = BitVec.ofNat 32 r.addr ∧
        (u.th t).vw (d + 5) l = BitVec.ofNat 32 (r.col % 8192 + r.line % 4096 * 65536)) ∧
      (∀ r ∈ (u.th t).batch, ∀ q ∈ (u.th t).batch, r.line / 64 = q.line / 64) ∧
      (∀ i tl y x r c, s.frontPixel (e / 16) = some (wk, w, i, tl, y, x) → s.rayKind w.level tl x y = .deal r c →
        (u.th t).batch.head? = some ⟨0, tl, y, x, s.targetAddr w tl y x⟩ ∧ (u.th t).band = BitVec.ofNat 32 (w.band.getD i) ∧
        ∀ j, j < 8 → (u.th t).vw (d + j) 0 = BitVec.ofNat 32 ((rayWords ⟨0, tl, y, x, s.targetAddr w tl y x⟩ r c).getD j 0)) ∧
      ((u.th t).batch = [] → ∃ w', u.synWork wk = some w' ∧ bitAt w'.exhausted (e / 16) = true) ∧
      (∀ k, k ≠ thrKey t → u.thr k = s.thr k)) ∧
  (∀ (s : State) (e sl d p : Nat), let t := Thr.eng e sl; let th := s.th t
    Issues s t ⟨(List.range 8).map (d + ·), []⟩ → d % 8 = 0 → d < 64 → s.thrWork (e * 4 + sl) = none →
    ∃ u, exec (.rissue t d p) s = .next u ∧ OnlyThread s u t ∧ (u.th t).pc = th.pc + 8 ∧ (u.th t).batch = [] ∧ (u.th t).band = 0xFFFFFFFF ∧
      ∀ n l, l < 64 → (u.th t).vw n l = if d ≤ n ∧ n < d + 8 then 0 else th.vw n l) ∧
  (∀ (s : State) (h wk t y x plane va : Nat) (w : SynWork) (i : Nat) (er : AccErr), h < 16 → s.frontPixel h = some (wk, w, i, t, y, x) →
    s.rayKind w.level t x y = .failed plane va er →
    ∃ u, exec (.rmapFault h) s = .next u ∧ (∀ sp, s.span h = some sp → ∃ sp', u.span h = some sp' ∧ sp'.pos = sp.pos + 1 ∧ sp'.work = sp.work) ∧
      u.synWork wk = some (w.addWritten t y 1) ∧
      (∀ sp, s.span h = some sp → (if plane = 0 then sp.failCls else sp.failRes) ≠ some (va / 256) →
        u.get (R.SYN_HCNT_COUNT h 6) = (s.get (R.SYN_HCNT_COUNT h 6) + 1) % 2 ^ 32 ∧ u.get (causeFld Irq.SYN_RMAP_FAULT) = 1) ∧
      (∀ k, u.thr k = s.thr k)) ∧
  (∀ (s : State) (h wk t y x : Nat) (w : SynWork) (i : Nat), h < 16 → s.frontPixel h = some (wk, w, i, t, y, x) →
    s.selfWriteFails wk t y x = true → (∀ r c, s.rayKind w.level t x y ≠ .deal r c) →
    ∃ u, exec (.issueWfault h) s = .next u ∧ (∀ sp, s.span h = some sp → ∃ sp', u.span h = some sp' ∧ sp'.pos = sp.pos + 1 ∧ sp'.work = sp.work) ∧
      u.synWork wk = some (w.addWritten t y 1) ∧ u.get (R.SYN_HCNT_COUNT h 7) = (s.get (R.SYN_HCNT_COUNT h 7) + 1) % 2 ^ 32 ∧ u.syn.sums = s.syn.sums) ∧
  (∀ (s : State) (wk tile band : Nat) (w : SynWork), s.synWork wk = some w → (s.workBands w).contains band = true → s.tileOn tile = true → tile < 64 →
    w.complete.contains (tile * 64 + band) = false → w.abandoned = false → s.bandWritten w tile band = true →
    ∃ u, exec (.tileBandComplete wk tile band) s = .next u ∧ u.synWork wk = some { w with complete := w.complete ++ [tile * 64 + band] } ∧
      (∀ b, w.band = some b → b % s.ringDepth < 64 → u.readyFlag tile (b % s.ringDepth) = true) ∧
      (w.band = none → s.workComplete { w with complete := w.complete ++ [tile * 64 + band] } = false →
        u = s.setSynWork wk { w with complete := w.complete ++ [tile * 64 + band] }) ∧ u.aq = s.aq ∧ u.mem = s.mem)

open Sys2Proof Sys2Proof.Machine in
/-- R69, R70, R75–R81, R157–R160. The sampler's instructions.
Completion: on conditions on the state and the operands alone, each of these answers a next state that has its own effect: sweep, sample, dhint. -/
def Obligations.SamplingInstructions : Prop :=
  ∀ (s : State) (e sl : Nat) (f : FmtX), let t := Thr.eng e sl; let th := s.th t; let k := thrKey t
    let en := s.sampEnv k f; let tag := s.launchTag k
    let sw := sampLanes (fun a l => if tag.2 then Samp.camLane a en tag.1 (th.laneRay f l) else Samp.sweepLane a en tag.1 (th.laneRay f l))
      (th.lanesX f) ⟨s, [], [], none⟩
    let sa := sampLanes (fun a l => Samp.sampleLane a en f (th.laneRay f l)) (th.lanesX f) ⟨s, [], [], none⟩
    let kept := fun (u : State) => (u.th t).s = th.s ∧ (u.th t).p = th.p ∧ (u.th t).state = th.state ∧ (u.th t).batch = th.batch ∧ ∀ o, o ≠ k → u.thr o = s.thr o
    (Issues s t (touchX f 1) → legalX false f 0 = true →
      (s.on R.SYN_CTL_ENABLE = false → exec (.sweep t f) s = .next s) ∧
      (s.on R.SYN_CTL_ENABLE = true → anyNeed sw.2 = false →
        ∃ u, exec (.sweep t f) s = .next u ∧ (u.th t).pc = th.pc + 8 ∧ kept u ∧
          (∀ n l, l < 64 → (n ≠ f.d ∨ bitAt (s.mask t f.pred f.neg) l = false) → (u.th t).vw n l = th.vw n l) ∧
          (∀ x ∈ sw.2, (u.th t).vw f.d x.1 = BitVec.ofNat 32 (match x.2 with
            | .val v => v
            | _ => ray30 tag.1 s.bkgnd))) ∧
      (s.on R.SYN_CTL_ENABLE = true → anyNeed sw.2 = true →
        ∃ u, exec (.sweep t f) s = .next u ∧ (u.th t).pc = th.pc ∧ (u.th t).v = th.v ∧ kept u ∧ (u.th t).wait = .caddy)) ∧
    (Issues s t (touchX f 5) → legalX false f 1 = true →
      (s.on R.SYN_CTL_ENABLE = false → exec (.sample t f) s = .next s) ∧
      (s.on R.SYN_CTL_ENABLE = true → anyNeed sa.2 = false →
        ∃ u, exec (.sample t f) s = .next u ∧ (u.th t).pc = th.pc + 8 ∧ kept u ∧
          (∀ n l, l < 64 → (n < f.d ∨ f.d + 5 ≤ n ∨ bitAt (s.mask t f.pred f.neg) l = false) → (u.th t).vw n l = th.vw n l) ∧
          (∀ x ∈ sa.2, match x.2 with
            | .val (c, z) => (∀ i, i < 4 → (u.th t).vw (f.d + i) x.1 = BitVec.ofNat 32 (c.getD i 0)) ∧ (u.th t).vw (f.d + 4) x.1 = BitVec.ofNat 32 z
            | _ => (∀ i, i < 4 → (u.th t).vw (f.d + i) x.1 = 0) ∧ (u.th t).vw (f.d + 4) x.1 = BitVec.ofNat 32 f32.qnan)) ∧
      (s.on R.SYN_CTL_ENABLE = true → anyNeed sa.2 = true →
        ∃ u, exec (.sample t f) s = .next u ∧ (u.th t).pc = th.pc ∧ (u.th t).v = th.v ∧ kept u ∧ (u.th t).wait = .caddy)) ∧
    (Issues s t (touchX f 0) → legalX false f 2 = true →
      ∃ u, exec (.dhint t f) s = .next u ∧ (u.th t).pc = th.pc + 8 ∧ (u.th t).v = th.v ∧ kept u ∧ (s.on R.SYN_CTL_ENABLE = false → Passed s u t))

open Sys2Proof Sys2Proof.Machine in
/-- R55, R57, R68–R74. Caddy.
Completion: on conditions on the state and the operands alone, each of these answers a next state that has its own effect: firstTouch,
stripDecoded, caddyInvAll, caddyInvStream, caddyInvComplete. -/
def Obligations.CaddyFillsAndInvalidates : Prop :=
  (∀ (s : State) (h : Nat) (f : CFill) (p : Nat × Nat × Nat) (eb bs : List Byte), h < 16 →
    (s.caddy h).fills.find? (fun f => match f.tag.payload with
      | some p => !(s.caddy h).indexed.contains p
      | none => false) = some f → f.tag.payload = some p → s.vread f.ctx f.src .read 32 = .ok eb → s.payload f.ctx (ResEntry.ofBytes eb) = .ok bs →
    ((s.slotCrc p.1 = false ∨ crc32c bs = (ResEntry.ofBytes eb).pcrc) →
      (if (ResEntry.ofBytes eb).code = 0 then jxsCheck bs f.width f.height else kpkCheck bs f.tag.isDep f.width f.height) = none →
      ∃ u, exec (.firstTouch h) s = .next u ∧ u.caddy h = { s.caddy h with indexed := (s.caddy h).indexed ++ [p] } ∧
        (∀ o, o ≠ h → u.caddy o = s.caddy o) ∧ u = { s with syn := { s.syn with caddy := u.syn.caddy } }) ∧
    (s.slotCrc p.1 = true → crc32c bs ≠ (ResEntry.ofBytes eb).pcrc →
      ∃ u, exec (.firstTouch h) s = .next u ∧ (∀ l ∈ (u.caddy h).lines, l.tag.payload ≠ some p) ∧ (∀ x ∈ (u.caddy h).fills, x.tag.payload ≠ some p) ∧
        (∀ o, o ≠ h → u.caddy o = s.caddy o) ∧
        ∀ key, (u.thr key).v = (s.thr key).v ∧ (u.thr key).pc = (s.thr key).pc ∧ (u.thr key).state = (s.thr key).state)) ∧
  (∀ (s : State) (h i : Nat) (f : CFill) (data : List Byte), h < 16 → (s.caddy h).fills[i]? = some f →
    (match f.tag.payload with
      | some p => (s.caddy h).indexed.contains p = true ∧ ∃ eb bs, s.vread f.ctx f.src .read 32 = .ok eb ∧ s.payload f.ctx (ResEntry.ofBytes eb) = .ok bs ∧
          stripBytes (ResEntry.ofBytes eb) bs f.tag.isDep f.width f.height f.tag.strip = .ok data
      | none => s.camStrip f f.height f.src = .ok data) → s.fillKeep h f.tag ≠ none →
    ∃ u, exec (.stripDecoded h i) s = .next u ∧ ((u.caddy h).find f.tag).map (·.data) = some data ∧ (∀ x ∈ (u.caddy h).fills, x.tag ≠ f.tag) ∧
      (f.tag.payload ≠ none → u.get (R.SYN_HCNT_COUNT h 3) = (s.get (R.SYN_HCNT_COUNT h 3) + 1) % 2 ^ 32) ∧
      (∀ o, o ≠ h → u.caddy o = s.caddy o) ∧
      (∀ key, key / 64 ≠ h → u.thr key = s.thr key) ∧
      (∀ key ∈ hamletKeys h, (s.thr key).wait ≠ .caddy → u.thr key = s.thr key) ∧
      (∀ key ∈ hamletKeys h, (s.thr key).wait = .caddy → (s.thr key).want.contains f.tag = true →
        let w := (s.thr key).want.filter (fun x => decide (x ≠ f.tag))
        u.thr key = { s.thr key with got := (s.thr key).got ++ [(f.tag, data)], want := w, wait := if w = [] then .none else .caddy })) ∧
  (∀ (s : State), ∃ u, exec .caddyInvAll s = .next u ∧ u.syn.invs = s.syn.invs ++ [none] ∧ u.get R.SYN_STAT_INV_BUSY = 1 ∧ u.syn.caddy = s.syn.caddy) ∧
  (∀ (s : State) (n : Nat), n < 16 → ∃ u, exec (.caddyInvStream n) s = .next u ∧ u.syn.invs = s.syn.invs ++ [some n] ∧ u.get R.SYN_STAT_INV_BUSY = 1 ∧
    u.syn.caddy = s.syn.caddy) ∧
  (∀ (s : State) (x : Option Nat) (rest : List (Option Nat)), s.syn.invs = x :: rest → s.fillsDone x = true →
    ∃ u, exec .caddyInvComplete s = .next u ∧ u.syn.invs = rest ∧ u.get R.SYN_STAT_INV_BUSY = b2n (decide (rest ≠ [])) ∧
      (∀ h, h < 16 → (u.caddy h).lines = match x with
        | none => []
        | some n => (s.caddy h).lines.filter (fun l => !l.tag.ofSlot n)) ∧
      (∀ h, h < 16 → (u.caddy h).fills = (s.caddy h).fills) ∧ u.aq = s.aq ∧ u.mem = s.mem)

open Sys2Proof Sys2Proof.Machine in
/-- R90, R91, R538. The density estimator's commands.
Completion: on conditions on the state and the operands alone, each of these answers a next state that has its own effect: dctlAutoSet,
densityRecord. -/
def Obligations.DensityHistoryAndRecord : Prop :=
  (∀ (s : State), ∃ u, exec .dctlAutoSet s = .next u ∧ u.get R.SYN_DCTL_AUTO = 1 ∧
    (s.on R.SYN_DCTL_AUTO = true → u = s) ∧
    (s.on R.SYN_DCTL_AUTO = false → u.syn.dens = { s.syn.dens with hist := [], measured := 0, freed := false, qual := 0 } ∧
      u = { s with regs := u.regs, syn := { s.syn with dens := u.syn.dens } } ∧ RegsBut s u [R.SYN_DCTL_AUTO.addr])) ∧
  (∀ (s : State), s.syn.dens.recs = [] → exec .densityRecord s = .next s) ∧
  (∀ (s : State) (pa : Nat) (r : DensRec) (rest : List DensRec), s.syn.dens.recs = r :: rest → s.hbmOpen = true → pa + 32 ≤ hbmTop →
    (∀ i, i < 32 → s.translate 0 (s.dlogAddr + i) .write = .ok (pa + i)) →
    ∃ u, exec .densityRecord s = .next u ∧ u.get R.SYN_DLOG_HEAD_HEAD = (s.get R.SYN_DLOG_HEAD_HEAD + 1) % 2 ^ 32 ∧ u.syn.dens.recs = rest ∧
      u.get R.SYN_DLOG_DROP_DROP = s.get R.SYN_DLOG_DROP_DROP ∧
      u.memBytes pa 18 = leBytes 4 r.frame ++ leBytes 4 r.src ++ leBytes 8 r.startNs ++ leBytes 1 r.level ++ leBytes 1 r.cause ∧
      u.memBytes (pa + 28) 4 = leBytes 2 r.lateBands ++ leBytes 2 (b2n r.late + 2 * b2n r.changed) ∧
      (∀ c, r.meas = some c → u.memBytes (pa + 18) 2 = leBytes 2 c.clk ∧ u.memBytes (pa + 24) 4 = leBytes 4 c.cost) ∧
      (∀ e, r.est = some e → u.memBytes (pa + 20) 4 = leBytes 4 e) ∧
      (∀ a, (a < pa ∨ pa + 32 ≤ a) → u.memByte a = s.memByte a)) ∧
  (∀ (s : State) (er : AccErr) (r : DensRec) (rest : List DensRec), s.syn.dens.recs = r :: rest → s.vtargets 0 s.dlogAddr .write 32 = .error er →
    ∃ u, exec .densityRecord s = .next u ∧ u.get R.SYN_DLOG_HEAD_HEAD = (s.get R.SYN_DLOG_HEAD_HEAD + 1) % 2 ^ 32 ∧ u.syn.dens.recs = rest ∧
      u.get R.SYN_DLOG_DROP_DROP = (s.get R.SYN_DLOG_DROP_DROP + 1) % 2 ^ 32)

namespace Sys2Proof.Machine
open Sys2Proof

/-! ### Streams and work rings (R28–R62, R399–R404) -/

/-- R399, R400, R402. An entry with bytes `b` waits at HEAD of ring `n`, which runs. -/
def State.EntryWaits (s : State) (n : Nat) (b : List Byte) : Prop :=
  n < 32 ∧ s.wringRuns n = true ∧ s.get (R.HST_WR_HEAD_HEAD n) ≠ (s.wring n).tail ∧ s.vread (s.wringCtx n) (s.entryAddr n) .read 64 = .ok b

/-- R403, R404. Ring `n` has taken the entry `b`: HEAD moves on, and the command stands last in the ring, done with a status or running. -/
def TookEntry (s u : State) (n : Nat) (b : List Byte) (status : Option Nat) : Prop :=
  u.get (R.HST_WR_HEAD_HEAD n) = (s.get (R.HST_WR_HEAD_HEAD n) + 1) % s.wringSize n ∧
  ∃ c, (u.wring n).cmds = (s.wring n).cmds ++ [c] ∧ c.tag = leAt b 4 4 ∧ c.op = leAt b 0 1 ∧ c.slot = leAt b 0x20 4 ∧
    c.done = status.map (fun x => { tag := leAt b 4 4, status := x, op := leAt b 0 1, irq := bitAt (leAt b 1 1) 0, result := zeros 24 })

end Sys2Proof.Machine

open Sys2Proof Sys2Proof.Machine in
/-- R28–R34, R48, R49, R62, R404. The frame program's commands.
Completion: on conditions on the state and the operands alone, each of these answers a next state that has its own effect: badop, openStream,
closeStream, frame, bindRaymap. -/
def Obligations.FrameProgramCommands : Prop :=
  (∀ (s : State) (n : Nat) (b : List Byte), s.EntryWaits n b → (leAt b 0 1 = 0 ∨ 4 < leAt b 0 1) →
    ∃ u, exec (.badop n) s = .next u ∧ TookEntry s u n b (some 1) ∧ u.mem = s.mem ∧ u.syn = s.syn) ∧
  (∀ (s : State) (n : Nat) (b : List Byte), s.EntryWaits n b → leAt b 0 1 = 1 →
    let slot := leAt b 0x20 4
    (16 ≤ slot → ∃ u, exec (.openStream n) s = .next u ∧ TookEntry s u n b (some 2) ∧ u.syn = s.syn) ∧
    (slot < 16 → tabGet s.syn.streams slot ≠ none → ∃ u, exec (.openStream n) s = .next u ∧ TookEntry s u n b (some 0x11) ∧ u.syn = s.syn) ∧
    (∀ h, slot < 16 → tabGet s.syn.streams slot = none → s.vread (s.wringCtx n) (leAt b 8 8) .read 64 = .ok h →
      (streamOk h = false → ∃ u, exec (.openStream n) s = .next u ∧ TookEntry s u n b (some 0x10) ∧ u.syn = s.syn) ∧
      (streamOk h = true → ∃ u, exec (.openStream n) s = .next u ∧ TookEntry s u n b (some 0) ∧
        tabGet u.syn.streams slot = some (streamOf h (s.wringCtx n) (leAt b 0x10 8) (leAt b 0x18 8)) ∧
        (∀ o, o ≠ slot → tabGet u.syn.streams o = tabGet s.syn.streams o) ∧ u.mem = s.mem))) ∧
  (∀ (s : State) (n : Nat) (b : List Byte), s.EntryWaits n b → leAt b 0 1 = 3 →
    let slot := leAt b 0x20 4
    (tabGet s.syn.streams slot = none → ∃ u, exec (.closeStream n) s = .next u ∧ TookEntry s u n b (some 0x12) ∧ u.syn = s.syn) ∧
    (tabGet s.syn.streams slot ≠ none → s.isClosing slot = false →
      (s.frameRuns slot = true → ∃ u, exec (.closeStream n) s = .next u ∧ TookEntry s u n b none ∧ u.syn = s.syn) ∧
      (s.frameRuns slot = false → ∃ u, exec (.closeStream n) s = .next u ∧ TookEntry s u n b (some 0) ∧ tabGet u.syn.streams slot = none ∧
        u.syn.invs = s.syn.invs ++ [some slot]))) ∧
  (∀ (s : State) (n rd : Nat) (b : List Byte), s.EntryWaits n b → leAt b 0 1 = 2 →
    let slot := leAt b 0x20 4; let va := leAt b 8 8
    (tabGet s.syn.streams slot = none → ∃ u, exec (.frame n rd) s = .next u ∧ TookEntry s u n b (some 0x12) ∧ u.syn = s.syn) ∧
    (∀ st, tabGet s.syn.streams slot = some st → s.isClosing slot = false →
      (s.syn.rmap = none → ∃ u, exec (.frame n rd) s = .next u ∧ TookEntry s u n b (some 2) ∧ u.syn = s.syn) ∧
      (s.syn.rmap ≠ none → va % 256 ≠ 0 → ∃ u, exec (.frame n rd) s = .next u ∧ TookEntry s u n b (some 0x107) ∧ u.syn = s.syn) ∧
      (∀ h, s.syn.rmap ≠ none → va % 256 = 0 → s.vread st.ctx va .read 64 = .ok h →
        (st.headerCode h ≠ 0 → ∃ u, exec (.frame n rd) s = .next u ∧ TookEntry s u n b (some (0x100 + st.headerCode h)) ∧ u.syn = s.syn) ∧
        (∀ pb db s2, let np := leAt h 0x1C 2; let nd := leAt h 0x20 4; let ds := (List.range np).map (fun i => (pb.drop (64 * i)).take 64)
          let f : FrameInfo := ⟨va, leAt h 0xC 4, leAt h 0x30 8, leAt h 0x28 4 + 16 * nd, bitAt (leAt h 0x18 4) 0⟩
          let es := s.resolveAll st f (ds.map planeOf) db
          st.headerCode h = 0 → s.vread st.ctx (va + leAt h 0x24 4) .read (64 * np) = .ok pb → s.vread st.ctx (va + leAt h 0x28 4) .read (16 * nd) = .ok db →
          leAt h 0x38 4 = crc32c (pb ++ db) → st.planesCode nd ds = 0 → s.writeDir st.ctx rd es = .ok s2 →
          ∃ u, exec (.frame n rd) s = .next u ∧ TookEntry s u n b none ∧ u.mem = s2.mem ∧
            ((u.wring n).cmds.getLast?).map (fun c => (c.seq, c.oldest)) = some (f.seq, oldestRef f.seq es) ∧
            tabGet u.syn.streams slot = some { st with last := some ⟨f.seq, leAt h 0x10 8, rd, ds.map planeOf⟩ } ∧
            (∃ w, u.synWork s.syn.nextWork = some w ∧ w.band = none ∧ w.slot = slot ∧ w.seq = f.seq ∧ w.started = 0) ∧
            u.syn.nextWork = s.syn.nextWork + 1)))) ∧
  (∀ (s : State) (n : Nat) (b ab : List Byte), s.EntryWaits n b → leAt b 0 1 = 4 → s.vread (s.wringCtx n) (leAt b 8 8) .read 512 = .ok ab →
    let found := s.checkTiles (s.wringCtx n) ((List.range 64).map (fun t => (t, leAt ab (8 * t) 8))) []
    (found = .bad → ∃ u, exec (.bindRaymap n) s = .next u ∧ TookEntry s u n b (some 0x20) ∧ u.syn = s.syn) ∧
    (∀ tiles, found = .ok tiles → ∃ u, exec (.bindRaymap n) s = .next u ∧ TookEntry s u n b (some 0) ∧ u.get R.SYN_STAT_RMAP_BOUND = 1 ∧
      (let m : RayMap := ⟨s.wringCtx n, tiles.map (fun p => (p.1, p.2.1))⟩
       if s.syn.rmap = none then u.syn.rmap = some m else u.syn.rmap = s.syn.rmap ∧ u.syn.rmapNext = some m) ∧ u.mem = s.mem))

open Sys2Proof Sys2Proof.Machine in
/-- R399–R401, R403, R407. Work rings.
Completion: on conditions on the state and the operands alone, each of these answers a next state that has its own effect: doorbell,
deviceDoorbell, workCompletion, cqhWrite, workRingHalt, workRingEn. -/
def Obligations.WorkRingProtocol : Prop :=
  (∀ (s : State) (n tail : Nat), n < 32 →
    let c := s.get (R.HST_WR_CFG_CORE n)
    (s.on (R.HST_WR_CFG_EN n) = true → s.wringCtx n ≠ 0 → tail < s.wringSize n →
      ∃ u, exec (.doorbell n tail) s = .next u ∧ (u.wring n).tail = tail ∧ (u.wring n).cmds = (s.wring n).cmds ∧
        u.get (R.HST_CNT_COUNT 2) = (s.get (R.HST_CNT_COUNT 2) + 1) % 2 ^ 32 ∧
        (if (s.events c).any (isDoorbell n) then (u.events c).length = (s.events c).length ∧ ∃ e ∈ u.events c, e = doorbellEv n tail
         else u.events c = s.events c ++ [doorbellEv n tail]) ∧ (∀ o, o ≠ c → u.stw o = s.stw o) ∧ u.mem = s.mem) ∧
    ((s.on (R.HST_WR_CFG_EN n) = false ∨ s.wringCtx n = 0 ∨ s.wringSize n ≤ tail) →
      ∃ u, exec (.doorbell n tail) s = .next u ∧ u.get (R.HST_CNT_COUNT 4) = (s.get (R.HST_CNT_COUNT 4) + 1) % 2 ^ 32 ∧
        u = { s with regs := u.regs } ∧ RegsBut s u [(R.HST_CNT_COUNT 4).addr])) ∧
  (∀ (s : State) (n v : Nat), let c := if n < 32 then s.get (R.HST_WR_CFG_CORE n) else n % 8
    (s.events c).any (isDoorbell n) = false →
    ∃ u, exec (.deviceDoorbell n v) s = .next u ∧ u.events c = s.events c ++ [doorbellEv n v] ∧ (∀ o, o ≠ c → u.stw o = s.stw o) ∧
      u.hst = s.hst ∧ u.mem = s.mem ∧ RegsBut s u [(R.HST_CNT_COUNT 2).addr]) ∧
  (∀ (s : State) (n : Nat) (c : TakenCmd) (rest : List TakenCmd) (d : Completion), n < 32 → (s.wring n).cmds = c :: rest → c.done = some d →
    (s.on (R.HST_WR_CFG_EN n) = false → ∃ u, exec (.workCompletion n) s = .next u ∧ (u.wring n).cmds = rest ∧
      u.get (R.HST_CNT_COUNT 5) = (s.get (R.HST_CNT_COUNT 5) + 1) % 2 ^ 32 ∧ u.mem = s.mem) ∧
    (s.wringRuns n = true → s.cqRoom n = false → ∃ u, exec (.workCompletion n) s = .next u ∧ u.get (R.HST_WR_STAT_CQ_FULL n) = 1 ∧ u = { s with regs := u.regs }) ∧
    (∀ pa, s.wringRuns n = true → s.cqRoom n = true → s.hbmOpen = true → pa + 32 ≤ hbmTop → d.result.length = 24 →
      (∀ i, i < 32 → s.translate (s.wringCtx n)
        (s.addrOf (R.HST_WR_CQ_LO_ADDR n) (R.HST_WR_CQ_HI_ADDR n) + 32 * ((s.wring n).cqn % s.wringSize n) + i) .write = .ok (pa + i)) →
      ∃ u, exec (.workCompletion n) s = .next u ∧ (u.wring n).cmds = rest ∧ (u.wring n).cqn = ((s.wring n).cqn + 1) % 8192 ∧
        u.memBytes pa 32 = leBytes 4 d.tag ++ leBytes 2 d.status ++ leBytes 1 d.op ++ leBytes 1 (1 - (s.wring n).cqn / s.wringSize n % 2) ++ d.result ∧
        (∀ a, (a < pa ∨ pa + 32 ≤ a) → u.memByte a = s.memByte a) ∧ (d.irq = true → u.get (causeFld Irq.HST_WR_DONE) = 1) ∧
        u.get (R.HST_WR_STAT_CQ_FULL n) = 0)) ∧
  (∀ (s : State) (n q : Nat), n < 32 → q < 8192 →
    ∃ u, exec (.cqhWrite n q) s = .next u ∧ (s.on (R.HST_WR_STAT_CQ_FULL n) = false → u.get (R.HST_WR_CQH_CQH n) = q ∧ u = { s with regs := u.regs }) ∧
      (s.on (R.HST_WR_STAT_CQ_FULL n) = true → subMod 13 (s.wring n).cqn q < s.wringSize n → (s.wring n).cmds = [] → u.get (R.HST_WR_STAT_CQ_FULL n) = 0)) ∧
  (∀ (s : State) (n cause : Nat), n < 32 → cause < 16 → s.wringRuns n = true →
    ∃ u, exec (.workRingHalt n cause) s = .next u ∧ u.get (R.HST_WR_STAT_STATE n) = 2 ∧ u.get (R.HST_WR_STAT_CAUSE n) = cause ∧
      u.get (causeFld Irq.HST_WR_FAULT) = 1 ∧ u.hst = s.hst ∧ u.mem = s.mem) ∧
  (∀ (s : State) (n : Nat), n < 32 →
    (∃ u, exec (.workRingEn n false) s = .next u ∧ u.get (R.HST_WR_CFG_EN n) = 0 ∧ u.get (R.HST_WR_STAT_STATE n) = 0 ∧
      u.get (R.HST_WR_STAT_CQ_FULL n) = 0 ∧ u = { s with regs := u.regs }) ∧
    (s.on (R.HST_WR_CFG_EN n) = false → s.wringCtx n ≠ 0 →
      ∃ u, exec (.workRingEn n true) s = .next u ∧ u.get (R.HST_WR_CFG_EN n) = 1 ∧ u.get (R.HST_WR_STAT_STATE n) = 1 ∧
        (u.wring n).tail = s.get (R.HST_WR_HEAD_HEAD n) ∧ (u.wring n).cqn = 0 ∧ (u.wring n).cmds = (s.wring n).cmds ∧ u.mem = s.mem))

namespace Sys2Proof.Machine
open Sys2Proof

/-! ### Aqken: arithmetic, logic, conversions, compares, moves, immediates (R143–R149) -/

/-- R143. The instructions of the integer table, each with the sources it uses and its operation at width `w`. -/
def intRules (w : Nat) : List ((Thr → FmtA → Instr) × Srcs × (BitVec w → BitVec w → BitVec w → BitVec w)) :=
  let pos := fun (b : BitVec w) => b.toNat % 64
  let len := fun (b : BitVec w) => b.toNat / 256 % 64
  [ (.iadd, srcAB, fun a b _ => a + b),
    (.isub, srcAB, fun a b _ => a - b),
    (.imul, srcAB, fun a b _ => a * b),
    (.imulhi, srcAB, fun a b _ => (a.signExtend (2 * w) * b.signExtend (2 * w)).extractLsb' w w),
    (.umulhi, srcAB, fun a b _ => (a.setWidth (2 * w) * b.setWidth (2 * w)).extractLsb' w w),
    (.imad, srcABC, fun a b c => a * b + c),
    (.imin, srcAB, fun a b _ => if b.slt a then b else a),
    (.imax, srcAB, fun a b _ => if a.slt b then b else a),
    (.umin, srcAB, fun a b _ => if b.ult a then b else a),
    (.umax, srcAB, fun a b _ => if a.ult b then b else a),
    (.iabs, srcA, fun a _ _ => if a.slt 0 then -a else a),
    (.andOp, srcAB, fun a b _ => a &&& b),
    (.orOp, srcAB, fun a b _ => a ||| b),
    (.xorOp, srcAB, fun a b _ => a ^^^ b),
    (.andn, srcAB, fun a b _ => a &&& ~~~b),
    (.shl, srcAB, fun a b _ => a <<< (b.toNat % w)),
    (.shr, srcAB, fun a b _ => a >>> (b.toNat % w)),
    (.sar, srcAB, fun a b _ => a.sshiftRight (b.toNat % w)),
    (.popc, srcA, fun a _ _ => BitVec.ofNat w ((List.range w).filter (fun i => a.getLsbD i)).length),
    (.clz, srcA, fun a _ _ => BitVec.ofNat w (w - ((List.range w).filter (fun i => a.getLsbD i)).foldl (fun _ i => i + 1) 0)),
    (.bfe, srcAB, fun a b _ => (a >>> pos b) &&& BitVec.ofNat w (2 ^ len b - 1)),
    (.bfi, srcABC, fun a b c =>
      let m := BitVec.ofNat w (2 ^ len b - 1) <<< pos b
      (c &&& ~~~m) ||| ((a <<< pos b) &&& m)) ]

end Sys2Proof.Machine

open Sys2Proof Sys2Proof.Machine in
/-- R140, R143. For each instruction of the integer table: the vector form writes its result in the active lanes alone, the scalar form
writes sD (never s0), PC moves on, and nothing else changes.
Completion: on conditions on the state and the operands alone, each of these answers a next state that has its own effect: iadd, isub, imul,
imulhi, umulhi, imad, imin, imax, umin, umax, iabs, andOp, orOp, xorOp, andn, shl, shr, sar, popc, clz, bfe, bfi. -/
def Obligations.IntegerResults : Prop :=
  ∀ (s : State) (t : Thr) (f : FmtA),
    (∀ r ∈ intRules 32, f.scl = false → legalA (thrIsS t) f r.2.1 (unused f.mod) = true → Issues s t (touchA f r.2.1 true) →
      ∃ u, exec (r.1 t f) s = .next u ∧
        WroteLanes s u t (s.mask t f.pred f.neg) f.d (fun l => r.2.2 ((s.th t).vw f.a l) (s.laneB t f l) ((s.th t).vw f.rc l))) ∧
    (∀ r ∈ intRules 64, f.scl = true → legalA (thrIsS t) f r.2.1 (unused f.mod) = true → Issues s t (touchA f r.2.1 true) →
      ∃ u, exec (r.1 t f) s = .next u ∧
        WroteScalar s u t (decide (s.mask t f.pred f.neg ≠ 0)) f.d (r.2.2 ((s.th t).sw f.a) ((s.th t).sw f.b) ((s.th t).sw f.rc)))

namespace Sys2Proof.Machine
open Sys2Proof

/-- R144. The instructions of the floating-point table on 32-bit patterns. -/
def floatRules : List ((Thr → FmtA → Instr) × Srcs × (Nat → Nat → Nat → Nat)) :=
  [ (.fadd, srcAB, fun a b _ => fadd f32 a b),
    (.fsub, srcAB, fun a b _ => fsub f32 a b),
    (.fmul, srcAB, fun a b _ => fmul f32 a b),
    (.ffma, srcABC, fun a b c => ffma f32 a b c),
    (.fmin, srcAB, fun a b _ => fmin f32 a b),
    (.fmax, srcAB, fun a b _ => fmax f32 a b),
    (.fabs, srcA, fun a _ _ => a % 2 ^ 31),
    (.fneg, srcA, fun a _ _ => (a + 2 ^ 31) % 2 ^ 32),
    (.hadd2, srcAB, fun a b c => halves (fun x y _ => fadd f16 x y) a b c),
    (.hmul2, srcAB, fun a b c => halves (fun x y _ => fmul f16 x y) a b c),
    (.hfma2, srcABC, fun a b c => halves (fun x y z => ffma f16 x y z) a b c),
    (.hmin2, srcAB, fun a b c => halves (fun x y _ => fmin f16 x y) a b c),
    (.hmax2, srcAB, fun a b c => halves (fun x y _ => fmax f16 x y) a b c),
    (.frcp, srcA, fun a _ _ => frcp a),
    (.frsq, srcA, fun a _ _ => frsq a),
    (.fsqrt, srcA, fun a _ _ => fsqrt f32 a),
    (.fdiv, srcAB, fun a b _ => fdiv f32 a b),
    (.fexp2, srcA, fun a _ _ => fexp2 a),
    (.flog2, srcA, fun a _ _ => flog2 a),
    (.fsin, srcA, fun a _ _ => ftrig 0x36 0 a),
    (.fcos, srcA, fun a _ _ => ftrig 0x37 1 a) ]

end Sys2Proof.Machine

open Sys2Proof Sys2Proof.Machine in
/-- R140, R144. Results of the floating-point instructions.
Completion: on conditions on the state and the operands alone, each of these answers a next state that has its own effect: fadd, fsub, fmul,
ffma, fmin, fmax, fabs, fneg, hadd2, hmul2, hfma2, hmin2, hmax2, frcp, frsq, fsqrt, fdiv, fexp2, flog2, fsin, fcos. -/
def Obligations.FloatResults : Prop :=
  ∀ (s : State) (t : Thr) (f : FmtA), ∀ r ∈ floatRules, legalA (thrIsS t) f r.2.1 (unused f.mod) = true → Issues s t (touchA f r.2.1 true) →
    (f.scl = false → ∃ u, exec (r.1 t f) s = .next u ∧ WroteLanes s u t (s.mask t f.pred f.neg) f.d
      (fun l => BitVec.ofNat 32 (r.2.2 ((s.th t).vw f.a l).toNat (s.laneB t f l).toNat ((s.th t).vw f.rc l).toNat))) ∧
    (f.scl = true → ∃ u, exec (r.1 t f) s = .next u ∧ WroteScalar s u t (decide (s.mask t f.pred f.neg ≠ 0)) f.d
      ((BitVec.ofNat 32 (r.2.2 (((s.th t).sw f.a).toNat % 2 ^ 32) (((s.th t).sw f.b).toNat % 2 ^ 32)
        (((s.th t).sw f.rc).toNat % 2 ^ 32))).setWidth 64))

namespace Sys2Proof.Machine
open Sys2Proof

/-- The real value of a finite pattern. -/
noncomputable def finVal (s : Bool) (m : Nat) (e : Int) : ℝ := (if s then -1 else 1) * (m : ℝ) * (2 : ℝ) ^ e

/-- R145. `r` is `x` rounded to nearest even in a binary format: no finite value lies nearer, a tie goes to the even fraction, and from
half a unit above the largest finite value on the result is an infinity. -/
def NearestEven (f : FFmt) (x : ℝ) (r : Nat) : Prop :=
  let top : ℝ := ((2 : ℝ) ^ f.p - 1 / 2) * (2 : ℝ) ^ (f.qmin + (2 ^ f.ew - 3 : Nat))
  match fdec f r with
  | .nan => False
  | .inf neg => top ≤ (if neg then -x else x)
  | .num neg m e => |x| < top ∧ ∀ b n k j, fdec f b = .num n k j →
      |finVal neg m e - x| ≤ |finVal n k j - x| ∧ (|finVal neg m e - x| = |finVal n k j - x| → finVal neg m e ≠ finVal n k j → m % 2 = 0)

end Sys2Proof.Machine

open Sys2Proof Sys2Proof.Machine in
/-- R144, R145. Round-to-nearest-even of the exact result. -/
def Obligations.FloatResultsCorrectlyRounded : Prop :=
  ∀ f ∈ [f32, f16], ∀ (a b c : Nat) (s1 s2 s3 : Bool) (m1 m2 m3 : Nat) (e1 e2 e3 : Int),
    fdec f a = .num s1 m1 e1 → fdec f b = .num s2 m2 e2 → fdec f c = .num s3 m3 e3 →
    let x := finVal s1 m1 e1; let y := finVal s2 m2 e2; let z := finVal s3 m3 e3
    (x + y ≠ 0 → NearestEven f (x + y) (fadd f a b)) ∧
    (x - y ≠ 0 → NearestEven f (x - y) (fsub f a b)) ∧
    (x * y ≠ 0 → NearestEven f (x * y) (fmul f a b)) ∧
    (x * y + z ≠ 0 → NearestEven f (x * y + z) (ffma f a b c)) ∧
    (x ≠ 0 → y ≠ 0 → NearestEven f (x / y) (fdiv f a b)) ∧
    (0 < x → NearestEven f (Real.sqrt x) (fsqrt f a))

open Sys2Proof Sys2Proof.Machine in
/-- R145. NaN results, zeros, and the special values of the approximations. -/
def Obligations.FloatSpecialResults : Prop :=
  (∀ f ∈ [f32, f16], ∀ a b c, ∀ r ∈ [fadd f a b, fsub f a b, fmul f a b, ffma f a b c, fdiv f a b, fsqrt f a], fdec f r = .nan → r = f.qnan) ∧
  f32.qnan = 0x7FC00000 ∧ f16.qnan = 0x7E00 ∧
  (∀ f ∈ [f32, f16], ∀ a b, fdec f a = .nan → fdec f b ≠ .nan → fmin f a b = b ∧ fmin f b a = b ∧ fmax f a b = b ∧ fmax f b a = b) ∧
  (∀ f ∈ [f32, f16], ∀ x y, (x = f.zeroBits true ∧ y = f.zeroBits false ∨ x = f.zeroBits false ∧ y = f.zeroBits true) →
    fmin f x y = f.zeroBits true ∧ fmax f x y = f.zeroBits false) ∧
  (∀ a, (fdec f32 a = .nan ∨ ∃ n, fdec f32 a = .inf n) → ftrig 0x36 0 a = 0x7FC00000 ∧ ftrig 0x37 1 a = 0x7FC00000) ∧
  (∀ a, fdec f32 a = .nan → fexp2 a = 0x7FC00000 ∧ flog2 a = 0x7FC00000 ∧ frcp a = 0x7FC00000 ∧ frsq a = 0x7FC00000) ∧
  fexp2 0 = 0x3F800000 ∧ fexp2 0x80000000 = 0x3F800000 ∧ fexp2 0x7F800000 = 0x7F800000 ∧ fexp2 0xFF800000 = 0 ∧
  flog2 0 = 0xFF800000 ∧ flog2 0x80000000 = 0xFF800000 ∧ flog2 0x7F800000 = 0x7F800000 ∧ flog2 0xFF800000 = 0x7FC00000 ∧
  frcp 0 = 0x7F800000 ∧ frcp 0x80000000 = 0xFF800000 ∧ frcp 0x7F800000 = 0 ∧ frcp 0xFF800000 = 0x80000000 ∧
  frsq 0 = 0x7F800000 ∧ frsq 0x80000000 = 0xFF800000 ∧ frsq 0x7F800000 = 0 ∧ frsq 0xFF800000 = 0x7FC00000

namespace Sys2Proof.Machine
open Sys2Proof

/-- R146. The conversions: sources, the MOD values that are legal, and the operation on a vector lane and on scalars. -/
def convRules : List ((Thr → FmtA → Instr) × Srcs × (Nat → Bool) × (Nat → Word → Word → Word) × (Nat → BitVec 64 → BitVec 64 → BitVec 64)) :=
  let rnd := fun m => decide (m < 4)
  let none := fun m => decide (m = 0)
  let low := fun (x : BitVec 64) => x.toNat % 2 ^ 32
  [ (.f2i, srcA, rnd, fun m a _ => BitVec.ofInt 32 (ftoSInt f32 (rndOf m) 32 a.toNat), fun m a _ => BitVec.ofInt 64 (ftoSInt f32 (rndOf m) 64 (low a))),
    (.f2u, srcA, rnd, fun m a _ => BitVec.ofNat 32 (ftoUInt f32 (rndOf m) 32 a.toNat), fun m a _ => BitVec.ofNat 64 (ftoUInt f32 (rndOf m) 64 (low a))),
    (.i2f, srcA, rnd, fun m a _ => BitVec.ofNat 32 (fofInt f32 (rndOf m) a.toInt), fun m a _ => BitVec.ofNat 64 (fofInt f32 (rndOf m) a.toInt)),
    (.u2f, srcA, rnd, fun m a _ => BitVec.ofNat 32 (fofInt f32 (rndOf m) a.toNat), fun m a _ => BitVec.ofNat 64 (fofInt f32 (rndOf m) a.toNat)),
    (.f2h2, srcAB, rnd, fun m a b => BitVec.ofNat 16 (fconv f32 f16 (rndOf m) b.toNat) ++ BitVec.ofNat 16 (fconv f32 f16 (rndOf m) a.toNat),
      fun m a b => (BitVec.ofNat 16 (fconv f32 f16 (rndOf m) (low b)) ++ BitVec.ofNat 16 (fconv f32 f16 (rndOf m) (low a))).setWidth 64),
    (.h2fl, srcA, none, fun _ a _ => BitVec.ofNat 32 (fconv f16 f32 .ne (a.extractLsb' 0 16).toNat), fun _ a _ => BitVec.ofNat 64 (fconv f16 f32 .ne (a.extractLsb' 0 16).toNat)),
    (.h2fh, srcA, none, fun _ a _ => BitVec.ofNat 32 (fconv f16 f32 .ne (a.extractLsb' 16 16).toNat), fun _ a _ => BitVec.ofNat 64 (fconv f16 f32 .ne (a.extractLsb' 16 16).toNat)),
    (.f2un10, srcA, none, fun _ a _ => BitVec.ofNat 32 (f2un10 a.toNat), fun _ a _ => BitVec.ofNat 64 (f2un10 (low a))) ]

end Sys2Proof.Machine

open Sys2Proof Sys2Proof.Machine in
/-- R140, R146. Results of the conversions and of PK30.
Completion: on conditions on the state and the operands alone, each of these answers a next state that has its own effect: pk30, f2i, f2u, i2f,
u2f, f2h2, h2fl, h2fh, f2un10. -/
def Obligations.ConversionResults : Prop :=
  (∀ (s : State) (t : Thr) (f : FmtA), ∀ r ∈ convRules, legalA (thrIsS t) f r.2.1 (r.2.2.1 f.mod) = true → Issues s t (touchA f r.2.1 true) →
    (f.scl = false → ∃ u, exec (r.1 t f) s = .next u ∧
      WroteLanes s u t (s.mask t f.pred f.neg) f.d (fun l => r.2.2.2.1 f.mod ((s.th t).vw f.a l) (s.laneB t f l))) ∧
    (f.scl = true → ∃ u, exec (r.1 t f) s = .next u ∧
      WroteScalar s u t (decide (s.mask t f.pred f.neg ≠ 0)) f.d (r.2.2.2.2 f.mod ((s.th t).sw f.a) ((s.th t).sw f.b)))) ∧
  (∀ (s : State) (t : Thr) (f : FmtA), legalA (thrIsS t) f srcABC (unused f.mod) = true → Issues s t (touchA f srcABC true) →
    ∃ u tag s0, exec (.pk30 t f) s = .next u ∧ tag < 4 ∧
      (if (s.launch (s.th t).launch).isSome then s0 = s ∧ tag = (s.launchTag (thrKey t)).1 % 4 else s0 = { s with freeCtr := s.freeCtr + 1 }) ∧
      (f.scl = false → WroteLanes s0 u t (s.mask t f.pred f.neg) f.d (fun l => BitVec.ofNat 32 (tag * 2 ^ 30 +
        f2un10 ((s.th t).vw f.a l).toNat * 2 ^ 20 + f2un10 (s.laneB t f l).toNat * 2 ^ 10 + f2un10 ((s.th t).vw f.rc l).toNat))) ∧
      (f.scl = true → WroteScalar s0 u t (decide (s.mask t f.pred f.neg ≠ 0)) f.d (BitVec.ofNat 64 (tag * 2 ^ 30 +
        f2un10 (((s.th t).sw f.a).toNat % 2 ^ 32) * 2 ^ 20 + f2un10 (((s.th t).sw f.b).toNat % 2 ^ 32) * 2 ^ 10 +
        f2un10 (((s.th t).sw f.rc).toNat % 2 ^ 32)))))

open Sys2Proof Sys2Proof.Machine in
/-- R146, R76. The unorm conversion of a real value. -/
def Obligations.UnormConversionExact : Prop :=
  (∀ a n m e, fdec f32 a = .num n m e → (f2un10 a : Int) = ⌊max 0 (min 1 (finVal n m e)) * 1023 + 1 / 2⌋) ∧
  (∀ a, fdec f32 a = .nan → f2un10 a = 0) ∧ f2un10 0xFF800000 = 0 ∧ f2un10 0x7F800000 = 1023

namespace Sys2Proof.Machine
open Sys2Proof

/-- R147. The integer conditions on two words: signed for ICMP, unsigned for UCMP. -/
def wordCond {w : Nat} (signed : Bool) (mod : Nat) (a b : BitVec w) : Bool :=
  let lt := fun (x y : BitVec w) => if signed then x.slt y else x.ult y
  match mod with
  | 0 => a == b | 1 => a != b | 2 => lt a b | 3 => !lt b a | 4 => lt b a | _ => !lt a b

/-- R147. The compares: the MOD values that are legal, and the condition on a lane and on scalars. -/
def cmpRules : List ((Thr → FmtA → Instr) × (Nat → Bool) × (Nat → Word → Word → Bool) × (Nat → BitVec 64 → BitVec 64 → Bool)) :=
  [ (.icmp, fun m => decide (m < 6), wordCond true, wordCond true),
    (.ucmp, fun m => decide (m < 6), wordCond false, wordCond false),
    (.fcmp, fun _ => true, fun m a b => floatCond m a.toNat b.toNat, fun m a b => floatCond m (a.toNat % 2 ^ 32) (b.toNat % 2 ^ 32)) ]

end Sys2Proof.Machine

open Sys2Proof Sys2Proof.Machine in
/-- R140, R147. Results of the compares.
Completion: on conditions on the state and the operands alone, each of these answers a next state that has its own effect: icmp, ucmp, fcmp. -/
def Obligations.CompareResults : Prop :=
  (∀ (s : State) (t : Thr) (f : FmtA), ∀ r ∈ cmpRules, legalCmp (thrIsS t) f (r.2.1 f.mod) = true → Issues s t (touchA f ⟨true, true, false⟩ false) →
    let m := s.mask t f.pred f.neg
    (f.scl = false → ∃ u, exec (r.1 t f) s = .next u ∧ WrotePred s u t true f.d (fun l =>
      if bitAt m l then r.2.2.1 f.mod ((s.th t).vw f.a l) (s.laneB t f l) else bitAt ((s.th t).pr (thrIsS t) f.d) l)) ∧
    (f.scl = true → ∃ u, exec (r.1 t f) s = .next u ∧ WrotePred s u t (decide (m ≠ 0)) f.d (fun _ =>
      r.2.2.2 f.mod ((s.th t).sw f.a) ((s.th t).sw f.b)))) ∧
  (∀ a b s1 m1 e1 s2 m2 e2, fdec f32 a = .num s1 m1 e1 → fdec f32 b = .num s2 m2 e2 →
    (floatCond 0 a b = true ↔ finVal s1 m1 e1 = finVal s2 m2 e2) ∧ (floatCond 2 a b = true ↔ finVal s1 m1 e1 < finVal s2 m2 e2) ∧
    (floatCond 3 a b = true ↔ finVal s1 m1 e1 ≤ finVal s2 m2 e2)) ∧
  (∀ a b m, (fdec f32 a = .nan ∨ fdec f32 b = .nan) → floatCond m a b = (m == 1 || m == 6))

open Sys2Proof Sys2Proof.Machine in
/-- R140, R148. Results of the predicate and move instructions.
Completion: on conditions on the state and the operands alone, each of these answers a next state that has its own effect: pand, por, pxor,
pandn, pcnt, ptos, stop, mov, sel, lanerd, shfl. -/
def Obligations.PredicateAndMoveResults : Prop :=
  ∀ (s : State) (t : Thr) (f : FmtA),
    let th := s.th t; let isS := thrIsS t; let m := s.mask t f.pred f.neg; let run := decide (m ≠ 0)
    (∀ r ∈ ([(.pand, fun a b => a && b), (.por, fun a b => a || b), (.pxor, fun a b => a ^^ b), (.pandn, fun a b => a && !b)] :
        List ((Thr → FmtA → Instr) × (Bool → Bool → Bool))),
      legalP f (preOk f.d) (preOk f.a) (preOk f.b) = true → Issues s t ⟨[], []⟩ → ∃ u, exec (r.1 t f) s = .next u ∧
        WrotePred s u t true f.d (fun l => if bitAt m l then r.2 (bitAt (th.pr isS f.a) l) (bitAt (th.pr isS f.b) l) else bitAt (th.pr isS f.d) l)) ∧
    (legalP f (scaOk f.d) (preOk f.a) (unused f.b) = true → Issues s t ⟨[], [f.d]⟩ →
      (∃ u, exec (.pcnt t f) s = .next u ∧
        WroteScalar s u t run f.d (BitVec.ofNat 64 ((List.range 64).filter (fun l => bitAt (th.pr isS f.a) l)).length)) ∧
      (∃ u, exec (.ptos t f) s = .next u ∧ WroteScalar s u t run f.d (BitVec.ofNat 64 (th.pr isS f.a)))) ∧
    (legalP f (preOk f.d) (scaOk f.a) (unused f.b) = true → Issues s t ⟨[], [f.a]⟩ →
      ∃ u, exec (.stop t f) s = .next u ∧ WrotePred s u t run f.d (fun l => (th.sw f.a).getLsbD l)) ∧
    (legalA isS f srcB (unused f.mod) = true → Issues s t (touchA f srcB true) →
      ∃ u, exec (.mov t f) s = .next u ∧ (f.scl = false → WroteLanes s u t m f.d (s.laneB t f)) ∧
        (f.scl = true → WroteScalar s u t run f.d (th.sw f.b))) ∧
    (legalA isS f srcAB true = true → Issues s t (touchA f srcAB true) →
      ∃ u, exec (.sel t f) s = .next u ∧
        (f.scl = false → WroteLanes s u t m f.d (fun l => if bitAt (th.pr isS f.mod) l then th.vw f.a l else s.laneB t f l)) ∧
        (f.scl = true → WroteScalar s u t run f.d (if bitAt (th.pr isS f.mod) 0 then th.sw f.a else th.sw f.b))) ∧
    (legalP f (scaOk f.d) true (scaOk f.b) = true → isS = false → Issues s t ⟨[f.a], [f.d, f.b]⟩ →
      ∃ u, exec (.lanerd t f) s = .next u ∧ WroteScalar s u t run f.d ((th.vw f.a ((th.sw f.b).toNat % 64)).setWidth 64)) ∧
    (legalA isS f srcAB (unused f.mod) = true → f.scl = false → Issues s t (touchA f srcAB true) →
      ∃ u, exec (.shfl t f) s = .next u ∧ WroteLanes s u t m f.d (fun l => th.vw f.a ((s.laneB t f l).toNat % 64)))

namespace Sys2Proof.Machine
open Sys2Proof

/-- R149. The immediate instructions but MOVHI: whether they use A, the immediate kinds they accept, and the operation at width `w`. -/
def immRules (w : Nat) : List ((Thr → FmtI → Instr) × Bool × List Nat × (BitVec w → BitVec w → BitVec w)) :=
  [ (.movi, false, [0, 1, 2], fun _ i => i),
    (.iaddi, true, [0, 2], fun a i => a + i),
    (.andi, true, [0, 2], fun a i => a &&& i),
    (.ori, true, [0, 2], fun a i => a ||| i),
    (.xori, true, [0, 2], fun a i => a ^^^ i),
    (.shli, true, [2], fun a i => a <<< (i.toNat % w)),
    (.shri, true, [2], fun a i => a >>> (i.toNat % w)),
    (.sari, true, [2], fun a i => a.sshiftRight (i.toNat % w)) ]

/-- R149. The immediate, extended under IK. -/
def immWord (w : Nat) (f : FmtI) : BitVec w := if f.ik = 0 then (BitVec.ofNat 32 f.imm).signExtend w else (BitVec.ofNat 32 f.imm).setWidth w

end Sys2Proof.Machine

open Sys2Proof Sys2Proof.Machine in
/-- R140, R149. Results of the immediate instructions.
Completion: on conditions on the state and the operands alone, each of these answers a next state that has its own effect: movhi, movi, iaddi,
andi, ori, xori, shli, shri, sari. -/
def Obligations.ImmediateResults : Prop :=
  ∀ (s : State) (t : Thr) (f : FmtI), f.imm < 2 ^ 32 →
    let m := s.mask t f.pred f.neg
    (∀ r ∈ immRules 32, f.scl = false → legalI (thrIsS t) f r.2.1 (r.2.2.1.contains f.ik) = true → Issues s t (touchI f r.2.1) →
      ∃ u, exec (r.1 t f) s = .next u ∧ WroteLanes s u t m f.d (fun l => r.2.2.2 ((s.th t).vw f.a l) (immWord 32 f))) ∧
    (∀ r ∈ immRules 64, f.scl = true → legalI (thrIsS t) f r.2.1 (r.2.2.1.contains f.ik) = true → Issues s t (touchI f r.2.1) →
      ∃ u, exec (r.1 t f) s = .next u ∧ WroteScalar s u t (decide (m ≠ 0)) f.d (r.2.2.2 ((s.th t).sw f.a) (immWord 64 f))) ∧
    (f.scl = true → legalI (thrIsS t) f false (decide (f.ik = 2)) = true → Issues s t (touchI f false) →
      ∃ u, exec (.movhi t f) s = .next u ∧
        WroteScalar s u t (decide (m ≠ 0)) f.d (BitVec.ofNat 32 f.imm ++ ((s.th t).sw f.d).setWidth 32))

namespace Sys2Proof.Machine
open Sys2Proof

/-! ### Aqken: memory (R101–R108, R150–R154) -/

/-- R150. A loaded value in a `w`-bit register, extended under SX. -/
def loadWord (f : FmtM) (w v : Nat) : BitVec w :=
  if f.sx then (BitVec.ofNat (8 * fmBytes f) v).signExtend w else (BitVec.ofNat (8 * fmBytes f) v).setWidth w

/-- R150. The acting lanes of `t` have loaded the values `val`: sD, the lanes of vD, or the pair vD, vD+1 with the low word first. PC
moves on; nothing else changes. -/
def Loaded (s u : State) (t : Thr) (f : FmtM) (val : Nat → Nat) : Prop :=
  let m := s.mask t f.pred f.neg
  (f.scl = true → WroteScalar s u t (decide (m ≠ 0)) f.d (loadWord f 64 (val 0))) ∧
  (f.scl = false → f.size ≠ 3 → WroteLanes s u t m f.d (fun l => loadWord f 32 (val l))) ∧
  (f.scl = false → f.size = 3 → OnlyThread s u t ∧ u.th t = { s.th t with v := (u.th t).v, pc := (s.th t).pc + 8 } ∧
    ∀ n l, l < 64 → (u.th t).vw n l =
      if n = f.d ∧ bitAt m l = true then BitVec.ofNat 32 (val l)
      else if n = f.d + 1 ∧ bitAt m l = true then BitVec.ofNat 32 (val l / 2 ^ 32) else (s.th t).vw n l)

/-- The acting lanes of a memory instruction: active lanes, or lane 0 of a scalar access that runs. -/
def State.lanesM (s : State) (t : Thr) (f : FmtM) : List Nat := (s.th t).memLanes (thrIsS t) f
/-- The address of a lane. -/
def State.addrM (s : State) (t : Thr) (f : FmtM) (l : Nat) : Nat := (s.th t).memAddr f l

/-- R152, R154. Every acting lane meets the local checks: inside the local space, and aligned. -/
def LocalOk (s : State) (t : Thr) (f : FmtM) : Prop := ∀ l ∈ s.lanesM t f, s.addrM t f l < localEnd t ∧ s.addrM t f l % fmBytes f = 0

/-- One byte of a thread's local space. -/
def State.localByte (s : State) (t : Thr) (a : Nat) : Nat := s.localRead t a 1

/-- Which local space a thread has: its engine's, the stewards', or the Watch's. -/
def localHome : Thr → Nat
  | .eng e _ => e
  | .stw _ => 256
  | .watch => 257

/-- Nothing changes but the thread's PC and its local space, and of the local spaces only that of `t`. -/
def OnlyLocal (s u : State) (t : Thr) : Prop :=
  u = { s with aq := { s.aq with threads := u.aq.threads, lstore := u.aq.lstore, sram := u.aq.sram, wsram := u.aq.wsram } } ∧
  (∀ k, k ≠ thrKey t → u.thr k = s.thr k) ∧
  ∀ t' a, localHome t' ≠ localHome t → a < localEnd t' → u.localByte t' a = s.localByte t' a

end Sys2Proof.Machine

open Sys2Proof Sys2Proof.Machine in
/-- R102, R103, R150–R154. LDL and LDC.
Completion: on conditions on the state and the operands alone, each of these answers a next state that has its own effect: ldl, ldc. -/
def Obligations.LocalLoadResults : Prop :=
  ∀ (s : State) (t : Thr) (f : FmtM), Issues s t (touchM f .load) →
    (legalM (thrIsS t) f .load true = true → LocalOk s t f →
      ∃ u, exec (.ldl t f) s = .next u ∧ Loaded s u t f (fun l => s.localRead t (s.addrM t f l) (fmBytes f))) ∧
    (legalM (thrIsS t) f .load (decide (2 ≤ f.size)) = true →
      (∀ l ∈ s.lanesM t f, s.addrM t f l % 4 = 0 ∧ (thrIsS t = true → s.addrM t f l < localEnd t)) →
      (thrIsS t = true → ∃ u, exec (.ldc t f) s = .next u ∧ Loaded s u t f (fun l => s.localRead t (s.addrM t f l) (fmBytes f))) ∧
      (∀ e sl l, t = .eng e sl → s.launch (s.th t).launch = some l →
        ∃ u, exec (.ldc t f) s = .next u ∧ Loaded s u t f (fun i => leNat ((List.range (fmBytes f)).map (fun j =>
          if s.addrM t f i + j < l.desc.constSize then mapGet byteDefault s.aq.constBuf (e / 16 * 65536 + s.addrM t f i + j) else 0)))))

open Sys2Proof Sys2Proof.Machine in
/-- R150, R151, R153. STL.
Completion: on conditions on the state and the operands alone, each of these answers a next state that has its own effect: stl. -/
def Obligations.LocalStoreBytes : Prop :=
  ∀ (s : State) (t : Thr) (f : FmtM), Issues s t (touchM f .store) → legalM (thrIsS t) f .store true = true → LocalOk s t f →
    ∃ u, exec (.stl t f) s = .next u ∧ OnlyLocal s u t ∧ u.th t = { s.th t with pc := (s.th t).pc + 8 } ∧
      ∀ a, a < localEnd t → u.localByte t a =
        match (s.lanesM t f).reverse.find? (fun l => decide (s.addrM t f l ≤ a) && decide (a < s.addrM t f l + fmBytes f)) with
        | some l => (s.th t).memData f 0 l / 256 ^ (a - s.addrM t f l) % 256
        | none => s.localByte t a

namespace Sys2Proof.Machine
open Sys2Proof

/-- R151. The operation AOP on words. -/
def atomicWord {w : Nat} (aop : Nat) (m d : BitVec w) : BitVec w :=
  match aop with
  | 0 => m + d | 1 => if d.slt m then d else m | 2 => if m.slt d then d else m | 3 => if d.ult m then d else m
  | 4 => if m.ult d then d else m | 5 => m &&& d | 6 => m ||| d | _ => d

/-- R151. What lane `l` of an atomic (or, with `cas`, of a compare-and-swap) makes of the memory value `m`. -/
def atomicStep (s : State) (t : Thr) (f : FmtM) (cas : Bool) (m l : Nat) : Nat :=
  let d := fun j => BitVec.ofNat (8 * fmBytes f) ((s.th t).memData f j l)
  let m := BitVec.ofNat (8 * fmBytes f) m
  (if cas then (if m = d 0 then d 1 else m) else atomicWord f.aop m (d 0)).toNat

end Sys2Proof.Machine

open Sys2Proof Sys2Proof.Machine in
/-- R151, R153. ATL and CASL.
Completion: on conditions on the state and the operands alone, each of these answers a next state that has its own effect: casl, atl. -/
def Obligations.LocalAtomicsAscend : Prop :=
  ∀ (s : State) (t : Thr) (f : FmtM) (cas : Bool),
    let k := if cas then MemKind.cas else MemKind.atomic
    Issues s t (touchM f k) → legalM (thrIsS t) f k true = true → LocalOk s t f →
    ∃ u, exec (if cas then .casl t f else .atl t f) s = .next u ∧ OnlyLocal s u t ∧
      Loaded s { s with aq := { s.aq with threads := u.aq.threads } } t f (fun l =>
        ((s.lanesM t f).filter (fun i => decide (i < l) && decide (s.addrM t f i = s.addrM t f l))).foldl (atomicStep s t f cas)
          (s.localRead t (s.addrM t f l) (fmBytes f))) ∧
      (∀ l ∈ s.lanesM t f, u.localRead t (s.addrM t f l) (fmBytes f) =
        ((s.lanesM t f).filter (fun i => decide (s.addrM t f i = s.addrM t f l))).foldl (atomicStep s t f cas)
          (s.localRead t (s.addrM t f l) (fmBytes f))) ∧
      (∀ a, a < localEnd t → (∀ l ∈ s.lanesM t f, a < s.addrM t f l ∨ s.addrM t f l + fmBytes f ≤ a) → u.localByte t a = s.localByte t a)

namespace Sys2Proof.Machine
open Sys2Proof

/-- The HBM bytes that lane `l` of a global access reaches are `pa l`, …, one after another: the access translates and may be made. -/
def LaneAt (s : State) (t : Thr) (f : FmtM) (acc : Acc) (l pa : Nat) : Prop :=
  s.vtargets (s.thrCtx t) (s.addrM t f l) acc (fmBytes f) = .ok (List.range' pa (fmBytes f)) ∧ pa + fmBytes f ≤ hbmTop ∧
  s.addrM t f l % fmBytes f = 0

end Sys2Proof.Machine

open Sys2Proof Sys2Proof.Machine in
/-- R111, R141, R150, R151. LDG, then the return of its data.
Completion: on conditions on the state and the operands alone, each of these answers a next state that has its own effect: ldg, globalLoadReturn. -/
def Obligations.GlobalLoadReturns : Prop :=
  ∀ (s : State) (t : Thr) (f : FmtM) (val : Nat → Nat), t ≠ .watch → Issues s t (touchM f .load) → legalM (thrIsS t) f .load true = true →
    s.outstandingFull t = false → s.lanesM t f ≠ [] →
    (∀ l ∈ s.lanesM t f, s.addrM t f l % fmBytes f = 0 ∧ ∃ bs, s.vread (s.thrCtx t) (s.addrM t f l) .read (fmBytes f) = .ok bs ∧ val l = leNat bs) →
    ∃ u v, exec (.ldg t f) s = .next u ∧ exec (.globalLoadReturn t (s.th t).pend.length) u = .next v ∧
      OnlyThread s u t ∧ (∃ r, u.th t = { s.th t with pend := (s.th t).pend ++ [r], pc := (s.th t).pc + 8 }) ∧
      (f.scl = true → (u.th t).busyS f.d = true) ∧ (f.scl = false → (u.th t).busyV f.d = true) ∧ Loaded s v t f val

open Sys2Proof Sys2Proof.Machine in
/-- R150, R151, R153, R246. STG.
Completion: on conditions on the state and the operands alone, each of these answers a next state that has its own effect: stg. -/
def Obligations.GlobalStoreBytes : Prop :=
  ∀ (s : State) (t : Thr) (f : FmtM) (pa : Nat → Nat), t ≠ .watch → Issues s t (touchM f .store) → legalM (thrIsS t) f .store true = true →
    (∀ l ∈ s.lanesM t f, LaneAt s t f .write l (pa l)) →
    ∃ u, exec (.stg t f) s = .next u ∧
      u = { s with mem := u.mem, syn := { s.syn with sums := u.syn.sums }, aq := { s.aq with threads := u.aq.threads } } ∧
      (∀ k, k ≠ thrKey t → u.thr k = s.thr k) ∧ u.th t = { s.th t with pc := (s.th t).pc + 8 } ∧
      (∀ x, (∀ l ∈ s.lanesM t f, x < pa l ∨ pa l + fmBytes f ≤ x) → u.memByte x = s.memByte x) ∧
      (∀ l ∈ s.lanesM t f, ∀ i, i < fmBytes f → (∀ h ∈ s.lanesM t f, l < h → pa l + i < pa h ∨ pa h + fmBytes f ≤ pa l + i) →
        (u.memByte (pa l + i)).toNat = (s.th t).memData f 0 l / 256 ^ i % 256)

open Sys2Proof Sys2Proof.Machine in
/-- R151, R153. ATG and CASG, then the return of the old value.
Completion: on conditions on the state and the operands alone, each of these answers a next state that has its own effect: casg, atg,
globalLoadReturn. -/
def Obligations.GlobalAtomicsReturnOld : Prop :=
  ∀ (s : State) (t : Thr) (f : FmtM) (cas : Bool) (pa : Nat → Nat),
    let k := if cas then MemKind.cas else MemKind.atomic
    let i := if cas then Instr.casg t f else Instr.atg t f
    t ≠ .watch → Issues s t (touchM f k) → legalM (thrIsS t) f k true = true → s.outstandingFull t = false → s.lanesM t f ≠ [] →
    (∀ l ∈ s.lanesM t f, LaneAt s t f .atomic l (pa l) ∧ ∃ bs, s.vread (s.thrCtx t) (s.addrM t f l) .atomic (fmBytes f) = .ok bs) →
    ∃ u v, exec i s = .next u ∧ exec (.globalLoadReturn t (s.th t).pend.length) u = .next v ∧
      v = { s with mem := v.mem, syn := { s.syn with sums := v.syn.sums }, aq := { s.aq with threads := v.aq.threads } } ∧
      (∀ j, j ≠ thrKey t → v.thr j = s.thr j) ∧
      (∀ x, (∀ l ∈ s.lanesM t f, x < pa l ∨ pa l + fmBytes f ≤ x) → v.memByte x = s.memByte x) ∧
      (∀ l, s.lanesM t f = [l] →
        leNat (v.memBytes (pa l) (fmBytes f)) = atomicStep s t f cas (leNat (s.memBytes (pa l) (fmBytes f))) l ∧
        Loaded s { s with aq := { s.aq with threads := v.aq.threads } } t f (fun _ => leNat (s.memBytes (pa l) (fmBytes f))))

namespace Sys2Proof.Machine
open Sys2Proof

/-- R116–R118. A thread of an engine that runs launch `l` has faulted: it is suspended with cause, lanes and address and with PC `pc`, its
registers as its earlier instructions leave them, outstanding results landed; THREAD_FAULTS is counted, and the launching steward has one more event, the thread fault. Nothing else changes. -/
def Suspended (s u : State) (e sl : Nat) (l : LaunchSt) (cause mask addr : Nat) (pc : BitVec 48) : Prop :=
  let k := e * 4 + sl
  let th := s.thr k
  u = { s with regs := u.regs, aq := { s.aq with threads := u.aq.threads, stw := u.aq.stw } } ∧
  u.thr k = { th.landAll with state := .suspended, cause := cause, fmask := BitVec.ofNat 64 mask, faddr := BitVec.ofNat 64 addr, pc := pc } ∧
  (∀ j, j ≠ k → u.thr j = s.thr j) ∧
  RegsBut s u [(R.ENG_CNT_COUNT (e / 16) 5).addr] ∧ u.get (R.ENG_CNT_COUNT (e / 16) 5) = (s.get (R.ENG_CNT_COUNT (e / 16) 5) + 1) % 2 ^ 32 ∧
  u.events l.core = s.events l.core ++ [faultEv cause th.launch k mask (if cause = 6 then th.pc else pc).toNat addr] ∧
  ∀ c, c ≠ l.core → u.stw c = s.stw c

end Sys2Proof.Machine

open Sys2Proof Sys2Proof.Machine in
/-- R116–R118, R152. Local accesses that fail. -/
def Obligations.LocalFaultSuspends : Prop :=
  ∀ (s : State) (e sl : Nat) (f : FmtM) (l : LaunchSt),
    let t := Thr.eng e sl
    let bad := fun i => decide (0x40000 ≤ s.addrM t f i) || decide (s.addrM t f i % fmBytes f ≠ 0)
    let fs := (s.lanesM t f).filter bad
    s.launch (s.th t).launch = some l → fs ≠ [] →
    ∀ r ∈ ([(.ldl t f, .load), (.stl t f, .store), (.atl t f, .atomic), (.casl t f, .cas)] : List (Instr × MemKind)),
      Issues s t (touchM f r.2) → legalM false f r.2 true = true →
      ∃ u, exec r.1 s = .next u ∧ Suspended s u e sl l (if 0x40000 ≤ s.addrM t f (fs.headD 0) then 4 else 3)
        (fs.map (2 ^ ·)).sum (s.addrM t f (fs.headD 0)) (s.th t).pc

namespace Sys2Proof.Machine
open Sys2Proof

/-! ### Aqken: branches and system instructions (R105, R107, R112, R142, R155, R163) -/

/-- R155. Is a branch taken: any bit of the effective predicate, or every bit under ALL. -/
def branchTaken (s : State) (t : Thr) (f : FmtB) : Prop :=
  if f.all then ∀ l, l < (if thrIsS t then 1 else 64) → bitAt (s.mask t f.pred f.neg) l = true else s.mask t f.pred f.neg ≠ 0

/-- R155. The branches: whether the target comes from sA, and whether sD takes the link. -/
def branchRules : List ((Thr → FmtB → Instr) × Bool × Bool) :=
  [(.branch, false, false), (.brx, true, false), (.call, false, true), (.callx, true, true)]

end Sys2Proof.Machine

open Sys2Proof Sys2Proof.Machine in
/-- R105, R155. The branches.
Completion: on conditions on the state and the operands alone, each of these answers a next state that has its own effect: branch, brx, call,
callx. -/
def Obligations.BranchResults : Prop :=
  ∀ (s : State) (t : Thr) (f : FmtB), ∀ r ∈ branchRules,
    let th := s.th t
    let viaA := r.2.1; let link := r.2.2
    let legal := predLegal f.pred f.neg && (if viaA then scaOk f.a && unused f.disp else unused f.a) && (if link then scaOk f.d else unused f.d)
    let target : BitVec 48 := if viaA then (th.sw f.a).setWidth 48 else th.pc + (BitVec.ofNat 30 f.disp).signExtend 48 * 8
    let aligned := viaA = true → (th.sw f.a).toNat % 8 = 0
    legal = true → Issues s t ⟨[], (if viaA then [f.a] else []) ++ (if link then [f.d] else [])⟩ →
    (aligned → ¬ branchTaken s t f → ∃ u, exec (r.1 t f) s = .next u ∧ Passed s u t) ∧
    (aligned → branchTaken s t f → s.inCode t (if viaA then (th.sw f.a).toNat else target.toNat) = true →
      ∃ u, exec (r.1 t f) s = .next u ∧ OnlyThread s u t ∧ u.th t = { th with s := (u.th t).s, pc := target } ∧
        ∀ n, (u.th t).sw n = if link = true ∧ n = f.d ∧ n ≠ 0 then BitVec.ofNat 64 (th.pc.toNat + 8) else th.sw n) ∧
    (∀ e sl l, t = .eng e sl → s.launch th.launch = some l → ¬ aligned →
      ∃ u, exec (r.1 t f) s = .next u ∧ Suspended s u e sl l 3 0 (th.sw f.a).toNat th.pc) ∧
    (∀ e sl l, t = .eng e sl → s.launch th.launch = some l → aligned → branchTaken s t f →
      s.inCode t (if viaA then (th.sw f.a).toNat else target.toNat) = false →
      ∃ u, exec (r.1 t f) s = .next u ∧ (u.th t).state = .suspended ∧ (u.th t).cause = 5 ∧ (u.th t).pc = target ∧ (u.th t).v = th.landAll.v ∧
        (u.th t).p = th.p ∧ ∀ k, k ≠ thrKey t → u.thr k = s.thr k)

namespace Sys2Proof.Machine
open Sys2Proof

/-- R100, R129. The value of a special register by selector, LANE apart. -/
def specialValue (s : State) (t : Thr) (sel : Nat) : Nat :=
  match t, sel with
  | .eng e sl, 0 => e * 4 + sl
  | .eng e _, 2 => e
  | .eng e _, 3 => e / 16
  | .eng e _, 4 => s.coreClk (e / 16)
  | .eng _ _, 5 => ((s.launch (s.th t).launch).map (fun l => l.desc.frame)).getD 0
  | .eng _ _, 6 => (s.th t).band.toNat
  | .stw c, 0 => c
  | .stw c, 2 => c
  | .stw _, 3 => 0xFF
  | .stw _, 4 => s.stwClk % 2 ^ 64
  | .stw _, 5 => s.get R.SCO_S_FRAME_FRAME
  | .watch, 3 => 0xFF
  | .watch, 4 => s.spClk % 2 ^ 64
  | _, _ => 0

/-- R112. Does the thread wait at hamlet barrier `n`? -/
def waitsAt (n : Nat) (t : ThreadSt) : Bool :=
  match t.wait with
  | .barH m _ => decide (m = n)
  | _ => false

/-- R112. Does the thread wait at hamlet barrier `n` for no more than `arrived` threads? -/
def waitsFor (n arrived : Nat) (t : ThreadSt) : Bool :=
  match t.wait with
  | .barH m c => decide (m = n) && decide (c ≤ arrived)
  | _ => false

/-- The threads of an engine, beside one of them, that have neither ended nor are idle. -/
def State.otherLive (s : State) (e k : Nat) : List Nat :=
  ((List.range 4).map (e * 4 + ·)).filter (fun j => decide (j ≠ k) && ((s.thr j).state == .runnable || (s.thr j).state == .suspended))

end Sys2Proof.Machine

open Sys2Proof Sys2Proof.Machine in
/-- R100, R107, R112, R163. The system instructions.
Completion: on conditions on the state and the operands alone, each of these answers a next state that has its own effect: nop, fenceL, fenceG,
fenceS, breakThread, endThread, barE, barH, movsr. -/
def Obligations.SystemInstructionResults : Prop :=
  ∀ (s : State) (t : Thr),
    let th := s.th t; let k := thrKey t
    (Issues s t ⟨[], []⟩ →
      (∃ u, exec (.nop t) s = .next u ∧ Passed s u t) ∧ (∃ u, exec (.fenceL t) s = .next u ∧ Passed s u t) ∧
      (∀ i ∈ [Instr.fenceG t, Instr.fenceS t],
        (th.pend.any (·.atomic) = false → ∃ u, exec i s = .next u ∧ Passed s u t) ∧ (th.pend.any (·.atomic) = true → exec i s = .next s)) ∧
      (∀ e sl l, t = .eng e sl → s.launch th.launch = some l →
        ∃ u, exec (.breakThread t) s = .next u ∧ Suspended s u e sl l 6 0 th.pc.toNat (th.pc + 8)) ∧
      (∃ u, exec (.endThread t) s = .next u ∧
        (match t with
         | .eng e sl => sl < 4 →
           u = { s with aq := { s.aq with threads := u.aq.threads } } ∧
           u.th t = { th with state := .ended, pend := [], got := [], want := [], wait := .none } ∧
           ∀ j, j ≠ k → u.thr j = if j ∈ s.otherLive e k ∧ ∀ i ∈ s.otherLive e k, (s.thr i).wait = .barE then { s.thr j with wait := .none } else s.thr j
         | .stw c => u.get R.STW_STAT_HALTED = s.get R.STW_STAT_HALTED ||| 2 ^ c % 256 ∧ RegsBut s u [R.STW_STAT_HALTED.addr] ∧
           u.get R.STW_STAT_FAULT = s.get R.STW_STAT_FAULT ∧ (u.th t).state = .ended ∧ ∀ j, j ≠ k → u.thr j = s.thr j
         | .watch => OnlyThread s u t ∧ (u.th t).state = .ended)) ∧
      (∀ e sl, t = .eng e sl → sl < 4 →
        ∃ u, exec (.barE t) s = .next u ∧ u = { s with aq := { s.aq with threads := u.aq.threads } } ∧
          (if ∀ i ∈ s.otherLive e k, (s.thr i).wait = .barE then
            u.th t = th.next ∧ ∀ j, j ≠ k → u.thr j = if j ∈ s.otherLive e k then { s.thr j with wait := .none } else s.thr j
           else u.th t = { th.next with wait := .barE } ∧ ∀ j, j ≠ k → u.thr j = s.thr j)) ∧
      (∀ n count, 1 ≤ count → count ≤ 64 →
        ∃ u, exec (.barH t n count) s = .next u ∧ u = { s with aq := { s.aq with threads := u.aq.threads, hamlets := u.aq.hamlets } } ∧
          (let arrived := (tabGet (s.hamlet (barrierHome t)).barH n).getD 0 + 1
           (∀ h, h ≠ barrierHome t → u.hamlet h = s.hamlet h) ∧
           (u.th t).pc = th.pc + 8 ∧ (k ∈ barrierPeers t → (u.th t).wait = if count ≤ arrived then .none else .barH n count) ∧
           (∀ j ∈ barrierPeers t, j ≠ k → u.thr j = if waitsFor n arrived (s.thr j) = true then { s.thr j with wait := .none } else s.thr j) ∧
           (k ∈ barrierPeers t → tabGet (u.hamlet (barrierHome t)).barH n =
             if ∃ j ∈ barrierPeers t, waitsAt n (u.thr j) = true then some arrived else none)))) ∧
    (∀ pred neg d sel, predLegal pred neg = true → sel < 7 →
      (scaOk d = true → sel ≠ 1 → Issues s t ⟨[], [d]⟩ → ∃ u, exec (.movsr t pred neg d sel false) s = .next u ∧
        WroteScalar s u t (decide (s.mask t pred neg ≠ 0)) d (BitVec.ofNat 64 (specialValue s t sel))) ∧
      (thrIsS t = false → Issues s t ⟨[d], []⟩ → ∃ u, exec (.movsr t pred neg d sel true) s = .next u ∧
        WroteLanes s u t (s.mask t pred neg) d (fun l => BitVec.ofNat 32 (if sel = 1 then l else specialValue s t sel))))

open Sys2Proof Sys2Proof.Machine in
/-- R105, R116–R118, R132, R142. Illegal instructions.
Completion: on conditions on the state and the operands alone, each of these answers a next state that has its own effect: illegalInstruction. -/
def Obligations.IllegalInstructionSuspends : Prop :=
  ∀ (s : State) (t : Thr), s.canIssue t = true →
    let forms : List (Instr × Bool) :=
      [(.nop t, true), (.endThread t, true), (.barE t, true)]
    (∀ i : Instr,
      ((i, true) ∈ forms ∧ s.inCode t (s.th t).pc.toNat = false ∨
       (∃ w, i = .illegalInstruction t w ∧ legalWord t w = false) ∨
       (∃ f, ∃ r ∈ intRules 32, i = r.1 t f ∧ legalA (thrIsS t) f r.2.1 (unused f.mod) = false) ∨
       (∃ f, ∃ r ∈ floatRules, i = r.1 t f ∧ legalA (thrIsS t) f r.2.1 (unused f.mod) = false) ∨
       (∃ f, ∃ r ∈ immRules 32, i = r.1 t f ∧ legalI (thrIsS t) f r.2.1 (r.2.2.1.contains f.ik) = false) ∨
       (∃ f, i = .ldl t f ∧ legalM (thrIsS t) f .load true = false) ∨ (∃ f, i = .stl t f ∧ legalM (thrIsS t) f .store true = false) ∨
       (∃ f, i = .branch t f ∧ (predLegal f.pred f.neg && unused f.a && unused f.d) = false) ∨
       (∃ f, thrIsS t = true ∧ i ∈ [Instr.sweep t f, Instr.sample t f, Instr.dhint t f])) →
      (∀ e sl l, t = .eng e sl → s.launch (s.th t).launch = some l →
        ∃ u, exec i s = .next u ∧ Suspended s u e sl l 5 0 (s.th t).pc.toNat (s.th t).pc) ∧
      (∀ c, t = .stw c → c < 8 → ∃ u, exec i s = .next u ∧ bitAt (u.get R.STW_STAT_HALTED) c = true ∧ bitAt (u.get R.STW_STAT_FAULT) c = true ∧
        u.get (causeFld Irq.STW_FAULT) = 1 ∧ ∀ k, u.thr k = s.thr k))

namespace Sys2Proof.Machine
open Sys2Proof

/-! ### Launches, pre-emption and spare engines (R96–R132, R164, R165) -/

/-- The steward core `c` has passed an instruction: PC moves by 8 and its scalars are `regs` of the old ones. -/
def StewardPassed (s u : State) (c : Nat) (regs : ThreadSt → ThreadSt) : Prop := u.thr (1024 + c) = (regs (s.thr (1024 + c))).next

end Sys2Proof.Machine

open Sys2Proof Sys2Proof.Machine in
/-- R113–R115, R131, R164, R165. LAUNCH, WAITEV and the event queues.
Completion: on conditions on the state and the operands alone, each of these answers a next state that has its own effect: launch, waitev,
stewardEvent. -/
def Obligations.LaunchAndEventQueues : Prop :=
  (∀ (s : State) (c d a : Nat),
    let t := Thr.stw c
    let adr := (s.th t).sr a
    let b := mapGetList byteDefault s.aq.sram adr 96
    let desc := LaunchDesc.ofBytes b
    Issues s t ⟨[], [d, a]⟩ → scaOk d = true → scaOk a = true → adr % 32 = 0 → adr < 0x200000 → s.aq.launches.length < 65000 →
    (s.aq.launches.filter (fun p => decide (p.2.core = c) && (p.2.phase == .queued))).length < 16 →
    ∃ u h, exec (.launch t d a) s = .next u ∧ h < 65536 ∧ s.launch h = none ∧ StewardPassed s u c (fun x => x.setS d h) ∧
      (s.launchRefusal desc b = 0 →
        (∃ l, u.launch h = some l ∧ l.desc = desc ∧ l.core = c ∧ l.phase = .queued ∧ l.savedMask = 0) ∧ (∀ k, k ≠ h → u.launch k = s.launch k) ∧
        u = { s with aq := { s.aq with threads := u.aq.threads, launches := u.aq.launches, nextHandle := u.aq.nextHandle, nextOrder := u.aq.nextOrder } }) ∧
      (s.launchRefusal desc b ≠ 0 →
        (∀ k, u.launch k = s.launch k) ∧ (∀ h, u.hamlet h = s.hamlet h) ∧
        (u.events c).getLast? = some (completionEv h (s.launchRefusal desc b) desc.done desc.work))) ∧
  (∀ (s : State) (c d : Nat) (nb : Bool), let t := Thr.stw c
    Issues s t ⟨[], [d, d + 1, d + 2, d + 3]⟩ → d % 4 = 0 → 4 ≤ d → d ≤ 28 →
    let four := fun (e : Ev) (x : ThreadSt) => (((x.setS d e.w0.toNat).setS (d + 1) e.w1.toNat).setS (d + 2) e.w2.toNat).setS (d + 3) e.w3.toNat
    match (s.stw c).evq with
    | e :: rest => ∃ u, exec (.waitev t d nb) s = .next u ∧ StewardPassed s u c (four e) ∧ u.events c = rest ++ (s.stw c).held ∧
        u = { s with aq := { s.aq with threads := u.aq.threads, stw := u.aq.stw } } ∧ ∀ k, k ≠ c → u.stw k = s.stw k
    | [] => if nb then ∃ u, exec (.waitev t d nb) s = .next u ∧ OnlyThread s u t ∧ StewardPassed s u c (four (mkEv 0 0 0 0))
        else exec (.waitev t d nb) s = .next s) ∧
  (∀ (s : State) (c : Nat), (s.stw c).evq.length ≤ 256 →
    ∃ u, exec (.stewardEvent c) s = .next u ∧ u.events c = s.events c ∧ (u.stw c).evq.length = min 256 (s.events c).length ∧
      u = { s with aq := { s.aq with stw := u.aq.stw } } ∧ ∀ k, k ≠ c → u.stw k = s.stw k)

open Sys2Proof Sys2Proof.Machine in
/-- R118–R121, R124, R164. The steward's control of threads, hamlets and launches.
Completion: on conditions on the state and the operands alone, each of these answers a next state that has its own effect: preempt, restore,
abort, resumeThread, kill. -/
def Obligations.StewardControlsLaunches : Prop :=
  ∀ (s : State) (c a b : Nat), let t := Thr.stw c
    let x := (s.th t).sr a; let y := (s.th t).sr b
    scaOk a = true → scaOk b = true → c < 8 →
    (Issues s t ⟨[], [a]⟩ →
      (∃ u, exec (.preempt t a) s = .next u ∧ StewardPassed s u c id ∧
        (∀ h, h < 16 → u.hamlet h = if bitAt x h = true ∧ s.savable h = true then { s.hamlet h with phase := .saving none } else s.hamlet h) ∧
        (∀ h, h < 16 → bitAt (u.get R.ENG_STAT_SAVING) h = !((u.hamlet h).phase == .normal)) ∧ (∀ k, k < 1024 → u.thr k = s.thr k) ∧ u.mem = s.mem) ∧
      (∃ u, exec (.restore t a) s = .next u ∧ StewardPassed s u c id ∧
        (∀ h, h < 16 → u.hamlet h = match s.restorable h with
          | some k => if bitAt x h = true then { s.hamlet h with phase := .restoring k } else s.hamlet h
          | none => s.hamlet h) ∧
        (∀ h, h < 16 → bitAt (u.get R.ENG_STAT_SAVING) h = !((u.hamlet h).phase == .normal)) ∧ (∀ k, k < 1024 → u.thr k = s.thr k) ∧ u.mem = s.mem) ∧
      (∀ l, x < 65536 → s.launch x = some l → s.savingNow x = false →
        ∃ u, exec (.abort t a) s = .next u ∧ u.launch x = none ∧ (∀ h, h < 16 → (s.hamlet h).holder = some x → (u.hamlet h).holder = none) ∧
          ∃ e, (u.events l.core).getLast? = some e ∧ e.w0.toNat = 2 + 65536 * x + 2 ^ 32 * 0x12) ∧
      (∀ l, x < 65536 → s.launch x = some l → s.savingNow x = true →
        ∃ u, exec (.abort t a) s = .next u ∧ StewardPassed s u c id ∧ u.launch x = some { l with abortStatus := 0x12 } ∧ (∀ h, u.hamlet h = s.hamlet h)) ∧
      ((65536 ≤ x ∨ s.launch x = none) → ∃ u, exec (.abort t a) s = .next u ∧ Passed s u t)) ∧
    (Issues s t ⟨[], [a, b]⟩ →
      ((65536 ≤ x ∨ 1024 ≤ y ∨ s.launch x = none) → ∀ i ∈ [Instr.resumeThread t a b, Instr.kill t a b], ∃ u, exec i s = .next u ∧ Passed s u t) ∧
      (∀ l, x < 65536 → y < 1024 → s.launch x = some l →
        (∀ i, s.savedIdx x (y / 64) = some i → ∀ r ∈ [(Instr.resumeThread t a b, true), (Instr.kill t a b, false)],
          ∃ u, exec r.1 s = .next u ∧ StewardPassed s u c id ∧ (u.aq.saved[i]?.map (·.acts)) = (s.aq.saved[i]?.map (fun v => v.acts ++ [(y, r.2)])) ∧
            ∀ k, k < 1024 → u.thr k = s.thr k) ∧
        (s.savedIdx x (y / 64) = none → (s.thr y).launch = x → (s.hamlet (y / 64)).holder = some x →
          (∃ u, exec (.resumeThread t a b) s = .next u ∧ StewardPassed s u c id ∧ (∀ k, k < 1024 → k ≠ y → u.thr k = s.thr k) ∧
            u.thr y = if (s.thr y).state = .suspended ∧ (s.thr y).cause ≠ 7 ∧ (s.thr y).cause ≠ 8 then { s.thr y with state := .runnable } else s.thr y) ∧
          ((s.thr y).state = .runnable ∨ (s.thr y).state = .suspended →
            ∃ u, exec (.kill t a b) s = .next u ∧ (u.thr y).state = .ended ∧ (u.thr y).batch = [] ∧
              u.launch x = some { l with killed := l.killed + 1, killedRays := l.killedRays + (s.thr y).batch.length }))))

open Sys2Proof Sys2Proof.Machine in
/-- R96–R99, R103, R115. The start and the completion of a launch.
Completion: on conditions on the state and the operands alone, each of these answers a next state that has its own effect: launchStart,
launchComplete. -/
def Obligations.LaunchStartsAndCompletes : Prop :=
  (∀ (s : State) (k : Nat) (l : LaunchSt) (tgt : List TileTarget) (bs : List Byte), s.launch k = some l → s.mayStart k l = true →
    l.desc.hmask < 65536 → l.desc.constSize ≤ 65536 →
    (∀ wk w, l.desc.rays = true → s.nextDue l.desc.hmask = some (wk, w) → s.mapBlocked wk w = false ∧ ∀ b, w.band = some b → s.slotReady w b l.desc.hmask = false) →
    s.vread l.desc.ctx l.desc.const .read l.desc.constSize = .ok bs →
    ∃ u, exec (.launchStart k tgt) s = .next u ∧ (∃ l', u.launch k = some l' ∧ l'.phase = .running ∧ l'.desc = l.desc) ∧
      (∀ h, h < 16 → if bitAt l.desc.hmask h = true then (u.hamlet h).holder = some k ∧ (u.hamlet h).phase = .normal else u.hamlet h = s.hamlet h) ∧
      (∀ key, key < 1024 → if bitAt l.desc.hmask (key / 64) = true then
          (if bitAt (s.live (key / 64)) (key / 4 % 16) = true ∧ key % 4 < l.desc.threads then
            (u.thr key).state = .runnable ∧ (u.thr key).launch = k ∧ (u.thr key).pc = BitVec.ofNat 48 l.desc.code ∧
            (∀ n i, (u.thr key).vw n i = 0) ∧ (∀ n, (u.thr key).pr false n = if n = 0 then 2 ^ 64 - 1 else 0) ∧
            (∀ n, (u.thr key).sw n = if 1 ≤ n ∧ n ≤ 4 then BitVec.ofNat 64 (l.desc.args.getD (n - 1) 0) else 0)
           else u.thr key = thrDefault 0)
        else u.thr key = s.thr key) ∧
      (∀ wk w, l.desc.rays = true → s.nextDue l.desc.hmask = some (wk, w) → ((u.launch k).bind (·.work)) = some wk ∧
        ∀ h, h < 16 → bitAt l.desc.hmask h = true → u.span h = some ⟨wk, 0, none, none⟩) ∧
      (∀ h i, h < 16 → bitAt l.desc.hmask h = true → i < l.desc.constSize → mapGet byteDefault u.aq.constBuf (h * 65536 + i) = bs.getD i 0)) ∧
  (∀ (s : State) (k : Nat) (l : LaunchSt), s.launch k = some l → l.phase = .running → l.savedMask = 0 → s.savingNow k = false →
    (∀ h, h < 16 → (s.hamlet h).holder = some k → ∀ key ∈ hamletKeys h, (s.thr key).state = .idle ∨ (s.thr key).state = .ended) →
    s.spanComplete l = true →
    ∃ u, exec (.launchComplete k) s = .next u ∧ u.launch k = none ∧
      (∀ h, h < 16 → (s.hamlet h).holder = some k → (u.hamlet h).holder = none ∧ ∀ key ∈ hamletKeys h, u.thr key = thrDefault 0) ∧
      (u.events l.core).getLast? = some (completionEv k (if l.killed = 0 then 0 else 0x10) l.desc.done l.desc.work)) ∧
  (∀ (s : State) (k : Nat) (tgt : List TileTarget), (∀ l, s.launch k = some l → s.mayStart k l = false) → exec (.launchStart k tgt) s = .next s)

open Sys2Proof Sys2Proof.Machine in
/-- R103, R121–R123, R125. Save and restore of a hamlet.
Completion: on conditions on the state and the operands alone, each of these answers a next state that has its own effect: hamletSave,
saveComplete, hamletRestore, restoreComplete. -/
def Obligations.SaveAndRestoreHamlet : Prop :=
  (∀ (s : State) (h k : Nat) (l : LaunchSt), h < 16 → (s.hamlet h).holder = some k → s.launch k = some l → (s.hamlet h).phase = .saving none →
    (s.hamlet h).subst = none → s.savedIdx k h = none →
    ∃ u, exec (.hamletSave h) s = .next u ∧
      ((∃ x, u.aq.saved = s.aq.saved ++ [x] ∧ x.handle = k ∧ x.hamlet = h ∧ x.threads = (hamletKeys h).map (fun j => (j, (s.thr j).drain)) ∧
          x.stores = s.hamletStore h ∧ x.span = s.span h ∧ u.launch k = some l ∧ u.hamlet h = s.hamlet h ∧
          ∀ e sl pa, e < 16 → sl < 4 → pa + 8 ≤ hbmTop →
            saveAt (s.saveMapFor k h) (l.desc.save + 0x1000 + h * 0x511000 + 0x1000 + e * 0x51000 + 0x200 + sl * 0x4200 + 0x4140) = some pa →
            (∀ a b i j, saveAt (s.saveMapFor k h) a = some i → saveAt (s.saveMapFor k h) b = some j → i + b = j + a) →
            u.memBytes pa 8 = leBytes 8 (s.thr (h * 64 + e * 4 + sl)).pc.toNat) ∨
       (u.launch k = none ∧ (u.hamlet h).holder = none ∧
          (u.events l.core).getLast? = some (completionEv k 0x11 l.desc.done l.desc.work)))) ∧
  (∀ (s : State) (h k : Nat) (l : LaunchSt) (i : Nat), h < 16 → (s.hamlet h).holder = some k → s.launch k = some l → (s.hamlet h).phase = .saving none →
    s.savedIdx k h = some i → s.groupOpen k h = true → (s.hamlet h).substWait = [] →
    ∃ u, exec (.saveComplete h) s = .next u ∧ (u.hamlet h).holder = none ∧ (u.hamlet h).phase = .normal ∧ (∀ j ∈ hamletKeys h, u.thr j = thrDefault 0) ∧
      (∃ l', u.launch k = some l' ∧ l'.savedMask = l.savedMask ||| 2 ^ h ∧ l'.desc = l.desc ∧ l'.preempts = l.preempts) ∧
      u.get (R.ENG_CNT_COUNT h 3) = (s.get (R.ENG_CNT_COUNT h 3) + 1) % 2 ^ 32 ∧ u.aq.saved = s.aq.saved ∧ (∀ o, o ≠ h → u.hamlet o = s.hamlet o)) ∧
  (∀ (s : State) (h k : Nat) (l : LaunchSt) (bs : List Byte), h < 16 → s.restorable h = some k → s.launch k = some l → s.ctxOn l.desc.ctx = true →
    s.saveReadable (s.saveMapFor k h) (l.desc.save + saveOff h) 0x511000 = true → s.vread l.desc.ctx l.desc.const .read l.desc.constSize = .ok bs →
    ∃ u, exec (.hamletRestore h) s = .next u ∧ (u.hamlet h).holder = some k ∧ (u.hamlet h).phase = .restoring k ∧ (∀ o, o ≠ h → u.hamlet o = s.hamlet o) ∧
      (∀ i, i < bs.length → mapGet byteDefault u.aq.constBuf (h * 65536 + i) = bs.getD i 0) ∧ (∀ j, u.thr j = s.thr j) ∧ u.mem = s.mem) ∧
  (∀ (s : State) (h k : Nat) (l : LaunchSt) (x : SavedHamlet), h < 16 → (s.hamlet h).holder = some k → (s.hamlet h).phase = .restoring k →
    s.launch k = some l → s.aq.saved.find? (fun y => decide (y.handle = k) && decide (y.hamlet = h)) = some x → x.acts = [] →
    (s.hamlet h).substWait = [] →
    ∃ u, exec (.restoreComplete h) s = .next u ∧ (u.hamlet h).phase = .normal ∧ (u.hamlet h).holder = some k ∧ (u.hamlet h).barH = x.barH ∧ (∀ sp, x.span = some sp → u.span h = some sp) ∧
      (∀ y, x.threads.reverse.find? (fun p => decide (p.1 = y)) = none → u.thr y = s.thr y) ∧
      (∀ p, ∀ y, x.threads.reverse.find? (fun p => decide (p.1 = y)) = some p → u.thr y = p.2) ∧
      s.savedIdx k h ≠ none ∧ u.savedIdx k h = none)

open Sys2Proof Sys2Proof.Machine in
/-- R101, R116–R119, R126–R128, R132, R413. Faults that no instruction raises, and spare engines.
Completion: on conditions on the state and the operands alone, each of these answers a next state that has its own effect: threadFault,
stewardFault, engineEccError, engineSubstitution, substitutionComplete, spareBistPass. -/
def Obligations.EngineFaultsAndSpares : Prop :=
  (∀ (s : State) (e sl : Nat) (l : LaunchSt) (cause addr : Nat) (lanes : BitVec 64), s.launch (s.thr (e * 4 + sl)).launch = some l →
    (s.thr (e * 4 + sl)).state = .runnable → 1 ≤ cause → cause ≤ 7 → cause ≠ 6 →
    ∃ u, exec (.threadFault (.eng e sl) cause lanes addr) s = .next u ∧ Suspended s u e sl l cause lanes.toNat addr (s.thr (e * 4 + sl)).pc) ∧
  (∀ (s : State) (c : Nat), c < 8 → bitAt (s.get R.STW_STAT_HALTED) c = false →
    ∃ u, exec (.stewardFault c) s = .next u ∧ u.get R.STW_STAT_HALTED = s.get R.STW_STAT_HALTED + 2 ^ c ∧
      bitAt (u.get R.STW_STAT_FAULT) c = true ∧ u.get (causeFld Irq.STW_FAULT) = 1 ∧ u.mem = s.mem ∧ u.aq = s.aq) ∧
  (∀ (s : State) (h p sl : Nat) (store : Bool), h < 16 → p < 17 →
    (∃ u, exec (.engineEccError h p store false sl) s = .next u ∧ u.aq.threads = s.aq.threads ∧ u.aq.lstore = s.aq.lstore ∧
      u.get (R.ENG_CNT_COUNT h (if store then 1 else 0)) = (s.get (R.ENG_CNT_COUNT h (if store then 1 else 0)) + 1) % 2 ^ 32) ∧
    (∀ e, s.logicalOf h p = some e → (s.hamlet h).phase = .normal → sl < 4 → (s.thr ((h * 16 + e) * 4 + sl)).state = .runnable →
      ∃ u, exec (.engineEccError h p store true sl) s = .next u ∧ u.get (R.ENG_CNT_COUNT h 2) = (s.get (R.ENG_CNT_COUNT h 2) + 1) % 2 ^ 32 ∧
        u.get (causeFld Irq.ENG_UE) = 1 ∧ (u.thr ((h * 16 + e) * 4 + sl)).state = .suspended ∧
        (u.thr ((h * 16 + e) * 4 + sl)).cause = (if store then 8 else 7) ∧
        (∀ k, k / 4 ≠ h * 16 + e → u.thr k = s.thr k))) ∧
  (∀ (s : State) (h e : Nat), h < 16 → e < 16 → bitAt (s.live h) e = true → (s.hamlet h).phase = .normal → (s.hamlet h).subst = none →
    ∃ u, exec (.engineSubstitution h e) s = .next u ∧ (∀ o, o ≠ h → u.hamlet o = s.hamlet o) ∧
      (if s.get (R.ENG_HSTAT_SPARE h) ≠ 0x1F ∧ (s.hamlet h).spareOk = true then
        (∃ m, (u.hamlet h).subst = some m ∧ m.logical = e ∧ m.spare = s.get (R.ENG_HSTAT_SPARE h) ∧ m.rotate = false) ∧ u.live h = s.live h
       else u.live h = s.live h - 2 ^ e ∧ u.get (R.ENG_HSTAT_DEGRADED h) = 1 ∧ u.get (causeFld Irq.ENG_DEGRADED) = 1 ∧
        (u.hamlet h).retired = (s.hamlet h).retired ||| 2 ^ s.get (R.ENG_MAP_PHYS h e))) ∧
  (∀ (s : State) (h : Nat) (m : Subst), h < 16 → (s.hamlet h).subst = some m → (s.hamlet h).substWait = [] → m.logical < 16 → m.spare < 17 →
    ∃ u, exec (.substitutionComplete h) s = .next u ∧ u.get (R.ENG_MAP_PHYS h m.logical) = m.spare ∧ (u.hamlet h).subst = none ∧
      u.get (R.ENG_HSTAT_SPARE h) = (if m.rotate then s.get (R.ENG_MAP_PHYS h m.logical) else 0x1F) ∧ (u.hamlet h).spareOk = false ∧
      (m.rotate = false → (u.hamlet h).testing = some (s.get (R.ENG_MAP_PHYS h m.logical))) ∧
      u.get (R.ENG_CNT_COUNT h 4) = (s.get (R.ENG_CNT_COUNT h 4) + 1) % 2 ^ 32 ∧ u.get (causeFld Irq.ENG_SUBST) = 1 ∧
      (∀ e, e < 16 → e ≠ m.logical → u.get (R.ENG_MAP_PHYS h e) = s.get (R.ENG_MAP_PHYS h e)) ∧ u.aq.threads = s.aq.threads ∧ u.aq.lstore = s.aq.lstore) ∧
  (∀ (s : State) (h : Nat) (ok : Bool), h < 16 → s.get (R.ENG_HSTAT_SPARE h) ≠ 0x1F → (s.hamlet h).subst = none →
    ∃ u, exec (.spareBistPass h ok) s = .next u ∧ (u.hamlet h).spareOk = ok ∧ (∀ o, o ≠ h → u.hamlet o = s.hamlet o) ∧ u.aq.threads = s.aq.threads ∧
      (if ok = false ∧ (s.hamlet h).bistFails ≠ 0 then
        u.get (R.ENG_HSTAT_SPARE h) = 0x1F ∧ (u.hamlet h).retired = (s.hamlet h).retired ||| 2 ^ s.get (R.ENG_HSTAT_SPARE h)
       else u.get (R.ENG_HSTAT_SPARE h) = s.get (R.ENG_HSTAT_SPARE h) ∧ (u.hamlet h).bistFails = (if ok then 0 else 1)))

namespace Sys2Proof.Machine
open Sys2Proof

/-! ### Commits, frames and sequencers (R166–R210) -/

end Sys2Proof.Machine

open Sys2Proof Sys2Proof.Machine in
/-- R5, R171, R179, R189, R191, R197–R199. Commits.
Completion: on conditions on the state and the operands alone, each of these answers a next state that has its own effect: commit, shWriteDrop,
commitPoint. -/
def Obligations.CommitsAreAllOrNone : Prop :=
  (∀ (s : State), s.sco.armed.isSome = true → exec .commit s = .next s) ∧
  (∀ (s : State), s.sco.armed = none →
    ∃ u c, exec .commit s = .next u ∧ u.sco.armed = some c ∧ u.get R.SCO_STAT_ARMED = 1 ∧ u.get R.SCO_COMMIT_COMMIT = 1 ∧ u.act = s.act ∧ u.mem = s.mem ∧
      (s.sco.inFrame = true →
        let a := s.sco.line
        let early := a + s.getA R.SCO_VGEOM_WINDOW < s.active
        (s.lockedClass = true → early → c = ⟨a, s.active, false⟩ ∧ u.get R.SCO_CSTAT_LATE_COMMIT = s.get R.SCO_CSTAT_LATE_COMMIT) ∧
        (s.lockedClass = true → ¬ early → c = ⟨a, s.active, true⟩ ∧ u.get R.SCO_CSTAT_LATE_COMMIT = 1 ∧
          u.get (R.SCO_CNT_COUNT 2) = (s.get (R.SCO_CNT_COUNT 2) + 1) % 2 ^ 32 ∧ u.get (causeFld Irq.SCO_LATE_COMMIT) = 1) ∧
        (s.lockedClass = false → s.get64 R.SCO_DUE_LO_DUE R.SCO_DUE_HI_DUE = 0 →
          let p := if early then s.active else max s.active (a + 1 + s.getA R.SCO_VGEOM_WINDOW)
          c = if max s.vMin (p + s.leadL) ≤ s.vMax then ⟨a, p, false⟩ else ⟨a, s.active, true⟩))) ∧
  (∀ (s : State) (a v : Nat), s.sco.armed = none ∨ holdsSh a = false → exec (.shWriteDrop a v) s = .next s) ∧
  (∀ (s : State) (a v : Nat), s.sco.armed.isSome = true → holdsSh a = true →
    ∃ u, exec (.shWriteDrop a v) s = .next u ∧ u.get R.SCO_CSTAT_WR_DROP = 1 ∧ u.get (R.SCO_CNT_COUNT 4) = (s.get (R.SCO_CNT_COUNT 4) + 1) % 2 ^ 32 ∧
      u.get (causeFld Irq.SCO_WR_DROP) = 1 ∧ u = { s with regs := u.regs, int := u.int } ∧
      ∀ r o f, regRow a = some (r, o) → f ∈ r.fields →
        (f.typ = .sh → bitsOf (u.word a) f.lsb f.width = bitsOf (s.word a) f.lsb f.width) ∧
        (f.typ = .rw → bitsOf (u.word a) f.lsb f.width = bitsOf (presentBits s.member a v) f.lsb f.width)) ∧
  (∀ (s : State), s.atCommitPoint = false → exec .commitPoint s = .next s) ∧
  (∀ (s : State), s.atCommitPoint = true →
    ∃ u, exec .commitPoint s = .next u ∧ u.sco.armed = none ∧ u.get R.SCO_STAT_ARMED = 0 ∧ u.get R.SCO_COMMIT_COMMIT = 0 ∧
      u.get R.SCO_CSTAT_CSEQ = (s.get R.SCO_CSTAT_CSEQ + 1) % 2 ^ 16 ∧
      (s.commitReason = 0 → u.get R.SCO_CSTAT_ACCEPTED = 1 ∧ u.get R.SCO_CSTAT_REFUSED = 0 ∧ u.get R.SCO_CSTAT_REASON = 0 ∧ u.get R.CMP_REJ_VALID = 0 ∧
        (∀ a, holdsSh a = true → (a < 0xB2000 ∨ 0xBA000 ≤ a) →
          (a = R.SYN_CTL_MODE.addr → s.on R.SYN_CTL_MODE = s.bandMode ∨ s.drained = true) → u.actWord a = s.word a) ∧
        (s.on R.SYN_CTL_MODE ≠ s.bandMode → s.drained = false → u.bandMode = s.bandMode ∧ u.sco.modeHeld = true) ∧
        (∀ t l i, t < 64 → l < 8 → i < 16 → (l = 0 ∨ s.get (R.CMP_LCTL_FENCE_EN t l) = 0) →
          u.actWord (layerBase t l + 4 * i) = s.word (layerBase t l + 4 * i))) ∧
      (s.commitReason ≠ 0 → u.get R.SCO_CSTAT_ACCEPTED = 0 ∧ u.get R.SCO_CSTAT_REFUSED = 1 ∧ u.get R.SCO_CSTAT_REASON = s.commitReason ∧ u.act = s.act ∧
        u.mem = s.mem ∧ u.get (R.SCO_CNT_COUNT 3) = (s.get (R.SCO_CNT_COUNT 3) + 1) % 2 ^ 32 ∧ u.get (causeFld Irq.SCO_REFUSED) = 1 ∧
        ∀ t l c, s.cmpReason = some (t, l, c) → u.get R.CMP_REJ_VALID = 1 ∧ u.get R.CMP_REJ_TILE = t % 64 ∧ u.get R.CMP_REJ_LAYER = l % 8 ∧ u.get R.CMP_REJ_REASON = c % 16))

open Sys2Proof Sys2Proof.Machine in
/-- R83, R176, R178, R189–R196, R202, R203, R208. Frames and lines.
Completion: on conditions on the state and the operands alone, each of these answers a next state that has its own effect: frameStart,
maxFrameRepeat, scanoutLine, watermarkLine, vblank, genlockEdge, frameClockEdge, holdoverStart, layerFetchFault, scanoutEnable. -/
def Obligations.FramesLinesAndLock : Prop :=
  (∀ (s : State), (s.canScan = false ∨ (s.lockedClass = true ∧ s.sco.due = none) ∨ (s.lockedClass = false ∧ s.startLine = false)) → exec .frameStart s = .next s) ∧
  (∀ (s : State) (f : Nat), s.canScan = true → ((s.lockedClass = true ∧ s.sco.due = some (some f)) ∨
      (((s.lockedClass = true ∧ s.sco.due = some none) ∨ (s.lockedClass = false ∧ s.startLine = true)) ∧ f = s.frameNo + 1)) →
    ∃ u, exec .frameStart s = .next u ∧ u.frameNo = f % 2 ^ 32 ∧ u.frameStartNs = s.ptpNs ∧ u.get R.SCO_STAT_RUNNING = 1 ∧ u.get R.SCO_STAT_VBLANK = 0 ∧
      u.get R.SCO_S_LINE_LINE = 0 ∧ u.get (R.SCO_CNT_COUNT 0) = (s.get (R.SCO_CNT_COUNT 0) + 1) % 2 ^ 32 ∧ u.get R.SCO_FINFO_GEN_ADV = 0 ∧
      u.get R.SCO_FINFO_STATIC = 0 ∧ u.sco.inFrame = true ∧ u.sco.line = 0 ∧ u.sco.blank = false) ∧
  (∀ (s : State), s.canScan = true → s.lockedClass = false → s.sco.inFrame = true → s.sco.blank = true → s.vMax ≤ s.sco.line →
    (∀ r, s.sco.ready = some r → s.leadPast r s.vMax = false) →
    ∃ u, exec .maxFrameRepeat s = .next u ∧ u.get R.SCO_CSTAT_MAXED = 1 ∧ u.get (R.SCO_CNT_COUNT 1) = (s.get (R.SCO_CNT_COUNT 1) + 1) % 2 ^ 32 ∧
      u.get (causeFld Irq.SCO_MAXED) = 1 ∧ u.frameNo = (s.frameNo + 1) % 2 ^ 32 ∧ u.sco.line = 0) ∧
  (∀ (s : State), (s.lockedClass = true ∨ s.sco.blank = false ∨ s.sco.line < s.vMax) → exec .maxFrameRepeat s = .next s) ∧
  (∀ (s : State) (late : List (Nat × Nat)), s.sco.inFrame = true → (s.sco.line < s.active ∨ s.sco.blank = true) → (s.lockedClass = true ∨ s.sco.line < s.vMax) →
    ∃ u, exec (.scanoutLine late) s = .next u ∧ u.sco.line = s.sco.line + 1 ∧ u.get R.SCO_S_LINE_LINE = (s.sco.line + 1) % 2 ^ 16 ∧ u.frameNo = s.frameNo ∧
      u.sco.blank = s.sco.blank) ∧
  (∀ (s : State) (t : Nat), s.bandMode = true → s.sco.inFrame = true → s.tileOn t = true → s.sco.line < s.active → s.sco.line % 64 = s.getA (R.SYN_WMARK_LINE t) →
    ∃ u, exec (.watermarkLine t) s = .next u ∧ u.regs = s.regs ∧ u.mem = s.mem ∧
      (∀ c ∈ s.runningCores, ∃ e, u.events c = s.events c ++ [e] ∧ e.w0.toNat = 4 + 256 * 3 + 2 ^ 32 * s.frameNo ∧ e.w2.toNat = 2 ^ t) ∧
      (s.tilesOn.head? = some t → s.modeDue = false → u.syn.nextBand = max s.syn.nextBand (s.bandOfLine s.sco.line + s.getA R.SYN_BAND_LEAD + 1)) ∧
      (s.tilesOn.head? ≠ some t → u.syn = s.syn)) ∧
  (∀ (s : State), (s.sco.inFrame = false ∨ s.sco.blank = true ∨ s.sco.line < s.active) → exec .vblank s = .next s) ∧
  (∀ (s : State), s.sco.inFrame = true → s.sco.blank = false → s.active ≤ s.sco.line →
    ∃ u, exec .vblank s = .next u ∧ u.sco.blank = true ∧ u.get R.SCO_STAT_VBLANK = 1 ∧ u.get R.CMP_STAT_ACTIVE = 0 ∧ u.sco.line = s.sco.line ∧
      ∀ t ∈ s.tilesOn, u.get (R.SCO_SIG_SIG t) = ((s.scan t).crc ^^^ 0xFFFFFFFF) % 2 ^ 32) ∧
  (∀ (s : State) (fall : Bool), (s.on R.SCO_CTL_ENABLE = false ∨ s.lockedClass = false ∨ s.ptpSource = true ∨ s.onA R.SCO_MODE_GL_POL ≠ fall) →
    exec (.genlockEdge fall) s = .next s) ∧
  (∀ (s : State) (fall : Bool), s.on R.SCO_CTL_ENABLE = true → s.lockedClass = true → s.ptpSource = false → s.onA R.SCO_MODE_GL_POL = fall →
    (s.sco.div + 1 < s.getA R.SCO_MODE_GL_DIV → ∃ u, exec (.genlockEdge fall) s = .next u ∧ u = { s with sco := { s.sco with div := s.sco.div + 1 } }) ∧
    (s.getA R.SCO_MODE_GL_DIV ≤ s.sco.div + 1 → s.sco.edgeAt = none → s.on R.SCO_STAT_LOCKED = false → s.sco.ivals = [] →
      ∃ u, exec (.genlockEdge fall) s = .next u ∧ u.sco.edgeAt = some s.pix ∧ u.sco.div = 0 ∧ u.regs = s.regs ∧ u.sco.due = s.sco.due) ∧
    (∀ e, s.getA R.SCO_MODE_GL_DIV ≤ s.sco.div + 1 → s.sco.edgeAt = some e →
      let ivals := ((s.pix - e) :: s.sco.ivals).take 3
      (s.on R.SCO_STAT_LOCKED = false → s.qualifies ivals = false →
        ∃ u, exec (.genlockEdge fall) s = .next u ∧ u.sco.ivals = ivals ∧ u.sco.edgeAt = some s.pix ∧ u.get R.SCO_S_PERIOD_P_MEAS = (s.pix - e) % 2 ^ 24 ∧
          u.get R.SCO_STAT_LOCKED = 0 ∧ u.sco.due = s.sco.due) ∧
      ((s.on R.SCO_STAT_LOCKED = true ∨ s.qualifies ivals = true) →
        (s.longEnough = true → s.getA R.SCO_PHASE_PHASE ≠ 0 → s.canScan = true → ∃ u, exec (.genlockEdge fall) s = .next u ∧ u.get R.SCO_STAT_LOCKED = 1 ∧ u.get R.SCO_STAT_HOLDOVER = 0 ∧
          u.sco.due = some none ∧ u.get R.SCO_S_PERIOD_P_MEAS = (s.pix - e) % 2 ^ 24) ∧
        (s.longEnough = true → s.getA R.SCO_PHASE_PHASE = 0 → s.canScan = true → ∃ u, exec (.genlockEdge fall) s = .next u ∧ u.frameNo = (s.frameNo + 1) % 2 ^ 32 ∧ u.sco.line = 0) ∧
        (s.longEnough = true → s.canScan = false → ∃ u, exec (.genlockEdge fall) s = .next u ∧ u.get R.SCO_STAT_LOCKED = 1 ∧ u.sco.due = s.sco.due ∧ u.sco.line = s.sco.line) ∧
        (s.longEnough = false → ∃ u, exec (.genlockEdge fall) s = .next u ∧ u.get (R.SCO_CNT_COUNT 6) = (s.get (R.SCO_CNT_COUNT 6) + 1) % 2 ^ 32 ∧ u.sco.line = s.sco.line ∧
          u.sco.due = s.sco.due)))) ∧
  (∀ (s : State) (n : Nat), s.on R.SCO_CTL_ENABLE = true → s.lockedClass = true → s.ptpSource = true → s.fcNow = some n → s.sco.lastN ≠ some n →
    (s.longEnough = true → s.getA R.SCO_PHASE_PHASE ≠ 0 → s.canScan = true → ∃ u, exec .frameClockEdge s = .next u ∧ u.get R.SCO_STAT_LOCKED = 1 ∧ u.get R.SCO_STAT_HOLDOVER = 0 ∧
      u.sco.due = some (some (n % 2 ^ 32))) ∧
    (s.longEnough = false → ∃ u, exec .frameClockEdge s = .next u ∧ u.get (R.SCO_CNT_COUNT 6) = (s.get (R.SCO_CNT_COUNT 6) + 1) % 2 ^ 32 ∧ u.sco.due = s.sco.due)) ∧
  (∀ (s : State), (s.on R.SCO_CTL_ENABLE = false ∨ s.lockedClass = false ∨ s.ptpSource = false ∨ s.fcNow = none ∨ s.fcNow = s.sco.lastN) → exec .frameClockEdge s = .next s) ∧
  (∀ (s : State), (s.on R.SCO_CTL_ENABLE = false ∨ s.lockedClass = false ∨ s.holdoverDue = false) → exec .holdoverStart s = .next s) ∧
  (∀ (s : State), s.on R.SCO_CTL_ENABLE = true → s.lockedClass = true → s.holdoverDue = true →
    ∃ u, exec .holdoverStart s = .next u ∧ (s.sco.armed = none → u.get R.SCO_STAT_HOLDOVER = 1) ∧ u.get R.SCO_STAT_LOCKED = 0 ∧
      u.get (R.SCO_CNT_COUNT 5) = (s.get (R.SCO_CNT_COUNT 5) + s.get R.SCO_STAT_LOCKED) % 2 ^ 32 ∧
      (s.on R.SCO_STAT_LOCKED = true → u.get (causeFld Irq.SCO_LOCK_LOSS) = 1 ∧ u.sco.ivals = [] ∧ u.sco.edgeAt = none) ∧
      u.frameNo = (if s.longEnough && s.canScan then s.frameNo + 1 else s.frameNo) % 2 ^ 32) ∧
  (∀ (s : State) (t l k : Nat), l < 8 → (k = 3 → l ≠ 0) → s.sco.inFrame = true → s.tileOn t = true → s.composes t = true →
    let w : Nat × Nat := match k with
      | 0 => (0, 0) | 1 => (6, 7) | 2 => (6, 7) | 3 => (2, 2) | _ => (3, 5)
    ∃ u, exec (.layerFetchFault t l k) s = .next u ∧ u.get (R.CMP_TSTAT_FLAGS t) = s.get (R.CMP_TSTAT_FLAGS t) ||| 2 ^ w.1 ∧
      u.get (R.CMP_CNT_COUNT t w.2) = (s.get (R.CMP_CNT_COUNT t w.2) + 1) % 2 ^ 32 ∧ u.get (causeFld (Irq.CMP_LFAULT + w.1)) = 1 ∧
      (k = 0 → u.get (R.CMP_TSTAT_FAULT_LAYERS t) = s.get (R.CMP_TSTAT_FAULT_LAYERS t) ||| 2 ^ l ∧ bitAt (u.scan t).faulted l = true) ∧
      (4 ≤ k → (u.scan t).wbStop = true)) ∧
  (∀ (s : State), s.on R.SCO_CTL_ENABLE = true →
    ∃ u, exec (.scanoutEnable false) s = .next u ∧ u.get R.SCO_CTL_ENABLE = 0 ∧ u.get R.SCO_STAT_RUNNING = 0 ∧ u.get R.SCO_STAT_LOCKED = 0 ∧ u.sco.inFrame = false) ∧
  (∀ (s : State), ∃ u, exec (.scanoutEnable true) s = .next u ∧ u.get R.SCO_CTL_ENABLE = 1 ∧
    (s.on R.SCO_CTL_ENABLE = true ∨ s.lockedClass = false → u = { s with regs := u.regs } ∧ RegsBut s u [R.SCO_CTL_ENABLE.addr]) ∧
    (s.on R.SCO_CTL_ENABLE = false → s.lockedClass = true → u.get R.SCO_STAT_HOLDOVER = b2n (!s.ptpSource) ∧ u.sco = { s.sco with lastN := s.fcNow } ∧
      u = { s with regs := u.regs, sco := u.sco } ∧ RegsBut s u [R.SCO_CTL_ENABLE.addr, R.SCO_STAT_HOLDOVER.addr]))

open Sys2Proof Sys2Proof.Machine in
/-- R204–R207, R416. The sequencers.
Completion: on conditions on the state and the operands alone, each of these answers a next state that has its own effect: sequencerFault,
switchover, sequencerBFault, sequencerSelfTest, sequencerReturn, forceB, frameStart. -/
def Obligations.SequencersPassControl : Prop :=
  (∀ (s : State), s.get R.SCO_STAT_SEQ = 0 → s.sco.seqA = .fit →
    ∃ u, exec .sequencerFault s = .next u ∧ u.sco.seqA = .testing ∧ u.sco.transfer = none ∧ u.sco.inFrame = false ∧ u.get R.SCO_STAT_RUNNING = 0 ∧ u.get R.SCO_STAT_SEQ = 0 ∧
      u.sco.hold = some 2 ∧ u.sco.armed = s.sco.armed) ∧
  (∀ (s : State), s.get R.SCO_STAT_SEQ = 1 → (s.sco.seqA = .fit ∨ s.sco.seqA = .passed) →
    exec .sequencerFault s = .next { s with sco := { s.sco with seqA := .testing, transfer := none } }) ∧
  (∀ (s : State) (ok : Bool), (s.get R.SCO_STAT_SEQ ≠ 0 ∨ s.sco.seqA = .fit) → exec (.switchover ok) s = .next s) ∧
  (∀ (s : State), s.get R.SCO_STAT_SEQ = 0 → s.sco.seqA ≠ .fit → s.sco.seqB ≠ .failed →
    ∃ u, exec (.switchover true) s = .next u ∧ u.get R.SCO_STAT_SEQ = 1 ∧ u.sco.seqB = .inControl ∧ u.get (R.SCO_CNT_COUNT 7) = (s.get (R.SCO_CNT_COUNT 7) + 1) % 2 ^ 32 ∧
      u.get (causeFld Irq.SCO_SWITCHOVER) = 1 ∧ u.sco.armed = s.sco.armed ∧ u.act = s.act ∧ u.frameNo = s.frameNo) ∧
  (∀ (s : State) (ok : Bool), s.get R.SCO_STAT_SEQ = 0 → s.sco.seqA ≠ .fit → (ok = false ∨ s.sco.seqB = .failed) →
    ∃ u, exec (.switchover ok) s = .next u ∧ u.get R.SCO_STAT_SEQ = 2 ∧ u.sco.seqB = .failed ∧ u.get (causeFld Irq.SCO_NOSEQ) = 1) ∧
  (∀ (s : State), s.get R.SCO_STAT_SEQ ≠ 1 → exec .sequencerBFault s = .next s) ∧
  (∀ (s : State), s.get R.SCO_STAT_SEQ = 1 →
    ∃ u, exec .sequencerBFault s = .next u ∧ u.get R.SCO_STAT_SEQ = 2 ∧ u.sco.seqB = .failed ∧ u.get (causeFld Irq.SCO_NOSEQ) = 1 ∧ u.sco.inFrame = false) ∧
  (∀ (s : State) (p : Bool), s.sco.seqA ≠ .testing → s.sco.seqA ≠ .failed → exec (.sequencerSelfTest p) s = .next s) ∧
  (∀ (s : State), (s.sco.seqA = .testing ∨ s.sco.seqA = .failed) →
    (let back := if s.get R.SCO_STAT_SEQ = 1 ∧ s.on R.SCO_SEQCTL_AUTO_RETURN = true ∧ s.on R.SCO_SEQCTL_FORCE_B = false then some 0 else none
     exec (.sequencerSelfTest true) s = .next { s with sco := { s.sco with seqA := .passed, transfer := back } }) ∧
    (∃ u, exec (.sequencerSelfTest false) s = .next u ∧ u.sco = { s.sco with seqA := .failed, transfer := none } ∧
      (s.sco.seqA = .failed → u = { s with sco := u.sco }) ∧
      (s.sco.seqA = .testing → u.get R.HLT_STAT_LASTING = 1 ∧ u.get (causeFld Irq.HLT_LASTING) = 1))) ∧
  (∀ (s : State) (eq : Bool), (s.get R.SCO_STAT_SEQ ≠ 1 ∨ s.sco.transfer ≠ some 1) → exec (.sequencerReturn eq) s = .next s) ∧
  (∀ (s : State), s.get R.SCO_STAT_SEQ = 1 → s.sco.transfer = some 1 →
    exec (.sequencerReturn true) s = .next { s with sco := { s.sco with transfer := some 2 } } ∧
    ∃ u, exec (.sequencerReturn false) s = .next u ∧ u.sco = { s.sco with transfer := none, seqA := .testing } ∧ u.get R.SCO_STAT_SEQ = 1 ∧
      u.get (R.SCO_CNT_COUNT 9) = (s.get (R.SCO_CNT_COUNT 9) + 1) % 2 ^ 32 ∧ u.get (causeFld Irq.SCO_RETURN_FAIL) = 1) ∧
  (∀ (s : State) (f : Bool), ∃ u, exec (.forceB f) s = .next u ∧ u.get R.SCO_SEQCTL_FORCE_B = b2n f ∧ RegsBut s u [R.SCO_SEQCTL_FORCE_B.addr] ∧
    u = { s with regs := u.regs, sco := { s.sco with transfer := u.sco.transfer } } ∧
    (f = true → s.get R.SCO_STAT_SEQ = 0 → s.sco.seqB ≠ .failed → s.sco.seqA = .fit → s.sco.transfer = none → u.sco.transfer = some 0) ∧
    (f = true → s.get R.SCO_STAT_SEQ ≠ 0 → u.sco.transfer = none) ∧
    (f = false → s.get R.SCO_STAT_SEQ = 1 → (s.sco.seqA = .fit ∨ s.sco.seqA = .passed) → s.sco.transfer = none → u.sco.transfer = some 0)) ∧
  (∀ (s : State) (f : Nat), s.canScan = true → s.lockedClass = true → s.sco.due = some (some f) → s.sco.hold ≠ some 2 → s.get R.SCO_STAT_SEQ = 1 →
    (s.sco.transfer = some 0 → ∃ u, exec .frameStart s = .next u ∧ u.get R.SCO_STAT_SEQ = 1 ∧ u.sco.transfer = some 1) ∧
    (s.sco.transfer = some 2 → ∃ u, exec .frameStart s = .next u ∧ u.get R.SCO_STAT_SEQ = 0 ∧ u.sco.seqA = .fit ∧ u.sco.transfer = none))

namespace Sys2Proof.Machine
open Sys2Proof

/-! ### Wydel ports (R211–R238) -/

end Sys2Proof.Machine

open Sys2Proof Sys2Proof.Machine in
/-- R218, R221, R226–R236, R238. The Wydel ports.
Completion: on conditions on the state and the operands alone, each of these answers a next state that has its own effect: wake, align, laneStat,
shadow, tileStatus, bcHdrErr, bcBlockLock, bcLoss, statusReq, shadowRotation, wylSubstitution, qualificationEnd, subReq, retrain, portUp,
portTrainTimeout, portTrainRetry, portEnable. -/
def Obligations.WydelPorts : Prop :=
  (∀ (s : State), ((s.sco.idle = false ∨ s.wakeDue = false) → exec .wake s = .next s) ∧
    (s.sco.idle = true → s.wakeDue = true → ∃ u, exec .wake s = .next u ∧ u.sco.idle = false ∧ u.mem = s.mem ∧
      ∀ t, t < 64 → (s.portState t = 3 → u.portState t = 2 ∧ (u.port t).acount = 1) ∧ (s.portState t ≠ 3 → u.portState t = s.portState t ∧ u.port t = s.port t))) ∧
  (∀ (s : State) (t c : Nat), t < 64 →
    (s.portState t ≠ 1 → s.portState t ≠ 2 → s.portState t ≠ 4 → exec (.align ⟨t, c⟩) s = .next s) ∧
    ((s.portState t = 1 ∨ s.portState t = 2 ∨ s.portState t = 4) → ∃ u, exec (.align ⟨t, c⟩) s = .next u ∧ (u.port t).acount = ((s.port t).acount + 1) % 2 ^ 32 ∧
      (u.port t).gap = some (c, s.get (R.WYL_PSTAT_SHADOW t)) ∧
      u.out = (((List.range 5).filter (fun l => !s.laneRetired t l)).map (fun l => Out.column t (alignBlock t l (s.port t).acount))).reverse ++ s.out ∧
      (∀ l, (s.port t).nextShadow = some l → (s.port t).mapDue = false → u.get (R.WYL_PSTAT_SHADOW t) = l % 8 ∧ (u.port t).nextShadow = none) ∧
      ((s.port t).nextShadow = none ∨ (s.port t).mapDue = true → u.regs = s.regs ∧ (u.port t).nextShadow = (s.port t).nextShadow))) ∧
  (∀ (s : State) (t : Nat) (d : BitVec 48), t < 64 →
    let p := msgBits d 8 3; let err := msgBits d 16 16
    ((4 < p ∨ s.on (R.WYL_PSTAT_BC_LOCK t) = false) → exec (.laneStat t d) s = .next s) ∧
    (p ≤ 4 → s.on (R.WYL_PSTAT_BC_LOCK t) = true → ∃ u, exec (.laneStat t d) s = .next u ∧ u.get (R.WYL_LANE_STAT_ERR t p) = err ∧
      u.get (R.WYL_CNT_COUNT t 0) = (s.get (R.WYL_CNT_COUNT t 0) + err) % 2 ^ 32 ∧ (0 < err → u.get (causeFld Irq.WYL_LINK_ERR) = 1) ∧
      (s.portServes t = false → u.get (R.WYL_LANE_STAT_LOCK t p) = msgBits d 11 1 ∧ u.get (R.WYL_LANE_STAT_ALIGNED t p) = msgBits d 12 1) ∧
      (∀ l, s.portServes t = true → s.logLane t p = some l → zeroActs 1 (s.get R.WYL_SUBCTL_ERR_LIM) ≤ err → s.on R.WYL_CTL_AUTO_SUB = true →
        s.on (R.WYL_PSTAT_SPARE_OK t) = true → s.hasSpare t = true → (s.port t).failing = none →
        (u.port t).failing = some l ∧ (u.port t).nextShadow = some l))) ∧
  (∀ (s : State) (t : Nat) (d : BitVec 48), t < 64 →
    let p := msgBits d 8 3; let n := msgBits d 16 16; let sp := s.get (R.WYL_PSTAT_PSPARE t)
    ((4 < p ∨ n = 0 ∨ s.on (R.WYL_PSTAT_BC_LOCK t) = false ∨ s.portServes t = false ∨ s.hasSpare t = false) → exec (.shadow t d) s = .next s) ∧
    (p ≤ 4 → n ≠ 0 → s.on (R.WYL_PSTAT_BC_LOCK t) = true → s.portServes t = true → s.hasSpare t = true →
      ∃ u, exec (.shadow t d) s = .next u ∧ u.get (R.WYL_CNT_COUNT t 2) = (s.get (R.WYL_CNT_COUNT t 2) + n) % 2 ^ 32 ∧ u.get (causeFld Irq.WYL_LINK_ERR) = 1 ∧
        ((s.port t).qualAt.isSome = true → u.get (R.WYL_PSTAT_NO_SPARE t) = 1 ∧ u.get (R.WYL_PSTAT_SPARE_OK t) = 0 ∧ u.get (causeFld Irq.WYL_RETIRE) = 1 ∧
          u.get (causeFld Irq.WYL_NO_SPARE) = 1 ∧ (u.port t).qualAt = none ∧ u.get (R.WYL_CNT_COUNT t 5) = (s.get (R.WYL_CNT_COUNT t 5) + 1) % 2 ^ 32 ∧
          (sp < 5 → u.laneRetired t sp = true)) ∧
        ((s.port t).qualAt = none →
          (tabGet (s.port t).ival p = some (msgBits d 32 24, 0) → u.get (R.WYL_PSTAT_SPARE_OK t) = 0 ∧ (u.port t).qualAt = some s.ticks) ∧
          (∀ e, e ≠ 0 → tabGet (s.port t).ival p = some (msgBits d 32 24, e) → u.get (R.WYL_PSTAT_SPARE_OK t) = s.get (R.WYL_PSTAT_SPARE_OK t) ∧ (u.port t).qualAt = none) ∧
          ((∀ e, tabGet (s.port t).ival p ≠ some (msgBits d 32 24, e)) → u.get (R.WYL_PSTAT_SPARE_OK t) = s.get (R.WYL_PSTAT_SPARE_OK t) ∧
            (u.port t).mism = some (p, msgBits d 32 24))))) ∧
  (∀ (s : State) (t : Nat) (d : BitVec 48), t < 64 → s.on (R.WYL_PSTAT_BC_LOCK t) = true →
    ∃ u, exec (.tileStatus t d) s = .next u ∧
      (msgBits d 32 8 = 0 → u.get (R.WYL_TSTAT_D t) = d.toNat % 2 ^ 32 ∧ u.get (R.PNL_TSTAT_HOLD_CAP t) = msgBits d 24 1) ∧
      (256 + msgBits d 32 8 ∈ (s.port t).asked → u.get (R.WYL_SRESP_LO_D t) = msgPayload 3 d % 2 ^ 32 ∧ u.get (R.WYL_SRESP_HI_D t) = msgPayload 3 d / 2 ^ 32 % 2 ^ 32)) ∧
  (∀ (s : State) (t : Nat) (d : BitVec 48), s.on (R.WYL_PSTAT_BC_LOCK t) = false → exec (.tileStatus t d) s = .next s ∧ exec (.bcHdrErr t) s = .next s) ∧
  (∀ (s : State) (t : Nat), t < 64 → s.on (R.WYL_PSTAT_BC_LOCK t) = true →
    ∃ u, exec (.bcHdrErr t) s = .next u ∧ u.get (R.WYL_CNT_COUNT t 8) = (s.get (R.WYL_CNT_COUNT t 8) + 1) % 2 ^ 32 ∧ u.get (causeFld Irq.WYL_LINK_ERR) = 1) ∧
  (∀ (s : State) (t : Nat), t < 64 →
    (∀ bs, s.portState t = 0 → exec (.bcBlockLock t bs) s = .next s) ∧
    (s.portState t ≠ 0 →
      (∀ bs, bs.length = 64 → (∀ b ∈ bs, b.1 = 1 ∨ b.1 = 2) → s.on (R.WYL_PSTAT_BC_LOCK t) = false → ∃ u, exec (.bcBlockLock t bs) s = .next u ∧
        u.get (R.WYL_PSTAT_BC_LOCK t) = 1 ∧ u.get (R.WYL_PSTAT_BC_LOSS t) = 0 ∧ (u.port t).bcLost = none) ∧
      (∀ bs, bs.length = 16 → (∀ b ∈ bs, b.1 ≠ 1 ∧ b.1 ≠ 2) → s.on (R.WYL_PSTAT_BC_LOCK t) = true → ∃ u, exec (.bcBlockLock t bs) s = .next u ∧
        u.get (R.WYL_PSTAT_BC_LOCK t) = 0 ∧ (u.port t).bcLost = some ((s.port t).bcLost.getD s.ticks)) ∧
      (∀ d, bcControlOk d = false → s.on (R.WYL_PSTAT_BC_LOCK t) = true → (s.port t).bcBad.countP id < 16 → ∃ u, exec (.bcBlockLock t [(2, d)]) s = .next u ∧
        u.get (R.WYL_PSTAT_BC_LOCK t) = s.get (R.WYL_PSTAT_BC_LOCK t) ∧ u.get (R.WYL_CNT_COUNT t 1) = (s.get (R.WYL_CNT_COUNT t 1) + 1) % 2 ^ 32 ∧
        u.get (causeFld Irq.WYL_LINK_ERR) = 1)) ∧
    (((s.port t).bcLost = none ∨ s.on (R.WYL_PSTAT_BC_LOSS t) = true) → exec (.bcLoss t) s = .next s) ∧
    (∀ k, (s.port t).bcLost = some k → s.on (R.WYL_PSTAT_BC_LOSS t) = false →
      ∃ u, exec (.bcLoss t) s = .next u ∧ u.get (R.WYL_PSTAT_BC_LOSS t) = 1 ∧ u.get (R.WYL_CNT_COUNT t 9) = (s.get (R.WYL_CNT_COUNT t 9) + 1) % 2 ^ 32 ∧
        u.get (causeFld Irq.WYL_BC_LOSS) = 1 ∧ u.portState t = if s.on R.WYL_CTL_AUTO_RETRAIN && s.portServes t then 1 else s.portState t)) ∧
  (∀ (s : State) (t req tag : Nat), t < 64 →
    ∃ u, exec (.statusReq t req tag) s = .next u ∧ u.get (R.WYL_SREQ_REQ t) = req % 256 ∧ u.get (R.WYL_SREQ_TAG t) = tag % 256 ∧ u.get (R.WYL_SREQ_GO t) = 1 ∧
      RegsBut s u [(R.WYL_SREQ_GO t).addr] ∧ u = { s with regs := u.regs, ports := u.ports } ∧
      (u.port t).queue = if s.on (R.WYL_SREQ_GO t) then (s.port t).queue else (s.port t).queue ++ [statusReqBlock req tag]) ∧
  (∀ (s : State) (t : Nat), t < 64 →
    let was := s.get (R.WYL_PSTAT_SHADOW t)
    ((s.on R.WYL_CTL_SHADOW_EN = false ∨ s.portServes t = false ∨ s.hasSpare t = false ∨ (s.port t).failing.isSome = true ∨ s.on (R.WYL_PSTAT_BC_LOSS t) = true) →
      exec (.shadowRotation t) s = .next s) ∧
    (s.on R.WYL_CTL_SHADOW_EN = true → s.portServes t = true → s.hasSpare t = true → (s.port t).failing = none → s.on (R.WYL_PSTAT_BC_LOSS t) = false →
      (s.port t).lost = [] → ∃ u, exec (.shadowRotation t) s = .next u ∧ (u.port t).nextShadow = some (if was = 7 then 0 else (was + 1) % 4) ∧ (u.port t).dirty = false ∧
        (3 ≤ (s.port t).clean → was ≠ 7 → (s.port t).dirty = false → (s.port t).qualAt = none → u.get (R.WYL_PSTAT_SPARE_OK t) = 1))) ∧
  (∀ (s : State) (t : Nat), ((s.sco.inFrame = true ∧ s.sco.blank = false) ∨ (s.port t).failing = none ∨ s.portState t ≠ 2) → exec (.wylSubstitution t) s = .next s) ∧
  (∀ (s : State) (t l : Nat), t < 64 → (s.sco.inFrame = false ∨ s.sco.blank = true) → (s.port t).failing = some l → (s.port t).sent = false → s.portState t = 2 → s.hasSpare t = true →
    let m := fun k => if k = l then s.get (R.WYL_PSTAT_PSPARE t) else s.physLane t k
    let b := Out.column t (laneMapBlock (m 0) (m 1) (m 2) (m 3) (s.physLane t l) 7 (((s.port t).mapSeq + 1) % 256) true)
    ∃ u, exec (.wylSubstitution t) s = .next u ∧ u.out = b :: b :: b :: s.out ∧ (u.port t).sent = true ∧ (u.port t).newMap = [m 0, m 1, m 2, m 3] ∧ u.regs = s.regs) ∧
  (∀ (s : State) (t : Nat), t < 64 → (s.qualified t = false → exec (.qualificationEnd t) s = .next s) ∧
    (s.qualified t = true → s.get (R.WYL_PSTAT_PSPARE t) < 5 →
      ∃ u, exec (.qualificationEnd t) s = .next u ∧ u.get (R.WYL_PSTAT_SPARE_OK t) = 1 ∧ (u.port t).qualAt = none ∧
        u.get (R.WYL_LANE_STAT_QUAL t (s.get (R.WYL_PSTAT_PSPARE t))) = 0 ∧ u.get (R.WYL_CNT_COUNT t 4) = (s.get (R.WYL_CNT_COUNT t 4) + 1) % 2 ^ 32)) ∧
  (∀ (s : State) (t l : Nat), t < 64 → l < 8 →
    ∃ u, exec (.subReq t l) s = .next u ∧ u.get (R.WYL_PCTL_SUB_LANE t) = l ∧
      ((4 ≤ l ∨ s.portServes t = false) → u = { s with regs := u.regs }) ∧
      (l < 4 → s.portServes t = true → s.on R.WYL_CTL_AUTO_SUB = true → s.on (R.WYL_PSTAT_SPARE_OK t) = true → s.hasSpare t = true → (s.port t).failing = none →
        (u.port t).failing = some l)) ∧
  (∀ (s : State) (t : Nat), t < 64 →
    ((s.portState t = 0 ∨ s.portState t = 1) → exec (.retrain t) s = .next s) ∧
    ((s.portState t = 2 ∨ s.portState t = 3 ∨ s.portState t = 4 ∨ s.portState t = 5) →
      ∃ u, exec (.retrain t) s = .next u ∧ u.portState t = 1 ∧ (u.port t).failing = none ∧ u.get (R.WYL_CNT_COUNT t 6) = (s.get (R.WYL_CNT_COUNT t 6) + 1) % 2 ^ 32 ∧
        ∀ t', t' < 64 → t' ≠ t → u.portState t' = s.portState t' ∧ u.port t' = s.port t')) ∧
  (∀ (s : State) (t : Nat), t < 64 →
    (s.portReady t = false → exec (.portUp t) s = .next s) ∧
    (s.portReady t = true → (s.portState t = 1 ∨ s.portState t = 5) →
      ∃ u, exec (.portUp t) s = .next u ∧ u.portState t = (if s.sco.hold.isSome then 4 else 2) ∧ u.get (R.WYL_PSTAT_LANE_FAIL t) = 0 ∧ (u.port t).acount = 0)) ∧
  (∀ (s : State) (t : Nat), t < 64 →
    (s.portState t ≠ 1 → (s.portState t ≠ 5 ∨ (s.port t).retrying = false) → exec (.portTrainTimeout t) s = .next s) ∧
    (s.portState t = 5 → (s.port t).retrying = true → ∃ u, exec (.portTrainTimeout t) s = .next u ∧ u.regs = s.regs ∧ (u.port t).retrying = false ∧
      u.out = Out.lanes t ((List.range 5).filter (fun l => !s.laneRetired t l)) false :: s.out) ∧
    (s.portState t = 1 → ∃ u, exec (.portTrainTimeout t) s = .next u ∧ u.portState t = 5 ∧ u.get (causeFld Irq.WYL_PORT_FAILED) = 1) ∧
    (s.portState t ≠ 5 → exec (.portTrainRetry t) s = .next s) ∧
    (s.portState t = 5 → ∃ u, exec (.portTrainRetry t) s = .next u ∧ u.regs = s.regs ∧ (u.port t).retrying = true ∧
      u.out = Out.column t (holdBlock (if (s.port t).retraining then 4 else 1)) ::
        Out.lanes t ((List.range 5).filter (fun l => !s.laneRetired t l)) true :: s.out)) ∧
  (∀ (s : State) (t : Nat) (en pe : Bool), t < 64 →
    ∃ u, exec (.portEnable t en pe) s = .next u ∧ u.get R.WYL_CTL_ENABLE = b2n en ∧ u.get (R.WYL_PCTL_PORT_EN t) = b2n pe ∧
      ∀ k, k < 64 →
        let on := en && u.on (R.WYL_PCTL_PORT_EN k) && decide (k < s.member.tiles)
        u.portState k = if on then (if s.portState k = 0 then 1 else s.portState k) else 0)

namespace Sys2Proof.Machine
open Sys2Proof

/-! ### Panel and backlight (R239–R269) -/

end Sys2Proof.Machine

open Sys2Proof Sys2Proof.Machine in
/-- R239–R241, R243, R245, R248, R250, R251. The panel.
Completion: on conditions on the state and the operands alone, each of these answers a next state that has its own effect: pnlPowerRequest,
railStep, pnlPgoodRise, railFault, holdFirstTimeout, holdWrite, holdBegin, holdAckTimeout, ledgerRecord, holdAck, holdReportTimeout,
regionRequest. -/
def Obligations.PanelRailsHoldAndRegions : Prop :=
  (∀ (s : State) (on hf : Bool),
    ∃ u, exec (.pnlPowerRequest on hf) s = .next u ∧ u.get R.PNL_PWRREQ_ON = b2n on ∧ u.get R.PNL_PWRREQ_HOLD_FIRST = b2n hf ∧ u.get R.PNL_PWRSTAT_EN = s.get R.PNL_PWRSTAT_EN ∧
      (s.watch.down = true ∨ s.watch.romOnly = true → u = { s with regs := u.regs } ∧ RegsBut s u [R.PNL_PWRREQ_ON.addr]) ∧
      (s.watch.down = false → s.watch.romOnly = false →
        (on = true → s.get R.PNL_PWRSTAT_STATE = 0 → s.pnl.blocked = false → u.get R.PNL_PWRSTAT_STATE = if (u.fittedFrom 0).isSome then 1 else 2) ∧
        (on = true → (s.get R.PNL_PWRSTAT_STATE ≠ 0 ∨ s.pnl.blocked = true) → u.get R.PNL_PWRSTAT_STATE = s.get R.PNL_PWRSTAT_STATE) ∧
        (on = false → s.get R.PNL_PWRSTAT_STATE = 4 → u.get R.PNL_PWRSTAT_STATE = 0 ∧ u.pnl.blocked = false) ∧
        (on = false → s.get R.PNL_PWRSTAT_STATE = 2 → s.pnl.offWaits = false →
          let first := hf && s.tilesOn.any (fun t => s.on (R.PNL_TCTL_HOLD_EN t))
          (first = false → u.get R.PNL_PWRSTAT_STATE = if s.topRail.isSome then 3 else 0) ∧
          (first = true → s.pnl.hold = none → s.holdMask ≠ 0 → u.get R.PNL_PWRSTAT_STATE = 2 ∧ u.pnl.offWaits = true ∧ u.get R.PNL_HOLD_GO = 1 ∧ u.pnl.hold.isSome = true)))) ∧
  (∀ (s : State), (s.get R.PNL_PWRSTAT_STATE ≠ 1 → s.get R.PNL_PWRSTAT_STATE ≠ 3 → exec .railStep s = .next s) ∧
    (∀ n, s.pnl.rail = n → n < 4 → (s.get R.PNL_PWRSTAT_STATE = 1 ∨ s.get R.PNL_PWRSTAT_STATE = 3) →
      ∃ u, exec .railStep s = .next u ∧ bitAt (u.get R.PNL_PWRSTAT_EN) n = decide (s.get R.PNL_PWRSTAT_STATE = 1) ∧
        (∀ k, k < 4 → k ≠ n → bitAt (u.get R.PNL_PWRSTAT_EN) k = bitAt (s.get R.PNL_PWRSTAT_EN) k) ∧
        (s.get R.PNL_PWRSTAT_STATE = 3 → s.on R.PNL_PWRREQ_ON = false → u.get R.PNL_PWRSTAT_STATE = if u.get R.PNL_PWRSTAT_EN = 0 then 0 else 3))) ∧
  (∀ (s : State) (n : Nat), n < 4 →
    ∃ u, exec (.pnlPgoodRise n) s = .next u ∧ bitAt (u.get R.PNL_PWRSTAT_PGOOD) n = true ∧ u.get R.PNL_PWRSTAT_EN = s.get R.PNL_PWRSTAT_EN ∧
      (s.get R.PNL_PWRSTAT_STATE = 1 → s.pnl.rail = n → bitAt (s.get R.PNL_PWRSTAT_EN) n = true →
        (s.fittedFrom (n + 1) = none → u.get R.PNL_PWRSTAT_STATE = 2) ∧ (∀ k, s.fittedFrom (n + 1) = some k → u.pnl.rail = k ∧ u.get R.PNL_PWRSTAT_STATE = 1))) ∧
  (∀ (s : State) (n : Nat) (tmo : Bool), n < 4 → bitAt (s.get R.PNL_PWRSTAT_EN) n = true → (tmo = false ∨ (s.get R.PNL_PWRSTAT_STATE = 1 ∧ s.pnl.rail = n)) →
    ∃ u, exec (.railFault n tmo) s = .next u ∧ u.get R.PNL_PWRSTAT_STATE = 4 ∧ u.get R.PNL_PWRSTAT_FAULT_RAIL = n ∧ u.get R.PNL_PWRSTAT_EN = 0 ∧ u.pnl.blocked = true ∧
      u.get (causeFld Irq.PNL_RAIL_FAULT) = 1) ∧
  (∀ (s : State) (n : Nat), n < 4 → bitAt (s.get R.PNL_PWRSTAT_EN) n = false → exec (.railFault n true) s = .next s ∧
    ∃ u, exec (.railFault n false) s = .next u ∧ bitAt (u.get R.PNL_PWRSTAT_PGOOD) n = false ∧ u.get R.PNL_PWRSTAT_STATE = s.get R.PNL_PWRSTAT_STATE) ∧
  (∀ (s : State), (s.pnl.offWaits = false → exec .holdFirstTimeout s = .next s) ∧
    (s.pnl.offWaits = true → ∃ u, exec .holdFirstTimeout s = .next u ∧ u.pnl.offWaits = false ∧ u.get R.PNL_PWRSTAT_STATE = if s.topRail.isSome then 3 else 0)) ∧
  (∀ (s : State), (s.pnl.hold.isSome = true → exec .holdWrite s = .next s) ∧
    (s.pnl.hold = none → s.holdMask = 0 → ∃ u, exec .holdWrite s = .next u ∧ u.get R.PNL_HOLD_DONE = 1 ∧ u.get R.PNL_HOLD_GO = 0 ∧ u.get (causeFld Irq.PNL_HOLD_DONE) = 1) ∧
    (s.pnl.hold = none → s.holdMask ≠ 0 → ∃ u w, exec .holdWrite s = .next u ∧ u.pnl.hold = some w ∧ w.gen = (s.get R.PNL_HGEN_GEN + 1) % 2 ^ 32 ∧ w.mask = s.holdMask ∧
      w.phase = .record ∧ u.get R.PNL_HOLD_GO = 1 ∧ u.ledgerReq = s.ledgerReq ++ [⟨0x10, 0, [w.gen, w.mask]⟩])) ∧
  (∀ (s : State) (w : HoldWr), s.pnl.hold = some w →
    (w.phase = .record → (∀ r ∈ s.ledgerReq, r.cls ≠ 0x10) → exec .holdBegin s = .next { s with pnl := { s.pnl with hold := some { w with phase := .begin } } }) ∧
    (w.phase ≠ .record → exec .holdBegin s = .next s) ∧
    (w.phase ≠ .acks → exec .holdAckTimeout s = .next s) ∧
    (w.phase = .acks → w.acks = [] → tilesIn w.mask ≠ [] →
      (s.get R.PNL_HCTL_RETRY ≤ w.tries → ∃ u, exec .holdAckTimeout s = .next u ∧ u.pnl.hold = some { w with phase := .doneFail } ∧
        u.ledgerReq.getLast? = some ⟨0x11, 0, s.holdRecord w⟩ ∧ u.get R.PNL_HOLD_DONE = s.get R.PNL_HOLD_DONE ∧ u.get R.PNL_HGEN_GEN = s.get R.PNL_HGEN_GEN) ∧
      (w.tries < s.get R.PNL_HCTL_RETRY → ∃ u v, exec .holdAckTimeout s = .next u ∧ u.pnl.hold = some v ∧ v.gen = (w.gen + 1) % 2 ^ 32 ∧ v.tries = w.tries + 1 ∧ v.phase = .record ∧
        ∀ t, t < 64 → bitAt v.mask t = bitAt w.mask t))) ∧
  (∀ (s : State) (w : HoldWr) (q : LedgerReq) (rest : List LedgerReq), s.pnl.hold = some w → (w.phase = .done ∨ w.phase = .doneFail) → s.ledgerReq = q :: rest →
    q.cls = 0x11 → s.watch.down = false →
    ∃ u, exec .ledgerRecord s = .next u ∧ u.pnl.hold = none ∧ u.get R.PNL_HOLD_DONE = 1 ∧ u.get R.PNL_HOLD_GO = 0 ∧ u.get R.PNL_HGEN_GEN = maxGen q.data % 2 ^ 32 ∧
      u.pnl.entries = holdEntries q.data ∧ u.get (causeFld Irq.PNL_HOLD_DONE) = 1 ∧ (w.phase = .doneFail → u.get R.PNL_HOLD_FAIL = 1) ∧
      (∀ g ∈ w.good, g.1 < 64 → u.get (R.PNL_TSTAT_HOLD_DIRTY g.1) = 0) ∧ (s.pnl.offWaits = true → u.pnl.offWaits = false)) ∧
  (∀ (s : State) (t : Nat) (d : BitVec 48), t < 64 →
    (s.on (R.WYL_PSTAT_BC_LOCK t) = false → exec (.holdAck t d) s = .next s) ∧
    (s.on (R.WYL_PSTAT_BC_LOCK t) = true → ∃ u, exec (.holdAck t d) s = .next u ∧ u.get (R.PNL_HCRC_CRC t) = msgBits d 16 32 ∧
      (∀ a, t ∈ s.pnl.report → (s.port t).asked.find? (fun a => decide (a / 256 = 2)) = some a →
        u.get (R.PNL_TSTAT_START t) = s.reportOutcome t (msgBits d 8 8) (msgBits d 16 32) (msgBits d 48 8)) ∧
      (∀ w, s.pnl.hold = some w → w.phase = .acks → w.mask = 2 ^ t → w.acks = [] → (∀ a ∈ (s.port t).asked, a / 256 ≠ 2) → msgBits d 8 8 = 0 →
        msgBits d 48 8 = w.gen % 256 → tabGet w.sigs t = some (msgBits d 16 32) →
        ∃ v, u.pnl.hold = some v ∧ v.phase = .done ∧ v.good = w.good ++ [(t, w.gen, msgBits d 16 32)] ∧
          u.ledgerReq.getLast? = some ⟨0x11, 0, s.holdRecord v⟩))) ∧
  (∀ (s : State) (t : Nat), t < 64 → (¬ t ∈ s.pnl.report → exec (.holdReportTimeout t) s = .next s) ∧
    (t ∈ s.pnl.report → ∃ u, exec (.holdReportTimeout t) s = .next u ∧ u.get (R.PNL_TSTAT_START t) = 0 ∧ u.pnl.report = s.pnl.report.erase t)) ∧
  (∀ (s : State) (y0 h t x wg : Nat), y0 < 4096 → h < 4096 → t < 64 → x < 512 → wg < 512 →
    let q := (tabGet s.pnl.regions t).getD []
    let rid := (tabGet s.pnl.nextRid t).getD 0
    let r : Region := ⟨rid, y0, h, x, wg, false⟩
    ((s.member.tiles ≤ t ∨ 4095 < y0 + h ∨ wg = 0 ∨ 256 < x + wg ∨ 16 ≤ q.length) →
      ∃ u, exec (.regionRequest y0 h t x wg) s = .next u ∧ u.get R.PNL_RQ_STAT_REFUSED = 1 ∧ u = { s with regs := u.regs }) ∧
    (t < s.member.tiles → y0 + h ≤ 4095 → wg ≠ 0 → x + wg ≤ 256 → q.length < 16 → rid < 64 →
      ∃ u, exec (.regionRequest y0 h t x wg) s = .next u ∧ u.get R.PNL_RQ_STAT_REFUSED = 0 ∧ u.get R.PNL_RQ_STAT_RID = rid ∧
        (tabGet u.pnl.regions t).getD [] = q.filter (fun o => o.sending || !o.inside r) ++ [r] ∧ (tabGet u.pnl.nextRid t).getD 0 = (rid + 1) % 64 ∧
        u.get (R.PNL_CNT_COUNT t 5) = (s.get (R.PNL_CNT_COUNT t 5) + (q.filter (fun o => !o.sending && o.inside r)).length) % 2 ^ 32))

open Sys2Proof Sys2Proof.Machine in
/-- R259–R261, R263–R267. The backlight.
Completion: on conditions on the state and the operands alone, each of these answers a next state that has its own effect: bklTransferComplete,
bklFreeRunFrame, scanoutLine, discover, discoveryEnd, chainRediscover, lampOut. -/
def Obligations.BacklightChains : Prop :=
  (∀ (s : State) (c : Nat) (st : List (List (BitVec 8))), c < 4 →
    ((s.chain c).busy = false → exec (.bklTransferComplete c st) s = .next s) ∧
    ((s.chain c).busy = true →
      let n := s.chainCount c
      ∃ u, exec (.bklTransferComplete c st) s = .next u ∧ (u.chain c).busy = false ∧ bitAt (u.get R.BKL_STAT_RUNNING) c = false ∧
        u.get (R.BKL_CHSTAT_RX_ERR c) = b2n ((List.range n).any (fun i => !statusOk (st.getD i []))) ∧
        (∀ i k, i < n → k < 16 → statusOk (st.getD i []) = true → (bitAt (stringWord (st.getD i []) k) 23 = true ∨ bitAt (stringWord (st.getD i []) k) 22 = true) →
          bitAt ((s.chain c).driver i).bad k = true → i * 16 + k ∈ (u.chain c).failed) ∧
        (∀ s2, s.on R.HLT_CTL_MIRROR_EN = false → s.vwrite 0 (s.addrOf (R.BKL_STS_LO_ADDR c) (R.BKL_STS_HI_ADDR c))
          ((List.range n).flatMap (fun i => statusImage (st.getD i []))) = .ok s2 → u.mem = s2.mem ∧ u.hostMem = s2.hostMem))) ∧
  (∀ (s : State), (s.sco.inFrame = true → s.sco.hold = none → exec .bklFreeRunFrame s = .next s) ∧
    ((s.sco.inFrame = false ∨ s.sco.hold.isSome = true) → ∃ u, exec .bklFreeRunFrame s = .next u ∧ u.get R.BKL_STAT_FREE_RUN = 1 ∧ u.bkl.slot = 0 ∧ u.bkl.ofs = s.get R.BKL_SCAN_OFS)) ∧
  (∀ (s : State) (late : List (Nat × Nat)), s.sco.inFrame = false → (s.on R.BKL_STAT_FREE_RUN = false → exec (.scanoutLine late) s = .next s) ∧
    (s.on R.BKL_STAT_FREE_RUN = true → ∃ u, exec (.scanoutLine late) s = .next u ∧ u.bkl.line = s.bkl.line + 1 ∧ u.regs = s.regs ∧ u.sco = s.sco ∧ u.mem = s.mem)) ∧
  (∀ (s : State) (en : Nat) (disc : Bool), en < 16 →
    ∃ u, exec (.discover en disc) s = .next u ∧ u.get R.BKL_CTL_CH_EN = en ∧ (disc = true → en ≠ 0 → u.get R.BKL_CTL_DISCOVER = 1) ∧
      ∀ c, c < 4 →
        (bitAt en c = true → (disc = true ∨ bitAt (s.get R.BKL_CTL_CH_EN) c = false) →
          ((s.chain c).busy = false → (u.chain c).discovering = true) ∧ ((s.chain c).busy = true → (u.chain c).discoverDue = true)) ∧
        (bitAt en c = false → bitAt (s.get R.BKL_CTL_CH_EN) c = true → (u.chain c).busy = false ∧ (u.chain c).discovering = false ∧ (u.chain c).found = false)) ∧
  (∀ (s : State) (c : Nat) (f : Option Nat), c < 4 →
    ((s.chain c).discovering = false → exec (.discoveryEnd c f) s = .next s) ∧
    ((s.chain c).discovering = true →
      let bad := f.isNone || decide (f.getD 0 ≠ s.chainCount c)
      ∃ u, exec (.discoveryEnd c f) s = .next u ∧ u.get (R.BKL_CHSTAT_FOUND c) = f.getD 0 % 512 ∧ u.get (R.BKL_CHSTAT_BROKEN c) = b2n f.isNone ∧
        u.get (R.BKL_CHSTAT_LEN_MISMATCH c) = b2n (f.isSome && bad) ∧ u.get (R.BKL_CNT_COUNT c 6) = (s.get (R.BKL_CNT_COUNT c 6) + 1) % 2 ^ 32 ∧
        (u.chain c).discovering = false ∧ (u.chain c).chainFailed = ((s.chain c).chainFailed || bad) ∧
        (bad = true → (s.chain c).chainFailed = false → u.get (causeFld Irq.BKL_CHAIN_FAULT) = 1 ∧ u.get (R.BKL_CNT_COUNT c 4) = (s.get (R.BKL_CNT_COUNT c 4) + 1) % 2 ^ 32 ∧
          bitAt (u.get R.BKL_STAT_CHAIN_FAULT) c = true))) ∧
  (∀ (s : State) (c : Nat), c < 4 →
    (((s.chain c).again = false ∨ bitAt (s.get R.BKL_CTL_CH_EN) c = false ∨ (s.chain c).discovering = true) → exec (.chainRediscover c) s = .next s) ∧
    ((s.chain c).again = true → bitAt (s.get R.BKL_CTL_CH_EN) c = true → (s.chain c).discovering = false → (s.chain c).busy = false →
      ∃ u, exec (.chainRediscover c) s = .next u ∧ (u.chain c).discovering = true ∧
        u.out = Out.shift c (bklRecord 0xC3 0 (List.replicate 16 0)) :: Out.latch c 1 :: s.out)) ∧
  (∀ (s : State) (c : Nat), c < 4 →
    ((s.chain c).lampDue = false → exec (.lampOut c) s = .next s) ∧
    ((s.chain c).lampDue = true → ∃ u, exec (.lampOut c) s = .next u ∧ (u.chain c).lampDue = false ∧
      (s.get R.BKL_POLICY_LAMP = 0 → u = { s with bkl := u.bkl }) ∧
      (s.get R.BKL_POLICY_LAMP = 1 → ((s.chain c).chainFailed = true → bitAt (u.get R.BKL_STAT_BLANKED) c = true ∧ (u.chain c).busy = false) ∧
        ∀ img, (s.chain c).chainFailed = false → s.vread 0 (s.addrOf (R.BKL_IMG_LO_ADDR c) (R.BKL_IMG_HI_ADDR c)) .read (64 * s.chainCount c) = .ok img →
          (u.chain c).urgent = true ∧ (u.chain c).busy = true ∧ u.get R.BKL_STAT_BLANKED = s.get R.BKL_STAT_BLANKED) ∧
      (2 ≤ s.get R.BKL_POLICY_LAMP → ∀ k, k < 4 → bitAt (u.get R.BKL_STAT_BLANKED) k = true ∧ (u.chain k).busy = false)))

namespace Sys2Proof.Machine
open Sys2Proof

/-! ### Cameras (R270–R294) -/

end Sys2Proof.Machine

open Sys2Proof Sys2Proof.Machine in
/-- R271–R274, R278, R280, R285–R287, R289–R291, R293. The cameras.
Completion: on conditions on the state and the operands alone, each of these answers a next state that has its own effect: frameStartPacket,
frameEndPacket, longPacket, ignoredShortPacket, headerEccError, hsSyncError, ispLineDone, camSetOpen, camSetClose, camEnable, camSetmaskWrite,
exposureRequest, cciRequestStart, cciRequestComplete. -/
def Obligations.CameraIntakeAndSets : Prop :=
  (∀ (s : State) (p : Nat) (l0 l1 l2 l3 : List Byte) (corr : Bool), s.portTakes p = false →
    exec (.frameStartPacket p l0 [l1, l2, l3] corr) s = .next s ∧ exec (.frameEndPacket p [l0, l1, l2, l3] corr) s = .next s ∧ exec (.longPacket p l0 l1 l2 l3 corr) s = .next s ∧
    exec (.ignoredShortPacket p [l0, l1, l2, l3] corr) s = .next s ∧ exec (.headerEccError p) s = .next s ∧ exec (.hsSyncError p) s = .next s) ∧
  (∀ (s : State) (p : Nat) (l0 l1 l2 l3 : List Byte) (corr : Bool), p < 8 → s.portTakes p = true →
    let b := s.received p [l0, l1, l2, l3]
    (pktDt b = 0 → s.slotsOf p (pktVc b) true = [] → ∃ u, exec (.frameStartPacket p l0 [l1, l2, l3] corr) s = .next u ∧
      u.get (R.CAM_PCNT_COUNT p 0) = (s.get (R.CAM_PCNT_COUNT p 0) + 1) % 2 ^ 32 ∧ u.get (causeFld Irq.CAM_PKT_ERR) = 1 ∧ u.cam = s.cam) ∧
    (pktDt b = 1 → s.slotsOf p (pktVc b) false = [] → ∃ u, exec (.frameEndPacket p [l0, l1, l2, l3] corr) s = .next u ∧
      u.get (R.CAM_PCNT_COUNT p 0) = (s.get (R.CAM_PCNT_COUNT p 0) + 1) % 2 ^ 32 ∧ u.get (causeFld Irq.CAM_PKT_ERR) = 1 ∧ u.cam = s.cam)) ∧
  (∀ (s : State) (p n : Nat) (l0 l1 l2 l3 : List Byte), p < 8 → s.portTakes p = true → s.openFrame n = none →
    let b := s.received p [l0, l1, l2, l3]
    (pktDt b = 0 → s.slotsOf p (pktVc b) true = [n] → ∃ u f, exec (.frameStartPacket p l0 [l1, l2, l3] false) s = .next u ∧
      u.get (R.CAM_SFCNT_FCOUNT n) = (s.get (R.CAM_SFCNT_FCOUNT n) + 1) % 2 ^ 32 ∧
      u.openFrame n = some f ∧ f.fcount = (s.get (R.CAM_SFCNT_FCOUNT n) + 1) % 2 ^ 32 ∧ f.sfn = pktWc b ∧ f.fsPtp = s.ptpNs ∧ f.buf = s.chooseBuf n ∧ f.rcvd = 0 ∧
      (s.chooseBuf n = none → u.get (R.CAM_CNT_COUNT n 8) = (s.get (R.CAM_CNT_COUNT n 8) + 1) % 2 ^ 32 ∧ u.get (causeFld Irq.CAM_RING_FULL) = 1)) ∧
    (pktDt b = 1 → s.slotsOf p (pktVc b) false = [n] → ∃ u, exec (.frameEndPacket p [l0, l1, l2, l3] false) s = .next u ∧
      u.get (R.CAM_PCNT_COUNT p 1) = (s.get (R.CAM_PCNT_COUNT p 1) + 1) % 2 ^ 32 ∧ u.cam = s.cam)) ∧
  (∀ (s : State) (p n : Nat) (l0 l1 l2 l3 : List Byte) (f : CamFrame), p < 8 → s.portTakes p = true → pktDt (s.received p [l0, l1, l2, l3]) = 1 →
    s.slotsOf p (pktVc (s.received p [l0, l1, l2, l3])) false = [n] → s.openFrame n = some f →
    ∃ u, exec (.frameEndPacket p [l0, l1, l2, l3] false) s = .next u ∧ (∀ g ∈ (u.slotSt n).frames, g.key = f.key → g.isOpen = false) ∧
      (s.camFrame n f.key = some f → f.buf = none → s.linesLeft n f = false → ∀ g ∈ (u.slotSt n).frames, g.key ≠ f.key)) ∧
  (∀ (s : State) (p : Nat) (l0 l1 l2 l3 : List Byte) (corr : Bool), p < 8 → s.portTakes p = true →
    let b := s.received p [l0, l1, l2, l3]
    let who := (s.slotsOf p (pktVc b) false).find? (fun n => decide (bitsOf (s.binding n false) 8 6 = pktDt b) && decide (dtBits (pktDt b) ≠ 0))
    16 ≤ pktDt b →
    (who = none → ∃ u, exec (.longPacket p l0 l1 l2 l3 corr) s = .next u ∧ u.get (R.CAM_PCNT_COUNT p 0) = (s.get (R.CAM_PCNT_COUNT p 0) + 1) % 2 ^ 32 ∧ u.cam = s.cam) ∧
    (∀ n, who = some n → s.openFrame n = none → ∃ u, exec (.longPacket p l0 l1 l2 l3 corr) s = .next u ∧
      u.get (R.CAM_PCNT_COUNT p 1) = (s.get (R.CAM_PCNT_COUNT p 1) + 1) % 2 ^ 32 ∧ u.cam = s.cam) ∧
    (∀ n f, who = some n → s.openFrame n = some f → s.camFrame n f.key = some f →
      ∃ u g, exec (.longPacket p l0 l1 l2 l3 corr) s = .next u ∧ u.camFrame n f.key = some g ∧ g.fcount = f.fcount ∧ g.isOpen = true ∧ g.rcvd = min 65535 (f.rcvd + 1) ∧
      (pktCrcOk b = false → bitAt g.mark 1 = true ∧ u.get (R.CAM_CNT_COUNT n 3) = (s.get (R.CAM_CNT_COUNT n 3) + 1) % 2 ^ 32 ∧ u.get (causeFld Irq.CAM_MARK) = 1))) ∧
  (∀ (s : State) (p n : Nat) (l0 l1 l2 l3 : List Byte), p < 8 → s.portTakes p = true → ignoredDt (pktDt (s.received p [l0, l1, l2, l3])) = true →
    s.slotsOf p (pktVc (s.received p [l0, l1, l2, l3])) false = [n] → exec (.ignoredShortPacket p [l0, l1, l2, l3] false) s = .next s ∧
    ∃ u, exec (.ignoredShortPacket p [l0, l1, l2, l3] true) s = .next u ∧ u.get (R.CAM_CNT_COUNT n 1) = (s.get (R.CAM_CNT_COUNT n 1) + 1) % 2 ^ 32 ∧
      u.get (causeFld Irq.CAM_PKT_ERR) = 1 ∧ u.cam = s.cam) ∧
  (∀ (s : State) (p : Nat), p < 8 → s.portTakes p = true →
    (∃ u, exec (.headerEccError p) s = .next u ∧ u.get (R.CAM_PCNT_COUNT p 2) = (s.get (R.CAM_PCNT_COUNT p 2) + 1) % 2 ^ 32 ∧ u.get (causeFld Irq.CAM_PKT_ERR) = 1 ∧
      ∀ n f, n < 32 → s.openFrame n = some f → bitsOf f.cfg 1 3 = p → u.get (R.CAM_CNT_COUNT n 2) = (s.get (R.CAM_CNT_COUNT n 2) + 1) % 2 ^ 32 ∧
        ∃ g ∈ (u.slotSt n).frames, g.key = f.key ∧ bitAt g.mark 0 = true) ∧
    (∃ u, exec (.hsSyncError p) s = .next u ∧ u.get (R.CAM_PCNT_COUNT p 3) = (s.get (R.CAM_PCNT_COUNT p 3) + 1) % 2 ^ 32 ∧ u.get (causeFld Irq.CAM_PKT_ERR) = 1 ∧ u.cam = s.cam)) ∧
  (∀ (s : State) (p : Nat), p < 4 →
    (s.pipeBusy p = none → nextLine (s.pipe p) = none → exec (.ispLineDone p) s = .next s) ∧
    (s.testHeld 17 p = false → (s.pipeBusy p ≠ none ∨ nextLine (s.pipe p) ≠ none) → ∃ u, exec (.ispLineDone p) s = .next u ∧
      u.pipeBusy p = nextLine (s.pipe p) ∧
      u.pipe p = (match nextLine (s.pipe p) with
        | some l => (s.pipe p).erase l
        | none => s.pipe p) ∧
      ∀ l, nextLine (s.pipe p) = some l → u.get (R.ISP_PSTAT_FILL p) = (((s.pipe p).erase l).map PipeLine.size).sum % 2 ^ 18)) ∧
  (∀ (s : State), ((s.on R.CAM_CTL_ENABLE = false ∨ s.on R.CAM_SETCTL_SRC = false) → exec .camSetOpen s = .next s) ∧
    (s.on R.CAM_CTL_ENABLE = true → s.on R.CAM_SETCTL_SRC = true →
      let opens := fun (num : Nat) => ∃ u c, exec .camSetOpen s = .next u ∧ u.cam.set = some c ∧ c.closed = false ∧ c.ptp = s.ptpNs ∧ c.num = num % 2 ^ 32 ∧
        c.mask = s.get R.CAM_SETMASK_MASK ∧ c.members = [] ∧ u.cam.nextSet = (num + 1) % 2 ^ 32
      (∀ d n rest, s.cam.setDue = (d, n) :: rest → (s.pix < d → exec .camSetOpen s = .next s) ∧ (d ≤ s.pix → opens (n.getD s.cam.nextSet))) ∧
      (s.cam.setDue = [] → ((s.sco.inFrame = true ∨ s.pix < s.cam.freeAt) → exec .camSetOpen s = .next s) ∧
        (s.sco.inFrame = false → s.cam.freeAt ≤ s.pix → opens s.cam.nextSet)))) ∧
  (∀ (s : State), (s.setOverdue = false → exec .camSetClose s = .next s) ∧
    (∀ c, s.setOverdue = true → s.cam.set = some c → ∃ u, exec .camSetClose s = .next u ∧ u.cam.set = some { c with closed := true } ∧ u.get R.CAM_SETNUM_SET = c.num % 2 ^ 32 ∧
      u.get (causeFld Irq.SET_DONE) = 1 ∧ u.syn.newSet = some c.num ∧ (∀ s2, s.vwrite 0 (s.setRecAddr c.num) (s.setRecord c) = .ok s2 → u.mem = s2.mem ∧ u.hostMem = s2.hostMem))) ∧
  (∀ (s : State) (en : Bool), ∃ u, exec (.camEnable en) s = .next u ∧ u.get R.CAM_CTL_ENABLE = b2n en ∧
    (en = true → s.on R.CAM_CTL_ENABLE = false → u.cam.set = none ∧ u.cam.nextSet = 0 ∧ u.syn.camSet = none) ∧
    (en = false → s.on R.CAM_CTL_ENABLE = true → (∀ c, u.cam.set = some c → c.closed = true) ∧
      ∀ n f, n < 32 → s.openFrame n = some f → ∀ g ∈ (u.slotSt n).frames, g.key = f.key → g.isOpen = false) ∧
    (en = s.on R.CAM_CTL_ENABLE → u = { s with regs := u.regs })) ∧
  (∀ (s : State) (v : Nat), (∃ u, exec (.camSetmaskWrite false v) s = .next u ∧ u.get R.CAM_SETMASK_MASK = v % 2 ^ 32 ∧ ∀ c, u.cam.set = some c → c.closed = true) ∧
    (∃ u, exec (.camSetmaskWrite true v) s = .next u ∧ u.get R.CAM_SETCTL_SRC = v % 2 ∧ u.get R.CAM_SETCTL_LEAD = v / 2 ^ 8 % 32 ∧ u.get R.CAM_SETCTL_DB_RING = v / 2 ^ 16 % 256 ∧
      ∀ c, u.cam.set = some c → c.closed = true)) ∧
  (∀ (s : State) (tok : Nat), tok < 2 ^ 16 →
    let n := s.get R.CAM_XREQ_A_SLOT; let ne := s.get R.CAM_XREQ_A_NENT; let x := s.slotSt n; let q := x.queue
    let list := s.addrOf R.CAM_XLIST_LO_ADDR R.CAM_XLIST_HI_ADDR
    let r : XReq := ⟨tok, s.get R.CAM_XREQ_A_LAT, s.on R.CAM_XREQ_A_IMM, ne, list⟩
    ((8 ≤ q.length ∨ ne = 0 ∨ s.listRefused list ne = true) →
      ∃ u, exec (.exposureRequest tok) s = .next u ∧ u.get R.CAM_XSTAT_REFUSED = 1 ∧ u = { s with regs := u.regs }) ∧
    (q.length < 8 → ne ≠ 0 → s.listRefused list ne = false →
      ((x.window = none ∨ x.used = true ∨ (q ++ [r]).all (·.imm) = true) → ∃ u, exec (.exposureRequest tok) s = .next u ∧ (u.slotSt n).queue = q ++ [r] ∧
        u.cam.started = s.cam.started ∧ u.get R.CAM_XSTAT_QUEUED = q.length + 1 ∧ u.get R.CAM_XSTAT_REFUSED = s.get R.CAM_XSTAT_REFUSED) ∧
      (∀ k, x.window = some k → x.used = false → q.all (·.imm) = true → r.imm = false → ∃ u, exec (.exposureRequest tok) s = .next u ∧ (u.slotSt n).queue = q ∧
        (u.slotSt n).used = true ∧ u.cam.started = s.cam.started ++ [⟨n, r, k, x.windowAt, s.get (R.CAM_SFCNT_FCOUNT n)⟩] ∧
        u.get R.CAM_XSTAT_REFUSED = s.get R.CAM_XSTAT_REFUSED))) ∧
  (∀ (s : State) (n : Nat), n < 32 →
    let c := s.get (R.CAM_SCFG_CCI n)
    ((s.serves n = none ∨ (tabGet s.cam.cci c).isSome = true) → exec (.cciRequestStart n) s = .next s) ∧
    (∀ j bs, s.serves n = some j → tabGet s.cam.cci c = none → s.listBytes j.req.list j.req.nent = .ok bs →
      ∃ u, exec (.cciRequestStart n) s = .next u ∧ tabGet u.cam.cci c = some j ∧
        (j.req.imm = true → (u.slotSt j.slot).queue = (s.slotSt j.slot).queue.erase j.req) ∧ (j.req.imm = false → u.cam.started = s.cam.started.erase j) ∧
        u.out = Out.cci c (s.on (R.CAM_CCI_MODE c)) (s.cciDiv c) ((List.range j.req.nent).map (cciMsg bs)) :: s.out)) ∧
  (∀ (s : State) (c : Nat) (rd : List Nat), (∀ fa, tabGet s.cam.cci c = none → exec (.cciRequestComplete c fa rd) s = .next s) ∧
    (∀ j, tabGet s.cam.cci c = some j → j.slot < 32 → j.req.token < 2 ^ 16 →
      (∃ u, exec (.cciRequestComplete c none rd) s = .next u ∧ tabGet u.cam.cci c = none ∧ u.get (R.CAM_XDONE_TOKEN j.slot) = j.req.token ∧ u.get (R.CAM_XDONE_OK j.slot) = 1 ∧
        u.get (R.CAM_XDONE_FAIL j.slot) = 0 ∧
        (j.req.imm = false → let slip := decide (s.get (R.CAM_SFCNT_FCOUNT j.slot) ≠ j.fcount)
          (u.slotSt j.slot).toks.head? = some (j.req.token, j.frame + (if slip then 2 else 1) + j.req.lat, slip) ∧ u.get (R.CAM_XDONE_SLIP j.slot) = b2n slip)) ∧
      (∀ i, i < 256 → ∃ u, exec (.cciRequestComplete c (some i) rd) s = .next u ∧ tabGet u.cam.cci c = none ∧ u.get (R.CAM_XDONE_TOKEN j.slot) = j.req.token ∧
        u.get (R.CAM_XDONE_OK j.slot) = 0 ∧ u.get (R.CAM_XDONE_FAIL j.slot) = 1 ∧ u.get (R.CAM_XDONE_ENTRY j.slot) = i ∧ (u.slotSt j.slot).toks = (s.slotSt j.slot).toks ∧
        u.get (R.CAM_CNT_COUNT j.slot 11) = (s.get (R.CAM_CNT_COUNT j.slot 11) + 1) % 2 ^ 32 ∧ u.get (causeFld Irq.CAM_CCI_FAIL) = 1)))

namespace Sys2Proof.Machine
open Sys2Proof

/-! ### The packer and the blitter (R295–R321) -/

/-- The bytes of container that PACK writes for the next chunk of a job: header and data, and the padding to 16 unless it is the last. -/
def PkrJob.packed (j : PkrJob) (orig : List Byte) : List Byte :=
  let last := decide (j.inDone + orig.length = j.srcLen)
  let p := packChunk j.level orig
  let body := chunkHeader j.level last p.1 orig.length p.2.length (crc32c orig) j.chunk ++ p.2
  if last then body else body ++ zeros (up16 (j.outDone + body.length) - (j.outDone + body.length))

end Sys2Proof.Machine

open Sys2Proof Sys2Proof.Machine in
/-- R295–R297, R302. A chunk's round trip. -/
def Obligations.PackedChunkUnpacks : Prop :=
  ∀ (level k : Nat) (last : Bool) (orig : List Byte), 1 ≤ level → level ≤ 9 → k < 2 ^ 32 → 1 ≤ orig.length → orig.length ≤ 65536 →
    (last = true ∨ orig.length = 65536) →
    let p := packChunk level orig
    let h := chunkHeader level last p.1 orig.length p.2.length (crc32c orig) k
    h.length = 32 ∧ p.2.length ≤ orig.length ∧
    ∃ x, parseChunk h (some k) = .ok x ∧ x.last = last ∧ x.stored = p.1 ∧ x.olen = orig.length ∧ x.clen = p.2.length ∧ x.index = k ∧ chunkBytes x p.2 = .ok orig

open Sys2Proof Sys2Proof.Machine in
/-- R299–R305. Packer jobs.
Completion: on conditions on the state and the operands alone, each of these answers a next state that has its own effect: pack, unpack,
packerJobComplete, packerPause. -/
def Obligations.PackerJobs : Prop :=
  (∀ (s : State) (r : Nat) (b : List Byte), s.pkrRing = some r → s.pkrJob r = none → s.testHeld 9 0 = false →
    s.vread (s.get (R.PKR_RCFG_RCTX r)) (s.addrOf (R.PKR_RBASE_LO_ADDR r) (R.PKR_RBASE_HI_ADDR r) + 64 * s.get (R.PKR_HEAD_HEAD r)) .read 64 = .ok b →
    let j := PkrJob.ofBytes b
    ∀ i ∈ [Instr.pack, Instr.unpack],
      (j.bad r b = true → ∃ u, exec i s = .next u ∧ (u.pkrJob r).bind (·.stop) = some 0x10 ∧ u.get (R.PKR_CNT_COUNT 7) = (s.get (R.PKR_CNT_COUNT 7) + 1) % 2 ^ 32 ∧ u.mem = s.mem) ∧
      (j.bad r b = false → j.overlaps = true → ∃ u, exec i s = .next u ∧ (u.pkrJob r).bind (·.stop) = some 0x11 ∧
        u.get (R.PKR_CNT_COUNT 7) = (s.get (R.PKR_CNT_COUNT 7) + 1) % 2 ^ 32 ∧ u.mem = s.mem)) ∧
  (∀ (s : State) (r : Nat) (j : PkrJob) (orig : List Byte), s.pkrRing = some r → s.pkrJob r = some j → j.op = 1 → j.inDone < j.srcLen →
    s.vread j.ctx (j.src + j.inDone) .read (min 65536 (j.srcLen - j.inDone)) = .ok orig →
    (j.outDone + (j.packed orig).length ≤ j.dstLen → ∀ s2, s.vwrite j.ctx (j.dst + j.outDone) (j.packed orig) = .ok s2 →
      ∃ u x, exec .pack s = .next u ∧ u.mem = s2.mem ∧ u.hostMem = s2.hostMem ∧ u.pkrJob r = some x ∧ x.inDone = j.inDone + orig.length ∧
        x.outDone = j.outDone + (j.packed orig).length ∧
        (if j.inDone + orig.length = j.srcLen then x.stop = some 0 ∧ x.chunk = j.chunk else x.stop = j.stop ∧ x.chunk = j.chunk + 1)) ∧
    (j.dstLen < j.outDone + (j.packed orig).length → ∃ u x, exec .pack s = .next u ∧ u.pkrJob r = some x ∧ x.stop = some 1 ∧ x.inDone = j.inDone ∧
      x.outDone = j.outDone ∧ u.get (R.PKR_CNT_COUNT 4) = (s.get (R.PKR_CNT_COUNT 4) + 1) % 2 ^ 32)) ∧
  (∀ (s : State) (r : Nat) (j : PkrJob) (b data o : List Byte) (h : ChunkHdr) (s2 : State), s.pkrRing = some r → s.pkrJob r = some j → j.op = 2 →
    j.inDone + 32 + h.clen ≤ j.srcLen → s.vread j.ctx (j.src + j.inDone) .read 32 = .ok b → parseChunk b j.expect = .ok h →
    s.vread j.ctx (j.src + j.inDone + 32) .read h.clen = .ok data → chunkBytes h data = .ok o → j.outDone + h.olen ≤ j.dstLen →
    s.vwrite j.ctx (j.dst + j.outDone) o = .ok s2 →
    ∃ u x, exec .unpack s = .next u ∧ u.mem = s2.mem ∧ u.hostMem = s2.hostMem ∧ u.pkrJob r = some x ∧ x.outDone = j.outDone + h.olen ∧
      u.get (R.PKR_CNT_COUNT 3) = (s.get (R.PKR_CNT_COUNT 3) + 1) % 2 ^ 32 ∧
      (if h.last then x.stop = some 0 ∧ x.inDone = j.inDone + 32 + h.clen
       else x.stop = j.stop ∧ x.inDone = up16 (j.inDone + 32 + h.clen) ∧ x.expect = some (h.index + 1))) ∧
  (∀ (s : State) (r st : Nat) (j : PkrJob), r < 2 → s.pkrJob r = some j → j.stop = some st → j.read = true → (r = 0 → ∀ k, s.pkrJob 1 = some k → k.stop = none) →
    ∀ s2, s.vwrite j.ctx j.done (leBytes 4 j.job ++ leBytes 2 st ++ leBytes 2 0 ++ leBytes 8 j.inDone ++ leBytes 8 j.outDone ++ leBytes 4 j.chunk ++ leBytes 4 0) = .ok s2 →
    ∃ u, exec .packerJobComplete s = .next u ∧ u.mem = s2.mem ∧ u.hostMem = s2.hostMem ∧ u.pkrJob r = none ∧
      u.get (R.PKR_HEAD_HEAD r) = (s.get (R.PKR_HEAD_HEAD r) + 1) % s.pkrSize r ∧ u.get (R.PKR_CNT_COUNT 0) = (s.get (R.PKR_CNT_COUNT 0) + 1) % 2 ^ 32 ∧
      (j.irq = true → u.get (causeFld Irq.PKR_DONE) = 1)) ∧
  (∀ (s : State) (en pa : Bool), ∃ u, exec (.packerPause en pa) s = .next u ∧ u.get R.PKR_CTL_ENABLE = b2n en ∧ u.get R.PKR_CTL_PAUSE = b2n pa ∧
    u = { s with regs := u.regs } ∧ ((en = false ∨ pa = true) → exec .pack u = .next u ∧ exec .unpack u = .next u ∧
      ∀ r j, r < 2 → s.pkrJob r = some j → j.stop = none → u.get R.PKR_STAT_HALTED = 1))

namespace Sys2Proof.Machine
open Sys2Proof

/-- R311, R314. Where the element at place `k` of a record is written, and where it is read. -/
def BltRec.addrs (c : BltRec) (k : Nat) : Nat × Nat :=
  let p := c.at k
  (c.dst + p.1 * c.dpitch + p.2 * elemBytes c.dfmt, c.src + p.1 * c.spitch + p.2 * elemBytes c.sfmt)

end Sys2Proof.Machine

open Sys2Proof Sys2Proof.Machine in
/-- R309–R321. The blitter.
Completion: on conditions on the state and the operands alone, each of these answers a next state that has its own effect: bltFill, bltCopy,
bltConvert, bltFence, bltWait, bltWaitComplete, bltWm, bltRecordComplete, bltResume, bltSkip, bltPause. -/
def Obligations.BlitterRecords : Prop :=
  (∀ (s : State) (c : BltRec) (i : Instr), s.bltHeld = false → s.blt.fault = false → s.blt.cur = some c → c.fin = false → c.pos < c.w * c.h →
    (i, c.op) ∈ [(Instr.bltFill 1, 1), (Instr.bltCopy 1, 2), (Instr.bltConvert 1, 3)] →
    let ad := c.addrs c.pos
    let rd : Except AccErr (List Byte) := if c.reads then s.vread s.bltCtx ad.2 .read (elemBytes c.sfmt) else .ok []
    let hz := c.reads && !c.hazard && (List.range (elemBytes c.sfmt)).any (fun k => c.wrote c.pos (ad.2 + k))
    (∀ bs s2, rd = .ok bs → hz = false → s.vwrite s.bltCtx ad.1 (c.result bs) = .ok s2 →
      ∃ u, exec i s = .next u ∧ u.mem = s2.mem ∧ u.hostMem = s2.hostMem ∧ u.aq = s.aq ∧
        u.blt = { s.blt with cur := some { c with pos := c.pos + 1, fin := decide (c.w * c.h ≤ c.pos + 1) } }) ∧
    (∀ bs, rd = .ok bs → hz = true → ∃ u, exec i s = .next u ∧ u.get R.BLT_STAT_HAZARD = 1 ∧ u.get (causeFld Irq.BLT_HAZARD) = 1 ∧
      (s.on R.BLT_STAT_HAZARD = false → u.get R.BLT_HZIDX_INDEX = c.index % 2 ^ 12) ∧ u.get (R.BLT_CNT_COUNT 1) = (s.get (R.BLT_CNT_COUNT 1) + 1) % 2 ^ 32) ∧
    (∀ e, rd = .error e → ∃ u, exec i s = .next u ∧ u.get R.BLT_STAT_HALTED = 1 ∧ u.get R.BLT_FAULT_INDEX = c.index % 2 ^ 12 ∧
      u.get R.BLT_FROW_ROWS = c.pos / c.w % 2 ^ 15 ∧ u.get R.BLT_FCOL_ELEMS = c.pos % c.w % 2 ^ 15 ∧ u.get R.BLT_FAULT_CAUSE = (if e.code = 8 then 2 else 1) ∧
      u.get R.BLT_HEAD_HEAD = s.get R.BLT_HEAD_HEAD ∧ u.get (causeFld Irq.BLT_FAULT) = 1 ∧ u.blt.fault = true)) ∧
  (∀ (s : State) (c : BltRec) (i : Instr) (n : Nat), s.bltHeld = false → s.blt.fault = false → s.blt.cur = some c → c.fin = false → c.pos < c.w * c.h →
    (i, c.op) ∈ [(Instr.bltFill n, 1), (Instr.bltCopy n, 2), (Instr.bltConvert n, 3)] →
    ∃ u c', exec i s = .next u ∧ u.blt.cur = some c' ∧ c'.index = c.index ∧ c'.bytes = c.bytes ∧ c.pos ≤ c'.pos ∧ c'.pos ≤ min (c.pos + n) (c.w * c.h) ∧
      (u.blt.fault = false → c'.pos = min (c.pos + n) (c.w * c.h) ∧ c'.fin = decide (c.w * c.h ≤ c.pos + n)) ∧ u.sco = s.sco ∧ u.flash = s.flash ∧ u.pending = s.pending) ∧
  (∀ (s : State) (b : List Byte), let h := s.get R.BLT_HEAD_HEAD; let c : BltRec := ⟨h, b, 0, none, false, false, false⟩
    s.bltHeld = false → s.blt.fault = false → s.blt.cur = none → h ≠ s.get R.BLT_TAIL_TAIL → s.testHeld 10 0 = false →
    s.vread s.bltCtx (s.addrOf R.BLT_RBASE_LO_ADDR R.BLT_RBASE_HI_ADDR + 32 * h) .read 32 = .ok b →
    (c.badReason ≠ 0 → ∀ i ∈ [Instr.bltFill 1, Instr.bltCopy 1, Instr.bltConvert 1, Instr.bltFence, Instr.bltWait],
      ∃ u, exec i s = .next u ∧ u.get R.BLT_STAT_BADREC = 1 ∧ (s.on R.BLT_STAT_BADREC = false → u.get R.BLT_BADIDX_REASON = c.badReason) ∧
        u.get (R.BLT_CNT_COUNT 2) = (s.get (R.BLT_CNT_COUNT 2) + 1) % 2 ^ 32 ∧ u.get R.BLT_HEAD_HEAD = (h + 1) % 2 ^ clampN 2 12 (s.get R.BLT_RCFG_LOG2N) ∧
        (s.on R.HLT_CTL_MIRROR_EN = false → u.mem = s.mem)) ∧
    (∀ s2, c.badReason = 0 → c.op = 4 → s.vwrite s.bltCtx c.dst (leBytes 4 (leAt b 0x10 4)) = .ok s2 →
      ∃ u, exec .bltFence s = .next u ∧ u.mem = s2.mem ∧ u.hostMem = s2.hostMem ∧ u.blt.cur = some { c with fin := true } ∧
        u.get (R.BLT_CNT_COUNT 7) = (s.get (R.BLT_CNT_COUNT 7) + 1) % 2 ^ 32) ∧
    (c.badReason = 0 → c.op = 5 → ∃ u, exec .bltWait s = .next u ∧ u.mem = s.mem ∧
      u.blt.cur = some (if s.on R.SCO_STAT_RUNNING then { c with waiting := some (s.frameNo, s.sco.line) } else { c with fin := true }))) ∧
  (∀ (s : State) (c : BltRec) (p : Nat × Nat), s.bltHeld = false → s.blt.fault = false → s.blt.cur = some c → c.fin = false → c.op = 5 → c.waiting = some p →
    (s.on R.SCO_STAT_RUNNING = true → s.sco.line = c.w → p ≠ (s.frameNo, s.sco.line) →
      ∃ u, exec .bltWaitComplete s = .next u ∧ u.blt = { s.blt with cur := some { c with waiting := none, fin := true } } ∧ u.mem = s.mem) ∧
    (s.on R.SCO_STAT_RUNNING = true → (s.sco.line ≠ c.w ∨ p = (s.frameNo, s.sco.line)) → exec .bltWaitComplete s = .next s) ∧
    (s.on R.SCO_STAT_RUNNING = false → ∃ u, exec .bltWaitComplete s = .next u ∧ u.blt = { s.blt with cur := some { c with waiting := none, fin := true } } ∧
      u.get (R.BLT_CNT_COUNT 5) = (s.get (R.BLT_CNT_COUNT 5) + 1) % 2 ^ 32)) ∧
  (∀ (s : State) (c : BltRec), s.blt.cur = some c →
    (c.rect = true → c.wm ≠ 0 → c.wmSeen = false → c.wm * c.w ≤ c.pos → ∃ u, exec .bltWm s = .next u ∧ u.get R.BLT_WMSTAT_INDEX = c.index % 2 ^ 12 ∧
      u.get R.BLT_WMSTAT_WM = c.wm % 2 ^ 15 ∧ u.get (causeFld Irq.BLT_WM) = 1 ∧ u.get (R.BLT_CNT_COUNT 6) = (s.get (R.BLT_CNT_COUNT 6) + 1) % 2 ^ 32 ∧
      u.blt = { s.blt with cur := some { c with wmSeen := true } } ∧ u.mem = s.mem) ∧
    (c.fin = true → ∃ u, exec .bltRecordComplete s = .next u ∧ u.blt.cur = none ∧ u.get (R.BLT_CNT_COUNT 0) = (s.get (R.BLT_CNT_COUNT 0) + 1) % 2 ^ 32 ∧
      u.get R.BLT_HEAD_HEAD = (s.get R.BLT_HEAD_HEAD + 1) % 2 ^ clampN 2 12 (s.get R.BLT_RCFG_LOG2N) ∧ u.get R.BLT_STAT_BUSY = 0 ∧
      (bitAt c.flags 2 = true → u.get (causeFld Irq.BLT_DONE) = 1) ∧ u.mem = s.mem) ∧
    (c.fin = false → exec .bltRecordComplete s = .next s)) ∧
  (∀ (s : State) (op n : Nat), s.blt.cur = none → s.testHeld 10 0 = true → s.bltRun op n = s) ∧
  (∀ (s : State), (∃ u, exec .bltResume s = .next u ∧ u.blt = { s.blt with fault := false } ∧ u.mem = s.mem) ∧
    (s.on R.BLT_STAT_HALTED = true → ∃ u, exec .bltSkip s = .next u ∧ u.blt.cur = none ∧ u.blt.fault = false ∧
      u.get R.BLT_HEAD_HEAD = (s.get R.BLT_HEAD_HEAD + 1) % 2 ^ clampN 2 12 (s.get R.BLT_RCFG_LOG2N) ∧
      u.get (R.BLT_CNT_COUNT 4) = (s.get (R.BLT_CNT_COUNT 4) + 1) % 2 ^ 32 ∧ u.mem = s.mem) ∧
    (s.on R.BLT_STAT_HALTED = false → exec .bltSkip s = .next s) ∧
    ∀ en pa, ∃ u, exec (.bltPause en pa) s = .next u ∧ u.get R.BLT_CTL_ENABLE = b2n en ∧ u.get R.BLT_CTL_PAUSE = b2n pa ∧ u = { s with regs := u.regs } ∧
      ((en = false ∨ pa = true) → u.get R.BLT_STAT_HALTED = (if s.blt.fault = true ∨ s.blt.cur ≠ none then 1 else 0) ∧
        exec (.bltFill 1) u = .next u ∧ exec (.bltCopy 1) u = .next u ∧ exec (.bltConvert 1) u = .next u))

namespace Sys2Proof.Machine
open Sys2Proof

/-! ### DRAM (R324–R344) -/

end Sys2Proof.Machine

open Sys2Proof Sys2Proof.Machine in
/-- R328, R330–R334, R336, R337, R340. A DRAM controller.
Completion: on conditions on the state and the operands alone, each of these answers a next state that has its own effect: dramReadRequest,
dramWriteRequest, dramAtomic, dramCommandIssue, refreshDue, dramReadData, scrubRead. -/
def Obligations.DramRequests : Prop :=
  (∀ (s : State) (pa : Nat) (mask : BitVec 32) (cl : Client), pa < hbmTop →
    let g := pa / 32; let k := s.paController (g * 32); let c := s.ctrl k; let q := DramReq.read g mask.toNat s.ticks (s.clientClass cl)
    let mine := c.wq.filter (fun e => decide (e.granule = g))
    let r : RdReq := ⟨g * 32, mask.toNat, s.clientClass cl, s.ticks, c.seq, s.maskBytes g mask.toNat, false, false⟩
    (s.hbmOpen = false → exec (.dramReadRequest pa mask cl) s = .next (s.emit (.dramError pa))) ∧
    (s.hbmOpen = true → s.takes s.dram.held q = false →
      exec (.dramReadRequest pa mask cl) s = .next { s with dram := { s.dram with held := s.dram.held ++ [q] } }) ∧
    (s.dramOpen = true → s.dram.held.any (fun h => h.isAtomic && decide (h.granule = g)) = false →
      ((∀ e, mine.getLast? = some e → e.holds mask.toNat = false) → mine.any (fun x => decide (x.mask &&& mask.toNat ≠ 0)) = false →
        (c.rq.filter (fun x => decide (s.paPc x.pa = s.paPc (g * 32)))).length < 32 →
        ∃ u, exec (.dramReadRequest pa mask cl) s = .next u ∧ u.ctrl k = { c with rq := c.rq ++ [r], seq := c.seq + 1 } ∧
          (∀ o, o ≠ k → u.ctrl o = s.ctrl o) ∧ u = { s with dram := { s.dram with ctrls := u.dram.ctrls } }) ∧
      (∀ e, mine.getLast? = some e → e.holds mask.toNat = true → s.poison.contains g = false →
        ∃ u, exec (.dramReadRequest pa mask cl) s = .next u ∧ u.out = .dramData (g * 32) (s.maskBytes g mask.toNat) :: s.out ∧
          u.get (R.MEM_CNT_COUNT k 2) = (s.get (R.MEM_CNT_COUNT k 2) + 1) % 2 ^ 32 ∧ u = { s with regs := u.regs, out := u.out }) ∧
      (∀ e, mine.getLast? = some e → e.holds mask.toNat = false → mine.any (fun x => decide (x.mask &&& mask.toNat ≠ 0)) = true →
        (c.rq.filter (fun x => decide (s.paPc x.pa = s.paPc (g * 32)))).length < 32 →
        ∃ u, exec (.dramReadRequest pa mask cl) s = .next u ∧ (u.ctrl k).rq = c.rq ++ [{ r with waits := true }] ∧
          (u.ctrl k).wq.take mine.length = mine.map (fun e => { e with front := true, draining := true }) ∧
          u.get (R.MEM_CNT_COUNT k 3) = (s.get (R.MEM_CNT_COUNT k 3) + 1) % 2 ^ 32 ∧ u.mem = s.mem ∧ u.out = s.out))) ∧
  (∀ (s : State) (pa : Nat) (mask : BitVec 32) (bs : List Byte) (cl : Client), pa < hbmTop → s.hbmOpen = true →
    let g := pa / 32; let k := s.paController (g * 32); let q := DramReq.write g mask.toNat bs (s.clientClass cl)
    (s.dramOpen = true → s.dram.held.any (fun h => h.isAtomic && decide (h.granule = g)) = false →
      (s.ctrl k).wq.length < (if s.clientClass cl = 0 then 64 else 56) →
      ∃ u, exec (.dramWriteRequest pa mask bs cl) s = .next u ∧ u.out = .dramAck (g * 32) :: s.out ∧
      (∀ i, i < 32 → u.memByte (g * 32 + i) = if bitAt mask.toNat i then bs.getD i 0 else s.memByte (g * 32 + i)) ∧
      (∀ a, a / 32 ≠ g → u.memByte a = s.memByte a) ∧ (∃ e ∈ (u.ctrl k).wq, e.granule = g ∧ e.mask &&& mask.toNat = mask.toNat) ∧
      (∀ o, o ≠ k → u.ctrl o = s.ctrl o) ∧ (mask.toNat = 2 ^ 32 - 1 → u.poison.contains g = false) ∧
      u = { s with mem := u.mem, poison := u.poison, out := u.out, dram := { s.dram with ctrls := u.dram.ctrls } }) ∧
    (s.takes s.dram.held q = false → exec (.dramWriteRequest pa mask bs cl) s = .next { s with dram := { s.dram with held := s.dram.held ++ [q] } }) ∧
    ((s.dramOpen = false ∨ 64 ≤ (s.ctrl k).wq.length) → s.takes s.dram.held q = false)) ∧
  (∀ (s : State) (pa aop : Nat) (wide : Bool) (v : BitVec 64) (cmp : Option (BitVec 64)) (ecc : Ecc), pa < hbmTop →
    let n := if wide then 8 else 4; let k := s.paController pa
    pa % n = 0 → s.dramOpen = true → s.poison.contains (pa / 32) = false → s.dram.held.any (fun h => h.isAtomic && decide (h.granule = pa / 32)) = false →
    (s.ctrl (s.paController (pa / 32 * 32))).wq.length < 56 → (s.ctrl (s.paController (pa / 32 * 32))).rq.any (fun r => decide (r.pa / 32 = pa / 32)) = false →
    let old := leNat (s.memBytes pa n)
    (ecc = .clean → ∃ u, exec (.dramAtomic pa aop wide ⟨v, cmp⟩ ecc) s = .next u ∧ u.out = .dramData pa (leBytes n old) :: s.out ∧
      u.memBytes pa n = leBytes n (match cmp with
        | some x => if old = x.toNat % 2 ^ (8 * n) then v.toNat % 2 ^ (8 * n) else old
        | none => atomicOp aop (8 * n) old (v.toNat % 2 ^ (8 * n))) ∧
      (∃ e ∈ (u.ctrl k).wq, e.granule = pa / 32) ∧ (∀ a, (a < pa ∨ pa + n ≤ a) → u.memByte a = s.memByte a)) ∧
    (ecc = .double → s.on R.HLT_CTL_MIRROR_EN = false → ∃ u, exec (.dramAtomic pa aop wide ⟨v, cmp⟩ ecc) s = .next u ∧ u.out = .dramError pa :: s.out ∧
      u.mem = s.mem ∧ u.get (R.MEM_CNT_COUNT k 6) = (s.get (R.MEM_CNT_COUNT k 6) + 1) % 2 ^ 32)) ∧
  (∀ (s : State) (k pc : Nat) (ecc : Ecc), k < 64 → s.dram.held = [] → (∀ p ∈ (s.ctrl k).refr, p.1 / 64 = pc → p.2 < 9) →
    ((s.ctrl k).wq = [] → (s.ctrl k).drain = false → (∃ r ∈ (s.ctrl k).rq, s.paPc r.pa = pc) →
      ∃ u r, exec (.dramCommandIssue ⟨k, pc⟩ ecc) s = .next u ∧ r ∈ (s.ctrl k).rq ∧ s.paPc r.pa = pc ∧ (u.ctrl k).rq = (s.ctrl k).rq.erase r ∧
        (u.ctrl k).fly = (s.ctrl k).fly ++ [r] ∧ tabGet (u.ctrl k).rows (s.paBank r.pa) = some (paRow r.pa) ∧
        (∀ q ∈ (s.ctrl k).rq, s.paPc q.pa = pc → s.rank r ≤ s.rank q ∧ (s.urgent q = true → s.urgent r = true)) ∧
        u.get (R.MEM_CNT_COUNT k 0) = (s.get (R.MEM_CNT_COUNT k 0) + 1) % 2 ^ 32 ∧ u.mem = s.mem ∧ ∀ o, o ≠ k → u.ctrl o = s.ctrl o) ∧
    (∀ e rest, (s.ctrl k).wq = e :: rest → (s.ctrl k).rq = [] → s.paPc (e.granule * 32) = pc → (∀ x ∈ rest, x.granule ≠ e.granule ∧ x.front = false) →
      ∃ u, exec (.dramCommandIssue ⟨k, pc⟩ ecc) s = .next u ∧ (u.ctrl k).wq = rest ∧ u.get (R.MEM_CNT_COUNT k 1) = (s.get (R.MEM_CNT_COUNT k 1) + 1) % 2 ^ 32 ∧
        ((merges e.mask = false ∨ (ecc = .clean ∧ s.poison.contains e.granule = false)) → u.mem = s.mem) ∧
        (merges e.mask = true → s.poison.contains e.granule = false → ecc = .double →
          u.get (R.MEM_CNT_COUNT k 6) = (s.get (R.MEM_CNT_COUNT k 6) + 1) % 2 ^ 32 ∧ u.get (causeFld Irq.MEM_UE) = 1) ∧
        (e.mask = 2 ^ 32 - 1 → u.poison.contains e.granule = false))) ∧
  (∀ (s : State) (k pc bank : Nat), k < 64 → let b := pc * 64 + bank; let n := (tabGet (s.ctrl k).refr b).getD 0
    ∃ u, exec (.refreshDue k pc bank) s = .next u ∧ u.mem = s.mem ∧ (∀ o, o ≠ k → u.ctrl o = s.ctrl o) ∧
      (if s.bankWanted (s.ctrl k) b = true then tabGet (u.ctrl k).refr b = some (n + 1) ∧
          u.get (R.MEM_CNT_COUNT k 11) = (if n < 8 then (s.get (R.MEM_CNT_COUNT k 11) + 1) % 2 ^ 32 else s.get (R.MEM_CNT_COUNT k 11))
       else u.ctrl k = { s.ctrl k with rows := tabDel (s.ctrl k).rows b } ∧ u.regs = s.regs)) ∧
  (∀ (s : State) (k : Nat) (p : EccPlace) (r : RdReq) (rest : List RdReq), k < 64 → (s.ctrl k).fly = r :: rest →
    (r.bad = true → ∃ u, exec (.dramReadData k .clean p) s = .next u ∧ u.out = .dramError r.pa :: s.out ∧ (u.ctrl k).fly = rest) ∧
    (r.bad = false → s.poison.contains (r.pa / 32) = false →
      (∃ u, exec (.dramReadData k .clean p) s = .next u ∧ u.out = .dramData r.pa r.data :: s.out ∧ u.ctrl k = { s.ctrl k with fly := rest } ∧ u.mem = s.mem ∧ u.regs = s.regs) ∧
      (∃ u, exec (.dramReadData k .single p) s = .next u ∧ u.out = .dramData r.pa r.data :: s.out ∧
        u.get (R.MEM_CNT_COUNT k 5) = (s.get (R.MEM_CNT_COUNT k 5) + 1) % 2 ^ 32 ∧ (∀ g, u.poison.contains g = true → s.poison.contains g = true) ∧
        (s.dram.held = [] → s.on R.MEM_STAT_CHANGING = false → s.paController (r.pa / 32 * 32) = k → (s.ctrl k).wq.length < 56 →
          ∃ e ∈ (u.ctrl k).wq, e.granule = r.pa / 32)) ∧
      (∃ u, exec (.dramReadData k .double p) s = .next u ∧ u.out = .dramError r.pa :: s.out ∧
        u.get (R.MEM_CNT_COUNT k 6) = (s.get (R.MEM_CNT_COUNT k 6) + 1) % 2 ^ 32 ∧ u.get (causeFld Irq.MEM_UE) = 1 ∧
        (s.on R.HLT_CTL_MIRROR_EN = false → u.poison.contains (r.pa / 32) = true)))) ∧
  (∀ (s : State) (ecc : EccKind) (p : EccPlace), s.on R.MEM_CTL_SCRUB_EN = true → s.dramOpen = true →
    let g := s.dram.scrub; let k := s.paController (g * 32)
    (s.poison.contains g = false → ∃ u, exec (.scrubRead .clean p) s = .next u ∧ u.dram.scrub = (if hbmTop ≤ (g + 1) * 32 then 0 else g + 1) ∧
      u.get (R.MEM_CNT_COUNT k 0) = (s.get (R.MEM_CNT_COUNT k 0) + 1) % 2 ^ 32 ∧ u.mem = s.mem ∧ u.poison = s.poison) ∧
    (s.poison.contains g = true → ∃ u, exec (.scrubRead ecc p) s = .next u ∧ u.get (R.MEM_CNT_COUNT k 12) = (s.get (R.MEM_CNT_COUNT k 12) + 1) % 2 ^ 32 ∧
      u.get (R.MEM_CNT_COUNT k 6) = s.get (R.MEM_CNT_COUNT k 6)) ∧
    (s.poison.contains g = false → ∃ u, exec (.scrubRead .single p) s = .next u ∧ u.get (R.MEM_CNT_COUNT k 5) = (s.get (R.MEM_CNT_COUNT k 5) + 1) % 2 ^ 32 ∧
      u.get (R.MEM_CNT_COUNT k 7) = (s.get (R.MEM_CNT_COUNT k 7) + 1) % 2 ^ 32 ∧ u.out = s.out) ∧
    (s.poison.contains g = false → ∃ u, exec (.scrubRead .double p) s = .next u ∧ u.get (R.MEM_CNT_COUNT k 6) = (s.get (R.MEM_CNT_COUNT k 6) + 1) % 2 ^ 32 ∧
      u.get (causeFld Irq.MEM_UE) = 1 ∧ u.out = s.out)) ∧
  (∀ (s : State), s.clientClass .composition = 0 ∧ s.clientClass .camera = 0 ∧ s.clientClass .backlight = 0 ∧ s.clientClass .steward = 1 ∧ s.clientClass .walk = 1 ∧
    s.clientClass .rayEngine = 2 ∧ s.clientClass .tileDecoder = 2 ∧ s.clientClass .packer = 3 ∧ s.clientClass .blitter = 3 ∧ s.clientClass .bar2 = 3 ∧ s.clientClass .scrubber = 3)

open Sys2Proof Sys2Proof.Machine in
/-- R326, R338–R341. The memory interface's upkeep.
Completion: on conditions on the state and the operands alone, each of these answers a next state that has its own effect: mapLock, retrainDue,
retrainNow, retrainSlot, speedGo, speedChangeStart, speedChangeDone, speedChangeTimeout, laneRepair, initialTrainingDone. -/
def Obligations.DramUpkeep : Prop :=
  (∀ (s : State), s.on R.MEM_CTL_MAP_LOCK = false →
    (s.masksOk = true → ∃ u, exec .mapLock s = .next u ∧ u.get R.MEM_CTL_MAP_LOCK = 1 ∧ u = { s with regs := u.regs } ∧ RegsBut s u [R.MEM_CTL_MAP_LOCK.addr]) ∧
    (s.masksOk = false → ∃ u, exec .mapLock s = .next u ∧ u.get R.MEM_CTL_MAP_LOCK = 0 ∧ u.get R.MEM_STAT_MAP_ERR = 1 ∧
      u.get (causeFld Irq.MEM_MAP_ERR) = 1 ∧ u.hbmOpen = false)) ∧
  (∀ (s : State) (k : Nat), k < 64 → s.on R.MEM_CTL_RETRAIN_EN = true → s.on (R.MEM_CHSTAT_RETRAINING k) = false →
    let old := 1000 * max 10 (s.get R.MEM_RETRAIN_PERIOD) ≤ tickUs (s.ctrl k).trainedAt s.ticks ∨
      clampN 1 31 (s.get R.MEM_RETRAIN_DTEMP) ≤ (toInt 8 (s.get (R.MEM_STKTEMP_TEMP (k / 16))) - (s.ctrl k).trainedTemp).natAbs
    (old → ∃ u, exec (.retrainDue k) s = .next u ∧ (u.ctrl k).slots = 64 ∧ u.get (R.MEM_CHSTAT_RETRAINING k) = 1 ∧ (∀ o, o ≠ k → u.ctrl o = s.ctrl o) ∧ u.mem = s.mem) ∧
    (¬ old → exec (.retrainDue k) s = .next s)) ∧
  (∀ (s : State), ∃ u, exec .retrainNow s = .next u ∧ (∀ k, k < 64 → u.ctrl k = { s.ctrl k with slots := 64 } ∧ u.get (R.MEM_CHSTAT_RETRAINING k) = 1) ∧ u.mem = s.mem) ∧
  (∀ (s : State) (k pc rd wr : Nat) (mv : Int), k < 64 → s.dramOpen = true →
    ((s.ctrl k).rq.any (fun r => decide (s.paPc r.pa = pc) && s.urgent r) = false → s.calRuns 2 = true → (s.ctrl k).slots ≠ 0 → s.hlt.laneTests = [] →
      ∃ u, exec (.retrainSlot ⟨k, pc⟩ rd wr mv true none) s = .next u ∧ (u.ctrl k).slots = (s.ctrl k).slots - 1 ∧ (∀ o, o ≠ k → u.ctrl o = s.ctrl o) ∧
        ((s.ctrl k).slots = 1 → u.get (R.MEM_CHSTAT_RETRAINING k) = 0 ∧ u.get (R.MEM_CNT_COUNT k 8) = (s.get (R.MEM_CNT_COUNT k 8) + 1) % 2 ^ 32 ∧
          (u.ctrl k).trainedAt = s.ticks)) ∧
    (∀ ok sp, (s.ctrl k).rq.any (fun r => decide (s.paPc r.pa = pc) && s.urgent r) = true →
      ∃ u, exec (.retrainSlot ⟨k, pc⟩ rd wr mv ok sp) s = .next u ∧ (∀ o, u.ctrl o = s.ctrl o) ∧ u.mem = s.mem)) ∧
  (∀ (s : State) (req : Nat) (cw : Bool), req < 4 →
    (s.on R.MEM_STAT_CHANGING = true → ∃ u, exec (.speedGo req cw) s = .next u ∧ u.get R.MEM_SPEED_REFUSED = 1 ∧ u.get R.MEM_SPEED_REASON = 2) ∧
    (s.on R.MEM_STAT_CHANGING = false → req = 3 → ∃ u, exec (.speedGo req cw) s = .next u ∧ u.get R.MEM_SPEED_REFUSED = 1 ∧ u.get R.MEM_SPEED_REASON = 3) ∧
    (s.on R.MEM_STAT_CHANGING = false → req ≠ 3 → ∃ u, exec (.speedGo req cw) s = .next u ∧ u.get R.MEM_SPEED_CAM_WAIT = b2n cw ∧
      (if req = s.get R.MEM_STAT_SPEED then u.get R.MEM_STAT_PENDING = 0 else u.get R.MEM_STAT_PENDING = 1 ∧ u.dram.target = req ∧ u.dram.goAt = s.ticks) ∧
      u = { s with regs := u.regs, dram := { s.dram with target := u.dram.target, goAt := u.dram.goAt } })) ∧
  (∀ (s : State), s.on R.MEM_STAT_PENDING = true → s.on R.MEM_STAT_TRAINED = true →
    (s.sco.inFrame = false ∨ (s.sco.blank = true ∧ s.sco.line = s.active ∧ 62500 ≤ s.blankLeft)) →
    (s.on R.MEM_SPEED_CAM_WAIT = false ∨ ∀ p ∈ s.cam.slots, p.2.frames.any (·.isOpen) = false) →
    ∃ u, exec .speedChangeStart s = .next u ∧ u.get R.MEM_STAT_CHANGING = 1 ∧ u.get R.MEM_STAT_PENDING = 0 ∧ u.mem = s.mem ∧
      ∀ k, k < 64 → u.ctrl k = { s.ctrl k with slots := 0 } ∧ ((s.ctrl k).slots ≠ 0 → u.get (R.MEM_CHSTAT_RETRAINING k) = 0 ∧ u.dram.redo = true)) ∧
  (∀ (s : State), s.on R.MEM_STAT_CHANGING = true →
    ((∀ p ∈ s.dram.ctrls, p.2.wq = [] ∧ p.2.rq = [] ∧ p.2.fly = []) →
      ∃ u, exec .speedChangeDone s = .next u ∧ u.get R.MEM_STAT_CHANGING = 0 ∧ u.get R.MEM_STAT_SPEED = s.dram.target % 4 ∧ u.get R.MEM_SPEED_DONE = 1 ∧
        u.get (causeFld Irq.MEM_SPEED_DONE) = 1 ∧
        (s.dram.held = [] → s.dram.repairs = [] → u.mem = s.mem ∧ (s.dram.redo = true → ∀ k, k < 64 → (u.ctrl k).slots = 64))) ∧
    (∀ p ∈ s.dram.ctrls, (p.2.wq ≠ [] ∨ p.2.rq ≠ [] ∨ p.2.fly ≠ []) → exec .speedChangeDone s = .next s)) ∧
  (∀ (s : State), (s.on R.MEM_STAT_PENDING = true → s.on R.MEM_STAT_TRAINED = true → 1000000 ≤ tickUs s.dram.goAt s.ticks →
      ∃ u, exec .speedChangeTimeout s = .next u ∧ u.get R.MEM_STAT_PENDING = 0 ∧ u.get R.MEM_SPEED_REFUSED = 1 ∧ u.get R.MEM_SPEED_REASON = 1 ∧ u = { s with regs := u.regs }) ∧
    (tickUs s.dram.goAt s.ticks < 1000000 → exec .speedChangeTimeout s = .next s)) ∧
  (∀ (s : State) (k pc lane : Nat) (m : Bool), k < 64 → pc < 2 → lane < 32 → s.on R.MEM_CTL_REPAIR_EN = true →
    let ces := (((tabGet (s.ctrl k).lanes (pc * 64 + lane)).getD []).filter (fun t => decide ((s.ticks - t) * 64 < 20625 * 1000000))).length
    let failing := m = true ∨ zeroActs 1 (s.get R.MEM_REPAIR_CE_LIM) ≤ ces
    let f := if pc = 0 then R.MEM_CHSTAT_SPARES0 k else R.MEM_CHSTAT_SPARES1 k
    (¬ failing → exec (.laneRepair k pc lane m) s = .next s) ∧
    (failing → s.on R.MEM_STAT_CHANGING = false → bitAt (s.get f) (lane / 8) = true → s.hlt.exercise.contains (8 * k + 4 * pc + lane / 8) = false →
      ∃ u, exec (.laneRepair k pc lane m) s = .next u ∧ u.get f = s.get f - 2 ^ (lane / 8) ∧
        u.get (R.MEM_CNT_COUNT k 10) = (s.get (R.MEM_CNT_COUNT k 10) + 1) % 2 ^ 32 ∧ u.ledgerReq = s.ledgerReq ++ [⟨0x22, 0, [k, pc, lane]⟩]) ∧
    (failing → s.on R.MEM_STAT_CHANGING = false → bitAt (s.get f) (lane / 8) = false →
      ∃ u, exec (.laneRepair k pc lane m) s = .next u ∧ u.get (R.MEM_CHSTAT_DEGRADED k) = 1 ∧ u.get f = s.get f ∧
        (s.on (R.MEM_CHSTAT_DEGRADED k) = false → u.get (causeFld Irq.MEM_DEGRADED) = 1) ∧ u.mem = s.mem) ∧
    (failing → s.on R.MEM_STAT_CHANGING = true →
      exec (.laneRepair k pc lane m) s = .next { s with dram := { s.dram with repairs := s.dram.repairs ++ [(k, pc, lane)] } })) ∧
  (∀ (s : State), ∃ u, exec .initialTrainingDone s = .next u ∧ u.get R.MEM_STAT_TRAINED = 1 ∧ (∀ k, k < 64 → (u.ctrl k).trainedAt = s.ticks ∧ (u.ctrl k).wq = (s.ctrl k).wq) ∧
    u = { s with regs := u.regs, dram := { s.dram with ctrls := u.dram.ctrls } } ∧ RegsBut s u [R.MEM_STAT_TRAINED.addr])

open Sys2Proof Sys2Proof.Machine in
/-- R344. HBM after reset. -/
def Obligations.HbmClosedAtReset : Prop :=
  State.reset.get R.MEM_CTL_MAP_LOCK = 0 ∧ State.reset.get R.MEM_STAT_TRAINED = 0 ∧ State.reset.get R.MEM_STAT_SPEED = 0 ∧
  (List.range 11).map (fun i => State.reset.hashMask i) = [0x008200100, 0x010400200, 0x020800400, 0x041000800, 0x082001000, 0x104002000, 0x208004000,
    0x400208000, 0x000410000, 0x000820000, 0x001040000] ∧
  (∀ s : State, s.hbmOpen = true ↔ s.get R.MEM_STAT_TRAINED ≠ 0 ∧ s.get R.MEM_CTL_MAP_LOCK ≠ 0) ∧
  (∀ s : State, s.masksOk = true → ∃ u v, exec .mapLock s = .next u ∧ exec .initialTrainingDone u = .next v ∧ v.hbmOpen = true)

namespace Sys2Proof.Machine
open Sys2Proof

/-! ### Translation and DMA (R345–R372) -/

end Sys2Proof.Machine

open Sys2Proof Sys2Proof.Machine in
/-- R345, R346, R351–R356, R367, R422. The MMU.
Completion: on conditions on the state and the operands alone, each of these answers a next state that has its own effect: translationRequest,
walkComplete, translationFault, logWindowClose, invalidate, invalidationDone, lock0. -/
def Obligations.TranslationAndInvalidation : Prop :=
  (∀ (s : State) (cl ctx va acc : Nat), s.ctxOn ctx = true → va < 2 ^ 48 →
    (s.mmu.tlb.any (fun e => e.covers ctx va) = true → exec (.translationRequest cl ctx va acc) s = .next s) ∧
    (s.mmu.tlb.any (fun e => e.covers ctx va) = false → s.mmu.walks.length < 32 →
      ∃ u, exec (.translationRequest cl ctx va acc) s = .next u ∧ u.mmu = { s.mmu with walks := s.mmu.walks ++ [⟨cl, ctx, va, accOf acc, false⟩] } ∧
        u.get (R.MMU_CNT_COUNT 1) = (s.get (R.MMU_CNT_COUNT 1) + 1) % 2 ^ 32 ∧ u = { s with regs := u.regs, mmu := u.mmu }) ∧
    (s.mmu.tlb.any (fun e => e.covers ctx va) = false → 32 ≤ s.mmu.walks.length →
      ∃ u, exec (.translationRequest cl ctx va acc) s = .next u ∧ u = { s with regs := u.regs } ∧ u.get (R.MMU_CNT_COUNT 0) = (s.get (R.MMU_CNT_COUNT 0) + 1) % 2 ^ 32)) ∧
  (∀ (s : State) (i : Nat) (w : Walk), s.mmu.walks[i]? = some w →
    (w.retry = true → ∃ u, exec (.walkComplete i) s = .next u ∧ u.mmu.tlb = s.mmu.tlb ∧ u.mmu.walks.length = s.mmu.walks.length ∧
      u.get (R.MMU_CNT_COUNT 6) = (s.get (R.MMU_CNT_COUNT 6) + 1) % 2 ^ 32) ∧
    (w.retry = false → ∃ u, exec (.walkComplete i) s = .next u ∧ u.mmu.walks = s.mmu.walks.eraseIdx i ∧ u = { s with mmu := u.mmu, regs := u.regs } ∧
      (match s.walk w.ctx w.va with
        | .ok e => u.mmu.tlb.head? = some e ∧ u.regs = s.regs ∧ (∀ x ∈ u.mmu.wcache, x ∈ s.walkTables w.ctx w.va (s.walkStart w.ctx w.va).1 (s.walkStart w.ctx w.va).2 ∨ x ∈ s.mmu.wcache)
        | .error c => u.mmu.tlb = s.mmu.tlb ∧ u.mmu.wcache = s.mmu.wcache ∧ (c ≠ 5 → u.regs = s.regs) ∧
            (∀ pa, c = 5 → s.walkPoison w.va (s.walkStart w.ctx w.va).1 (s.walkStart w.ctx w.va).2 = some pa →
              u.get (R.MEM_CNT_COUNT (s.paController pa) 12) = (s.get (R.MEM_CNT_COUNT (s.paController pa) 12) + 1) % 2 ^ 32)))) ∧
  (∀ (s : State) (ctx va : Nat) (acc : Acc), (s.ctxOn ctx = false → s.translate ctx va acc = .error 7) ∧
    (s.ctxOn ctx = true → 2 ^ 48 ≤ va → s.translate ctx va acc = .error 6)) ∧
  (∀ (s : State) (cl id ctx va acc cls cause : Nat), va < 2 ^ 64 → s.on R.HLT_CTL_MIRROR_EN = false →
    let info := faultInfo ctx cause (accOf acc) cls cl
    let head := s.get R.MMU_FRING_HEAD_HEAD
    ∃ u, exec (.translationFault cl id ctx va acc cls cause) s = .next u ∧ u.get64 R.MMU_FLAST_VA_LO_VA R.MMU_FLAST_VA_HI_VA = va ∧
      u.get R.MMU_FLAST_INFO_INFO = info % 2 ^ 32 ∧ u.get (R.MMU_CNT_COUNT 2) = (s.get (R.MMU_CNT_COUNT 2) + 1) % 2 ^ 32 ∧
      u.get (causeFld Irq.MMU_FAULT) = 1 ∧
      (s.faultJoins cl id ctx cause va = none → s.fringSize ≤ subMod 32 head (s.get R.MMU_FRING_TAIL_TAIL) →
        u.get R.MMU_FRING_HEAD_HEAD = head ∧ u.get R.MMU_STAT_OVERFLOW = 1 ∧ u.get R.MMU_FRING_DROP_DROP = (s.get R.MMU_FRING_DROP_DROP + 1) % 2 ^ 32 ∧ u.mem = s.mem) ∧
      (∀ pa, s.faultJoins cl id ctx cause va = none → subMod 32 head (s.get R.MMU_FRING_TAIL_TAIL) < s.fringSize → s.hbmOpen = true → pa + 32 ≤ hbmTop →
        (∀ i, i < 32 → s.translate 0 (s.fringAddr head + i) .write = .ok (pa + i)) →
        u.get R.MMU_FRING_HEAD_HEAD = (head + 1) % 2 ^ 32 ∧ u.memBytes pa 32 = faultRecord va s.ptpNs info id 1 ∧
        ∀ a, (a < pa ∨ pa + 32 ≤ a) → u.memByte a = s.memByte a)) ∧
  (∀ (s : State) (i : Nat) (w : LogWindow), s.logWin[i]? = some w →
    ((s.ticks - w.firstTick) * 64 < 20625 * 1000 → exec (.logWindowClose i) s = .next s) ∧
    (20625 * 1000 ≤ (s.ticks - w.firstTick) * 64 → exec (.logWindowClose i) s = .next { s with logWin := s.logWin.eraseIdx i })) ∧
  (∀ (s : State) (p ctx sc : Nat), p < 2 → ctx < 64 → sc < 3 → (s.invQueue p).length < 8 →
    ∃ u r, exec (.invalidate p ctx sc) s = .next u ∧ u.get (R.MMU_INV_SEQ_QSEQ p) = (s.get (R.MMU_INV_SEQ_QSEQ p) + 1) % 2 ^ 16 ∧
      u.invQueue p = s.invQueue p ++ [r] ∧ r.seq = u.get (R.MMU_INV_SEQ_QSEQ p) ∧ r.ctx = ctx ∧ r.scope = sc ∧
      (∀ w ∈ u.mmu.walks, r.covers w.ctx (w.va / 4096 * 4096) 4096 = true → w.retry = true) ∧ u.mmu.tlb = s.mmu.tlb ∧ u.mem = s.mem) ∧
  (∀ (s : State) (p ctx sc : Nat), p < 2 → (sc = 3 ∨ (sc < 4 ∧ 8 ≤ (s.invQueue p).length)) →
    ∃ u, exec (.invalidate p ctx sc) s = .next u ∧ u.mmu = s.mmu ∧ u.get (R.MMU_INV_SEQ_QSEQ p) = s.get (R.MMU_INV_SEQ_QSEQ p)) ∧
  (∀ (s : State) (p : Nat) (r : InvReq) (rest : List InvReq), p < 2 → s.invQueue p = r :: rest →
    let held := (List.range 16).any (fun h => (s.hamlet h).phase != .normal &&
      s.mmu.saveMap.any (fun q => decide (q.1 % 16 = h) && q.2.any (fun e => r.covers e.ctx e.va (2 ^ e.log2))))
    (held = true → exec (.invalidationDone p) s = .next s) ∧
    (held = false → ∃ u, exec (.invalidationDone p) s = .next u ∧ u.invQueue p = rest ∧ u.get (R.MMU_INV_SEQ_DSEQ p) = r.seq % 2 ^ 16 ∧
      (∀ e ∈ u.mmu.tlb, r.covers e.ctx e.va (2 ^ e.log2) = false ∧ e ∈ s.mmu.tlb) ∧
      (∀ e ∈ u.mmu.wcache, (r.scope = 0 ∨ e.ctx = r.ctx) = False ∧ e ∈ s.mmu.wcache) ∧
      u.get (R.MMU_CNT_COUNT 4) = (s.get (R.MMU_CNT_COUNT 4) + 1) % 2 ^ 32)) ∧
  (∀ (s : State), ∃ u, exec .lock0 s = .next u ∧ u.get R.MMU_CTL_LOCK0 = 1 ∧ u = { s with regs := u.regs } ∧ RegsBut s u [R.MMU_CTL_LOCK0.addr] ∧
    ∀ a v, 0x41000 ≤ a → a < 0x41010 → exec (.registerWrite .host 0 a v) u = .next u)

namespace Sys2Proof.Machine
open Sys2Proof

/-- R362. The address, the source address and the length of the next element of a descriptor. -/
def DmaRing.next (x : DmaRing) (d : DmaDesc) : Nat × Nat × Nat :=
  let dst := (d.dst + x.rows * d.dpitch + x.bytes) % 2 ^ 64
  (dst, (d.src + x.rows * d.spitch + x.bytes) % 2 ^ 64, min (64 - dst % 64) (d.rowBytes - x.bytes))

/-- R362. The progress after an element of `n` bytes. -/
def DmaRing.moved (x : DmaRing) (d : DmaDesc) (n : Nat) : DmaRing :=
  let y := if x.bytes + n = d.rowBytes then { x with rows := x.rows + 1, bytes := 0 } else { x with bytes := x.bytes + n }
  { y with stop := if y.rows = d.rows then some 0 else none }

end Sys2Proof.Machine

open Sys2Proof Sys2Proof.Machine in
/-- R360–R364, R368. DMA.
Completion: on conditions on the state and the operands alone, each of these answers a next state that has its own effect: dmaFill, dmaCopy,
dmaDescriptorComplete, dmaResume, dmaSkip, dmaPause. -/
def Obligations.DmaDescriptors : Prop :=
  (∀ (s : State) (e r : Nat) (d : DmaDesc), e < 16 → r < 3 → s.dmaServed e r = true → (s.dmaRing e r).cur = some d → d.bad = false →
    let x := s.dmaRing e r; let nx := x.next d; let ctx := s.dmaCtx e r
    let i := if d.fill then Instr.dmaFill e r 1 else Instr.dmaCopy e r 1
    (∀ bs s2, (if d.fill then .ok (fillBytes d.src x.bytes nx.2.2) else s.vread ctx nx.2.1 .read nx.2.2) = .ok bs → s.vwrite ctx nx.1 bs = .ok s2 →
      ∃ u, exec i s = .next u ∧ u.mem = s2.mem ∧ u.hostMem = s2.hostMem ∧ u.dmaRing e r = x.moved d nx.2.2 ∧
        u.get (R.DMA_PROW_ROWS_DONE e r) = (x.moved d nx.2.2).rows % 2 ^ 32 ∧ u.get (R.DMA_PBYTE_BYTES_DONE e r) = (x.moved d nx.2.2).bytes % 2 ^ 32 ∧
        u.aq = s.aq ∧ ∀ e' r', r' < 4 → (e', r') ≠ (e, r) → u.dmaRing e' r' = s.dmaRing e' r') ∧
    (∀ er, d.fill = false → s.vread ctx nx.2.1 .read nx.2.2 = .error er →
      ∃ u, exec i s = .next u ∧ u.dmaRing e r = { x with stop := some 1, cause := er.code }) ∧
    (∀ bs er, (if d.fill then .ok (fillBytes d.src x.bytes nx.2.2) else s.vread ctx nx.2.1 .read nx.2.2) = .ok bs → s.vwrite ctx nx.1 bs = .error er →
      ∃ u, exec i s = .next u ∧ u.dmaRing e r = { x with stop := some 1, cause := er.code })) ∧
  (∀ (s u : State) (e r n : Nat) (d : DmaDesc), let i := fun k => if d.fill then Instr.dmaFill e r k else Instr.dmaCopy e r k
    s.dmaServed e r = true → (s.dmaRing e r).cur = some d → d.bad = false → exec (i 0) s = .next s ∧
      (exec (i 1) s = .next u → u.dmaServed e r = true → (u.dmaRing e r).cur = some d → exec (i (n + 1)) s = exec (i n) u)) ∧
  (∀ (s : State) (e r n : Nat), (s.dmaServed e r = false ∨ ((s.dmaRing e r).cur = none ∧ s.testHeld 5 e = true)) → exec (.dmaCopy e r n) s = .next s ∧ exec (.dmaFill e r n) s = .next s) ∧
  (∀ (s : State) (e r : Nat) (d : DmaDesc), e < 16 → r < 3 → (s.dmaRing e r).cur = some d →
    let x := s.dmaRing e r
    (x.stop = some 0 → ∃ u, exec (.dmaDescriptorComplete e r) s = .next u ∧ u.get (R.DMA_HEAD_HEAD e r) = (s.get (R.DMA_HEAD_HEAD e r) + 1) % s.dmaSize e r ∧
      (u.dmaRing e r).cur = none ∧ u.get (R.DMA_RSTAT_BUSY e r) = 0 ∧ u.get (R.DMA_CNT_COUNT e 0) = (s.get (R.DMA_CNT_COUNT e 0) + 1) % 2 ^ 32 ∧
      (d.done = 0 → u.mem = s.mem) ∧
      (∀ s2, d.done ≠ 0 → d.done % 32 = 0 → s.vwrite (s.dmaCtx e r) d.done (leBytes 4 d.tag ++ leBytes 2 0 ++ zeros 2 ++ leBytes 4 x.rows ++ leBytes 4 x.bytes ++
          leBytes 8 s.ptpNs ++ zeros 8) = .ok s2 → u.mem = s2.mem ∧ u.hostMem = s2.hostMem)) ∧
    (x.stop = some 1 → s.on (R.DMA_RSTAT_HALTED e r) = false →
      ∃ u, exec (.dmaDescriptorComplete e r) s = .next u ∧ u.get (R.DMA_RSTAT_HALTED e r) = 1 ∧ u.get (R.DMA_RSTAT_CAUSE e r) = x.cause % 16 ∧
        u.get (R.DMA_HEAD_HEAD e r) = s.get (R.DMA_HEAD_HEAD e r) ∧ u.get (R.DMA_CNT_COUNT e 2) = (s.get (R.DMA_CNT_COUNT e 2) + 1) % 2 ^ 32 ∧
        u.get (causeFld Irq.DMA_HALT) = 1 ∧ u.dmaRing e r = x) ∧
    (x.stop = some 0x10 → ∃ u, exec (.dmaDescriptorComplete e r) s = .next u ∧ u.get (R.DMA_HEAD_HEAD e r) = (s.get (R.DMA_HEAD_HEAD e r) + 1) % s.dmaSize e r ∧
      (u.dmaRing e r).cur = none ∧ u.get (R.DMA_CNT_COUNT e 5) = (s.get (R.DMA_CNT_COUNT e 5) + 1) % 2 ^ 32 ∧ u.get (causeFld Irq.DMA_BADDESC) = 1)) ∧
  (∀ (s : State) (e r : Nat), e < 16 → r < 3 → s.dmaSavedAt e r = none →
    (s.on (R.DMA_RSTAT_HALTED e r) = true →
      (∃ u, exec (.dmaResume e r) s = .next u ∧ u.get (R.DMA_RSTAT_HALTED e r) = 0 ∧ u.dmaRing e r = { s.dmaRing e r with stop := none, cause := 0 } ∧ u.mem = s.mem) ∧
      (∃ u, exec (.dmaSkip e r) s = .next u ∧ u.get (R.DMA_RSTAT_HALTED e r) = 0 ∧ u.get (R.DMA_HEAD_HEAD e r) = (s.get (R.DMA_HEAD_HEAD e r) + 1) % s.dmaSize e r ∧
        u.get (R.DMA_CNT_COUNT e 3) = (s.get (R.DMA_CNT_COUNT e 3) + 1) % 2 ^ 32 ∧ (u.dmaRing e r).cur = none)) ∧
    (s.on (R.DMA_RSTAT_HALTED e r) = false → exec (.dmaResume e r) s = .next s ∧ exec (.dmaSkip e r) s = .next s) ∧
    (∀ on, ∃ u, exec (.dmaPause e r on) s = .next u ∧ u.get (R.DMA_RCTL_PAUSE e r) = b2n on ∧ u = { s with regs := u.regs } ∧ RegsBut s u [(R.DMA_RCTL_PAUSE e r).addr])) ∧
  (∀ (s : State) (e i : Nat) (x : SavedHamlet), s.dmaSavedAt e 2 = some i → s.aq.saved[i]? = some x → 
    (∃ u, exec (.dmaResume e 2) s = .next u ∧ u = { s with aq := { s.aq with saved := u.aq.saved } } ∧ (u.aq.saved[i]?).map (·.dma2.stop) = some none) ∧
    (∃ u, exec (.dmaSkip e 2) s = .next u ∧ u = { s with aq := { s.aq with saved := u.aq.saved } } ∧ (u.aq.saved[i]?).map (·.dma2.stop) = some (some 2)))

namespace Sys2Proof.Machine
open Sys2Proof

/-! ### Network and time (R373–R394) -/

end Sys2Proof.Machine

open Sys2Proof Sys2Proof.Machine in
/-- R374–R377, R379–R389. Ethernet and PTP.
Completion: on conditions on the state and the operands alone, each of these answers a next state that has its own effect: txFrame,
txTimestampWriteback, rxFrame, ethLinkChange, offsetGo, ptpHoldover, stepGo, stepApply, ppsInEdge, ppsOutRise, ppsOutFall, ptpTimerFire. -/
def Obligations.NetworkAndPtpTime : Prop :=
  (∀ (s : State) (p : Nat), (s.ethUp p = false ∨ (∀ q ∈ [1, 0], s.ethRing p q = false ∨ s.txNext p q = s.get (R.ETH_TAIL_TAIL p q))) → exec (.txFrame p) s = .next s) ∧
  (∀ (s : State) (p q : Nat) (b : List Byte), p < 2 → s.ethUp p = true →
    [1, 0].find? (fun q => s.ethRing p q && decide (s.txNext p q ≠ s.get (R.ETH_TAIL_TAIL p q))) = some q → s.vread (s.ethCtx p q) (s.ethDesc p q (s.txNext p q)) .read 32 = .ok b →
    let i := s.txNext p q; let f := leAt b 0xA 1; let t := adjustTs s.ptpFine (s.get (R.ETH_TSADJ_TX_PS p))
    (txBad b (s.maxFrame p) = true → ∃ u, exec (.txFrame p) s = .next u ∧ u.ethFly p = s.ethFly p ++ [⟨q, i, 2, f, 0, s.epoch⟩] ∧ u.out = s.out ∧
      u.get (R.ETH_CNT_COUNT p 8) = (s.get (R.ETH_CNT_COUNT p 8) + 1) % 2 ^ 32) ∧
    (∀ fr, txBad b (s.maxFrame p) = false → s.vread (s.ethCtx p q) (leAt b 0 8) .read (leAt b 8 2) = .ok fr →
      ∃ u, exec (.txFrame p) s = .next u ∧ u.ethFly p = s.ethFly p ++ [⟨q, i, 0, f, t, s.epoch⟩] ∧ u.out = Out.eth p (onWire (if bitAt f 1 then oneStep b fr t else fr)) :: s.out ∧
        u.get (R.ETH_CNT_COUNT p 0) = (s.get (R.ETH_CNT_COUNT p 0) + 1) % 2 ^ 32 ∧ u.mem = s.mem)) ∧
  (∀ (s : State) (p : Nat), (s.ethFly p = [] → exec (.txTimestampWriteback p) s = .next s) ∧
    (∀ x rest, p < 2 → x.q < 4 → s.ethFly p = x :: rest → ∃ u, exec (.txTimestampWriteback p) s = .next u ∧ u.ethFly p = rest ∧
      u.get (R.ETH_HEAD_HEAD p x.q) = (x.idx + 1) % s.ethSize p x.q ∧
      (∀ s2, (x.status ≠ 0 ∨ x.flags % 4 = 0) → s.vwrite (s.ethCtx p x.q) (s.ethDesc p x.q x.idx + 0xA) (leBytes 1 (x.flags % 128 + 128) ++ leBytes 1 x.status) = .ok s2 →
        u.mem = s2.mem ∧ u.hostMem = s2.hostMem))) ∧
  (∀ (s : State) (p fec : Nat) (fr : List (BitVec 8)) (ok : Bool), s.ethUp p = false → exec (.rxFrame p fr ok fec) s = .next s) ∧
  (∀ (s : State) (p : Nat) (fr : List (BitVec 8)), p < 2 → s.ethUp p = true →
    (∃ u, exec (.rxFrame p fr false 0) s = .next u ∧ u.get (R.ETH_CNT_COUNT p 2) = (s.get (R.ETH_CNT_COUNT p 2) + 1) % 2 ^ 32 ∧ u = { s with regs := u.regs }) ∧
    (∃ u, exec (.rxFrame p fr false 2) s = .next u ∧ u.get (R.ETH_CNT_COUNT p 10) = (s.get (R.ETH_CNT_COUNT p 10) + 1) % 2 ^ 32 ∧ u.get (causeFld Irq.ETH_FEC_UNCORR) = 1) ∧
    (s.maxFrame p < fr.length → ∃ u, exec (.rxFrame p fr true 0) s = .next u ∧ u.get (R.ETH_CNT_COUNT p 3) = (s.get (R.ETH_CNT_COUNT p 3) + 1) % 2 ^ 32 ∧ u = { s with regs := u.regs }) ∧
    (60 ≤ fr.length → fr.length ≤ s.maxFrame p → beAt fr 12 2 = 0x8808 →
      ∃ u, exec (.rxFrame p fr true 0) s = .next u ∧ u.get (R.ETH_CNT_COUNT p 6) = (s.get (R.ETH_CNT_COUNT p 6) + 1) % 2 ^ 32 ∧ u = { s with regs := u.regs }) ∧
    (60 ≤ fr.length → fr.length ≤ s.maxFrame p → beAt fr 12 2 ≠ 0x8808 →
      let k := frameKind fr
      let q := match s.filterOf p k with
        | some i => 2 + s.get (R.ETH_FLT_RING p i)
        | none => if k.ptp && s.on (R.ETH_PCFG_PTP_STW p) then 3 else 2
      (s.macTakes p fr = false → exec (.rxFrame p fr true 0) s = .next s) ∧
      (s.macTakes p fr = true → (s.ethRing p q = false ∨ s.get (R.ETH_HEAD_HEAD p q) = s.get (R.ETH_TAIL_TAIL p q)) →
        ∃ u, exec (.rxFrame p fr true 0) s = .next u ∧ u.get (R.ETH_CNT_COUNT p 4) = (s.get (R.ETH_CNT_COUNT p 4) + 1) % 2 ^ 32 ∧ u = { s with regs := u.regs }) ∧
      (∀ d s2, s.macTakes p fr = true → s.ethRing p q = true → s.get (R.ETH_HEAD_HEAD p q) ≠ s.get (R.ETH_TAIL_TAIL p q) →
        s.vread (s.ethCtx p q) (s.ethDesc p q (s.get (R.ETH_HEAD_HEAD p q))) .read 32 = .ok d → s.vwrite (s.ethCtx p q) (leAt d 0 8) (fr.take (min fr.length (leAt d 8 2))) = .ok s2 →
        ∃ u, exec (.rxFrame p fr true 0) s = .next u ∧ u.get (R.ETH_CNT_COUNT p 1) = (s.get (R.ETH_CNT_COUNT p 1) + 1) % 2 ^ 32 ∧
          u.get (R.ETH_HEAD_HEAD p q) = (s.get (R.ETH_HEAD_HEAD p q) + 1) % s.ethSize p q ∧
          u.get (R.ETH_CNT_COUNT p 5) = (s.get (R.ETH_CNT_COUNT p 5) + b2n (decide (leAt d 8 2 < fr.length))) % 2 ^ 32))) ∧
  (∀ (s : State) (p : Nat) (fr : List (BitVec 8)) (ok : Bool), s.ethUp p = true →
    exec (.rxFrame p fr ok 1) s = exec (.rxFrame p fr ok 0) (s.bump (R.ETH_CNT_COUNT p 9))) ∧
  (∀ (s : State) (p : Nat) (lk hb : Bool), p < 2 →
    (bitAt (s.get R.ETH_CTL_EN) p = false → exec (.ethLinkChange p ⟨true, lk, hb⟩) s = .next s) ∧
    (bitAt (s.get R.ETH_CTL_EN) p = true → ∃ u, exec (.ethLinkChange p ⟨true, lk, hb⟩) s = .next u ∧ u.get (R.ETH_PSTAT_LINK_UP p) = 1 ∧
      u.get (R.ETH_PSTAT_BLOCK_LOCK p) = 1 ∧ u.get (R.ETH_PSTAT_HI_BER p) = 0 ∧
      u.get (R.ETH_PSTAT_FEC_LOCK p) = b2n (s.on (R.ETH_PCFG_FEC p) && !s.on (R.ETH_PCFG_SPEED p)) ∧ u = { s with regs := u.regs, freeCtr := u.freeCtr }) ∧
    (s.on (R.ETH_PSTAT_LINK_UP p) = false → ∃ u, exec (.ethLinkChange p ⟨false, lk, hb⟩) s = .next u ∧ u = { s with regs := u.regs } ∧
      u.get (R.ETH_PSTAT_BLOCK_LOCK p) = b2n lk ∧ u.get (R.ETH_PSTAT_HI_BER p) = b2n hb ∧ RegsBut s u [(R.ETH_PSTAT_LINK_UP p).addr]) ∧
    (s.on (R.ETH_PSTAT_LINK_UP p) = true → ∃ u, exec (.ethLinkChange p ⟨false, lk, hb⟩) s = .next u ∧ u.get (R.ETH_PSTAT_LINK_UP p) = 0 ∧
      u.get (R.ETH_PSTAT_BLOCK_LOCK p) = b2n lk ∧ u.get (R.ETH_PSTAT_HI_BER p) = b2n hb ∧
      u.get (R.ETH_CNT_COUNT p 11) = (s.get (R.ETH_CNT_COUNT p 11) + 1) % 2 ^ 32 ∧ u.get (causeFld Irq.ETH_LINK_DOWN) = 1 ∧ u.ptp = s.ptp)) ∧
  (∀ (s : State) (fr ep : Nat), fr < 2 ^ 16 → ep < 256 →
    let o : Int := toInt 32 (s.get R.PTP_OFS_A_OFFSET) * 65536 + (fr : Int)
    let m := s.freqMax; let lim := zeroActs 1 (s.get R.PTP_LIMITS_STEP_LIM) * 65536
    let integ := max (-m) (min m (s.ptp.integ - s.gainTerm (s.get R.PTP_SERVO_KI) o))
    (s.on R.PTP_CTL_SERVO_EN = false → ∃ u, exec (.offsetGo fr ep) s = .next u ∧ u = { s with regs := u.regs } ∧ RegsBut s u [R.PTP_OFS_B_FRAC.addr]) ∧
    (s.on R.PTP_CTL_SERVO_EN = true → (ep ≠ s.epoch ∨ s.on R.PTP_STAT_STEP_PENDING = true) →
      ∃ u, exec (.offsetGo fr ep) s = .next u ∧ u = { s with regs := u.regs } ∧ u.get (R.PTP_CNT_COUNT 2) = (s.get (R.PTP_CNT_COUNT 2) + 1) % 2 ^ 32 ∧
        u.get R.PTP_STAT_REFUSALS = s.get R.PTP_STAT_REFUSALS) ∧
    (s.on R.PTP_CTL_SERVO_EN = true → ep = s.epoch → s.on R.PTP_STAT_STEP_PENDING = false → lim < o.natAbs →
      ∃ u, exec (.offsetGo fr ep) s = .next u ∧ u.ptp = s.ptp ∧ u.get R.PTP_STAT_REFUSALS = min 255 (s.get R.PTP_STAT_REFUSALS + 1) ∧
        u.get (R.PTP_CNT_COUNT 1) = (s.get (R.PTP_CNT_COUNT 1) + 1) % 2 ^ 32 ∧
        (s.get R.PTP_STAT_REFUSALS = 7 → u.get R.PTP_STAT_MCS = 1 ∧ u.get (R.PTP_CNT_COUNT 3) = (s.get (R.PTP_CNT_COUNT 3) + 1) % 2 ^ 32 ∧ u.get (causeFld Irq.PTP_MCS) = 1) ∧
        (s.get R.PTP_STAT_REFUSALS ≠ 7 → u.get R.PTP_STAT_MCS = s.get R.PTP_STAT_MCS)) ∧
    (s.on R.PTP_CTL_SERVO_EN = true → ep = s.epoch → s.on R.PTP_STAT_STEP_PENDING = false → o.natAbs ≤ lim →
      ∃ u, exec (.offsetGo fr ep) s = .next u ∧
        u.ptp = { s.ptp with integ := integ, target := max (-m) (min m (integ - s.gainTerm (s.get R.PTP_SERVO_KP) o)), lastAccept := s.ticks } ∧
        u.get R.PTP_STAT_REFUSALS = 0 ∧ u.get R.PTP_STAT_HOLDOVER = 0 ∧ u.get R.PTP_STAT_MCS = s.get R.PTP_STAT_MCS ∧
        u.get (R.PTP_CNT_COUNT 0) = (s.get (R.PTP_CNT_COUNT 0) + 1) % 2 ^ 32)) ∧
  (∀ (s : State), ((s.on R.PTP_STAT_HOLDOVER = true ∨ s.since s.ptp.lastAccept < 1000000 * zeroActs 1 (s.get R.PTP_SERVO_HOLD_S)) → exec .ptpHoldover s = .next s) ∧
    (s.on R.PTP_STAT_HOLDOVER = false → 1000000 * zeroActs 1 (s.get R.PTP_SERVO_HOLD_S) ≤ s.since s.ptp.lastAccept → ∃ u, exec .ptpHoldover s = .next u ∧ u.get R.PTP_STAT_HOLDOVER = 1 ∧ u.ptp = { s.ptp with target := s.ptp.integ } ∧
      u.get (R.PTP_CNT_COUNT 6) = (s.get (R.PTP_CNT_COUNT 6) + 1) % 2 ^ 32 ∧ u.get (causeFld Irq.PTP_HOLDOVER) = 1)) ∧
  (∀ (s : State) (ab : Bool),
    (∃ u, exec (.stepGo .host ab) s = .next u ∧ u.ptp = { s.ptp with step := some (ab, toInt 64 (s.get64 R.PTP_STEP_LO_STEP R.PTP_STEP_HI_STEP)) } ∧
      u.get R.PTP_STAT_STEP_PENDING = 1 ∧ u.get R.PTP_STEP_CTL_ABS = b2n ab) ∧
    (∀ w, w ≠ .host → ∃ u, exec (.stepGo w ab) s = .next u ∧ u.ptp = s.ptp ∧ u.get R.PTP_STAT_STEP_PENDING = s.get R.PTP_STAT_STEP_PENDING ∧
      u.get (R.PTP_CNT_COUNT 5) = (s.get (R.PTP_CNT_COUNT 5) + 1) % 2 ^ 32)) ∧
  (∀ (s : State), (s.ptp.step = none → exec .stepApply s = .next s) ∧
    (∀ ab v, s.ptp.step = some (ab, v) → ∃ u, exec .stepApply s = .next u ∧
      u.ptp = { s.ptp with time := if ab then ofInt 64 v * 2 ^ 32 else ofInt 96 ((s.ptp.time : Int) + v * 2 ^ 32), step := none } ∧
      u.get R.PTP_STAT_STEP_PENDING = 0 ∧ u.epoch = (s.epoch + 1) % 256 ∧ u.get R.PTP_STAT_REFUSALS = 0 ∧ u.get R.PTP_STAT_MCS = s.get R.PTP_STAT_MCS ∧
      u.get (R.PTP_CNT_COUNT 4) = (s.get (R.PTP_CNT_COUNT 4) + 1) % 2 ^ 32 ∧ u.get (causeFld Irq.PTP_STEP) = 1 ∧ u.sco.stepped = true)) ∧
  (∀ (s : State), (s.on R.PTP_CTL_PPS_IN_EN = false → exec .ppsInEdge s = .next s) ∧
    (s.on R.PTP_CTL_PPS_IN_EN = true → s.halfSecond s.ptp.ppsIn = true → ∃ u, exec .ppsInEdge s = .next u ∧ u.ptp = s.ptp ∧
      u.get (R.PTP_CNT_COUNT 8) = (s.get (R.PTP_CNT_COUNT 8) + 1) % 2 ^ 32 ∧ u.aq = s.aq) ∧
    (s.on R.PTP_CTL_PPS_IN_EN = true → s.halfSecond s.ptp.ppsIn = false → ∃ u, exec .ppsInEdge s = .next u ∧ u.ptp = { s.ptp with ppsIn := some s.ticks } ∧
      u.get64 R.PTP_S_PPSIN_LO_TIME R.PTP_S_PPSIN_HI_TIME = s.ptpNs ∧ u.get R.PTP_S_PPSIN_FRAC_FRAC = s.ptpFine % 2 ^ 16 ∧
      u.get (R.PTP_CNT_COUNT 7) = (s.get (R.PTP_CNT_COUNT 7) + 1) % 2 ^ 32 ∧ u.events 0 = s.events 0 ++ [timerEv 0xFF s.ptpNs])) ∧
  (∀ (s : State), let sec := 1000000000 * 2 ^ 32
    let crossed := (s.ptp.time % sec + sec - min 999999999 (s.get R.PTP_PPS_OFS_OFS) * 2 ^ 32) % sec < incOf s.ptp.rate
    ((s.on R.PTP_CTL_PPS_OUT_EN = false ∨ s.halfSecond s.ptp.ppsLast = true ∨ ¬ crossed) → exec .ppsOutRise s = .next s) ∧
    (s.on R.PTP_CTL_PPS_OUT_EN = true → s.halfSecond s.ptp.ppsLast = false → crossed →
      exec .ppsOutRise s = .next { s with ptp := { s.ptp with ppsOut := true, ppsLast := some s.ticks } }) ∧
    ((s.on R.PTP_CTL_PPS_OUT_EN = false ∨ ∀ t, s.ptp.ppsLast = some t → 1000 * clampN 1 999 (s.get R.PTP_PPS_PPS_W) ≤ tickUs t s.ticks) →
      exec .ppsOutFall s = .next { s with ptp := { s.ptp with ppsOut := false } }) ∧
    (∀ t, s.on R.PTP_CTL_PPS_OUT_EN = true → s.ptp.ppsLast = some t → tickUs t s.ticks < 1000 * clampN 1 999 (s.get R.PTP_PPS_PPS_W) → exec .ppsOutFall s = .next s)) ∧
  (∀ (s : State) (n : Nat), n < 8 →
    let t := s.timerTime n; let per := s.get (R.PTP_TMR_PER_PERIOD n); let c := s.get (R.PTP_TMR_CTL_CORE n)
    ((s.on (R.PTP_TMR_CTL_EN n) = false ∨ s.ptpNs < t) → exec (.ptpTimerFire n) s = .next s) ∧
    (s.on (R.PTP_TMR_CTL_EN n) = true → t ≤ s.ptpNs →
      ∃ u, exec (.ptpTimerFire n) s = .next u ∧ u.events c = s.events c ++ [timerEv n s.ptpNs] ∧
        (per = 0 → u.on (R.PTP_TMR_CTL_EN n) = false ∧ u.timerTime n = t) ∧
        (per ≠ 0 → u.on (R.PTP_TMR_CTL_EN n) = true ∧ u.timerTime n = (t + ((s.ptpNs - t) / per + 1) * per) % 2 ^ 64)))

namespace Sys2Proof.Machine
open Sys2Proof

/-! ### Host interface, registers and pins (R3–R8, R16, R17, R22, R395–R397, R405–R407, R507–R509) -/

/-- R396. An access error of a BAR, offset and kind has been recorded: counted, the first one latched, the cause raised. -/
def AccessErrored (s u : State) (bar off kind : Nat) : Prop :=
  u.get (R.HST_CNT_COUNT 0) = (s.get (R.HST_CNT_COUNT 0) + 1) % 2 ^ 32 ∧ u.get (causeFld Irq.HST_AERR) = 1 ∧ u.get R.HST_AERR_HI_VALID = 1 ∧
  (s.on R.HST_AERR_HI_VALID = false → u.get R.HST_AERR_LO_OFFSET = off % 2 ^ 32 ∧ u.get R.HST_AERR_HI_BAR = bar ∧ u.get R.HST_AERR_HI_KIND = kind) ∧
  (s.on R.HST_AERR_HI_VALID = true → ∀ f ∈ [R.HST_AERR_LO_OFFSET, R.HST_AERR_HI_OFFSET, R.HST_AERR_HI_BAR, R.HST_AERR_HI_KIND], u.get f = s.get f) ∧
  u = { s with regs := u.regs, int := u.int, out := u.out }

/-- A register of whose block no write starts an operation. -/
def plainReg (a : Nat) : Bool :=
  [5, 6, 7, 11, 15, 17, 18, 23].contains (a / 0x10000) && decide (rctlAt a = none) && decide (a ≠ R.BKL_CTL_CH_EN.addr) && decide (a % 0x10000 ≠ 0xFFF0)

end Sys2Proof.Machine

open Sys2Proof Sys2Proof.Machine in
/-- R6, R7. Accesses of other sizes, and bits and offsets that hold nothing.
Completion: on conditions on the state and the operands alone, each of these answers a next state that has its own effect: bar0BadAccess. -/
def Obligations.BadAccessesAndReservedBits : Prop :=
  (∀ (s : State) (off : Nat), s.hst.d3 = false → off < 2 ^ 32 →
    (∃ u, exec (.bar0BadAccess off true) s = .next u ∧ AccessErrored s u 0 off 1 ∧ u.out = s.out) ∧
    (∃ u, exec (.bar0BadAccess off false) s = .next u ∧ AccessErrored s u 0 off 1 ∧ u.out = .readData [0, 0, 0, 0] :: s.out)) ∧
  (∀ (s : State) (who : Who) (a v : Nat), s.hst.d3 = false → a % 4 = 0 → regRow a = none →
    exec (.rcRead who 0 a) s = .next (s.emit (.readData [0, 0, 0, 0])) ∧ exec (.registerWrite who 0 a v) s = .next s) ∧
  (∀ (a : Nat) (r : RegRow × Nat) (i : Nat), regRow a = some r → i < 32 → r.1.fields.all (fun f => decide (i < f.lsb) || decide (f.lsb + f.width ≤ i)) = true →
    bitAt (fieldsReset r.1.fields) i = false ∧ ∀ s : State, bitAt (s.readReg a) i = false)

open Sys2Proof Sys2Proof.Machine in
/-- R3, R5, R22, R395, R396. Accesses through the BARs.
Completion: on conditions on the state and the operands alone, each of these answers a next state that has its own effect: rcRead, registerWrite,
bar2Read, bar2Write, barAtomicRequest. -/
def Obligations.BarAccesses : Prop :=
  (∀ (s : State) (who : Who) (a : Nat), s.barOpen who = true → a % 4 = 0 →
    ∃ u, exec (.rcRead who 0 a) s = .next u ∧ u.out = .readData (leBytes 4 (s.readReg a)) :: s.out ∧ u = { s with regs := u.regs, out := u.out } ∧ RegsBut s u [a] ∧
      (∀ r, regRow a = some r → s.regPresent r = false → s.readReg a = 0) ∧
      (∀ r, regRow a = some r → ∀ f ∈ r.1.fields, bitsOf (u.word a) f.lsb f.width = if f.typ = .rc then 0 else bitsOf (s.word a) f.lsb f.width)) ∧
  (∀ (s : State) (who : Who) (a v : Nat) (r : RegRow × Nat), s.barOpen who = true → a % 4 = 0 → regRow a = some r → v < 2 ^ 32 →
    (s.regPresent r = false → exec (.registerWrite who 0 a v) s = .next s) ∧
    (s.regPresent r = true → plainReg a = true →
      ∃ u, exec (.registerWrite who 0 a v) s = .next u ∧ (s.sco.armed = none → RegsBut s u [a] ∧ u = { s with regs := u.regs }) ∧ u.mem = s.mem ∧
        ∀ f ∈ r.1.fields, let old := bitsOf (s.word a) f.lsb f.width; let new := bitsOf (presentBits s.member a v) f.lsb f.width
          bitsOf (u.word a) f.lsb f.width = match f.typ with
            | .rw => new
            | .sh => if s.sco.armed = none then new else old
            | .lk => if who = .watch then new else old
            | .w1c => old - (old &&& new)
            | _ => old)) ∧
  (∀ (s : State) (who : Who) (n v : Nat), s.barOpen who = true → n < 64 →
    ∃ u, exec (.registerWrite who 1 (16 * n + 8) v) s = .next u ∧ u.msixEntry n = { s.msixEntry n with data := v % 2 ^ 32 } ∧
      (∀ k, k ≠ n → u.msixEntry k = s.msixEntry k) ∧ u = { s with int := { s.int with msix := u.int.msix } }) ∧
  (∀ (s : State) (y n : Nat), s.hst.d3 = false →
    (s.bar2Addr y + n ≤ hbmTop → s.hbmOpen = true → s.poisonIn (s.bar2Addr y) n = [] →
      exec (.bar2Read y n) s = .next (s.emit (.readData (s.memBytes (s.bar2Addr y) n)))) ∧
    (hbmTop < s.bar2Addr y + n → ∃ u, exec (.bar2Read y n) s = .next u ∧ AccessErrored s u 1 y 2 ∧ u.out = .readData (zeros n) :: s.out) ∧
    (s.bar2Addr y + n ≤ hbmTop → s.hbmOpen = false → ∃ u, exec (.bar2Read y n) s = .next u ∧ AccessErrored s u 1 y 5 ∧ u.out = .readData (zeros n) :: s.out) ∧
    (let gs := s.poisonIn (s.bar2Addr y) n
     s.bar2Addr y + n ≤ hbmTop → s.hbmOpen = true → gs ≠ [] →
      ∃ u, exec (.bar2Read y n) s = .next u ∧ AccessErrored s u 1 y 3 ∧ u.out = .completerAbort :: s.out ∧
        ∀ k, k < 64 → u.get (R.MEM_CNT_COUNT k 12) = (s.get (R.MEM_CNT_COUNT k 12) + (gs.filter (fun g => decide (s.paController (32 * g) = k))).length) % 2 ^ 32)) ∧
  (∀ (s : State) (y : Nat) (bs : List Byte), s.hst.d3 = false →
    (s.bar2Addr y + bs.length ≤ hbmTop → s.hbmOpen = true →
      ∃ u, exec (.bar2Write y bs) s = .next u ∧ u.memBytes (s.bar2Addr y) bs.length = bs ∧
        (∀ a, (a < s.bar2Addr y ∨ s.bar2Addr y + bs.length ≤ a) → u.memByte a = s.memByte a) ∧ u = { s with mem := u.mem, poison := u.poison }) ∧
    (hbmTop < s.bar2Addr y + bs.length → ∃ u, exec (.bar2Write y bs) s = .next u ∧ AccessErrored s u 1 y 2) ∧
    (s.bar2Addr y + bs.length ≤ hbmTop → s.hbmOpen = false → ∃ u, exec (.bar2Write y bs) s = .next u ∧ AccessErrored s u 1 y 5)) ∧
  (∀ (s : State) (b off : Nat), b < 3 → s.hst.d3 = false →
    ∃ u, exec (.barAtomicRequest b off) s = .next u ∧ AccessErrored s u b off 4 ∧ u.out = .unsupported :: s.out) ∧
  (∀ (s : State) (a v : Nat) (bs : List Byte), s.hst.d3 = true → a % 4 = 0 →
    exec (.rcRead .host 0 a) s = .next (s.emit .unsupported) ∧ exec (.registerWrite .host 0 a v) s = .next s ∧
    exec (.bar2Read a 4) s = .next (s.emit .unsupported) ∧ exec (.bar2Write a bs) s = .next s ∧ exec (.barAtomicRequest 0 a) s = .next (s.emit .unsupported))

open Sys2Proof Sys2Proof.Machine in
/-- R8, R16, R17, R397, R405–R407. Snapshots, interrupts and the endpoint.
Completion: on conditions on the state and the operands alone, each of these answers a next state that has its own effect: snap,
snapshotLatchComplete, intCauseClear, msixMessage, hostWindowError, endpointReset, pcieLinkUp. -/
def Obligations.SnapshotsInterruptsAndEndpoint : Prop :=
  (∀ (s : State) (b : Nat), b < 32 → hasSnap b = true →
    (s.on (snapBusyFld b) = true → exec (.snap b) s = .next s) ∧
    (s.on (snapBusyFld b) = false → ∃ u, exec (.snap b) s = .next u ∧ u.get (snapBusyFld b) = 1 ∧ u.get (snapFld b) = 1 ∧ u = { s with regs := u.regs } ∧ RegsBut s u [(snapFld b).addr]) ∧
    (s.on (snapBusyFld b) = true → ∃ u, exec (.snapshotLatchComplete b) s = .next u ∧ u.get (snapBusyFld b) = 0 ∧ u.get (snapFld b) = 0 ∧
      u.get (snapSeqFld b) = (s.get (snapSeqFld b) + 1) % 2 ^ 16 ∧ (∀ a, snapReg b a = true → u.snapWord a = (s.snapLive b).word a) ∧
      (∀ a, a / 0x10000 ≠ b → u.snapWord a = s.snapWord a ∧ u.word a = s.word a) ∧ u.mem = s.mem)) ∧
  (∀ (s : State) (g mask : Nat), g < 8 → mask < 2 ^ 32 →
    ∃ u, exec (.intCauseClear g mask) s = .next u ∧ u.word (0x30000 + 4 * g) = s.word (0x30000 + 4 * g) &&& (2 ^ 32 - 1 - mask) ∧
      (∀ v, v < 64 → u.on (vactFld v) = u.vecActive v) ∧
      (∀ b, b < 32 → bitAt mask b = true → u.vecActive (s.get (causeVecFld (32 * g + b))) = true →
        u.int.pba.toNat.testBit (s.get (causeVecFld (32 * g + b))) = true) ∧
      RegsBut s u [0x30000 + 4 * g, 0x30200, 0x30204] ∧ u = { s with regs := u.regs, int := { s.int with pba := u.int.pba } }) ∧
  (∀ (s : State) (v : Nat), v < 64 →
    let e := s.msixEntry v
    if s.int.pba.toNat.testBit v = true ∧ e.masked = false ∧ s.int.fmask = false ∧ s.hst.d3 = false ∧ s.on R.HST_STAT_LINK_UP = true then
      ∃ u, exec (.msixMessage v) s = .next u ∧ u.out = .msix v e.addr e.data :: s.out ∧
        (∀ k, k < 64 → u.int.pba.toNat.testBit k = (s.int.pba.toNat.testBit k && decide (k ≠ v))) ∧ u = { s with int := { s.int with pba := u.int.pba }, out := u.out }
    else exec (.msixMessage v) s = .next s) ∧
  (∀ (s : State) (off kind : Nat), kind < 8 →
    ∃ u, exec (.hostWindowError off kind) s = .next u ∧ u.get (R.HST_CNT_COUNT 1) = (s.get (R.HST_CNT_COUNT 1) + 1) % 2 ^ 32 ∧
      u.get (causeFld Irq.HST_PERR) = 1 ∧ u.get R.HST_PERR_HI_VALID = 1 ∧
      (s.on R.HST_PERR_HI_VALID = false → u.get R.HST_PERR_LO_OFFSET = off % 2 ^ 32 ∧ u.get R.HST_PERR_HI_KIND = kind) ∧ u.mem = s.mem ∧
      u.hst = (if 1 ≤ kind ∧ kind ≤ 3 then { s.hst with failed := tabPut s.hst.failed off kind } else s.hst)) ∧
  (∀ (s : State) (k : Nat), k < 4 →
    ∃ u, exec (.endpointReset k) s = .next u ∧ u.get R.HST_STAT_LINK_UP = (if k = 2 then s.get R.HST_STAT_LINK_UP else 0) ∧ u.get R.HST_CTL_HWIN_EN = 0 ∧
      u.hst.bar2Log = 28 ∧ u.hst.d3 = false ∧ (∀ v, (u.msixEntry v).masked = true) ∧ u.get (causeFld Irq.HST_LINK) = 1 ∧ (k = 0 → u.get R.HST_STAT_PERST = 1 ∧ u.hst.perst = true) ∧
      (let c := if k = 0 then 7 else 6
       u.get (R.HST_CNT_COUNT c) = (s.get (R.HST_CNT_COUNT c) + 1) % 2 ^ 32) ∧
      (∀ n, n < 32 → u.get (R.HST_WR_CFG_EN n) = 0 ∧ u.get (R.HST_WR_HEAD_HEAD n) = 0 ∧ u.get (R.HST_WR_CQH_CQH n) = 0 ∧ u.get (R.HST_WR_STAT_STATE n) = 0 ∧
        (u.wring n).cmds = (s.wring n).cmds) ∧ u.mem = s.mem ∧ u.aq = s.aq) ∧
  (∀ (s : State) (sp w : Nat) (ato : Bool), sp < 8 → w < 32 →
    ∃ u, exec (.pcieLinkUp sp ⟨w, ato⟩) s = .next u ∧ u.get R.HST_STAT_LINK_UP = 1 ∧ u.get R.HST_STAT_SPEED = sp ∧ u.get R.HST_STAT_WIDTH = w ∧
      u.get R.HST_STAT_PERST = 0 ∧ u.hst = { s.hst with perst := false, atomics := ato } ∧
      (∀ a, a ≠ R.HST_STAT_LINK_UP.addr → a / 0x10000 ≠ 21 → u.word a = s.word a) ∧ u.mem = s.mem)

open Sys2Proof Sys2Proof.Machine in
/-- R507–R509. Pins.
Completion: on conditions on the state and the operands alone, each of these answers a next state that has its own effect: gpioOutSet,
gpioOutClr, gpioEdge, testAccessPort. -/
def Obligations.PinsAndTestPort : Prop :=
  (∀ (s : State) (m : Nat), m < 2 ^ 32 → ∀ r ∈ [(Instr.gpioOutSet m, true), (Instr.gpioOutClr m, false)],
    ∃ u, exec r.1 s = .next u ∧ u = { s with regs := u.regs, int := u.int } ∧
      (∀ n, n < 32 → bitAt (u.get R.GPIO_OUT_OUT) n = if bitAt m n then r.2 else bitAt (s.get R.GPIO_OUT_OUT) n) ∧
      (∀ n, n < 32 → bitAt (s.get R.GPIO_DEBEN_EN) n = false → bitAt (s.get R.GPIO_OE_OE) n = true → bitAt (u.get R.GPIO_IN_IN) n = bitAt (u.get R.GPIO_OUT_OUT) n)) ∧
  (∀ (s : State) (n : Nat) (up : Bool), n < 32 → bitAt (s.get R.GPIO_OE_OE) n = false →
    ∃ u, exec (.gpioEdge n up) s = .next u ∧ bitAt (u.get R.GPIO_IN_IN) n = up ∧ (∀ k, k < 32 → k ≠ n → bitAt (u.get R.GPIO_IN_IN) k = bitAt (s.get R.GPIO_IN_IN) k) ∧
      u = { s with regs := u.regs, int := u.int, pins := { s.pins with gpio := u.pins.gpio } } ∧
      (bitAt (s.get R.GPIO_IN_IN) n ≠ up → bitAt (s.get R.GPIO_IRQ_EN_EN) n = true →
        bitAt (if up then s.get R.GPIO_IRQ_RISE_RISE else s.get R.GPIO_IRQ_FALL_FALL) n = true →
        bitAt (u.get R.GPIO_IRQ_STAT_STAT) n = true ∧ u.get (causeFld Irq.GPIO) = 1)) ∧
  (∀ (s : State) (tms tdi : Bool),
    (∃ u, exec (.testAccessPort tms tdi true) s = .next u ∧ u = { s with pins := { s.pins with tap := 0, ir := 1 } }) ∧
    (∃ u, exec (.testAccessPort tms tdi false) s = .next u ∧ u.pins.tap = tapNext s.pins.tap tms ∧ u = { s with pins := u.pins, out := u.out } ∧
      (s.pins.tap = 4 → u.out = .tdo (bitAt s.pins.drShift 0) :: s.out ∧ u.pins.drShift = shiftIn (tapLength s.tapActs) s.pins.drShift tdi) ∧
      (s.pins.tap = 3 → s.watch.porst = true → s.pins.ir = 1 → u.pins.drShift = 0xB6400A3D)))

namespace Sys2Proof.Machine
open Sys2Proof

/-! ### Health (R411–R436) -/

end Sys2Proof.Machine

open Sys2Proof Sys2Proof.Machine in
/-- R419, R420, R423, R426–R433. Health and the margin plan.
Completion: on conditions on the state and the operands alone, each of these answers a next state that has its own effect: healthReport, clear,
replicaSample, planEvaluate, avsReadback, daily. -/
def Obligations.HealthPlanAndReport : Prop :=
  (∀ (s : State) (q : Nat), q < 2 ^ 32 → (s.report q).length = 512 ∧ (s.report q).take 8 = [0x48, 0x4C, 0x54, 0x52] ++ leBytes 4 q) ∧
  (∀ (s : State), s.on R.HLT_REPCTL_NOW = false → s.since s.hlt.repAt < 1000000 * zeroActs 1 (s.get R.HLT_REPCTL_PERIOD_S) → exec .healthReport s = .next s) ∧
  (∀ (s : State), (s.on R.HLT_REPCTL_NOW = true ∨ 1000000 * zeroActs 1 (s.get R.HLT_REPCTL_PERIOD_S) ≤ s.since s.hlt.repAt) → s.on R.HLT_REPCTL_EN = false →
    ∃ u, exec .healthReport s = .next u ∧ u.get R.HLT_REPCTL_NOW = 0 ∧ u = { s with regs := u.regs, hlt := { s.hlt with repAt := s.ticks } } ∧ RegsBut s u [R.HLT_REPCTL_NOW.addr]) ∧
  (∀ (s : State), (s.on R.HLT_REPCTL_NOW = true ∨ 1000000 * zeroActs 1 (s.get R.HLT_REPCTL_PERIOD_S) ≤ s.since s.hlt.repAt) → s.on R.HLT_REPCTL_EN = true →
    let s0 := (s.put R.HLT_REPCTL_NOW 0).setHlt { s.hlt with repAt := s.ticks }
    let w := s0.vwrite 0 (s.addrOf R.HLT_REP_LO_ADDR R.HLT_REP_HI_ADDR) (s0.report ((s.get R.HLT_REPSEQ_SEQ + 1) % 2 ^ 32))
    (∀ s2, w = .ok s2 → ∃ u, exec .healthReport s = .next u ∧ u.mem = s2.mem ∧ u.hostMem = s2.hostMem ∧
      u.get R.HLT_REPSEQ_SEQ = (s.get R.HLT_REPSEQ_SEQ + 1) % 2 ^ 32 ∧ u.get R.HLT_REPCTL_NOW = 0) ∧
    (∀ e, w = .error e → ∃ u, exec .healthReport s = .next u ∧ u.get R.HLT_REPSEQ_SEQ = s.get R.HLT_REPSEQ_SEQ ∧ u.get R.HLT_REPCTL_NOW = 0 ∧
      u.get (R.HLT_CNT_COUNT 13) = (s.get (R.HLT_CNT_COUNT 13) + 1) % 2 ^ 32)) ∧
  (∀ (s : State), ∃ u, exec .clear s = .next u ∧ (∀ w, w < 8 → u.get (R.HLT_FIRST_W w) = 0) ∧ u = { s with regs := u.regs, logFirst := true } ∧
    RegsBut s u ((List.range 8).map (fun w => (R.HLT_FIRST_W w).addr))) ∧
  (∀ (s : State) (vs : List Int) (ds : List Nat),
    (s.watch.dip.isSome = true → exec (.replicaSample vs ds) s = .next s) ∧
    (s.watch.dip = none → vs.length = 64 → ds.length = 64 →
      (s.on R.HLT_CTL_PLAN_EN = false ∨ ∀ v ∈ vs, (s.get R.HLT_SLACK_SLACK_MIN : Int) ≤ v) →
      ∃ u, exec (.replicaSample vs ds) s = .next u ∧ u = { s with regs := u.regs, hlt := u.hlt } ∧ u.hlt.stepAt = s.hlt.stepAt ∧ u.hlt.target = s.hlt.target ∧
        ∀ r, r < 64 →
          let v := clampI (-128) 127 (vs.getD r 0)
          u.get (R.HLT_REPL_SLACK r) = ofInt 8 v ∧
          u.get (R.HLT_REPL_MIN r) = ofInt 8 (if s.hlt.low.isNone then v else min v (toInt 8 (s.get (R.HLT_REPL_MIN r)))) ∧
          u.get (R.HLT_REPL_CORE r) = b2n (decide (r < 48)) ∧ u.get (R.HLT_AGE_D r) = min 65535 (ds.getD r 0) ∧
          ∃ l, u.hlt.low = some l ∧ l.1 ≤ v) ∧
    (s.watch.dip = none → vs.length = 64 → s.on R.HLT_CTL_PLAN_EN = true → (∃ v ∈ vs, v < (s.get R.HLT_SLACK_SLACK_MIN : Int)) →
      (∀ t, s.hlt.stepAt = some t → 10000 ≤ tickUs t s.ticks) →
      s.canRaise = true → s.hlt.target = none → s.hlt.waits = none →
      ∃ u, exec (.replicaSample vs ds) s = .next u ∧ u.hlt.stepAt = some s.ticks ∧
        u.hlt.target = some (s.get R.HLT_AVS_SET_MV + min 5 (s.maxMv - s.get R.HLT_AVS_SET_MV)) ∧ u.get R.HLT_AVS_SET_MV = s.get R.HLT_AVS_SET_MV ∧
        u.get (R.HLT_CNT_COUNT 14) = (s.get (R.HLT_CNT_COUNT 14) + 1) % 2 ^ 32)) ∧
  (∀ (s : State), (s.on R.HLT_CTL_PLAN_EN = false ∨ s.since s.hlt.planAt < 1000000 * zeroActs 1 (s.get R.HLT_PLAN_PLAN_S)) → exec .planEvaluate s = .next s) ∧
  (∀ (s : State), s.on R.HLT_CTL_PLAN_EN = true → 1000000 * zeroActs 1 (s.get R.HLT_PLAN_PLAN_S) ≤ s.since s.hlt.planAt → s.hlt.low = none →
    exec .planEvaluate s = .next { s with hlt := { s.hlt with planAt := s.ticks } }) ∧
  (∀ (s : State) (l : Int) (r : Nat), s.on R.HLT_CTL_PLAN_EN = true → 1000000 * zeroActs 1 (s.get R.HLT_PLAN_PLAN_S) ≤ s.since s.hlt.planAt → s.hlt.low = some (l, r) →
    let mv := s.get R.HLT_AVS_SET_MV
    let mhz := s.get R.HLT_CEIL_CEIL_MHZ
    let lo : Int := s.get R.HLT_SLACK_SLACK_LO
    let hi : Int := s.get R.HLT_SLACK_SLACK_HI
    let free := s.hlt.target = none ∧ s.hlt.waits = none ∧ s.watch.dip = none ∧ s.on R.HLT_STAT_AVS_FAIL = false
    (s.maxMv < mv → free → ∃ u, exec .planEvaluate s = .next u ∧ u.hlt.target = some (mv - min 5 (mv - s.maxMv))) ∧
    (mv < s.minMv → free → ∃ u, exec .planEvaluate s = .next u ∧ u.hlt.target = some (mv + min 5 (s.minMv - mv))) ∧
    ((s.minMv ≤ mv ∧ mv ≤ s.maxMv) ∨ s.on R.HLT_STAT_AVS_FAIL = true →
      (l < lo → mv < s.maxMv → free → ∃ u, exec .planEvaluate s = .next u ∧ u.hlt.target = some (mv + min 5 (s.maxMv - mv)) ∧ u.hlt.highRun = 0 ∧ u.hlt.low = none ∧
        u.hlt.worst = l ∧ u.get R.HLT_CEIL_CEIL_MHZ = mhz ∧ u.get (R.HLT_CNT_COUNT 7) = (s.get (R.HLT_CNT_COUNT 7) + 1) % 2 ^ 32) ∧
      (l < lo → mv < s.maxMv → s.hlt.target = none → s.hlt.waits = none → s.watch.dip.isSome = true → s.on R.HLT_STAT_AVS_FAIL = false →
        ∃ u, exec .planEvaluate s = .next u ∧ u.hlt.target = none ∧ u.hlt.waits = some (mv + min 5 (s.maxMv - mv)) ∧ u.out = s.out) ∧
      (l < lo → (mv = s.maxMv ∨ s.on R.HLT_STAT_AVS_FAIL = true) → r < 48 → s.floorMhz + 25 ≤ mhz →
        ∃ u, exec .planEvaluate s = .next u ∧ u.get R.HLT_CEIL_CEIL_MHZ = mhz - 25 ∧ u.get R.HLT_STAT_CLK_LIMITED = b2n (decide (mhz - 25 < 1600)) ∧
          u.get (R.HLT_CNT_COUNT 9) = (s.get (R.HLT_CNT_COUNT 9) + 1) % 2 ^ 32 ∧ u.ledgerReq = s.ledgerReq ++ [⟨0x24, 0, [mhz - 25]⟩] ∧ u.hlt.target = s.hlt.target) ∧
      (l < lo → (mv = s.maxMv ∨ s.on R.HLT_STAT_AVS_FAIL = true) → r < 48 → mhz < s.floorMhz + 25 →
        ∃ u, exec .planEvaluate s = .next u ∧ u.get R.HLT_STAT_MARGIN_EXHAUSTED = 1 ∧ u.get R.HLT_CEIL_CEIL_MHZ = mhz ∧
          (s.on R.HLT_STAT_MARGIN_EXHAUSTED = false → u.get (causeFld Irq.HLT_MARGIN) = 1 ∧ u.ledgerReq = s.ledgerReq ++ [⟨0x25, 0, [0x85]⟩])) ∧
      (l < lo → (mv = s.maxMv ∨ s.on R.HLT_STAT_AVS_FAIL = true) → 48 ≤ r →
        ∃ u, exec .planEvaluate s = .next u ∧ u.get R.HLT_STAT_FIXED_SHORT = 1 ∧ u.get R.HLT_CEIL_CEIL_MHZ = mhz ∧
          (s.on R.HLT_STAT_FIXED_SHORT = false → u.get (causeFld Irq.HLT_MARGIN) = 1 ∧ u.ledgerReq = s.ledgerReq ++ [⟨0x25, 0, [0x86]⟩])) ∧
      (lo ≤ l → hi < l → s.hlt.highRun + 1 < 1440 → ∃ u, exec .planEvaluate s = .next u ∧
        u = { s with regs := u.regs, hlt := { s.hlt with low := none, worst := l, highRun := s.hlt.highRun + 1, planAt := s.ticks } } ∧ u.get R.HLT_CEIL_CEIL_MHZ = mhz) ∧
      (lo ≤ l → hi < l → 1440 ≤ s.hlt.highRun + 1 → mhz < 1600 → ∃ u, exec .planEvaluate s = .next u ∧ u.get R.HLT_CEIL_CEIL_MHZ = mhz + 25 ∧ u.hlt.highRun = 0 ∧
        u.get (R.HLT_CNT_COUNT 10) = (s.get (R.HLT_CNT_COUNT 10) + 1) % 2 ^ 32 ∧ u.hlt.target = s.hlt.target) ∧
      (lo ≤ l → hi < l → 1440 ≤ s.hlt.highRun + 1 → 1600 ≤ mhz → s.minMv < mv → free → ∃ u, exec .planEvaluate s = .next u ∧
        u.hlt.target = some (mv - min 5 (mv - s.minMv)) ∧ u.hlt.highRun = 0 ∧ u.get R.HLT_CEIL_CEIL_MHZ = mhz) ∧
      (lo ≤ l → l ≤ hi → ∃ u, exec .planEvaluate s = .next u ∧ u = { s with regs := u.regs, hlt := { s.hlt with low := none, worst := l, highRun := 0, planAt := s.ticks } } ∧
        u.get R.HLT_STAT_AT_CEILING = b2n (decide (s.maxMv ≤ mv)) ∧ RegsBut s u [R.HLT_STAT_AT_CEILING.addr]))) ∧
  (∀ (s : State) (v : Option Nat), s.hlt.target = none → exec (.avsReadback v) s = .next s) ∧
  (∀ (s : State) (t : Nat), s.hlt.target = some t →
    (s.hlt.fails = 0 → exec (.avsReadback none) s = .next { s with hlt := { s.hlt with fails := 1 } }) ∧
    (∀ v, v ≤ t + 10 → t ≤ v + 10 → ∃ u, exec (.avsReadback (some v)) s = .next u ∧ u.get R.HLT_AVS_SET_MV = t % 1024 ∧
      u = { s with regs := u.regs, hlt := { s.hlt with target := none, fails := 0 }, ledgerReq := s.ledgerReq ++ [⟨0x23, 0, [t]⟩] }) ∧
    (∀ v, ((v = none ∧ s.hlt.fails ≠ 0) ∨ ∃ m, v = some m ∧ (t + 10 < m ∨ m + 10 < t)) → ∃ u, exec (.avsReadback v) s = .next u ∧
      u.get R.HLT_STAT_AVS_FAIL = 1 ∧ u.get R.HLT_AVS_SET_MV = s.get R.HLT_AVS_SET_MV ∧ u.hlt.target = none ∧ u.hlt.waits = none ∧
      u.get (R.HLT_CNT_COUNT 11) = (s.get (R.HLT_CNT_COUNT 11) + 1) % 2 ^ 32 ∧ u.get (causeFld Irq.HLT_AVS_FAIL) = 1)) ∧
  (∀ (s : State), (s.dayDue = false → exec .daily s = .next s) ∧
    (s.ledgerReq = [] → s.ledgerLast 0x26 (fun _ => true) = none → s.dayDue = decide (24 ≤ s.get R.HLT_POH_HOURS)) ∧
    (∀ d, s.ledgerReq = [] → s.ledgerLast 0x26 (fun _ => true) = some d → s.dayDue = decide (d.getD 0 0 + 24 ≤ s.get R.HLT_POH_HOURS))) ∧
  (∀ (s : State), s.dayDue = true → ∃ u, exec .daily s = .next u ∧
    let poh := s.get R.HLT_POH_HOURS
    let rec26 : LedgerReq := ⟨0x26, 0, [poh, max s.hlt.dayMv (s.get R.HLT_AVS_SET_MV), s.get R.HLT_CEIL_CEIL_MHZ, s.hlt.dayD, ofInt 32 s.hlt.daySlack]⟩
    u = { s with regs := u.regs, hlt := { s.hlt with dayMv := 0, dayD := 0, daySlack := 127 }, ledgerReq := s.ledgerReq ++ [rec26] } ∧
    RegsBut s u [R.HLT_PROJ_YEARS.addr] ∧
    (u.dailyPoints.length < 7 → u.get R.HLT_PROJ_YEARS = 0xFFFF) ∧
    (7 ≤ u.dailyPoints.length → projection u.dailyPoints s.maxMv poh ≠ 0xFFFF →
      u.get R.HLT_PROJ_YEARS = (if s.on R.HLT_STAT_AT_CEILING then 0 else projection u.dailyPoints s.maxMv poh)))

namespace Sys2Proof.Machine
open Sys2Proof

/-! ### Calibration (R437–R444) -/

/-- R440–R442. A result of a task for an element is judged between two states: it is counted as a run, then discarded in a supply-dip
episode, accepted as the new target, or rejected, the third time in a row with a targeted self-test of the element. -/
def CalJudged (s u : State) (task elem : Nat) (ok : Bool) (target : Int) : Prop :=
  let cnt := fun (t : State) (n : Nat) => t.get (R.CAL_CNT_COUNT task n)
  let o := s.calElem task elem
  let e := u.calElem task elem
  cnt u 0 = (cnt s 0 + 1) % 2 ^ 32 ∧ u.thm = s.thm ∧ u.watch = s.watch ∧ u.sco = s.sco ∧ u.ledgerReq = s.ledgerReq ∧
  (s.inDip = true → cnt u 5 = (cnt s 5 + 1) % 2 ^ 32 ∧ u = { s with regs := u.regs, cal := { s.cal with ran := u.cal.ran, skewed := u.cal.skewed } }) ∧
  tabGet u.cal.ran (elemKey task elem) = (if s.inDip = false ∧ ok = true then some s.ticks else none) ∧
  (s.inDip = false → ok = true → cnt u 1 = (cnt s 1 + 1) % 2 ^ 32 ∧ e = { o with target := target, rejects := 0 } ∧ u.hlt = s.hlt) ∧
  (s.inDip = false → ok = false → cnt u 2 = (cnt s 2 + 1) % 2 ^ 32 ∧ u.get (causeFld Irq.CAL_REJ) = 1 ∧
    (o.rejects < 2 → e = { o with rejects := o.rejects + 1 } ∧ u.hlt = s.hlt) ∧
    (2 ≤ o.rejects → e = { o with rejects := 0 } ∧ ∃ p ∈ u.hlt.tests, p.1 = logSource (taskBlock task) 0 (elemUnit task elem)))

end Sys2Proof.Machine

open Sys2Proof Sys2Proof.Machine in
/-- R416–R418, R437–R444. Calibration.
Completion: on conditions on the state and the operands alone, each of these answers a next state that has its own effect: laneAdapt, dphySkew,
tsenseTrim, bklTrim, termTrim, frameStepTimer, selftest, targetedSelfTest, engRotate, calRequest, calRequestDone, calForceExpiry. -/
def Obligations.CalibrationTasks : Prop :=
  (∀ (s : State) (t : Nat) (clean : Bool) (mv ui preset : Nat), t < 64 →
    (s.calRuns 1 = false → exec (.laneAdapt t clean mv ui preset) s = .next s) ∧
    (s.calRuns 1 = true → (s.portServes t = false ∨ s.hasSpare t = false) → ∃ u, exec (.laneAdapt t clean mv ui preset) s = .next u ∧
      u.get (R.CAL_CNT_COUNT 1 3) = (s.get (R.CAL_CNT_COUNT 1 3) + 1) % 2 ^ 32 ∧ u = { s with regs := u.regs }) ∧
    (let due := s.calDue (elemKey 1 (t * 8 + s.get (R.WYL_PSTAT_PSPARE t))) (zeroActs 1 (s.get R.CAL_PERIOD_LANE_S))
     s.calRuns 1 = true → s.portServes t = true → s.hasSpare t = true →
      (due = false → exec (.laneAdapt t clean mv ui preset) s = .next s) ∧
      (due = true → (s.on R.CAL_CTL_EXCH_EN = false ∨ s.lameLane t = none) → ∃ u, exec (.laneAdapt t clean mv ui preset) s = .next u ∧
      CalJudged s u 1 (t * 8 + s.get (R.WYL_PSTAT_PSPARE t)) (clean && decide (30 ≤ mv) && decide (300 * 128 ≤ ui * 1000)) preset ∧
      (s.inDip = false → u.get (R.HLT_EYE_HEIGHT t) = mv % 256 ∧ u.get (R.HLT_EYE_WIDTH t) = ui % 256)))) ∧
  (∀ (s : State) (key n : Nat), (tabGet s.cal.ran key = none → s.calDue key n = true) ∧
    ∀ x, tabGet s.cal.ran key = some x → s.calDue key n = decide (n * 1000000 ≤ s.since x)) ∧
  (∀ (s : State) (p l : Nat) (x : Int), (s.calRuns 3 = false → exec (.dphySkew p l x) s = .next s) ∧
    (s.calRuns 3 = true → ∃ u, exec (.dphySkew p l x) s = .next u ∧ (p * 8 + l ∈ u.cal.skewed ↔ 16 < x.natAbs) ∧
      (p < 8 → u.get (R.CAM_PSTAT_DESKEWED p) = b2n (u.cal.skewed.all (fun k => decide (k / 8 ≠ p)))) ∧
      CalJudged s u 3 (p * 8 + l) (decide (x.natAbs ≤ 16) && decide ((x - (s.calElem 3 (p * 8 + l)).value).natAbs ≤ 4)) x)) ∧
  (∀ (s : State) (n : Nat) (x : Int), n < 40 → ((s.calRuns 4 = false ∨ s.calDue (elemKey 4 n) 60 = false) → exec (.tsenseTrim n x) s = .next s) ∧
    (s.calRuns 4 = true → s.calDue (elemKey 4 n) 60 = true → ∃ u, exec (.tsenseTrim n x) s = .next u ∧ u.get (R.THM_TRIM_OFS n) = s.get (R.THM_TRIM_OFS n) ∧
      CalJudged s u 4 n (decide (x.natAbs ≤ 24) && decide ((x - (s.calElem 4 n).value).natAbs ≤ 4)) x)) ∧
  (∀ (s : State) (c d k : Nat) (x dev : Int), ((s.calRuns 5 = false ∨ s.stringLit c d k = false) → exec (.bklTrim c d k x dev) s = .next s) ∧
    (s.calRuns 5 = true → s.stringLit c d k = true → ∃ u, exec (.bklTrim c d k x dev) s = .next u ∧
      CalJudged s u 5 (c * 4096 + d * 16 + k) (decide (x.natAbs * 100 ≤ 3 * 4096) && decide (dev.natAbs * 100 ≤ 10 * 4096)) x)) ∧
  (∀ (s : State) (t : Nat) (ohms : List Nat), ((s.calRuns 6 = false ∨ s.calDue (elemKey 6 t) 60 = false) → exec (.termTrim t ohms) s = .next s) ∧
    (s.calRuns 6 = true → s.calDue (elemKey 6 t) 60 = true → s.inDip = true → ∃ u, exec (.termTrim t ohms) s = .next u ∧ u.cal.terms = s.cal.terms ∧
      u.get (R.CAL_CNT_COUNT 6 5) = (s.get (R.CAL_CNT_COUNT 6 5) + 1) % 2 ^ 32) ∧
    (s.calRuns 6 = true → s.calDue (elemKey 6 t) 60 = true → s.inDip = false →
      let x := (tabGet s.cal.terms t).getD termDefault
      let good := (List.range 24).filter (fun i => !bitAt x.bad i && !legBad (ohms.getD i 0))
      ∃ u y, exec (.termTrim t ohms) s = .next u ∧ u.get (R.CAL_CNT_COUNT 6 0) = (s.get (R.CAL_CNT_COUNT 6 0) + 1) % 2 ^ 32 ∧ tabGet u.cal.terms t = some y ∧ y.sel = x.sel ∧
        (∀ i, i < 24 → bitAt y.bad i = (bitAt x.bad i || legBad (ohms.getD i 0))) ∧
        (good.length < 12 → y.target = x.target ∧ u.get (R.CAL_CNT_COUNT 6 2) = (s.get (R.CAL_CNT_COUNT 6 2) + 1) % 2 ^ 32) ∧
        (12 ≤ good.length → ∃ n, 12 ≤ n ∧ n ≤ 20 ∧
          let b := legSet ohms (good.take n)
          (∀ m, 12 ≤ m → m ≤ 20 → legMiss b.2 ≤ legMiss (legSet ohms (good.take m)).2) ∧
          (45 * b.2 ≤ 1000000000 → 1000000000 ≤ 55 * b.2 → y.target = b.1) ∧
          ((1000000000 < 45 * b.2 ∨ 55 * b.2 < 1000000000) → y.target = x.target)))) ∧
  (∀ (s : State),
    ((s.sco.inFrame = true ∨ s.on R.CAL_CTL_EN = false ∨ s.inDip = true ∨ s.sco.hold = some 2 ∨ s.since s.cal.stepAt < 16667) → exec .frameStepTimer s = .next s) ∧
    (s.sco.inFrame = false → 16667 ≤ s.since s.cal.stepAt → s.on R.CAL_CTL_EN = true → s.inDip = false → s.sco.hold ≠ some 2 → (s.cal.elems.map (·.1)).Nodup →
      ∃ u, exec .frameStepTimer s = .next u ∧ u.cal.stepAt = s.ticks ∧
        (∀ k e, (k, e) ∈ s.cal.elems → tabGet u.cal.elems k = some { e with value := if s.stepsNow k then stepTo e.value e.target else e.value }) ∧
        (∀ t x, tabGet s.cal.terms t = some x → tabGet u.cal.terms t = some x.step) ∧
        (∀ n e, n < 40 → (elemKey 4 n, e) ∈ s.cal.elems → e.value ≠ e.target → u.get (R.THM_TRIM_OFS n) = ofInt 8 (stepTo e.value e.target) ∧
          ⟨0x27, 0, [n, ofInt 8 (stepTo e.value e.target)]⟩ ∈ u.ledgerReq))) ∧
  (∀ (s : State) (pass : Bool), (s.hlt.tests = [] → exec (.selftest pass) s = .next s) ∧
    (s.hlt.tests ≠ [] → s.inDip = true → ∃ u, exec (.selftest pass) s = .next u ∧ u = { s with regs := u.regs } ∧
      u.get (R.CAL_CNT_COUNT 7 5) = (s.get (R.CAL_CNT_COUNT 7 5) + 1) % 2 ^ 32) ∧
    (∀ p rest, s.hlt.tests = p :: rest → s.inDip = false → ∃ u, exec (.selftest pass) s = .next u ∧ u.hlt.tests = rest ∧ u.get R.CAL_STAT_TEST_WAIT = 0 ∧
      u.get (R.HLT_CNT_COUNT 3) = (s.get (R.HLT_CNT_COUNT 3) + 1) % 2 ^ 32 ∧
      (pass = true → u.get (R.HLT_CNT_COUNT 4) = (s.get (R.HLT_CNT_COUNT 4) + 1) % 2 ^ 32 ∧ u.ledgerReq = s.ledgerReq) ∧
      (pass = false → u.get (R.HLT_CNT_COUNT 5) = (s.get (R.HLT_CNT_COUNT 5) + 1) % 2 ^ 32 ∧ u.get R.HLT_STAT_LASTING = 1 ∧ u.get (causeFld Irq.HLT_LASTING) = 1 ∧
        u.ledgerReq = s.ledgerReq ++ [⟨0x20, 0, [p.1 / 1024, p.1 % 256]⟩]))) ∧
  (∀ (s : State) (h : Nat) (pass : Bool), h < 16 → ((s.hamlet h).testing = none → exec (.targetedSelfTest h pass) s = .next s) ∧
    (∀ p, (s.hamlet h).testing = some p → ∃ u, exec (.targetedSelfTest h pass) s = .next u ∧ (u.hamlet h).testing = none ∧
      (pass = true → (u.hamlet h).spareOk = true ∧ u.get (R.ENG_HSTAT_SPARE h) = p % 32 ∧ u.get (R.HLT_CNT_COUNT 4) = (s.get (R.HLT_CNT_COUNT 4) + 1) % 2 ^ 32) ∧
      (pass = false → (u.hamlet h).retired = (s.hamlet h).retired ||| 2 ^ p ∧ u.get R.HLT_STAT_LASTING = 1 ∧
        u.ledgerReq = s.ledgerReq ++ [⟨0x20, 0, [7, h, p]⟩]))) ∧
  (∀ (s : State) (h : Nat), h < 16 →
    ((s.calRuns 8 = false ∨ s.on R.CAL_CTL_EXCH_EN = false ∨ s.get R.CAL_PERIOD_ENG_H = 0 ∨ s.inDip = true ∨
      s.calDue (elemKey 8 h) (3600 * s.get R.CAL_PERIOD_ENG_H) = false) → exec (.engRotate h) s = .next s) ∧
    (s.calRuns 8 = true → s.on R.CAL_CTL_EXCH_EN = true → s.get R.CAL_PERIOD_ENG_H ≠ 0 → s.inDip = false → s.calDue (elemKey 8 h) (3600 * s.get R.CAL_PERIOD_ENG_H) = true →
      (s.mayRotate h = false → ∃ u, exec (.engRotate h) s = .next u ∧ u = { s with regs := u.regs } ∧
        u.get (R.CAL_CNT_COUNT 8 3) = (s.get (R.CAL_CNT_COUNT 8 3) + 1) % 2 ^ 32) ∧
      (∀ e, s.mayRotate h = true → s.oldestEngine h = some e → e < 16 ∧ bitAt (s.live h) e = true ∧ ∃ u, exec (.engRotate h) s = .next u ∧
        (u.hamlet h).subst = some ⟨e, s.get (R.ENG_HSTAT_SPARE h), true⟩ ∧ (∀ o, o ≠ h → u.hamlet o = s.hamlet o) ∧
        u.get (R.CAL_CNT_COUNT 8 0) = (s.get (R.CAL_CNT_COUNT 8 0) + 1) % 2 ^ 32 ∧ u.get (R.CAL_CNT_COUNT 8 6) = (s.get (R.CAL_CNT_COUNT 8 6) + 1) % 2 ^ 32))) ∧
  (∀ (s : State) (task blk inst : Nat), task < 16 → blk < 32 → inst < 512 →
    let id := (s.get R.CAL_RSP_ID + 1) % 256
    let many := 8 ≤ (s.cal.reqs.filter (fun r => !r.now)).length
    ((s.requestOk task blk inst = false ∨ many) → ∃ u, exec (.calRequest task blk inst) s = .next u ∧ u = { s with regs := u.regs } ∧
      u.get R.CAL_RSP_ID = id ∧ u.get R.CAL_RSP_ANSWER = 2 ∧ u.get R.CAL_RSP_BOUND_MS = 0) ∧
    (s.requestOk task blk inst = true → ¬ many → s.spareStands task blk inst = false → ∃ u, exec (.calRequest task blk inst) s = .next u ∧
      u = { s with regs := u.regs, cal := { s.cal with reqs := s.cal.reqs ++ [⟨id, task, blk, inst, s.boundMs task blk, false, false, s.ticks⟩] } } ∧
      u.get R.CAL_RSP_ID = id ∧ u.get R.CAL_RSP_ANSWER = 0 ∧ u.get R.CAL_RSP_BOUND_MS = s.boundMs task blk) ∧
    (s.requestOk task blk inst = true → ¬ many → s.spareStands task blk inst = true → ∃ u, exec (.calRequest task blk inst) s = .next u ∧
      u.cal.reqs = s.cal.reqs ++ [⟨id, task, blk, inst, 0, true, false, s.ticks⟩] ∧ u.get R.CAL_RSP_ID = id ∧ u.get R.CAL_RSP_ANSWER = 1)) ∧
  (∀ (s : State) (id : Nat) (pass : Bool),
    ((s.cal.reqs.find? (fun r => decide (r.id = id)) = none ∨ s.on R.CAL_CTL_EN = false ∨ s.inDip = true) → exec (.calRequestDone id pass) s = .next s) ∧
    (∀ r q, s.cal.reqs.find? (fun r => decide (r.id = id)) = some r → q ∈ s.cal.reqs.takeWhile (fun q => decide (q.id ≠ r.id)) → q.block = r.block → q.inst = r.inst →
      exec (.calRequestDone id pass) s = .next s) ∧
    (∀ r p, s.cal.reqs.find? (fun r => decide (r.id = id)) = some r → p ∈ s.hlt.tests → p.1 / 1024 = r.block → p.1 % 256 = r.inst → exec (.calRequestDone id pass) s = .next s) ∧
    (∀ r, s.cal.reqs.find? (fun r => decide (r.id = id)) = some r → s.on R.CAL_CTL_EN = true → s.inDip = false →
      (∀ p ∈ s.hlt.tests, p.1 / 1024 = r.block → p.1 % 256 ≠ r.inst) →
      (∀ q ∈ s.cal.reqs.takeWhile (fun q => decide (q.id ≠ r.id)), q.block = r.block → q.inst ≠ r.inst) →
      ∃ u, exec (.calRequestDone id pass) s = .next u ∧ u.cal.reqs = s.cal.reqs.filter (fun q => decide (q.id ≠ id)) ∧ u.get R.CAL_DONE_ID = id % 256 ∧
        u.get R.CAL_DONE_PASS = b2n pass ∧ u.get (causeFld Irq.CAL_DONE) = 1)) ∧
  (∀ (s : State) (id : Nat), (s.cal.reqs.find? (fun r => decide (r.id = id)) = none → exec (.calForceExpiry id) s = .next s) ∧
    (∀ r, s.cal.reqs.find? (fun r => decide (r.id = id)) = some r → ((r.forced = true ∨ r.now = true ∨ s.since r.asked < 1000 * r.bound) → exec (.calForceExpiry id) s = .next s) ∧
      (r.forced = false → r.now = false → 1000 * r.bound ≤ s.since r.asked → r.task < 16 → ∃ u, exec (.calForceExpiry id) s = .next u ∧
        u = { s with regs := u.regs, cal := { s.cal with reqs := s.cal.reqs.map (fun q => if q.id = id then { q with forced := true } else q) } } ∧
        u.get (R.CAL_CNT_COUNT r.task 4) = (s.get (R.CAL_CNT_COUNT r.task 4) + 1) % 2 ^ 32 ∧
        (gapOf r.task r.block = 0 → s.blankSlice = none → u.get R.CAL_STAT_TEST_WAIT = 1))))

namespace Sys2Proof.Machine
open Sys2Proof

/-! ### Thermal control (R334, R445–R452) -/

end Sys2Proof.Machine

open Sys2Proof Sys2Proof.Machine in
/-- R334, R335, R445–R452, R458. Thermal control.
Completion: on conditions on the state and the operands alone, each of these answers a next state that has its own effect: hkChannelRead,
thermalRound, comparatorTrip, shutdown, thermalRelease. -/
def Obligations.ThermalControl : Prop :=
  (∀ (s : State) (raw : Option Int) (code : Nat), s.thm.chan < 96 →
    let ch := s.thm.chan
    ∃ u, exec (.hkChannelRead raw code) s = .next u ∧ u.thm.chan = (ch + 1) % 96 ∧ u.get (R.THM_CH_INVALID ch) = b2n raw.isNone ∧
      (raw = none → tabGet u.thm.vals ch = none ∧ u.get (R.THM_CH_VALUE ch) = s.get (R.THM_CH_VALUE ch)) ∧
      (∀ r, raw = some r →
        let v := if ch < 40 then r + toInt 8 (s.get (R.THM_TRIM_OFS ch)) else r
        tabGet u.thm.vals ch = some v ∧ u.get (R.THM_CH_VALUE ch) = ofInt 16 v) ∧
      (40 ≤ ch → ch < 44 → s.watch.held = none → u.get (R.MEM_STKTEMP_INVALID (ch - 40)) = b2n raw.isNone ∧
        u.get (R.MEM_STKTEMP_REFSCALE (ch - 40)) = (match raw with
          | none => 2
          | some v => refreshScale (s.get (R.MEM_STKTEMP_REFSCALE (ch - 40))) (s.dram.hot.contains (ch - 40)) v) ∧
        u.dram.hot.contains (ch - 40) = (match raw with
          | none => true
          | some v => s.dram.hot.contains (ch - 40) && decide (102 ≤ v))) ∧
      (∀ n r k, railNominal ch = some n → raw = some r → 8 * n < (r - n).natAbs * 100 → tabGet s.thm.oor ch = some (k + 1) →
        u.get (causeFld Irq.SPV_SUPPLY_OOR) = 1) ∧
      (∀ n r, railNominal ch = some n → raw = some r → (r - n).natAbs * 100 ≤ 8 * n → tabGet u.thm.oor ch = none)) ∧
  (∀ (th hy t : Int) (k : Nat),
    let n := throttleStep th hy t k
    n ≤ max 16 k ∧ (n = 0 ∨ 8 * (th + (n : Int) - 1 - hy) < t) ∧ (8 * th < t → 1 ≤ hy → max k (min 16 ((t - 8 * th + 7) / 8).toNat) = n ∨ n < k)) ∧
  (∀ (s : State), s.thm.full = false → exec .thermalRound s = .next s) ∧
  (∀ (s : State), s.thm.full = true → ∃ u, exec .thermalRound s = .next u ∧ u.thm.full = false ∧ u.thm.vals = s.thm.vals ∧ u.get (R.THM_CNT_COUNT 0) = (s.get (R.THM_CNT_COUNT 0) + 1) % 2 ^ 32 ∧
    u.get R.THM_STAT_BROKEN = b2n (decide (u.thm.broken ≠ [])) ∧
    (∀ n v, n < 40 → s.hasSensor n = true → tabGet s.thm.vals n = some v → outOfRange v = true → n ∈ u.thm.broken ∧
      (n ∉ s.thm.broken → u.get (R.THM_CH_BROKEN n) = 1 ∧ u.get (causeFld Irq.THM_BROKEN) = 1)) ∧
    (s.on R.THM_STAT_WARN = false → (∃ v ∈ u.regionVals, 8 * s.thrWarn < v) → u.get R.THM_STAT_WARN = 1 ∧ u.get (causeFld Irq.THM_WARN) = 1 ∧
      u.get (R.THM_CNT_COUNT 1) = (s.get (R.THM_CNT_COUNT 1) + 1) % 2 ^ 32) ∧
    (s.on R.THM_STAT_WARN = true → (∀ v ∈ u.regionVals, v ≤ 8 * (s.thrWarn - s.thmHyst)) → u.get R.THM_STAT_WARN = 0) ∧
    (∀ k, k = throttleStep s.thrThrottle s.thmHyst u.hottest (s.get R.THM_STAT_STEP) →
      u.get R.THM_STAT_STEP = k ∧ u.get R.THM_STAT_FACTOR = 100 - 5 * k ∧ u.get R.THM_STAT_THROTTLE = b2n (decide (0 < k)) ∧
      u.get R.THM_CEIL_THERM_MHZ = 1600 * (100 - 5 * k) / 100 ∧ u.get R.THM_CEIL_CLK_NOW = min (1600 * (100 - 5 * k) / 100) s.hlt.ceil ∧
      (s.get R.THM_STAT_STEP = 0 → 0 < k → u.get (causeFld Irq.THM_THROTTLE) = 1)) ∧
    ((s.watch.trip = true ∨ s.watch.shutDue.isSome = true ∨ s.watch.down = true) → u.watch.shutDue = s.watch.shutDue) ∧
    (s.watch.trip = false → s.watch.shutDue = none → s.watch.down = false → u.watch.shutDue = u.roundShut ∧
      (∀ ch v, ch < 40 → s.hasSensor ch = true → ch ∉ u.thm.broken → tabGet s.thm.vals ch = some v → s.thmShut ≤ v → ∃ d, u.watch.shutDue = some d ∧ d.cause = 1) ∧
      (∀ n, n < 40 → s.hasSensor n = true → u.isBlind n = true → u.watch.shutDue.isSome = true))) ∧
  (∀ (s : State) (n : Nat),
    ((s.hasSensor n = false ∨ s.isBroken n = true ∨ n ∈ s.watch.tripped) → exec (.comparatorTrip n) s = .next s) ∧
    (s.hasSensor n = true → s.isBroken n = false → n ∉ s.watch.tripped → ∃ u, exec (.comparatorTrip n) s = .next u ∧ n ∈ u.watch.tripped ∧
      u = { s with regs := u.regs, watch := u.watch } ∧ u.get (R.THM_CNT_COUNT 6) = (s.get (R.THM_CNT_COUNT 6) + 1) % 2 ^ 32 ∧
      (s.watch.trip = false → s.watch.shutDue = none → s.watch.down = false → ∃ d, u.watch.shutDue = some d ∧ d.cause = 2 ∧ d.sensor = n) ∧
      ((s.watch.trip = true ∨ s.watch.shutDue.isSome = true ∨ s.watch.down = true) → u.watch.shutDue = s.watch.shutDue))) ∧
  (∀ (s : State) (late : Bool), (s.watch.shutDue = none → exec (.shutdown late) s = .next s) ∧
    (∀ d, s.watch.shutDue = some d →
      let data := [d.cause, d.sensor, ofInt 32 d.value, s.shutWindow.length]
      ∃ u, exec (.shutdown late) s = .next u ∧ u.watch.trip = true ∧ u.watch.shutDue = none ∧ u.watch.shuts = s.shutWindow ∧
        u.watch.held = some (holdCause s.watch.held 4) ∧ u.sco = State.reset.sco ∧ u.get R.PNL_PWRSTAT_EN = 0 ∧ u.get R.PNL_PWRSTAT_STATE = 0 ∧
        u.get R.THM_SHSTAT_COUNT24 = min 3 s.shutWindow.length ∧ u.get R.THM_SHSTAT_CAUSE = d.cause % 4 ∧ u.get R.THM_SHSTAT_SENSOR = d.sensor % 256 ∧
        u.get (R.THM_CNT_COUNT 5) = (s.get (R.THM_CNT_COUNT 5) + 1) % 2 ^ 32 ∧
        (3 ≤ s.shutWindow.length → u.get R.THM_SHSTAT_LATCHED_OFF = 1) ∧
        (late = false → ∃ p ∈ u.flash.ledger, p.2.cls = 0x02 ∧ p.2.flags = 0 ∧ p.2.data = data) ∧
        (late = true → ⟨0x02, 1, data⟩ ∈ u.ledgerReq ∧ u.flash = s.flash))) ∧
  (∀ (s : State),
    ((s.watch.coolAt = none ∨ s.watch.trip = false ∨ s.on R.THM_SHSTAT_LATCHED_OFF = true) → exec .thermalRelease s = .next s) ∧
    (∀ t, s.watch.coolAt = some t → s.watch.trip = true → s.on R.THM_SHSTAT_LATCHED_OFF = false →
      (tickUs t s.ticks < s.get R.THM_SHUT_RESTART_S * 1000000 → exec .thermalRelease s = .next s) ∧
      (s.get R.THM_SHUT_RESTART_S * 1000000 ≤ tickUs t s.ticks → ∃ u, exec .thermalRelease s = .next u ∧ u.watch.trip = false ∧
        u.get (R.THM_CNT_COUNT 7) = (s.get (R.THM_CNT_COUNT 7) + 1) % 2 ^ 32 ∧ u.ledgerReq = s.ledgerReq ++ [⟨0x03, 0, [s.get R.THM_SHSTAT_COUNT24]⟩] ∧ u.thm = s.thm)))

namespace Sys2Proof.Machine
open Sys2Proof

/-! ### Supply monitors and reference clocks (R458, R459, R514) -/

end Sys2Proof.Machine

open Sys2Proof Sys2Proof.Machine in
/-- R431, R442, R458, R459, R514. Supplies and references.
Completion: on conditions on the state and the operands alone, each of these answers a next state that has its own effect: dipStart,
supplyQualification, dipEnd, brownout, brownoutRelease, refclkLoss, refclkReturn. -/
def Obligations.SuppliesAndReferences : Prop :=
  (∀ (s : State) (mv : Nat), ((s.watch.down = true ∨ s.watch.held.isSome = true ∨ 700 ≤ mv) → exec (.dipStart mv) s = .next s) ∧
    (mv < 700 → s.watch.down = false → s.watch.held = none → s.watch.dip = none → ∃ u, exec (.dipStart mv) s = .next u ∧ u.get R.SPV_STAT_DIP = 1 ∧ u.get R.CAL_STAT_DIP_HOLD = 1 ∧
      u = { s with regs := u.regs, watch := { s.watch with dip := some ⟨s.ticks, mv, none⟩ } } ∧ RegsBut s u [R.SPV_STAT_DIP.addr, R.CAL_STAT_DIP_HOLD.addr]) ∧
    (∀ d, mv < 700 → s.watch.down = false → s.watch.held = none → s.watch.dip = some d →
      exec (.dipStart mv) s = .next { s with watch := { s.watch with dip := some { d with low := min d.low mv, qual := none } } })) ∧
  (∀ (s : State) (b : Bool) (mv : Nat), (s.watch.dip = none → exec (.supplyQualification b mv) s = .next s) ∧
    (∀ d, s.watch.dip = some d → ∃ u, exec (.supplyQualification b mv) s = .next u ∧
      (b = true → u = { s with watch := { s.watch with dip := some { d with qual := some (d.qual.getD s.ticks) } } }) ∧
      (b = false → u = { s with watch := { s.watch with dip := some { d with qual := none, low := min d.low mv } } }))) ∧
  (∀ (s : State), ((s.watch.dip = none ∨ ∃ d, s.watch.dip = some d ∧ ∀ q, d.qual = some q → tickUs q s.ticks < 100) → exec .dipEnd s = .next s) ∧
    (∀ d q, s.watch.dip = some d → d.qual = some q → 100 ≤ tickUs q s.ticks → ∃ u, exec .dipEnd s = .next u ∧ u.watch = { s.watch with dip := none } ∧ u.get R.SPV_STAT_DIP = 0 ∧
      u.get R.CAL_STAT_DIP_HOLD = 0 ∧ u.get R.SPV_DIPCNT_COUNT = (s.get R.SPV_DIPCNT_COUNT + 1) % 2 ^ 32 ∧ u.get (causeFld Irq.SPV_ALARM) = 1 ∧
      (s.hlt.waits = none → u.hlt.target = s.hlt.target ∧ u.out = s.out) ∧
      (∀ mv, s.hlt.waits = some mv → u.hlt.target = some mv ∧ u.hlt.waits = none ∧ u.out = Out.avs mv :: s.out))) ∧
  (∀ (s : State) (mv : Nat),
    let worn := ∃ d, s.watch.dip = some d ∧ 1000 ≤ tickUs d.start s.ticks ∧ ∀ q, d.qual = some q → 1000 < tickUs d.start q
    (s.watch.down = true → exec (.brownout mv) s = .next s) ∧ (660 < mv → ¬ worn → exec (.brownout mv) s = .next s) ∧
    (∀ c, (mv ≤ 660 ∨ worn) → s.watch.down = false → s.watch.held = some c → exec (.brownout mv) s = .next { s with watch := { s.watch with coreOk := false, lowAt := s.ticks } }) ∧
    ((mv ≤ 660 ∨ worn) → s.watch.down = false → s.watch.held = none → ∃ u, exec (.brownout mv) s = .next u ∧ u.watch.held = some 5 ∧ u.watch.heldAt = s.ticks ∧ u.watch.coreOk = false ∧
      u.watch.dip = none ∧ u.get R.SPV_STAT_DIP = 0 ∧ u.sco = State.reset.sco ∧ u.flash = { s.flash with brownouts := s.flash.brownouts + 1 } ∧
      u.get R.SPV_BOCNT_COUNT = (s.get R.SPV_BOCNT_COUNT + 1) % 2 ^ 32 ∧
      (s.watch.dip = none → u.ledgerReq = s.ledgerReq ++ [⟨0x05, 0, [mv, 0]⟩]) ∧
      (∀ d, s.watch.dip = some d → u.ledgerReq = s.ledgerReq ++ [⟨0x05, 0, [min d.low mv, tickUs d.start s.ticks]⟩]))) ∧
  (∀ (s : State), (tickUs s.watch.lowAt s.ticks < 10000 → exec .brownoutRelease s = .next s) ∧
    (10000 ≤ tickUs s.watch.lowAt s.ticks → exec .brownoutRelease s = .next { s with watch := { s.watch with coreOk := true } })) ∧
  (∀ (s : State) (r : Nat), ((s.watch.down = true ∨ r ∈ s.watch.lost) → exec (.refclkLoss r) s = .next s) ∧
    (s.watch.down = false → r ∉ s.watch.lost → ∃ u, exec (.refclkLoss r) s = .next u ∧ u.watch.lost = r :: s.watch.lost ∧
      (r = 0 → s.watch.held = none → u.watch.held = some 5 ∧ u.sco = State.reset.sco) ∧
      (r = 1 → u.sco.inFrame = false ∧ u.get R.SCO_STAT_RUNNING = 0 ∧ u.get R.CMP_STAT_ACTIVE = 0) ∧
      (r = 2 → u.get (R.ETH_PSTAT_LINK_UP 0) = 0 ∧ u.get (R.ETH_PSTAT_LINK_UP 1) = 0) ∧
      (r = 3 → u.get R.HST_STAT_LINK_UP = 0 ∧ u.get R.HST_CTL_HWIN_EN = 0) ∧
      (4 ≤ r → u.watch.down = true ∧ u.watch.held = some 6))) ∧
  (∀ (s : State) (r : Nat), (r ∉ s.watch.lost → exec (.refclkReturn r) s = .next s) ∧
    (r ∈ s.watch.lost → ∃ u, exec (.refclkReturn r) s = .next u ∧
      u.watch = { s.watch with lost := s.watch.lost.filter (· ≠ r), coreBack := if r = 0 then s.ticks else s.watch.coreBack } ∧ (r ≠ 1 → u = { s with watch := u.watch })))

namespace Sys2Proof.Machine
open Sys2Proof

/-! ### Requests to the Watch and the Ledger (R461–R473) -/

end Sys2Proof.Machine

open Sys2Proof Sys2Proof.Machine in
/-- R461–R473. Security and the Ledger.
Completion: on conditions on the state and the operands alone, each of these answers a next state that has its own effect: secGo, cfgUpdate,
attest, ledgerRead, spvDone, creditGain, poh, ledgerRecord, sectorCompaction. -/
def Obligations.WatchRequestsAndLedger : Prop :=
  (∀ (s : State) (op len : Nat), op < 256 → len < 2 ^ 15 →
    ((s.on R.SEC_STAT_BUSY = true ∨ s.watch.held.isSome = true) → ∃ u, exec (.secGo op len) s = .next u ∧ u = { s with regs := u.regs } ∧ RegsBut s u [R.SEC_REQ_OP.addr]) ∧
    (s.on R.SEC_STAT_BUSY = false → s.watch.held = none → ∃ u, exec (.secGo op len) s = .next u ∧ u.get R.SEC_STAT_BUSY = 1 ∧ u.get R.SPV_RSTAT_DONE = 0 ∧
      u = { s with regs := u.regs, watch := { s.watch with req := u.watch.req, reply := u.watch.reply } } ∧
      (secLen op = none → u.watch.reply = some ⟨op, 0x01, []⟩ ∧ u.watch.req = none) ∧
      (∀ n, secLen op = some n → (len ≠ n → u.watch.reply = some ⟨op, 0x02, []⟩ ∧ u.watch.req = none) ∧
        (len = n → u.watch.req = some ⟨op, s.mailbox n⟩ ∧ u.watch.reply = none)))) ∧
  (∀ (s : State), (s.secReq 1 = none → exec .cfgUpdate s = .next s) ∧
    (∀ b, s.secReq 1 = some b → s.cfgCode b ≠ 0 →
      exec .cfgUpdate s = .next { s with watch := { s.watch with req := none, reply := some ⟨1, s.cfgCode b, []⟩ } }) ∧
    (∀ b, s.secReq 1 = some b → s.cfgCode b = 0 →
      let p := objPayload b
      ∃ u, exec .cfgUpdate s = .next u ∧ u.watch.reply = some ⟨1, 0, []⟩ ∧ u.watch.req = none ∧ u.get R.SPV_STAT_CFG_VALID = 1 ∧ u.get R.SPV_CFGSEQ_SEQ = leAt p 4 4 ∧
        (∀ w, w < 16 → u.get (R.SPV_CFG_W w) = leAt p (4 * w) 4) ∧ u.get R.THM_SHUT_SHUT = leAt p 0x25 1 ∧
        ⟨0x40, 0, [s.get R.SPV_CFGSEQ_SEQ, leAt p 4 4]⟩ ∈ u.ledgerReq ∧
        (b.length ≤ 0x10000 → ∃ k, k < 2 ∧ (s.cfgValid = true → s.cfgChoice ≠ some k) ∧ u.flashBytes (0x10000 * (k + 1)) b.length = b) ∧
        (objCommit b = false → u.otp = s.otp) ∧
        (objCommit b = true → s.otp.svn.length = 3 → objSvn b ≤ 64 → u.svnMin 3 = max (s.svnMin 3) (objSvn b) ∧ u.svnMin 1 = s.svnMin 1 ∧ u.svnMin 2 = s.svnMin 2))) ∧
  (∀ (s : State), (s.secReq 2 = none → exec .attest s = .next s) ∧
    (∀ b, s.secReq 2 = some b →
      (s.on R.SPV_STAT_ATT_EN = false → exec .attest s = .next { s with watch := { s.watch with req := none, reply := some ⟨2, 0x22, []⟩ } }) ∧
      (s.on R.SPV_STAT_ATT_EN = true → s.leavesOut = true → exec .attest s = .next { s with watch := { s.watch with req := none, reply := some ⟨2, 0x21, []⟩ } }) ∧
      (s.on R.SPV_STAT_ATT_EN = true → s.leavesOut = false → s.get R.SPV_ATT_CREDIT = 0 → ∃ u, exec .attest s = .next u ∧ u.watch.reply = some ⟨2, 0x20, []⟩ ∧
        u.otp = s.otp ∧ u.flash = s.flash ∧ RegsBut s u [R.SPV_ATTWAIT_WAIT_S.addr]) ∧
      (s.on R.SPV_STAT_ATT_EN = true → s.leavesOut = false → s.get R.SPV_ATT_CREDIT ≠ 0 →
        let leaf := s.get R.SPV_ATT_LEAF
        ∃ u body, exec .attest s = .next u ∧ u.watch.reply = some ⟨2, 0, body⟩ ∧ bytesAt body 0 4 = [0x4B, 0x53, 0x49, 0x47] ∧ leAt body 4 1 = 4 ∧
          u.get R.SPV_ATT_LEAF = (leaf + 1) % 2 ^ 20 ∧ u.get R.SPV_ATT_CREDIT = s.get R.SPV_ATT_CREDIT - 1 ∧ u.flash.leaves = leaf :: s.flash.leaves ∧
          u.otp.blocks = s.otp.blocks + b2n (decide (leaf % 1024 = 0)) ∧ u.ledgerReq = s.ledgerReq ++ [⟨0x43, 0, [leaf, s.get R.SPV_ATT_CREDIT - 1]⟩]))) ∧
  (∀ (s : State), (s.secReq 3 = none → exec .ledgerRead s = .next s) ∧
    (∀ b, s.secReq 3 = some b →
      let rs := s.ledgerFrom (leAt b 0 4) (clampN 1 255 (leAt b 4 4))
      exec .ledgerRead s = .next { s with watch := { s.watch with req := none, reply := some ⟨3, 0, rs.flatMap LedgerRec.bytes⟩ } } ∧
        rs.length ≤ clampN 1 255 (leAt b 4 4) ∧ ∀ r ∈ rs, ∃ p ∈ s.flash.ledger, p.2 = r)) ∧
  (∀ (s : State), (s.watch.reply = none → exec .spvDone s = .next s) ∧
    (∀ r, s.watch.reply = some r → r.body.length ≤ 16384 → ∃ u, exec .spvDone s = .next u ∧ u.get R.SPV_RSTAT_OP = r.op % 256 ∧ u.get R.SPV_RSTAT_STATUS = r.status % 256 ∧
      u.get R.SPV_RSTAT_LEN = r.body.length ∧ u.get R.SPV_RSTAT_DONE = 1 ∧ u.get R.SEC_STAT_BUSY = 0 ∧ u.get (causeFld Irq.SPV_DONE) = 1 ∧
      u.watch = { s.watch with reply := none } ∧ (∀ w, 4 * w < r.body.length → u.get (R.SPV_RESP_W w) = leAt r.body (4 * w) 4) ∧ u.mem = s.mem)) ∧
  (∀ (s : State), ((s.watch.down = true ∨ s.spNow < s.watch.gainAt + 900000) → exec .creditGain s = .next s) ∧
    (s.watch.down = false → s.watch.gainAt + 900000 ≤ s.spNow → ∃ u, exec .creditGain s = .next u ∧ u.get R.SPV_ATT_CREDIT = min 64 (s.get R.SPV_ATT_CREDIT + 1) ∧
      u = { s with regs := u.regs, watch := { s.watch with gainAt := s.spNow } } ∧ RegsBut s u [R.SPV_ATT_CREDIT.addr])) ∧
  (∀ (s : State), s.spNow < s.watch.hourAt + 3600000 → exec .poh s = .next s) ∧
  (∀ (s : State), s.watch.hourAt + 3600000 ≤ s.spNow → ∃ u, exec .poh s = .next u ∧ u.get R.HLT_POH_HOURS = (s.get R.HLT_POH_HOURS + 1) % 2 ^ 32 ∧
    u = { s with regs := u.regs, watch := { s.watch with hourAt := s.watch.hourAt + 3600000 }, ledgerReq := s.ledgerReq ++ [⟨0x28, 0, [(s.get R.HLT_POH_HOURS + 1) % 2 ^ 32]⟩] } ∧ RegsBut s u [R.HLT_POH_HOURS.addr]) ∧
  (∀ (s : State), (s.watch.down = true → exec .ledgerRecord s = .next s) ∧
    (∀ r rest, s.watch.down = false → s.watch.skipped = 0 → s.ledgerReq = r :: rest →
      let tokens := min 256 (s.watch.tokens + (s.spNow / 1000 - s.watch.tokenAt))
      (0x20 ≤ r.cls → r.cls ≤ 0x28 → tokens = 0 → ∃ u, exec .ledgerRecord s = .next u ∧ u.ledgerReq = rest ∧ u.flash = s.flash ∧ u.watch.skipped = 1 ∧ u.regs = s.regs) ∧
      ((r.cls < 0x20 ∨ 0x28 < r.cls ∨ tokens ≠ 0) → ∃ u, exec .ledgerRecord s = .next u ∧ u.ledgerReq = rest ∧ u.watch.tokens = tokens - 1 ∧
        (∃ p ∈ u.flash.ledger, p.2.cls = r.cls ∧ p.2.flags = r.flags ∧ p.2.data = r.data) ∧
        ((s.watch.slot % 1024 ≠ 0 ∨ s.sectorErased (s.watch.slot / 1024) = true) → u.get R.SPV_LHEAD_SEQ = (s.get R.SPV_LHEAD_SEQ + 1) % 2 ^ 32 ∧
          u.watch.slot = (s.watch.slot + 1) % 30720 ∧ ∃ e, tabGet u.flash.ledger s.watch.slot = some e ∧ e.seq = s.get R.SPV_LHEAD_SEQ ∧ e.cls = r.cls ∧ e.data = r.data ∧ e.sp = s.spNow)))) ∧
  (∀ (s : State),
    let sec := (s.watch.slot / 1024 + 1) % 30
    ((s.watch.down = true ∨ s.sectorErased sec = true) → exec .sectorCompaction s = .next s) ∧
    (s.watch.down = false → s.sectorErased sec = false → s.watch.slot < 30720 → (s.flash.ledger.map (·.1)).Nodup → ∃ u, exec .sectorCompaction s = .next u ∧
      u.flash.erases = s.flash.erases + 1 ∧ u.get R.SPV_LERASE_COUNT = (s.flash.erases + 1) % 2 ^ 32 ∧ u.flash.bytes = s.flash.bytes ∧ u.flash.leaves = s.flash.leaves ∧
      ∀ p ∈ s.dropDaily.flash.ledger, p.1 / 1024 = sec → s.dropDaily.ledgerKeeps p.2 = true →
        ∃ q ∈ u.flash.ledger, q.2.cls = p.2.cls ∧ q.2.data = p.2.data ∧ q.2.sp = p.2.sp))

namespace Sys2Proof.Machine
open Sys2Proof

/-! ### Resets (R457, R476, R512) -/

/-- The registers that a main-domain reset loads from the Ledger or from the pins. -/
def reloaded : List Nat :=
  [R.HLT_POH_HOURS.addr, R.HLT_AVS_SET_MV.addr, R.HLT_CEIL_CEIL_MHZ.addr, R.HLT_STAT_OVERFLOW.addr, R.THM_CEIL_CLK_NOW.addr, R.PNL_HGEN_GEN.addr, R.GPIO_IN_IN.addr] ++
    (List.range 40).map (fun n => (R.THM_TRIM_OFS n).addr)

/-- R476. Between two states the main domain was reset and is held for a CAUSE; the Watch, the flash and the queue are as before. -/
def MainHeld (s u : State) (cause : Nat) : Prop :=
  u.watch.held = some (holdCause s.watch.held cause) ∧ u.watch.heldAt = s.ticks ∧ u.watch.down = s.watch.down ∧ u.watch.trip = s.watch.trip ∧
  u.watch.shuts = s.watch.shuts ∧ u.flash = s.flash ∧ u.otp = s.otp ∧ u.pending = s.pending ∧ u.ledgerReq = s.ledgerReq ∧ u.hostMem = s.hostMem ∧
  u.ptp = State.reset.ptp ∧ u.sco = State.reset.sco ∧ u.dma = State.reset.dma ∧ u.syn = State.reset.syn ∧ u.mmu = State.reset.mmu ∧ u.ports = [] ∧ u.fwu = State.reset.fwu ∧
  (∀ a, a ∉ reloaded → u.word a = (s.word a &&& keptBits a) + ((wordDefault s.member a).toNat &&& (2 ^ 32 - 1 - keptBits a))) ∧
  (∀ f ∈ [R.SPV_STAT_CFG_VALID, R.SPV_CFGSEQ_SEQ, R.SPV_ATT_LEAF, R.SPV_ATT_CREDIT, R.SPV_LHEAD_SEQ, R.THM_SHUT_SHUT, R.THM_SHSTAT_COUNT24, R.THM_SHSTAT_LATCHED_OFF,
      R.BKL_POLICY_LAMP, R.PNL_PWRSTAT_EN], u.get f = s.get f) ∧
  (∀ f ∈ [R.MMU_CTL_ENABLE, R.SCO_CTL_ENABLE, R.WYL_CTL_ENABLE, R.MEM_STAT_TRAINED, R.GPIO_OE_OE, R.FWU_STAT_BUSY, R.HLT_LOG_HEAD_HEAD, R.HLT_CTL_MIRROR_EN], u.get f = 0) ∧
  u.get R.GLB_BOOT_STAGE = 1

end Sys2Proof.Machine

open Sys2Proof Sys2Proof.Machine in
/-- R240, R457, R476, R477, R512. Resets.
Completion: on conditions on the state and the operands alone, each of these answers a next state that has its own effect: porstN, wrstN, warm,
watchFault, watchReset. -/
def Obligations.ResetsKeepTheWatch : Prop :=
  (∀ (s : State), (∃ u, exec (.porstN true) s = .next u ∧ MainHeld s u 1 ∧ u.watch.porst = true ∧ u.watch.wrst = s.watch.wrst) ∧
    exec (.porstN false) s = .next { s with watch := { s.watch with porst := false } }) ∧
  (∀ (s : State), (∃ u, exec (.wrstN true) s = .next u ∧ MainHeld s u 2 ∧ u.watch.wrst = true ∧ u.watch.porst = s.watch.porst) ∧
    exec (.wrstN false) s = .next { s with watch := { s.watch with wrst := false } }) ∧
  (∀ (s : State) (c : Nat), ((c ≠ 0x5A ∨ s.watch.held.isSome = true) → exec (.warm c) s = .next s) ∧
    (c = 0x5A → s.watch.held = none → ∃ u, exec (.warm c) s = .next u ∧ MainHeld s u 3 ∧ u.watch.held = some 3)) ∧
  (∀ (s : State) (c : Nat), (s.watch.down = true → exec (.watchFault c) s = .next s) ∧
    (s.watch.down = false → ∃ u, exec (.watchFault c) s = .next u ∧ u.watch.down = true ∧ u.watch.held = some 6 ∧ u.watch.trip = s.watch.trip ∧
      u.watch.shuts = s.watch.shuts ∧ u.watch.shutDue = s.watch.shutDue ∧ (∀ k, k < 4 → Out.latch k 4 ∈ u.out) ∧ u.get R.PNL_PWRSTAT_EN = 0 ∧
      u.get R.SPV_STAT_CFG_VALID = 0 ∧ u.get R.THM_SHSTAT_LATCHED_OFF = s.get R.THM_SHSTAT_LATCHED_OFF ∧ u.get R.SPV_LHEAD_SEQ = s.get R.SPV_LHEAD_SEQ ∧
      u.ledgerReq = s.ledgerReq ++ [⟨0x06, 0, []⟩] ∧ u.flash = s.flash ∧ u.otp = s.otp ∧ u.sco = State.reset.sco ∧ u.pending = s.pending)) ∧
  (∀ (s : State), ∃ u, exec .watchReset s = .next u ∧ u.watch.down = true ∧ u.watch.held = some 0 ∧ u.watch.trip = false ∧ u.watch.shuts = [] ∧ u.watch.shutDue = none ∧
    u.get R.THM_SHSTAT_LATCHED_OFF = 0 ∧ u.get R.SPV_STAT_CFG_VALID = 0 ∧ u.get R.SPV_LHEAD_SEQ = s.get R.SPV_LHEAD_SEQ ∧ u.get R.PNL_PWRSTAT_EN = 0 ∧
    u.ledgerReq = [] ∧ u.flash = s.flash ∧ u.otp = s.otp ∧ u.sco = State.reset.sco ∧ u.pending = s.pending)

namespace Sys2Proof.Machine
open Sys2Proof

/-! ### Start-up and firmware update (R464, R478–R492) -/

/-- A record that asks for FW_UPDATE: slot, SVN and the slot's STATE. -/
def fwRecord (k svn st : Nat) : LedgerReq := ⟨0x41, 0, [k, svn, st]⟩
/-- R489. An operation on a running main domain with no other in progress. -/
def State.fwuFree (s : State) : Prop := s.watch.held = none ∧ s.on R.FWU_STAT_BUSY = false

end Sys2Proof.Machine

open Sys2Proof Sys2Proof.Machine in
/-- R462, R464, R478, R486–R492. Start-up and firmware.
Completion: on conditions on the state and the operands alone, each of these answers a next state that has its own effect: coldStart,
mainRelease, bootStageDone, program, prepare, activateRestart, activateLive, confirm, programDone, prepareDone, liveSwitchHalt, aliveTimeout,
fwuAbort, alive. -/
def Obligations.StartUpAndFirmware : Prop :=
  (∀ (s : State), (s.watch.down = false → exec .coldStart s = .next s) ∧
    (s.watch.down = true → ∃ u, exec .coldStart s = .next u ∧ u.watch.down = false ∧ u.watch.held = s.watch.held ∧ u.watch.romOnly = s.watchSlot.isNone ∧
      u.get R.SPV_SVN_MIN = (s.svnMin 1 + 256 * s.svnMin 2 + 65536 * s.svnMin 3) % 2 ^ 24 ∧
      (∃ p ∈ u.flash.ledger, p.2.cls = 0x01) ∧
      (s.watchSlot.isSome = true → s.cfgChoice = none → u.get R.SPV_STAT_CFG_VALID = 0 ∧ u.get R.SPV_CFGSEQ_SEQ = 0 ∧ u.get R.THM_SHUT_SHUT = 132 ∧
        u.get R.BKL_POLICY_LAMP = 2 ∧ u.watch.rails = 0 ∧ ∀ c, c < 4 → u.get (R.BKL_IMAX_ISET_MAX c) = 0) ∧
      (∀ k, s.watchSlot.isSome = true → s.cfgChoice = some k → u.get R.SPV_STAT_CFG_VALID = 1 ∧ u.get R.SPV_CFGSEQ_SEQ = s.cfgCopySeq k ∧
        u.get R.THM_SHUT_SHUT = leAt (objPayload (s.cfgCopy k)) 0x25 1))) ∧
  (∀ (s : State) (mv : Nat), (s.mayRelease mv = false → exec (.mainRelease mv) s = .next s) ∧
    (∀ c, s.mayRelease mv = true → s.watch.held = some c →
      ∃ u, exec (.mainRelease mv) s = .next u ∧ u.watch.held = none ∧ u.watch.releasedAt = s.ticks ∧ u.get R.GLB_BOOT_CAUSE = c % 8 ∧
        Out.avs (s.get R.HLT_AVS_SET_MV) ∈ u.out ∧ u.pending = s.pending ∧
        ((s.watch.romOnly = true ∨ ∀ k, k < 2 → s.dir.state k ≠ 4 ∧ s.dir.state k ≠ 2 ∧ s.dir.state k ≠ 3) → s.dir.active < 2 →
          u.get R.GLB_BOOT_STAGE = 0xE ∧ u.get (causeFld Irq.GLB_READY) = 1 ∧ u.fwu.run = none) ∧
        (s.watch.romOnly = false → s.dir.active < 2 → s.stewardCode (s.stewardObj s.dir.active) = 0 →
          let a := s.dir.active
          (s.dir.state a = 4 → u.get R.GLB_BOOT_STAGE = 1 ∧ u.get R.GLB_BOOT_SLOT = a ∧ u.get R.GLB_BOOT_FALLBACK = 0 ∧ u.fwu.run = some (firmwareOf a (s.stewardObj a))) ∧
          ((s.dir.state a = 3 ∨ s.dir.state a = 2) → s.dir.triesOf a < 3 → u.get R.GLB_BOOT_STAGE = 1 ∧ u.get R.GLB_BOOT_SLOT = a ∧
            u.fwu.run = some (firmwareOf a (s.stewardObj a)) ∧ fwRecord a (s.dir.svn a) 3 ∈ u.ledgerReq)))) ∧
  (∀ (s : State), (s.watch.held.isSome = true → exec .bootStageDone s = .next s) ∧
    (s.watch.held = none → ∃ u, exec .bootStageDone s = .next u ∧
      (∀ f, s.get R.GLB_BOOT_STAGE = 1 → s.fwu.run = some f → u.get R.GLB_BOOT_STAGE = 2 ∧ u.get R.STW_STAT_HALTED = 0xFE ∧
        (∀ i, i < min f.payload.length 1572864 → mapGet byteDefault u.aq.sram i = f.payload.getD i 0) ∧
        (∀ i, 0x1F0000 ≤ i → mapGet byteDefault u.aq.sram i = mapGet byteDefault s.aq.sram i)) ∧
      (s.get R.GLB_BOOT_STAGE = 2 → u.get R.GLB_BOOT_STAGE = 3 ∧ u.get R.MEM_STAT_TRAINED = 1) ∧
      (s.get R.GLB_BOOT_STAGE = 3 → u.get R.GLB_BOOT_STAGE = 4 ∧ u.get R.MMU_CTL_ENABLE = 1 ∧ u.get R.MMU_CTL_LOCK0 = 1 ∧ u.get R.WYL_CTL_ENABLE = 1 ∧
        u.get R.PNL_PWRREQ_ON = 1 ∧ ∀ h, h < s.member.hamlets → (u.hamlet h).spareOk = true) ∧
      (s.get R.GLB_BOOT_STAGE = 4 → u.get R.GLB_BOOT_STAGE = 5 ∧ u.get R.SCO_CTL_ENABLE = 1) ∧
      (s.get R.GLB_BOOT_STAGE = 5 → u.get R.GLB_BOOT_STAGE = 6 ∧ u.get (causeFld Irq.GLB_READY) = 1) ∧
      ((s.get R.GLB_BOOT_STAGE = 0 ∨ 6 ≤ s.get R.GLB_BOOT_STAGE) → u = s))) ∧
  (∀ (s : State) (i : Instr), (∃ k, k < 2 ∧ (i = .program k ∨ i = .prepare k ∨ i = .activateRestart k)) ∨ (∃ b, i = .activateLive b) ∨ i = .confirm →
    (s.watch.held.isSome = true → ∃ u, exec i s = .next u ∧ RegsBut s u [R.FWU_CMD_OP.addr] ∧ u = { s with regs := u.regs }) ∧
    (s.watch.held = none → s.on R.FWU_STAT_BUSY = true → ∃ u, exec i s = .next u ∧ u.get R.FWU_STAT_RESULT = 0x45 ∧ u.get (causeFld Irq.FWU_DONE) = 1 ∧
      u.fwu = s.fwu ∧ u.flash = s.flash ∧ u.get R.FWU_STAT_BUSY = 1)) ∧
  (∀ (s : State) (k : Nat), k < 2 → s.fwuFree →
    let src := s.addrOf R.FWU_SRC_LO_ADDR R.FWU_SRC_HI_ADDR
    let len := s.get R.FWU_LEN_LEN
    (s.mayProgram k = false → ∃ u, exec (.program k) s = .next u ∧ u.get R.FWU_STAT_RESULT = 0x40 ∧ u.fwu = s.fwu ∧ u.flash = s.flash) ∧
    (s.mayProgram k = true → (hbmTop < src + len ∨ 25165824 < len) → ∃ u, exec (.program k) s = .next u ∧ u.get R.FWU_STAT_RESULT = 0x46 ∧ u.fwu = s.fwu ∧ u.flash = s.flash) ∧
    (∀ img, s.mayProgram k = true → src + len ≤ hbmTop → len ≤ 25165824 → s.physRead src len = .ok img →
      let c := if s.stewardCode img ≠ 0 then s.stewardCode img else s.watchCode (img.drop 0x1400000)
      (c ≠ 0 → ∃ u, exec (.program k) s = .next u ∧ u.get R.FWU_STAT_RESULT = c % 256 ∧ u.fwu = s.fwu ∧ u.flash = s.flash) ∧
      (c = 0 → ∃ u, exec (.program k) s = .next u ∧ u.get R.FWU_STAT_BUSY = 1 ∧ u.get R.FWU_STAT_STATE = 1 ∧ u.fwu = { s.fwu with op := some ⟨1, k, img⟩ } ∧
        fwRecord k (objSvn img) 1 ∈ u.ledgerReq ∧ u.mem = s.mem))) ∧
  (∀ (s : State) (ok : Bool) (o : FwuOp), s.fwu.op = some o → (o.op ≠ 1 → exec (.programDone ok) s = .next s) ∧
    (o.op = 1 → o.slot < 2 → o.image.length ≤ 0x1800000 → ∃ u, exec (.programDone ok) s = .next u ∧ u.get R.FWU_STAT_BUSY = 0 ∧ u.get R.FWU_STAT_STATE = 0 ∧
      u.get (causeFld Irq.FWU_DONE) = 1 ∧ u.fwu = { s.fwu with op := none } ∧
      (ok = false → u.get R.FWU_STAT_RESULT = 0x41 ∧ u.flash = s.flash) ∧
      (ok = true → u.get R.FWU_STAT_RESULT = 0 ∧ u.flashBytes (slotBase o.slot) o.image.length = o.image ∧ fwRecord o.slot (s.dir.svn o.slot) 2 ∈ u.ledgerReq))) ∧
  (∀ (s : State) (k : Nat), k < 2 → s.fwuFree →
    ((s.dir.state k ≠ 2 ∧ s.dir.state k ≠ 3) → ∃ u, exec (.prepare k) s = .next u ∧ u.get R.FWU_STAT_RESULT = 0x40 ∧ u.fwu = s.fwu) ∧
    ((s.dir.state k = 2 ∨ s.dir.state k = 3) → ∃ u, exec (.prepare k) s = .next u ∧ u.get R.FWU_STAT_BUSY = 1 ∧ u.fwu = { s.fwu with op := some ⟨2, k, []⟩, prepared := none } ∧
      u.flash = s.flash)) ∧
  (∀ (s : State) (o : FwuOp), s.fwu.op = some o → (o.op ≠ 2 → exec .prepareDone s = .next s) ∧
    (o.op = 2 →
      let b := s.stewardObj o.slot
      let va := s.addrOf R.FWU_STAGE_LO_ADDR R.FWU_STAGE_HI_ADDR
      ∃ u, exec .prepareDone s = .next u ∧ u.get R.FWU_STAT_BUSY = 0 ∧ u.fwu.op = none ∧ u.get (causeFld Irq.FWU_DONE) = 1 ∧
        ((hbmTop < va + b.length ∨ s.hbmOpen = false) → u.get R.FWU_STAT_RESULT = 0x46 ∧ u.mem = s.mem) ∧
        (va + b.length ≤ hbmTop → s.hbmOpen = true → u.mem = (s.physPut va b).mem ∧ u.get R.FWU_STAT_RESULT = s.stewardCode b % 256 ∧
          (s.stewardCode b = 0 → u.fwu.prepared = some (o.slot, va) ∧ u.get R.FWU_STAT_STATE = 2) ∧ (s.stewardCode b ≠ 0 → u.get R.FWU_STAT_STATE = 0)))) ∧
  (∀ (s : State) (force : Bool), s.fwuFree →
    (s.fwu.prepared = none → ∃ u, exec (.activateLive force) s = .next u ∧ u.get R.FWU_STAT_RESULT = 0x42 ∧ u.fwu = s.fwu) ∧
    (∀ k a, s.fwu.prepared = some (k, a) → s.bandMode = true → force = false → ∃ u, exec (.activateLive force) s = .next u ∧ u.get R.FWU_STAT_RESULT = 0x43 ∧ u.fwu = s.fwu) ∧
    (∀ k a, s.fwu.prepared = some (k, a) → k < 2 → (s.bandMode = false ∨ force = true) → ∃ u, exec (.activateLive force) s = .next u ∧ u.get R.FWU_STAT_BUSY = 1 ∧
      u.get R.FWU_STAT_STATE = 3 ∧ u.fwu = { s.fwu with switch := some ⟨k, none, s.fwu.run⟩ } ∧ u.events 0 = s.events 0 ++ [timerEv 0xFE s.ptpNs] ∧
      fwRecord k (s.dir.svn k) 3 ∈ u.ledgerReq)) ∧
  (∀ (s : State), (s.fwu.switch = none → exec .liveSwitchHalt s = .next s ∧ exec .aliveTimeout s = .next s) ∧
    (∀ k t old, s.fwu.switch = some ⟨k, some t, old⟩ → exec .liveSwitchHalt s = .next s) ∧
    (s.aq.launches ≠ [] → exec .liveSwitchHalt s = .next s) ∧
    (∀ k old p a, k < 2 → s.fwu.switch = some ⟨k, none, old⟩ → s.fwu.prepared = some (p, a) → s.aq.launches = [] →
      let b := s.stagedObj k a
      (b ≠ [] → bytesAt b 0x10 32 = Config.shake256 (objPayload b) 32 → ∃ u, exec .liveSwitchHalt s = .next u ∧ u.fwu.run = some (firmwareOf k b) ∧
        u.fwu.switch = some ⟨k, some s.ticks, old⟩ ∧ u.get R.FWU_SWSTAT_REPEATS = 0 ∧ u.get R.GLB_BOOT_SLOT = k ∧ u.mem = s.mem ∧ u.sco = s.sco ∧ u.events 0 = s.events 0 ∧
        (∀ i, 0x1F0000 ≤ i → mapGet byteDefault u.aq.sram i = mapGet byteDefault s.aq.sram i)) ∧
      ((b = [] ∨ bytesAt b 0x10 32 ≠ Config.shake256 (objPayload b) 32) → ∃ u, exec .liveSwitchHalt s = .next u ∧ u.fwu.run = old ∧ u.fwu.switch = none ∧
        u.get R.FWU_STAT_RESULT = 0x14 ∧ fwRecord k (s.dir.svn k) 5 ∈ u.ledgerReq))) ∧
  (∀ (s : State) (k : Nat), k < 2 → s.fwuFree →
    (s.dir.state k ∉ [2, 3, 4] → ∃ u, exec (.activateRestart k) s = .next u ∧ u.get R.FWU_STAT_RESULT = 0x40 ∧ u.flash = s.flash ∧ u.watch = s.watch) ∧
    (s.dir.state k ∈ [2, 3, 4] → ∃ u, exec (.activateRestart k) s = .next u ∧ u.watch.held = some 3 ∧ fwRecord k (s.dir.svn k) 3 ∈ u.ledgerReq ∧ u.sco = State.reset.sco)) ∧
  (∀ (s : State), s.fwuFree → (s.fwu.run = none → ∃ u, exec .confirm s = .next u ∧ u.get R.FWU_STAT_RESULT = 0x40 ∧ u.flash = s.flash) ∧
    (∀ f, s.fwu.run = some f → ∃ u, exec .confirm s = .next u ∧ u.get R.FWU_STAT_RESULT = 0 ∧ u.get R.FWU_STAT_STATE = 0 ∧ u.get (causeFld Irq.FWU_DONE) = 1 ∧
      fwRecord f.slot (s.dir.svn f.slot) 4 ∈ u.ledgerReq ∧ (f.commit = false → u.otp = s.otp) ∧
      (f.commit = true → s.otp.svn.length = 3 → f.svn ≤ 64 → u.svnMin 1 = max (s.svnMin 1) f.svn))) ∧
  (∀ (s : State), s.watch.held = none →
    (∀ o, s.fwu.op = some o → o.op = 2 → ∃ u, exec .fwuAbort s = .next u ∧ u.get R.FWU_STAT_RESULT = 0x47 ∧ u.get R.FWU_STAT_BUSY = 0 ∧ u.fwu = { s.fwu with op := none }) ∧
    (∀ k old, s.fwu.op = none → s.fwu.switch = some ⟨k, none, old⟩ → ∃ u, exec .fwuAbort s = .next u ∧ u.get R.FWU_STAT_RESULT = 0x47 ∧ u.get R.FWU_STAT_BUSY = 0 ∧
      u.fwu = { s.fwu with switch := none }) ∧
    (s.fwu.op = none → s.fwu.switch = none → ∃ u, exec .fwuAbort s = .next u ∧ u.get R.FWU_STAT_RESULT = 0 ∧ u.fwu = s.fwu) ∧
    (∀ k t old, s.fwu.switch = some ⟨k, some t, old⟩ → ∃ u, exec .alive s = .next u ∧ u.get R.FWU_SWSTAT_HALT_US = tickUs t s.ticks % 2 ^ 24 ∧ u.get R.FWU_STAT_STATE = 4 ∧
      u.get R.FWU_STAT_BUSY = 0 ∧ u.get R.FWU_STAT_RESULT = 0 ∧ u.fwu.switch = none ∧ u.fwu.run = s.fwu.run) ∧
    ((s.fwu.switch = none ∨ ∃ k old, s.fwu.switch = some ⟨k, none, old⟩) → ∃ u, exec .alive s = .next u ∧ u.get R.FWU_STAT_RESULT = 0 ∧ u.fwu = s.fwu)) ∧
  (∀ (s : State) (k t : Nat) (old : Option Firmware), k < 2 → s.fwu.switch = some ⟨k, some t, old⟩ →
    let late := zeroActs 1 (s.get R.FWU_ALIVE_MS) * 1000 ≤ tickUs t s.ticks ∨ s.get R.STW_STAT_FAULT ≠ 0
    (¬ late → exec .aliveTimeout s = .next s) ∧
    (late → ∃ u, exec .aliveTimeout s = .next u ∧ u.fwu.run = old ∧ u.fwu.switch = none ∧ u.get R.FWU_STAT_RESULT = 0x44 ∧ u.get R.FWU_STAT_BUSY = 0 ∧
      fwRecord k (s.dir.svn k) 5 ∈ u.ledgerReq ∧ ∀ i, 0x1F0000 ≤ i → mapGet byteDefault u.aq.sram i = mapGet byteDefault s.aq.sram i))

namespace Sys2Proof.Machine
open Sys2Proof

/-! ### The machine as a whole (R2, R5, R462, R467) -/

end Sys2Proof.Machine

open Sys2Proof Sys2Proof.Machine in
/-- Commands in order of arrival. The queue and the tick are the model's form. -/
def Obligations.StepTakesFront : Prop :=
  (∀ (c : Instr) (s : State), step { s with pending := c :: s.pending } = exec c s) ∧
  (∀ (c : Instr) (rest : List Instr) (s : State), s.pending = c :: rest → step s = exec c { s with pending := rest }) ∧
  (∀ (s : State), s.pending = [] → ∃ u, step s = .next u ∧ u.ticks = s.ticks + 1 ∧ u.pending = [] ∧ u.mem = s.mem ∧ u.hostMem = s.hostMem ∧ u.flash = s.flash ∧
    u.otp = s.otp ∧ u.watch = s.watch ∧ u.aq.threads = s.aq.threads)

open Sys2Proof Sys2Proof.Machine in
/-- R2, R434, R436, R453, R454, R474, R475, R493, R494, R509. Reset. -/
def Obligations.ResetState : Prop :=
  let s := State.reset
  s.pending = [] ∧ s.mem = [] ∧ Memory.wf s.mem = true ∧ s.aq.threads = [] ∧ s.sco.inFrame = false ∧ s.watch.held.isSome = true ∧ s.watch.down = true ∧ s.out = [] ∧
  (∀ p ∈ [(R.GLB_ID_PART, 0x6400), (R.GLB_ID_STEP, 0xB1), (R.GLB_BOOT_STAGE, 1), (R.HLT_CTL_LOG_EN, 1), (R.HLT_CTL_MIRROR_EN, 0), (R.HLT_CTL_PLAN_EN, 1),
      (R.HLT_AVS_SET_MV, 750), (R.HLT_AVSLIM_MIN_MV, 730), (R.HLT_AVSLIM_MAX_MV, 830), (R.HLT_SLACK_SLACK_LO, 25), (R.HLT_SLACK_SLACK_HI, 60), (R.HLT_SLACK_SLACK_MIN, 8),
      (R.HLT_PLAN_PLAN_S, 60), (R.HLT_CEIL_CEIL_MHZ, 1600), (R.HLT_CEIL_FLOOR_MHZ, 800), (R.HLT_PROJ_YEARS, 0xFFFF), (R.HLT_REPCTL_EN, 1), (R.HLT_REPCTL_PERIOD_S, 1)],
    s.get p.1 = p.2) ∧
  (∀ p ∈ [(R.CAL_CTL_EN, 1), (R.CAL_CTL_EXCH_EN, 1), (R.CAL_TASKEN_TASK, 0xFF), (R.CAL_PERIOD_LANE_S, 10), (R.CAL_PERIOD_ENG_H, 1), (R.CAL_FORCE_MS, 1000),
      (R.THM_STAT_FACTOR, 100), (R.THM_CEIL_THERM_MHZ, 1600), (R.THM_CEIL_CLK_NOW, 1600), (R.THM_THR_WARN, 112), (R.THM_THR_THROTTLE, 118), (R.THM_THR_HYST, 4),
      (R.THM_SHUT_SHUT, 132), (R.THM_SHUT_RESTART_MARGIN, 20), (R.THM_SHUT_RESTART_S, 10), (R.FWU_ALIVE_MS, 500), (R.GPIO_PULLEN_EN, 0xFFFFFFFF), (R.GPIO_DEB_DEB, 10)],
    s.get p.1 = p.2) ∧
  (∀ f ∈ [R.MMU_CTL_ENABLE, R.SCO_CTL_ENABLE, R.WYL_CTL_ENABLE, R.GPIO_OE_OE, R.SEC_STAT_BUSY, R.SPV_STAT_CFG_VALID, R.FWU_STAT_BUSY, R.HLT_LOG_HEAD_HEAD,
      R.HLT_LOG_TAIL_TAIL, R.THM_STAT_STEP, R.THM_SHSTAT_LATCHED_OFF], s.get f = 0)

namespace Sys2Proof.Machine
open Sys2Proof

/-- R462. The minima of KINDs 1 to 3 that OTP's 64-bit thermometers can hold. -/
def OtpOk (s : State) : Prop := s.otp.svn.length = 3 ∧ ∀ v ∈ s.otp.svn, v ≤ 64

end Sys2Proof.Machine

open Sys2Proof Sys2Proof.Machine in
/-- R2, R461, R462, R467. One-time-programmable memory only moves one way, under every command. -/
def Obligations.OtpOnlyMovesForward : Prop :=
  ∀ (s u : State), OtpOk s → step s = .next u →
    OtpOk u ∧ (∀ k, k < 3 → s.otp.svn.getD k 0 ≤ u.otp.svn.getD k 0) ∧ s.otp.blocks ≤ u.otp.blocks ∧ u.otp.ikh = s.otp.ikh ∧ u.member = s.member
end

