-- ==== Sys2Proof/Laws/Maps.lean ====
section
/-! SUPPORT. Laws of the sparse maps and the tables: a read after a write, and the canonical form. -/
namespace Sys2Proof.Machine

variable {α : Type}

/-! ### Reads after writes -/

theorem mapGet_mapDel (d : Nat → α) (m : List (Nat × α)) (k j : Nat) :
    mapGet d (mapDel m k) j = if j = k then d j else mapGet d m j := by
  induction m with
  | nil => simp [mapDel, mapGet]
  | cons p m ih =>
    obtain ⟨a, v⟩ := p
    unfold mapDel at ih ⊢
    by_cases h : a = k <;> by_cases h2 : j = a <;> simp_all [mapGet]

theorem mapGet_mapIns (d : Nat → α) (m : List (Nat × α)) (k : Nat) (v : α) (j : Nat) :
    mapGet d (mapIns m k v) j = if j = k then v else mapGet d m j := by
  induction m with
  | nil => simp [mapIns, mapGet]
  | cons p m ih =>
    obtain ⟨a, w⟩ := p
    unfold mapIns
    split
    · simp [mapGet]
    · split
      · simp_all [mapGet]
      · by_cases h2 : j = a
        · subst h2; simp [mapGet]; intro h; omega
        · simp [mapGet, h2, ih]

/-- A read after a write. -/
theorem mapGet_mapPut [DecidableEq α] (d : Nat → α) (m : List (Nat × α)) (k : Nat) (v : α) (j : Nat) :
    mapGet d (mapPut d m k v) j = if j = k then v else mapGet d m j := by
  unfold mapPut
  split
  · rename_i h; rw [mapGet_mapDel]; split
    · subst_vars; rfl
    · rfl
  · exact mapGet_mapIns d m k v j

@[simp] theorem mapGet_mapPut_same [DecidableEq α] (d : Nat → α) (m : List (Nat × α)) (k : Nat) (v : α) :
    mapGet d (mapPut d m k v) k = v := by simp [mapGet_mapPut]

theorem mapGet_mapPut_other [DecidableEq α] (d : Nat → α) (m : List (Nat × α)) {k j : Nat} (v : α) (h : j ≠ k) :
    mapGet d (mapPut d m k v) j = mapGet d m j := by simp [mapGet_mapPut, h]

/-- A run of writes leaves the keys outside it. -/
theorem mapGet_mapPutList_other [DecidableEq α] (d : Nat → α) (vs : List α) :
    ∀ (m : List (Nat × α)) (k j : Nat), (j < k ∨ k + vs.length ≤ j) → mapGet d (mapPutList d m k vs) j = mapGet d m j := by
  induction vs with
  | nil => intro m k j _; rfl
  | cons v vs ih =>
    intro m k j h
    simp only [List.length_cons] at h
    rw [mapPutList, ih _ _ _ (by omega), mapGet_mapPut_other d m v (by omega)]

/-- A run of writes puts its values at its keys. -/
theorem mapGet_mapPutList_at [DecidableEq α] (d : Nat → α) (vs : List α) :
    ∀ (m : List (Nat × α)) (k i : Nat) (h : i < vs.length), mapGet d (mapPutList d m k vs) (k + i) = vs[i] := by
  induction vs with
  | nil => intro m k i h; simp at h
  | cons v vs ih =>
    intro m k i h
    cases i with
    | zero => rw [mapPutList, mapGet_mapPutList_other d vs _ _ _ (by omega)]; simp
    | succ i =>
      rw [mapPutList, show k + (i + 1) = k + 1 + i by omega, ih _ _ _ (by simpa using h)]
      simp

theorem tabGet_tabPut (m : List (Nat × α)) (k : Nat) (v : α) (j : Nat) :
    tabGet (tabPut m k v) j = if j = k then some v else tabGet m j := by
  induction m with
  | nil => simp [tabPut, tabGet]
  | cons p m ih =>
    obtain ⟨a, w⟩ := p
    unfold tabPut
    split
    · simp [tabGet]
    · split
      · simp_all [tabGet]
      · by_cases h2 : j = a
        · subst h2; simp [tabGet]; intro h; omega
        · simp [tabGet, h2, ih]

theorem tabGet_tabDel (m : List (Nat × α)) (k j : Nat) :
    tabGet (tabDel m k) j = if j = k then none else tabGet m j := by
  induction m with
  | nil => simp [tabDel, tabGet]
  | cons p m ih =>
    obtain ⟨a, v⟩ := p
    unfold tabDel at ih ⊢
    by_cases h : a = k <;> by_cases h2 : j = a <;> simp_all [tabGet]


/-! ### The canonical form -/

theorem mapWfFrom_filter [DecidableEq α] (d : Nat → α) (q : Nat × α → Bool) (m : List (Nat × α)) :
    ∀ lo, mapWfFrom d lo m = true → mapWfFrom d lo (m.filter q) = true := by
  have weaken : ∀ (m : List (Nat × α)) (a b : Nat), a < b → mapWfFrom d (some b) m = true → mapWfFrom d (some a) m = true := by
    intro m a b hab h
    cases m with
    | nil => rfl
    | cons p m =>
      obtain ⟨k, v⟩ := p
      simp only [mapWfFrom, Bool.and_eq_true, decide_eq_true_eq] at h ⊢
      exact ⟨⟨by omega, h.1.2⟩, h.2⟩
  have none_of : ∀ (m : List (Nat × α)) (b : Nat), mapWfFrom d (some b) m = true → mapWfFrom d none m = true := by
    intro m b h
    cases m with
    | nil => rfl
    | cons p m =>
      obtain ⟨k, v⟩ := p
      simp only [mapWfFrom, Bool.and_eq_true, decide_eq_true_eq] at h ⊢
      exact ⟨⟨trivial, h.1.2⟩, h.2⟩
  induction m with
  | nil => intro lo h; simpa using h
  | cons p m ih =>
    obtain ⟨k, v⟩ := p
    intro lo h
    simp only [mapWfFrom, Bool.and_eq_true] at h
    rw [List.filter_cons]
    split
    · simp only [mapWfFrom, Bool.and_eq_true]
      exact ⟨h.1, ih _ h.2⟩
    · cases lo with
      | none => exact none_of _ _ (ih _ h.2)
      | some b =>
        have : b < k := by simpa using h.1.1
        exact weaken _ _ _ this (ih _ h.2)

/-- Dropping entries keeps the canonical form. -/
theorem mapWf_filter [DecidableEq α] (d : Nat → α) (q : Nat × α → Bool) {m : List (Nat × α)} (h : mapWf d m = true) :
    mapWf d (m.filter q) = true := mapWfFrom_filter d q m none h

theorem mapWfFrom_mapIns [DecidableEq α] (d : Nat → α) (k : Nat) (v : α) (hv : v ≠ d k) (m : List (Nat × α)) :
    ∀ lo, (match lo with | none => True | some b => b < k) → mapWfFrom d lo m = true → mapWfFrom d lo (mapIns m k v) = true := by
  induction m with
  | nil => intro lo hlo _; cases lo <;> simp_all [mapIns, mapWfFrom]
  | cons p m ih =>
    obtain ⟨a, w⟩ := p
    intro lo hlo h
    simp only [mapWfFrom, Bool.and_eq_true, decide_eq_true_eq] at h
    unfold mapIns
    split
    · simp only [mapWfFrom, Bool.and_eq_true, decide_eq_true_eq]
      refine ⟨⟨?_, hv⟩, ⟨‹_›, h.1.2⟩, h.2⟩
      cases lo <;> simp_all
    · split
      · subst_vars
        simp only [mapWfFrom, Bool.and_eq_true, decide_eq_true_eq]
        exact ⟨⟨h.1.1, hv⟩, h.2⟩
      · simp only [mapWfFrom, Bool.and_eq_true, decide_eq_true_eq]
        exact ⟨h.1, ih (some a) (by simp; omega) h.2⟩

/-- A write keeps the canonical form. -/
theorem mapWf_mapPut [DecidableEq α] (d : Nat → α) {m : List (Nat × α)} (k : Nat) (v : α) (h : mapWf d m = true) :
    mapWf d (mapPut d m k v) = true := by
  unfold mapPut
  split
  · exact mapWf_filter d _ h
  · exact mapWfFrom_mapIns d k v ‹_› m none trivial h

theorem mapWf_mapPutList [DecidableEq α] (d : Nat → α) (vs : List α) :
    ∀ {m : List (Nat × α)} (k : Nat), mapWf d m = true → mapWf d (mapPutList d m k vs) = true := by
  induction vs with
  | nil => intro m k h; exact h
  | cons v vs ih => intro m k h; exact ih _ (mapWf_mapPut d k v h)

theorem Memory.wf_nil : Memory.wf [] = true := rfl

/-- Writing bytes keeps a byte store canonical. -/
theorem Memory.wf_put {m : List (Nat × Byte)} (k : Nat) (bs : List Byte) (h : Memory.wf m = true) :
    Memory.wf (mapPutList byteDefault m k bs) = true := mapWf_mapPutList byteDefault bs k h

/-- Putting cells keeps a byte store canonical. -/
theorem Memory.wf_putCells (cells : List (Nat × Byte)) : ∀ {m : List (Nat × Byte)}, Memory.wf m = true → Memory.wf (putCells m cells) = true := by
  induction cells with
  | nil => intro m h; exact h
  | cons c cells ih => intro m h; exact ih (mapWf_mapPut byteDefault c.1 c.2 h)

theorem Memory.wf_filter {m : List (Nat × Byte)} (q : Nat × Byte → Bool) (h : Memory.wf m = true) : Memory.wf (m.filter q) = true :=
  mapWf_filter byteDefault q h

end Sys2Proof.Machine
end

