-- ==== Sys2Proof/Laws/State.lean ====
section
/-! SUPPORT. The laws of the fields of State: for each update, every field that it leaves alone reads as before. -/
namespace Sys2Proof.Machine

@[simp] theorem State.setWord_member (s : State) (a v : Nat) : (s.setWord a v).member = s.member := rfl
@[simp] theorem State.setWord_pending (s : State) (a v : Nat) : (s.setWord a v).pending = s.pending := rfl
@[simp] theorem State.setWord_act (s : State) (a v : Nat) : (s.setWord a v).act = s.act := rfl
@[simp] theorem State.setWord_snap (s : State) (a v : Nat) : (s.setWord a v).snap = s.snap := rfl
@[simp] theorem State.setWord_mem (s : State) (a v : Nat) : (s.setWord a v).mem = s.mem := rfl
@[simp] theorem State.setWord_poison (s : State) (a v : Nat) : (s.setWord a v).poison = s.poison := rfl
@[simp] theorem State.setWord_hostMem (s : State) (a v : Nat) : (s.setWord a v).hostMem = s.hostMem := rfl
@[simp] theorem State.setWord_int (s : State) (a v : Nat) : (s.setWord a v).int = s.int := rfl
@[simp] theorem State.setWord_hst (s : State) (a v : Nat) : (s.setWord a v).hst = s.hst := rfl
@[simp] theorem State.setWord_logWin (s : State) (a v : Nat) : (s.setWord a v).logWin = s.logWin := rfl
@[simp] theorem State.setWord_logFirst (s : State) (a v : Nat) : (s.setWord a v).logFirst = s.logFirst := rfl
@[simp] theorem State.setWord_mmu (s : State) (a v : Nat) : (s.setWord a v).mmu = s.mmu := rfl
@[simp] theorem State.setWord_ptp (s : State) (a v : Nat) : (s.setWord a v).ptp = s.ptp := rfl
@[simp] theorem State.setWord_aq (s : State) (a v : Nat) : (s.setWord a v).aq = s.aq := rfl
@[simp] theorem State.setWord_dma (s : State) (a v : Nat) : (s.setWord a v).dma = s.dma := rfl
@[simp] theorem State.setWord_syn (s : State) (a v : Nat) : (s.setWord a v).syn = s.syn := rfl
@[simp] theorem State.setWord_dram (s : State) (a v : Nat) : (s.setWord a v).dram = s.dram := rfl
@[simp] theorem State.setWord_sco (s : State) (a v : Nat) : (s.setWord a v).sco = s.sco := rfl
@[simp] theorem State.setWord_ports (s : State) (a v : Nat) : (s.setWord a v).ports = s.ports := rfl
@[simp] theorem State.setWord_pnl (s : State) (a v : Nat) : (s.setWord a v).pnl = s.pnl := rfl
@[simp] theorem State.setWord_bkl (s : State) (a v : Nat) : (s.setWord a v).bkl = s.bkl := rfl
@[simp] theorem State.setWord_cam (s : State) (a v : Nat) : (s.setWord a v).cam = s.cam := rfl
@[simp] theorem State.setWord_pkr (s : State) (a v : Nat) : (s.setWord a v).pkr = s.pkr := rfl
@[simp] theorem State.setWord_blt (s : State) (a v : Nat) : (s.setWord a v).blt = s.blt := rfl
@[simp] theorem State.setWord_eth (s : State) (a v : Nat) : (s.setWord a v).eth = s.eth := rfl
@[simp] theorem State.setWord_cal (s : State) (a v : Nat) : (s.setWord a v).cal = s.cal := rfl
@[simp] theorem State.setWord_hlt (s : State) (a v : Nat) : (s.setWord a v).hlt = s.hlt := rfl
@[simp] theorem State.setWord_thm (s : State) (a v : Nat) : (s.setWord a v).thm = s.thm := rfl
@[simp] theorem State.setWord_watch (s : State) (a v : Nat) : (s.setWord a v).watch = s.watch := rfl
@[simp] theorem State.setWord_flash (s : State) (a v : Nat) : (s.setWord a v).flash = s.flash := rfl
@[simp] theorem State.setWord_otp (s : State) (a v : Nat) : (s.setWord a v).otp = s.otp := rfl
@[simp] theorem State.setWord_fwu (s : State) (a v : Nat) : (s.setWord a v).fwu = s.fwu := rfl
@[simp] theorem State.setWord_pins (s : State) (a v : Nat) : (s.setWord a v).pins = s.pins := rfl
@[simp] theorem State.setWord_ledgerReq (s : State) (a v : Nat) : (s.setWord a v).ledgerReq = s.ledgerReq := rfl
@[simp] theorem State.setWord_out (s : State) (a v : Nat) : (s.setWord a v).out = s.out := rfl
@[simp] theorem State.setWord_freeCtr (s : State) (a v : Nat) : (s.setWord a v).freeCtr = s.freeCtr := rfl
@[simp] theorem State.setWord_ticks (s : State) (a v : Nat) : (s.setWord a v).ticks = s.ticks := rfl
@[simp] theorem State.setWord_actWord (s : State) (a v : Nat) (i : Nat) : (s.setWord a v).actWord i = s.actWord i := rfl
@[simp] theorem State.setWord_getA (s : State) (a v : Nat) (g : Fld) : (s.setWord a v).getA g = s.getA g := rfl
@[simp] theorem State.setWord_memByte (s : State) (a v : Nat) (i : Nat) : (s.setWord a v).memByte i = s.memByte i := rfl

@[simp] theorem State.setActWord_member (s : State) (a v : Nat) : (s.setActWord a v).member = s.member := rfl
@[simp] theorem State.setActWord_pending (s : State) (a v : Nat) : (s.setActWord a v).pending = s.pending := rfl
@[simp] theorem State.setActWord_regs (s : State) (a v : Nat) : (s.setActWord a v).regs = s.regs := rfl
@[simp] theorem State.setActWord_snap (s : State) (a v : Nat) : (s.setActWord a v).snap = s.snap := rfl
@[simp] theorem State.setActWord_mem (s : State) (a v : Nat) : (s.setActWord a v).mem = s.mem := rfl
@[simp] theorem State.setActWord_poison (s : State) (a v : Nat) : (s.setActWord a v).poison = s.poison := rfl
@[simp] theorem State.setActWord_hostMem (s : State) (a v : Nat) : (s.setActWord a v).hostMem = s.hostMem := rfl
@[simp] theorem State.setActWord_int (s : State) (a v : Nat) : (s.setActWord a v).int = s.int := rfl
@[simp] theorem State.setActWord_hst (s : State) (a v : Nat) : (s.setActWord a v).hst = s.hst := rfl
@[simp] theorem State.setActWord_logWin (s : State) (a v : Nat) : (s.setActWord a v).logWin = s.logWin := rfl
@[simp] theorem State.setActWord_logFirst (s : State) (a v : Nat) : (s.setActWord a v).logFirst = s.logFirst := rfl
@[simp] theorem State.setActWord_mmu (s : State) (a v : Nat) : (s.setActWord a v).mmu = s.mmu := rfl
@[simp] theorem State.setActWord_ptp (s : State) (a v : Nat) : (s.setActWord a v).ptp = s.ptp := rfl
@[simp] theorem State.setActWord_aq (s : State) (a v : Nat) : (s.setActWord a v).aq = s.aq := rfl
@[simp] theorem State.setActWord_dma (s : State) (a v : Nat) : (s.setActWord a v).dma = s.dma := rfl
@[simp] theorem State.setActWord_syn (s : State) (a v : Nat) : (s.setActWord a v).syn = s.syn := rfl
@[simp] theorem State.setActWord_dram (s : State) (a v : Nat) : (s.setActWord a v).dram = s.dram := rfl
@[simp] theorem State.setActWord_sco (s : State) (a v : Nat) : (s.setActWord a v).sco = s.sco := rfl
@[simp] theorem State.setActWord_ports (s : State) (a v : Nat) : (s.setActWord a v).ports = s.ports := rfl
@[simp] theorem State.setActWord_pnl (s : State) (a v : Nat) : (s.setActWord a v).pnl = s.pnl := rfl
@[simp] theorem State.setActWord_bkl (s : State) (a v : Nat) : (s.setActWord a v).bkl = s.bkl := rfl
@[simp] theorem State.setActWord_cam (s : State) (a v : Nat) : (s.setActWord a v).cam = s.cam := rfl
@[simp] theorem State.setActWord_pkr (s : State) (a v : Nat) : (s.setActWord a v).pkr = s.pkr := rfl
@[simp] theorem State.setActWord_blt (s : State) (a v : Nat) : (s.setActWord a v).blt = s.blt := rfl
@[simp] theorem State.setActWord_eth (s : State) (a v : Nat) : (s.setActWord a v).eth = s.eth := rfl
@[simp] theorem State.setActWord_cal (s : State) (a v : Nat) : (s.setActWord a v).cal = s.cal := rfl
@[simp] theorem State.setActWord_hlt (s : State) (a v : Nat) : (s.setActWord a v).hlt = s.hlt := rfl
@[simp] theorem State.setActWord_thm (s : State) (a v : Nat) : (s.setActWord a v).thm = s.thm := rfl
@[simp] theorem State.setActWord_watch (s : State) (a v : Nat) : (s.setActWord a v).watch = s.watch := rfl
@[simp] theorem State.setActWord_flash (s : State) (a v : Nat) : (s.setActWord a v).flash = s.flash := rfl
@[simp] theorem State.setActWord_otp (s : State) (a v : Nat) : (s.setActWord a v).otp = s.otp := rfl
@[simp] theorem State.setActWord_fwu (s : State) (a v : Nat) : (s.setActWord a v).fwu = s.fwu := rfl
@[simp] theorem State.setActWord_pins (s : State) (a v : Nat) : (s.setActWord a v).pins = s.pins := rfl
@[simp] theorem State.setActWord_ledgerReq (s : State) (a v : Nat) : (s.setActWord a v).ledgerReq = s.ledgerReq := rfl
@[simp] theorem State.setActWord_out (s : State) (a v : Nat) : (s.setActWord a v).out = s.out := rfl
@[simp] theorem State.setActWord_freeCtr (s : State) (a v : Nat) : (s.setActWord a v).freeCtr = s.freeCtr := rfl
@[simp] theorem State.setActWord_ticks (s : State) (a v : Nat) : (s.setActWord a v).ticks = s.ticks := rfl
@[simp] theorem State.setActWord_word (s : State) (a v : Nat) (i : Nat) : (s.setActWord a v).word i = s.word i := rfl
@[simp] theorem State.setActWord_get (s : State) (a v : Nat) (g : Fld) : (s.setActWord a v).get g = s.get g := rfl
@[simp] theorem State.setActWord_on (s : State) (a v : Nat) (g : Fld) : (s.setActWord a v).on g = s.on g := rfl
@[simp] theorem State.setActWord_memByte (s : State) (a v : Nat) (i : Nat) : (s.setActWord a v).memByte i = s.memByte i := rfl

@[simp] theorem State.put_member (s : State) (f : Fld) (v : Nat) : (s.put f v).member = s.member := rfl
@[simp] theorem State.put_pending (s : State) (f : Fld) (v : Nat) : (s.put f v).pending = s.pending := rfl
@[simp] theorem State.put_act (s : State) (f : Fld) (v : Nat) : (s.put f v).act = s.act := rfl
@[simp] theorem State.put_snap (s : State) (f : Fld) (v : Nat) : (s.put f v).snap = s.snap := rfl
@[simp] theorem State.put_mem (s : State) (f : Fld) (v : Nat) : (s.put f v).mem = s.mem := rfl
@[simp] theorem State.put_poison (s : State) (f : Fld) (v : Nat) : (s.put f v).poison = s.poison := rfl
@[simp] theorem State.put_hostMem (s : State) (f : Fld) (v : Nat) : (s.put f v).hostMem = s.hostMem := rfl
@[simp] theorem State.put_int (s : State) (f : Fld) (v : Nat) : (s.put f v).int = s.int := rfl
@[simp] theorem State.put_hst (s : State) (f : Fld) (v : Nat) : (s.put f v).hst = s.hst := rfl
@[simp] theorem State.put_logWin (s : State) (f : Fld) (v : Nat) : (s.put f v).logWin = s.logWin := rfl
@[simp] theorem State.put_logFirst (s : State) (f : Fld) (v : Nat) : (s.put f v).logFirst = s.logFirst := rfl
@[simp] theorem State.put_mmu (s : State) (f : Fld) (v : Nat) : (s.put f v).mmu = s.mmu := rfl
@[simp] theorem State.put_ptp (s : State) (f : Fld) (v : Nat) : (s.put f v).ptp = s.ptp := rfl
@[simp] theorem State.put_aq (s : State) (f : Fld) (v : Nat) : (s.put f v).aq = s.aq := rfl
@[simp] theorem State.put_dma (s : State) (f : Fld) (v : Nat) : (s.put f v).dma = s.dma := rfl
@[simp] theorem State.put_syn (s : State) (f : Fld) (v : Nat) : (s.put f v).syn = s.syn := rfl
@[simp] theorem State.put_dram (s : State) (f : Fld) (v : Nat) : (s.put f v).dram = s.dram := rfl
@[simp] theorem State.put_sco (s : State) (f : Fld) (v : Nat) : (s.put f v).sco = s.sco := rfl
@[simp] theorem State.put_ports (s : State) (f : Fld) (v : Nat) : (s.put f v).ports = s.ports := rfl
@[simp] theorem State.put_pnl (s : State) (f : Fld) (v : Nat) : (s.put f v).pnl = s.pnl := rfl
@[simp] theorem State.put_bkl (s : State) (f : Fld) (v : Nat) : (s.put f v).bkl = s.bkl := rfl
@[simp] theorem State.put_cam (s : State) (f : Fld) (v : Nat) : (s.put f v).cam = s.cam := rfl
@[simp] theorem State.put_pkr (s : State) (f : Fld) (v : Nat) : (s.put f v).pkr = s.pkr := rfl
@[simp] theorem State.put_blt (s : State) (f : Fld) (v : Nat) : (s.put f v).blt = s.blt := rfl
@[simp] theorem State.put_eth (s : State) (f : Fld) (v : Nat) : (s.put f v).eth = s.eth := rfl
@[simp] theorem State.put_cal (s : State) (f : Fld) (v : Nat) : (s.put f v).cal = s.cal := rfl
@[simp] theorem State.put_hlt (s : State) (f : Fld) (v : Nat) : (s.put f v).hlt = s.hlt := rfl
@[simp] theorem State.put_thm (s : State) (f : Fld) (v : Nat) : (s.put f v).thm = s.thm := rfl
@[simp] theorem State.put_watch (s : State) (f : Fld) (v : Nat) : (s.put f v).watch = s.watch := rfl
@[simp] theorem State.put_flash (s : State) (f : Fld) (v : Nat) : (s.put f v).flash = s.flash := rfl
@[simp] theorem State.put_otp (s : State) (f : Fld) (v : Nat) : (s.put f v).otp = s.otp := rfl
@[simp] theorem State.put_fwu (s : State) (f : Fld) (v : Nat) : (s.put f v).fwu = s.fwu := rfl
@[simp] theorem State.put_pins (s : State) (f : Fld) (v : Nat) : (s.put f v).pins = s.pins := rfl
@[simp] theorem State.put_ledgerReq (s : State) (f : Fld) (v : Nat) : (s.put f v).ledgerReq = s.ledgerReq := rfl
@[simp] theorem State.put_out (s : State) (f : Fld) (v : Nat) : (s.put f v).out = s.out := rfl
@[simp] theorem State.put_freeCtr (s : State) (f : Fld) (v : Nat) : (s.put f v).freeCtr = s.freeCtr := rfl
@[simp] theorem State.put_ticks (s : State) (f : Fld) (v : Nat) : (s.put f v).ticks = s.ticks := rfl
@[simp] theorem State.put_actWord (s : State) (f : Fld) (v : Nat) (i : Nat) : (s.put f v).actWord i = s.actWord i := rfl
@[simp] theorem State.put_getA (s : State) (f : Fld) (v : Nat) (g : Fld) : (s.put f v).getA g = s.getA g := rfl
@[simp] theorem State.put_memByte (s : State) (f : Fld) (v : Nat) (i : Nat) : (s.put f v).memByte i = s.memByte i := rfl

@[simp] theorem State.putA_member (s : State) (f : Fld) (v : Nat) : (s.putA f v).member = s.member := rfl
@[simp] theorem State.putA_pending (s : State) (f : Fld) (v : Nat) : (s.putA f v).pending = s.pending := rfl
@[simp] theorem State.putA_regs (s : State) (f : Fld) (v : Nat) : (s.putA f v).regs = s.regs := rfl
@[simp] theorem State.putA_snap (s : State) (f : Fld) (v : Nat) : (s.putA f v).snap = s.snap := rfl
@[simp] theorem State.putA_mem (s : State) (f : Fld) (v : Nat) : (s.putA f v).mem = s.mem := rfl
@[simp] theorem State.putA_poison (s : State) (f : Fld) (v : Nat) : (s.putA f v).poison = s.poison := rfl
@[simp] theorem State.putA_hostMem (s : State) (f : Fld) (v : Nat) : (s.putA f v).hostMem = s.hostMem := rfl
@[simp] theorem State.putA_int (s : State) (f : Fld) (v : Nat) : (s.putA f v).int = s.int := rfl
@[simp] theorem State.putA_hst (s : State) (f : Fld) (v : Nat) : (s.putA f v).hst = s.hst := rfl
@[simp] theorem State.putA_logWin (s : State) (f : Fld) (v : Nat) : (s.putA f v).logWin = s.logWin := rfl
@[simp] theorem State.putA_logFirst (s : State) (f : Fld) (v : Nat) : (s.putA f v).logFirst = s.logFirst := rfl
@[simp] theorem State.putA_mmu (s : State) (f : Fld) (v : Nat) : (s.putA f v).mmu = s.mmu := rfl
@[simp] theorem State.putA_ptp (s : State) (f : Fld) (v : Nat) : (s.putA f v).ptp = s.ptp := rfl
@[simp] theorem State.putA_aq (s : State) (f : Fld) (v : Nat) : (s.putA f v).aq = s.aq := rfl
@[simp] theorem State.putA_dma (s : State) (f : Fld) (v : Nat) : (s.putA f v).dma = s.dma := rfl
@[simp] theorem State.putA_syn (s : State) (f : Fld) (v : Nat) : (s.putA f v).syn = s.syn := rfl
@[simp] theorem State.putA_dram (s : State) (f : Fld) (v : Nat) : (s.putA f v).dram = s.dram := rfl
@[simp] theorem State.putA_sco (s : State) (f : Fld) (v : Nat) : (s.putA f v).sco = s.sco := rfl
@[simp] theorem State.putA_ports (s : State) (f : Fld) (v : Nat) : (s.putA f v).ports = s.ports := rfl
@[simp] theorem State.putA_pnl (s : State) (f : Fld) (v : Nat) : (s.putA f v).pnl = s.pnl := rfl
@[simp] theorem State.putA_bkl (s : State) (f : Fld) (v : Nat) : (s.putA f v).bkl = s.bkl := rfl
@[simp] theorem State.putA_cam (s : State) (f : Fld) (v : Nat) : (s.putA f v).cam = s.cam := rfl
@[simp] theorem State.putA_pkr (s : State) (f : Fld) (v : Nat) : (s.putA f v).pkr = s.pkr := rfl
@[simp] theorem State.putA_blt (s : State) (f : Fld) (v : Nat) : (s.putA f v).blt = s.blt := rfl
@[simp] theorem State.putA_eth (s : State) (f : Fld) (v : Nat) : (s.putA f v).eth = s.eth := rfl
@[simp] theorem State.putA_cal (s : State) (f : Fld) (v : Nat) : (s.putA f v).cal = s.cal := rfl
@[simp] theorem State.putA_hlt (s : State) (f : Fld) (v : Nat) : (s.putA f v).hlt = s.hlt := rfl
@[simp] theorem State.putA_thm (s : State) (f : Fld) (v : Nat) : (s.putA f v).thm = s.thm := rfl
@[simp] theorem State.putA_watch (s : State) (f : Fld) (v : Nat) : (s.putA f v).watch = s.watch := rfl
@[simp] theorem State.putA_flash (s : State) (f : Fld) (v : Nat) : (s.putA f v).flash = s.flash := rfl
@[simp] theorem State.putA_otp (s : State) (f : Fld) (v : Nat) : (s.putA f v).otp = s.otp := rfl
@[simp] theorem State.putA_fwu (s : State) (f : Fld) (v : Nat) : (s.putA f v).fwu = s.fwu := rfl
@[simp] theorem State.putA_pins (s : State) (f : Fld) (v : Nat) : (s.putA f v).pins = s.pins := rfl
@[simp] theorem State.putA_ledgerReq (s : State) (f : Fld) (v : Nat) : (s.putA f v).ledgerReq = s.ledgerReq := rfl
@[simp] theorem State.putA_out (s : State) (f : Fld) (v : Nat) : (s.putA f v).out = s.out := rfl
@[simp] theorem State.putA_freeCtr (s : State) (f : Fld) (v : Nat) : (s.putA f v).freeCtr = s.freeCtr := rfl
@[simp] theorem State.putA_ticks (s : State) (f : Fld) (v : Nat) : (s.putA f v).ticks = s.ticks := rfl
@[simp] theorem State.putA_word (s : State) (f : Fld) (v : Nat) (i : Nat) : (s.putA f v).word i = s.word i := rfl
@[simp] theorem State.putA_get (s : State) (f : Fld) (v : Nat) (g : Fld) : (s.putA f v).get g = s.get g := rfl
@[simp] theorem State.putA_on (s : State) (f : Fld) (v : Nat) (g : Fld) : (s.putA f v).on g = s.on g := rfl
@[simp] theorem State.putA_memByte (s : State) (f : Fld) (v : Nat) (i : Nat) : (s.putA f v).memByte i = s.memByte i := rfl

@[simp] theorem State.bumpBy_member (s : State) (f : Fld) (n : Nat) : (s.bumpBy f n).member = s.member := rfl
@[simp] theorem State.bumpBy_pending (s : State) (f : Fld) (n : Nat) : (s.bumpBy f n).pending = s.pending := rfl
@[simp] theorem State.bumpBy_act (s : State) (f : Fld) (n : Nat) : (s.bumpBy f n).act = s.act := rfl
@[simp] theorem State.bumpBy_snap (s : State) (f : Fld) (n : Nat) : (s.bumpBy f n).snap = s.snap := rfl
@[simp] theorem State.bumpBy_mem (s : State) (f : Fld) (n : Nat) : (s.bumpBy f n).mem = s.mem := rfl
@[simp] theorem State.bumpBy_poison (s : State) (f : Fld) (n : Nat) : (s.bumpBy f n).poison = s.poison := rfl
@[simp] theorem State.bumpBy_hostMem (s : State) (f : Fld) (n : Nat) : (s.bumpBy f n).hostMem = s.hostMem := rfl
@[simp] theorem State.bumpBy_int (s : State) (f : Fld) (n : Nat) : (s.bumpBy f n).int = s.int := rfl
@[simp] theorem State.bumpBy_hst (s : State) (f : Fld) (n : Nat) : (s.bumpBy f n).hst = s.hst := rfl
@[simp] theorem State.bumpBy_logWin (s : State) (f : Fld) (n : Nat) : (s.bumpBy f n).logWin = s.logWin := rfl
@[simp] theorem State.bumpBy_logFirst (s : State) (f : Fld) (n : Nat) : (s.bumpBy f n).logFirst = s.logFirst := rfl
@[simp] theorem State.bumpBy_mmu (s : State) (f : Fld) (n : Nat) : (s.bumpBy f n).mmu = s.mmu := rfl
@[simp] theorem State.bumpBy_ptp (s : State) (f : Fld) (n : Nat) : (s.bumpBy f n).ptp = s.ptp := rfl
@[simp] theorem State.bumpBy_aq (s : State) (f : Fld) (n : Nat) : (s.bumpBy f n).aq = s.aq := rfl
@[simp] theorem State.bumpBy_dma (s : State) (f : Fld) (n : Nat) : (s.bumpBy f n).dma = s.dma := rfl
@[simp] theorem State.bumpBy_syn (s : State) (f : Fld) (n : Nat) : (s.bumpBy f n).syn = s.syn := rfl
@[simp] theorem State.bumpBy_dram (s : State) (f : Fld) (n : Nat) : (s.bumpBy f n).dram = s.dram := rfl
@[simp] theorem State.bumpBy_sco (s : State) (f : Fld) (n : Nat) : (s.bumpBy f n).sco = s.sco := rfl
@[simp] theorem State.bumpBy_ports (s : State) (f : Fld) (n : Nat) : (s.bumpBy f n).ports = s.ports := rfl
@[simp] theorem State.bumpBy_pnl (s : State) (f : Fld) (n : Nat) : (s.bumpBy f n).pnl = s.pnl := rfl
@[simp] theorem State.bumpBy_bkl (s : State) (f : Fld) (n : Nat) : (s.bumpBy f n).bkl = s.bkl := rfl
@[simp] theorem State.bumpBy_cam (s : State) (f : Fld) (n : Nat) : (s.bumpBy f n).cam = s.cam := rfl
@[simp] theorem State.bumpBy_pkr (s : State) (f : Fld) (n : Nat) : (s.bumpBy f n).pkr = s.pkr := rfl
@[simp] theorem State.bumpBy_blt (s : State) (f : Fld) (n : Nat) : (s.bumpBy f n).blt = s.blt := rfl
@[simp] theorem State.bumpBy_eth (s : State) (f : Fld) (n : Nat) : (s.bumpBy f n).eth = s.eth := rfl
@[simp] theorem State.bumpBy_cal (s : State) (f : Fld) (n : Nat) : (s.bumpBy f n).cal = s.cal := rfl
@[simp] theorem State.bumpBy_hlt (s : State) (f : Fld) (n : Nat) : (s.bumpBy f n).hlt = s.hlt := rfl
@[simp] theorem State.bumpBy_thm (s : State) (f : Fld) (n : Nat) : (s.bumpBy f n).thm = s.thm := rfl
@[simp] theorem State.bumpBy_watch (s : State) (f : Fld) (n : Nat) : (s.bumpBy f n).watch = s.watch := rfl
@[simp] theorem State.bumpBy_flash (s : State) (f : Fld) (n : Nat) : (s.bumpBy f n).flash = s.flash := rfl
@[simp] theorem State.bumpBy_otp (s : State) (f : Fld) (n : Nat) : (s.bumpBy f n).otp = s.otp := rfl
@[simp] theorem State.bumpBy_fwu (s : State) (f : Fld) (n : Nat) : (s.bumpBy f n).fwu = s.fwu := rfl
@[simp] theorem State.bumpBy_pins (s : State) (f : Fld) (n : Nat) : (s.bumpBy f n).pins = s.pins := rfl
@[simp] theorem State.bumpBy_ledgerReq (s : State) (f : Fld) (n : Nat) : (s.bumpBy f n).ledgerReq = s.ledgerReq := rfl
@[simp] theorem State.bumpBy_out (s : State) (f : Fld) (n : Nat) : (s.bumpBy f n).out = s.out := rfl
@[simp] theorem State.bumpBy_freeCtr (s : State) (f : Fld) (n : Nat) : (s.bumpBy f n).freeCtr = s.freeCtr := rfl
@[simp] theorem State.bumpBy_ticks (s : State) (f : Fld) (n : Nat) : (s.bumpBy f n).ticks = s.ticks := rfl
@[simp] theorem State.bumpBy_actWord (s : State) (f : Fld) (n : Nat) (i : Nat) : (s.bumpBy f n).actWord i = s.actWord i := rfl
@[simp] theorem State.bumpBy_getA (s : State) (f : Fld) (n : Nat) (g : Fld) : (s.bumpBy f n).getA g = s.getA g := rfl
@[simp] theorem State.bumpBy_memByte (s : State) (f : Fld) (n : Nat) (i : Nat) : (s.bumpBy f n).memByte i = s.memByte i := rfl

@[simp] theorem State.bump_member (s : State) (f : Fld) : (s.bump f).member = s.member := rfl
@[simp] theorem State.bump_pending (s : State) (f : Fld) : (s.bump f).pending = s.pending := rfl
@[simp] theorem State.bump_act (s : State) (f : Fld) : (s.bump f).act = s.act := rfl
@[simp] theorem State.bump_snap (s : State) (f : Fld) : (s.bump f).snap = s.snap := rfl
@[simp] theorem State.bump_mem (s : State) (f : Fld) : (s.bump f).mem = s.mem := rfl
@[simp] theorem State.bump_poison (s : State) (f : Fld) : (s.bump f).poison = s.poison := rfl
@[simp] theorem State.bump_hostMem (s : State) (f : Fld) : (s.bump f).hostMem = s.hostMem := rfl
@[simp] theorem State.bump_int (s : State) (f : Fld) : (s.bump f).int = s.int := rfl
@[simp] theorem State.bump_hst (s : State) (f : Fld) : (s.bump f).hst = s.hst := rfl
@[simp] theorem State.bump_logWin (s : State) (f : Fld) : (s.bump f).logWin = s.logWin := rfl
@[simp] theorem State.bump_logFirst (s : State) (f : Fld) : (s.bump f).logFirst = s.logFirst := rfl
@[simp] theorem State.bump_mmu (s : State) (f : Fld) : (s.bump f).mmu = s.mmu := rfl
@[simp] theorem State.bump_ptp (s : State) (f : Fld) : (s.bump f).ptp = s.ptp := rfl
@[simp] theorem State.bump_aq (s : State) (f : Fld) : (s.bump f).aq = s.aq := rfl
@[simp] theorem State.bump_dma (s : State) (f : Fld) : (s.bump f).dma = s.dma := rfl
@[simp] theorem State.bump_syn (s : State) (f : Fld) : (s.bump f).syn = s.syn := rfl
@[simp] theorem State.bump_dram (s : State) (f : Fld) : (s.bump f).dram = s.dram := rfl
@[simp] theorem State.bump_sco (s : State) (f : Fld) : (s.bump f).sco = s.sco := rfl
@[simp] theorem State.bump_ports (s : State) (f : Fld) : (s.bump f).ports = s.ports := rfl
@[simp] theorem State.bump_pnl (s : State) (f : Fld) : (s.bump f).pnl = s.pnl := rfl
@[simp] theorem State.bump_bkl (s : State) (f : Fld) : (s.bump f).bkl = s.bkl := rfl
@[simp] theorem State.bump_cam (s : State) (f : Fld) : (s.bump f).cam = s.cam := rfl
@[simp] theorem State.bump_pkr (s : State) (f : Fld) : (s.bump f).pkr = s.pkr := rfl
@[simp] theorem State.bump_blt (s : State) (f : Fld) : (s.bump f).blt = s.blt := rfl
@[simp] theorem State.bump_eth (s : State) (f : Fld) : (s.bump f).eth = s.eth := rfl
@[simp] theorem State.bump_cal (s : State) (f : Fld) : (s.bump f).cal = s.cal := rfl
@[simp] theorem State.bump_hlt (s : State) (f : Fld) : (s.bump f).hlt = s.hlt := rfl
@[simp] theorem State.bump_thm (s : State) (f : Fld) : (s.bump f).thm = s.thm := rfl
@[simp] theorem State.bump_watch (s : State) (f : Fld) : (s.bump f).watch = s.watch := rfl
@[simp] theorem State.bump_flash (s : State) (f : Fld) : (s.bump f).flash = s.flash := rfl
@[simp] theorem State.bump_otp (s : State) (f : Fld) : (s.bump f).otp = s.otp := rfl
@[simp] theorem State.bump_fwu (s : State) (f : Fld) : (s.bump f).fwu = s.fwu := rfl
@[simp] theorem State.bump_pins (s : State) (f : Fld) : (s.bump f).pins = s.pins := rfl
@[simp] theorem State.bump_ledgerReq (s : State) (f : Fld) : (s.bump f).ledgerReq = s.ledgerReq := rfl
@[simp] theorem State.bump_out (s : State) (f : Fld) : (s.bump f).out = s.out := rfl
@[simp] theorem State.bump_freeCtr (s : State) (f : Fld) : (s.bump f).freeCtr = s.freeCtr := rfl
@[simp] theorem State.bump_ticks (s : State) (f : Fld) : (s.bump f).ticks = s.ticks := rfl
@[simp] theorem State.bump_actWord (s : State) (f : Fld) (i : Nat) : (s.bump f).actWord i = s.actWord i := rfl
@[simp] theorem State.bump_getA (s : State) (f : Fld) (g : Fld) : (s.bump f).getA g = s.getA g := rfl
@[simp] theorem State.bump_memByte (s : State) (f : Fld) (i : Nat) : (s.bump f).memByte i = s.memByte i := rfl

@[simp] theorem State.put64_member (s : State) (lo hi : Fld) (v : Nat) : (s.put64 lo hi v).member = s.member := rfl
@[simp] theorem State.put64_pending (s : State) (lo hi : Fld) (v : Nat) : (s.put64 lo hi v).pending = s.pending := rfl
@[simp] theorem State.put64_act (s : State) (lo hi : Fld) (v : Nat) : (s.put64 lo hi v).act = s.act := rfl
@[simp] theorem State.put64_snap (s : State) (lo hi : Fld) (v : Nat) : (s.put64 lo hi v).snap = s.snap := rfl
@[simp] theorem State.put64_mem (s : State) (lo hi : Fld) (v : Nat) : (s.put64 lo hi v).mem = s.mem := rfl
@[simp] theorem State.put64_poison (s : State) (lo hi : Fld) (v : Nat) : (s.put64 lo hi v).poison = s.poison := rfl
@[simp] theorem State.put64_hostMem (s : State) (lo hi : Fld) (v : Nat) : (s.put64 lo hi v).hostMem = s.hostMem := rfl
@[simp] theorem State.put64_int (s : State) (lo hi : Fld) (v : Nat) : (s.put64 lo hi v).int = s.int := rfl
@[simp] theorem State.put64_hst (s : State) (lo hi : Fld) (v : Nat) : (s.put64 lo hi v).hst = s.hst := rfl
@[simp] theorem State.put64_logWin (s : State) (lo hi : Fld) (v : Nat) : (s.put64 lo hi v).logWin = s.logWin := rfl
@[simp] theorem State.put64_logFirst (s : State) (lo hi : Fld) (v : Nat) : (s.put64 lo hi v).logFirst = s.logFirst := rfl
@[simp] theorem State.put64_mmu (s : State) (lo hi : Fld) (v : Nat) : (s.put64 lo hi v).mmu = s.mmu := rfl
@[simp] theorem State.put64_ptp (s : State) (lo hi : Fld) (v : Nat) : (s.put64 lo hi v).ptp = s.ptp := rfl
@[simp] theorem State.put64_aq (s : State) (lo hi : Fld) (v : Nat) : (s.put64 lo hi v).aq = s.aq := rfl
@[simp] theorem State.put64_dma (s : State) (lo hi : Fld) (v : Nat) : (s.put64 lo hi v).dma = s.dma := rfl
@[simp] theorem State.put64_syn (s : State) (lo hi : Fld) (v : Nat) : (s.put64 lo hi v).syn = s.syn := rfl
@[simp] theorem State.put64_dram (s : State) (lo hi : Fld) (v : Nat) : (s.put64 lo hi v).dram = s.dram := rfl
@[simp] theorem State.put64_sco (s : State) (lo hi : Fld) (v : Nat) : (s.put64 lo hi v).sco = s.sco := rfl
@[simp] theorem State.put64_ports (s : State) (lo hi : Fld) (v : Nat) : (s.put64 lo hi v).ports = s.ports := rfl
@[simp] theorem State.put64_pnl (s : State) (lo hi : Fld) (v : Nat) : (s.put64 lo hi v).pnl = s.pnl := rfl
@[simp] theorem State.put64_bkl (s : State) (lo hi : Fld) (v : Nat) : (s.put64 lo hi v).bkl = s.bkl := rfl
@[simp] theorem State.put64_cam (s : State) (lo hi : Fld) (v : Nat) : (s.put64 lo hi v).cam = s.cam := rfl
@[simp] theorem State.put64_pkr (s : State) (lo hi : Fld) (v : Nat) : (s.put64 lo hi v).pkr = s.pkr := rfl
@[simp] theorem State.put64_blt (s : State) (lo hi : Fld) (v : Nat) : (s.put64 lo hi v).blt = s.blt := rfl
@[simp] theorem State.put64_eth (s : State) (lo hi : Fld) (v : Nat) : (s.put64 lo hi v).eth = s.eth := rfl
@[simp] theorem State.put64_cal (s : State) (lo hi : Fld) (v : Nat) : (s.put64 lo hi v).cal = s.cal := rfl
@[simp] theorem State.put64_hlt (s : State) (lo hi : Fld) (v : Nat) : (s.put64 lo hi v).hlt = s.hlt := rfl
@[simp] theorem State.put64_thm (s : State) (lo hi : Fld) (v : Nat) : (s.put64 lo hi v).thm = s.thm := rfl
@[simp] theorem State.put64_watch (s : State) (lo hi : Fld) (v : Nat) : (s.put64 lo hi v).watch = s.watch := rfl
@[simp] theorem State.put64_flash (s : State) (lo hi : Fld) (v : Nat) : (s.put64 lo hi v).flash = s.flash := rfl
@[simp] theorem State.put64_otp (s : State) (lo hi : Fld) (v : Nat) : (s.put64 lo hi v).otp = s.otp := rfl
@[simp] theorem State.put64_fwu (s : State) (lo hi : Fld) (v : Nat) : (s.put64 lo hi v).fwu = s.fwu := rfl
@[simp] theorem State.put64_pins (s : State) (lo hi : Fld) (v : Nat) : (s.put64 lo hi v).pins = s.pins := rfl
@[simp] theorem State.put64_ledgerReq (s : State) (lo hi : Fld) (v : Nat) : (s.put64 lo hi v).ledgerReq = s.ledgerReq := rfl
@[simp] theorem State.put64_out (s : State) (lo hi : Fld) (v : Nat) : (s.put64 lo hi v).out = s.out := rfl
@[simp] theorem State.put64_freeCtr (s : State) (lo hi : Fld) (v : Nat) : (s.put64 lo hi v).freeCtr = s.freeCtr := rfl
@[simp] theorem State.put64_ticks (s : State) (lo hi : Fld) (v : Nat) : (s.put64 lo hi v).ticks = s.ticks := rfl
@[simp] theorem State.put64_actWord (s : State) (lo hi : Fld) (v : Nat) (i : Nat) : (s.put64 lo hi v).actWord i = s.actWord i := rfl
@[simp] theorem State.put64_getA (s : State) (lo hi : Fld) (v : Nat) (g : Fld) : (s.put64 lo hi v).getA g = s.getA g := rfl
@[simp] theorem State.put64_memByte (s : State) (lo hi : Fld) (v : Nat) (i : Nat) : (s.put64 lo hi v).memByte i = s.memByte i := rfl

@[simp] theorem State.emit_member (s : State) (o : Out) : (s.emit o).member = s.member := rfl
@[simp] theorem State.emit_pending (s : State) (o : Out) : (s.emit o).pending = s.pending := rfl
@[simp] theorem State.emit_regs (s : State) (o : Out) : (s.emit o).regs = s.regs := rfl
@[simp] theorem State.emit_act (s : State) (o : Out) : (s.emit o).act = s.act := rfl
@[simp] theorem State.emit_snap (s : State) (o : Out) : (s.emit o).snap = s.snap := rfl
@[simp] theorem State.emit_mem (s : State) (o : Out) : (s.emit o).mem = s.mem := rfl
@[simp] theorem State.emit_poison (s : State) (o : Out) : (s.emit o).poison = s.poison := rfl
@[simp] theorem State.emit_hostMem (s : State) (o : Out) : (s.emit o).hostMem = s.hostMem := rfl
@[simp] theorem State.emit_int (s : State) (o : Out) : (s.emit o).int = s.int := rfl
@[simp] theorem State.emit_hst (s : State) (o : Out) : (s.emit o).hst = s.hst := rfl
@[simp] theorem State.emit_logWin (s : State) (o : Out) : (s.emit o).logWin = s.logWin := rfl
@[simp] theorem State.emit_logFirst (s : State) (o : Out) : (s.emit o).logFirst = s.logFirst := rfl
@[simp] theorem State.emit_mmu (s : State) (o : Out) : (s.emit o).mmu = s.mmu := rfl
@[simp] theorem State.emit_ptp (s : State) (o : Out) : (s.emit o).ptp = s.ptp := rfl
@[simp] theorem State.emit_aq (s : State) (o : Out) : (s.emit o).aq = s.aq := rfl
@[simp] theorem State.emit_dma (s : State) (o : Out) : (s.emit o).dma = s.dma := rfl
@[simp] theorem State.emit_syn (s : State) (o : Out) : (s.emit o).syn = s.syn := rfl
@[simp] theorem State.emit_dram (s : State) (o : Out) : (s.emit o).dram = s.dram := rfl
@[simp] theorem State.emit_sco (s : State) (o : Out) : (s.emit o).sco = s.sco := rfl
@[simp] theorem State.emit_ports (s : State) (o : Out) : (s.emit o).ports = s.ports := rfl
@[simp] theorem State.emit_pnl (s : State) (o : Out) : (s.emit o).pnl = s.pnl := rfl
@[simp] theorem State.emit_bkl (s : State) (o : Out) : (s.emit o).bkl = s.bkl := rfl
@[simp] theorem State.emit_cam (s : State) (o : Out) : (s.emit o).cam = s.cam := rfl
@[simp] theorem State.emit_pkr (s : State) (o : Out) : (s.emit o).pkr = s.pkr := rfl
@[simp] theorem State.emit_blt (s : State) (o : Out) : (s.emit o).blt = s.blt := rfl
@[simp] theorem State.emit_eth (s : State) (o : Out) : (s.emit o).eth = s.eth := rfl
@[simp] theorem State.emit_cal (s : State) (o : Out) : (s.emit o).cal = s.cal := rfl
@[simp] theorem State.emit_hlt (s : State) (o : Out) : (s.emit o).hlt = s.hlt := rfl
@[simp] theorem State.emit_thm (s : State) (o : Out) : (s.emit o).thm = s.thm := rfl
@[simp] theorem State.emit_watch (s : State) (o : Out) : (s.emit o).watch = s.watch := rfl
@[simp] theorem State.emit_flash (s : State) (o : Out) : (s.emit o).flash = s.flash := rfl
@[simp] theorem State.emit_otp (s : State) (o : Out) : (s.emit o).otp = s.otp := rfl
@[simp] theorem State.emit_fwu (s : State) (o : Out) : (s.emit o).fwu = s.fwu := rfl
@[simp] theorem State.emit_pins (s : State) (o : Out) : (s.emit o).pins = s.pins := rfl
@[simp] theorem State.emit_ledgerReq (s : State) (o : Out) : (s.emit o).ledgerReq = s.ledgerReq := rfl
@[simp] theorem State.emit_freeCtr (s : State) (o : Out) : (s.emit o).freeCtr = s.freeCtr := rfl
@[simp] theorem State.emit_ticks (s : State) (o : Out) : (s.emit o).ticks = s.ticks := rfl
@[simp] theorem State.emit_word (s : State) (o : Out) (i : Nat) : (s.emit o).word i = s.word i := rfl
@[simp] theorem State.emit_get (s : State) (o : Out) (g : Fld) : (s.emit o).get g = s.get g := rfl
@[simp] theorem State.emit_on (s : State) (o : Out) (g : Fld) : (s.emit o).on g = s.on g := rfl
@[simp] theorem State.emit_actWord (s : State) (o : Out) (i : Nat) : (s.emit o).actWord i = s.actWord i := rfl
@[simp] theorem State.emit_getA (s : State) (o : Out) (g : Fld) : (s.emit o).getA g = s.getA g := rfl
@[simp] theorem State.emit_memByte (s : State) (o : Out) (i : Nat) : (s.emit o).memByte i = s.memByte i := rfl

@[simp] theorem State.setPending_member (s : State) (v : Nat) : (s.setPending v).member = s.member := rfl
@[simp] theorem State.setPending_pending (s : State) (v : Nat) : (s.setPending v).pending = s.pending := rfl
@[simp] theorem State.setPending_regs (s : State) (v : Nat) : (s.setPending v).regs = s.regs := rfl
@[simp] theorem State.setPending_act (s : State) (v : Nat) : (s.setPending v).act = s.act := rfl
@[simp] theorem State.setPending_snap (s : State) (v : Nat) : (s.setPending v).snap = s.snap := rfl
@[simp] theorem State.setPending_mem (s : State) (v : Nat) : (s.setPending v).mem = s.mem := rfl
@[simp] theorem State.setPending_poison (s : State) (v : Nat) : (s.setPending v).poison = s.poison := rfl
@[simp] theorem State.setPending_hostMem (s : State) (v : Nat) : (s.setPending v).hostMem = s.hostMem := rfl
@[simp] theorem State.setPending_hst (s : State) (v : Nat) : (s.setPending v).hst = s.hst := rfl
@[simp] theorem State.setPending_logWin (s : State) (v : Nat) : (s.setPending v).logWin = s.logWin := rfl
@[simp] theorem State.setPending_logFirst (s : State) (v : Nat) : (s.setPending v).logFirst = s.logFirst := rfl
@[simp] theorem State.setPending_mmu (s : State) (v : Nat) : (s.setPending v).mmu = s.mmu := rfl
@[simp] theorem State.setPending_ptp (s : State) (v : Nat) : (s.setPending v).ptp = s.ptp := rfl
@[simp] theorem State.setPending_aq (s : State) (v : Nat) : (s.setPending v).aq = s.aq := rfl
@[simp] theorem State.setPending_dma (s : State) (v : Nat) : (s.setPending v).dma = s.dma := rfl
@[simp] theorem State.setPending_syn (s : State) (v : Nat) : (s.setPending v).syn = s.syn := rfl
@[simp] theorem State.setPending_dram (s : State) (v : Nat) : (s.setPending v).dram = s.dram := rfl
@[simp] theorem State.setPending_sco (s : State) (v : Nat) : (s.setPending v).sco = s.sco := rfl
@[simp] theorem State.setPending_ports (s : State) (v : Nat) : (s.setPending v).ports = s.ports := rfl
@[simp] theorem State.setPending_pnl (s : State) (v : Nat) : (s.setPending v).pnl = s.pnl := rfl
@[simp] theorem State.setPending_bkl (s : State) (v : Nat) : (s.setPending v).bkl = s.bkl := rfl
@[simp] theorem State.setPending_cam (s : State) (v : Nat) : (s.setPending v).cam = s.cam := rfl
@[simp] theorem State.setPending_pkr (s : State) (v : Nat) : (s.setPending v).pkr = s.pkr := rfl
@[simp] theorem State.setPending_blt (s : State) (v : Nat) : (s.setPending v).blt = s.blt := rfl
@[simp] theorem State.setPending_eth (s : State) (v : Nat) : (s.setPending v).eth = s.eth := rfl
@[simp] theorem State.setPending_cal (s : State) (v : Nat) : (s.setPending v).cal = s.cal := rfl
@[simp] theorem State.setPending_hlt (s : State) (v : Nat) : (s.setPending v).hlt = s.hlt := rfl
@[simp] theorem State.setPending_thm (s : State) (v : Nat) : (s.setPending v).thm = s.thm := rfl
@[simp] theorem State.setPending_watch (s : State) (v : Nat) : (s.setPending v).watch = s.watch := rfl
@[simp] theorem State.setPending_flash (s : State) (v : Nat) : (s.setPending v).flash = s.flash := rfl
@[simp] theorem State.setPending_otp (s : State) (v : Nat) : (s.setPending v).otp = s.otp := rfl
@[simp] theorem State.setPending_fwu (s : State) (v : Nat) : (s.setPending v).fwu = s.fwu := rfl
@[simp] theorem State.setPending_pins (s : State) (v : Nat) : (s.setPending v).pins = s.pins := rfl
@[simp] theorem State.setPending_ledgerReq (s : State) (v : Nat) : (s.setPending v).ledgerReq = s.ledgerReq := rfl
@[simp] theorem State.setPending_out (s : State) (v : Nat) : (s.setPending v).out = s.out := rfl
@[simp] theorem State.setPending_freeCtr (s : State) (v : Nat) : (s.setPending v).freeCtr = s.freeCtr := rfl
@[simp] theorem State.setPending_ticks (s : State) (v : Nat) : (s.setPending v).ticks = s.ticks := rfl
@[simp] theorem State.setPending_word (s : State) (v : Nat) (i : Nat) : (s.setPending v).word i = s.word i := rfl
@[simp] theorem State.setPending_get (s : State) (v : Nat) (g : Fld) : (s.setPending v).get g = s.get g := rfl
@[simp] theorem State.setPending_on (s : State) (v : Nat) (g : Fld) : (s.setPending v).on g = s.on g := rfl
@[simp] theorem State.setPending_actWord (s : State) (v : Nat) (i : Nat) : (s.setPending v).actWord i = s.actWord i := rfl
@[simp] theorem State.setPending_getA (s : State) (v : Nat) (g : Fld) : (s.setPending v).getA g = s.getA g := rfl
@[simp] theorem State.setPending_memByte (s : State) (v : Nat) (i : Nat) : (s.setPending v).memByte i = s.memByte i := rfl

@[simp] theorem State.memPut_member (s : State) (pa : Nat) (bs : List Byte) : (s.memPut pa bs).member = s.member := rfl
@[simp] theorem State.memPut_pending (s : State) (pa : Nat) (bs : List Byte) : (s.memPut pa bs).pending = s.pending := rfl
@[simp] theorem State.memPut_regs (s : State) (pa : Nat) (bs : List Byte) : (s.memPut pa bs).regs = s.regs := rfl
@[simp] theorem State.memPut_act (s : State) (pa : Nat) (bs : List Byte) : (s.memPut pa bs).act = s.act := rfl
@[simp] theorem State.memPut_snap (s : State) (pa : Nat) (bs : List Byte) : (s.memPut pa bs).snap = s.snap := rfl
@[simp] theorem State.memPut_hostMem (s : State) (pa : Nat) (bs : List Byte) : (s.memPut pa bs).hostMem = s.hostMem := rfl
@[simp] theorem State.memPut_int (s : State) (pa : Nat) (bs : List Byte) : (s.memPut pa bs).int = s.int := rfl
@[simp] theorem State.memPut_hst (s : State) (pa : Nat) (bs : List Byte) : (s.memPut pa bs).hst = s.hst := rfl
@[simp] theorem State.memPut_logWin (s : State) (pa : Nat) (bs : List Byte) : (s.memPut pa bs).logWin = s.logWin := rfl
@[simp] theorem State.memPut_logFirst (s : State) (pa : Nat) (bs : List Byte) : (s.memPut pa bs).logFirst = s.logFirst := rfl
@[simp] theorem State.memPut_mmu (s : State) (pa : Nat) (bs : List Byte) : (s.memPut pa bs).mmu = s.mmu := rfl
@[simp] theorem State.memPut_ptp (s : State) (pa : Nat) (bs : List Byte) : (s.memPut pa bs).ptp = s.ptp := rfl
@[simp] theorem State.memPut_aq (s : State) (pa : Nat) (bs : List Byte) : (s.memPut pa bs).aq = s.aq := rfl
@[simp] theorem State.memPut_dma (s : State) (pa : Nat) (bs : List Byte) : (s.memPut pa bs).dma = s.dma := rfl
@[simp] theorem State.memPut_syn (s : State) (pa : Nat) (bs : List Byte) : (s.memPut pa bs).syn = s.syn := rfl
@[simp] theorem State.memPut_dram (s : State) (pa : Nat) (bs : List Byte) : (s.memPut pa bs).dram = s.dram := rfl
@[simp] theorem State.memPut_sco (s : State) (pa : Nat) (bs : List Byte) : (s.memPut pa bs).sco = s.sco := rfl
@[simp] theorem State.memPut_ports (s : State) (pa : Nat) (bs : List Byte) : (s.memPut pa bs).ports = s.ports := rfl
@[simp] theorem State.memPut_pnl (s : State) (pa : Nat) (bs : List Byte) : (s.memPut pa bs).pnl = s.pnl := rfl
@[simp] theorem State.memPut_bkl (s : State) (pa : Nat) (bs : List Byte) : (s.memPut pa bs).bkl = s.bkl := rfl
@[simp] theorem State.memPut_cam (s : State) (pa : Nat) (bs : List Byte) : (s.memPut pa bs).cam = s.cam := rfl
@[simp] theorem State.memPut_pkr (s : State) (pa : Nat) (bs : List Byte) : (s.memPut pa bs).pkr = s.pkr := rfl
@[simp] theorem State.memPut_blt (s : State) (pa : Nat) (bs : List Byte) : (s.memPut pa bs).blt = s.blt := rfl
@[simp] theorem State.memPut_eth (s : State) (pa : Nat) (bs : List Byte) : (s.memPut pa bs).eth = s.eth := rfl
@[simp] theorem State.memPut_cal (s : State) (pa : Nat) (bs : List Byte) : (s.memPut pa bs).cal = s.cal := rfl
@[simp] theorem State.memPut_hlt (s : State) (pa : Nat) (bs : List Byte) : (s.memPut pa bs).hlt = s.hlt := rfl
@[simp] theorem State.memPut_thm (s : State) (pa : Nat) (bs : List Byte) : (s.memPut pa bs).thm = s.thm := rfl
@[simp] theorem State.memPut_watch (s : State) (pa : Nat) (bs : List Byte) : (s.memPut pa bs).watch = s.watch := rfl
@[simp] theorem State.memPut_flash (s : State) (pa : Nat) (bs : List Byte) : (s.memPut pa bs).flash = s.flash := rfl
@[simp] theorem State.memPut_otp (s : State) (pa : Nat) (bs : List Byte) : (s.memPut pa bs).otp = s.otp := rfl
@[simp] theorem State.memPut_fwu (s : State) (pa : Nat) (bs : List Byte) : (s.memPut pa bs).fwu = s.fwu := rfl
@[simp] theorem State.memPut_pins (s : State) (pa : Nat) (bs : List Byte) : (s.memPut pa bs).pins = s.pins := rfl
@[simp] theorem State.memPut_ledgerReq (s : State) (pa : Nat) (bs : List Byte) : (s.memPut pa bs).ledgerReq = s.ledgerReq := rfl
@[simp] theorem State.memPut_out (s : State) (pa : Nat) (bs : List Byte) : (s.memPut pa bs).out = s.out := rfl
@[simp] theorem State.memPut_freeCtr (s : State) (pa : Nat) (bs : List Byte) : (s.memPut pa bs).freeCtr = s.freeCtr := rfl
@[simp] theorem State.memPut_ticks (s : State) (pa : Nat) (bs : List Byte) : (s.memPut pa bs).ticks = s.ticks := rfl
@[simp] theorem State.memPut_word (s : State) (pa : Nat) (bs : List Byte) (i : Nat) : (s.memPut pa bs).word i = s.word i := rfl
@[simp] theorem State.memPut_get (s : State) (pa : Nat) (bs : List Byte) (g : Fld) : (s.memPut pa bs).get g = s.get g := rfl
@[simp] theorem State.memPut_on (s : State) (pa : Nat) (bs : List Byte) (g : Fld) : (s.memPut pa bs).on g = s.on g := rfl
@[simp] theorem State.memPut_actWord (s : State) (pa : Nat) (bs : List Byte) (i : Nat) : (s.memPut pa bs).actWord i = s.actWord i := rfl
@[simp] theorem State.memPut_getA (s : State) (pa : Nat) (bs : List Byte) (g : Fld) : (s.memPut pa bs).getA g = s.getA g := rfl

@[simp] theorem State.setStw_member (s : State) (c : Nat) (q : StwSt) : (s.setStw c q).member = s.member := rfl
@[simp] theorem State.setStw_pending (s : State) (c : Nat) (q : StwSt) : (s.setStw c q).pending = s.pending := rfl
@[simp] theorem State.setStw_regs (s : State) (c : Nat) (q : StwSt) : (s.setStw c q).regs = s.regs := rfl
@[simp] theorem State.setStw_act (s : State) (c : Nat) (q : StwSt) : (s.setStw c q).act = s.act := rfl
@[simp] theorem State.setStw_snap (s : State) (c : Nat) (q : StwSt) : (s.setStw c q).snap = s.snap := rfl
@[simp] theorem State.setStw_mem (s : State) (c : Nat) (q : StwSt) : (s.setStw c q).mem = s.mem := rfl
@[simp] theorem State.setStw_poison (s : State) (c : Nat) (q : StwSt) : (s.setStw c q).poison = s.poison := rfl
@[simp] theorem State.setStw_hostMem (s : State) (c : Nat) (q : StwSt) : (s.setStw c q).hostMem = s.hostMem := rfl
@[simp] theorem State.setStw_int (s : State) (c : Nat) (q : StwSt) : (s.setStw c q).int = s.int := rfl
@[simp] theorem State.setStw_hst (s : State) (c : Nat) (q : StwSt) : (s.setStw c q).hst = s.hst := rfl
@[simp] theorem State.setStw_logWin (s : State) (c : Nat) (q : StwSt) : (s.setStw c q).logWin = s.logWin := rfl
@[simp] theorem State.setStw_logFirst (s : State) (c : Nat) (q : StwSt) : (s.setStw c q).logFirst = s.logFirst := rfl
@[simp] theorem State.setStw_mmu (s : State) (c : Nat) (q : StwSt) : (s.setStw c q).mmu = s.mmu := rfl
@[simp] theorem State.setStw_ptp (s : State) (c : Nat) (q : StwSt) : (s.setStw c q).ptp = s.ptp := rfl
@[simp] theorem State.setStw_dma (s : State) (c : Nat) (q : StwSt) : (s.setStw c q).dma = s.dma := rfl
@[simp] theorem State.setStw_syn (s : State) (c : Nat) (q : StwSt) : (s.setStw c q).syn = s.syn := rfl
@[simp] theorem State.setStw_dram (s : State) (c : Nat) (q : StwSt) : (s.setStw c q).dram = s.dram := rfl
@[simp] theorem State.setStw_sco (s : State) (c : Nat) (q : StwSt) : (s.setStw c q).sco = s.sco := rfl
@[simp] theorem State.setStw_ports (s : State) (c : Nat) (q : StwSt) : (s.setStw c q).ports = s.ports := rfl
@[simp] theorem State.setStw_pnl (s : State) (c : Nat) (q : StwSt) : (s.setStw c q).pnl = s.pnl := rfl
@[simp] theorem State.setStw_bkl (s : State) (c : Nat) (q : StwSt) : (s.setStw c q).bkl = s.bkl := rfl
@[simp] theorem State.setStw_cam (s : State) (c : Nat) (q : StwSt) : (s.setStw c q).cam = s.cam := rfl
@[simp] theorem State.setStw_pkr (s : State) (c : Nat) (q : StwSt) : (s.setStw c q).pkr = s.pkr := rfl
@[simp] theorem State.setStw_blt (s : State) (c : Nat) (q : StwSt) : (s.setStw c q).blt = s.blt := rfl
@[simp] theorem State.setStw_eth (s : State) (c : Nat) (q : StwSt) : (s.setStw c q).eth = s.eth := rfl
@[simp] theorem State.setStw_cal (s : State) (c : Nat) (q : StwSt) : (s.setStw c q).cal = s.cal := rfl
@[simp] theorem State.setStw_hlt (s : State) (c : Nat) (q : StwSt) : (s.setStw c q).hlt = s.hlt := rfl
@[simp] theorem State.setStw_thm (s : State) (c : Nat) (q : StwSt) : (s.setStw c q).thm = s.thm := rfl
@[simp] theorem State.setStw_watch (s : State) (c : Nat) (q : StwSt) : (s.setStw c q).watch = s.watch := rfl
@[simp] theorem State.setStw_flash (s : State) (c : Nat) (q : StwSt) : (s.setStw c q).flash = s.flash := rfl
@[simp] theorem State.setStw_otp (s : State) (c : Nat) (q : StwSt) : (s.setStw c q).otp = s.otp := rfl
@[simp] theorem State.setStw_fwu (s : State) (c : Nat) (q : StwSt) : (s.setStw c q).fwu = s.fwu := rfl
@[simp] theorem State.setStw_pins (s : State) (c : Nat) (q : StwSt) : (s.setStw c q).pins = s.pins := rfl
@[simp] theorem State.setStw_ledgerReq (s : State) (c : Nat) (q : StwSt) : (s.setStw c q).ledgerReq = s.ledgerReq := rfl
@[simp] theorem State.setStw_out (s : State) (c : Nat) (q : StwSt) : (s.setStw c q).out = s.out := rfl
@[simp] theorem State.setStw_freeCtr (s : State) (c : Nat) (q : StwSt) : (s.setStw c q).freeCtr = s.freeCtr := rfl
@[simp] theorem State.setStw_ticks (s : State) (c : Nat) (q : StwSt) : (s.setStw c q).ticks = s.ticks := rfl
@[simp] theorem State.setStw_word (s : State) (c : Nat) (q : StwSt) (i : Nat) : (s.setStw c q).word i = s.word i := rfl
@[simp] theorem State.setStw_get (s : State) (c : Nat) (q : StwSt) (g : Fld) : (s.setStw c q).get g = s.get g := rfl
@[simp] theorem State.setStw_on (s : State) (c : Nat) (q : StwSt) (g : Fld) : (s.setStw c q).on g = s.on g := rfl
@[simp] theorem State.setStw_actWord (s : State) (c : Nat) (q : StwSt) (i : Nat) : (s.setStw c q).actWord i = s.actWord i := rfl
@[simp] theorem State.setStw_getA (s : State) (c : Nat) (q : StwSt) (g : Fld) : (s.setStw c q).getA g = s.getA g := rfl
@[simp] theorem State.setStw_memByte (s : State) (c : Nat) (q : StwSt) (i : Nat) : (s.setStw c q).memByte i = s.memByte i := rfl

@[simp] theorem State.setThr_member (s : State) (k : Nat) (t : ThreadSt) : (s.setThr k t).member = s.member := rfl
@[simp] theorem State.setThr_pending (s : State) (k : Nat) (t : ThreadSt) : (s.setThr k t).pending = s.pending := rfl
@[simp] theorem State.setThr_regs (s : State) (k : Nat) (t : ThreadSt) : (s.setThr k t).regs = s.regs := rfl
@[simp] theorem State.setThr_act (s : State) (k : Nat) (t : ThreadSt) : (s.setThr k t).act = s.act := rfl
@[simp] theorem State.setThr_snap (s : State) (k : Nat) (t : ThreadSt) : (s.setThr k t).snap = s.snap := rfl
@[simp] theorem State.setThr_mem (s : State) (k : Nat) (t : ThreadSt) : (s.setThr k t).mem = s.mem := rfl
@[simp] theorem State.setThr_poison (s : State) (k : Nat) (t : ThreadSt) : (s.setThr k t).poison = s.poison := rfl
@[simp] theorem State.setThr_hostMem (s : State) (k : Nat) (t : ThreadSt) : (s.setThr k t).hostMem = s.hostMem := rfl
@[simp] theorem State.setThr_int (s : State) (k : Nat) (t : ThreadSt) : (s.setThr k t).int = s.int := rfl
@[simp] theorem State.setThr_hst (s : State) (k : Nat) (t : ThreadSt) : (s.setThr k t).hst = s.hst := rfl
@[simp] theorem State.setThr_logWin (s : State) (k : Nat) (t : ThreadSt) : (s.setThr k t).logWin = s.logWin := rfl
@[simp] theorem State.setThr_logFirst (s : State) (k : Nat) (t : ThreadSt) : (s.setThr k t).logFirst = s.logFirst := rfl
@[simp] theorem State.setThr_mmu (s : State) (k : Nat) (t : ThreadSt) : (s.setThr k t).mmu = s.mmu := rfl
@[simp] theorem State.setThr_ptp (s : State) (k : Nat) (t : ThreadSt) : (s.setThr k t).ptp = s.ptp := rfl
@[simp] theorem State.setThr_dma (s : State) (k : Nat) (t : ThreadSt) : (s.setThr k t).dma = s.dma := rfl
@[simp] theorem State.setThr_syn (s : State) (k : Nat) (t : ThreadSt) : (s.setThr k t).syn = s.syn := rfl
@[simp] theorem State.setThr_dram (s : State) (k : Nat) (t : ThreadSt) : (s.setThr k t).dram = s.dram := rfl
@[simp] theorem State.setThr_sco (s : State) (k : Nat) (t : ThreadSt) : (s.setThr k t).sco = s.sco := rfl
@[simp] theorem State.setThr_ports (s : State) (k : Nat) (t : ThreadSt) : (s.setThr k t).ports = s.ports := rfl
@[simp] theorem State.setThr_pnl (s : State) (k : Nat) (t : ThreadSt) : (s.setThr k t).pnl = s.pnl := rfl
@[simp] theorem State.setThr_bkl (s : State) (k : Nat) (t : ThreadSt) : (s.setThr k t).bkl = s.bkl := rfl
@[simp] theorem State.setThr_cam (s : State) (k : Nat) (t : ThreadSt) : (s.setThr k t).cam = s.cam := rfl
@[simp] theorem State.setThr_pkr (s : State) (k : Nat) (t : ThreadSt) : (s.setThr k t).pkr = s.pkr := rfl
@[simp] theorem State.setThr_blt (s : State) (k : Nat) (t : ThreadSt) : (s.setThr k t).blt = s.blt := rfl
@[simp] theorem State.setThr_eth (s : State) (k : Nat) (t : ThreadSt) : (s.setThr k t).eth = s.eth := rfl
@[simp] theorem State.setThr_cal (s : State) (k : Nat) (t : ThreadSt) : (s.setThr k t).cal = s.cal := rfl
@[simp] theorem State.setThr_hlt (s : State) (k : Nat) (t : ThreadSt) : (s.setThr k t).hlt = s.hlt := rfl
@[simp] theorem State.setThr_thm (s : State) (k : Nat) (t : ThreadSt) : (s.setThr k t).thm = s.thm := rfl
@[simp] theorem State.setThr_watch (s : State) (k : Nat) (t : ThreadSt) : (s.setThr k t).watch = s.watch := rfl
@[simp] theorem State.setThr_flash (s : State) (k : Nat) (t : ThreadSt) : (s.setThr k t).flash = s.flash := rfl
@[simp] theorem State.setThr_otp (s : State) (k : Nat) (t : ThreadSt) : (s.setThr k t).otp = s.otp := rfl
@[simp] theorem State.setThr_fwu (s : State) (k : Nat) (t : ThreadSt) : (s.setThr k t).fwu = s.fwu := rfl
@[simp] theorem State.setThr_pins (s : State) (k : Nat) (t : ThreadSt) : (s.setThr k t).pins = s.pins := rfl
@[simp] theorem State.setThr_ledgerReq (s : State) (k : Nat) (t : ThreadSt) : (s.setThr k t).ledgerReq = s.ledgerReq := rfl
@[simp] theorem State.setThr_out (s : State) (k : Nat) (t : ThreadSt) : (s.setThr k t).out = s.out := rfl
@[simp] theorem State.setThr_freeCtr (s : State) (k : Nat) (t : ThreadSt) : (s.setThr k t).freeCtr = s.freeCtr := rfl
@[simp] theorem State.setThr_ticks (s : State) (k : Nat) (t : ThreadSt) : (s.setThr k t).ticks = s.ticks := rfl
@[simp] theorem State.setThr_word (s : State) (k : Nat) (t : ThreadSt) (i : Nat) : (s.setThr k t).word i = s.word i := rfl
@[simp] theorem State.setThr_get (s : State) (k : Nat) (t : ThreadSt) (g : Fld) : (s.setThr k t).get g = s.get g := rfl
@[simp] theorem State.setThr_on (s : State) (k : Nat) (t : ThreadSt) (g : Fld) : (s.setThr k t).on g = s.on g := rfl
@[simp] theorem State.setThr_actWord (s : State) (k : Nat) (t : ThreadSt) (i : Nat) : (s.setThr k t).actWord i = s.actWord i := rfl
@[simp] theorem State.setThr_getA (s : State) (k : Nat) (t : ThreadSt) (g : Fld) : (s.setThr k t).getA g = s.getA g := rfl
@[simp] theorem State.setThr_memByte (s : State) (k : Nat) (t : ThreadSt) (i : Nat) : (s.setThr k t).memByte i = s.memByte i := rfl

@[simp] theorem State.setHamlet_member (s : State) (h : Nat) (x : HamletSt) : (s.setHamlet h x).member = s.member := rfl
@[simp] theorem State.setHamlet_pending (s : State) (h : Nat) (x : HamletSt) : (s.setHamlet h x).pending = s.pending := rfl
@[simp] theorem State.setHamlet_regs (s : State) (h : Nat) (x : HamletSt) : (s.setHamlet h x).regs = s.regs := rfl
@[simp] theorem State.setHamlet_act (s : State) (h : Nat) (x : HamletSt) : (s.setHamlet h x).act = s.act := rfl
@[simp] theorem State.setHamlet_snap (s : State) (h : Nat) (x : HamletSt) : (s.setHamlet h x).snap = s.snap := rfl
@[simp] theorem State.setHamlet_mem (s : State) (h : Nat) (x : HamletSt) : (s.setHamlet h x).mem = s.mem := rfl
@[simp] theorem State.setHamlet_poison (s : State) (h : Nat) (x : HamletSt) : (s.setHamlet h x).poison = s.poison := rfl
@[simp] theorem State.setHamlet_hostMem (s : State) (h : Nat) (x : HamletSt) : (s.setHamlet h x).hostMem = s.hostMem := rfl
@[simp] theorem State.setHamlet_int (s : State) (h : Nat) (x : HamletSt) : (s.setHamlet h x).int = s.int := rfl
@[simp] theorem State.setHamlet_hst (s : State) (h : Nat) (x : HamletSt) : (s.setHamlet h x).hst = s.hst := rfl
@[simp] theorem State.setHamlet_logWin (s : State) (h : Nat) (x : HamletSt) : (s.setHamlet h x).logWin = s.logWin := rfl
@[simp] theorem State.setHamlet_logFirst (s : State) (h : Nat) (x : HamletSt) : (s.setHamlet h x).logFirst = s.logFirst := rfl
@[simp] theorem State.setHamlet_mmu (s : State) (h : Nat) (x : HamletSt) : (s.setHamlet h x).mmu = s.mmu := rfl
@[simp] theorem State.setHamlet_ptp (s : State) (h : Nat) (x : HamletSt) : (s.setHamlet h x).ptp = s.ptp := rfl
@[simp] theorem State.setHamlet_dma (s : State) (h : Nat) (x : HamletSt) : (s.setHamlet h x).dma = s.dma := rfl
@[simp] theorem State.setHamlet_syn (s : State) (h : Nat) (x : HamletSt) : (s.setHamlet h x).syn = s.syn := rfl
@[simp] theorem State.setHamlet_dram (s : State) (h : Nat) (x : HamletSt) : (s.setHamlet h x).dram = s.dram := rfl
@[simp] theorem State.setHamlet_sco (s : State) (h : Nat) (x : HamletSt) : (s.setHamlet h x).sco = s.sco := rfl
@[simp] theorem State.setHamlet_ports (s : State) (h : Nat) (x : HamletSt) : (s.setHamlet h x).ports = s.ports := rfl
@[simp] theorem State.setHamlet_pnl (s : State) (h : Nat) (x : HamletSt) : (s.setHamlet h x).pnl = s.pnl := rfl
@[simp] theorem State.setHamlet_bkl (s : State) (h : Nat) (x : HamletSt) : (s.setHamlet h x).bkl = s.bkl := rfl
@[simp] theorem State.setHamlet_cam (s : State) (h : Nat) (x : HamletSt) : (s.setHamlet h x).cam = s.cam := rfl
@[simp] theorem State.setHamlet_pkr (s : State) (h : Nat) (x : HamletSt) : (s.setHamlet h x).pkr = s.pkr := rfl
@[simp] theorem State.setHamlet_blt (s : State) (h : Nat) (x : HamletSt) : (s.setHamlet h x).blt = s.blt := rfl
@[simp] theorem State.setHamlet_eth (s : State) (h : Nat) (x : HamletSt) : (s.setHamlet h x).eth = s.eth := rfl
@[simp] theorem State.setHamlet_cal (s : State) (h : Nat) (x : HamletSt) : (s.setHamlet h x).cal = s.cal := rfl
@[simp] theorem State.setHamlet_hlt (s : State) (h : Nat) (x : HamletSt) : (s.setHamlet h x).hlt = s.hlt := rfl
@[simp] theorem State.setHamlet_thm (s : State) (h : Nat) (x : HamletSt) : (s.setHamlet h x).thm = s.thm := rfl
@[simp] theorem State.setHamlet_watch (s : State) (h : Nat) (x : HamletSt) : (s.setHamlet h x).watch = s.watch := rfl
@[simp] theorem State.setHamlet_flash (s : State) (h : Nat) (x : HamletSt) : (s.setHamlet h x).flash = s.flash := rfl
@[simp] theorem State.setHamlet_otp (s : State) (h : Nat) (x : HamletSt) : (s.setHamlet h x).otp = s.otp := rfl
@[simp] theorem State.setHamlet_fwu (s : State) (h : Nat) (x : HamletSt) : (s.setHamlet h x).fwu = s.fwu := rfl
@[simp] theorem State.setHamlet_pins (s : State) (h : Nat) (x : HamletSt) : (s.setHamlet h x).pins = s.pins := rfl
@[simp] theorem State.setHamlet_ledgerReq (s : State) (h : Nat) (x : HamletSt) : (s.setHamlet h x).ledgerReq = s.ledgerReq := rfl
@[simp] theorem State.setHamlet_out (s : State) (h : Nat) (x : HamletSt) : (s.setHamlet h x).out = s.out := rfl
@[simp] theorem State.setHamlet_freeCtr (s : State) (h : Nat) (x : HamletSt) : (s.setHamlet h x).freeCtr = s.freeCtr := rfl
@[simp] theorem State.setHamlet_ticks (s : State) (h : Nat) (x : HamletSt) : (s.setHamlet h x).ticks = s.ticks := rfl
@[simp] theorem State.setHamlet_word (s : State) (h : Nat) (x : HamletSt) (i : Nat) : (s.setHamlet h x).word i = s.word i := rfl
@[simp] theorem State.setHamlet_get (s : State) (h : Nat) (x : HamletSt) (g : Fld) : (s.setHamlet h x).get g = s.get g := rfl
@[simp] theorem State.setHamlet_on (s : State) (h : Nat) (x : HamletSt) (g : Fld) : (s.setHamlet h x).on g = s.on g := rfl
@[simp] theorem State.setHamlet_actWord (s : State) (h : Nat) (x : HamletSt) (i : Nat) : (s.setHamlet h x).actWord i = s.actWord i := rfl
@[simp] theorem State.setHamlet_getA (s : State) (h : Nat) (x : HamletSt) (g : Fld) : (s.setHamlet h x).getA g = s.getA g := rfl
@[simp] theorem State.setHamlet_memByte (s : State) (h : Nat) (x : HamletSt) (i : Nat) : (s.setHamlet h x).memByte i = s.memByte i := rfl

@[simp] theorem State.setLaunch_member (s : State) (h : Nat) (l : LaunchSt) : (s.setLaunch h l).member = s.member := rfl
@[simp] theorem State.setLaunch_pending (s : State) (h : Nat) (l : LaunchSt) : (s.setLaunch h l).pending = s.pending := rfl
@[simp] theorem State.setLaunch_regs (s : State) (h : Nat) (l : LaunchSt) : (s.setLaunch h l).regs = s.regs := rfl
@[simp] theorem State.setLaunch_act (s : State) (h : Nat) (l : LaunchSt) : (s.setLaunch h l).act = s.act := rfl
@[simp] theorem State.setLaunch_snap (s : State) (h : Nat) (l : LaunchSt) : (s.setLaunch h l).snap = s.snap := rfl
@[simp] theorem State.setLaunch_mem (s : State) (h : Nat) (l : LaunchSt) : (s.setLaunch h l).mem = s.mem := rfl
@[simp] theorem State.setLaunch_poison (s : State) (h : Nat) (l : LaunchSt) : (s.setLaunch h l).poison = s.poison := rfl
@[simp] theorem State.setLaunch_hostMem (s : State) (h : Nat) (l : LaunchSt) : (s.setLaunch h l).hostMem = s.hostMem := rfl
@[simp] theorem State.setLaunch_int (s : State) (h : Nat) (l : LaunchSt) : (s.setLaunch h l).int = s.int := rfl
@[simp] theorem State.setLaunch_hst (s : State) (h : Nat) (l : LaunchSt) : (s.setLaunch h l).hst = s.hst := rfl
@[simp] theorem State.setLaunch_logWin (s : State) (h : Nat) (l : LaunchSt) : (s.setLaunch h l).logWin = s.logWin := rfl
@[simp] theorem State.setLaunch_logFirst (s : State) (h : Nat) (l : LaunchSt) : (s.setLaunch h l).logFirst = s.logFirst := rfl
@[simp] theorem State.setLaunch_mmu (s : State) (h : Nat) (l : LaunchSt) : (s.setLaunch h l).mmu = s.mmu := rfl
@[simp] theorem State.setLaunch_ptp (s : State) (h : Nat) (l : LaunchSt) : (s.setLaunch h l).ptp = s.ptp := rfl
@[simp] theorem State.setLaunch_dma (s : State) (h : Nat) (l : LaunchSt) : (s.setLaunch h l).dma = s.dma := rfl
@[simp] theorem State.setLaunch_syn (s : State) (h : Nat) (l : LaunchSt) : (s.setLaunch h l).syn = s.syn := rfl
@[simp] theorem State.setLaunch_dram (s : State) (h : Nat) (l : LaunchSt) : (s.setLaunch h l).dram = s.dram := rfl
@[simp] theorem State.setLaunch_sco (s : State) (h : Nat) (l : LaunchSt) : (s.setLaunch h l).sco = s.sco := rfl
@[simp] theorem State.setLaunch_ports (s : State) (h : Nat) (l : LaunchSt) : (s.setLaunch h l).ports = s.ports := rfl
@[simp] theorem State.setLaunch_pnl (s : State) (h : Nat) (l : LaunchSt) : (s.setLaunch h l).pnl = s.pnl := rfl
@[simp] theorem State.setLaunch_bkl (s : State) (h : Nat) (l : LaunchSt) : (s.setLaunch h l).bkl = s.bkl := rfl
@[simp] theorem State.setLaunch_cam (s : State) (h : Nat) (l : LaunchSt) : (s.setLaunch h l).cam = s.cam := rfl
@[simp] theorem State.setLaunch_pkr (s : State) (h : Nat) (l : LaunchSt) : (s.setLaunch h l).pkr = s.pkr := rfl
@[simp] theorem State.setLaunch_blt (s : State) (h : Nat) (l : LaunchSt) : (s.setLaunch h l).blt = s.blt := rfl
@[simp] theorem State.setLaunch_eth (s : State) (h : Nat) (l : LaunchSt) : (s.setLaunch h l).eth = s.eth := rfl
@[simp] theorem State.setLaunch_cal (s : State) (h : Nat) (l : LaunchSt) : (s.setLaunch h l).cal = s.cal := rfl
@[simp] theorem State.setLaunch_hlt (s : State) (h : Nat) (l : LaunchSt) : (s.setLaunch h l).hlt = s.hlt := rfl
@[simp] theorem State.setLaunch_thm (s : State) (h : Nat) (l : LaunchSt) : (s.setLaunch h l).thm = s.thm := rfl
@[simp] theorem State.setLaunch_watch (s : State) (h : Nat) (l : LaunchSt) : (s.setLaunch h l).watch = s.watch := rfl
@[simp] theorem State.setLaunch_flash (s : State) (h : Nat) (l : LaunchSt) : (s.setLaunch h l).flash = s.flash := rfl
@[simp] theorem State.setLaunch_otp (s : State) (h : Nat) (l : LaunchSt) : (s.setLaunch h l).otp = s.otp := rfl
@[simp] theorem State.setLaunch_fwu (s : State) (h : Nat) (l : LaunchSt) : (s.setLaunch h l).fwu = s.fwu := rfl
@[simp] theorem State.setLaunch_pins (s : State) (h : Nat) (l : LaunchSt) : (s.setLaunch h l).pins = s.pins := rfl
@[simp] theorem State.setLaunch_ledgerReq (s : State) (h : Nat) (l : LaunchSt) : (s.setLaunch h l).ledgerReq = s.ledgerReq := rfl
@[simp] theorem State.setLaunch_out (s : State) (h : Nat) (l : LaunchSt) : (s.setLaunch h l).out = s.out := rfl
@[simp] theorem State.setLaunch_freeCtr (s : State) (h : Nat) (l : LaunchSt) : (s.setLaunch h l).freeCtr = s.freeCtr := rfl
@[simp] theorem State.setLaunch_ticks (s : State) (h : Nat) (l : LaunchSt) : (s.setLaunch h l).ticks = s.ticks := rfl
@[simp] theorem State.setLaunch_word (s : State) (h : Nat) (l : LaunchSt) (i : Nat) : (s.setLaunch h l).word i = s.word i := rfl
@[simp] theorem State.setLaunch_get (s : State) (h : Nat) (l : LaunchSt) (g : Fld) : (s.setLaunch h l).get g = s.get g := rfl
@[simp] theorem State.setLaunch_on (s : State) (h : Nat) (l : LaunchSt) (g : Fld) : (s.setLaunch h l).on g = s.on g := rfl
@[simp] theorem State.setLaunch_actWord (s : State) (h : Nat) (l : LaunchSt) (i : Nat) : (s.setLaunch h l).actWord i = s.actWord i := rfl
@[simp] theorem State.setLaunch_getA (s : State) (h : Nat) (l : LaunchSt) (g : Fld) : (s.setLaunch h l).getA g = s.getA g := rfl
@[simp] theorem State.setLaunch_memByte (s : State) (h : Nat) (l : LaunchSt) (i : Nat) : (s.setLaunch h l).memByte i = s.memByte i := rfl

@[simp] theorem State.setMmu_member (s : State) (m : MmuSt) : (s.setMmu m).member = s.member := rfl
@[simp] theorem State.setMmu_pending (s : State) (m : MmuSt) : (s.setMmu m).pending = s.pending := rfl
@[simp] theorem State.setMmu_regs (s : State) (m : MmuSt) : (s.setMmu m).regs = s.regs := rfl
@[simp] theorem State.setMmu_act (s : State) (m : MmuSt) : (s.setMmu m).act = s.act := rfl
@[simp] theorem State.setMmu_snap (s : State) (m : MmuSt) : (s.setMmu m).snap = s.snap := rfl
@[simp] theorem State.setMmu_mem (s : State) (m : MmuSt) : (s.setMmu m).mem = s.mem := rfl
@[simp] theorem State.setMmu_poison (s : State) (m : MmuSt) : (s.setMmu m).poison = s.poison := rfl
@[simp] theorem State.setMmu_hostMem (s : State) (m : MmuSt) : (s.setMmu m).hostMem = s.hostMem := rfl
@[simp] theorem State.setMmu_int (s : State) (m : MmuSt) : (s.setMmu m).int = s.int := rfl
@[simp] theorem State.setMmu_hst (s : State) (m : MmuSt) : (s.setMmu m).hst = s.hst := rfl
@[simp] theorem State.setMmu_logWin (s : State) (m : MmuSt) : (s.setMmu m).logWin = s.logWin := rfl
@[simp] theorem State.setMmu_logFirst (s : State) (m : MmuSt) : (s.setMmu m).logFirst = s.logFirst := rfl
@[simp] theorem State.setMmu_ptp (s : State) (m : MmuSt) : (s.setMmu m).ptp = s.ptp := rfl
@[simp] theorem State.setMmu_aq (s : State) (m : MmuSt) : (s.setMmu m).aq = s.aq := rfl
@[simp] theorem State.setMmu_dma (s : State) (m : MmuSt) : (s.setMmu m).dma = s.dma := rfl
@[simp] theorem State.setMmu_syn (s : State) (m : MmuSt) : (s.setMmu m).syn = s.syn := rfl
@[simp] theorem State.setMmu_dram (s : State) (m : MmuSt) : (s.setMmu m).dram = s.dram := rfl
@[simp] theorem State.setMmu_sco (s : State) (m : MmuSt) : (s.setMmu m).sco = s.sco := rfl
@[simp] theorem State.setMmu_ports (s : State) (m : MmuSt) : (s.setMmu m).ports = s.ports := rfl
@[simp] theorem State.setMmu_pnl (s : State) (m : MmuSt) : (s.setMmu m).pnl = s.pnl := rfl
@[simp] theorem State.setMmu_bkl (s : State) (m : MmuSt) : (s.setMmu m).bkl = s.bkl := rfl
@[simp] theorem State.setMmu_cam (s : State) (m : MmuSt) : (s.setMmu m).cam = s.cam := rfl
@[simp] theorem State.setMmu_pkr (s : State) (m : MmuSt) : (s.setMmu m).pkr = s.pkr := rfl
@[simp] theorem State.setMmu_blt (s : State) (m : MmuSt) : (s.setMmu m).blt = s.blt := rfl
@[simp] theorem State.setMmu_eth (s : State) (m : MmuSt) : (s.setMmu m).eth = s.eth := rfl
@[simp] theorem State.setMmu_cal (s : State) (m : MmuSt) : (s.setMmu m).cal = s.cal := rfl
@[simp] theorem State.setMmu_hlt (s : State) (m : MmuSt) : (s.setMmu m).hlt = s.hlt := rfl
@[simp] theorem State.setMmu_thm (s : State) (m : MmuSt) : (s.setMmu m).thm = s.thm := rfl
@[simp] theorem State.setMmu_watch (s : State) (m : MmuSt) : (s.setMmu m).watch = s.watch := rfl
@[simp] theorem State.setMmu_flash (s : State) (m : MmuSt) : (s.setMmu m).flash = s.flash := rfl
@[simp] theorem State.setMmu_otp (s : State) (m : MmuSt) : (s.setMmu m).otp = s.otp := rfl
@[simp] theorem State.setMmu_fwu (s : State) (m : MmuSt) : (s.setMmu m).fwu = s.fwu := rfl
@[simp] theorem State.setMmu_pins (s : State) (m : MmuSt) : (s.setMmu m).pins = s.pins := rfl
@[simp] theorem State.setMmu_ledgerReq (s : State) (m : MmuSt) : (s.setMmu m).ledgerReq = s.ledgerReq := rfl
@[simp] theorem State.setMmu_out (s : State) (m : MmuSt) : (s.setMmu m).out = s.out := rfl
@[simp] theorem State.setMmu_freeCtr (s : State) (m : MmuSt) : (s.setMmu m).freeCtr = s.freeCtr := rfl
@[simp] theorem State.setMmu_ticks (s : State) (m : MmuSt) : (s.setMmu m).ticks = s.ticks := rfl
@[simp] theorem State.setMmu_mmu (s : State) (m : MmuSt) : (s.setMmu m).mmu = m := rfl
@[simp] theorem State.setMmu_word (s : State) (m : MmuSt) (i : Nat) : (s.setMmu m).word i = s.word i := rfl
@[simp] theorem State.setMmu_get (s : State) (m : MmuSt) (g : Fld) : (s.setMmu m).get g = s.get g := rfl
@[simp] theorem State.setMmu_on (s : State) (m : MmuSt) (g : Fld) : (s.setMmu m).on g = s.on g := rfl
@[simp] theorem State.setMmu_actWord (s : State) (m : MmuSt) (i : Nat) : (s.setMmu m).actWord i = s.actWord i := rfl
@[simp] theorem State.setMmu_getA (s : State) (m : MmuSt) (g : Fld) : (s.setMmu m).getA g = s.getA g := rfl
@[simp] theorem State.setMmu_memByte (s : State) (m : MmuSt) (i : Nat) : (s.setMmu m).memByte i = s.memByte i := rfl

@[simp] theorem State.setPtp_member (s : State) (x : PtpSt) : (s.setPtp x).member = s.member := rfl
@[simp] theorem State.setPtp_pending (s : State) (x : PtpSt) : (s.setPtp x).pending = s.pending := rfl
@[simp] theorem State.setPtp_regs (s : State) (x : PtpSt) : (s.setPtp x).regs = s.regs := rfl
@[simp] theorem State.setPtp_act (s : State) (x : PtpSt) : (s.setPtp x).act = s.act := rfl
@[simp] theorem State.setPtp_snap (s : State) (x : PtpSt) : (s.setPtp x).snap = s.snap := rfl
@[simp] theorem State.setPtp_mem (s : State) (x : PtpSt) : (s.setPtp x).mem = s.mem := rfl
@[simp] theorem State.setPtp_poison (s : State) (x : PtpSt) : (s.setPtp x).poison = s.poison := rfl
@[simp] theorem State.setPtp_hostMem (s : State) (x : PtpSt) : (s.setPtp x).hostMem = s.hostMem := rfl
@[simp] theorem State.setPtp_int (s : State) (x : PtpSt) : (s.setPtp x).int = s.int := rfl
@[simp] theorem State.setPtp_hst (s : State) (x : PtpSt) : (s.setPtp x).hst = s.hst := rfl
@[simp] theorem State.setPtp_logWin (s : State) (x : PtpSt) : (s.setPtp x).logWin = s.logWin := rfl
@[simp] theorem State.setPtp_logFirst (s : State) (x : PtpSt) : (s.setPtp x).logFirst = s.logFirst := rfl
@[simp] theorem State.setPtp_mmu (s : State) (x : PtpSt) : (s.setPtp x).mmu = s.mmu := rfl
@[simp] theorem State.setPtp_aq (s : State) (x : PtpSt) : (s.setPtp x).aq = s.aq := rfl
@[simp] theorem State.setPtp_dma (s : State) (x : PtpSt) : (s.setPtp x).dma = s.dma := rfl
@[simp] theorem State.setPtp_syn (s : State) (x : PtpSt) : (s.setPtp x).syn = s.syn := rfl
@[simp] theorem State.setPtp_dram (s : State) (x : PtpSt) : (s.setPtp x).dram = s.dram := rfl
@[simp] theorem State.setPtp_sco (s : State) (x : PtpSt) : (s.setPtp x).sco = s.sco := rfl
@[simp] theorem State.setPtp_ports (s : State) (x : PtpSt) : (s.setPtp x).ports = s.ports := rfl
@[simp] theorem State.setPtp_pnl (s : State) (x : PtpSt) : (s.setPtp x).pnl = s.pnl := rfl
@[simp] theorem State.setPtp_bkl (s : State) (x : PtpSt) : (s.setPtp x).bkl = s.bkl := rfl
@[simp] theorem State.setPtp_cam (s : State) (x : PtpSt) : (s.setPtp x).cam = s.cam := rfl
@[simp] theorem State.setPtp_pkr (s : State) (x : PtpSt) : (s.setPtp x).pkr = s.pkr := rfl
@[simp] theorem State.setPtp_blt (s : State) (x : PtpSt) : (s.setPtp x).blt = s.blt := rfl
@[simp] theorem State.setPtp_eth (s : State) (x : PtpSt) : (s.setPtp x).eth = s.eth := rfl
@[simp] theorem State.setPtp_cal (s : State) (x : PtpSt) : (s.setPtp x).cal = s.cal := rfl
@[simp] theorem State.setPtp_hlt (s : State) (x : PtpSt) : (s.setPtp x).hlt = s.hlt := rfl
@[simp] theorem State.setPtp_thm (s : State) (x : PtpSt) : (s.setPtp x).thm = s.thm := rfl
@[simp] theorem State.setPtp_watch (s : State) (x : PtpSt) : (s.setPtp x).watch = s.watch := rfl
@[simp] theorem State.setPtp_flash (s : State) (x : PtpSt) : (s.setPtp x).flash = s.flash := rfl
@[simp] theorem State.setPtp_otp (s : State) (x : PtpSt) : (s.setPtp x).otp = s.otp := rfl
@[simp] theorem State.setPtp_fwu (s : State) (x : PtpSt) : (s.setPtp x).fwu = s.fwu := rfl
@[simp] theorem State.setPtp_pins (s : State) (x : PtpSt) : (s.setPtp x).pins = s.pins := rfl
@[simp] theorem State.setPtp_ledgerReq (s : State) (x : PtpSt) : (s.setPtp x).ledgerReq = s.ledgerReq := rfl
@[simp] theorem State.setPtp_out (s : State) (x : PtpSt) : (s.setPtp x).out = s.out := rfl
@[simp] theorem State.setPtp_freeCtr (s : State) (x : PtpSt) : (s.setPtp x).freeCtr = s.freeCtr := rfl
@[simp] theorem State.setPtp_ticks (s : State) (x : PtpSt) : (s.setPtp x).ticks = s.ticks := rfl
@[simp] theorem State.setPtp_ptp (s : State) (x : PtpSt) : (s.setPtp x).ptp = x := rfl
@[simp] theorem State.setPtp_word (s : State) (x : PtpSt) (i : Nat) : (s.setPtp x).word i = s.word i := rfl
@[simp] theorem State.setPtp_get (s : State) (x : PtpSt) (g : Fld) : (s.setPtp x).get g = s.get g := rfl
@[simp] theorem State.setPtp_on (s : State) (x : PtpSt) (g : Fld) : (s.setPtp x).on g = s.on g := rfl
@[simp] theorem State.setPtp_actWord (s : State) (x : PtpSt) (i : Nat) : (s.setPtp x).actWord i = s.actWord i := rfl
@[simp] theorem State.setPtp_getA (s : State) (x : PtpSt) (g : Fld) : (s.setPtp x).getA g = s.getA g := rfl
@[simp] theorem State.setPtp_memByte (s : State) (x : PtpSt) (i : Nat) : (s.setPtp x).memByte i = s.memByte i := rfl

@[simp] theorem State.setWring_member (s : State) (n : Nat) (r : WorkRing) : (s.setWring n r).member = s.member := rfl
@[simp] theorem State.setWring_pending (s : State) (n : Nat) (r : WorkRing) : (s.setWring n r).pending = s.pending := rfl
@[simp] theorem State.setWring_regs (s : State) (n : Nat) (r : WorkRing) : (s.setWring n r).regs = s.regs := rfl
@[simp] theorem State.setWring_act (s : State) (n : Nat) (r : WorkRing) : (s.setWring n r).act = s.act := rfl
@[simp] theorem State.setWring_snap (s : State) (n : Nat) (r : WorkRing) : (s.setWring n r).snap = s.snap := rfl
@[simp] theorem State.setWring_mem (s : State) (n : Nat) (r : WorkRing) : (s.setWring n r).mem = s.mem := rfl
@[simp] theorem State.setWring_poison (s : State) (n : Nat) (r : WorkRing) : (s.setWring n r).poison = s.poison := rfl
@[simp] theorem State.setWring_hostMem (s : State) (n : Nat) (r : WorkRing) : (s.setWring n r).hostMem = s.hostMem := rfl
@[simp] theorem State.setWring_int (s : State) (n : Nat) (r : WorkRing) : (s.setWring n r).int = s.int := rfl
@[simp] theorem State.setWring_logWin (s : State) (n : Nat) (r : WorkRing) : (s.setWring n r).logWin = s.logWin := rfl
@[simp] theorem State.setWring_logFirst (s : State) (n : Nat) (r : WorkRing) : (s.setWring n r).logFirst = s.logFirst := rfl
@[simp] theorem State.setWring_mmu (s : State) (n : Nat) (r : WorkRing) : (s.setWring n r).mmu = s.mmu := rfl
@[simp] theorem State.setWring_ptp (s : State) (n : Nat) (r : WorkRing) : (s.setWring n r).ptp = s.ptp := rfl
@[simp] theorem State.setWring_aq (s : State) (n : Nat) (r : WorkRing) : (s.setWring n r).aq = s.aq := rfl
@[simp] theorem State.setWring_dma (s : State) (n : Nat) (r : WorkRing) : (s.setWring n r).dma = s.dma := rfl
@[simp] theorem State.setWring_syn (s : State) (n : Nat) (r : WorkRing) : (s.setWring n r).syn = s.syn := rfl
@[simp] theorem State.setWring_dram (s : State) (n : Nat) (r : WorkRing) : (s.setWring n r).dram = s.dram := rfl
@[simp] theorem State.setWring_sco (s : State) (n : Nat) (r : WorkRing) : (s.setWring n r).sco = s.sco := rfl
@[simp] theorem State.setWring_ports (s : State) (n : Nat) (r : WorkRing) : (s.setWring n r).ports = s.ports := rfl
@[simp] theorem State.setWring_pnl (s : State) (n : Nat) (r : WorkRing) : (s.setWring n r).pnl = s.pnl := rfl
@[simp] theorem State.setWring_bkl (s : State) (n : Nat) (r : WorkRing) : (s.setWring n r).bkl = s.bkl := rfl
@[simp] theorem State.setWring_cam (s : State) (n : Nat) (r : WorkRing) : (s.setWring n r).cam = s.cam := rfl
@[simp] theorem State.setWring_pkr (s : State) (n : Nat) (r : WorkRing) : (s.setWring n r).pkr = s.pkr := rfl
@[simp] theorem State.setWring_blt (s : State) (n : Nat) (r : WorkRing) : (s.setWring n r).blt = s.blt := rfl
@[simp] theorem State.setWring_eth (s : State) (n : Nat) (r : WorkRing) : (s.setWring n r).eth = s.eth := rfl
@[simp] theorem State.setWring_cal (s : State) (n : Nat) (r : WorkRing) : (s.setWring n r).cal = s.cal := rfl
@[simp] theorem State.setWring_hlt (s : State) (n : Nat) (r : WorkRing) : (s.setWring n r).hlt = s.hlt := rfl
@[simp] theorem State.setWring_thm (s : State) (n : Nat) (r : WorkRing) : (s.setWring n r).thm = s.thm := rfl
@[simp] theorem State.setWring_watch (s : State) (n : Nat) (r : WorkRing) : (s.setWring n r).watch = s.watch := rfl
@[simp] theorem State.setWring_flash (s : State) (n : Nat) (r : WorkRing) : (s.setWring n r).flash = s.flash := rfl
@[simp] theorem State.setWring_otp (s : State) (n : Nat) (r : WorkRing) : (s.setWring n r).otp = s.otp := rfl
@[simp] theorem State.setWring_fwu (s : State) (n : Nat) (r : WorkRing) : (s.setWring n r).fwu = s.fwu := rfl
@[simp] theorem State.setWring_pins (s : State) (n : Nat) (r : WorkRing) : (s.setWring n r).pins = s.pins := rfl
@[simp] theorem State.setWring_ledgerReq (s : State) (n : Nat) (r : WorkRing) : (s.setWring n r).ledgerReq = s.ledgerReq := rfl
@[simp] theorem State.setWring_out (s : State) (n : Nat) (r : WorkRing) : (s.setWring n r).out = s.out := rfl
@[simp] theorem State.setWring_freeCtr (s : State) (n : Nat) (r : WorkRing) : (s.setWring n r).freeCtr = s.freeCtr := rfl
@[simp] theorem State.setWring_ticks (s : State) (n : Nat) (r : WorkRing) : (s.setWring n r).ticks = s.ticks := rfl
@[simp] theorem State.setWring_word (s : State) (n : Nat) (r : WorkRing) (i : Nat) : (s.setWring n r).word i = s.word i := rfl
@[simp] theorem State.setWring_get (s : State) (n : Nat) (r : WorkRing) (g : Fld) : (s.setWring n r).get g = s.get g := rfl
@[simp] theorem State.setWring_on (s : State) (n : Nat) (r : WorkRing) (g : Fld) : (s.setWring n r).on g = s.on g := rfl
@[simp] theorem State.setWring_actWord (s : State) (n : Nat) (r : WorkRing) (i : Nat) : (s.setWring n r).actWord i = s.actWord i := rfl
@[simp] theorem State.setWring_getA (s : State) (n : Nat) (r : WorkRing) (g : Fld) : (s.setWring n r).getA g = s.getA g := rfl
@[simp] theorem State.setWring_memByte (s : State) (n : Nat) (r : WorkRing) (i : Nat) : (s.setWring n r).memByte i = s.memByte i := rfl

@[simp] theorem State.setCaddy_member (s : State) (h : Nat) (c : CaddySt) : (s.setCaddy h c).member = s.member := rfl
@[simp] theorem State.setCaddy_pending (s : State) (h : Nat) (c : CaddySt) : (s.setCaddy h c).pending = s.pending := rfl
@[simp] theorem State.setCaddy_regs (s : State) (h : Nat) (c : CaddySt) : (s.setCaddy h c).regs = s.regs := rfl
@[simp] theorem State.setCaddy_act (s : State) (h : Nat) (c : CaddySt) : (s.setCaddy h c).act = s.act := rfl
@[simp] theorem State.setCaddy_snap (s : State) (h : Nat) (c : CaddySt) : (s.setCaddy h c).snap = s.snap := rfl
@[simp] theorem State.setCaddy_mem (s : State) (h : Nat) (c : CaddySt) : (s.setCaddy h c).mem = s.mem := rfl
@[simp] theorem State.setCaddy_poison (s : State) (h : Nat) (c : CaddySt) : (s.setCaddy h c).poison = s.poison := rfl
@[simp] theorem State.setCaddy_hostMem (s : State) (h : Nat) (c : CaddySt) : (s.setCaddy h c).hostMem = s.hostMem := rfl
@[simp] theorem State.setCaddy_int (s : State) (h : Nat) (c : CaddySt) : (s.setCaddy h c).int = s.int := rfl
@[simp] theorem State.setCaddy_hst (s : State) (h : Nat) (c : CaddySt) : (s.setCaddy h c).hst = s.hst := rfl
@[simp] theorem State.setCaddy_logWin (s : State) (h : Nat) (c : CaddySt) : (s.setCaddy h c).logWin = s.logWin := rfl
@[simp] theorem State.setCaddy_logFirst (s : State) (h : Nat) (c : CaddySt) : (s.setCaddy h c).logFirst = s.logFirst := rfl
@[simp] theorem State.setCaddy_mmu (s : State) (h : Nat) (c : CaddySt) : (s.setCaddy h c).mmu = s.mmu := rfl
@[simp] theorem State.setCaddy_ptp (s : State) (h : Nat) (c : CaddySt) : (s.setCaddy h c).ptp = s.ptp := rfl
@[simp] theorem State.setCaddy_aq (s : State) (h : Nat) (c : CaddySt) : (s.setCaddy h c).aq = s.aq := rfl
@[simp] theorem State.setCaddy_dma (s : State) (h : Nat) (c : CaddySt) : (s.setCaddy h c).dma = s.dma := rfl
@[simp] theorem State.setCaddy_dram (s : State) (h : Nat) (c : CaddySt) : (s.setCaddy h c).dram = s.dram := rfl
@[simp] theorem State.setCaddy_sco (s : State) (h : Nat) (c : CaddySt) : (s.setCaddy h c).sco = s.sco := rfl
@[simp] theorem State.setCaddy_ports (s : State) (h : Nat) (c : CaddySt) : (s.setCaddy h c).ports = s.ports := rfl
@[simp] theorem State.setCaddy_pnl (s : State) (h : Nat) (c : CaddySt) : (s.setCaddy h c).pnl = s.pnl := rfl
@[simp] theorem State.setCaddy_bkl (s : State) (h : Nat) (c : CaddySt) : (s.setCaddy h c).bkl = s.bkl := rfl
@[simp] theorem State.setCaddy_cam (s : State) (h : Nat) (c : CaddySt) : (s.setCaddy h c).cam = s.cam := rfl
@[simp] theorem State.setCaddy_pkr (s : State) (h : Nat) (c : CaddySt) : (s.setCaddy h c).pkr = s.pkr := rfl
@[simp] theorem State.setCaddy_blt (s : State) (h : Nat) (c : CaddySt) : (s.setCaddy h c).blt = s.blt := rfl
@[simp] theorem State.setCaddy_eth (s : State) (h : Nat) (c : CaddySt) : (s.setCaddy h c).eth = s.eth := rfl
@[simp] theorem State.setCaddy_cal (s : State) (h : Nat) (c : CaddySt) : (s.setCaddy h c).cal = s.cal := rfl
@[simp] theorem State.setCaddy_hlt (s : State) (h : Nat) (c : CaddySt) : (s.setCaddy h c).hlt = s.hlt := rfl
@[simp] theorem State.setCaddy_thm (s : State) (h : Nat) (c : CaddySt) : (s.setCaddy h c).thm = s.thm := rfl
@[simp] theorem State.setCaddy_watch (s : State) (h : Nat) (c : CaddySt) : (s.setCaddy h c).watch = s.watch := rfl
@[simp] theorem State.setCaddy_flash (s : State) (h : Nat) (c : CaddySt) : (s.setCaddy h c).flash = s.flash := rfl
@[simp] theorem State.setCaddy_otp (s : State) (h : Nat) (c : CaddySt) : (s.setCaddy h c).otp = s.otp := rfl
@[simp] theorem State.setCaddy_fwu (s : State) (h : Nat) (c : CaddySt) : (s.setCaddy h c).fwu = s.fwu := rfl
@[simp] theorem State.setCaddy_pins (s : State) (h : Nat) (c : CaddySt) : (s.setCaddy h c).pins = s.pins := rfl
@[simp] theorem State.setCaddy_ledgerReq (s : State) (h : Nat) (c : CaddySt) : (s.setCaddy h c).ledgerReq = s.ledgerReq := rfl
@[simp] theorem State.setCaddy_out (s : State) (h : Nat) (c : CaddySt) : (s.setCaddy h c).out = s.out := rfl
@[simp] theorem State.setCaddy_freeCtr (s : State) (h : Nat) (c : CaddySt) : (s.setCaddy h c).freeCtr = s.freeCtr := rfl
@[simp] theorem State.setCaddy_ticks (s : State) (h : Nat) (c : CaddySt) : (s.setCaddy h c).ticks = s.ticks := rfl
@[simp] theorem State.setCaddy_word (s : State) (h : Nat) (c : CaddySt) (i : Nat) : (s.setCaddy h c).word i = s.word i := rfl
@[simp] theorem State.setCaddy_get (s : State) (h : Nat) (c : CaddySt) (g : Fld) : (s.setCaddy h c).get g = s.get g := rfl
@[simp] theorem State.setCaddy_on (s : State) (h : Nat) (c : CaddySt) (g : Fld) : (s.setCaddy h c).on g = s.on g := rfl
@[simp] theorem State.setCaddy_actWord (s : State) (h : Nat) (c : CaddySt) (i : Nat) : (s.setCaddy h c).actWord i = s.actWord i := rfl
@[simp] theorem State.setCaddy_getA (s : State) (h : Nat) (c : CaddySt) (g : Fld) : (s.setCaddy h c).getA g = s.getA g := rfl
@[simp] theorem State.setCaddy_memByte (s : State) (h : Nat) (c : CaddySt) (i : Nat) : (s.setCaddy h c).memByte i = s.memByte i := rfl

@[simp] theorem State.setDens_member (s : State) (d : DensSt) : (s.setDens d).member = s.member := rfl
@[simp] theorem State.setDens_pending (s : State) (d : DensSt) : (s.setDens d).pending = s.pending := rfl
@[simp] theorem State.setDens_regs (s : State) (d : DensSt) : (s.setDens d).regs = s.regs := rfl
@[simp] theorem State.setDens_act (s : State) (d : DensSt) : (s.setDens d).act = s.act := rfl
@[simp] theorem State.setDens_snap (s : State) (d : DensSt) : (s.setDens d).snap = s.snap := rfl
@[simp] theorem State.setDens_mem (s : State) (d : DensSt) : (s.setDens d).mem = s.mem := rfl
@[simp] theorem State.setDens_poison (s : State) (d : DensSt) : (s.setDens d).poison = s.poison := rfl
@[simp] theorem State.setDens_hostMem (s : State) (d : DensSt) : (s.setDens d).hostMem = s.hostMem := rfl
@[simp] theorem State.setDens_int (s : State) (d : DensSt) : (s.setDens d).int = s.int := rfl
@[simp] theorem State.setDens_hst (s : State) (d : DensSt) : (s.setDens d).hst = s.hst := rfl
@[simp] theorem State.setDens_logWin (s : State) (d : DensSt) : (s.setDens d).logWin = s.logWin := rfl
@[simp] theorem State.setDens_logFirst (s : State) (d : DensSt) : (s.setDens d).logFirst = s.logFirst := rfl
@[simp] theorem State.setDens_mmu (s : State) (d : DensSt) : (s.setDens d).mmu = s.mmu := rfl
@[simp] theorem State.setDens_ptp (s : State) (d : DensSt) : (s.setDens d).ptp = s.ptp := rfl
@[simp] theorem State.setDens_aq (s : State) (d : DensSt) : (s.setDens d).aq = s.aq := rfl
@[simp] theorem State.setDens_dma (s : State) (d : DensSt) : (s.setDens d).dma = s.dma := rfl
@[simp] theorem State.setDens_dram (s : State) (d : DensSt) : (s.setDens d).dram = s.dram := rfl
@[simp] theorem State.setDens_sco (s : State) (d : DensSt) : (s.setDens d).sco = s.sco := rfl
@[simp] theorem State.setDens_ports (s : State) (d : DensSt) : (s.setDens d).ports = s.ports := rfl
@[simp] theorem State.setDens_pnl (s : State) (d : DensSt) : (s.setDens d).pnl = s.pnl := rfl
@[simp] theorem State.setDens_bkl (s : State) (d : DensSt) : (s.setDens d).bkl = s.bkl := rfl
@[simp] theorem State.setDens_cam (s : State) (d : DensSt) : (s.setDens d).cam = s.cam := rfl
@[simp] theorem State.setDens_pkr (s : State) (d : DensSt) : (s.setDens d).pkr = s.pkr := rfl
@[simp] theorem State.setDens_blt (s : State) (d : DensSt) : (s.setDens d).blt = s.blt := rfl
@[simp] theorem State.setDens_eth (s : State) (d : DensSt) : (s.setDens d).eth = s.eth := rfl
@[simp] theorem State.setDens_cal (s : State) (d : DensSt) : (s.setDens d).cal = s.cal := rfl
@[simp] theorem State.setDens_hlt (s : State) (d : DensSt) : (s.setDens d).hlt = s.hlt := rfl
@[simp] theorem State.setDens_thm (s : State) (d : DensSt) : (s.setDens d).thm = s.thm := rfl
@[simp] theorem State.setDens_watch (s : State) (d : DensSt) : (s.setDens d).watch = s.watch := rfl
@[simp] theorem State.setDens_flash (s : State) (d : DensSt) : (s.setDens d).flash = s.flash := rfl
@[simp] theorem State.setDens_otp (s : State) (d : DensSt) : (s.setDens d).otp = s.otp := rfl
@[simp] theorem State.setDens_fwu (s : State) (d : DensSt) : (s.setDens d).fwu = s.fwu := rfl
@[simp] theorem State.setDens_pins (s : State) (d : DensSt) : (s.setDens d).pins = s.pins := rfl
@[simp] theorem State.setDens_ledgerReq (s : State) (d : DensSt) : (s.setDens d).ledgerReq = s.ledgerReq := rfl
@[simp] theorem State.setDens_out (s : State) (d : DensSt) : (s.setDens d).out = s.out := rfl
@[simp] theorem State.setDens_freeCtr (s : State) (d : DensSt) : (s.setDens d).freeCtr = s.freeCtr := rfl
@[simp] theorem State.setDens_ticks (s : State) (d : DensSt) : (s.setDens d).ticks = s.ticks := rfl
@[simp] theorem State.setDens_word (s : State) (d : DensSt) (i : Nat) : (s.setDens d).word i = s.word i := rfl
@[simp] theorem State.setDens_get (s : State) (d : DensSt) (g : Fld) : (s.setDens d).get g = s.get g := rfl
@[simp] theorem State.setDens_on (s : State) (d : DensSt) (g : Fld) : (s.setDens d).on g = s.on g := rfl
@[simp] theorem State.setDens_actWord (s : State) (d : DensSt) (i : Nat) : (s.setDens d).actWord i = s.actWord i := rfl
@[simp] theorem State.setDens_getA (s : State) (d : DensSt) (g : Fld) : (s.setDens d).getA g = s.getA g := rfl
@[simp] theorem State.setDens_memByte (s : State) (d : DensSt) (i : Nat) : (s.setDens d).memByte i = s.memByte i := rfl

@[simp] theorem State.setSynWork_member (s : State) (k : Nat) (w : SynWork) : (s.setSynWork k w).member = s.member := rfl
@[simp] theorem State.setSynWork_pending (s : State) (k : Nat) (w : SynWork) : (s.setSynWork k w).pending = s.pending := rfl
@[simp] theorem State.setSynWork_regs (s : State) (k : Nat) (w : SynWork) : (s.setSynWork k w).regs = s.regs := rfl
@[simp] theorem State.setSynWork_act (s : State) (k : Nat) (w : SynWork) : (s.setSynWork k w).act = s.act := rfl
@[simp] theorem State.setSynWork_snap (s : State) (k : Nat) (w : SynWork) : (s.setSynWork k w).snap = s.snap := rfl
@[simp] theorem State.setSynWork_mem (s : State) (k : Nat) (w : SynWork) : (s.setSynWork k w).mem = s.mem := rfl
@[simp] theorem State.setSynWork_poison (s : State) (k : Nat) (w : SynWork) : (s.setSynWork k w).poison = s.poison := rfl
@[simp] theorem State.setSynWork_hostMem (s : State) (k : Nat) (w : SynWork) : (s.setSynWork k w).hostMem = s.hostMem := rfl
@[simp] theorem State.setSynWork_int (s : State) (k : Nat) (w : SynWork) : (s.setSynWork k w).int = s.int := rfl
@[simp] theorem State.setSynWork_hst (s : State) (k : Nat) (w : SynWork) : (s.setSynWork k w).hst = s.hst := rfl
@[simp] theorem State.setSynWork_logWin (s : State) (k : Nat) (w : SynWork) : (s.setSynWork k w).logWin = s.logWin := rfl
@[simp] theorem State.setSynWork_logFirst (s : State) (k : Nat) (w : SynWork) : (s.setSynWork k w).logFirst = s.logFirst := rfl
@[simp] theorem State.setSynWork_mmu (s : State) (k : Nat) (w : SynWork) : (s.setSynWork k w).mmu = s.mmu := rfl
@[simp] theorem State.setSynWork_ptp (s : State) (k : Nat) (w : SynWork) : (s.setSynWork k w).ptp = s.ptp := rfl
@[simp] theorem State.setSynWork_aq (s : State) (k : Nat) (w : SynWork) : (s.setSynWork k w).aq = s.aq := rfl
@[simp] theorem State.setSynWork_dma (s : State) (k : Nat) (w : SynWork) : (s.setSynWork k w).dma = s.dma := rfl
@[simp] theorem State.setSynWork_dram (s : State) (k : Nat) (w : SynWork) : (s.setSynWork k w).dram = s.dram := rfl
@[simp] theorem State.setSynWork_sco (s : State) (k : Nat) (w : SynWork) : (s.setSynWork k w).sco = s.sco := rfl
@[simp] theorem State.setSynWork_ports (s : State) (k : Nat) (w : SynWork) : (s.setSynWork k w).ports = s.ports := rfl
@[simp] theorem State.setSynWork_pnl (s : State) (k : Nat) (w : SynWork) : (s.setSynWork k w).pnl = s.pnl := rfl
@[simp] theorem State.setSynWork_bkl (s : State) (k : Nat) (w : SynWork) : (s.setSynWork k w).bkl = s.bkl := rfl
@[simp] theorem State.setSynWork_cam (s : State) (k : Nat) (w : SynWork) : (s.setSynWork k w).cam = s.cam := rfl
@[simp] theorem State.setSynWork_pkr (s : State) (k : Nat) (w : SynWork) : (s.setSynWork k w).pkr = s.pkr := rfl
@[simp] theorem State.setSynWork_blt (s : State) (k : Nat) (w : SynWork) : (s.setSynWork k w).blt = s.blt := rfl
@[simp] theorem State.setSynWork_eth (s : State) (k : Nat) (w : SynWork) : (s.setSynWork k w).eth = s.eth := rfl
@[simp] theorem State.setSynWork_cal (s : State) (k : Nat) (w : SynWork) : (s.setSynWork k w).cal = s.cal := rfl
@[simp] theorem State.setSynWork_hlt (s : State) (k : Nat) (w : SynWork) : (s.setSynWork k w).hlt = s.hlt := rfl
@[simp] theorem State.setSynWork_thm (s : State) (k : Nat) (w : SynWork) : (s.setSynWork k w).thm = s.thm := rfl
@[simp] theorem State.setSynWork_watch (s : State) (k : Nat) (w : SynWork) : (s.setSynWork k w).watch = s.watch := rfl
@[simp] theorem State.setSynWork_flash (s : State) (k : Nat) (w : SynWork) : (s.setSynWork k w).flash = s.flash := rfl
@[simp] theorem State.setSynWork_otp (s : State) (k : Nat) (w : SynWork) : (s.setSynWork k w).otp = s.otp := rfl
@[simp] theorem State.setSynWork_fwu (s : State) (k : Nat) (w : SynWork) : (s.setSynWork k w).fwu = s.fwu := rfl
@[simp] theorem State.setSynWork_pins (s : State) (k : Nat) (w : SynWork) : (s.setSynWork k w).pins = s.pins := rfl
@[simp] theorem State.setSynWork_ledgerReq (s : State) (k : Nat) (w : SynWork) : (s.setSynWork k w).ledgerReq = s.ledgerReq := rfl
@[simp] theorem State.setSynWork_out (s : State) (k : Nat) (w : SynWork) : (s.setSynWork k w).out = s.out := rfl
@[simp] theorem State.setSynWork_freeCtr (s : State) (k : Nat) (w : SynWork) : (s.setSynWork k w).freeCtr = s.freeCtr := rfl
@[simp] theorem State.setSynWork_ticks (s : State) (k : Nat) (w : SynWork) : (s.setSynWork k w).ticks = s.ticks := rfl
@[simp] theorem State.setSynWork_word (s : State) (k : Nat) (w : SynWork) (i : Nat) : (s.setSynWork k w).word i = s.word i := rfl
@[simp] theorem State.setSynWork_get (s : State) (k : Nat) (w : SynWork) (g : Fld) : (s.setSynWork k w).get g = s.get g := rfl
@[simp] theorem State.setSynWork_on (s : State) (k : Nat) (w : SynWork) (g : Fld) : (s.setSynWork k w).on g = s.on g := rfl
@[simp] theorem State.setSynWork_actWord (s : State) (k : Nat) (w : SynWork) (i : Nat) : (s.setSynWork k w).actWord i = s.actWord i := rfl
@[simp] theorem State.setSynWork_getA (s : State) (k : Nat) (w : SynWork) (g : Fld) : (s.setSynWork k w).getA g = s.getA g := rfl
@[simp] theorem State.setSynWork_memByte (s : State) (k : Nat) (w : SynWork) (i : Nat) : (s.setSynWork k w).memByte i = s.memByte i := rfl

@[simp] theorem State.setSpan_member (s : State) (h : Nat) (x : SpanSt) : (s.setSpan h x).member = s.member := rfl
@[simp] theorem State.setSpan_pending (s : State) (h : Nat) (x : SpanSt) : (s.setSpan h x).pending = s.pending := rfl
@[simp] theorem State.setSpan_regs (s : State) (h : Nat) (x : SpanSt) : (s.setSpan h x).regs = s.regs := rfl
@[simp] theorem State.setSpan_act (s : State) (h : Nat) (x : SpanSt) : (s.setSpan h x).act = s.act := rfl
@[simp] theorem State.setSpan_snap (s : State) (h : Nat) (x : SpanSt) : (s.setSpan h x).snap = s.snap := rfl
@[simp] theorem State.setSpan_mem (s : State) (h : Nat) (x : SpanSt) : (s.setSpan h x).mem = s.mem := rfl
@[simp] theorem State.setSpan_poison (s : State) (h : Nat) (x : SpanSt) : (s.setSpan h x).poison = s.poison := rfl
@[simp] theorem State.setSpan_hostMem (s : State) (h : Nat) (x : SpanSt) : (s.setSpan h x).hostMem = s.hostMem := rfl
@[simp] theorem State.setSpan_int (s : State) (h : Nat) (x : SpanSt) : (s.setSpan h x).int = s.int := rfl
@[simp] theorem State.setSpan_hst (s : State) (h : Nat) (x : SpanSt) : (s.setSpan h x).hst = s.hst := rfl
@[simp] theorem State.setSpan_logWin (s : State) (h : Nat) (x : SpanSt) : (s.setSpan h x).logWin = s.logWin := rfl
@[simp] theorem State.setSpan_logFirst (s : State) (h : Nat) (x : SpanSt) : (s.setSpan h x).logFirst = s.logFirst := rfl
@[simp] theorem State.setSpan_mmu (s : State) (h : Nat) (x : SpanSt) : (s.setSpan h x).mmu = s.mmu := rfl
@[simp] theorem State.setSpan_ptp (s : State) (h : Nat) (x : SpanSt) : (s.setSpan h x).ptp = s.ptp := rfl
@[simp] theorem State.setSpan_aq (s : State) (h : Nat) (x : SpanSt) : (s.setSpan h x).aq = s.aq := rfl
@[simp] theorem State.setSpan_dma (s : State) (h : Nat) (x : SpanSt) : (s.setSpan h x).dma = s.dma := rfl
@[simp] theorem State.setSpan_dram (s : State) (h : Nat) (x : SpanSt) : (s.setSpan h x).dram = s.dram := rfl
@[simp] theorem State.setSpan_sco (s : State) (h : Nat) (x : SpanSt) : (s.setSpan h x).sco = s.sco := rfl
@[simp] theorem State.setSpan_ports (s : State) (h : Nat) (x : SpanSt) : (s.setSpan h x).ports = s.ports := rfl
@[simp] theorem State.setSpan_pnl (s : State) (h : Nat) (x : SpanSt) : (s.setSpan h x).pnl = s.pnl := rfl
@[simp] theorem State.setSpan_bkl (s : State) (h : Nat) (x : SpanSt) : (s.setSpan h x).bkl = s.bkl := rfl
@[simp] theorem State.setSpan_cam (s : State) (h : Nat) (x : SpanSt) : (s.setSpan h x).cam = s.cam := rfl
@[simp] theorem State.setSpan_pkr (s : State) (h : Nat) (x : SpanSt) : (s.setSpan h x).pkr = s.pkr := rfl
@[simp] theorem State.setSpan_blt (s : State) (h : Nat) (x : SpanSt) : (s.setSpan h x).blt = s.blt := rfl
@[simp] theorem State.setSpan_eth (s : State) (h : Nat) (x : SpanSt) : (s.setSpan h x).eth = s.eth := rfl
@[simp] theorem State.setSpan_cal (s : State) (h : Nat) (x : SpanSt) : (s.setSpan h x).cal = s.cal := rfl
@[simp] theorem State.setSpan_hlt (s : State) (h : Nat) (x : SpanSt) : (s.setSpan h x).hlt = s.hlt := rfl
@[simp] theorem State.setSpan_thm (s : State) (h : Nat) (x : SpanSt) : (s.setSpan h x).thm = s.thm := rfl
@[simp] theorem State.setSpan_watch (s : State) (h : Nat) (x : SpanSt) : (s.setSpan h x).watch = s.watch := rfl
@[simp] theorem State.setSpan_flash (s : State) (h : Nat) (x : SpanSt) : (s.setSpan h x).flash = s.flash := rfl
@[simp] theorem State.setSpan_otp (s : State) (h : Nat) (x : SpanSt) : (s.setSpan h x).otp = s.otp := rfl
@[simp] theorem State.setSpan_fwu (s : State) (h : Nat) (x : SpanSt) : (s.setSpan h x).fwu = s.fwu := rfl
@[simp] theorem State.setSpan_pins (s : State) (h : Nat) (x : SpanSt) : (s.setSpan h x).pins = s.pins := rfl
@[simp] theorem State.setSpan_ledgerReq (s : State) (h : Nat) (x : SpanSt) : (s.setSpan h x).ledgerReq = s.ledgerReq := rfl
@[simp] theorem State.setSpan_out (s : State) (h : Nat) (x : SpanSt) : (s.setSpan h x).out = s.out := rfl
@[simp] theorem State.setSpan_freeCtr (s : State) (h : Nat) (x : SpanSt) : (s.setSpan h x).freeCtr = s.freeCtr := rfl
@[simp] theorem State.setSpan_ticks (s : State) (h : Nat) (x : SpanSt) : (s.setSpan h x).ticks = s.ticks := rfl
@[simp] theorem State.setSpan_word (s : State) (h : Nat) (x : SpanSt) (i : Nat) : (s.setSpan h x).word i = s.word i := rfl
@[simp] theorem State.setSpan_get (s : State) (h : Nat) (x : SpanSt) (g : Fld) : (s.setSpan h x).get g = s.get g := rfl
@[simp] theorem State.setSpan_on (s : State) (h : Nat) (x : SpanSt) (g : Fld) : (s.setSpan h x).on g = s.on g := rfl
@[simp] theorem State.setSpan_actWord (s : State) (h : Nat) (x : SpanSt) (i : Nat) : (s.setSpan h x).actWord i = s.actWord i := rfl
@[simp] theorem State.setSpan_getA (s : State) (h : Nat) (x : SpanSt) (g : Fld) : (s.setSpan h x).getA g = s.getA g := rfl
@[simp] theorem State.setSpan_memByte (s : State) (h : Nat) (x : SpanSt) (i : Nat) : (s.setSpan h x).memByte i = s.memByte i := rfl

@[simp] theorem State.setCtrl_member (s : State) (k : Nat) (c : Ctrl) : (s.setCtrl k c).member = s.member := rfl
@[simp] theorem State.setCtrl_pending (s : State) (k : Nat) (c : Ctrl) : (s.setCtrl k c).pending = s.pending := rfl
@[simp] theorem State.setCtrl_regs (s : State) (k : Nat) (c : Ctrl) : (s.setCtrl k c).regs = s.regs := rfl
@[simp] theorem State.setCtrl_act (s : State) (k : Nat) (c : Ctrl) : (s.setCtrl k c).act = s.act := rfl
@[simp] theorem State.setCtrl_snap (s : State) (k : Nat) (c : Ctrl) : (s.setCtrl k c).snap = s.snap := rfl
@[simp] theorem State.setCtrl_mem (s : State) (k : Nat) (c : Ctrl) : (s.setCtrl k c).mem = s.mem := rfl
@[simp] theorem State.setCtrl_poison (s : State) (k : Nat) (c : Ctrl) : (s.setCtrl k c).poison = s.poison := rfl
@[simp] theorem State.setCtrl_hostMem (s : State) (k : Nat) (c : Ctrl) : (s.setCtrl k c).hostMem = s.hostMem := rfl
@[simp] theorem State.setCtrl_int (s : State) (k : Nat) (c : Ctrl) : (s.setCtrl k c).int = s.int := rfl
@[simp] theorem State.setCtrl_hst (s : State) (k : Nat) (c : Ctrl) : (s.setCtrl k c).hst = s.hst := rfl
@[simp] theorem State.setCtrl_logWin (s : State) (k : Nat) (c : Ctrl) : (s.setCtrl k c).logWin = s.logWin := rfl
@[simp] theorem State.setCtrl_logFirst (s : State) (k : Nat) (c : Ctrl) : (s.setCtrl k c).logFirst = s.logFirst := rfl
@[simp] theorem State.setCtrl_mmu (s : State) (k : Nat) (c : Ctrl) : (s.setCtrl k c).mmu = s.mmu := rfl
@[simp] theorem State.setCtrl_ptp (s : State) (k : Nat) (c : Ctrl) : (s.setCtrl k c).ptp = s.ptp := rfl
@[simp] theorem State.setCtrl_aq (s : State) (k : Nat) (c : Ctrl) : (s.setCtrl k c).aq = s.aq := rfl
@[simp] theorem State.setCtrl_dma (s : State) (k : Nat) (c : Ctrl) : (s.setCtrl k c).dma = s.dma := rfl
@[simp] theorem State.setCtrl_syn (s : State) (k : Nat) (c : Ctrl) : (s.setCtrl k c).syn = s.syn := rfl
@[simp] theorem State.setCtrl_sco (s : State) (k : Nat) (c : Ctrl) : (s.setCtrl k c).sco = s.sco := rfl
@[simp] theorem State.setCtrl_ports (s : State) (k : Nat) (c : Ctrl) : (s.setCtrl k c).ports = s.ports := rfl
@[simp] theorem State.setCtrl_pnl (s : State) (k : Nat) (c : Ctrl) : (s.setCtrl k c).pnl = s.pnl := rfl
@[simp] theorem State.setCtrl_bkl (s : State) (k : Nat) (c : Ctrl) : (s.setCtrl k c).bkl = s.bkl := rfl
@[simp] theorem State.setCtrl_cam (s : State) (k : Nat) (c : Ctrl) : (s.setCtrl k c).cam = s.cam := rfl
@[simp] theorem State.setCtrl_pkr (s : State) (k : Nat) (c : Ctrl) : (s.setCtrl k c).pkr = s.pkr := rfl
@[simp] theorem State.setCtrl_blt (s : State) (k : Nat) (c : Ctrl) : (s.setCtrl k c).blt = s.blt := rfl
@[simp] theorem State.setCtrl_eth (s : State) (k : Nat) (c : Ctrl) : (s.setCtrl k c).eth = s.eth := rfl
@[simp] theorem State.setCtrl_cal (s : State) (k : Nat) (c : Ctrl) : (s.setCtrl k c).cal = s.cal := rfl
@[simp] theorem State.setCtrl_hlt (s : State) (k : Nat) (c : Ctrl) : (s.setCtrl k c).hlt = s.hlt := rfl
@[simp] theorem State.setCtrl_thm (s : State) (k : Nat) (c : Ctrl) : (s.setCtrl k c).thm = s.thm := rfl
@[simp] theorem State.setCtrl_watch (s : State) (k : Nat) (c : Ctrl) : (s.setCtrl k c).watch = s.watch := rfl
@[simp] theorem State.setCtrl_flash (s : State) (k : Nat) (c : Ctrl) : (s.setCtrl k c).flash = s.flash := rfl
@[simp] theorem State.setCtrl_otp (s : State) (k : Nat) (c : Ctrl) : (s.setCtrl k c).otp = s.otp := rfl
@[simp] theorem State.setCtrl_fwu (s : State) (k : Nat) (c : Ctrl) : (s.setCtrl k c).fwu = s.fwu := rfl
@[simp] theorem State.setCtrl_pins (s : State) (k : Nat) (c : Ctrl) : (s.setCtrl k c).pins = s.pins := rfl
@[simp] theorem State.setCtrl_ledgerReq (s : State) (k : Nat) (c : Ctrl) : (s.setCtrl k c).ledgerReq = s.ledgerReq := rfl
@[simp] theorem State.setCtrl_out (s : State) (k : Nat) (c : Ctrl) : (s.setCtrl k c).out = s.out := rfl
@[simp] theorem State.setCtrl_freeCtr (s : State) (k : Nat) (c : Ctrl) : (s.setCtrl k c).freeCtr = s.freeCtr := rfl
@[simp] theorem State.setCtrl_ticks (s : State) (k : Nat) (c : Ctrl) : (s.setCtrl k c).ticks = s.ticks := rfl
@[simp] theorem State.setCtrl_word (s : State) (k : Nat) (c : Ctrl) (i : Nat) : (s.setCtrl k c).word i = s.word i := rfl
@[simp] theorem State.setCtrl_get (s : State) (k : Nat) (c : Ctrl) (g : Fld) : (s.setCtrl k c).get g = s.get g := rfl
@[simp] theorem State.setCtrl_on (s : State) (k : Nat) (c : Ctrl) (g : Fld) : (s.setCtrl k c).on g = s.on g := rfl
@[simp] theorem State.setCtrl_actWord (s : State) (k : Nat) (c : Ctrl) (i : Nat) : (s.setCtrl k c).actWord i = s.actWord i := rfl
@[simp] theorem State.setCtrl_getA (s : State) (k : Nat) (c : Ctrl) (g : Fld) : (s.setCtrl k c).getA g = s.getA g := rfl
@[simp] theorem State.setCtrl_memByte (s : State) (k : Nat) (c : Ctrl) (i : Nat) : (s.setCtrl k c).memByte i = s.memByte i := rfl

@[simp] theorem State.setSco_member (s : State) (x : ScoSt) : (s.setSco x).member = s.member := rfl
@[simp] theorem State.setSco_pending (s : State) (x : ScoSt) : (s.setSco x).pending = s.pending := rfl
@[simp] theorem State.setSco_regs (s : State) (x : ScoSt) : (s.setSco x).regs = s.regs := rfl
@[simp] theorem State.setSco_act (s : State) (x : ScoSt) : (s.setSco x).act = s.act := rfl
@[simp] theorem State.setSco_snap (s : State) (x : ScoSt) : (s.setSco x).snap = s.snap := rfl
@[simp] theorem State.setSco_mem (s : State) (x : ScoSt) : (s.setSco x).mem = s.mem := rfl
@[simp] theorem State.setSco_poison (s : State) (x : ScoSt) : (s.setSco x).poison = s.poison := rfl
@[simp] theorem State.setSco_hostMem (s : State) (x : ScoSt) : (s.setSco x).hostMem = s.hostMem := rfl
@[simp] theorem State.setSco_int (s : State) (x : ScoSt) : (s.setSco x).int = s.int := rfl
@[simp] theorem State.setSco_hst (s : State) (x : ScoSt) : (s.setSco x).hst = s.hst := rfl
@[simp] theorem State.setSco_logWin (s : State) (x : ScoSt) : (s.setSco x).logWin = s.logWin := rfl
@[simp] theorem State.setSco_logFirst (s : State) (x : ScoSt) : (s.setSco x).logFirst = s.logFirst := rfl
@[simp] theorem State.setSco_mmu (s : State) (x : ScoSt) : (s.setSco x).mmu = s.mmu := rfl
@[simp] theorem State.setSco_ptp (s : State) (x : ScoSt) : (s.setSco x).ptp = s.ptp := rfl
@[simp] theorem State.setSco_aq (s : State) (x : ScoSt) : (s.setSco x).aq = s.aq := rfl
@[simp] theorem State.setSco_dma (s : State) (x : ScoSt) : (s.setSco x).dma = s.dma := rfl
@[simp] theorem State.setSco_syn (s : State) (x : ScoSt) : (s.setSco x).syn = s.syn := rfl
@[simp] theorem State.setSco_dram (s : State) (x : ScoSt) : (s.setSco x).dram = s.dram := rfl
@[simp] theorem State.setSco_ports (s : State) (x : ScoSt) : (s.setSco x).ports = s.ports := rfl
@[simp] theorem State.setSco_pnl (s : State) (x : ScoSt) : (s.setSco x).pnl = s.pnl := rfl
@[simp] theorem State.setSco_bkl (s : State) (x : ScoSt) : (s.setSco x).bkl = s.bkl := rfl
@[simp] theorem State.setSco_cam (s : State) (x : ScoSt) : (s.setSco x).cam = s.cam := rfl
@[simp] theorem State.setSco_pkr (s : State) (x : ScoSt) : (s.setSco x).pkr = s.pkr := rfl
@[simp] theorem State.setSco_blt (s : State) (x : ScoSt) : (s.setSco x).blt = s.blt := rfl
@[simp] theorem State.setSco_eth (s : State) (x : ScoSt) : (s.setSco x).eth = s.eth := rfl
@[simp] theorem State.setSco_cal (s : State) (x : ScoSt) : (s.setSco x).cal = s.cal := rfl
@[simp] theorem State.setSco_hlt (s : State) (x : ScoSt) : (s.setSco x).hlt = s.hlt := rfl
@[simp] theorem State.setSco_thm (s : State) (x : ScoSt) : (s.setSco x).thm = s.thm := rfl
@[simp] theorem State.setSco_watch (s : State) (x : ScoSt) : (s.setSco x).watch = s.watch := rfl
@[simp] theorem State.setSco_flash (s : State) (x : ScoSt) : (s.setSco x).flash = s.flash := rfl
@[simp] theorem State.setSco_otp (s : State) (x : ScoSt) : (s.setSco x).otp = s.otp := rfl
@[simp] theorem State.setSco_fwu (s : State) (x : ScoSt) : (s.setSco x).fwu = s.fwu := rfl
@[simp] theorem State.setSco_pins (s : State) (x : ScoSt) : (s.setSco x).pins = s.pins := rfl
@[simp] theorem State.setSco_ledgerReq (s : State) (x : ScoSt) : (s.setSco x).ledgerReq = s.ledgerReq := rfl
@[simp] theorem State.setSco_out (s : State) (x : ScoSt) : (s.setSco x).out = s.out := rfl
@[simp] theorem State.setSco_freeCtr (s : State) (x : ScoSt) : (s.setSco x).freeCtr = s.freeCtr := rfl
@[simp] theorem State.setSco_ticks (s : State) (x : ScoSt) : (s.setSco x).ticks = s.ticks := rfl
@[simp] theorem State.setSco_sco (s : State) (x : ScoSt) : (s.setSco x).sco = x := rfl
@[simp] theorem State.setSco_word (s : State) (x : ScoSt) (i : Nat) : (s.setSco x).word i = s.word i := rfl
@[simp] theorem State.setSco_get (s : State) (x : ScoSt) (g : Fld) : (s.setSco x).get g = s.get g := rfl
@[simp] theorem State.setSco_on (s : State) (x : ScoSt) (g : Fld) : (s.setSco x).on g = s.on g := rfl
@[simp] theorem State.setSco_actWord (s : State) (x : ScoSt) (i : Nat) : (s.setSco x).actWord i = s.actWord i := rfl
@[simp] theorem State.setSco_getA (s : State) (x : ScoSt) (g : Fld) : (s.setSco x).getA g = s.getA g := rfl
@[simp] theorem State.setSco_memByte (s : State) (x : ScoSt) (i : Nat) : (s.setSco x).memByte i = s.memByte i := rfl

@[simp] theorem State.setScan_member (s : State) (t : Nat) (x : TileScan) : (s.setScan t x).member = s.member := rfl
@[simp] theorem State.setScan_pending (s : State) (t : Nat) (x : TileScan) : (s.setScan t x).pending = s.pending := rfl
@[simp] theorem State.setScan_regs (s : State) (t : Nat) (x : TileScan) : (s.setScan t x).regs = s.regs := rfl
@[simp] theorem State.setScan_act (s : State) (t : Nat) (x : TileScan) : (s.setScan t x).act = s.act := rfl
@[simp] theorem State.setScan_snap (s : State) (t : Nat) (x : TileScan) : (s.setScan t x).snap = s.snap := rfl
@[simp] theorem State.setScan_mem (s : State) (t : Nat) (x : TileScan) : (s.setScan t x).mem = s.mem := rfl
@[simp] theorem State.setScan_poison (s : State) (t : Nat) (x : TileScan) : (s.setScan t x).poison = s.poison := rfl
@[simp] theorem State.setScan_hostMem (s : State) (t : Nat) (x : TileScan) : (s.setScan t x).hostMem = s.hostMem := rfl
@[simp] theorem State.setScan_int (s : State) (t : Nat) (x : TileScan) : (s.setScan t x).int = s.int := rfl
@[simp] theorem State.setScan_hst (s : State) (t : Nat) (x : TileScan) : (s.setScan t x).hst = s.hst := rfl
@[simp] theorem State.setScan_logWin (s : State) (t : Nat) (x : TileScan) : (s.setScan t x).logWin = s.logWin := rfl
@[simp] theorem State.setScan_logFirst (s : State) (t : Nat) (x : TileScan) : (s.setScan t x).logFirst = s.logFirst := rfl
@[simp] theorem State.setScan_mmu (s : State) (t : Nat) (x : TileScan) : (s.setScan t x).mmu = s.mmu := rfl
@[simp] theorem State.setScan_ptp (s : State) (t : Nat) (x : TileScan) : (s.setScan t x).ptp = s.ptp := rfl
@[simp] theorem State.setScan_aq (s : State) (t : Nat) (x : TileScan) : (s.setScan t x).aq = s.aq := rfl
@[simp] theorem State.setScan_dma (s : State) (t : Nat) (x : TileScan) : (s.setScan t x).dma = s.dma := rfl
@[simp] theorem State.setScan_syn (s : State) (t : Nat) (x : TileScan) : (s.setScan t x).syn = s.syn := rfl
@[simp] theorem State.setScan_dram (s : State) (t : Nat) (x : TileScan) : (s.setScan t x).dram = s.dram := rfl
@[simp] theorem State.setScan_ports (s : State) (t : Nat) (x : TileScan) : (s.setScan t x).ports = s.ports := rfl
@[simp] theorem State.setScan_pnl (s : State) (t : Nat) (x : TileScan) : (s.setScan t x).pnl = s.pnl := rfl
@[simp] theorem State.setScan_bkl (s : State) (t : Nat) (x : TileScan) : (s.setScan t x).bkl = s.bkl := rfl
@[simp] theorem State.setScan_cam (s : State) (t : Nat) (x : TileScan) : (s.setScan t x).cam = s.cam := rfl
@[simp] theorem State.setScan_pkr (s : State) (t : Nat) (x : TileScan) : (s.setScan t x).pkr = s.pkr := rfl
@[simp] theorem State.setScan_blt (s : State) (t : Nat) (x : TileScan) : (s.setScan t x).blt = s.blt := rfl
@[simp] theorem State.setScan_eth (s : State) (t : Nat) (x : TileScan) : (s.setScan t x).eth = s.eth := rfl
@[simp] theorem State.setScan_cal (s : State) (t : Nat) (x : TileScan) : (s.setScan t x).cal = s.cal := rfl
@[simp] theorem State.setScan_hlt (s : State) (t : Nat) (x : TileScan) : (s.setScan t x).hlt = s.hlt := rfl
@[simp] theorem State.setScan_thm (s : State) (t : Nat) (x : TileScan) : (s.setScan t x).thm = s.thm := rfl
@[simp] theorem State.setScan_watch (s : State) (t : Nat) (x : TileScan) : (s.setScan t x).watch = s.watch := rfl
@[simp] theorem State.setScan_flash (s : State) (t : Nat) (x : TileScan) : (s.setScan t x).flash = s.flash := rfl
@[simp] theorem State.setScan_otp (s : State) (t : Nat) (x : TileScan) : (s.setScan t x).otp = s.otp := rfl
@[simp] theorem State.setScan_fwu (s : State) (t : Nat) (x : TileScan) : (s.setScan t x).fwu = s.fwu := rfl
@[simp] theorem State.setScan_pins (s : State) (t : Nat) (x : TileScan) : (s.setScan t x).pins = s.pins := rfl
@[simp] theorem State.setScan_ledgerReq (s : State) (t : Nat) (x : TileScan) : (s.setScan t x).ledgerReq = s.ledgerReq := rfl
@[simp] theorem State.setScan_out (s : State) (t : Nat) (x : TileScan) : (s.setScan t x).out = s.out := rfl
@[simp] theorem State.setScan_freeCtr (s : State) (t : Nat) (x : TileScan) : (s.setScan t x).freeCtr = s.freeCtr := rfl
@[simp] theorem State.setScan_ticks (s : State) (t : Nat) (x : TileScan) : (s.setScan t x).ticks = s.ticks := rfl
@[simp] theorem State.setScan_word (s : State) (t : Nat) (x : TileScan) (i : Nat) : (s.setScan t x).word i = s.word i := rfl
@[simp] theorem State.setScan_get (s : State) (t : Nat) (x : TileScan) (g : Fld) : (s.setScan t x).get g = s.get g := rfl
@[simp] theorem State.setScan_on (s : State) (t : Nat) (x : TileScan) (g : Fld) : (s.setScan t x).on g = s.on g := rfl
@[simp] theorem State.setScan_actWord (s : State) (t : Nat) (x : TileScan) (i : Nat) : (s.setScan t x).actWord i = s.actWord i := rfl
@[simp] theorem State.setScan_getA (s : State) (t : Nat) (x : TileScan) (g : Fld) : (s.setScan t x).getA g = s.getA g := rfl
@[simp] theorem State.setScan_memByte (s : State) (t : Nat) (x : TileScan) (i : Nat) : (s.setScan t x).memByte i = s.memByte i := rfl

@[simp] theorem State.setPort_member (s : State) (t : Nat) (x : PortSt) : (s.setPort t x).member = s.member := rfl
@[simp] theorem State.setPort_pending (s : State) (t : Nat) (x : PortSt) : (s.setPort t x).pending = s.pending := rfl
@[simp] theorem State.setPort_regs (s : State) (t : Nat) (x : PortSt) : (s.setPort t x).regs = s.regs := rfl
@[simp] theorem State.setPort_act (s : State) (t : Nat) (x : PortSt) : (s.setPort t x).act = s.act := rfl
@[simp] theorem State.setPort_snap (s : State) (t : Nat) (x : PortSt) : (s.setPort t x).snap = s.snap := rfl
@[simp] theorem State.setPort_mem (s : State) (t : Nat) (x : PortSt) : (s.setPort t x).mem = s.mem := rfl
@[simp] theorem State.setPort_poison (s : State) (t : Nat) (x : PortSt) : (s.setPort t x).poison = s.poison := rfl
@[simp] theorem State.setPort_hostMem (s : State) (t : Nat) (x : PortSt) : (s.setPort t x).hostMem = s.hostMem := rfl
@[simp] theorem State.setPort_int (s : State) (t : Nat) (x : PortSt) : (s.setPort t x).int = s.int := rfl
@[simp] theorem State.setPort_hst (s : State) (t : Nat) (x : PortSt) : (s.setPort t x).hst = s.hst := rfl
@[simp] theorem State.setPort_logWin (s : State) (t : Nat) (x : PortSt) : (s.setPort t x).logWin = s.logWin := rfl
@[simp] theorem State.setPort_logFirst (s : State) (t : Nat) (x : PortSt) : (s.setPort t x).logFirst = s.logFirst := rfl
@[simp] theorem State.setPort_mmu (s : State) (t : Nat) (x : PortSt) : (s.setPort t x).mmu = s.mmu := rfl
@[simp] theorem State.setPort_ptp (s : State) (t : Nat) (x : PortSt) : (s.setPort t x).ptp = s.ptp := rfl
@[simp] theorem State.setPort_aq (s : State) (t : Nat) (x : PortSt) : (s.setPort t x).aq = s.aq := rfl
@[simp] theorem State.setPort_dma (s : State) (t : Nat) (x : PortSt) : (s.setPort t x).dma = s.dma := rfl
@[simp] theorem State.setPort_syn (s : State) (t : Nat) (x : PortSt) : (s.setPort t x).syn = s.syn := rfl
@[simp] theorem State.setPort_dram (s : State) (t : Nat) (x : PortSt) : (s.setPort t x).dram = s.dram := rfl
@[simp] theorem State.setPort_sco (s : State) (t : Nat) (x : PortSt) : (s.setPort t x).sco = s.sco := rfl
@[simp] theorem State.setPort_pnl (s : State) (t : Nat) (x : PortSt) : (s.setPort t x).pnl = s.pnl := rfl
@[simp] theorem State.setPort_bkl (s : State) (t : Nat) (x : PortSt) : (s.setPort t x).bkl = s.bkl := rfl
@[simp] theorem State.setPort_cam (s : State) (t : Nat) (x : PortSt) : (s.setPort t x).cam = s.cam := rfl
@[simp] theorem State.setPort_pkr (s : State) (t : Nat) (x : PortSt) : (s.setPort t x).pkr = s.pkr := rfl
@[simp] theorem State.setPort_blt (s : State) (t : Nat) (x : PortSt) : (s.setPort t x).blt = s.blt := rfl
@[simp] theorem State.setPort_eth (s : State) (t : Nat) (x : PortSt) : (s.setPort t x).eth = s.eth := rfl
@[simp] theorem State.setPort_cal (s : State) (t : Nat) (x : PortSt) : (s.setPort t x).cal = s.cal := rfl
@[simp] theorem State.setPort_hlt (s : State) (t : Nat) (x : PortSt) : (s.setPort t x).hlt = s.hlt := rfl
@[simp] theorem State.setPort_thm (s : State) (t : Nat) (x : PortSt) : (s.setPort t x).thm = s.thm := rfl
@[simp] theorem State.setPort_watch (s : State) (t : Nat) (x : PortSt) : (s.setPort t x).watch = s.watch := rfl
@[simp] theorem State.setPort_flash (s : State) (t : Nat) (x : PortSt) : (s.setPort t x).flash = s.flash := rfl
@[simp] theorem State.setPort_otp (s : State) (t : Nat) (x : PortSt) : (s.setPort t x).otp = s.otp := rfl
@[simp] theorem State.setPort_fwu (s : State) (t : Nat) (x : PortSt) : (s.setPort t x).fwu = s.fwu := rfl
@[simp] theorem State.setPort_pins (s : State) (t : Nat) (x : PortSt) : (s.setPort t x).pins = s.pins := rfl
@[simp] theorem State.setPort_ledgerReq (s : State) (t : Nat) (x : PortSt) : (s.setPort t x).ledgerReq = s.ledgerReq := rfl
@[simp] theorem State.setPort_out (s : State) (t : Nat) (x : PortSt) : (s.setPort t x).out = s.out := rfl
@[simp] theorem State.setPort_freeCtr (s : State) (t : Nat) (x : PortSt) : (s.setPort t x).freeCtr = s.freeCtr := rfl
@[simp] theorem State.setPort_ticks (s : State) (t : Nat) (x : PortSt) : (s.setPort t x).ticks = s.ticks := rfl
@[simp] theorem State.setPort_word (s : State) (t : Nat) (x : PortSt) (i : Nat) : (s.setPort t x).word i = s.word i := rfl
@[simp] theorem State.setPort_get (s : State) (t : Nat) (x : PortSt) (g : Fld) : (s.setPort t x).get g = s.get g := rfl
@[simp] theorem State.setPort_on (s : State) (t : Nat) (x : PortSt) (g : Fld) : (s.setPort t x).on g = s.on g := rfl
@[simp] theorem State.setPort_actWord (s : State) (t : Nat) (x : PortSt) (i : Nat) : (s.setPort t x).actWord i = s.actWord i := rfl
@[simp] theorem State.setPort_getA (s : State) (t : Nat) (x : PortSt) (g : Fld) : (s.setPort t x).getA g = s.getA g := rfl
@[simp] theorem State.setPort_memByte (s : State) (t : Nat) (x : PortSt) (i : Nat) : (s.setPort t x).memByte i = s.memByte i := rfl

@[simp] theorem State.setPnl_member (s : State) (x : PnlSt) : (s.setPnl x).member = s.member := rfl
@[simp] theorem State.setPnl_pending (s : State) (x : PnlSt) : (s.setPnl x).pending = s.pending := rfl
@[simp] theorem State.setPnl_regs (s : State) (x : PnlSt) : (s.setPnl x).regs = s.regs := rfl
@[simp] theorem State.setPnl_act (s : State) (x : PnlSt) : (s.setPnl x).act = s.act := rfl
@[simp] theorem State.setPnl_snap (s : State) (x : PnlSt) : (s.setPnl x).snap = s.snap := rfl
@[simp] theorem State.setPnl_mem (s : State) (x : PnlSt) : (s.setPnl x).mem = s.mem := rfl
@[simp] theorem State.setPnl_poison (s : State) (x : PnlSt) : (s.setPnl x).poison = s.poison := rfl
@[simp] theorem State.setPnl_hostMem (s : State) (x : PnlSt) : (s.setPnl x).hostMem = s.hostMem := rfl
@[simp] theorem State.setPnl_int (s : State) (x : PnlSt) : (s.setPnl x).int = s.int := rfl
@[simp] theorem State.setPnl_hst (s : State) (x : PnlSt) : (s.setPnl x).hst = s.hst := rfl
@[simp] theorem State.setPnl_logWin (s : State) (x : PnlSt) : (s.setPnl x).logWin = s.logWin := rfl
@[simp] theorem State.setPnl_logFirst (s : State) (x : PnlSt) : (s.setPnl x).logFirst = s.logFirst := rfl
@[simp] theorem State.setPnl_mmu (s : State) (x : PnlSt) : (s.setPnl x).mmu = s.mmu := rfl
@[simp] theorem State.setPnl_ptp (s : State) (x : PnlSt) : (s.setPnl x).ptp = s.ptp := rfl
@[simp] theorem State.setPnl_aq (s : State) (x : PnlSt) : (s.setPnl x).aq = s.aq := rfl
@[simp] theorem State.setPnl_dma (s : State) (x : PnlSt) : (s.setPnl x).dma = s.dma := rfl
@[simp] theorem State.setPnl_syn (s : State) (x : PnlSt) : (s.setPnl x).syn = s.syn := rfl
@[simp] theorem State.setPnl_dram (s : State) (x : PnlSt) : (s.setPnl x).dram = s.dram := rfl
@[simp] theorem State.setPnl_sco (s : State) (x : PnlSt) : (s.setPnl x).sco = s.sco := rfl
@[simp] theorem State.setPnl_ports (s : State) (x : PnlSt) : (s.setPnl x).ports = s.ports := rfl
@[simp] theorem State.setPnl_bkl (s : State) (x : PnlSt) : (s.setPnl x).bkl = s.bkl := rfl
@[simp] theorem State.setPnl_cam (s : State) (x : PnlSt) : (s.setPnl x).cam = s.cam := rfl
@[simp] theorem State.setPnl_pkr (s : State) (x : PnlSt) : (s.setPnl x).pkr = s.pkr := rfl
@[simp] theorem State.setPnl_blt (s : State) (x : PnlSt) : (s.setPnl x).blt = s.blt := rfl
@[simp] theorem State.setPnl_eth (s : State) (x : PnlSt) : (s.setPnl x).eth = s.eth := rfl
@[simp] theorem State.setPnl_cal (s : State) (x : PnlSt) : (s.setPnl x).cal = s.cal := rfl
@[simp] theorem State.setPnl_hlt (s : State) (x : PnlSt) : (s.setPnl x).hlt = s.hlt := rfl
@[simp] theorem State.setPnl_thm (s : State) (x : PnlSt) : (s.setPnl x).thm = s.thm := rfl
@[simp] theorem State.setPnl_watch (s : State) (x : PnlSt) : (s.setPnl x).watch = s.watch := rfl
@[simp] theorem State.setPnl_flash (s : State) (x : PnlSt) : (s.setPnl x).flash = s.flash := rfl
@[simp] theorem State.setPnl_otp (s : State) (x : PnlSt) : (s.setPnl x).otp = s.otp := rfl
@[simp] theorem State.setPnl_fwu (s : State) (x : PnlSt) : (s.setPnl x).fwu = s.fwu := rfl
@[simp] theorem State.setPnl_pins (s : State) (x : PnlSt) : (s.setPnl x).pins = s.pins := rfl
@[simp] theorem State.setPnl_ledgerReq (s : State) (x : PnlSt) : (s.setPnl x).ledgerReq = s.ledgerReq := rfl
@[simp] theorem State.setPnl_out (s : State) (x : PnlSt) : (s.setPnl x).out = s.out := rfl
@[simp] theorem State.setPnl_freeCtr (s : State) (x : PnlSt) : (s.setPnl x).freeCtr = s.freeCtr := rfl
@[simp] theorem State.setPnl_ticks (s : State) (x : PnlSt) : (s.setPnl x).ticks = s.ticks := rfl
@[simp] theorem State.setPnl_pnl (s : State) (x : PnlSt) : (s.setPnl x).pnl = x := rfl
@[simp] theorem State.setPnl_word (s : State) (x : PnlSt) (i : Nat) : (s.setPnl x).word i = s.word i := rfl
@[simp] theorem State.setPnl_get (s : State) (x : PnlSt) (g : Fld) : (s.setPnl x).get g = s.get g := rfl
@[simp] theorem State.setPnl_on (s : State) (x : PnlSt) (g : Fld) : (s.setPnl x).on g = s.on g := rfl
@[simp] theorem State.setPnl_actWord (s : State) (x : PnlSt) (i : Nat) : (s.setPnl x).actWord i = s.actWord i := rfl
@[simp] theorem State.setPnl_getA (s : State) (x : PnlSt) (g : Fld) : (s.setPnl x).getA g = s.getA g := rfl
@[simp] theorem State.setPnl_memByte (s : State) (x : PnlSt) (i : Nat) : (s.setPnl x).memByte i = s.memByte i := rfl

@[simp] theorem State.setChain_member (s : State) (c : Nat) (x : ChainSt) : (s.setChain c x).member = s.member := rfl
@[simp] theorem State.setChain_pending (s : State) (c : Nat) (x : ChainSt) : (s.setChain c x).pending = s.pending := rfl
@[simp] theorem State.setChain_regs (s : State) (c : Nat) (x : ChainSt) : (s.setChain c x).regs = s.regs := rfl
@[simp] theorem State.setChain_act (s : State) (c : Nat) (x : ChainSt) : (s.setChain c x).act = s.act := rfl
@[simp] theorem State.setChain_snap (s : State) (c : Nat) (x : ChainSt) : (s.setChain c x).snap = s.snap := rfl
@[simp] theorem State.setChain_mem (s : State) (c : Nat) (x : ChainSt) : (s.setChain c x).mem = s.mem := rfl
@[simp] theorem State.setChain_poison (s : State) (c : Nat) (x : ChainSt) : (s.setChain c x).poison = s.poison := rfl
@[simp] theorem State.setChain_hostMem (s : State) (c : Nat) (x : ChainSt) : (s.setChain c x).hostMem = s.hostMem := rfl
@[simp] theorem State.setChain_int (s : State) (c : Nat) (x : ChainSt) : (s.setChain c x).int = s.int := rfl
@[simp] theorem State.setChain_hst (s : State) (c : Nat) (x : ChainSt) : (s.setChain c x).hst = s.hst := rfl
@[simp] theorem State.setChain_logWin (s : State) (c : Nat) (x : ChainSt) : (s.setChain c x).logWin = s.logWin := rfl
@[simp] theorem State.setChain_logFirst (s : State) (c : Nat) (x : ChainSt) : (s.setChain c x).logFirst = s.logFirst := rfl
@[simp] theorem State.setChain_mmu (s : State) (c : Nat) (x : ChainSt) : (s.setChain c x).mmu = s.mmu := rfl
@[simp] theorem State.setChain_ptp (s : State) (c : Nat) (x : ChainSt) : (s.setChain c x).ptp = s.ptp := rfl
@[simp] theorem State.setChain_aq (s : State) (c : Nat) (x : ChainSt) : (s.setChain c x).aq = s.aq := rfl
@[simp] theorem State.setChain_dma (s : State) (c : Nat) (x : ChainSt) : (s.setChain c x).dma = s.dma := rfl
@[simp] theorem State.setChain_syn (s : State) (c : Nat) (x : ChainSt) : (s.setChain c x).syn = s.syn := rfl
@[simp] theorem State.setChain_dram (s : State) (c : Nat) (x : ChainSt) : (s.setChain c x).dram = s.dram := rfl
@[simp] theorem State.setChain_sco (s : State) (c : Nat) (x : ChainSt) : (s.setChain c x).sco = s.sco := rfl
@[simp] theorem State.setChain_ports (s : State) (c : Nat) (x : ChainSt) : (s.setChain c x).ports = s.ports := rfl
@[simp] theorem State.setChain_pnl (s : State) (c : Nat) (x : ChainSt) : (s.setChain c x).pnl = s.pnl := rfl
@[simp] theorem State.setChain_cam (s : State) (c : Nat) (x : ChainSt) : (s.setChain c x).cam = s.cam := rfl
@[simp] theorem State.setChain_pkr (s : State) (c : Nat) (x : ChainSt) : (s.setChain c x).pkr = s.pkr := rfl
@[simp] theorem State.setChain_blt (s : State) (c : Nat) (x : ChainSt) : (s.setChain c x).blt = s.blt := rfl
@[simp] theorem State.setChain_eth (s : State) (c : Nat) (x : ChainSt) : (s.setChain c x).eth = s.eth := rfl
@[simp] theorem State.setChain_cal (s : State) (c : Nat) (x : ChainSt) : (s.setChain c x).cal = s.cal := rfl
@[simp] theorem State.setChain_hlt (s : State) (c : Nat) (x : ChainSt) : (s.setChain c x).hlt = s.hlt := rfl
@[simp] theorem State.setChain_thm (s : State) (c : Nat) (x : ChainSt) : (s.setChain c x).thm = s.thm := rfl
@[simp] theorem State.setChain_watch (s : State) (c : Nat) (x : ChainSt) : (s.setChain c x).watch = s.watch := rfl
@[simp] theorem State.setChain_flash (s : State) (c : Nat) (x : ChainSt) : (s.setChain c x).flash = s.flash := rfl
@[simp] theorem State.setChain_otp (s : State) (c : Nat) (x : ChainSt) : (s.setChain c x).otp = s.otp := rfl
@[simp] theorem State.setChain_fwu (s : State) (c : Nat) (x : ChainSt) : (s.setChain c x).fwu = s.fwu := rfl
@[simp] theorem State.setChain_pins (s : State) (c : Nat) (x : ChainSt) : (s.setChain c x).pins = s.pins := rfl
@[simp] theorem State.setChain_ledgerReq (s : State) (c : Nat) (x : ChainSt) : (s.setChain c x).ledgerReq = s.ledgerReq := rfl
@[simp] theorem State.setChain_out (s : State) (c : Nat) (x : ChainSt) : (s.setChain c x).out = s.out := rfl
@[simp] theorem State.setChain_freeCtr (s : State) (c : Nat) (x : ChainSt) : (s.setChain c x).freeCtr = s.freeCtr := rfl
@[simp] theorem State.setChain_ticks (s : State) (c : Nat) (x : ChainSt) : (s.setChain c x).ticks = s.ticks := rfl
@[simp] theorem State.setChain_word (s : State) (c : Nat) (x : ChainSt) (i : Nat) : (s.setChain c x).word i = s.word i := rfl
@[simp] theorem State.setChain_get (s : State) (c : Nat) (x : ChainSt) (g : Fld) : (s.setChain c x).get g = s.get g := rfl
@[simp] theorem State.setChain_on (s : State) (c : Nat) (x : ChainSt) (g : Fld) : (s.setChain c x).on g = s.on g := rfl
@[simp] theorem State.setChain_actWord (s : State) (c : Nat) (x : ChainSt) (i : Nat) : (s.setChain c x).actWord i = s.actWord i := rfl
@[simp] theorem State.setChain_getA (s : State) (c : Nat) (x : ChainSt) (g : Fld) : (s.setChain c x).getA g = s.getA g := rfl
@[simp] theorem State.setChain_memByte (s : State) (c : Nat) (x : ChainSt) (i : Nat) : (s.setChain c x).memByte i = s.memByte i := rfl

@[simp] theorem State.setSlot_member (s : State) (n : Nat) (x : SlotSt) : (s.setSlot n x).member = s.member := rfl
@[simp] theorem State.setSlot_pending (s : State) (n : Nat) (x : SlotSt) : (s.setSlot n x).pending = s.pending := rfl
@[simp] theorem State.setSlot_regs (s : State) (n : Nat) (x : SlotSt) : (s.setSlot n x).regs = s.regs := rfl
@[simp] theorem State.setSlot_act (s : State) (n : Nat) (x : SlotSt) : (s.setSlot n x).act = s.act := rfl
@[simp] theorem State.setSlot_snap (s : State) (n : Nat) (x : SlotSt) : (s.setSlot n x).snap = s.snap := rfl
@[simp] theorem State.setSlot_mem (s : State) (n : Nat) (x : SlotSt) : (s.setSlot n x).mem = s.mem := rfl
@[simp] theorem State.setSlot_poison (s : State) (n : Nat) (x : SlotSt) : (s.setSlot n x).poison = s.poison := rfl
@[simp] theorem State.setSlot_hostMem (s : State) (n : Nat) (x : SlotSt) : (s.setSlot n x).hostMem = s.hostMem := rfl
@[simp] theorem State.setSlot_int (s : State) (n : Nat) (x : SlotSt) : (s.setSlot n x).int = s.int := rfl
@[simp] theorem State.setSlot_hst (s : State) (n : Nat) (x : SlotSt) : (s.setSlot n x).hst = s.hst := rfl
@[simp] theorem State.setSlot_logWin (s : State) (n : Nat) (x : SlotSt) : (s.setSlot n x).logWin = s.logWin := rfl
@[simp] theorem State.setSlot_logFirst (s : State) (n : Nat) (x : SlotSt) : (s.setSlot n x).logFirst = s.logFirst := rfl
@[simp] theorem State.setSlot_mmu (s : State) (n : Nat) (x : SlotSt) : (s.setSlot n x).mmu = s.mmu := rfl
@[simp] theorem State.setSlot_ptp (s : State) (n : Nat) (x : SlotSt) : (s.setSlot n x).ptp = s.ptp := rfl
@[simp] theorem State.setSlot_aq (s : State) (n : Nat) (x : SlotSt) : (s.setSlot n x).aq = s.aq := rfl
@[simp] theorem State.setSlot_dma (s : State) (n : Nat) (x : SlotSt) : (s.setSlot n x).dma = s.dma := rfl
@[simp] theorem State.setSlot_syn (s : State) (n : Nat) (x : SlotSt) : (s.setSlot n x).syn = s.syn := rfl
@[simp] theorem State.setSlot_dram (s : State) (n : Nat) (x : SlotSt) : (s.setSlot n x).dram = s.dram := rfl
@[simp] theorem State.setSlot_sco (s : State) (n : Nat) (x : SlotSt) : (s.setSlot n x).sco = s.sco := rfl
@[simp] theorem State.setSlot_ports (s : State) (n : Nat) (x : SlotSt) : (s.setSlot n x).ports = s.ports := rfl
@[simp] theorem State.setSlot_pnl (s : State) (n : Nat) (x : SlotSt) : (s.setSlot n x).pnl = s.pnl := rfl
@[simp] theorem State.setSlot_bkl (s : State) (n : Nat) (x : SlotSt) : (s.setSlot n x).bkl = s.bkl := rfl
@[simp] theorem State.setSlot_pkr (s : State) (n : Nat) (x : SlotSt) : (s.setSlot n x).pkr = s.pkr := rfl
@[simp] theorem State.setSlot_blt (s : State) (n : Nat) (x : SlotSt) : (s.setSlot n x).blt = s.blt := rfl
@[simp] theorem State.setSlot_eth (s : State) (n : Nat) (x : SlotSt) : (s.setSlot n x).eth = s.eth := rfl
@[simp] theorem State.setSlot_cal (s : State) (n : Nat) (x : SlotSt) : (s.setSlot n x).cal = s.cal := rfl
@[simp] theorem State.setSlot_hlt (s : State) (n : Nat) (x : SlotSt) : (s.setSlot n x).hlt = s.hlt := rfl
@[simp] theorem State.setSlot_thm (s : State) (n : Nat) (x : SlotSt) : (s.setSlot n x).thm = s.thm := rfl
@[simp] theorem State.setSlot_watch (s : State) (n : Nat) (x : SlotSt) : (s.setSlot n x).watch = s.watch := rfl
@[simp] theorem State.setSlot_flash (s : State) (n : Nat) (x : SlotSt) : (s.setSlot n x).flash = s.flash := rfl
@[simp] theorem State.setSlot_otp (s : State) (n : Nat) (x : SlotSt) : (s.setSlot n x).otp = s.otp := rfl
@[simp] theorem State.setSlot_fwu (s : State) (n : Nat) (x : SlotSt) : (s.setSlot n x).fwu = s.fwu := rfl
@[simp] theorem State.setSlot_pins (s : State) (n : Nat) (x : SlotSt) : (s.setSlot n x).pins = s.pins := rfl
@[simp] theorem State.setSlot_ledgerReq (s : State) (n : Nat) (x : SlotSt) : (s.setSlot n x).ledgerReq = s.ledgerReq := rfl
@[simp] theorem State.setSlot_out (s : State) (n : Nat) (x : SlotSt) : (s.setSlot n x).out = s.out := rfl
@[simp] theorem State.setSlot_freeCtr (s : State) (n : Nat) (x : SlotSt) : (s.setSlot n x).freeCtr = s.freeCtr := rfl
@[simp] theorem State.setSlot_ticks (s : State) (n : Nat) (x : SlotSt) : (s.setSlot n x).ticks = s.ticks := rfl
@[simp] theorem State.setSlot_word (s : State) (n : Nat) (x : SlotSt) (i : Nat) : (s.setSlot n x).word i = s.word i := rfl
@[simp] theorem State.setSlot_get (s : State) (n : Nat) (x : SlotSt) (g : Fld) : (s.setSlot n x).get g = s.get g := rfl
@[simp] theorem State.setSlot_on (s : State) (n : Nat) (x : SlotSt) (g : Fld) : (s.setSlot n x).on g = s.on g := rfl
@[simp] theorem State.setSlot_actWord (s : State) (n : Nat) (x : SlotSt) (i : Nat) : (s.setSlot n x).actWord i = s.actWord i := rfl
@[simp] theorem State.setSlot_getA (s : State) (n : Nat) (x : SlotSt) (g : Fld) : (s.setSlot n x).getA g = s.getA g := rfl
@[simp] theorem State.setSlot_memByte (s : State) (n : Nat) (x : SlotSt) (i : Nat) : (s.setSlot n x).memByte i = s.memByte i := rfl

@[simp] theorem State.setCamSet_member (s : State) (c : Option CamSet) : (s.setCamSet c).member = s.member := rfl
@[simp] theorem State.setCamSet_pending (s : State) (c : Option CamSet) : (s.setCamSet c).pending = s.pending := rfl
@[simp] theorem State.setCamSet_regs (s : State) (c : Option CamSet) : (s.setCamSet c).regs = s.regs := rfl
@[simp] theorem State.setCamSet_act (s : State) (c : Option CamSet) : (s.setCamSet c).act = s.act := rfl
@[simp] theorem State.setCamSet_snap (s : State) (c : Option CamSet) : (s.setCamSet c).snap = s.snap := rfl
@[simp] theorem State.setCamSet_mem (s : State) (c : Option CamSet) : (s.setCamSet c).mem = s.mem := rfl
@[simp] theorem State.setCamSet_poison (s : State) (c : Option CamSet) : (s.setCamSet c).poison = s.poison := rfl
@[simp] theorem State.setCamSet_hostMem (s : State) (c : Option CamSet) : (s.setCamSet c).hostMem = s.hostMem := rfl
@[simp] theorem State.setCamSet_int (s : State) (c : Option CamSet) : (s.setCamSet c).int = s.int := rfl
@[simp] theorem State.setCamSet_hst (s : State) (c : Option CamSet) : (s.setCamSet c).hst = s.hst := rfl
@[simp] theorem State.setCamSet_logWin (s : State) (c : Option CamSet) : (s.setCamSet c).logWin = s.logWin := rfl
@[simp] theorem State.setCamSet_logFirst (s : State) (c : Option CamSet) : (s.setCamSet c).logFirst = s.logFirst := rfl
@[simp] theorem State.setCamSet_mmu (s : State) (c : Option CamSet) : (s.setCamSet c).mmu = s.mmu := rfl
@[simp] theorem State.setCamSet_ptp (s : State) (c : Option CamSet) : (s.setCamSet c).ptp = s.ptp := rfl
@[simp] theorem State.setCamSet_aq (s : State) (c : Option CamSet) : (s.setCamSet c).aq = s.aq := rfl
@[simp] theorem State.setCamSet_dma (s : State) (c : Option CamSet) : (s.setCamSet c).dma = s.dma := rfl
@[simp] theorem State.setCamSet_syn (s : State) (c : Option CamSet) : (s.setCamSet c).syn = s.syn := rfl
@[simp] theorem State.setCamSet_dram (s : State) (c : Option CamSet) : (s.setCamSet c).dram = s.dram := rfl
@[simp] theorem State.setCamSet_sco (s : State) (c : Option CamSet) : (s.setCamSet c).sco = s.sco := rfl
@[simp] theorem State.setCamSet_ports (s : State) (c : Option CamSet) : (s.setCamSet c).ports = s.ports := rfl
@[simp] theorem State.setCamSet_pnl (s : State) (c : Option CamSet) : (s.setCamSet c).pnl = s.pnl := rfl
@[simp] theorem State.setCamSet_bkl (s : State) (c : Option CamSet) : (s.setCamSet c).bkl = s.bkl := rfl
@[simp] theorem State.setCamSet_pkr (s : State) (c : Option CamSet) : (s.setCamSet c).pkr = s.pkr := rfl
@[simp] theorem State.setCamSet_blt (s : State) (c : Option CamSet) : (s.setCamSet c).blt = s.blt := rfl
@[simp] theorem State.setCamSet_eth (s : State) (c : Option CamSet) : (s.setCamSet c).eth = s.eth := rfl
@[simp] theorem State.setCamSet_cal (s : State) (c : Option CamSet) : (s.setCamSet c).cal = s.cal := rfl
@[simp] theorem State.setCamSet_hlt (s : State) (c : Option CamSet) : (s.setCamSet c).hlt = s.hlt := rfl
@[simp] theorem State.setCamSet_thm (s : State) (c : Option CamSet) : (s.setCamSet c).thm = s.thm := rfl
@[simp] theorem State.setCamSet_watch (s : State) (c : Option CamSet) : (s.setCamSet c).watch = s.watch := rfl
@[simp] theorem State.setCamSet_flash (s : State) (c : Option CamSet) : (s.setCamSet c).flash = s.flash := rfl
@[simp] theorem State.setCamSet_otp (s : State) (c : Option CamSet) : (s.setCamSet c).otp = s.otp := rfl
@[simp] theorem State.setCamSet_fwu (s : State) (c : Option CamSet) : (s.setCamSet c).fwu = s.fwu := rfl
@[simp] theorem State.setCamSet_pins (s : State) (c : Option CamSet) : (s.setCamSet c).pins = s.pins := rfl
@[simp] theorem State.setCamSet_ledgerReq (s : State) (c : Option CamSet) : (s.setCamSet c).ledgerReq = s.ledgerReq := rfl
@[simp] theorem State.setCamSet_out (s : State) (c : Option CamSet) : (s.setCamSet c).out = s.out := rfl
@[simp] theorem State.setCamSet_freeCtr (s : State) (c : Option CamSet) : (s.setCamSet c).freeCtr = s.freeCtr := rfl
@[simp] theorem State.setCamSet_ticks (s : State) (c : Option CamSet) : (s.setCamSet c).ticks = s.ticks := rfl
@[simp] theorem State.setCamSet_word (s : State) (c : Option CamSet) (i : Nat) : (s.setCamSet c).word i = s.word i := rfl
@[simp] theorem State.setCamSet_get (s : State) (c : Option CamSet) (g : Fld) : (s.setCamSet c).get g = s.get g := rfl
@[simp] theorem State.setCamSet_on (s : State) (c : Option CamSet) (g : Fld) : (s.setCamSet c).on g = s.on g := rfl
@[simp] theorem State.setCamSet_actWord (s : State) (c : Option CamSet) (i : Nat) : (s.setCamSet c).actWord i = s.actWord i := rfl
@[simp] theorem State.setCamSet_getA (s : State) (c : Option CamSet) (g : Fld) : (s.setCamSet c).getA g = s.getA g := rfl
@[simp] theorem State.setCamSet_memByte (s : State) (c : Option CamSet) (i : Nat) : (s.setCamSet c).memByte i = s.memByte i := rfl

@[simp] theorem State.setEthFly_member (s : State) (p : Nat) (l : List EthTx) : (s.setEthFly p l).member = s.member := rfl
@[simp] theorem State.setEthFly_pending (s : State) (p : Nat) (l : List EthTx) : (s.setEthFly p l).pending = s.pending := rfl
@[simp] theorem State.setEthFly_regs (s : State) (p : Nat) (l : List EthTx) : (s.setEthFly p l).regs = s.regs := rfl
@[simp] theorem State.setEthFly_act (s : State) (p : Nat) (l : List EthTx) : (s.setEthFly p l).act = s.act := rfl
@[simp] theorem State.setEthFly_snap (s : State) (p : Nat) (l : List EthTx) : (s.setEthFly p l).snap = s.snap := rfl
@[simp] theorem State.setEthFly_mem (s : State) (p : Nat) (l : List EthTx) : (s.setEthFly p l).mem = s.mem := rfl
@[simp] theorem State.setEthFly_poison (s : State) (p : Nat) (l : List EthTx) : (s.setEthFly p l).poison = s.poison := rfl
@[simp] theorem State.setEthFly_hostMem (s : State) (p : Nat) (l : List EthTx) : (s.setEthFly p l).hostMem = s.hostMem := rfl
@[simp] theorem State.setEthFly_int (s : State) (p : Nat) (l : List EthTx) : (s.setEthFly p l).int = s.int := rfl
@[simp] theorem State.setEthFly_hst (s : State) (p : Nat) (l : List EthTx) : (s.setEthFly p l).hst = s.hst := rfl
@[simp] theorem State.setEthFly_logWin (s : State) (p : Nat) (l : List EthTx) : (s.setEthFly p l).logWin = s.logWin := rfl
@[simp] theorem State.setEthFly_logFirst (s : State) (p : Nat) (l : List EthTx) : (s.setEthFly p l).logFirst = s.logFirst := rfl
@[simp] theorem State.setEthFly_mmu (s : State) (p : Nat) (l : List EthTx) : (s.setEthFly p l).mmu = s.mmu := rfl
@[simp] theorem State.setEthFly_ptp (s : State) (p : Nat) (l : List EthTx) : (s.setEthFly p l).ptp = s.ptp := rfl
@[simp] theorem State.setEthFly_aq (s : State) (p : Nat) (l : List EthTx) : (s.setEthFly p l).aq = s.aq := rfl
@[simp] theorem State.setEthFly_dma (s : State) (p : Nat) (l : List EthTx) : (s.setEthFly p l).dma = s.dma := rfl
@[simp] theorem State.setEthFly_syn (s : State) (p : Nat) (l : List EthTx) : (s.setEthFly p l).syn = s.syn := rfl
@[simp] theorem State.setEthFly_dram (s : State) (p : Nat) (l : List EthTx) : (s.setEthFly p l).dram = s.dram := rfl
@[simp] theorem State.setEthFly_sco (s : State) (p : Nat) (l : List EthTx) : (s.setEthFly p l).sco = s.sco := rfl
@[simp] theorem State.setEthFly_ports (s : State) (p : Nat) (l : List EthTx) : (s.setEthFly p l).ports = s.ports := rfl
@[simp] theorem State.setEthFly_pnl (s : State) (p : Nat) (l : List EthTx) : (s.setEthFly p l).pnl = s.pnl := rfl
@[simp] theorem State.setEthFly_bkl (s : State) (p : Nat) (l : List EthTx) : (s.setEthFly p l).bkl = s.bkl := rfl
@[simp] theorem State.setEthFly_cam (s : State) (p : Nat) (l : List EthTx) : (s.setEthFly p l).cam = s.cam := rfl
@[simp] theorem State.setEthFly_pkr (s : State) (p : Nat) (l : List EthTx) : (s.setEthFly p l).pkr = s.pkr := rfl
@[simp] theorem State.setEthFly_blt (s : State) (p : Nat) (l : List EthTx) : (s.setEthFly p l).blt = s.blt := rfl
@[simp] theorem State.setEthFly_cal (s : State) (p : Nat) (l : List EthTx) : (s.setEthFly p l).cal = s.cal := rfl
@[simp] theorem State.setEthFly_hlt (s : State) (p : Nat) (l : List EthTx) : (s.setEthFly p l).hlt = s.hlt := rfl
@[simp] theorem State.setEthFly_thm (s : State) (p : Nat) (l : List EthTx) : (s.setEthFly p l).thm = s.thm := rfl
@[simp] theorem State.setEthFly_watch (s : State) (p : Nat) (l : List EthTx) : (s.setEthFly p l).watch = s.watch := rfl
@[simp] theorem State.setEthFly_flash (s : State) (p : Nat) (l : List EthTx) : (s.setEthFly p l).flash = s.flash := rfl
@[simp] theorem State.setEthFly_otp (s : State) (p : Nat) (l : List EthTx) : (s.setEthFly p l).otp = s.otp := rfl
@[simp] theorem State.setEthFly_fwu (s : State) (p : Nat) (l : List EthTx) : (s.setEthFly p l).fwu = s.fwu := rfl
@[simp] theorem State.setEthFly_pins (s : State) (p : Nat) (l : List EthTx) : (s.setEthFly p l).pins = s.pins := rfl
@[simp] theorem State.setEthFly_ledgerReq (s : State) (p : Nat) (l : List EthTx) : (s.setEthFly p l).ledgerReq = s.ledgerReq := rfl
@[simp] theorem State.setEthFly_out (s : State) (p : Nat) (l : List EthTx) : (s.setEthFly p l).out = s.out := rfl
@[simp] theorem State.setEthFly_freeCtr (s : State) (p : Nat) (l : List EthTx) : (s.setEthFly p l).freeCtr = s.freeCtr := rfl
@[simp] theorem State.setEthFly_ticks (s : State) (p : Nat) (l : List EthTx) : (s.setEthFly p l).ticks = s.ticks := rfl
@[simp] theorem State.setEthFly_word (s : State) (p : Nat) (l : List EthTx) (i : Nat) : (s.setEthFly p l).word i = s.word i := rfl
@[simp] theorem State.setEthFly_get (s : State) (p : Nat) (l : List EthTx) (g : Fld) : (s.setEthFly p l).get g = s.get g := rfl
@[simp] theorem State.setEthFly_on (s : State) (p : Nat) (l : List EthTx) (g : Fld) : (s.setEthFly p l).on g = s.on g := rfl
@[simp] theorem State.setEthFly_actWord (s : State) (p : Nat) (l : List EthTx) (i : Nat) : (s.setEthFly p l).actWord i = s.actWord i := rfl
@[simp] theorem State.setEthFly_getA (s : State) (p : Nat) (l : List EthTx) (g : Fld) : (s.setEthFly p l).getA g = s.getA g := rfl
@[simp] theorem State.setEthFly_memByte (s : State) (p : Nat) (l : List EthTx) (i : Nat) : (s.setEthFly p l).memByte i = s.memByte i := rfl

@[simp] theorem State.setCal_member (s : State) (x : CalSt) : (s.setCal x).member = s.member := rfl
@[simp] theorem State.setCal_pending (s : State) (x : CalSt) : (s.setCal x).pending = s.pending := rfl
@[simp] theorem State.setCal_regs (s : State) (x : CalSt) : (s.setCal x).regs = s.regs := rfl
@[simp] theorem State.setCal_act (s : State) (x : CalSt) : (s.setCal x).act = s.act := rfl
@[simp] theorem State.setCal_snap (s : State) (x : CalSt) : (s.setCal x).snap = s.snap := rfl
@[simp] theorem State.setCal_mem (s : State) (x : CalSt) : (s.setCal x).mem = s.mem := rfl
@[simp] theorem State.setCal_poison (s : State) (x : CalSt) : (s.setCal x).poison = s.poison := rfl
@[simp] theorem State.setCal_hostMem (s : State) (x : CalSt) : (s.setCal x).hostMem = s.hostMem := rfl
@[simp] theorem State.setCal_int (s : State) (x : CalSt) : (s.setCal x).int = s.int := rfl
@[simp] theorem State.setCal_hst (s : State) (x : CalSt) : (s.setCal x).hst = s.hst := rfl
@[simp] theorem State.setCal_logWin (s : State) (x : CalSt) : (s.setCal x).logWin = s.logWin := rfl
@[simp] theorem State.setCal_logFirst (s : State) (x : CalSt) : (s.setCal x).logFirst = s.logFirst := rfl
@[simp] theorem State.setCal_mmu (s : State) (x : CalSt) : (s.setCal x).mmu = s.mmu := rfl
@[simp] theorem State.setCal_ptp (s : State) (x : CalSt) : (s.setCal x).ptp = s.ptp := rfl
@[simp] theorem State.setCal_aq (s : State) (x : CalSt) : (s.setCal x).aq = s.aq := rfl
@[simp] theorem State.setCal_dma (s : State) (x : CalSt) : (s.setCal x).dma = s.dma := rfl
@[simp] theorem State.setCal_syn (s : State) (x : CalSt) : (s.setCal x).syn = s.syn := rfl
@[simp] theorem State.setCal_dram (s : State) (x : CalSt) : (s.setCal x).dram = s.dram := rfl
@[simp] theorem State.setCal_sco (s : State) (x : CalSt) : (s.setCal x).sco = s.sco := rfl
@[simp] theorem State.setCal_ports (s : State) (x : CalSt) : (s.setCal x).ports = s.ports := rfl
@[simp] theorem State.setCal_pnl (s : State) (x : CalSt) : (s.setCal x).pnl = s.pnl := rfl
@[simp] theorem State.setCal_bkl (s : State) (x : CalSt) : (s.setCal x).bkl = s.bkl := rfl
@[simp] theorem State.setCal_cam (s : State) (x : CalSt) : (s.setCal x).cam = s.cam := rfl
@[simp] theorem State.setCal_pkr (s : State) (x : CalSt) : (s.setCal x).pkr = s.pkr := rfl
@[simp] theorem State.setCal_blt (s : State) (x : CalSt) : (s.setCal x).blt = s.blt := rfl
@[simp] theorem State.setCal_eth (s : State) (x : CalSt) : (s.setCal x).eth = s.eth := rfl
@[simp] theorem State.setCal_hlt (s : State) (x : CalSt) : (s.setCal x).hlt = s.hlt := rfl
@[simp] theorem State.setCal_thm (s : State) (x : CalSt) : (s.setCal x).thm = s.thm := rfl
@[simp] theorem State.setCal_watch (s : State) (x : CalSt) : (s.setCal x).watch = s.watch := rfl
@[simp] theorem State.setCal_flash (s : State) (x : CalSt) : (s.setCal x).flash = s.flash := rfl
@[simp] theorem State.setCal_otp (s : State) (x : CalSt) : (s.setCal x).otp = s.otp := rfl
@[simp] theorem State.setCal_fwu (s : State) (x : CalSt) : (s.setCal x).fwu = s.fwu := rfl
@[simp] theorem State.setCal_pins (s : State) (x : CalSt) : (s.setCal x).pins = s.pins := rfl
@[simp] theorem State.setCal_ledgerReq (s : State) (x : CalSt) : (s.setCal x).ledgerReq = s.ledgerReq := rfl
@[simp] theorem State.setCal_out (s : State) (x : CalSt) : (s.setCal x).out = s.out := rfl
@[simp] theorem State.setCal_freeCtr (s : State) (x : CalSt) : (s.setCal x).freeCtr = s.freeCtr := rfl
@[simp] theorem State.setCal_ticks (s : State) (x : CalSt) : (s.setCal x).ticks = s.ticks := rfl
@[simp] theorem State.setCal_cal (s : State) (x : CalSt) : (s.setCal x).cal = x := rfl
@[simp] theorem State.setCal_word (s : State) (x : CalSt) (i : Nat) : (s.setCal x).word i = s.word i := rfl
@[simp] theorem State.setCal_get (s : State) (x : CalSt) (g : Fld) : (s.setCal x).get g = s.get g := rfl
@[simp] theorem State.setCal_on (s : State) (x : CalSt) (g : Fld) : (s.setCal x).on g = s.on g := rfl
@[simp] theorem State.setCal_actWord (s : State) (x : CalSt) (i : Nat) : (s.setCal x).actWord i = s.actWord i := rfl
@[simp] theorem State.setCal_getA (s : State) (x : CalSt) (g : Fld) : (s.setCal x).getA g = s.getA g := rfl
@[simp] theorem State.setCal_memByte (s : State) (x : CalSt) (i : Nat) : (s.setCal x).memByte i = s.memByte i := rfl

@[simp] theorem State.setHlt_member (s : State) (x : HltSt) : (s.setHlt x).member = s.member := rfl
@[simp] theorem State.setHlt_pending (s : State) (x : HltSt) : (s.setHlt x).pending = s.pending := rfl
@[simp] theorem State.setHlt_regs (s : State) (x : HltSt) : (s.setHlt x).regs = s.regs := rfl
@[simp] theorem State.setHlt_act (s : State) (x : HltSt) : (s.setHlt x).act = s.act := rfl
@[simp] theorem State.setHlt_snap (s : State) (x : HltSt) : (s.setHlt x).snap = s.snap := rfl
@[simp] theorem State.setHlt_mem (s : State) (x : HltSt) : (s.setHlt x).mem = s.mem := rfl
@[simp] theorem State.setHlt_poison (s : State) (x : HltSt) : (s.setHlt x).poison = s.poison := rfl
@[simp] theorem State.setHlt_hostMem (s : State) (x : HltSt) : (s.setHlt x).hostMem = s.hostMem := rfl
@[simp] theorem State.setHlt_int (s : State) (x : HltSt) : (s.setHlt x).int = s.int := rfl
@[simp] theorem State.setHlt_hst (s : State) (x : HltSt) : (s.setHlt x).hst = s.hst := rfl
@[simp] theorem State.setHlt_logWin (s : State) (x : HltSt) : (s.setHlt x).logWin = s.logWin := rfl
@[simp] theorem State.setHlt_logFirst (s : State) (x : HltSt) : (s.setHlt x).logFirst = s.logFirst := rfl
@[simp] theorem State.setHlt_mmu (s : State) (x : HltSt) : (s.setHlt x).mmu = s.mmu := rfl
@[simp] theorem State.setHlt_ptp (s : State) (x : HltSt) : (s.setHlt x).ptp = s.ptp := rfl
@[simp] theorem State.setHlt_aq (s : State) (x : HltSt) : (s.setHlt x).aq = s.aq := rfl
@[simp] theorem State.setHlt_dma (s : State) (x : HltSt) : (s.setHlt x).dma = s.dma := rfl
@[simp] theorem State.setHlt_syn (s : State) (x : HltSt) : (s.setHlt x).syn = s.syn := rfl
@[simp] theorem State.setHlt_dram (s : State) (x : HltSt) : (s.setHlt x).dram = s.dram := rfl
@[simp] theorem State.setHlt_sco (s : State) (x : HltSt) : (s.setHlt x).sco = s.sco := rfl
@[simp] theorem State.setHlt_ports (s : State) (x : HltSt) : (s.setHlt x).ports = s.ports := rfl
@[simp] theorem State.setHlt_pnl (s : State) (x : HltSt) : (s.setHlt x).pnl = s.pnl := rfl
@[simp] theorem State.setHlt_bkl (s : State) (x : HltSt) : (s.setHlt x).bkl = s.bkl := rfl
@[simp] theorem State.setHlt_cam (s : State) (x : HltSt) : (s.setHlt x).cam = s.cam := rfl
@[simp] theorem State.setHlt_pkr (s : State) (x : HltSt) : (s.setHlt x).pkr = s.pkr := rfl
@[simp] theorem State.setHlt_blt (s : State) (x : HltSt) : (s.setHlt x).blt = s.blt := rfl
@[simp] theorem State.setHlt_eth (s : State) (x : HltSt) : (s.setHlt x).eth = s.eth := rfl
@[simp] theorem State.setHlt_cal (s : State) (x : HltSt) : (s.setHlt x).cal = s.cal := rfl
@[simp] theorem State.setHlt_thm (s : State) (x : HltSt) : (s.setHlt x).thm = s.thm := rfl
@[simp] theorem State.setHlt_watch (s : State) (x : HltSt) : (s.setHlt x).watch = s.watch := rfl
@[simp] theorem State.setHlt_flash (s : State) (x : HltSt) : (s.setHlt x).flash = s.flash := rfl
@[simp] theorem State.setHlt_otp (s : State) (x : HltSt) : (s.setHlt x).otp = s.otp := rfl
@[simp] theorem State.setHlt_fwu (s : State) (x : HltSt) : (s.setHlt x).fwu = s.fwu := rfl
@[simp] theorem State.setHlt_pins (s : State) (x : HltSt) : (s.setHlt x).pins = s.pins := rfl
@[simp] theorem State.setHlt_ledgerReq (s : State) (x : HltSt) : (s.setHlt x).ledgerReq = s.ledgerReq := rfl
@[simp] theorem State.setHlt_out (s : State) (x : HltSt) : (s.setHlt x).out = s.out := rfl
@[simp] theorem State.setHlt_freeCtr (s : State) (x : HltSt) : (s.setHlt x).freeCtr = s.freeCtr := rfl
@[simp] theorem State.setHlt_ticks (s : State) (x : HltSt) : (s.setHlt x).ticks = s.ticks := rfl
@[simp] theorem State.setHlt_hlt (s : State) (x : HltSt) : (s.setHlt x).hlt = x := rfl
@[simp] theorem State.setHlt_word (s : State) (x : HltSt) (i : Nat) : (s.setHlt x).word i = s.word i := rfl
@[simp] theorem State.setHlt_get (s : State) (x : HltSt) (g : Fld) : (s.setHlt x).get g = s.get g := rfl
@[simp] theorem State.setHlt_on (s : State) (x : HltSt) (g : Fld) : (s.setHlt x).on g = s.on g := rfl
@[simp] theorem State.setHlt_actWord (s : State) (x : HltSt) (i : Nat) : (s.setHlt x).actWord i = s.actWord i := rfl
@[simp] theorem State.setHlt_getA (s : State) (x : HltSt) (g : Fld) : (s.setHlt x).getA g = s.getA g := rfl
@[simp] theorem State.setHlt_memByte (s : State) (x : HltSt) (i : Nat) : (s.setHlt x).memByte i = s.memByte i := rfl

@[simp] theorem State.setThm_member (s : State) (x : ThmSt) : (s.setThm x).member = s.member := rfl
@[simp] theorem State.setThm_pending (s : State) (x : ThmSt) : (s.setThm x).pending = s.pending := rfl
@[simp] theorem State.setThm_regs (s : State) (x : ThmSt) : (s.setThm x).regs = s.regs := rfl
@[simp] theorem State.setThm_act (s : State) (x : ThmSt) : (s.setThm x).act = s.act := rfl
@[simp] theorem State.setThm_snap (s : State) (x : ThmSt) : (s.setThm x).snap = s.snap := rfl
@[simp] theorem State.setThm_mem (s : State) (x : ThmSt) : (s.setThm x).mem = s.mem := rfl
@[simp] theorem State.setThm_poison (s : State) (x : ThmSt) : (s.setThm x).poison = s.poison := rfl
@[simp] theorem State.setThm_hostMem (s : State) (x : ThmSt) : (s.setThm x).hostMem = s.hostMem := rfl
@[simp] theorem State.setThm_int (s : State) (x : ThmSt) : (s.setThm x).int = s.int := rfl
@[simp] theorem State.setThm_hst (s : State) (x : ThmSt) : (s.setThm x).hst = s.hst := rfl
@[simp] theorem State.setThm_logWin (s : State) (x : ThmSt) : (s.setThm x).logWin = s.logWin := rfl
@[simp] theorem State.setThm_logFirst (s : State) (x : ThmSt) : (s.setThm x).logFirst = s.logFirst := rfl
@[simp] theorem State.setThm_mmu (s : State) (x : ThmSt) : (s.setThm x).mmu = s.mmu := rfl
@[simp] theorem State.setThm_ptp (s : State) (x : ThmSt) : (s.setThm x).ptp = s.ptp := rfl
@[simp] theorem State.setThm_aq (s : State) (x : ThmSt) : (s.setThm x).aq = s.aq := rfl
@[simp] theorem State.setThm_dma (s : State) (x : ThmSt) : (s.setThm x).dma = s.dma := rfl
@[simp] theorem State.setThm_syn (s : State) (x : ThmSt) : (s.setThm x).syn = s.syn := rfl
@[simp] theorem State.setThm_dram (s : State) (x : ThmSt) : (s.setThm x).dram = s.dram := rfl
@[simp] theorem State.setThm_sco (s : State) (x : ThmSt) : (s.setThm x).sco = s.sco := rfl
@[simp] theorem State.setThm_ports (s : State) (x : ThmSt) : (s.setThm x).ports = s.ports := rfl
@[simp] theorem State.setThm_pnl (s : State) (x : ThmSt) : (s.setThm x).pnl = s.pnl := rfl
@[simp] theorem State.setThm_bkl (s : State) (x : ThmSt) : (s.setThm x).bkl = s.bkl := rfl
@[simp] theorem State.setThm_cam (s : State) (x : ThmSt) : (s.setThm x).cam = s.cam := rfl
@[simp] theorem State.setThm_pkr (s : State) (x : ThmSt) : (s.setThm x).pkr = s.pkr := rfl
@[simp] theorem State.setThm_blt (s : State) (x : ThmSt) : (s.setThm x).blt = s.blt := rfl
@[simp] theorem State.setThm_eth (s : State) (x : ThmSt) : (s.setThm x).eth = s.eth := rfl
@[simp] theorem State.setThm_cal (s : State) (x : ThmSt) : (s.setThm x).cal = s.cal := rfl
@[simp] theorem State.setThm_hlt (s : State) (x : ThmSt) : (s.setThm x).hlt = s.hlt := rfl
@[simp] theorem State.setThm_watch (s : State) (x : ThmSt) : (s.setThm x).watch = s.watch := rfl
@[simp] theorem State.setThm_flash (s : State) (x : ThmSt) : (s.setThm x).flash = s.flash := rfl
@[simp] theorem State.setThm_otp (s : State) (x : ThmSt) : (s.setThm x).otp = s.otp := rfl
@[simp] theorem State.setThm_fwu (s : State) (x : ThmSt) : (s.setThm x).fwu = s.fwu := rfl
@[simp] theorem State.setThm_pins (s : State) (x : ThmSt) : (s.setThm x).pins = s.pins := rfl
@[simp] theorem State.setThm_ledgerReq (s : State) (x : ThmSt) : (s.setThm x).ledgerReq = s.ledgerReq := rfl
@[simp] theorem State.setThm_out (s : State) (x : ThmSt) : (s.setThm x).out = s.out := rfl
@[simp] theorem State.setThm_freeCtr (s : State) (x : ThmSt) : (s.setThm x).freeCtr = s.freeCtr := rfl
@[simp] theorem State.setThm_ticks (s : State) (x : ThmSt) : (s.setThm x).ticks = s.ticks := rfl
@[simp] theorem State.setThm_thm (s : State) (x : ThmSt) : (s.setThm x).thm = x := rfl
@[simp] theorem State.setThm_word (s : State) (x : ThmSt) (i : Nat) : (s.setThm x).word i = s.word i := rfl
@[simp] theorem State.setThm_get (s : State) (x : ThmSt) (g : Fld) : (s.setThm x).get g = s.get g := rfl
@[simp] theorem State.setThm_on (s : State) (x : ThmSt) (g : Fld) : (s.setThm x).on g = s.on g := rfl
@[simp] theorem State.setThm_actWord (s : State) (x : ThmSt) (i : Nat) : (s.setThm x).actWord i = s.actWord i := rfl
@[simp] theorem State.setThm_getA (s : State) (x : ThmSt) (g : Fld) : (s.setThm x).getA g = s.getA g := rfl
@[simp] theorem State.setThm_memByte (s : State) (x : ThmSt) (i : Nat) : (s.setThm x).memByte i = s.memByte i := rfl

@[simp] theorem State.setWatch_member (s : State) (x : WatchSt) : (s.setWatch x).member = s.member := rfl
@[simp] theorem State.setWatch_pending (s : State) (x : WatchSt) : (s.setWatch x).pending = s.pending := rfl
@[simp] theorem State.setWatch_regs (s : State) (x : WatchSt) : (s.setWatch x).regs = s.regs := rfl
@[simp] theorem State.setWatch_act (s : State) (x : WatchSt) : (s.setWatch x).act = s.act := rfl
@[simp] theorem State.setWatch_snap (s : State) (x : WatchSt) : (s.setWatch x).snap = s.snap := rfl
@[simp] theorem State.setWatch_mem (s : State) (x : WatchSt) : (s.setWatch x).mem = s.mem := rfl
@[simp] theorem State.setWatch_poison (s : State) (x : WatchSt) : (s.setWatch x).poison = s.poison := rfl
@[simp] theorem State.setWatch_hostMem (s : State) (x : WatchSt) : (s.setWatch x).hostMem = s.hostMem := rfl
@[simp] theorem State.setWatch_int (s : State) (x : WatchSt) : (s.setWatch x).int = s.int := rfl
@[simp] theorem State.setWatch_hst (s : State) (x : WatchSt) : (s.setWatch x).hst = s.hst := rfl
@[simp] theorem State.setWatch_logWin (s : State) (x : WatchSt) : (s.setWatch x).logWin = s.logWin := rfl
@[simp] theorem State.setWatch_logFirst (s : State) (x : WatchSt) : (s.setWatch x).logFirst = s.logFirst := rfl
@[simp] theorem State.setWatch_mmu (s : State) (x : WatchSt) : (s.setWatch x).mmu = s.mmu := rfl
@[simp] theorem State.setWatch_ptp (s : State) (x : WatchSt) : (s.setWatch x).ptp = s.ptp := rfl
@[simp] theorem State.setWatch_aq (s : State) (x : WatchSt) : (s.setWatch x).aq = s.aq := rfl
@[simp] theorem State.setWatch_dma (s : State) (x : WatchSt) : (s.setWatch x).dma = s.dma := rfl
@[simp] theorem State.setWatch_syn (s : State) (x : WatchSt) : (s.setWatch x).syn = s.syn := rfl
@[simp] theorem State.setWatch_dram (s : State) (x : WatchSt) : (s.setWatch x).dram = s.dram := rfl
@[simp] theorem State.setWatch_sco (s : State) (x : WatchSt) : (s.setWatch x).sco = s.sco := rfl
@[simp] theorem State.setWatch_ports (s : State) (x : WatchSt) : (s.setWatch x).ports = s.ports := rfl
@[simp] theorem State.setWatch_pnl (s : State) (x : WatchSt) : (s.setWatch x).pnl = s.pnl := rfl
@[simp] theorem State.setWatch_bkl (s : State) (x : WatchSt) : (s.setWatch x).bkl = s.bkl := rfl
@[simp] theorem State.setWatch_cam (s : State) (x : WatchSt) : (s.setWatch x).cam = s.cam := rfl
@[simp] theorem State.setWatch_pkr (s : State) (x : WatchSt) : (s.setWatch x).pkr = s.pkr := rfl
@[simp] theorem State.setWatch_blt (s : State) (x : WatchSt) : (s.setWatch x).blt = s.blt := rfl
@[simp] theorem State.setWatch_eth (s : State) (x : WatchSt) : (s.setWatch x).eth = s.eth := rfl
@[simp] theorem State.setWatch_cal (s : State) (x : WatchSt) : (s.setWatch x).cal = s.cal := rfl
@[simp] theorem State.setWatch_hlt (s : State) (x : WatchSt) : (s.setWatch x).hlt = s.hlt := rfl
@[simp] theorem State.setWatch_thm (s : State) (x : WatchSt) : (s.setWatch x).thm = s.thm := rfl
@[simp] theorem State.setWatch_flash (s : State) (x : WatchSt) : (s.setWatch x).flash = s.flash := rfl
@[simp] theorem State.setWatch_otp (s : State) (x : WatchSt) : (s.setWatch x).otp = s.otp := rfl
@[simp] theorem State.setWatch_fwu (s : State) (x : WatchSt) : (s.setWatch x).fwu = s.fwu := rfl
@[simp] theorem State.setWatch_pins (s : State) (x : WatchSt) : (s.setWatch x).pins = s.pins := rfl
@[simp] theorem State.setWatch_ledgerReq (s : State) (x : WatchSt) : (s.setWatch x).ledgerReq = s.ledgerReq := rfl
@[simp] theorem State.setWatch_out (s : State) (x : WatchSt) : (s.setWatch x).out = s.out := rfl
@[simp] theorem State.setWatch_freeCtr (s : State) (x : WatchSt) : (s.setWatch x).freeCtr = s.freeCtr := rfl
@[simp] theorem State.setWatch_ticks (s : State) (x : WatchSt) : (s.setWatch x).ticks = s.ticks := rfl
@[simp] theorem State.setWatch_watch (s : State) (x : WatchSt) : (s.setWatch x).watch = x := rfl
@[simp] theorem State.setWatch_word (s : State) (x : WatchSt) (i : Nat) : (s.setWatch x).word i = s.word i := rfl
@[simp] theorem State.setWatch_get (s : State) (x : WatchSt) (g : Fld) : (s.setWatch x).get g = s.get g := rfl
@[simp] theorem State.setWatch_on (s : State) (x : WatchSt) (g : Fld) : (s.setWatch x).on g = s.on g := rfl
@[simp] theorem State.setWatch_actWord (s : State) (x : WatchSt) (i : Nat) : (s.setWatch x).actWord i = s.actWord i := rfl
@[simp] theorem State.setWatch_getA (s : State) (x : WatchSt) (g : Fld) : (s.setWatch x).getA g = s.getA g := rfl
@[simp] theorem State.setWatch_memByte (s : State) (x : WatchSt) (i : Nat) : (s.setWatch x).memByte i = s.memByte i := rfl

@[simp] theorem State.setPins_member (s : State) (x : PinSt) : (s.setPins x).member = s.member := rfl
@[simp] theorem State.setPins_pending (s : State) (x : PinSt) : (s.setPins x).pending = s.pending := rfl
@[simp] theorem State.setPins_regs (s : State) (x : PinSt) : (s.setPins x).regs = s.regs := rfl
@[simp] theorem State.setPins_act (s : State) (x : PinSt) : (s.setPins x).act = s.act := rfl
@[simp] theorem State.setPins_snap (s : State) (x : PinSt) : (s.setPins x).snap = s.snap := rfl
@[simp] theorem State.setPins_mem (s : State) (x : PinSt) : (s.setPins x).mem = s.mem := rfl
@[simp] theorem State.setPins_poison (s : State) (x : PinSt) : (s.setPins x).poison = s.poison := rfl
@[simp] theorem State.setPins_hostMem (s : State) (x : PinSt) : (s.setPins x).hostMem = s.hostMem := rfl
@[simp] theorem State.setPins_int (s : State) (x : PinSt) : (s.setPins x).int = s.int := rfl
@[simp] theorem State.setPins_hst (s : State) (x : PinSt) : (s.setPins x).hst = s.hst := rfl
@[simp] theorem State.setPins_logWin (s : State) (x : PinSt) : (s.setPins x).logWin = s.logWin := rfl
@[simp] theorem State.setPins_logFirst (s : State) (x : PinSt) : (s.setPins x).logFirst = s.logFirst := rfl
@[simp] theorem State.setPins_mmu (s : State) (x : PinSt) : (s.setPins x).mmu = s.mmu := rfl
@[simp] theorem State.setPins_ptp (s : State) (x : PinSt) : (s.setPins x).ptp = s.ptp := rfl
@[simp] theorem State.setPins_aq (s : State) (x : PinSt) : (s.setPins x).aq = s.aq := rfl
@[simp] theorem State.setPins_dma (s : State) (x : PinSt) : (s.setPins x).dma = s.dma := rfl
@[simp] theorem State.setPins_syn (s : State) (x : PinSt) : (s.setPins x).syn = s.syn := rfl
@[simp] theorem State.setPins_dram (s : State) (x : PinSt) : (s.setPins x).dram = s.dram := rfl
@[simp] theorem State.setPins_sco (s : State) (x : PinSt) : (s.setPins x).sco = s.sco := rfl
@[simp] theorem State.setPins_ports (s : State) (x : PinSt) : (s.setPins x).ports = s.ports := rfl
@[simp] theorem State.setPins_pnl (s : State) (x : PinSt) : (s.setPins x).pnl = s.pnl := rfl
@[simp] theorem State.setPins_bkl (s : State) (x : PinSt) : (s.setPins x).bkl = s.bkl := rfl
@[simp] theorem State.setPins_cam (s : State) (x : PinSt) : (s.setPins x).cam = s.cam := rfl
@[simp] theorem State.setPins_pkr (s : State) (x : PinSt) : (s.setPins x).pkr = s.pkr := rfl
@[simp] theorem State.setPins_blt (s : State) (x : PinSt) : (s.setPins x).blt = s.blt := rfl
@[simp] theorem State.setPins_eth (s : State) (x : PinSt) : (s.setPins x).eth = s.eth := rfl
@[simp] theorem State.setPins_cal (s : State) (x : PinSt) : (s.setPins x).cal = s.cal := rfl
@[simp] theorem State.setPins_hlt (s : State) (x : PinSt) : (s.setPins x).hlt = s.hlt := rfl
@[simp] theorem State.setPins_thm (s : State) (x : PinSt) : (s.setPins x).thm = s.thm := rfl
@[simp] theorem State.setPins_watch (s : State) (x : PinSt) : (s.setPins x).watch = s.watch := rfl
@[simp] theorem State.setPins_flash (s : State) (x : PinSt) : (s.setPins x).flash = s.flash := rfl
@[simp] theorem State.setPins_otp (s : State) (x : PinSt) : (s.setPins x).otp = s.otp := rfl
@[simp] theorem State.setPins_fwu (s : State) (x : PinSt) : (s.setPins x).fwu = s.fwu := rfl
@[simp] theorem State.setPins_ledgerReq (s : State) (x : PinSt) : (s.setPins x).ledgerReq = s.ledgerReq := rfl
@[simp] theorem State.setPins_out (s : State) (x : PinSt) : (s.setPins x).out = s.out := rfl
@[simp] theorem State.setPins_freeCtr (s : State) (x : PinSt) : (s.setPins x).freeCtr = s.freeCtr := rfl
@[simp] theorem State.setPins_ticks (s : State) (x : PinSt) : (s.setPins x).ticks = s.ticks := rfl
@[simp] theorem State.setPins_pins (s : State) (x : PinSt) : (s.setPins x).pins = x := rfl
@[simp] theorem State.setPins_word (s : State) (x : PinSt) (i : Nat) : (s.setPins x).word i = s.word i := rfl
@[simp] theorem State.setPins_get (s : State) (x : PinSt) (g : Fld) : (s.setPins x).get g = s.get g := rfl
@[simp] theorem State.setPins_on (s : State) (x : PinSt) (g : Fld) : (s.setPins x).on g = s.on g := rfl
@[simp] theorem State.setPins_actWord (s : State) (x : PinSt) (i : Nat) : (s.setPins x).actWord i = s.actWord i := rfl
@[simp] theorem State.setPins_getA (s : State) (x : PinSt) (g : Fld) : (s.setPins x).getA g = s.getA g := rfl
@[simp] theorem State.setPins_memByte (s : State) (x : PinSt) (i : Nat) : (s.setPins x).memByte i = s.memByte i := rfl

end Sys2Proof.Machine
end

