-- ==== Sys2Proof/Laws/Registers.lean ====
section
/-! SUPPORT. Laws of registers: a read of a word or a field after a write, and what the register operations leave alone. -/
namespace Sys2Proof.Machine

/-! ### Fields of a number -/

theorem bitsOf_lt (n lsb w : Nat) : bitsOf n lsb w < 2 ^ w := Nat.mod_lt _ (by positivity)

/-- A number with a field replaced, as its three parts. -/
theorem setBits_parts (n lsb w v : Nat) :
    setBits n lsb w v = 2 ^ lsb * (2 ^ w * (n / 2 ^ lsb / 2 ^ w) + v % 2 ^ w) + n % 2 ^ lsb := by
  have h1 := Nat.div_add_mod n (2 ^ lsb)
  have h2 := Nat.div_add_mod (n / 2 ^ lsb) (2 ^ w)
  unfold setBits bitsOf
  generalize n / 2 ^ lsb = q at *
  generalize q / 2 ^ w = p at *
  generalize q % 2 ^ w = m at *
  generalize n % 2 ^ lsb = r at *
  subst h2
  subst h1
  have : 2 ^ lsb * (2 ^ w * p + m) + r - m * 2 ^ lsb = 2 ^ lsb * (2 ^ w * p) + r := by
    rw [Nat.mul_add, Nat.mul_comm m]; omega
  rw [this]; ring

/-- The bits of a number with a field replaced, one at a time. -/
theorem testBit_setBits (n lsb w v i : Nat) :
    (setBits n lsb w v).testBit i = if lsb ≤ i ∧ i < lsb + w then v.testBit (i - lsb) else n.testBit i := by
  rw [setBits_parts, Nat.testBit_two_pow_mul_add _ (Nat.mod_lt _ (by positivity)), Nat.testBit_two_pow_mul_add _ (Nat.mod_lt _ (by positivity))]
  simp only [Nat.testBit_mod_two_pow, Nat.testBit_div_two_pow]
  by_cases h : i < lsb
  · simp [h, show ¬ lsb ≤ i by omega]
  · by_cases h2 : i < lsb + w
    · simp [h, h2, show lsb ≤ i by omega, show i - lsb < w by omega]
    · simp [h, h2, show ¬ i - lsb < w by omega, show i - lsb - w + w + lsb = i by omega]

theorem testBit_bitsOf (n lsb w i : Nat) : (bitsOf n lsb w).testBit i = (decide (i < w) && n.testBit (i + lsb)) := by
  simp [bitsOf, Nat.testBit_mod_two_pow, Nat.testBit_div_two_pow]

/-- A field that a write replaces reads as the value written. -/
theorem bitsOf_setBits_same (n lsb w v : Nat) : bitsOf (setBits n lsb w v) lsb w = v % 2 ^ w := by
  apply Nat.eq_of_testBit_eq
  intro i
  simp only [testBit_bitsOf, testBit_setBits, Nat.testBit_mod_two_pow]
  by_cases h : i < w
  · simp [h, show lsb ≤ i + lsb ∧ i + lsb < lsb + w by omega]
  · simp [h]

/-- A field apart from the one that a write replaces reads as before. -/
theorem bitsOf_setBits_other (n v : Nat) {lsb w lsb' w' : Nat} (h : lsb' + w' ≤ lsb ∨ lsb + w ≤ lsb') :
    bitsOf (setBits n lsb w v) lsb' w' = bitsOf n lsb' w' := by
  apply Nat.eq_of_testBit_eq
  intro i
  simp only [testBit_bitsOf, testBit_setBits]
  by_cases h1 : i < w'
  · simp [h1, show ¬ (lsb ≤ i + lsb' ∧ i + lsb' < lsb + w) by omega]
  · simp [h1]

/-- A field inside a word reads the same when the word is cut to 32 bits. -/
theorem bitsOf_mod (n : Nat) {lsb w : Nat} (h : lsb + w ≤ 32) : bitsOf (n % 2 ^ 32) lsb w = bitsOf n lsb w := by
  apply Nat.eq_of_testBit_eq
  intro i
  simp only [testBit_bitsOf, Nat.testBit_mod_two_pow]
  by_cases h1 : i < w
  · simp [h1, show i + lsb < 32 by omega]
  · simp [h1]

/-! ### Words and fields -/

/-- A register word after a write of a word. -/
theorem State.word_setWord (s : State) (a v b : Nat) : (s.setWord a v).word b = if b = a then v % 2 ^ 32 else s.word b := by
  unfold State.word State.setWord
  simp only [mapGet_mapPut]
  split <;> simp

theorem State.word_setWord_other (s : State) {a b : Nat} (v : Nat) (h : b ≠ a) : (s.setWord a v).word b = s.word b := by
  simp [State.word_setWord, h]

theorem State.word_lt (s : State) (a : Nat) : s.word a < 2 ^ 32 := by unfold State.word; exact BitVec.isLt _

/-- A write of a field leaves every other word. -/
theorem State.word_put_other (s : State) (f : Fld) (v : Nat) {a : Nat} (h : a ≠ f.addr) : (s.put f v).word a = s.word a :=
  s.word_setWord_other _ h

/-- A field reads as the value written into it, cut to its width. -/
theorem State.get_put_same (s : State) (f : Fld) (v : Nat) (h : f.lsb + f.width ≤ 32) : (s.put f v).get f = v % 2 ^ f.width := by
  simp [State.get, State.put, State.word_setWord, -Nat.reducePow, bitsOf_mod _ h, bitsOf_setBits_same]

/-- A field of another word, or apart in the same word, reads as before. -/
theorem State.get_put_other (s : State) (f g : Fld) (v : Nat)
    (h : g.addr ≠ f.addr ∨ g.lsb + g.width ≤ 32 ∧ (g.lsb + g.width ≤ f.lsb ∨ f.lsb + f.width ≤ g.lsb)) : (s.put f v).get g = s.get g := by
  rcases Nat.decEq g.addr f.addr with e | e
  · simp [State.get, State.word_put_other s f v e]
  · obtain ⟨h1, h2⟩ := h.resolve_left (fun h => h e)
    simp only [State.get, State.put, State.word_setWord, e, if_true, bitsOf_mod _ h1, bitsOf_setBits_other _ _ h2]

theorem State.on_put_other (s : State) (f g : Fld) (v : Nat)
    (h : g.addr ≠ f.addr ∨ g.lsb + g.width ≤ 32 ∧ (g.lsb + g.width ≤ f.lsb ∨ f.lsb + f.width ≤ g.lsb)) : (s.put f v).on g = s.on g := by
  simp [State.on, State.get_put_other s f g v h]

/-- A counter counts, and wraps in its width. -/
theorem State.get_bump_same (s : State) (f : Fld) (h : f.lsb + f.width ≤ 32) : (s.bump f).get f = (s.get f + 1) % 2 ^ f.width := by
  simp [State.bump, State.bumpBy, State.get_put_same _ _ _ h]

theorem State.get_bump_other (s : State) (f g : Fld)
    (h : g.addr ≠ f.addr ∨ g.lsb + g.width ≤ 32 ∧ (g.lsb + g.width ≤ f.lsb ∨ f.lsb + f.width ≤ g.lsb)) : (s.bump f).get g = s.get g := by
  simp [State.bump, State.bumpBy, State.get_put_other _ _ _ _ h]

/-- A run of words leaves the addresses outside it. -/
theorem State.word_putWords_other (s : State) (a : Nat) (ws : List Nat) (b : Nat) (h : b < a ∨ a + 4 * ws.length ≤ b) :
    (s.putWords a ws).word b = s.word b := by
  unfold State.putWords
  induction ws generalizing s a with
  | nil => rfl
  | cons w ws ih =>
    simp only [List.length_cons] at h
    rw [List.foldl_cons, ih (s.setWord a w) (a + 4) (by omega), State.word_setWord_other _ _ (by omega)]

theorem RegsBut.refl (s : State) (as : List Nat) : RegsBut s s as := fun _ _ => rfl

theorem RegsBut.trans {s u v : State} {as : List Nat} (h1 : RegsBut s u as) (h2 : RegsBut u v as) : RegsBut s v as :=
  fun a h => (h2 a h).trans (h1 a h)

theorem RegsBut.put {s u : State} {as : List Nat} (h : RegsBut s u as) (f : Fld) (v : Nat) (hf : f.addr ∈ as) : RegsBut s (u.put f v) as :=
  fun a ha => by rw [State.word_put_other u f v (fun e => ha (by rw [e]; exact hf))]; exact h a ha

/-! ### Interrupt causes (R405, R406) -/

/-- What raising a cause can do: it writes registers and pending bits, and nothing else. -/
theorem State.raise_frame (s : State) (c : Nat) : s.raise c = { s with regs := (s.raise c).regs, int := (s.raise c).int } := by
  unfold State.raise; dsimp only; split <;> rfl

/-- The registers that raising a cause can write: the cause's word and the word of the vector's active bit. -/
theorem State.raise_regs (s : State) (c : Nat) :
    RegsBut s (s.raise c) [(causeFld c).addr, (vactFld ((s.put (causeFld c) 1).get (causeVecFld c))).addr] := by
  have h0 := RegsBut.put (RegsBut.refl s [(causeFld c).addr, (vactFld ((s.put (causeFld c) 1).get (causeVecFld c))).addr]) (causeFld c) 1 (by simp)
  unfold State.raise; dsimp only
  split
  · exact fun a ha => (RegsBut.put h0 _ 1 (by simp)) a ha
  · exact h0

/-- The cause raised is set. -/
theorem State.raise_sets (s : State) {c : Nat} (hc : c < 256) : (s.raise c).get (causeFld c) = 1 := by
  have hw : (causeFld c).lsb + (causeFld c).width ≤ 32 := by simp only [causeFld]; omega
  have h1 : (s.put (causeFld c) 1).get (causeFld c) = 1 := by rw [State.get_put_same _ _ _ hw]; rfl
  unfold State.raise; dsimp only
  split
  · rw [State.setPending_get, State.get_put_other, h1]
    left
    show 0x30000 + c / 32 * 4 ≠ 0x30200 + (s.put (causeFld c) 1).get (causeVecFld c) / 32 * 4
    omega
  · exact h1

end Sys2Proof.Machine
end

