-- ==== Sys2Proof/Laws/Memory.lean ====
section
/-! SUPPORT. Laws of memory: a read of a byte after a write, the canonical form, and all that a write through a translation can change. -/
namespace Sys2Proof.Machine

/-! ### HBM -/

/-- A byte outside a run of bytes written reads as before. -/
theorem State.memByte_memPut_other (s : State) (pa : Nat) (bs : List Byte) (a : Nat) (h : a < pa ∨ pa + bs.length ≤ a) :
    (s.memPut pa bs).memByte a = s.memByte a := mapGet_mapPutList_other byteDefault bs s.mem pa a h

/-- A byte of a run written reads as written. -/
theorem State.memByte_memPut_at (s : State) (pa : Nat) (bs : List Byte) (i : Nat) (h : i < bs.length) :
    (s.memPut pa bs).memByte (pa + i) = bs[i] := mapGet_mapPutList_at byteDefault bs s.mem pa i h

/-- The bytes read after a write of the same run are the bytes written. -/
theorem State.memBytes_memPut (s : State) (pa : Nat) (bs : List Byte) : (s.memPut pa bs).memBytes pa bs.length = bs := by
  have hget : ∀ (m : List (Nat × Byte)) (n k : Nat), mapGetList byteDefault m k n = (List.range n).map (fun i => mapGet byteDefault m (k + i)) := by
    intro m n
    induction n with
    | zero => intro k; rfl
    | succ n ih =>
      intro k
      rw [mapGetList, ih, List.range_succ_eq_map]
      simp [Function.comp_def, Nat.add_comm, Nat.add_left_comm]
  apply List.ext_getElem
  · simp [State.memBytes, hget]
  · intro i h1 h2
    simp only [State.memBytes, hget, List.getElem_map, List.getElem_range]
    exact s.memByte_memPut_at pa bs i h2

/-- A write of HBM keeps the canonical form. -/
theorem State.memPut_wf (s : State) (pa : Nat) (bs : List Byte) (h : Memory.wf s.mem = true) : Memory.wf (s.memPut pa bs).mem = true :=
  Memory.wf_put pa bs h

/-! ### Device physical space -/

/-- All that a write of device physical space can change. -/
def OnlyMemory (s u : State) : Prop := u = { s with mem := u.mem, poison := u.poison, hostMem := u.hostMem }

theorem OnlyMemory.refl (s : State) : OnlyMemory s s := rfl

theorem OnlyMemory.trans {s u v : State} (h1 : OnlyMemory s u) (h2 : OnlyMemory u v) : OnlyMemory s v := by
  unfold OnlyMemory at *
  rw [h1] at h2
  exact h2

/-- Both memories are in canonical form. -/
def MemWf (s : State) : Prop := Memory.wf s.mem = true ∧ Memory.wf s.hostMem = true

theorem memWf_reset : MemWf State.reset := ⟨rfl, rfl⟩

theorem State.physPut_only (s : State) (pa : Nat) (bs : List Byte) : OnlyMemory s (s.physPut pa bs) := by
  unfold State.physPut; split <;> rfl

theorem State.physPut_wf (s : State) (pa : Nat) (bs : List Byte) (h : MemWf s) : MemWf (s.physPut pa bs) := by
  unfold State.physPut
  split
  · exact ⟨s.memPut_wf pa bs h.1, h.2⟩
  · exact ⟨h.1, Memory.wf_put _ _ h.2⟩

/-- What a write through a translation can do: where it succeeds, every byte has a target that can be written, nothing but the
memories changes, and they keep their canonical form. -/
theorem State.vwrite_only {s u : State} {ctx va : Nat} {bs : List Byte} (h : s.vwrite ctx va bs = .ok u) :
    OnlyMemory s u ∧ (MemWf s → MemWf u) ∧ (s.vtargets ctx va .write bs.length).isOk = true := by
  have fold : ∀ (rs : List (Nat × List Byte)) (s : State),
      OnlyMemory s (rs.foldl (fun s r => s.physPut r.1 r.2) s) ∧ (MemWf s → MemWf (rs.foldl (fun s r => s.physPut r.1 r.2) s)) := by
    intro rs
    induction rs with
    | nil => exact fun s => ⟨rfl, id⟩
    | cons r rs ih =>
      intro s
      obtain ⟨h1, h2⟩ := ih (s.physPut r.1 r.2)
      exact ⟨(s.physPut_only r.1 r.2).trans h1, fun h => h2 (s.physPut_wf r.1 r.2 h)⟩
  unfold State.vwrite at h
  cases hv : s.vtargets ctx va .write bs.length with
  | error e => simp [hv] at h
  | ok ps =>
    simp only [hv, Except.ok.injEq] at h
    subst h
    exact ⟨(fold _ s).1, (fold _ s).2, rfl⟩

/-- A write through a translation leaves every register. -/
theorem State.vwrite_word {s u : State} {ctx va : Nat} {bs : List Byte} (h : s.vwrite ctx va bs = .ok u) (a : Nat) : u.word a = s.word a := by
  have := (State.vwrite_only h).1
  unfold OnlyMemory at this
  rw [this]; rfl

end Sys2Proof.Machine
end

