-- ==== Sys2Proof/Laws/Reports.lean ====
section
/-! SUPPORT. Laws of reporting: all that a log entry, a fault report, an access error, an interrupt or an event to a core can change. -/
namespace Sys2Proof.Machine

/-! ### The error log and the fault ring (R355, R356, R396, R397, R421–R425) -/

/-- All that a report can change: registers and pending interrupts, the host interface's own state, the log's windows, the last fault, the tests that health queues,
and the memory that the mirror and the fault ring write, whose canonical form it keeps. -/
def OnlyReport (s u : State) : Prop :=
  u = { s with regs := u.regs, int := u.int, mem := u.mem, poison := u.poison, hostMem := u.hostMem, hst := u.hst, mmu := u.mmu,
               logWin := u.logWin, logFirst := u.logFirst, hlt := u.hlt } ∧ (MemWf s → MemWf u)

theorem OnlyReport.refl (s : State) : OnlyReport s s := ⟨rfl, fun h => h⟩

theorem OnlyReport.trans {s u v : State} (h1 : OnlyReport s u) (h2 : OnlyReport u v) : OnlyReport s v := by
  refine ⟨?_, fun h => h2.2 (h1.2 h)⟩
  have a := h1.1
  have b := h2.1
  rw [a] at b
  exact b

theorem OnlyReport.ite {s u v : State} {p : Prop} [Decidable p] (h1 : OnlyReport s u) (h2 : OnlyReport s v) : OnlyReport s (if p then u else v) := by
  split <;> assumption

theorem State.setWord_report (s : State) (a v : Nat) : OnlyReport s (s.setWord a v) := ⟨rfl, fun h => h⟩
theorem State.put_report (s : State) (f : Fld) (v : Nat) : OnlyReport s (s.put f v) := ⟨rfl, fun h => h⟩
theorem State.bump_report (s : State) (f : Fld) : OnlyReport s (s.bump f) := ⟨rfl, fun h => h⟩

theorem State.putWords_report (s : State) (a : Nat) (ws : List Nat) : OnlyReport s (s.putWords a ws) := by
  unfold State.putWords
  induction ws generalizing s a with
  | nil => exact .refl s
  | cons w ws ih => rw [List.foldl_cons]; exact (s.setWord_report a w).trans (ih _ _)

theorem State.raise_report (s : State) (c : Nat) : OnlyReport s (s.raise c) := by
  rw [s.raise_frame c]; exact ⟨rfl, fun h => h⟩

theorem State.vwrite_report {s u : State} {ctx va : Nat} {bs : List Byte} (h : s.vwrite ctx va bs = .ok u) : OnlyReport s u := by
  obtain ⟨h1, h2, -⟩ := State.vwrite_only h
  unfold OnlyMemory at h1
  refine ⟨?_, h2⟩
  rw [h1]

/-- R421–R425. All that entering an event in the on-chip log can change. -/
theorem State.logBase_report (s : State) (blk arr inst code sev detail : Nat) : OnlyReport s (s.logBase blk arr inst code sev detail).1 := by
  unfold State.logBase
  dsimp only
  have h0 := s.bump_report (R.HLT_BLKCNT_COUNT blk)
  generalize s.bump (R.HLT_BLKCNT_COUNT blk) = u at h0 ⊢
  split
  · exact h0.trans (u.putWords_report _ _)
  · split
    · exact h0.trans (((u.putWords_report _ _).trans (State.putWords_report _ _ _)).trans (State.bump_report _ _))
    · split
      · split
        · exact h0.trans (((u.bump_report _).trans (State.bump_report _ _)).trans (State.putWords_report _ _ _))
        · exact h0.trans (((((u.bump_report _).trans (State.bump_report _ _)).trans (State.putWords_report _ _ _)).trans (State.put_report _ _ _)).trans
            (State.raise_report _ _))
      · have win : ∀ (w : State) (l : List LogWindow), OnlyReport s w → OnlyReport s { w with logWin := l } := fun w l h => h.trans ⟨rfl, fun h => h⟩
        have first : ∀ (w : State) (ws : List Nat), OnlyReport s w →
            OnlyReport s (if w.logFirst = true then { w.putWords 0x150100 ws with logFirst := false } else w) := by
          intro w ws h
          split
          · exact h.trans ((w.putWords_report 0x150100 ws).trans ⟨rfl, fun h => h⟩)
          · exact h
        exact win _ _ (first _ _ (h0.trans ((((u.putWords_report _ _).trans (State.putWords_report _ _ _)).trans (State.bump_report _ _)).trans
          (State.bump_report _ _))))

/-- R356. All that a record in the fault ring can change. -/
theorem State.fringWrite_report (s : State) (client id ctx va cause info : Nat) : OnlyReport s (s.fringWrite client id ctx va cause info) := by
  unfold State.fringWrite
  dsimp only
  split
  · rename_i l hl
    refine (s.bump_report (R.MMU_CNT_COUNT 3)).trans ?_
    refine OnlyReport.trans (u := { s.bump (R.MMU_CNT_COUNT 3) with mmu := { (s.bump (R.MMU_CNT_COUNT 3)).mmu with last := some { l with count := l.count + 1 } } })
      ⟨rfl, fun h => h⟩ ?_
    split
    · exact State.vwrite_report ‹_›
    · exact .refl _
  · split
    · exact (s.bump_report _).trans (State.put_report _ _ _)
    · split
      · exact (s.bump_report _).trans (State.put_report _ _ _)
      · exact ((State.vwrite_report ‹_›).trans (State.bump_report _ _)).trans ⟨rfl, fun h => h⟩

/-- R355, R356. All that a translation failure's report can change, the mirror apart. -/
theorem State.mmuFaultBase_report (s : State) (client id ctx va : Nat) (acc : Acc) (cls cause : Nat) :
    OnlyReport s (s.mmuFaultBase client id ctx va acc cls cause).1 :=
  ((((((s.put_report _ _).trans (State.put_report _ _ _)).trans (State.put_report _ _ _)).trans (State.bump_report _ _)).trans
    (State.fringWrite_report _ _ _ _ _ _ _)).trans (State.logBase_report _ _ _ _ _ _ _)).trans (State.raise_report _ _)

/-- R424. All that the mirror can change. -/
theorem State.mirror_report (s : State) (e : Option LogEntry) : OnlyReport s (s.mirror e) := by
  unfold State.mirror
  dsimp only
  split
  · exact .refl _
  · split
    · split
      · exact State.vwrite_report ‹_›
      · have h := ((s.put_report R.HLT_CTL_MIRROR_EN 0).trans (State.put_report _ R.HLT_STAT_MIRROR_FAULT 1)).trans (State.bump_report _ (R.HLT_CNT_COUNT 12))
        split
        · exact h.trans (State.mmuFaultBase_report _ _ _ _ _ _ _ _)
        · exact h
    · exact .refl _

/-- R416. All that noting an error for a test can change. -/
theorem State.noteTest_report (s : State) (blk src sev seq : Nat) : OnlyReport s (s.noteTest blk src sev seq) := by
  have hlt : ∀ (s : State) (x : HltSt), OnlyReport s { s with hlt := x } := fun _ _ => ⟨rfl, fun h => h⟩
  unfold State.noteTest
  dsimp only
  split
  · exact .refl _
  · split
    · split
      · exact .refl _
      · exact hlt _ _
    · split
      · split
        · split
          · exact hlt _ _
          · exact (hlt s { s.hlt with corr := tabDel s.hlt.corr src }).trans (hlt _ _)
        · exact hlt _ _
      · exact .refl _

/-- R421–R425. All that raising an event to the error log can change. -/
theorem State.log_report (s : State) (blk arr inst code sev detail : Nat) : OnlyReport s (s.log blk arr inst code sev detail) :=
  ((s.logBase_report blk arr inst code sev detail).trans (State.noteTest_report _ _ _ _ _)).trans (State.mirror_report _ _)

/-- R355, R356. All that reporting a translation failure can change. -/
theorem State.mmuFault_report (s : State) (client id ctx va : Nat) (acc : Acc) (cls cause : Nat) :
    OnlyReport s (s.mmuFault client id ctx va acc cls cause) :=
  (s.mmuFaultBase_report client id ctx va acc cls cause).trans (State.mirror_report _ _)

/-- R397. All that a failed request to the host window can change. -/
theorem State.hostWinErr_report (s : State) (off kind : Nat) : OnlyReport s (s.hostWinErr off kind) := by
  unfold State.hostWinErr
  dsimp only
  refine (s.bump_report (R.HST_CNT_COUNT 1)).trans (OnlyReport.trans (.ite (.refl _) ?_) (State.raise_report _ _))
  exact (((State.put_report _ _ _).trans (State.put_report _ _ _)).trans (State.put_report _ _ _)).trans (State.put_report _ _ _)

/-- R337. All that a walk's poisoned read can change. -/
theorem State.walkRead_report (s : State) (ctx va cause : Nat) : OnlyReport s (s.walkRead ctx va cause) := by
  unfold State.walkRead
  split
  · split
    · exact s.bump_report _
    · exact .refl s
  · exact .refl s

/-- R355, R337, R397. All that a client's failed access can change. -/
theorem State.accFail_report (s : State) (client id ctx va : Nat) (acc : Acc) (cls : Nat) (e : AccErr) :
    OnlyReport s (s.accFail client id ctx va acc cls e) := by
  cases e with
  | mmu c => exact (s.walkRead_report ctx va c).trans (State.mmuFault_report _ _ _ _ _ _ _ _)
  | closed => exact .refl s
  | poison pa => exact s.bump_report _
  | host off kind => exact .ite ⟨rfl, fun h => h⟩ (s.hostWinErr_report off kind)

/-- R396. All that an access error can change. -/
theorem State.accessError_report (s : State) (bar off kind : Nat) : OnlyReport s (s.accessError bar off kind) := by
  unfold State.accessError
  dsimp only
  refine (s.bump_report (R.HST_CNT_COUNT 0)).trans (OnlyReport.trans (.ite (.refl _) ?_) (State.raise_report _ _))
  exact ((((State.put_report _ _ _).trans (State.put_report _ _ _)).trans (State.put_report _ _ _)).trans (State.put_report _ _ _)).trans
    (State.put_report _ _ _)

/-! ### Events of steward cores (R131, R400, R401) -/

/-- All that an event to a steward core can change: registers, and the queue of that core. -/
def OnlyEvent (s u : State) (c : Nat) : Prop :=
  u = { s with regs := u.regs, aq := { s.aq with stw := u.aq.stw } } ∧ ∀ k, k ≠ c → u.stw k = s.stw k

theorem State.stw_setStw (s : State) (c : Nat) (q : StwSt) (k : Nat) : (s.setStw c q).stw k = if k = c then q else s.stw k := by
  simp [State.setStw, State.stw, mapGet_mapPut]

theorem State.setStw_event (s : State) (c : Nat) (q : StwSt) : OnlyEvent s (s.setStw c q) c :=
  ⟨rfl, fun k h => by simp [State.stw_setStw, h]⟩

/-- R131. What delivering an event does: it stands last among the events that the core has not taken. -/
theorem State.sendEvent_queues (s : State) (c : Nat) (e : Ev) :
    OnlyEvent s (s.sendEvent c e) c ∧ ((s.stw c).held = [] ∨ 256 ≤ (s.stw c).evq.length →
      ((s.sendEvent c e).stw c).evq ++ ((s.sendEvent c e).stw c).held = (s.stw c).evq ++ (s.stw c).held ++ [e]) := by
  unfold State.sendEvent
  dsimp only
  split
  · rename_i h
    exact ⟨s.setStw_event c _, fun _ => by simp [State.stw_setStw, h.2]⟩
  · exact ⟨s.setStw_event c _, fun _ => by simp [State.stw_setStw]⟩

/-- R400, R401. All that a doorbell can change. -/
theorem State.ring_event (s : State) (c n val : Nat) : OnlyEvent s (s.ring c n val) c := by
  have put : ∀ (u : State) (f : Fld), OnlyEvent s u c → OnlyEvent s (u.bump f) c := by
    intro u f h
    refine ⟨?_, fun k hk => h.2 k hk⟩
    have := h.1
    rw [this]; rfl
  have set : ∀ (u : State) (q : StwSt), OnlyEvent s u c → OnlyEvent s (u.setStw c q) c := by
    intro u q h
    refine ⟨?_, fun k hk => by rw [State.stw_setStw, if_neg hk]; exact h.2 k hk⟩
    have := h.1
    rw [this]; rfl
  have h0 : OnlyEvent s s c := ⟨rfl, fun _ _ => rfl⟩
  unfold State.ring
  dsimp only
  split
  · exact put _ _ (set _ _ (put _ _ h0))
  · split
    · exact put _ _ (set _ _ (put _ _ h0))
    · unfold State.sendEvent
      dsimp only
      split <;> exact set _ _ (put _ _ h0)

/-! ### What leaves the chip -/

/-- All that an output can change: the list of outputs, newest first. -/
theorem State.emit_out (s : State) (o : Out) : s.emit o = { s with out := o :: s.out } := rfl

/-- A free value moves the counter that stands for it on by one, and nothing else. -/
theorem State.fresh_frame (s : State) : s.fresh.2 = { s with freeCtr := s.freeCtr + 1 } := rfl

end Sys2Proof.Machine
end

