-- ==== Sys2Proof/Laws/Threads.lean ====
section
/-! SUPPORT. Laws of Aqken threads: records, registers, and what issuing an instruction does. -/
namespace Sys2Proof.Machine

/-! ### Records -/

theorem State.thr_setThr (s : State) (k : Nat) (t : ThreadSt) (j : Nat) : (s.setThr k t).thr j = if j = k then t else s.thr j := by
  simp [State.setThr, State.thr, mapGet_mapPut]

@[simp] theorem State.thr_setThr_same (s : State) (k : Nat) (t : ThreadSt) : (s.setThr k t).thr k = t := by simp [State.thr_setThr]

/-- A replaced record is the only thing that changes. -/
theorem onlyThread_setThr (s : State) (t : Thr) (x : ThreadSt) : OnlyThread s (s.setThr (thrKey t) x) t :=
  ⟨rfl, fun k h => by simp [State.thr_setThr, h]⟩

@[simp] theorem State.th_setThr (s : State) (t : Thr) (x : ThreadSt) : (s.setThr (thrKey t) x).th t = x := by simp [State.th]

/-! ### Issue -/

/-- What an instruction that issues does: it runs its effect on its thread's record. -/
theorem issue_legal {s : State} {t : Thr} {x : Touch} {legal : Bool} (e : ThreadSt → State) (h : Issues s t x) (hl : legal = true) :
    s.issue t legal x e = e (s.th t) := by
  obtain ⟨h1, h2, h3⟩ := h
  simp only [State.th] at h2 h3 ⊢
  simp [State.issue, h1, h2, h3, hl]

/-- What an illegal word does where the thread may issue: ILLEGAL. -/
theorem issue_illegal {s : State} {t : Thr} {x : Touch} (e : ThreadSt → State) (h : s.canIssue t = true) :
    s.issue t false x e = s.faultThread t 5 0 (s.th t).pc.toNat := by
  simp [State.issue, h, State.th]

/-! ### Registers -/

theorem foldl_range_rec {σ : Type} {P : Nat → σ → Prop} {f : σ → Nat → σ} {s : σ} (n : Nat) (h0 : P 0 s)
    (hs : ∀ i x, i < n → P i x → P (i + 1) (f x i)) : P n (foldRange n f s) := by
  have : ∀ k, k ≤ n → P k ((List.range k).foldl f s) := by
    intro k
    induction k with
    | zero => intro _; simpa using h0
    | succ k ih =>
      intro hk
      rw [List.range_succ, List.foldl_append]
      exact hs k _ (by omega) (ih (by omega))
  exact this n (Nat.le_refl n)

theorem ThreadSt.vw_setV (t : ThreadSt) (d l v n j : Nat) (hl : l < 64) (hj : j < 64) :
    (t.setV d l v).vw n j = if n = d ∧ j = l then BitVec.ofNat 32 v else t.vw n j := by
  have : n * 64 + j = d * 64 + l ↔ n = d ∧ j = l := by omega
  simp only [ThreadSt.vw, ThreadSt.setV, mapGet_mapPut, this]

theorem ThreadSt.vr_eq (t : ThreadSt) (n l : Nat) : t.vr n l = (t.vw n l).toNat := rfl

theorem ThreadSt.sr_eq (t : ThreadSt) (n : Nat) : t.sr n = (t.sw n).toNat := by
  unfold ThreadSt.sr ThreadSt.sw; split <;> rfl

/-- R140. What writing the active lanes does: each active lane of the destination takes its value, and no other lane changes. -/
theorem ThreadSt.vw_mapLanes (t : ThreadSt) (mask d : Nat) (val : Nat → Nat) (n j : Nat) (hj : j < 64) :
    (t.mapLanes mask d val).vw n j = if n = d ∧ bitAt mask j = true then BitVec.ofNat 32 (val j) else t.vw n j := by
  have := foldl_range_rec (P := fun k x => x.vw n j = if n = d ∧ bitAt mask j = true ∧ j < k then BitVec.ofNat 32 (val j) else t.vw n j)
    (f := fun x l => if bitAt mask l then x.setV d l (val l) else x) (s := t) 64 (by simp) (by
      intro i x hi hx
      by_cases hb : bitAt mask i = true
      · simp only [hb, if_true, ThreadSt.vw_setV x d i (val i) n j hi hj, hx]
        by_cases h1 : n = d <;> by_cases h2 : j = i <;> simp_all
        have : j < i ↔ j < i + 1 := by omega
        simp [this]
      · simp only [hb, Bool.false_eq_true, if_false]
        rw [hx]
        by_cases h2 : j = i
        · subst h2; simp_all
        · have : j < i + 1 ↔ j < i := by omega
          simp only [this])
  simpa [ThreadSt.mapLanes, hj] using this

theorem ThreadSt.mapLanes_frame (t : ThreadSt) (mask d : Nat) (val : Nat → Nat) :
    t.mapLanes mask d val = { t with v := (t.mapLanes mask d val).v } := by
  unfold ThreadSt.mapLanes
  exact foldl_range_rec (P := fun _ (x : ThreadSt) => x = { t with v := x.v })
    (f := fun x l => if bitAt mask l then x.setV d l (val l) else x) 64 rfl (by
      intro i x _ hx
      split
      · rw [ThreadSt.setV]; rw [hx]
      · exact hx)

theorem ThreadSt.sw_setS (t : ThreadSt) (d v n : Nat) :
    (t.setS d v).sw n = if n = d ∧ n ≠ 0 then BitVec.ofNat 64 v else t.sw n := by
  unfold ThreadSt.setS ThreadSt.sw
  by_cases hd : d = 0
  · by_cases hn : n = 0 <;> simp [hd, hn]
  · by_cases hn : n = 0
    · simp [hn]
    · simp [hd, hn, mapGet_mapPut]

theorem ThreadSt.setS_frame (t : ThreadSt) (d v : Nat) : t.setS d v = { t with s := (t.setS d v).s } := by
  unfold ThreadSt.setS; split <;> rfl

theorem ThreadSt.setP_frame (t : ThreadSt) (isS : Bool) (d v : Nat) : t.setP isS d v = { t with p := (t.setP isS d v).p } := by
  unfold ThreadSt.setP; split <;> rfl

/-- A vector result as a whole. -/
theorem wroteLanes_setThr (s : State) (t : Thr) (mask d : Nat) (val : Nat → Nat) :
    WroteLanes s (s.setThr (thrKey t) ((s.th t).mapLanes mask d val).next) t mask d (fun l => BitVec.ofNat 32 (val l)) := by
  refine ⟨onlyThread_setThr _ _ _, ?_, ?_⟩
  · rw [State.th_setThr]
    have := ThreadSt.mapLanes_frame (s.th t) mask d val
    rw [ThreadSt.next]; rw [this]
  · intro n l hl
    rw [State.th_setThr]
    exact ThreadSt.vw_mapLanes (s.th t) mask d val n l hl

/-- A scalar result as a whole. -/
theorem wroteScalar_setThr (s : State) (t : Thr) (run : Bool) (d v : Nat) :
    WroteScalar s (s.setThr (thrKey t) (if run then (s.th t).setS d v else s.th t).next) t run d (BitVec.ofNat 64 v) := by
  refine ⟨onlyThread_setThr _ _ _, ?_, ?_⟩
  · rw [State.th_setThr]
    cases run
    · rfl
    · have := ThreadSt.setS_frame (s.th t) d v
      simp only [if_true, ThreadSt.next]; rw [this]
  · intro n
    rw [State.th_setThr]
    cases run
    · simp [ThreadSt.next, ThreadSt.sw]
    · simpa [ThreadSt.next, ThreadSt.sw] using ThreadSt.sw_setS (s.th t) d v n

/-- R140. What a data instruction of format A does in its vector form. -/
theorem runA_vector {s : State} {t : Thr} {f : FmtA} {u : Srcs} {mod : Bool} (fv fs : Nat → Nat → Nat → Nat)
    (hs : f.scl = false) (hl : legalA (thrIsS t) f u mod = true) (hi : Issues s t (touchA f u true)) :
    WroteLanes s (s.runA t f u mod fv fs) t (s.mask t f.pred f.neg) f.d
      (fun l => BitVec.ofNat 32 (fv ((s.th t).vr f.a l) ((s.th t).srcB f l) ((s.th t).vr f.rc l))) := by
  unfold State.runA
  rw [issue_legal _ hi hl]
  simp only [ThreadSt.dataA, hs, Bool.false_eq_true, if_false]
  exact wroteLanes_setThr s t _ _ _

/-- R140. What a data instruction of format A does in its scalar form. -/
theorem runA_scalar {s : State} {t : Thr} {f : FmtA} {u : Srcs} {mod : Bool} (fv fs : Nat → Nat → Nat → Nat)
    (hs : f.scl = true) (hl : legalA (thrIsS t) f u mod = true) (hi : Issues s t (touchA f u true)) :
    WroteScalar s (s.runA t f u mod fv fs) t (decide (s.mask t f.pred f.neg ≠ 0)) f.d
      (BitVec.ofNat 64 (fs ((s.th t).sr f.a) ((s.th t).sr f.b) ((s.th t).sr f.rc))) := by
  unfold State.runA
  rw [issue_legal _ hi hl]
  simp only [ThreadSt.dataA, hs, if_true]
  have h := wroteScalar_setThr s t (decide (s.mask t f.pred f.neg ≠ 0)) f.d (fs ((s.th t).sr f.a) ((s.th t).sr f.b) ((s.th t).sr f.rc))
  unfold State.mask at h ⊢
  by_cases hm : (s.th t).eff (thrIsS t) f.pred f.neg = 0 <;> simpa [hm] using h

end Sys2Proof.Machine
end

