-- ==== Sys2Proof/Machine/Package.lean ====
section
/-! DEFINITION. The balls of the package: their names, and the net of each (R496–R505). Nothing of the state depends on them. -/
namespace Sys2Proof.Machine

/-- R506. A signal of the package; `n` tells the N ball of a differential pair from the P ball. -/
inductive Signal where
  | wylTx (tile lane : Nat) (n : Bool) | wylRx (tile : Nat) (n : Bool)
  | pcieTx (k : Nat) (n : Bool) | pcieRx (k : Nat) (n : Bool) | pcieRefclk (n : Bool) | perstN
  | ethTx (p : Nat) (n : Bool) | ethRx (p : Nat) (n : Bool) | ethRefclk (n : Bool) | coreRefclk (n : Bool) | panelRefclk (n : Bool)
  | gpio (i : Nat) | genlockIn | ppsIn | ppsOut | tck | tms | tdi | tdo | trstN
  | camClk (port : Nat) (n : Bool) | camD (port lane : Nat) (n : Bool) | cciScl (i : Nat) | cciSda (i : Nat)
  | spXtalIn | spXtalOut | spPorstN | porstN | wrstN | thermTripN | faultN
  | pnlPwrEn (i : Nat) | pnlPgood (i : Nat) | avsClk | avsMdata | avsSdata
  | bklClk (c : Nat) | bklDo (c : Nat) | bklDi (c : Nat) | bklLat (c : Nat)
  deriving DecidableEq, Repr

/-- R505. The net of a ball: ground, a supply, or a signal. -/
inductive Net where
  | vss | vddCore | vddSram | hbmVddc | hbmVddql | hbmVpp | vddWl | vddhWl | vddPcie | vddPcieH | vddio | vddSp | vddioSp
  | sig (x : Signal)
  deriving DecidableEq, Repr

/-- R496. L(1) to L(19), counted here from 0. -/
def rowLetters : List Char := ['A', 'B', 'C', 'D', 'E', 'F', 'G', 'H', 'J', 'K', 'L', 'M', 'N', 'P', 'T', 'U', 'V', 'W', 'Y']

/-- R496. The name of row `i`, from 1 to 82. -/
def rowName (i : Nat) : List Char :=
  if i ≤ 19 then [rowLetters.getD (i - 1) 'A'] else [['A', 'B', 'C', 'D'].getD ((i - 20) / 19) 'A', rowLetters.getD ((i - 20) % 19) 'A']

/-- R496. The name of the ball in row `r` and column `c`. -/
def ballName (r c : Nat) : String := String.ofList (rowName r ++ Nat.toDigits 10 c)

/-- A supply on even places and ground on odd ones. -/
def evenly (x : Net) (i : Nat) : Net := if i % 2 = 0 then x else .vss

/-- R498. The ball of place (`u`, `d`) in the cell of a tile port. -/
def cellBall (t u d : Nat) : Nat × Nat :=
  let b := t % 16 / 8
  let k := t % 8
  match t / 16 with
  | 0 => (6 * b + d + 1, 14 + 7 * k + u)
  | 1 => (14 + 7 * k + u, 82 - 6 * b - d)
  | 2 => (82 - 6 * b - d, 69 - 7 * k - u)
  | _ => (69 - 7 * k - u, 6 * b + d + 1)

/-- R498. What a tile port's cell holds. -/
def cellNet (t u d : Nat) : Net :=
  match d with
  | 5 => if u = 2 ∨ u = 4 then .vss else if u = 3 then .vddhWl else .vddWl
  | 1 | 3 => .vss
  | _ =>
    if u % 3 = 0 then .vss
    else
      let lane := d + u / 3
      if lane = 5 then .sig (.wylRx t (decide (u % 3 = 2))) else .sig (.wylTx t lane (decide (u % 3 = 2)))

/-- R497, R498. The net at `along` (0–55, clockwise) and `deep` (0–11, inward) on a side's band. -/
def bandNet (side along deep : Nat) : Net := cellNet (16 * side + 8 * (deep / 6) + along / 7) (along % 7) (deep % 6)

/-- R499. A row of four differential pairs. -/
def pairNet (b : Nat) (x : Nat → Bool → Signal) : Net := if b % 3 = 0 then .vss else .sig (x (b / 3) (decide (b % 3 = 2)))

/-- R500. The north-west corner: PCIe. -/
def nwNet (a b : Nat) : Net :=
  match a % 3, a with
  | _, 11 => match b with
    | 1 => .sig (.pcieRefclk false) | 2 => .sig (.pcieRefclk true) | 4 => .sig .perstN
    | 6 | 8 => .vddPcie | 10 => .vddPcieH | _ => .vss
  | 0, _ => pairNet b (fun j n => .pcieTx (4 * (a / 3) + j) n)
  | 1, _ => pairNet b (fun j n => .pcieRx (4 * (a / 3) + j) n)
  | _, 5 => evenly .vddPcie b
  | _, 8 => evenly .vddPcieH b
  | _, _ => .vss

/-- R501. The north-east corner: Ethernet, clocks and general input and output. -/
def neNet (a b : Nat) : Net :=
  match a with
  | 0 => match b with
    | 1 => .sig (.ethTx 0 false) | 2 => .sig (.ethTx 0 true) | 4 => .sig (.ethTx 1 false) | 5 => .sig (.ethTx 1 true)
    | 7 => .sig (.ethRefclk false) | 8 => .sig (.ethRefclk true) | 10 => .sig (.coreRefclk false) | 11 => .sig (.coreRefclk true)
    | _ => .vss
  | 2 => match b with
    | 1 => .sig (.ethRx 0 false) | 2 => .sig (.ethRx 0 true) | 4 => .sig (.ethRx 1 false) | 5 => .sig (.ethRx 1 true)
    | 7 => .sig (.panelRefclk false) | 8 => .sig (.panelRefclk true) | _ => .vss
  | 3 => if b % 2 = 0 then .vddWl else if b % 4 = 1 then .vddhWl else .vss
  | 5 => .sig (.gpio b)
  | 7 => .sig (.gpio (12 + b))
  | 9 => match b with
    | 8 => .sig .genlockIn | 9 => .sig .ppsIn | 10 => .sig .ppsOut | 11 => .vss | _ => .sig (.gpio (24 + b))
  | 11 => match b with
    | 0 => .sig .tck | 1 => .sig .tms | 2 => .sig .tdi | 3 => .sig .tdo | 4 => .sig .trstN | _ => evenly .vddio (b + 1)
  | 1 => .vss
  | _ => evenly .vddio (b + 1)

/-- R502. The south-east corner: the cameras. -/
def seNet (a b : Nat) : Net :=
  match a with
  | 10 => if b < 8 then .sig (.cciScl b) else evenly .vddio b
  | 11 => if b < 8 then .sig (.cciSda b) else evenly .vddio (b + 1)
  | _ => pairNet b (fun j n =>
      let p := 4 * a + j
      if p % 5 = 0 then .camClk (p / 5) n else .camD (p / 5) (p % 5 - 1) n)

/-- R503. The signals of backlight chains `n` and `n` + 1. -/
def bklNet (n b : Nat) : Option Net :=
  if 8 ≤ b then none
  else match b % 4 with
    | 0 => some (.sig (.bklClk (n + b / 4))) | 1 => some (.sig (.bklDo (n + b / 4)))
    | 2 => some (.sig (.bklDi (n + b / 4))) | _ => some (.sig (.bklLat (n + b / 4)))

/-- R503. The positions that R503 names in the south-west corner. -/
def swNamed (a b : Nat) : Option Net :=
  match a with
  | 0 | 2 => some (evenly .vddSp b)
  | 1 => match b with
    | 0 | 2 | 4 => some .vss | 1 => some (.sig .spXtalIn) | 3 => some (.sig .spXtalOut) | _ => none
  | 3 => match b with
    | 0 => some (.sig .spPorstN) | 2 => some (.sig .porstN) | 4 => some (.sig .wrstN) | 6 => some (.sig .thermTripN)
    | 8 => some (.sig .faultN) | _ => none
  | 5 => match b with
    | 8 => some (.sig .avsClk) | 9 => some (.sig .avsMdata) | 10 => some (.sig .avsSdata) | 11 => none
    | _ => some (.sig (if b < 4 then .pnlPwrEn b else .pnlPgood (b - 4)))
  | 7 => bklNet 0 b
  | 9 => bklNet 2 b
  | _ => none

/-- R503. The south-west corner: what the Watch owns. -/
def swNet (a b : Nat) : Net := (swNamed a b).getD (if (a + b) % 2 = 0 then .vss else .vddioSp)

/-- R504. The net of a centre ball. -/
def centreNet (r c : Nat) : Net :=
  if (r + c) % 2 = 0 then .vss
  else match min (min (r - 16) (67 - r)) (min (c - 16) (67 - c)) with
    | 0 => .hbmVpp | 1 => .hbmVddc | 2 | 3 => .hbmVddql | 4 | 5 => .vddSram | _ => .vddCore

/-- R497. The net of the ball in row `r` and column `c`, both from 1 to 82; none where no ball stands. -/
def ballNet (r c : Nat) : Option Net :=
  let mid := fun x => decide (14 ≤ x ∧ x ≤ 69)
  if r ≤ 12 ∧ c ≤ 12 then some (nwNet (r - 1) (c - 1))
  else if r ≤ 12 ∧ 71 ≤ c then some (neNet (r - 1) (82 - c))
  else if 71 ≤ r ∧ 71 ≤ c then some (seNet (82 - r) (82 - c))
  else if 71 ≤ r ∧ c ≤ 12 then some (swNet (82 - r) (c - 1))
  else if r ≤ 12 && mid c then some (bandNet 0 (c - 14) (r - 1))
  else if mid r && decide (71 ≤ c) then some (bandNet 1 (r - 14) (82 - c))
  else if decide (71 ≤ r) && mid c then some (bandNet 2 (69 - c) (82 - r))
  else if mid r && decide (c ≤ 12) then some (bandNet 3 (69 - r) (c - 1))
  else if 16 ≤ r ∧ r ≤ 67 ∧ 16 ≤ c ∧ c ≤ 67 ∧ !(34 ≤ r ∧ r ≤ 49 ∧ 34 ≤ c ∧ c ≤ 49) then some (centreNet r c)
  else none

/-- R505. How many balls of the grid satisfy a test. -/
def ballCount (p : Net → Bool) : Nat :=
  ((List.range 82).map (fun r => ((List.range 82).filter (fun c => ((ballNet (r + 1) (c + 1)).map p).getD false)).length)).sum

end Sys2Proof.Machine
end

