-- ==== Sys2Proof/Tests/Slice0.lean ====
section
/-! SUPPORT. The model's own tests: terms that are not well formed, single steps whose results stand in the spec, and for each statement
of Certificates/Slice0 the states and operands that meet its hypotheses, clause by clause. -/
namespace Sys2Proof.Machine
open Sys2Proof

-- The theorems of this file are checked one after another: each needs a large stack.
set_option Elab.async false

/-! ### Small states -/

/-- HBM is open, translation is on, and contexts 0 to 3 see the first 64 GiB as they are. -/
def tOpen : State :=
  let s := (((State.reset.put R.MEM_STAT_TRAINED 1).put R.MEM_CTL_MAP_LOCK 1).put R.MMU_CTL_ENABLE 1)
  let s := (List.range 4).foldl (fun s c => s.put (R.MMU_CTX_CFG_EN c) 1) s
  { s with mmu := { s.mmu with tlb := (List.range 4).map (fun c => ⟨c, 0, 36, 0, true, true, false⟩) } }

/-- A launch that runs on hamlet 0 in context 1, with code from 0 to 0x1000, 1,024 bytes of constants, and synthesis work `wk`. -/
def tLaunch (wk : Option Nat) : LaunchSt :=
  { desc := ⟨0, 0x1000, 1, 1, 0, 1024, 64, 1, wk.isSome, false, 0, 0x8000, 0, 0, []⟩, core := 0, phase := .running, order := 0, startPtp := 0,
    runFrom := 0, runTicks := 0, clkFrom := 0, clkRun := 0, preempts := 0, killed := 0, killedRays := 0, savedMask := 0, noSave := false,
    abortStatus := 0, saveSeq := 0, work := wk, projective := false }

/-- `tOpen` with that launch as handle 1, and the record `th` for slot 0 of engine 0, runnable in it. -/
def tRun (wk : Option Nat) (th : ThreadSt) : State :=
  (({ tOpen with aq := { tOpen.aq with launches := [(1, tLaunch wk)], nextHandle := 2 } } : State).setHamlet 0 { tOpen.hamlet 0 with holder := some 1 }).setThr 0
    { th with state := .runnable, launch := 1 }

/-- The first thread of engine 0. -/
abbrev tE : Thr := .eng 0 0
/-- The steward core 0. -/
abbrev tS : Thr := .stw 0

/-- Bytes placed in HBM, by address. -/
def tMem (s : State) (l : List (Nat × List Byte)) : State := l.foldl (fun s p => s.memPut p.1 p.2) s

/-- `n` bytes that are zero but for fields: offset, width in bytes, value. -/
def tRec (n : Nat) (l : List (Nat × Nat × Nat)) : List Byte := leBytes n ((l.map (fun p => p.2.2 * 2 ^ (8 * p.1))).sum)
/-- The same with a CRC-32C of the first `c` bytes at `c`. -/
def tCrc (n c : Nat) (l : List (Nat × Nat × Nat)) : List Byte := tRec n ((c, 4, crc32c ((tRec n l).take c)) :: l)

/-- A result that is not an error is a result. -/
theorem ok_of {ε α : Type} {x : Except ε α} (h : x.isOk = true) : ∃ a, x = .ok a := by
  cases x with
  | ok a => exact ⟨a, rfl⟩
  | error e => cases h

/-- A thread that may issue and that has no result pending issues whatever registers it touches. -/
theorem issues_of {s : State} {t : Thr} (h1 : s.canIssue t = true) (h2 : s.inCode t (s.th t).pc.toNat = true) (h3 : (s.th t).pend = []) (x : Touch) : Issues s t x := by
  refine ⟨h1, h2, ?_⟩
  simp [ThreadSt.busy, ThreadSt.busyV, ThreadSt.busyS, h3]


/-! ### Ray synthesis -/

/-- One tile of 16 columns and 64 lines. -/
def tTile (s : State) : State := ((s.putA R.SCO_TEN_LO_EN 1).putA (R.SCO_TSIZE_W 0) 16).putA R.SCO_VGEOM_ACTIVE 64

/-- A frame-mode work item in context 1 whose target is at 0x10_0000. -/
def tWork : SynWork :=
  { band := none, ring := 0, tag := 0, slot := 0, seq := 0, pts := 0, isStatic := false, bound := ⟨none, 0, 0, none, none, []⟩, started := 0, exhausted := 0, ctx := 1,
    targets := [⟨0, 0x100000, 64⟩], written := [], complete := [], abandoned := false, startNs := 0, newMap := none, cost := none, measured := false }

/-- `tRun` with a tile, the work item 1, and hamlet 0 at position `pos` of its span. -/
def tSyn (w : SynWork) (pos : Nat) : State :=
  ((tTile ((tRun (some 1) (thrDefault 0)).put R.SYN_CTL_ENABLE 1)).setSynWork 1 w).setSpan 0 ⟨1, pos, none, none⟩

/-- A ray map in context `c` whose planes start at `base`, for tile 0. -/
def tMap (c base : Nat) : RayMap :=
  ⟨c, [(0, ⟨0, true, 2, 16, 64, 0, 0, 0x3F800000, 0x3F800000, 0x3F800000, 0, 0, 0x3F800000, 0, 0, 0x3F800000, 0, 0, 32, base⟩)]⟩

/-- `tSyn` with a ray map that deals the unit's front pixel. -/
def tDealing : State := let s := tSyn tWork 0; { s with syn := { s.syn with rmap := some (tMap 1 0) } }

theorem tDeals : ∃ (s : State) (e sl d p wk : Nat) (w : SynWork) (sp : SpanSt) (i tl y x : Nat) (r : Ray) (c : Nat), let t := Thr.eng e sl
      Issues s t ⟨(List.range 8).map (d + ·), []⟩ ∧ d % 8 = 0 ∧ d < 64 ∧ p < 8 ∧ s.thrWork (e * 4 + sl) = some wk ∧ s.on R.SYN_CTL_ENABLE = true ∧
      s.synWork wk = some w ∧ s.span (e / 16) = some sp ∧ sp.work = wk ∧ w.abandoned = false ∧ s.frontPixel (e / 16) = some (wk, w, i, tl, y, x) ∧
      s.rayKind w.level tl x y = .deal r c := by
  have hd : ∃ r c, tDealing.rayKind 0 0 0 0 = .deal r c := by
    have h : (match tDealing.rayKind 0 0 0 0 with
      | .deal _ _ => true
      | _ => false) = true := by decide +kernel
    revert h
    cases tDealing.rayKind 0 0 0 0 <;> simp
  obtain ⟨r, c, hd⟩ := hd
  have hi : Issues tDealing tE ⟨(List.range 8).map (56 + ·), []⟩ := issues_of (by decide +kernel) (by decide +kernel) (by decide +kernel) _
  exact ⟨tDealing, 0, 0, 56, 7, 1, tWork, ⟨1, 0, none, none⟩, 0, 0, 0, 0, r, c, hi, by decide, by decide, by decide, by decide +kernel, by decide +kernel, by decide +kernel,
    by decide +kernel, rfl, rfl, by decide +kernel, hd⟩

theorem wit_RayIssueDealsAndRetires :
    (∃ (s : State) (e sl d p wk : Nat) (w : SynWork) (sp : SpanSt), let t := Thr.eng e sl
      Issues s t ⟨(List.range 8).map (d + ·), []⟩ ∧ d % 8 = 0 ∧ d < 64 ∧ p < 8 ∧ s.thrWork (e * 4 + sl) = some wk ∧ s.on R.SYN_CTL_ENABLE = true ∧
      s.synWork wk = some w ∧ s.span (e / 16) = some sp ∧ sp.work = wk ∧ w.abandoned = false) ∧
    (∃ (s : State) (e sl d p wk : Nat) (w : SynWork) (sp : SpanSt) (i tl y x : Nat) (r : Ray) (c : Nat), let t := Thr.eng e sl
      Issues s t ⟨(List.range 8).map (d + ·), []⟩ ∧ d % 8 = 0 ∧ d < 64 ∧ p < 8 ∧ s.thrWork (e * 4 + sl) = some wk ∧ s.on R.SYN_CTL_ENABLE = true ∧
      s.synWork wk = some w ∧ s.span (e / 16) = some sp ∧ sp.work = wk ∧ w.abandoned = false ∧ s.frontPixel (e / 16) = some (wk, w, i, tl, y, x) ∧
      s.rayKind w.level tl x y = .deal r c) ∧
    (∃ (s : State) (e sl d : Nat), let t := Thr.eng e sl
      Issues s t ⟨(List.range 8).map (d + ·), []⟩ ∧ d % 8 = 0 ∧ d < 64 ∧ s.thrWork (e * 4 + sl) = none) ∧
    (∃ (s : State) (h wk t y x plane va : Nat) (w : SynWork) (i : Nat) (er : AccErr), h < 16 ∧ s.frontPixel h = some (wk, w, i, t, y, x) ∧
      s.rayKind w.level t x y = .failed plane va er ∧ ∃ sp, s.span h = some sp ∧ (if plane = 0 then sp.failCls else sp.failRes) ≠ some (va / 256)) ∧
    (∃ (s : State) (h wk t y x : Nat) (w : SynWork) (i : Nat), h < 16 ∧ s.frontPixel h = some (wk, w, i, t, y, x) ∧
      s.selfWriteFails wk t y x = true ∧ (∀ r c, s.rayKind w.level t x y ≠ .deal r c)) ∧
    (∃ (s : State) (wk tile band : Nat) (w : SynWork), s.synWork wk = some w ∧ (s.workBands w).contains band = true ∧ s.tileOn tile = true ∧ tile < 64 ∧
      w.complete.contains (tile * 64 + band) = false ∧ w.abandoned = false ∧ s.bandWritten w tile band = true ∧ w.band = none ∧
      s.workComplete { w with complete := w.complete ++ [tile * 64 + band] } = false) ∧
    (∃ (s : State) (wk tile band b : Nat) (w : SynWork), s.synWork wk = some w ∧ (s.workBands w).contains band = true ∧ s.tileOn tile = true ∧ tile < 64 ∧
      w.complete.contains (tile * 64 + band) = false ∧ w.abandoned = false ∧ s.bandWritten w tile band = true ∧ w.band = some b ∧ b % s.ringDepth < 64) := by
  refine ⟨⟨tSyn tWork 0, 0, 0, 56, 7, 1, tWork, ⟨1, 0, none, none⟩, ?_⟩, tDeals, ⟨tRun none (thrDefault 0), 0, 0, 56, ?_⟩,
    ⟨let s := tSyn tWork 0; { s with syn := { s.syn with rmap := some (tMap 5 0) } }, 0, 1, 0, 0, 0, 0, 0, tWork, 0, .mmu 7, ?_⟩,
    ⟨tSyn { tWork with ctx := 5 } 15, 0, 1, 0, 15, 0, { tWork with ctx := 5 }, 0, ?_⟩,
    ⟨(tSyn { tWork with written := [(0, 1024)], exhausted := 0xFFFF } 0).putA R.SCO_VGEOM_ACTIVE 128, 1, 0, 0, { tWork with written := [(0, 1024)], exhausted := 0xFFFF }, ?_⟩,
    ⟨tSyn { tWork with band := some 7, written := [(0, 1024)], exhausted := 0xFFFF } 0, 1, 0, 0, 7, { tWork with band := some 7, written := [(0, 1024)], exhausted := 0xFFFF }, ?_⟩⟩
  · unfold Issues; decide +kernel
  · unfold Issues; decide +kernel
  · decide +kernel
  · refine ⟨by decide +kernel, by decide +kernel, by decide +kernel, fun r c h => ?_⟩
    have k : (tSyn { tWork with ctx := 5 } 15).rayKind 0 0 0 15 = .dark := by decide +kernel
    exact absurd (k.symm.trans h) (by simp)
  · decide +kernel
  · decide +kernel

/-- The predicate p1 of a thread, of lane 0 alone. -/
def tOne : ThreadSt := { thrDefault 0 with p := [(1, 1)] }
/-- A format X instruction of lane 0 alone. -/
def tX (p : Nat) : FmtX := ⟨p, false, 0, 8, 16, 0, false, 0, 0⟩

/-- `tRun` with SYN_CTL.ENABLE, stream slot 0 in context 1, and one plane of 16 by 16 texels in the constants, whose entries are at 0x4000. -/
def tPlane : State :=
  let s := (tRun none tOne).put R.SYN_CTL_ENABLE 1
  { s with
    syn := { s.syn with streams := [(0, ⟨0, 1, false, 1, 1, 1, 1, 16, 0, 0, none⟩)], rmap := some (tMap 1 0) }
    aq := { s.aq with constBuf := [(0, 1), (9, 0x40), (0x14, 16), (0x16, 16), (0x18, 1), (0x22, 0x80), (0x23, 0x3F), (0x2E, 0x80), (0x2F, 0x3F), (0x32, 0x80), (0x33, 0x3F)] } }

theorem wit_SamplingInstructions :
    (∃ (s : State) (e sl : Nat) (f : FmtX), let t := Thr.eng e sl; let th := s.th t; let k := thrKey t
      let en := s.sampEnv k f; let tag := s.launchTag k
      let sw := sampLanes (fun a l => if tag.2 then Samp.camLane a en tag.1 (th.laneRay f l) else Samp.sweepLane a en tag.1 (th.laneRay f l))
        (th.lanesX f) ⟨s, [], [], none⟩
      Issues s t (touchX f 1) ∧ legalX false f 0 = true ∧ s.on R.SYN_CTL_ENABLE = true ∧ anyNeed sw.2 = false ∧ sw.2 ≠ []) ∧
    (∃ (s : State) (e sl : Nat) (f : FmtX), let t := Thr.eng e sl; let th := s.th t; let k := thrKey t
      let en := s.sampEnv k f; let tag := s.launchTag k
      let sw := sampLanes (fun a l => if tag.2 then Samp.camLane a en tag.1 (th.laneRay f l) else Samp.sweepLane a en tag.1 (th.laneRay f l))
        (th.lanesX f) ⟨s, [], [], none⟩
      Issues s t (touchX f 1) ∧ legalX false f 0 = true ∧ s.on R.SYN_CTL_ENABLE = true ∧ anyNeed sw.2 = true) ∧
    (∃ (s : State) (e sl : Nat) (f : FmtX), let t := Thr.eng e sl
      Issues s t (touchX f 1) ∧ legalX false f 0 = true ∧ s.on R.SYN_CTL_ENABLE = false) ∧
    (∃ (s : State) (e sl : Nat) (f : FmtX), let t := Thr.eng e sl; let th := s.th t; let en := s.sampEnv (thrKey t) f
      let sa := sampLanes (fun a l => Samp.sampleLane a en f (th.laneRay f l)) (th.lanesX f) ⟨s, [], [], none⟩
      Issues s t (touchX f 5) ∧ legalX false f 1 = true ∧ s.on R.SYN_CTL_ENABLE = true ∧ anyNeed sa.2 = false ∧ sa.2 ≠ []) ∧
    (∃ (s : State) (e sl : Nat) (f : FmtX), let t := Thr.eng e sl; let th := s.th t; let en := s.sampEnv (thrKey t) f
      let sa := sampLanes (fun a l => Samp.sampleLane a en f (th.laneRay f l)) (th.lanesX f) ⟨s, [], [], none⟩
      Issues s t (touchX f 5) ∧ legalX false f 1 = true ∧ s.on R.SYN_CTL_ENABLE = true ∧ anyNeed sa.2 = true) ∧
    (∃ (s : State) (e sl : Nat) (f : FmtX), let t := Thr.eng e sl
      Issues s t (touchX f 5) ∧ legalX false f 1 = true ∧ s.on R.SYN_CTL_ENABLE = false) ∧
    (∃ (s : State) (e sl : Nat) (f : FmtX), let t := Thr.eng e sl; Issues s t (touchX f 0) ∧ legalX false f 2 = true) := by
  refine ⟨⟨(tRun none tOne).put R.SYN_CTL_ENABLE 1, 0, 0, tX 1, ?_⟩, ⟨tPlane, 0, 0, tX 1, ?_⟩, ⟨(tRun none tOne), 0, 0, tX 1, ?_⟩,
    ⟨(tRun none tOne).put R.SYN_CTL_ENABLE 1, 0, 0, tX 1, ?_⟩, ⟨tPlane, 0, 0, tX 1, ?_⟩, ⟨tRun none tOne, 0, 0, tX 1, ?_⟩, ⟨tRun none tOne, 0, 0, tX 1, ?_⟩⟩
  all_goals unfold Issues; decide +kernel

/-- A KPK payload of one stored chunk: a tile of one texel. -/
def tKpk : List Byte := chunkHeader 6 true true 5 5 (crc32c (zeros 5)) 0 ++ zeros 5
/-- The resolved entry of that payload at 0x5000, whose CRC is right or not. -/
def tEntry (good : Bool) : ResEntry := ⟨1, tKpk.length, 0x5000, if good then crc32c tKpk else 0, 0, 0, 0, 0⟩
/-- Hamlet 0 waits for strip 0 of that tile; the payload has been indexed or not. -/
def tFill (crc good ix : Bool) : State :=
  let s := tMem tOpen [(0x4000, (tEntry good).bytes), (0x5000, tKpk)]
  ({ s with syn := { s.syn with streams := [(0, ⟨0, 1, crc, 1, 1, 1, 1, 16, 0, 0, none⟩)] } } : State).setCaddy 0
    { caddyDefault 0 with fills := [⟨.tex 0 0 0 0, 1, 0x4000, 1, 1, 0, false⟩], indexed := if ix then [(0, 0, 0)] else [] }

theorem wit_CaddyFillsAndInvalidates :
    (∀ crc good, (crc, good) ≠ (true, false) → ∃ (s : State) (h : Nat) (f : CFill) (p : Nat × Nat × Nat) (eb bs : List Byte), h < 16 ∧
      (s.caddy h).fills.find? (fun f => match f.tag.payload with
        | some p => !(s.caddy h).indexed.contains p
        | none => false) = some f ∧ f.tag.payload = some p ∧ s.vread f.ctx f.src .read 32 = .ok eb ∧ s.payload f.ctx (ResEntry.ofBytes eb) = .ok bs ∧
      (s.slotCrc p.1 = false ∨ crc32c bs = (ResEntry.ofBytes eb).pcrc) ∧ s.slotCrc p.1 = crc ∧
      (if (ResEntry.ofBytes eb).code = 0 then jxsCheck bs f.width f.height else kpkCheck bs f.tag.isDep f.width f.height) = none) ∧
    (∃ (s : State) (h : Nat) (f : CFill) (p : Nat × Nat × Nat) (eb bs : List Byte), h < 16 ∧
      (s.caddy h).fills.find? (fun f => match f.tag.payload with
        | some p => !(s.caddy h).indexed.contains p
        | none => false) = some f ∧ f.tag.payload = some p ∧ s.vread f.ctx f.src .read 32 = .ok eb ∧ s.payload f.ctx (ResEntry.ofBytes eb) = .ok bs ∧
      s.slotCrc p.1 = true ∧ crc32c bs ≠ (ResEntry.ofBytes eb).pcrc) ∧
    (∃ (s : State) (h i : Nat) (f : CFill) (data : List Byte), h < 16 ∧ (s.caddy h).fills[i]? = some f ∧
      (match f.tag.payload with
        | some p => (s.caddy h).indexed.contains p = true ∧ ∃ eb bs, s.vread f.ctx f.src .read 32 = .ok eb ∧ s.payload f.ctx (ResEntry.ofBytes eb) = .ok bs ∧
            stripBytes (ResEntry.ofBytes eb) bs f.tag.isDep f.width f.height f.tag.strip = .ok data
        | none => s.camStrip f f.height f.src = .ok data) ∧ s.fillKeep h f.tag ≠ none) ∧
    (∃ (s : State) (x : Option Nat) (rest : List (Option Nat)), s.syn.invs = x :: rest ∧ s.fillsDone x = true) := by
  refine ⟨fun crc good h => ⟨tFill crc good false, 0, ⟨.tex 0 0 0 0, 1, 0x4000, 1, 1, 0, false⟩, (0, 0, 0), (tEntry good).bytes, tKpk, ?_⟩,
    ⟨tFill true false false, 0, ⟨.tex 0 0 0 0, 1, 0x4000, 1, 1, 0, false⟩, (0, 0, 0), (tEntry false).bytes, tKpk, ?_⟩,
    ⟨tFill false true true, 0, 0, ⟨.tex 0 0 0 0, 1, 0x4000, 1, 1, 0, false⟩, zeros 5, by decide +kernel, by decide +kernel, ⟨by decide +kernel,
      (tEntry true).bytes, tKpk, by decide +kernel⟩, by decide +kernel⟩,
    ⟨{ tFill false true true with syn := { (tFill false true true).syn with invs := [some 15, none] } }, some 15, [none], by decide +kernel⟩⟩
  · revert h; cases crc <;> cases good <;> decide +kernel
  · decide +kernel

/-- A density record that is due. -/
def tDensRec : DensRec := ⟨none, 3, 4, 5, 1, 2, some 9, some ⟨7, 800, 1⟩, 0, true, false⟩

theorem wit_DensityHistoryAndRecord :
    (∃ s : State, s.on R.SYN_DCTL_AUTO = true) ∧ (∃ s : State, s.on R.SYN_DCTL_AUTO = false) ∧ (∃ s : State, s.syn.dens.recs = []) ∧
    (∃ (s : State) (pa : Nat) (r : DensRec) (rest : List DensRec) (c : CostRec) (e : Nat), s.syn.dens.recs = r :: rest ∧ r.meas = some c ∧ r.est = some e ∧ s.hbmOpen = true ∧ pa + 32 ≤ hbmTop ∧ ∀ i, i < 32 → s.translate 0 (s.dlogAddr + i) .write = .ok (pa + i)) ∧
    (∃ (s : State) (er : AccErr) (r : DensRec) (rest : List DensRec), s.syn.dens.recs = r :: rest ∧ s.vtargets 0 s.dlogAddr .write 32 = .error er) := by
  refine ⟨⟨State.reset.put R.SYN_DCTL_AUTO 1, by decide +kernel⟩, ⟨State.reset.put R.SYN_DCTL_AUTO 0, by decide +kernel⟩, ⟨State.reset, rfl⟩,
    ⟨tOpen.setDens { tOpen.syn.dens with recs := [tDensRec] }, 0, tDensRec, [], ⟨7, 800, 1⟩, 9, by decide +kernel⟩,
    ⟨State.reset.setDens { State.reset.syn.dens with recs := [tDensRec, tDensRec] }, .mmu 7, tDensRec, [tDensRec], by decide +kernel⟩⟩

/-! ### Streams and work rings -/

/-- Ring 31 runs in context 1, and the entry `b` waits at its HEAD, at 0x1000. -/
def tRing (s : State) (b : List Byte) : State :=
  let s := ((((tMem s [(0x1000, b)]).put (R.HST_WR_CFG_EN 31) 1).put (R.HST_WR_CFG_CTX 31) 1).put (R.HST_WR_STAT_STATE 31) 1).setWord (R.HST_WR_SQ_LO_ADDR 31).addr 0x1000
  s.setWring 31 { wringDefault 0 with tail := 1 }
/-- An entry with OP `op`, address `a` and SLOT `n`. -/
def tCmd (op a n : Nat) : List Byte := tRec 64 [(0, 1, op), (1, 1, 1), (4, 4, 7), (8, 8, a), (0x20, 4, n)]
/-- A stream header and a stream that it opens. -/
def tSHdr : List Byte := tCrc 64 0x3C [(0, 4, magicS), (4, 2, 0x100), (6, 2, 64), (0x10, 4, 1), (0x14, 4, 60), (0x18, 1, 1), (0x19, 1, 1), (0x1A, 2, 16)]
def tStream : StreamSt := streamOf tSHdr 1 0 0
/-- A frame header with one plane and one directory entry. -/
def tPlaneB : List Byte := tRec 64 [(4, 2, 16), (6, 2, 16), (8, 1, 1), (0x10, 4, 0x3F800000), (0x1C, 4, 0x3F800000), (0x20, 4, 0x3F800000), (0x28, 4, 1)]
def tDirB : List Byte := tRec 16 [(0, 1, 2), (4, 8, 0xFFFF)]
def tFHdr : List Byte := tCrc 64 0x3C [(0, 4, magicF), (4, 2, 0x100), (6, 2, 64), (0xC, 4, 1), (0x10, 8, 1), (0x1C, 2, 1), (0x20, 4, 1), (0x24, 4, 64), (0x28, 4, 128),
  (0x30, 8, 144), (0x38, 4, crc32c (tPlaneB ++ tDirB))]
/-- Stream slot 15 is open, and a ray map bound or not. -/
def tStr (s : State) (map : Bool) : State :=
  { s with syn := { s.syn with streams := [(15, tStream)], rmap := if map then some (tMap 1 0) else none } }
/-- The ray map header of tile 0, one ray. -/
def tMHdr : List Byte := tCrc 128 0x7C [(0, 4, magicM), (4, 2, 0x100), (6, 2, 4), (0xA, 2, 1), (0xC, 2, 1), (0xE, 2, 1), (0x18, 4, 0x3F800000), (0x1C, 4, 0x3F800000),
  (0x20, 4, 0x3F800000), (0x2C, 4, 0x3F800000), (0x38, 4, 0x3F800000), (0x4C, 4, 256), (0x50, 8, 0x9000)]

/-- `tRing` with the entry that names slot 15. -/
def tF (op a : Nat) (map : Bool) (m : List (Nat × List Byte)) : State := tStr (tMem (tRing tOpen (tCmd op a 15)) m) map

theorem wit_FrameProgramCommands :
    (∀ op, op = 0 ∨ op = 5 → ∃ (s : State) (n : Nat) (b : List Byte), s.EntryWaits n b ∧ leAt b 0 1 = op) ∧
    (∃ (s : State) (n : Nat) (b : List Byte), s.EntryWaits n b ∧ leAt b 0 1 = 1 ∧ 16 ≤ leAt b 0x20 4) ∧
    (∃ (s : State) (n : Nat) (b : List Byte), s.EntryWaits n b ∧ leAt b 0 1 = 1 ∧ leAt b 0x20 4 < 16 ∧ tabGet s.syn.streams (leAt b 0x20 4) ≠ none) ∧
    (∀ ok, ∃ (s : State) (n : Nat) (b h : List Byte), s.EntryWaits n b ∧ leAt b 0 1 = 1 ∧ leAt b 0x20 4 < 16 ∧ tabGet s.syn.streams (leAt b 0x20 4) = none ∧
      s.vread (s.wringCtx n) (leAt b 8 8) .read 64 = .ok h ∧ streamOk h = ok) ∧
    (∃ (s : State) (n : Nat) (b : List Byte), s.EntryWaits n b ∧ leAt b 0 1 = 3 ∧ tabGet s.syn.streams (leAt b 0x20 4) = none) ∧
    (∀ r, ∃ (s : State) (n : Nat) (b : List Byte), s.EntryWaits n b ∧ leAt b 0 1 = 3 ∧ tabGet s.syn.streams (leAt b 0x20 4) ≠ none ∧
      s.isClosing (leAt b 0x20 4) = false ∧ s.frameRuns (leAt b 0x20 4) = r) ∧
    (∃ (s : State) (n : Nat) (b : List Byte), s.EntryWaits n b ∧ leAt b 0 1 = 2 ∧ tabGet s.syn.streams (leAt b 0x20 4) = none) ∧
    (∃ (s : State) (n : Nat) (b : List Byte) (st : StreamSt), s.EntryWaits n b ∧ leAt b 0 1 = 2 ∧ tabGet s.syn.streams (leAt b 0x20 4) = some st ∧
      s.isClosing (leAt b 0x20 4) = false ∧ s.syn.rmap = none) ∧
    (∃ (s : State) (n : Nat) (b : List Byte) (st : StreamSt), s.EntryWaits n b ∧ leAt b 0 1 = 2 ∧ tabGet s.syn.streams (leAt b 0x20 4) = some st ∧
      s.isClosing (leAt b 0x20 4) = false ∧ s.syn.rmap ≠ none ∧ leAt b 8 8 % 256 ≠ 0) ∧
    (∃ (s : State) (n : Nat) (b h : List Byte) (st : StreamSt), s.EntryWaits n b ∧ leAt b 0 1 = 2 ∧ tabGet s.syn.streams (leAt b 0x20 4) = some st ∧
      s.isClosing (leAt b 0x20 4) = false ∧ s.syn.rmap ≠ none ∧ leAt b 8 8 % 256 = 0 ∧ s.vread st.ctx (leAt b 8 8) .read 64 = .ok h ∧ st.headerCode h ≠ 0) ∧
    (∃ (s : State) (n rd : Nat) (b h pb db : List Byte) (st : StreamSt) (s2 : State), s.EntryWaits n b ∧ leAt b 0 1 = 2 ∧
      tabGet s.syn.streams (leAt b 0x20 4) = some st ∧ s.isClosing (leAt b 0x20 4) = false ∧ s.syn.rmap ≠ none ∧ leAt b 8 8 % 256 = 0 ∧
      s.vread st.ctx (leAt b 8 8) .read 64 = .ok h ∧
      (let va := leAt b 8 8; let np := leAt h 0x1C 2; let nd := leAt h 0x20 4; let ds := (List.range np).map (fun i => (pb.drop (64 * i)).take 64)
       let f : FrameInfo := ⟨va, leAt h 0xC 4, leAt h 0x30 8, leAt h 0x28 4 + 16 * nd, bitAt (leAt h 0x18 4) 0⟩
       let es := s.resolveAll st f (ds.map planeOf) db
       st.headerCode h = 0 ∧ s.vread st.ctx (va + leAt h 0x24 4) .read (64 * np) = .ok pb ∧ s.vread st.ctx (va + leAt h 0x28 4) .read (16 * nd) = .ok db ∧
       leAt h 0x38 4 = crc32c (pb ++ db) ∧ st.planesCode nd ds = 0 ∧ s.writeDir st.ctx rd es = .ok s2)) ∧
    (∃ (s : State) (n : Nat) (b ab : List Byte), s.EntryWaits n b ∧ leAt b 0 1 = 4 ∧ s.vread (s.wringCtx n) (leAt b 8 8) .read 512 = .ok ab ∧
      s.checkTiles (s.wringCtx n) ((List.range 64).map (fun t => (t, leAt ab (8 * t) 8))) [] = .bad) ∧
    (∃ (s : State) (n : Nat) (b ab : List Byte) (tiles : _), s.EntryWaits n b ∧ leAt b 0 1 = 4 ∧ s.vread (s.wringCtx n) (leAt b 8 8) .read 512 = .ok ab ∧
      s.checkTiles (s.wringCtx n) ((List.range 64).map (fun t => (t, leAt ab (8 * t) 8))) [] = .ok tiles) := by
  unfold State.EntryWaits
  refine ⟨fun op h => ⟨tRing tOpen (tCmd op 0 0), 31, tCmd op 0 0, ?_⟩, ⟨tRing tOpen (tCmd 1 0 16), 31, tCmd 1 0 16, ?_⟩, ⟨tF 1 0 false [], 31, tCmd 1 0 15, ?_⟩,
    fun ok => ⟨tMem (tRing tOpen (tCmd 1 0x2000 15)) [(0x2000, if ok then tSHdr else [])], 31, tCmd 1 0x2000 15, if ok then tSHdr else zeros 64, ?_⟩,
    ⟨tRing tOpen (tCmd 3 0 15), 31, tCmd 3 0 15, ?_⟩,
    fun r => ⟨let s := tF 3 0 false []; if r then s.setWring 0 { wringDefault 0 with cmds := [⟨15, none, 0, 2, false, 0, 0⟩] } else s, 31, tCmd 3 0 15, ?_⟩,
    ⟨tRing tOpen (tCmd 2 0 15), 31, tCmd 2 0 15, ?_⟩, ⟨tF 2 0 false [], 31, tCmd 2 0 15, tStream, ?_⟩, ⟨tF 2 0x2080 true [], 31, tCmd 2 0x2080 15, tStream, ?_⟩,
    ⟨tF 2 0x2000 true [], 31, tCmd 2 0x2000 15, zeros 64, tStream, ?_⟩,
    ⟨tF 2 0x2000 true [(0x2000, tFHdr ++ tPlaneB ++ tDirB)], 31, 0x4000, tCmd 2 0x2000 15, tFHdr, tPlaneB, tDirB, tStream,
      tMem (tF 2 0x2000 true [(0x2000, tFHdr ++ tPlaneB ++ tDirB)]) [(0x4000, (⟨2, 0, 0xFFFF, 0, 1, 0, 0, 0⟩ : ResEntry).bytes)], ?_⟩,
    ⟨tF 4 0x2000 false [], 31, tCmd 4 0x2000 15, zeros 512, ?_⟩,
    ⟨tF 4 0x2000 false [(0x2000, leBytes 8 0x3000), (0x3000, tMHdr)], 31, tCmd 4 0x2000 15, tRec 512 [(0, 8, 0x3000)], ?_⟩⟩
  · rcases h with rfl | rfl <;> decide +kernel
  · decide +kernel
  · decide +kernel
  · cases ok <;> decide +kernel
  · decide +kernel
  · cases r <;> decide +kernel
  · decide +kernel
  · decide +kernel
  · decide +kernel
  · decide +kernel
  · decide +kernel
  · decide +kernel
  · have h : ∃ ts, (tF 4 0x2000 false [(0x2000, leBytes 8 0x3000), (0x3000, tMHdr)]).checkTiles 1
        ((List.range 64).map (fun t => (t, leAt (tRec 512 [(0, 8, 0x3000)]) (8 * t) 8))) [] = .ok ts := by
      have k : (match (tF 4 0x2000 false [(0x2000, leBytes 8 0x3000), (0x3000, tMHdr)]).checkTiles 1
        ((List.range 64).map (fun t => (t, leAt (tRec 512 [(0, 8, 0x3000)]) (8 * t) 8))) [] with
        | .ok _ => true
        | _ => false) = true := by decide +kernel
      revert k; cases State.checkTiles _ _ _ _ <;> simp
    obtain ⟨ts, h⟩ := h
    exact ⟨ts, by decide +kernel, by decide +kernel, by decide +kernel, h⟩


/-- Ring 31 runs with four entries; its completions go to 0x3000. -/
def tWr : State :=
  let s := ((((tOpen.put (R.HST_WR_CFG_EN 31) 1).put (R.HST_WR_CFG_CTX 31) 1).put (R.HST_WR_STAT_STATE 31) 1).put (R.HST_WR_CFG_LOG2N 31) 2)
  s.setWord (R.HST_WR_CQ_LO_ADDR 31).addr 0x3000
/-- The command that has completed. -/
def tDone : TakenCmd := ⟨0, some ⟨7, 0, 1, true, zeros 24⟩, 7, 1, true, 0, 0⟩

theorem wit_WorkRingProtocol :
    (∃ (s : State) (n : Nat), n < 32 ∧ s.on (R.HST_WR_CFG_EN n) = true ∧ s.wringCtx n ≠ 0 ∧ s.wringSize n = 4) ∧
    (∃ (s : State) (n : Nat), n < 32 ∧ s.on (R.HST_WR_CFG_EN n) = false) ∧
    (∃ (s : State) (n : Nat), n < 32 ∧ s.on (R.HST_WR_CFG_EN n) = true ∧ s.wringCtx n = 0) ∧
    (∀ n, n = 31 ∨ n = 32 → ∃ (s : State), (s.events (if n < 32 then s.get (R.HST_WR_CFG_CORE n) else n % 8)).any (isDoorbell n) = false) ∧
    (∃ (s : State) (n : Nat) (c : TakenCmd) (rest : List TakenCmd) (d : Completion), n < 32 ∧ (s.wring n).cmds = c :: rest ∧ c.done = some d ∧
      s.on (R.HST_WR_CFG_EN n) = false) ∧
    (∃ (s : State) (n : Nat) (c : TakenCmd) (rest : List TakenCmd) (d : Completion), n < 32 ∧ (s.wring n).cmds = c :: rest ∧ c.done = some d ∧
      s.wringRuns n = true ∧ s.cqRoom n = false) ∧
    (∃ (s : State) (n : Nat) (c : TakenCmd) (rest : List TakenCmd) (d : Completion) (pa : Nat), n < 32 ∧ (s.wring n).cmds = c :: rest ∧ c.done = some d ∧
      s.wringRuns n = true ∧ s.cqRoom n = true ∧ s.hbmOpen = true ∧ pa + 32 ≤ hbmTop ∧ d.result.length = 24 ∧
      (∀ i, i < 32 → s.translate (s.wringCtx n)
        (s.addrOf (R.HST_WR_CQ_LO_ADDR n) (R.HST_WR_CQ_HI_ADDR n) + 32 * ((s.wring n).cqn % s.wringSize n) + i) .write = .ok (pa + i))) ∧
    (∃ (s : State) (n q : Nat), n < 32 ∧ q < 8192 ∧ s.on (R.HST_WR_STAT_CQ_FULL n) = true ∧ subMod 13 (s.wring n).cqn q < s.wringSize n ∧ (s.wring n).cmds = []) ∧
    (∃ (s : State) (n : Nat), n < 32 ∧ s.on (R.HST_WR_CFG_EN n) = false ∧ s.wringCtx n ≠ 0) := by
  refine ⟨⟨tWr, 31, by decide +kernel⟩, ⟨State.reset, 31, by decide +kernel⟩, ⟨tWr.put (R.HST_WR_CFG_CTX 31) 0, 31, by decide +kernel⟩, fun n h => ⟨tWr, ?_⟩,
    ⟨State.reset.setWring 31 ⟨0, 0, 0, [tDone]⟩, 31, tDone, [], _, by decide +kernel, by decide +kernel, rfl, by decide +kernel⟩,
    ⟨tWr.setWring 31 ⟨0, 0, 4, [tDone]⟩, 31, tDone, [], _, by decide +kernel, by decide +kernel, rfl, by decide +kernel⟩,
    ⟨tWr.setWring 31 ⟨0, 0, 3, [tDone]⟩, 31, tDone, [], _, 0x3060, by decide +kernel, by decide +kernel, rfl, by decide +kernel⟩,
    ⟨(tWr.put (R.HST_WR_STAT_CQ_FULL 31) 1).setWring 31 ⟨0, 0, 8191, []⟩, 31, 8191, by decide +kernel⟩,
    ⟨tWr.put (R.HST_WR_CFG_EN 31) 0, 31, by decide +kernel⟩⟩
  rcases h with rfl | rfl <;> decide +kernel

/-! ### Aqken -/

/-- The steward core 0 runs. -/
def tStw : State := tOpen.put R.STW_STAT_HALTED 0

theorem tRun_issues (x : Touch) : Issues (tRun none (thrDefault 0)) tE x := issues_of (by decide +kernel) (by decide +kernel) (by decide +kernel) x

theorem tStw_issues (x : Touch) : Issues tStw tS x := issues_of (by decide +kernel) (by decide +kernel) (by decide +kernel) x

/-- A format A instruction with the sources `u`: vector registers 63, or scalar registers 31. -/
def tA (scl : Bool) (u : Srcs) (m : Nat) : FmtA :=
  let r := if scl then 31 else 63
  ⟨7, true, r, if u.a then r else 0, if u.b then r else 0, if u.c then r else 0, false, scl, m⟩

theorem wit_IntegerResults :
    (∀ r ∈ intRules 32, ∃ (s : State) (t : Thr) (f : FmtA), f.scl = false ∧ legalA (thrIsS t) f r.2.1 (unused f.mod) = true ∧ Issues s t (touchA f r.2.1 true)) ∧
    (∀ r ∈ intRules 64, ∃ (s : State) (t : Thr) (f : FmtA), f.scl = true ∧ legalA (thrIsS t) f r.2.1 (unused f.mod) = true ∧ Issues s t (touchA f r.2.1 true)) := by
  have h1 : ∀ r ∈ intRules 32, legalA (thrIsS tE) (tA false r.2.1 0) r.2.1 true = true := by decide +kernel
  have h2 : ∀ r ∈ intRules 64, legalA (thrIsS tS) (tA true r.2.1 0) r.2.1 true = true := by decide +kernel
  exact ⟨fun r h => ⟨_, tE, _, rfl, h1 r h, tRun_issues _⟩, fun r h => ⟨_, tS, _, rfl, h2 r h, tStw_issues _⟩⟩

theorem wit_FloatResults :
    ∀ r ∈ floatRules, ∀ scl, ∃ (s : State) (t : Thr) (f : FmtA), f.scl = scl ∧ legalA (thrIsS t) f r.2.1 (unused f.mod) = true ∧ Issues s t (touchA f r.2.1 true) := by
  have h : ∀ r ∈ floatRules, ∀ scl, legalA (thrIsS tE) (tA scl r.2.1 0) r.2.1 true = true := by decide +kernel
  exact fun r hr scl => ⟨_, tE, tA scl r.2.1 0, by cases scl <;> rfl, h r hr scl, tRun_issues _⟩

theorem wit_FloatResultsCorrectlyRounded : ∀ f ∈ [f32, f16], ∃ (a : Nat) (s : Bool) (m : Nat) (e : Int), fdec f a = .num s m e ∧ m ≠ 0 := by
  intro f h
  simp only [List.mem_cons, List.not_mem_nil, or_false] at h
  rcases h with rfl | rfl
  · exact ⟨0x7F7FFFFF, false, 0xFFFFFF, 104, by decide +kernel⟩
  · exact ⟨1, false, 1, -24, by decide +kernel⟩

theorem wit_FloatSpecialResults :
    (∃ a, fdec f32 a = .nan) ∧ (∃ a, fdec f16 a = .nan) ∧ (∃ a n, fdec f32 a = .inf n) ∧ fdec f32 0 ≠ .nan ∧ fdec f32 (fadd f32 0x7F800000 0xFF800000) = .nan :=
  ⟨⟨0x7FFFFFFF, by decide +kernel⟩, ⟨0x7E00, by decide +kernel⟩, ⟨0xFF800000, true, by decide +kernel⟩, by decide +kernel, by decide +kernel⟩

theorem wit_ConversionResults :
    (∀ r ∈ convRules, ∀ scl, ∃ (s : State) (t : Thr) (f : FmtA), f.scl = scl ∧ legalA (thrIsS t) f r.2.1 (r.2.2.1 f.mod) = true ∧ Issues s t (touchA f r.2.1 true)) ∧
    (∀ scl, ∃ (s : State) (t : Thr) (f : FmtA), f.scl = scl ∧ legalA (thrIsS t) f srcABC (unused f.mod) = true ∧ Issues s t (touchA f srcABC true) ∧
      (s.launch (s.th t).launch).isSome = true) ∧
    (∃ (s : State) (t : Thr) (f : FmtA), legalA (thrIsS t) f srcABC (unused f.mod) = true ∧ Issues s t (touchA f srcABC true) ∧ (s.launch (s.th t).launch).isSome = false) := by
  have h : ∀ r ∈ convRules, ∀ scl, legalA (thrIsS tE) (tA scl r.2.1 0) r.2.1 (r.2.2.1 0) = true := by decide +kernel
  exact ⟨fun r hr scl => ⟨_, tE, tA scl r.2.1 0, by cases scl <;> rfl, h r hr scl, tRun_issues _⟩,
    fun scl => ⟨_, tE, tA scl srcABC 0, by cases scl <;> rfl, by cases scl <;> decide +kernel, tRun_issues _, by decide +kernel⟩,
    ⟨_, tS, tA true srcABC 0, by decide +kernel, tStw_issues _, by decide +kernel⟩⟩

theorem wit_UnormConversionExact : (∃ a n m e, fdec f32 a = .num n m e) ∧ ∃ a, fdec f32 a = .nan :=
  ⟨⟨0x3F800000, false, 0x800000, -23, by decide +kernel⟩, ⟨0x7FC00000, by decide +kernel⟩⟩

theorem wit_CompareResults :
    (∀ r ∈ cmpRules, ∀ scl, ∃ (s : State) (t : Thr) (f : FmtA), f.scl = scl ∧ legalCmp (thrIsS t) f (r.2.1 f.mod) = true ∧ Issues s t (touchA f ⟨true, true, false⟩ false)) ∧
    (∃ a s1 m1 e1, fdec f32 a = .num s1 m1 e1) ∧ (∃ a, fdec f32 a = .nan) := by
  have h : ∀ r ∈ cmpRules, ∀ scl, legalCmp (thrIsS tE) { tA scl srcAB 5 with d := 7 } (r.2.1 5) = true := by decide +kernel
  exact ⟨fun r hr scl => ⟨_, tE, { tA scl srcAB 5 with d := 7 }, by cases scl <;> rfl, h r hr scl, tRun_issues _⟩, ⟨0, false, 0, -149, by decide +kernel⟩, ⟨0x7FC00000, by decide +kernel⟩⟩

theorem wit_PredicateAndMoveResults :
    (∃ (s : State) (t : Thr) (f : FmtA), legalP f (preOk f.d) (preOk f.a) (preOk f.b) = true ∧ Issues s t ⟨[], []⟩) ∧
    (∃ (s : State) (t : Thr) (f : FmtA), legalP f (scaOk f.d) (preOk f.a) (unused f.b) = true ∧ Issues s t ⟨[], [f.d]⟩) ∧
    (∃ (s : State) (t : Thr) (f : FmtA), legalP f (preOk f.d) (scaOk f.a) (unused f.b) = true ∧ Issues s t ⟨[], [f.a]⟩) ∧
    (∀ scl, ∃ (s : State) (t : Thr) (f : FmtA), f.scl = scl ∧ legalA (thrIsS t) f srcB (unused f.mod) = true ∧ Issues s t (touchA f srcB true)) ∧
    (∀ scl, ∃ (s : State) (t : Thr) (f : FmtA), f.scl = scl ∧ legalA (thrIsS t) f srcAB true = true ∧ Issues s t (touchA f srcAB true)) ∧
    (∃ (s : State) (t : Thr) (f : FmtA), legalP f (scaOk f.d) true (scaOk f.b) = true ∧ thrIsS t = false ∧ Issues s t ⟨[f.a], [f.d, f.b]⟩) ∧
    (∃ (s : State) (t : Thr) (f : FmtA), legalA (thrIsS t) f srcAB (unused f.mod) = true ∧ f.scl = false ∧ Issues s t (touchA f srcAB true)) :=
  ⟨⟨_, tE, ⟨1, true, 7, 7, 7, 0, false, false, 0⟩, by decide +kernel, tRun_issues _⟩, ⟨_, tS, ⟨1, true, 31, 7, 0, 0, false, false, 0⟩, by decide +kernel, tStw_issues _⟩,
    ⟨_, tE, ⟨1, true, 7, 31, 0, 0, false, false, 0⟩, by decide +kernel, tRun_issues _⟩,
    fun scl => ⟨_, tE, tA scl srcB 0, by cases scl <;> rfl, by cases scl <;> decide +kernel, tRun_issues _⟩,
    fun scl => ⟨_, tE, tA scl srcAB 7, by cases scl <;> rfl, by cases scl <;> decide +kernel, tRun_issues _⟩,
    ⟨_, tE, ⟨1, true, 31, 63, 31, 0, false, false, 0⟩, by decide +kernel, rfl, tRun_issues _⟩, ⟨_, tE, tA false srcAB 0, by decide +kernel, rfl, tRun_issues _⟩⟩

theorem wit_ImmediateResults :
    (∀ r ∈ immRules 32, ∃ (s : State) (t : Thr) (f : FmtI), f.imm < 2 ^ 32 ∧ f.scl = false ∧ legalI (thrIsS t) f r.2.1 (r.2.2.1.contains f.ik) = true ∧ Issues s t (touchI f r.2.1)) ∧
    (∀ r ∈ immRules 64, ∃ (s : State) (t : Thr) (f : FmtI), f.imm < 2 ^ 32 ∧ f.scl = true ∧ legalI (thrIsS t) f r.2.1 (r.2.2.1.contains f.ik) = true ∧ Issues s t (touchI f r.2.1)) ∧
    (∃ (s : State) (t : Thr) (f : FmtI), f.imm < 2 ^ 32 ∧ f.scl = true ∧ legalI (thrIsS t) f false (decide (f.ik = 2)) = true ∧ Issues s t (touchI f false)) := by
  have h1 : ∀ r ∈ immRules 32, legalI (thrIsS tE) ⟨7, true, 63, if r.2.1 then 63 else 0, false, 2, 0xFFFFFFFF⟩ r.2.1 (r.2.2.1.contains 2) = true := by decide +kernel
  have h2 : ∀ r ∈ immRules 64, legalI (thrIsS tS) ⟨7, true, 31, if r.2.1 then 31 else 0, true, 2, 0xFFFFFFFF⟩ r.2.1 (r.2.2.1.contains 2) = true := by decide +kernel
  exact ⟨fun r h => ⟨_, tE, _, (by decide : 0xFFFFFFFF < 2 ^ 32), rfl, h1 r h, tRun_issues _⟩, fun r h => ⟨_, tS, _, (by decide : 0xFFFFFFFF < 2 ^ 32), rfl, h2 r h, tStw_issues _⟩,
    ⟨_, tS, ⟨7, true, 31, 0, true, 2, 0⟩, by decide, rfl, by decide +kernel, tStw_issues _⟩⟩

/-- A format M instruction of lane 0 with size code `z` at OFF `off`, its data at v4 or s4. -/
def tM (scl : Bool) (z off : Nat) : FmtM := ⟨if scl then 0 else 1, false, 4, 0, 0, false, z, false, 0, scl, 0, off⟩
/-- `tRun` with the predicate of lane 0. -/
def tOneRun : State := tRun none tOne

theorem tOneRun_issues (x : Touch) : Issues tOneRun tE x := issues_of (by decide +kernel) (by decide +kernel) (by decide +kernel) x

theorem wit_LocalLoadResults :
    (∀ scl, ∀ z ∈ [2, 3], ∃ (s : State) (t : Thr) (f : FmtM), f.scl = scl ∧ f.size = z ∧ Issues s t (touchM f .load) ∧ legalM (thrIsS t) f .load true = true ∧
      LocalOk s t f ∧ s.lanesM t f ≠ []) ∧
    (∃ (s : State) (t : Thr) (f : FmtM), Issues s t (touchM f .load) ∧ legalM (thrIsS t) f .load (decide (2 ≤ f.size)) = true ∧
      (∀ l ∈ s.lanesM t f, s.addrM t f l % 4 = 0 ∧ (thrIsS t = true → s.addrM t f l < localEnd t)) ∧ thrIsS t = true ∧ s.lanesM t f ≠ []) ∧
    (∃ (s : State) (t : Thr) (f : FmtM) (e sl : Nat) (l : LaunchSt), Issues s t (touchM f .load) ∧ legalM (thrIsS t) f .load (decide (2 ≤ f.size)) = true ∧
      (∀ i ∈ s.lanesM t f, s.addrM t f i % 4 = 0 ∧ (thrIsS t = true → s.addrM t f i < localEnd t)) ∧ t = .eng e sl ∧ s.launch (s.th t).launch = some l ∧ s.lanesM t f ≠ []) := by
  unfold LocalOk
  refine ⟨fun scl z hz => ⟨tOneRun, tE, tM scl z 0x3FFF8, rfl, rfl, tOneRun_issues _, ?_⟩, ⟨tStw, tS, tM true 3 0x1FFFF8, tStw_issues _, by decide +kernel⟩,
    ⟨tOneRun, tE, tM false 2 0x3FC, 0, 0, tLaunch none, tOneRun_issues _, by decide +kernel⟩⟩
  revert z; cases scl <;> decide +kernel

theorem wit_LocalStoreBytes :
    ∀ scl, ∀ z ∈ [0, 1, 2, 3], ∃ (s : State) (t : Thr) (f : FmtM), f.scl = scl ∧ f.size = z ∧ Issues s t (touchM f .store) ∧ legalM (thrIsS t) f .store true = true ∧
      LocalOk s t f ∧ s.lanesM t f ≠ [] := by
  unfold LocalOk
  refine fun scl z hz => ⟨tOneRun, tE, tM scl z 0x3FFF8, rfl, rfl, tOneRun_issues _, ?_⟩
  revert z; cases scl <;> decide +kernel

theorem wit_LocalAtomicsAscend :
    ∀ cas : Bool, ∀ z ∈ [2, 3], ∃ (s : State) (t : Thr) (f : FmtM), let k := if cas then MemKind.cas else MemKind.atomic
      f.size = z ∧ Issues s t (touchM f k) ∧ legalM (thrIsS t) f k true = true ∧ LocalOk s t f ∧ s.lanesM t f ≠ [] := by
  unfold LocalOk
  refine fun cas z hz => ⟨tOneRun, tE, tM false z 8, rfl, tOneRun_issues _, ?_⟩
  revert z; cases cas <;> decide +kernel

theorem wit_GlobalLoadReturns :
    ∀ scl, ∃ (s : State) (t : Thr) (f : FmtM) (val : Nat → Nat), f.scl = scl ∧ t ≠ .watch ∧ Issues s t (touchM f .load) ∧ legalM (thrIsS t) f .load true = true ∧
      s.outstandingFull t = false ∧ s.lanesM t f ≠ [] ∧
      (∀ l ∈ s.lanesM t f, s.addrM t f l % fmBytes f = 0 ∧ ∃ bs, s.vread (s.thrCtx t) (s.addrM t f l) .read (fmBytes f) = .ok bs ∧ val l = leNat bs) := by
  refine fun scl => ⟨tOneRun, tE, tM scl 3 0x4000, fun _ => 0, rfl, by decide, tOneRun_issues _, by cases scl <;> decide +kernel, by decide +kernel, by cases scl <;> decide +kernel, ?_⟩
  have h : ∀ l ∈ tOneRun.lanesM tE (tM scl 3 0x4000), tOneRun.addrM tE (tM scl 3 0x4000) l % 8 = 0 ∧
      tOneRun.vread 1 (tOneRun.addrM tE (tM scl 3 0x4000) l) .read 8 = .ok (zeros 8) := by cases scl <;> decide +kernel
  exact fun l hl => ⟨(h l hl).1, _, (h l hl).2, (by decide : 0 = leNat (zeros 8))⟩

theorem wit_GlobalStoreBytes :
    ∀ scl, ∃ (s : State) (t : Thr) (f : FmtM) (pa : Nat → Nat), f.scl = scl ∧ t ≠ .watch ∧ Issues s t (touchM f .store) ∧ legalM (thrIsS t) f .store true = true ∧
      s.lanesM t f ≠ [] ∧ ∀ l ∈ s.lanesM t f, LaneAt s t f .write l (pa l) := by
  unfold LaneAt
  exact fun scl => ⟨tOneRun, tE, tM scl 3 0x4000, fun _ => 0x4000, rfl, by decide, tOneRun_issues _, by cases scl <;> decide +kernel, by cases scl <;> decide +kernel,
    by cases scl <;> decide +kernel⟩

theorem wit_GlobalAtomicsReturnOld :
    ∀ cas : Bool, ∃ (s : State) (t : Thr) (f : FmtM) (pa : Nat → Nat), let k := if cas then MemKind.cas else MemKind.atomic
      t ≠ .watch ∧ Issues s t (touchM f k) ∧ legalM (thrIsS t) f k true = true ∧ s.outstandingFull t = false ∧ s.lanesM t f = [0] ∧
      (∀ l ∈ s.lanesM t f, LaneAt s t f .atomic l (pa l) ∧ ∃ bs, s.vread (s.thrCtx t) (s.addrM t f l) .atomic (fmBytes f) = .ok bs) := by
  unfold LaneAt
  refine fun cas => ⟨tOneRun, tE, tM false 3 0x4000, fun _ => 0x4000, by decide, tOneRun_issues _, by cases cas <;> decide +kernel, by decide +kernel, by decide +kernel, fun l hl => ⟨?_, zeros 8, ?_⟩⟩
  all_goals revert l; decide +kernel

theorem wit_LocalFaultSuspends :
    ∀ off ∈ [0x3FFFC, 0x40000], ∃ (s : State) (e sl : Nat) (f : FmtM) (l : LaunchSt), let t := Thr.eng e sl
      let bad := fun i => decide (0x40000 ≤ s.addrM t f i) || decide (s.addrM t f i % fmBytes f ≠ 0)
      s.launch (s.th t).launch = some l ∧ (s.lanesM t f).filter bad ≠ [] ∧ s.addrM t f 0 = off ∧
      ∀ k : MemKind, Issues s t (touchM f k) ∧ legalM false f k true = true := by
  refine fun off h => ⟨tOneRun, 0, 0, tM false 3 off, tLaunch none, by decide +kernel, ?_, ?_, fun k => ⟨tOneRun_issues _, ?_⟩⟩
  · revert off; decide +kernel
  · revert off; decide +kernel
  · revert off; cases k <;> decide +kernel

theorem wit_BranchResults :
    (∀ r ∈ branchRules, ∃ (s : State) (t : Thr) (f : FmtB), let th := s.th t; let viaA := r.2.1; let link := r.2.2
      (predLegal f.pred f.neg && (if viaA then scaOk f.a && unused f.disp else unused f.a) && (if link then scaOk f.d else unused f.d)) = true ∧
      Issues s t ⟨[], (if viaA then [f.a] else []) ++ (if link then [f.d] else [])⟩ ∧ (viaA = true → (th.sw f.a).toNat % 8 = 0) ∧ s.mask t f.pred f.neg = 0 ∧ f.all = false) ∧
    (∀ r ∈ branchRules, ∃ (s : State) (t : Thr) (f : FmtB), let th := s.th t; let viaA := r.2.1; let link := r.2.2
      let target : BitVec 48 := if viaA then (th.sw f.a).setWidth 48 else th.pc + (BitVec.ofNat 30 f.disp).signExtend 48 * 8
      (predLegal f.pred f.neg && (if viaA then scaOk f.a && unused f.disp else unused f.a) && (if link then scaOk f.d else unused f.d)) = true ∧
      Issues s t ⟨[], (if viaA then [f.a] else []) ++ (if link then [f.d] else [])⟩ ∧ (viaA = true → (th.sw f.a).toNat % 8 = 0) ∧ s.mask t f.pred f.neg ≠ 0 ∧ f.all = false ∧
      s.inCode t (if viaA then (th.sw f.a).toNat else target.toNat) = true) ∧
    (∀ r ∈ [(true, false), (true, true)], ∃ (s : State) (t : Thr) (f : FmtB) (e sl : Nat) (l : LaunchSt), let th := s.th t
      (predLegal f.pred f.neg && (scaOk f.a && unused f.disp) && (if r.2 then scaOk f.d else unused f.d)) = true ∧
      Issues s t ⟨[], [f.a] ++ (if r.2 then [f.d] else [])⟩ ∧ t = .eng e sl ∧ s.launch th.launch = some l ∧ (th.sw f.a).toNat % 8 ≠ 0) ∧
    (∃ (s : State) (t : Thr) (f : FmtB) (e sl : Nat) (l : LaunchSt), let th := s.th t
      (predLegal f.pred f.neg && unused f.a && unused f.d) = true ∧ Issues s t ⟨[], []⟩ ∧ t = .eng e sl ∧ s.launch th.launch = some l ∧ s.mask t f.pred f.neg ≠ 0 ∧ f.all = false ∧
      s.inCode t (th.pc + (BitVec.ofNat 30 f.disp).signExtend 48 * 8).toNat = false) := by
  have i8 : ∀ x, Issues (tRun none { thrDefault 0 with s := [(31, 4)] }) tE x := fun x => issues_of (by decide +kernel) (by decide +kernel) (by decide +kernel) x
  refine ⟨fun r h => ?_, fun r h => ?_, fun r h => ?_, ⟨tOneRun, tE, ⟨1, false, 0, 0, false, 0x3FFFFFFF⟩, 0, 0, tLaunch none, by decide +kernel, tOneRun_issues _, by decide +kernel⟩⟩
  · simp only [branchRules, List.mem_cons, List.not_mem_nil, or_false] at h
    rcases h with rfl | rfl | rfl | rfl
    · exact ⟨tOneRun, tE, ⟨2, false, 0, 0, false, 5⟩, by decide +kernel, tOneRun_issues _, by decide +kernel⟩
    · exact ⟨tOneRun, tE, ⟨2, false, 0, 31, false, 0⟩, by decide +kernel, tOneRun_issues _, by decide +kernel⟩
    · exact ⟨tOneRun, tE, ⟨2, false, 31, 0, false, 5⟩, by decide +kernel, tOneRun_issues _, by decide +kernel⟩
    · exact ⟨tOneRun, tE, ⟨2, false, 31, 31, false, 0⟩, by decide +kernel, tOneRun_issues _, by decide +kernel⟩
  · simp only [branchRules, List.mem_cons, List.not_mem_nil, or_false] at h
    rcases h with rfl | rfl | rfl | rfl
    · exact ⟨tOneRun, tE, ⟨1, false, 0, 0, false, 0x1FF⟩, by decide +kernel, tOneRun_issues _, by decide +kernel⟩
    · exact ⟨tOneRun, tE, ⟨1, false, 0, 31, false, 0⟩, by decide +kernel, tOneRun_issues _, by decide +kernel⟩
    · exact ⟨tOneRun, tE, ⟨1, false, 31, 0, false, 0x1FF⟩, by decide +kernel, tOneRun_issues _, by decide +kernel⟩
    · exact ⟨tOneRun, tE, ⟨1, false, 31, 31, false, 0⟩, by decide +kernel, tOneRun_issues _, by decide +kernel⟩
  · simp only [List.mem_cons, List.not_mem_nil, or_false] at h
    rcases h with rfl | rfl
    · exact ⟨_, tE, ⟨0, false, 0, 31, false, 0⟩, 0, 0, tLaunch none, by decide +kernel, i8 _, by decide +kernel⟩
    · exact ⟨_, tE, ⟨0, false, 30, 31, false, 0⟩, 0, 0, tLaunch none, by decide +kernel, i8 _, by decide +kernel⟩

/-- `tOneRun` with three more threads of engine 0: thread 1 waits at BAR.E, 2 and 3 have ended. -/
def tBar : State :=
  let s := tOneRun.setThr 1 { thrDefault 0 with state := .runnable, launch := 1, wait := .barE }
  (s.setThr 2 { thrDefault 0 with state := .ended }).setThr 3 { thrDefault 0 with state := .ended }

theorem wit_SystemInstructionResults :
    (∀ x, Issues tBar tE x) ∧ (∀ x, Issues tStw tS x) ∧ (∃ s : State, Issues s .watch ⟨[], []⟩) ∧
    (∀ a, ∃ s : State, Issues s tE ⟨[], []⟩ ∧ (s.th tE).pend.any (·.atomic) = a) ∧ tBar.launch (tBar.th tE).launch = some (tLaunch none) ∧
    (∀ i ∈ tBar.otherLive 0 0, (tBar.thr i).wait = .barE) ∧ (∃ s : State, Issues s tE ⟨[], []⟩ ∧ ¬ ∀ i ∈ s.otherLive 0 0, (s.thr i).wait = .barE) ∧
    (∀ sel, sel < 7 → predLegal 7 true = true ∧ scaOk 31 = true ∧ thrIsS tE = false) := by
  have hw : ∀ x, Issues (tRun none { thrDefault 0 with pend := [⟨[], [(9, 0)], true⟩] }) tE x → True := fun _ _ => trivial
  refine ⟨fun x => issues_of (by decide +kernel) (by decide +kernel) (by decide +kernel) x, tStw_issues, ⟨tOpen.setThr 1032 { thrDefault 0 with state := .runnable }, ?_⟩,
    fun a => ⟨tRun none { thrDefault 0 with pend := if a then [⟨[], [(9, 0)], true⟩] else [] }, ?_⟩, by decide +kernel, by decide +kernel,
    ⟨tBar.setThr 3 { thrDefault 0 with state := .runnable, launch := 1 }, ?_⟩, fun sel _ => ⟨by decide, by decide, by decide⟩⟩
  · unfold Issues; decide +kernel
  · unfold Issues; cases a <;> decide +kernel
  · unfold Issues; decide +kernel

theorem wit_IllegalInstructionSuspends :
    (∃ s : State, s.canIssue tE = true ∧ s.inCode tE (s.th tE).pc.toNat = false ∧ s.launch (s.th tE).launch = some (tLaunch none)) ∧
    tOneRun.canIssue tE = true ∧ tOneRun.launch (tOneRun.th tE).launch = some (tLaunch none) ∧ tStw.canIssue tS = true ∧
    legalWord tE 0xFF00000000000000 = false ∧ legalWord tS 0xFF00000000000000 = false ∧
    (∀ r ∈ intRules 32, ∃ f : FmtA, legalA false f r.2.1 (unused f.mod) = false) ∧ (∀ r ∈ floatRules, ∃ f : FmtA, legalA true f r.2.1 (unused f.mod) = false) ∧
    (∀ r ∈ immRules 32, ∃ f : FmtI, legalI false f r.2.1 (r.2.2.1.contains f.ik) = false) ∧ (∃ f : FmtM, legalM false f .load true = false ∧ legalM false f .store true = false) ∧
    (∃ f : FmtB, (predLegal f.pred f.neg && unused f.a && unused f.d) = false) := by
  have h1 : ∀ r ∈ intRules 32, legalA false (tA false r.2.1 1) r.2.1 false = false := by decide +kernel
  have h2 : ∀ r ∈ floatRules, legalA true (tA false r.2.1 0) r.2.1 true = false := by decide +kernel
  have h3 : ∀ r ∈ immRules 32, legalI false ⟨0, true, 0, 0, false, 0, 0⟩ r.2.1 (r.2.2.1.contains 0) = false := by decide +kernel
  exact ⟨⟨tRun none { thrDefault 0 with pc := 0x1000 }, by decide +kernel⟩, by decide +kernel, by decide +kernel, by decide +kernel, by decide +kernel, by decide +kernel,
    fun r h => ⟨_, h1 r h⟩, fun r h => ⟨_, h2 r h⟩, fun r h => ⟨_, h3 r h⟩, ⟨{ tM false 2 0 with pred := 0, neg := true }, by decide⟩, ⟨⟨0, true, 0, 0, false, 0⟩, by decide⟩⟩

/-- A launch descriptor: 8 bytes of code, context 1, hamlet mask `m`, 4 threads. -/
def tDesc (m : Nat) : List Byte := tRec 96 [(0, 8, 0x100), (8, 4, 8), (0xC, 2, 1), (0xE, 2, m), (0x1C, 1, 4), (0x1D, 1, 2)]
/-- `tStw` with a descriptor at 0x1FFFA0 of steward SRAM, whose address is in s1. -/
def tLch (m : Nat) : State :=
  let s := tStw.setThr 1024 { thrDefault 0 with s := [(1, 0x1FFFA0)] }
  { s with aq := { s.aq with sram := mapPutList byteDefault [] 0x1FFFA0 (tDesc m) } }

theorem wit_LaunchAndEventQueues :
    (∀ m ∈ [0x8000, 0], ∃ (s : State) (c d a : Nat), let t := Thr.stw c; let adr := (s.th t).sr a; let b := mapGetList byteDefault s.aq.sram adr 96
      Issues s t ⟨[], [d, a]⟩ ∧ scaOk d = true ∧ scaOk a = true ∧ adr % 32 = 0 ∧ adr < 0x200000 ∧ s.aq.launches.length < 65000 ∧
      (s.aq.launches.filter (fun p => decide (p.2.core = c) && (p.2.phase == .queued))).length < 16 ∧
      (m ≠ 0 ↔ s.launchRefusal (LaunchDesc.ofBytes b) b = 0)) ∧
    (∀ e ∈ [[], [mkEv 1 2 3 4]], ∃ (s : State) (c d : Nat), let t := Thr.stw c
      Issues s t ⟨[], [d, d + 1, d + 2, d + 3]⟩ ∧ d % 4 = 0 ∧ 4 ≤ d ∧ d ≤ 28 ∧ (s.stw c).evq = e) ∧
    (∃ (s : State) (c : Nat), (s.stw c).evq.length ≤ 256 ∧ (s.stw c).evq.length = 256 ∧ (s.stw c).held ≠ []) := by
  refine ⟨fun m h => ⟨tLch m, 0, 31, 1, issues_of (by revert m; decide +kernel) (by revert m; decide +kernel) (by revert m; decide +kernel) _, ?_⟩,
    fun e h => ⟨tStw.setStw 0 { evq := e, held := [] }, 0, 28, ?_⟩, ⟨tStw.setStw 0 { evq := List.replicate 256 (mkEv 0 0 0 0), held := [mkEv 0 0 0 0] }, 0, by decide +kernel⟩⟩
  · revert m; decide +kernel
  · unfold Issues; revert e; decide +kernel

/-- `tRun` with steward 0, whose s1 holds `x` and s2 `y`. -/
def tCtl (s : State) (x y : Nat) : State := (s.put R.STW_STAT_HALTED 0).setThr 1024 { thrDefault 0 with s := [(1, BitVec.ofNat 64 x), (2, BitVec.ofNat 64 y)] }
/-- Launch 1 saved from hamlet 0. -/
def tSaved : State :=
  let x : SavedHamlet := ⟨1, 0, [(0, tOneRun.thr 0)], [], [], [], dmaDefault 0, [], some ⟨1, 5, none, none⟩⟩
  (({ tOneRun with aq := { tOneRun.aq with saved := [x] } } : State).setHamlet 0 (hamletDefault 0)).setLaunch 1 { tLaunch none with savedMask := 1 }

theorem tCtl_issues {s : State} {x y : Nat} (h1 : (tCtl s x y).canIssue tS = true) (h2 : ((tCtl s x y).th tS).pend = []) (r : Touch) : Issues (tCtl s x y) tS r :=
  issues_of h1 rfl h2 r

theorem wit_StewardControlsLaunches :
    (∃ (s : State) (a b : Nat), let x := (s.th tS).sr a
      scaOk a = true ∧ scaOk b = true ∧ Issues s tS ⟨[], [a]⟩ ∧ bitAt x 0 = true ∧ s.savable 0 = true) ∧
    (∃ (s : State) (a : Nat), let x := (s.th tS).sr a
      scaOk a = true ∧ Issues s tS ⟨[], [a]⟩ ∧ s.restorable 0 = some 1 ∧ bitAt x 0 = true) ∧
    (∀ v, ∃ (s : State) (a : Nat) (l : LaunchSt), let x := (s.th tS).sr a
      scaOk a = true ∧ Issues s tS ⟨[], [a]⟩ ∧ x < 65536 ∧ s.launch x = some l ∧ s.savingNow x = v) ∧
    (∀ x ∈ [65536, 5], ∃ (s : State) (a : Nat), scaOk a = true ∧ Issues s tS ⟨[], [a]⟩ ∧ (s.th tS).sr a = x ∧ (65536 ≤ x ∨ s.launch x = none)) ∧
    (∀ y ∈ [1024, 0], ∃ (s : State) (a b : Nat), let x := (s.th tS).sr a
      Issues s tS ⟨[], [a, b]⟩ ∧ (s.th tS).sr b = y ∧ (65536 ≤ x ∨ 1024 ≤ y ∨ s.launch x = none)) ∧
    (∃ (s : State) (a b i : Nat) (l : LaunchSt), let x := (s.th tS).sr a; let y := (s.th tS).sr b
      Issues s tS ⟨[], [a, b]⟩ ∧ x < 65536 ∧ y < 1024 ∧ s.launch x = some l ∧ s.savedIdx x (y / 64) = some i) ∧
    (∀ st ∈ [TState.runnable, .suspended], ∃ (s : State) (a b : Nat) (l : LaunchSt), let x := (s.th tS).sr a; let y := (s.th tS).sr b
      Issues s tS ⟨[], [a, b]⟩ ∧ x < 65536 ∧ y < 1024 ∧ s.launch x = some l ∧ s.savedIdx x (y / 64) = none ∧ (s.thr y).launch = x ∧
      (s.hamlet (y / 64)).holder = some x ∧ (s.thr y).state = st) := by
  refine ⟨⟨tCtl tOneRun 1 0, 1, 2, by decide, by decide, tCtl_issues (by decide +kernel) (by decide +kernel) _, by decide +kernel⟩,
    ⟨tCtl tSaved 1 0, 1, by decide, tCtl_issues (by decide +kernel) (by decide +kernel) _, by decide +kernel⟩,
    fun v => ⟨tCtl (tOneRun.setHamlet 0 { hamletDefault 0 with holder := some 1, phase := if v then .saving none else .normal }) 1 0, 1, tLaunch none, by decide,
      tCtl_issues (by cases v <;> decide +kernel) (by cases v <;> decide +kernel) _, by cases v <;> decide +kernel⟩,
    fun x h => ⟨tCtl tOneRun x 0, 1, by decide, tCtl_issues (by revert x; decide +kernel) (by revert x; decide +kernel) _, by revert x; decide +kernel⟩,
    fun y h => ⟨tCtl tOneRun 7 y, 1, 2, tCtl_issues (by revert y; decide +kernel) (by revert y; decide +kernel) _, by revert y; decide +kernel⟩,
    ⟨tCtl tSaved 1 63, 1, 2, 0, { tLaunch none with savedMask := 1 }, tCtl_issues (by decide +kernel) (by decide +kernel) _, by decide +kernel⟩,
    fun st h => ⟨tCtl (tOneRun.setThr 0 { tOneRun.thr 0 with state := st }) 1 0, 1, 2, tLaunch none,
      tCtl_issues (by revert st; decide +kernel) (by revert st; decide +kernel) _, by revert st; decide +kernel⟩⟩

theorem wit_LaunchStartsAndCompletes :
    (∀ rays, ∃ (s : State) (k : Nat) (l : LaunchSt) (bs : List Byte), s.launch k = some l ∧ s.mayStart k l = true ∧ l.desc.hmask < 65536 ∧ l.desc.constSize ≤ 65536 ∧
      l.desc.rays = rays ∧ (s.nextDue l.desc.hmask).map (·.1) = some 1 ∧
      (∀ wk w, l.desc.rays = true → s.nextDue l.desc.hmask = some (wk, w) → s.mapBlocked wk w = false ∧ ∀ b, w.band = some b → s.slotReady w b l.desc.hmask = false) ∧
      s.vread l.desc.ctx l.desc.const .read l.desc.constSize = .ok bs) ∧
    (∃ (s : State) (k : Nat) (l : LaunchSt), s.launch k = some l ∧ l.phase = .running ∧ l.savedMask = 0 ∧ s.savingNow k = false ∧
      (∀ h, h < 16 → (s.hamlet h).holder = some k → ∀ key ∈ hamletKeys h, (s.thr key).state = .idle ∨ (s.thr key).state = .ended) ∧ s.spanComplete l = true ∧
      (s.hamlet 0).holder = some k) ∧
    (∃ (s : State) (k : Nat), ∀ l, s.launch k = some l → s.mayStart k l = false) := by
  refine ⟨fun rays => ?_, ⟨tOneRun.setThr 0 { tOneRun.thr 0 with state := .ended }, 1, tLaunch none, by decide +kernel⟩, ⟨tOpen, 7, ?_⟩⟩
  · let l : LaunchSt := { tLaunch none with phase := .queued, desc := { (tLaunch none).desc with rays := rays, hmask := 0x8000, constSize := 16 } }
    let s : State := ((tOpen.put R.ENG_CTL_ENABLE 1).setLaunch 1 l).setSynWork 1 tWork
    have hd : s.nextDue l.desc.hmask = some (1, tWork) := by cases rays <;> decide +kernel
    have hnb : ∀ b, tWork.band = some b → s.slotReady tWork b l.desc.hmask = false := by
      have h0 : tWork.band = none := by decide +kernel
      intro b hb; rw [h0] at hb; cases hb
    refine ⟨s, 1, l, zeros 16, by cases rays <;> decide +kernel, by cases rays <;> decide +kernel, by cases rays <;> decide +kernel, by cases rays <;> decide +kernel, rfl,
      by rw [hd]; rfl, ?_, by cases rays <;> decide +kernel⟩
    intro wk w _ h
    rw [hd] at h
    obtain ⟨rfl, rfl⟩ := by simpa using h
    exact ⟨by cases rays <;> decide +kernel, fun b hb => hnb b hb⟩
  · intro l h
    have : tOpen.launch 7 = none := by decide +kernel
    rw [this] at h; cases h

/-- Hamlet 0 is being saved, and has been stored or not. -/
def tSaving (done : Bool) : State :=
  let s := tOneRun.setHamlet 0 { hamletDefault 0 with holder := some 1, phase := .saving none }
  let s := s.setHamlet 1 { hamletDefault 0 with holder := some 1, phase := .saving none }
  if done then { s with aq := { s.aq with saved := [⟨1, 0, [(0, tOneRun.thr 0)], [], [], [], dmaDefault 0, [], some ⟨1, 5, none, none⟩⟩] } } else s

/-- Save maps that map what lies below 64 GiB as it is. -/
def tSaveMap (s : State) : State := { s with mmu := { s.mmu with saveMap := [(16, [⟨1, 0, 36, 0, true, false, true⟩])] } }

/-- A save area there can be read. -/
theorem saveReadable_of {s : State} (ho : s.hbmOpen = true) (hp : s.poison = []) (n : Nat) (h : n ≤ 2 ^ 24) :
    s.saveReadable [⟨1, 0, 36, 0, true, false, true⟩] 0x1000 n = true := by
  unfold State.saveReadable
  rw [List.all_eq_true]
  intro i hi
  have hi' : i < n / 32 := List.mem_range.1 hi
  have hlt : 0x1000 + 32 * i < 68719476736 := by omega
  have ha : saveAt [⟨1, 0, 36, 0, true, false, true⟩] (0x1000 + 32 * i) = some (0x1000 + 32 * i) := by simp [saveAt, hlt]
  rw [ha]
  have ht : hbmTop = 103079215104 := by decide +kernel
  have hb : 0x1000 + 32 * i < hbmTop := by omega
  simp [State.physByte, hb, ho, hp]

theorem tSaveMap_linear (a b i j : Nat) (ha : saveAt [⟨1, 0, 36, 0, true, false, true⟩] a = some i) (hb : saveAt [⟨1, 0, 36, 0, true, false, true⟩] b = some j) :
    i + b = j + a := by
  simp only [saveAt, List.find?_cons, List.find?_nil] at ha hb
  split at ha <;> split at hb <;> simp_all
  omega

theorem wit_SaveAndRestoreHamlet :
    (∃ (s : State) (h k : Nat) (l : LaunchSt), h < 16 ∧ (s.hamlet h).holder = some k ∧ s.launch k = some l ∧ (s.hamlet h).phase = .saving none ∧
      (s.hamlet h).subst = none ∧ s.savedIdx k h = none ∧ (∃ e sl pa, e < 16 ∧ sl < 4 ∧ pa + 8 ≤ hbmTop ∧
        saveAt (s.saveMapFor k h) (l.desc.save + 0x1000 + h * 0x511000 + 0x1000 + e * 0x51000 + 0x200 + sl * 0x4200 + 0x4140) = some pa) ∧
      (∀ a b i j, saveAt (s.saveMapFor k h) a = some i → saveAt (s.saveMapFor k h) b = some j → i + b = j + a)) ∧
    (∃ (s : State) (h k : Nat) (l : LaunchSt) (i : Nat), h < 16 ∧ (s.hamlet h).holder = some k ∧ s.launch k = some l ∧ (s.hamlet h).phase = .saving none ∧
      s.savedIdx k h = some i ∧ s.groupOpen k h = true ∧ (s.hamlet h).substWait = []) ∧
    (∃ (s : State) (h k : Nat) (l : LaunchSt) (bs : List Byte), h < 16 ∧ s.restorable h = some k ∧ s.launch k = some l ∧ s.ctxOn l.desc.ctx = true ∧
      s.saveReadable (s.saveMapFor k h) (l.desc.save + saveOff h) 0x511000 = true ∧ s.vread l.desc.ctx l.desc.const .read l.desc.constSize = .ok bs) ∧
    (∃ (s : State) (h k : Nat) (l : LaunchSt) (x : SavedHamlet), h < 16 ∧ (s.hamlet h).holder = some k ∧ (s.hamlet h).phase = .restoring k ∧
      s.launch k = some l ∧ s.aq.saved.find? (fun y => decide (y.handle = k) && decide (y.hamlet = h)) = some x ∧ x.acts = [] ∧ (s.hamlet h).substWait = [] ∧ x.span ≠ none) := by
  have hm : ∀ s : State, (tSaveMap s).saveMapFor 1 0 = [⟨1, 0, 36, 0, true, false, true⟩] := fun _ => rfl
  refine ⟨⟨tSaveMap (tSaving false), 0, 1, tLaunch none, by decide +kernel, by decide +kernel, by decide +kernel, by decide +kernel, by decide +kernel, by decide +kernel,
      ⟨15, 3, _, by decide, by decide, ?_, rfl⟩, fun a b i j ha hb => ?_⟩,
    ⟨tSaving true, 0, 1, tLaunch none, 0, by decide +kernel⟩,
    ⟨(tSaveMap tSaved).setLaunch 1 { tLaunch none with savedMask := 1, desc := { (tLaunch none).desc with constSize := 16 } }, 0, 1,
      { tLaunch none with savedMask := 1, desc := { (tLaunch none).desc with constSize := 16 } }, zeros 16, by decide, by decide +kernel, by decide +kernel, by decide +kernel, ?_,
      by decide +kernel⟩,
    ⟨tSaved.setHamlet 0 { hamletDefault 0 with holder := some 1, phase := .restoring 1 }, 0, 1, { tLaunch none with savedMask := 1 },
      ⟨1, 0, [(0, tOneRun.thr 0)], [], [], [], dmaDefault 0, [], some ⟨1, 5, none, none⟩⟩, by decide +kernel⟩⟩
  · decide +kernel
  · rw [hm (tSaving false)] at ha hb; exact tSaveMap_linear a b i j ha hb
  · exact saveReadable_of (s := (tSaveMap tSaved).setLaunch 1 { tLaunch none with savedMask := 1, desc := { (tLaunch none).desc with constSize := 16 } })
      (by decide +kernel) (by decide +kernel) 0x511000 (by decide)

theorem wit_EngineFaultsAndSpares :
    (∃ (s : State) (e sl : Nat) (l : LaunchSt), s.launch (s.thr (e * 4 + sl)).launch = some l ∧ (s.thr (e * 4 + sl)).state = .runnable) ∧
    (∃ (s : State) (c : Nat), c = 7 ∧ bitAt (s.get R.STW_STAT_HALTED) c = false) ∧
    (∃ (s : State) (h p sl e : Nat), h < 16 ∧ p < 17 ∧ s.logicalOf h p = some e ∧ (s.hamlet h).phase = .normal ∧ sl < 4 ∧
      (s.thr ((h * 16 + e) * 4 + sl)).state = .runnable) ∧
    (∀ ok, ∃ (s : State) (h e : Nat), h < 16 ∧ e = 15 ∧ bitAt (s.live h) e = true ∧ (s.hamlet h).phase = .normal ∧ (s.hamlet h).subst = none ∧
      (s.get (R.ENG_HSTAT_SPARE h) ≠ 0x1F ∧ (s.hamlet h).spareOk = ok)) ∧
    (∀ r, ∃ (s : State) (h : Nat) (m : Subst), h < 16 ∧ (s.hamlet h).subst = some m ∧ (s.hamlet h).substWait = [] ∧ m.logical < 16 ∧ m.spare < 17 ∧ m.rotate = r) ∧
    (∃ (s : State) (h : Nat), h < 16 ∧ s.get (R.ENG_HSTAT_SPARE h) ≠ 0x1F ∧ (s.hamlet h).subst = none) := by
  refine ⟨⟨tOneRun, 0, 0, tLaunch none, by decide +kernel⟩, ⟨State.reset.put R.STW_STAT_HALTED 0x7F, 7, by decide +kernel⟩,
    ⟨tOneRun, 0, 0, 0, 0, by decide +kernel⟩,
    fun ok => ⟨tOneRun.setHamlet 0 { tOneRun.hamlet 0 with spareOk := ok }, 0, 15, by cases ok <;> decide +kernel⟩,
    fun r => ⟨tOneRun.setHamlet 15 { tOneRun.hamlet 15 with subst := some ⟨15, 16, r⟩ }, 15, ⟨15, 16, r⟩, by cases r <;> decide +kernel⟩,
    ⟨tOneRun, 15, by decide +kernel⟩⟩


/-! ### Commits, frames and sequencers -/

/-- Scan-out is enabled with tiles 0 and 63, in the class LOCKED or not, with its state changed by `f`. -/
def tSco (locked : Bool) (f : ScoSt → ScoSt) : State :=
  let s := ((((State.reset.put R.SCO_CTL_ENABLE 1).putA R.SCO_TEN_LO_EN 1).putA R.SCO_TEN_HI_EN 0x80000000).putA R.SCO_MODE_CLASS (b2n locked)).putA R.SCO_PHASE_PHASE 5
  { s with sco := f { s.sco with accepted := true } }
/-- In a frame, at line `l`, in vertical blanking or not. -/
def tAt (l : Nat) (blank : Bool) (x : ScoSt) : ScoSt := { x with inFrame := true, line := l, blank := blank }
/-- The edge source of LOCKED is the PTP frame clock. -/
def tFc (f : ScoSt → ScoSt) : State := (tSco true f).putA R.SCO_MODE_SRC 1
/-- Sequencers: SCO_STAT.SEQ, and the states of A and B. -/
def tSeq (q : Nat) (a : SeqASt) (b : SeqBSt) : State := (tSco false (fun x => { x with seqA := a, seqB := b })).put R.SCO_STAT_SEQ q

/-- A frame of frame mode that is being synthesized. -/
def tFrameWork : SynWork :=
  { band := none, ring := 0, tag := 0, slot := 0, seq := 0, pts := 0, isStatic := false, bound := ⟨none, 0, 0, none, none, []⟩, started := 1, exhausted := 0, ctx := 1,
    targets := [], written := [], complete := [], abandoned := false, startNs := 0, newMap := none, cost := none, measured := false }

theorem wit_CommitsAreAllOrNone :
    (∃ (s : State), s.sco.armed.isSome = true) ∧
    (∀ late, ∃ (s : State), s.sco.armed = none ∧ s.sco.inFrame = true ∧ s.lockedClass = true ∧
      decide (s.sco.line + s.getA R.SCO_VGEOM_WINDOW < s.active) = !late) ∧
    (∀ early, ∃ (s : State), s.sco.armed = none ∧ s.sco.inFrame = true ∧ s.lockedClass = false ∧ s.get64 R.SCO_DUE_LO_DUE R.SCO_DUE_HI_DUE = 0 ∧
      decide (s.sco.line + s.getA R.SCO_VGEOM_WINDOW < s.active) = early) ∧
    (∃ (s : State) (a : Nat), s.sco.armed = none ∨ holdsSh a = false) ∧
    (∃ (s : State) (a r o : Nat) (row : RegRow) (f g : FieldRow), s.sco.armed.isSome = true ∧ holdsSh a = true ∧ regRow a = some (row, o) ∧ f ∈ row.fields ∧ f.typ = .sh ∧
      r = 0 ∧ g = f) ∧
    (∃ (s : State), s.atCommitPoint = false) ∧
    (∀ ok, ∃ (s : State), s.atCommitPoint = true ∧ decide (s.commitReason = 0) = ok) ∧
    (∃ (s : State) (t l c : Nat), s.atCommitPoint = true ∧ s.cmpReason = some (t, l, c)) ∧
    (∃ (s : State), s.atCommitPoint = true ∧ s.commitReason = 0 ∧ s.on R.SYN_CTL_MODE ≠ s.bandMode ∧ s.drained = false) := by
  refine ⟨⟨tSco false (fun x => { x with armed := some ⟨0, 0, false⟩ }), by decide +kernel⟩,
    fun late => ⟨tSco true (tAt (if late then 4080 else 4079) false), by cases late <;> decide +kernel⟩,
    fun early => ⟨tSco false (tAt (if early then 4079 else 4080) false), by cases early <;> decide +kernel⟩,
    ⟨State.reset, 0, by decide +kernel⟩, ?_, ⟨State.reset, by decide +kernel⟩,
    fun ok => ⟨(tSco true (fun x => { x with armed := some ⟨0, 0, false⟩ })).put R.SCO_MODE_GL_DIV (if ok then 1 else 0), by cases ok <;> decide +kernel⟩, ?_,
    ⟨(((tSco true (fun x => { x with armed := some ⟨0, 0, false⟩ })).put R.SCO_MODE_GL_DIV 1).put R.SYN_CTL_MODE 1).setSynWork 1 tFrameWork, by decide +kernel⟩⟩
  · have h : (match regRow R.SCO_LINE_LINE_CLKS.addr with
      | some (row, _) => row.fields.any (fun f => f.typ == .sh)
      | none => false) = true := by decide +kernel
    cases e : regRow R.SCO_LINE_LINE_CLKS.addr with
    | none => rw [e] at h; cases h
    | some p =>
      rw [e] at h
      obtain ⟨f, hf, ht⟩ := List.any_eq_true.1 h
      exact ⟨tSco false (fun x => { x with armed := some ⟨0, 0, false⟩ }), R.SCO_LINE_LINE_CLKS.addr, 0, p.2, p.1, f, f, by decide +kernel, by decide +kernel, e, hf, by simpa using ht, rfl, rfl⟩
  · exact ⟨(((tSco false (fun x => { x with armed := some ⟨0, 0, false⟩ })).put R.SCO_TEN_LO_EN 1).put (R.CMP_TCTL_EN 0) 1).put (R.CMP_LCTL_EN 0 1) 1, 0, 1, 4, by decide +kernel, by decide +kernel⟩

theorem wit_FramesLinesAndLock :
    (∀ n : Fin 3, ∃ (s : State), if n = 0 then s.canScan = false else if n = 1 then s.lockedClass = true ∧ s.sco.due = none else s.lockedClass = false ∧ s.startLine = false) ∧
    (∀ n : Fin 3, ∃ (s : State) (f : Nat), s.canScan = true ∧ (if n = 0 then s.lockedClass = true ∧ s.sco.due = some (some f)
      else f = s.frameNo + 1 ∧ if n = 1 then s.lockedClass = true ∧ s.sco.due = some none else s.lockedClass = false ∧ s.startLine = true)) ∧
    (∃ (s : State), s.canScan = true ∧ s.lockedClass = false ∧ s.sco.inFrame = true ∧ s.sco.blank = true ∧ s.sco.line = s.vMax ∧ s.sco.ready = none) ∧
    (∃ (s : State) (r : Nat), s.canScan = true ∧ s.lockedClass = false ∧ s.sco.inFrame = true ∧ s.sco.blank = true ∧ s.sco.line = s.vMax ∧ s.sco.ready = some r ∧
      s.leadPast r s.vMax = false) ∧
    (∃ (s : State), s.sco.blank = true ∧ s.lockedClass = false ∧ s.sco.line + 1 = s.vMax) ∧
    (∀ b, ∃ (s : State), s.sco.inFrame = true ∧ s.sco.blank = b ∧ (if b then s.active ≤ s.sco.line else s.sco.line + 1 = s.active) ∧ s.sco.line < s.vMax ∧ s.lockedClass = false) ∧
    (∃ (s : State), s.lockedClass = true ∧ s.sco.inFrame = true ∧ s.sco.blank = true ∧ s.vMax ≤ s.sco.line) ∧
    (∀ t, t = 0 ∨ t = 63 → ∃ (s : State), s.bandMode = true ∧ s.sco.inFrame = true ∧ s.tileOn t = true ∧ s.sco.line < s.active ∧
      s.sco.line % 64 = s.getA (R.SYN_WMARK_LINE t) ∧ (s.tilesOn.head? = some t ↔ t = 0) ∧ s.modeDue = false) ∧
    (∃ (s : State), s.sco.inFrame = true ∧ s.sco.blank = false ∧ s.sco.line + 1 = s.active) ∧
    (∃ (s : State), s.sco.inFrame = true ∧ s.sco.blank = false ∧ s.sco.line = s.active ∧ s.tilesOn ≠ []) ∧
    (∃ (s : State) (fall : Bool), s.onA R.SCO_MODE_GL_POL ≠ fall) ∧
    (∃ (s : State) (fall : Bool), s.on R.SCO_CTL_ENABLE = true ∧ s.lockedClass = true ∧ s.ptpSource = false ∧ s.onA R.SCO_MODE_GL_POL = fall ∧ s.sco.div + 1 < s.getA R.SCO_MODE_GL_DIV) ∧
    (∃ (s : State) (fall : Bool), s.on R.SCO_CTL_ENABLE = true ∧ s.lockedClass = true ∧ s.ptpSource = false ∧ s.onA R.SCO_MODE_GL_POL = fall ∧ s.getA R.SCO_MODE_GL_DIV ≤ s.sco.div + 1 ∧
      s.sco.edgeAt = none ∧ s.on R.SCO_STAT_LOCKED = false ∧ s.sco.ivals = []) ∧
    (∀ n : Fin 4, ∃ (s : State) (fall : Bool) (e : Nat), s.on R.SCO_CTL_ENABLE = true ∧ s.lockedClass = true ∧ s.ptpSource = false ∧ s.onA R.SCO_MODE_GL_POL = fall ∧
      s.getA R.SCO_MODE_GL_DIV ≤ s.sco.div + 1 ∧ s.sco.edgeAt = some e ∧
      if n = 0 then s.on R.SCO_STAT_LOCKED = false ∧ s.qualifies (((s.pix - e) :: s.sco.ivals).take 3) = false
      else s.on R.SCO_STAT_LOCKED = true ∧ if n = 1 then s.longEnough = true ∧ s.getA R.SCO_PHASE_PHASE ≠ 0 ∧ s.canScan = true
        else if n = 2 then s.longEnough = true ∧ s.getA R.SCO_PHASE_PHASE = 0 ∧ s.canScan = true else s.longEnough = false) ∧
    (∃ (s : State) (fall : Bool) (e : Nat), s.on R.SCO_CTL_ENABLE = true ∧ s.lockedClass = true ∧ s.ptpSource = false ∧ s.onA R.SCO_MODE_GL_POL = fall ∧
      s.getA R.SCO_MODE_GL_DIV ≤ s.sco.div + 1 ∧ s.sco.edgeAt = some e ∧ s.on R.SCO_STAT_LOCKED = true ∧ s.longEnough = true ∧ s.canScan = false) ∧
    (∀ long, ∃ (s : State) (n : Nat), s.on R.SCO_CTL_ENABLE = true ∧ s.lockedClass = true ∧ s.ptpSource = true ∧ s.fcNow = some n ∧ s.sco.lastN ≠ some n ∧
      s.longEnough = long ∧ s.getA R.SCO_PHASE_PHASE ≠ 0 ∧ s.canScan = true) ∧
    (∃ (s : State), s.on R.SCO_CTL_ENABLE = true ∧ s.lockedClass = true ∧ s.ptpSource = true ∧ s.fcNow = none ∧ s.sco.lastN = some 1) ∧
    (∃ (s : State), s.on R.SCO_CTL_ENABLE = true ∧ s.lockedClass = true ∧ s.ptpSource = true ∧ s.fcNow = s.sco.lastN ∧ s.fcNow ≠ none) ∧
    (∃ (s : State), s.on R.SCO_CTL_ENABLE = true ∧ s.lockedClass = true ∧ s.holdoverDue = false) ∧
    (∀ l, ∃ (s : State), s.on R.SCO_CTL_ENABLE = true ∧ s.lockedClass = true ∧ s.sco.armed = none ∧ s.on R.SCO_STAT_LOCKED = l ∧ s.holdoverDue = true) ∧
    (∀ e, ∃ (s : State), s.on R.SCO_CTL_ENABLE = e ∧ s.lockedClass = true) ∧
    (∃ (s : State) (t l : Nat), t = 63 ∧ l = 7 ∧ s.sco.inFrame = true ∧ s.tileOn t = true ∧ s.composes t = true) := by
  refine ⟨fun n => ⟨if n = 0 then State.reset else if n = 1 then tSco true id else tSco false (tAt 4095 false), ?_⟩,
    fun n => ⟨if n = 0 then tSco true (fun x => { x with due := some (some 7) }) else if n = 1 then tSco true (fun x => { x with due := some none }) else tSco false id,
      if n = 0 then 7 else 1, ?_⟩,
    ⟨tSco false (tAt 10400 true), by decide +kernel⟩, ⟨tSco false (fun x => { tAt 10400 true x with ready := some 10399 }), 10399, by decide +kernel⟩,
    ⟨tSco false (tAt 10399 true), by decide +kernel⟩,
    fun b => ⟨tSco false (tAt (if b then 4096 else 4095) b), by cases b <;> decide +kernel⟩, ⟨tSco true (tAt 10400 true), by decide +kernel⟩,
    fun t ht => ⟨((tSco false (tAt 4095 false)).putA R.SYN_CTL_MODE 1).putA (R.SYN_WMARK_LINE t) 63, ?_⟩,
    ⟨tSco false (tAt 4095 false), by decide +kernel⟩, ⟨tSco false (tAt 4096 false), by decide +kernel⟩, ⟨State.reset, true, by decide +kernel⟩,
    ⟨(tSco true id).putA R.SCO_MODE_GL_DIV 2, false, by decide +kernel⟩, ⟨tSco true id, false, by decide +kernel⟩,
    fun n => ⟨if n = 0 then tSco true (fun x => { x with edgeAt := some 0 })
      else ((tSco true (fun x => tAt (if n = 3 then 4127 else 4128) true { x with edgeAt := some 0 })).put R.SCO_STAT_LOCKED 1).putA R.SCO_PHASE_PHASE (if n = 2 then 0 else 1), false, 0, ?_⟩,
    ⟨(((tSco true id).put R.SCO_STAT_LOCKED 1).put R.SCO_STAT_SEQ 2).setSco { (tSco true id).sco with edgeAt := some 0 }, false, 0, by decide +kernel⟩,
    fun long => ⟨tFc (tAt (if long then 4128 else 4127) true), 0, by cases long <;> decide +kernel⟩,
    ⟨(tFc (fun x => { x with lastN := some 1 })).putA R.SCO_FCT0_LO_T0 1, by decide +kernel⟩, ⟨tFc (fun x => { x with lastN := some 0 }), by decide +kernel⟩,
    ⟨tSco true (tAt 4128 true), by decide +kernel⟩,
    fun l => ⟨((tSco true id).put R.SCO_STAT_LOCKED (b2n l)), by cases l <;> decide +kernel⟩,
    fun e => ⟨(tSco true id).put R.SCO_CTL_ENABLE (b2n e), by cases e <;> decide +kernel⟩,
    ⟨((tSco false (tAt 4095 false)).put R.CMP_CTL_ENABLE 1).putA (R.CMP_TCTL_EN 63) 1, 63, 7, by decide +kernel⟩⟩
  · revert n; decide +kernel
  · revert n; decide +kernel
  · rcases ht with rfl | rfl <;> decide +kernel
  · revert n; decide +kernel

theorem wit_SequencersPassControl :
    (∃ (s : State), s.get R.SCO_STAT_SEQ = 0 ∧ s.sco.seqA = .fit) ∧
    (∀ a ∈ [SeqASt.fit, .passed], ∃ (s : State), s.get R.SCO_STAT_SEQ = 1 ∧ s.sco.seqA = a) ∧
    (∀ q ∈ [0, 2], ∃ (s : State), s.get R.SCO_STAT_SEQ = q ∧ (q ≠ 0 ∨ s.sco.seqA = .fit)) ∧
    (∀ b ∈ [SeqBSt.proven, .failed], ∃ (s : State), s.get R.SCO_STAT_SEQ = 0 ∧ s.sco.seqA ≠ .fit ∧ s.sco.seqB = b) ∧
    (∃ (s : State), s.get R.SCO_STAT_SEQ ≠ 1) ∧ (∃ (s : State), s.get R.SCO_STAT_SEQ = 1) ∧
    (∀ a ∈ [SeqASt.fit, .passed], ∃ (s : State), s.sco.seqA = a ∧ a ≠ .testing ∧ a ≠ .failed) ∧
    (∀ a ∈ [SeqASt.testing, .failed], ∃ (s : State), s.sco.seqA = a) ∧
    (∃ (s : State), s.get R.SCO_STAT_SEQ = 1 ∧ s.sco.transfer = some 0) ∧
    (∃ (s : State), s.get R.SCO_STAT_SEQ = 1 ∧ s.sco.transfer = some 1) ∧
    (∀ n ∈ [0, 2], ∃ (s : State) (f : Nat), s.canScan = true ∧ s.lockedClass = true ∧ s.sco.due = some (some f) ∧ s.sco.hold ≠ some 2 ∧ s.get R.SCO_STAT_SEQ = 1 ∧
      s.sco.transfer = some n) ∧
    (∀ a ∈ [SeqASt.fit, .passed], ∃ (s : State), s.get R.SCO_STAT_SEQ = 1 ∧ s.sco.seqA = a ∧ s.sco.transfer = none) ∧
    (∃ (s : State), s.get R.SCO_STAT_SEQ = 0 ∧ s.sco.seqB ≠ .failed ∧ s.sco.seqA = .fit ∧ s.sco.transfer = none) := by
  refine ⟨⟨tSeq 0 .fit .proven, by decide +kernel⟩, fun a h => ⟨tSeq 1 a .inControl, by revert a; decide +kernel⟩, fun q h => ⟨tSeq q .fit .proven, by revert q; decide +kernel⟩,
    fun b h => ⟨tSeq 0 .testing b, by revert b; decide +kernel⟩, ⟨tSeq 2 .failed .failed, by decide +kernel⟩, ⟨tSeq 1 .failed .inControl, by decide +kernel⟩,
    fun a h => ⟨tSeq 0 a .proven, by revert a; decide +kernel⟩, fun a h => ⟨tSeq 1 a .inControl, by revert a; decide +kernel⟩,
    ⟨(tSeq 1 .fit .inControl).setSco { (tSeq 1 .fit .inControl).sco with transfer := some 0 }, by decide +kernel⟩,
    ⟨{ tSeq 1 .passed .inControl with sco := { (tSeq 1 .passed .inControl).sco with transfer := some 1 } }, by decide +kernel⟩,
    fun n h => ⟨(tSco true (fun x => { x with transfer := some n, due := some (some 9), seqA := .passed, seqB := .inControl })).put R.SCO_STAT_SEQ 1, 9,
      by revert n; decide +kernel⟩,
    fun a h => ⟨tSeq 1 a .inControl, by revert a; decide +kernel⟩,
    ⟨tSeq 0 .fit .proven, by decide +kernel⟩⟩

/-! ### Wydel -/

/-- Port 63 in a state, with back-channel lock and every lane locked and aligned or not, and its state changed by `f`. -/
def tPort (st : Nat) (lock : Bool) (f : PortSt → PortSt) : State :=
  let s := (((State.reset.put (R.WYL_PSTAT_STATE 63) st).put (R.WYL_PSTAT_BC_LOCK 63) (b2n lock)).put (R.WYL_PSTAT_SPARE_OK 63) 1).put R.WYL_CTL_AUTO_SUB 1
  let s := if lock then (List.range 5).foldl (fun s l => (s.put (R.WYL_LANE_STAT_LOCK 63 l) 1).put (R.WYL_LANE_STAT_ALIGNED 63 l) 1) s else s
  s.setPort 63 (f (s.port 63))
/-- A lane message: lane `p`, an error count `n`. -/
def tMsg (p n : Nat) : BitVec 48 := BitVec.ofNat 48 (p + 2 ^ 8 * n)

theorem wit_WydelPorts :
    (∀ b, ∃ (s : State), s.sco.idle = b ∧ s.wakeDue = false) ∧ (∃ (s : State), s.sco.idle = true ∧ s.wakeDue = true ∧ s.portState 63 = 3 ∧ s.portState 0 ≠ 3) ∧
    (∀ q, q < 6 → ∃ (s : State), s.portState 63 = q) ∧ (∃ (s : State) (l : Nat), s.portState 63 = 4 ∧ (s.port 63).nextShadow = some l ∧ (s.port 63).mapDue = false) ∧
    (∃ (s : State) (l : Nat), s.portState 63 = 4 ∧ (s.port 63).nextShadow = some l ∧ (s.port 63).mapDue = true) ∧
    (∃ (s : State) (d : BitVec 48), msgBits d 8 3 = 5 ∧ s.on (R.WYL_PSTAT_BC_LOCK 63) = true) ∧
    (∃ (s : State) (d : BitVec 48), msgBits d 8 3 = 4 ∧ s.on (R.WYL_PSTAT_BC_LOCK 63) = true ∧ 0 < msgBits d 16 16 ∧ s.portServes 63 = false) ∧
    (∃ (s : State) (d : BitVec 48) (l : Nat), let p := msgBits d 8 3
      p ≤ 4 ∧ s.on (R.WYL_PSTAT_BC_LOCK 63) = true ∧ s.portServes 63 = true ∧ s.logLane 63 p = some l ∧ zeroActs 1 (s.get R.WYL_SUBCTL_ERR_LIM) ≤ msgBits d 16 16 ∧
      s.on R.WYL_CTL_AUTO_SUB = true ∧ s.on (R.WYL_PSTAT_SPARE_OK 63) = true ∧ s.hasSpare 63 = true ∧ (s.port 63).failing = none) ∧
    (∀ q : Bool, ∃ (s : State) (d : BitVec 48), msgBits d 8 3 ≤ 4 ∧ msgBits d 16 16 ≠ 0 ∧ s.on (R.WYL_PSTAT_BC_LOCK 63) = true ∧ s.portServes 63 = true ∧ s.hasSpare 63 = true ∧
      if q then (s.port 63).qualAt.isSome = true ∧ s.get (R.WYL_PSTAT_PSPARE 63) < 5
      else (s.port 63).qualAt = none ∧ tabGet (s.port 63).ival (msgBits d 8 3) = some (msgBits d 32 24, 0)) ∧
    (∃ (s : State) (d : BitVec 48) (e : Nat), msgBits d 8 3 ≤ 4 ∧ msgBits d 16 16 ≠ 0 ∧ s.on (R.WYL_PSTAT_BC_LOCK 63) = true ∧ s.portServes 63 = true ∧ s.hasSpare 63 = true ∧
      (s.port 63).qualAt = none ∧ e ≠ 0 ∧ tabGet (s.port 63).ival (msgBits d 8 3) = some (msgBits d 32 24, e)) ∧
    (∃ (s : State) (d : BitVec 48), msgBits d 8 3 ≤ 4 ∧ msgBits d 16 16 ≠ 0 ∧ s.on (R.WYL_PSTAT_BC_LOCK 63) = true ∧ s.portServes 63 = true ∧ s.hasSpare 63 = true ∧
      (s.port 63).qualAt = none ∧ (s.port 63).ival = []) ∧
    (∃ (s : State) (bs : List (Nat × Nat)), s.portState 63 ≠ 0 ∧ bs.length = 64 ∧ (∀ b ∈ bs, b.1 = 1 ∨ b.1 = 2) ∧ s.on (R.WYL_PSTAT_BC_LOCK 63) = false) ∧
    (∃ (s : State) (bs : List (Nat × Nat)), s.portState 63 ≠ 0 ∧ bs.length = 16 ∧ (∀ b ∈ bs, b.1 ≠ 1 ∧ b.1 ≠ 2) ∧ s.on (R.WYL_PSTAT_BC_LOCK 63) = true) ∧
    (∃ (s : State) (d : Nat), s.portState 63 ≠ 0 ∧ bcControlOk d = false ∧ s.on (R.WYL_PSTAT_BC_LOCK 63) = true ∧ (s.port 63).bcBad.countP id = 15) ∧
    (∃ (s : State) (d : BitVec 48), s.on (R.WYL_PSTAT_BC_LOCK 63) = true ∧ msgBits d 32 8 = 0) ∧
    (∃ (s : State) (d : BitVec 48), s.on (R.WYL_PSTAT_BC_LOCK 63) = true ∧ 256 + msgBits d 32 8 ∈ (s.port 63).asked) ∧
    (∃ (s : State), s.on (R.WYL_PSTAT_BC_LOCK 63) = false) ∧
    (∃ (s : State) (k : Nat), (s.port 63).bcLost = some k ∧ s.on (R.WYL_PSTAT_BC_LOSS 63) = false) ∧ (∃ (s : State), (s.port 63).bcLost = none) ∧
    (∃ (s : State), s.on R.WYL_CTL_SHADOW_EN = false) ∧
    (∃ (s : State), s.on R.WYL_CTL_SHADOW_EN = true ∧ s.portServes 63 = true ∧ s.hasSpare 63 = true ∧ (s.port 63).failing = none ∧ s.on (R.WYL_PSTAT_BC_LOSS 63) = false ∧
      3 ≤ (s.port 63).clean ∧ s.get (R.WYL_PSTAT_SHADOW 63) ≠ 7 ∧ (s.port 63).dirty = false ∧ (s.port 63).qualAt = none ∧ (s.port 63).lost = []) ∧
    (∃ (s : State), (s.port 63).failing = none) ∧
    (∃ (s : State) (l : Nat), s.sco.inFrame = false ∧ (s.port 63).failing = some l ∧ (s.port 63).sent = false ∧ s.portState 63 = 2 ∧ s.hasSpare 63 = true) ∧
    (∃ (s : State), s.qualified 63 = true ∧ s.get (R.WYL_PSTAT_PSPARE 63) < 5) ∧ (∀ b : Bool, ∃ (s : State), (s.port 63).qualAt.isSome = b ∧ s.qualified 63 = false) ∧
    (∃ (s : State), s.portServes 63 = false) ∧
    (∃ (s : State) (l : Nat), l = 3 ∧ s.portServes 63 = true ∧ s.on R.WYL_CTL_AUTO_SUB = true ∧ s.on (R.WYL_PSTAT_SPARE_OK 63) = true ∧ s.hasSpare 63 = true ∧
      (s.port 63).failing = none) ∧
    (∃ (s : State), s.portReady 63 = false) ∧ (∀ q ∈ [1, 5], ∃ (s : State), s.portReady 63 = true ∧ s.portState 63 = q) ∧
    (∀ r, ∃ (s : State), s.portState 63 = 5 ∧ (s.port 63).retrying = r) := by
  refine ⟨fun b => ⟨tSco false (fun x => { x with idle := b }), by cases b <;> decide +kernel⟩,
    ⟨{ tPort 3 true id with sco := { State.reset.sco with idle := true, ready := some 0 } }, by decide +kernel⟩,
    fun q h => ⟨tPort q true id, by revert q; decide +kernel⟩, ⟨tPort 4 true (fun x => { x with nextShadow := some 3 }), 3, by decide +kernel⟩,
    ⟨tPort 4 true (fun x => { x with nextShadow := some 3, mapDue := true }), 3, by decide +kernel⟩,
    ⟨tPort 2 true id, tMsg 5 1, by decide +kernel⟩, ⟨tPort 1 true id, tMsg 4 1, by decide +kernel⟩, ⟨tPort 4 true id, tMsg 3 0xFFFF, 3, by decide +kernel⟩,
    fun q => ⟨tPort 3 true (fun x => { x with qualAt := if q then some 0 else none, ival := [(4, 0, 0)] }), tMsg 4 1, by cases q <;> decide +kernel⟩,
    ⟨tPort 3 true (fun x => { x with ival := [(4, 0, 9)] }), tMsg 4 1, 9, by decide +kernel⟩, ⟨tPort 3 true id, tMsg 4 1, by decide +kernel⟩,
    ⟨tPort 2 false id, List.replicate 64 (2, 0), by decide +kernel⟩, ⟨tPort 2 true id, List.replicate 16 (3, 0), by decide +kernel⟩,
    ⟨tPort 2 true (fun x => { x with bcBad := List.replicate 15 true }), 0, by decide +kernel⟩,
    ⟨tPort 2 true id, tMsg 0 0, by decide +kernel⟩, ⟨tPort 2 true (fun x => { x with asked := [256 + 7] }), BitVec.ofNat 48 (7 * 2 ^ 24), by decide +kernel⟩,
    ⟨tPort 2 false id, by decide +kernel⟩, ⟨tPort 2 false (fun x => { x with bcLost := some 0 }), 0, by decide +kernel⟩, ⟨tPort 2 false id, by decide +kernel⟩,
    ⟨(tPort 2 true id).put R.WYL_CTL_SHADOW_EN 0, by decide +kernel⟩,
    ⟨((tPort 2 true (fun x => { x with clean := 3 })).put R.WYL_CTL_SHADOW_EN 1).put (R.WYL_PSTAT_SHADOW 63) 3, by decide +kernel⟩, ⟨tPort 2 true id, by decide +kernel⟩,
    ⟨tPort 2 true (fun x => { x with failing := some 3 }), 3, by decide +kernel⟩, ⟨{ tPort 2 true (fun x => { x with qualAt := some 0 }) with ticks := 10 ^ 15 }, by decide +kernel⟩,
    fun b => ⟨tPort 2 true (fun x => { x with qualAt := if b then some 0 else none }), by cases b <;> decide +kernel⟩, ⟨tPort 5 true id, by decide +kernel⟩, ⟨tPort 2 true id, 3, by decide +kernel⟩, ⟨tPort 1 false id, by decide +kernel⟩,
    fun q h => ⟨tPort q true id, by revert q; decide +kernel⟩, fun r => ⟨tPort 5 true (fun x => { x with retrying := r }), by cases r <;> decide +kernel⟩⟩


/-! ### Panel and backlight -/

/-- The panel's state PNL_PWRSTAT.STATE, the rails enabled, and the panel state changed by `f`; tiles 0 and 63 take part in hold writes or not. -/
def tPnl (st en : Nat) (cap : Bool) (f : PnlSt → PnlSt) : State :=
  let s := ((tSco false id).put R.PNL_PWRSTAT_STATE st).put R.PNL_PWRSTAT_EN en
  let s := if cap then [0, 63].foldl (fun s t => (s.put (R.PNL_TCTL_HOLD_EN t) 1).put (R.PNL_TSTAT_HOLD_CAP t) 1) s else s
  { s with watch := { s.watch with rails := 15, down := false, romOnly := false }, pnl := f s.pnl }
/-- A hold write of tile 63 in a phase, after `n` attempts. -/
def tHold (p : HoldPhase) (n : Nat) : HoldWr := ⟨7, 2 ^ 63, p, [], n, [], [(63, 0x1234)]⟩

theorem wit_PanelRailsHoldAndRegions :
    (∃ (s : State), s.watch.down = true) ∧
    (∀ b, ∃ (s : State), s.watch.down = false ∧ s.watch.romOnly = false ∧ s.get R.PNL_PWRSTAT_STATE = 0 ∧ s.pnl.blocked = b) ∧
    (∃ (s : State), s.watch.down = false ∧ s.watch.romOnly = false ∧ s.get R.PNL_PWRSTAT_STATE = 4) ∧
    (∀ first, ∃ (s : State), s.watch.down = false ∧ s.watch.romOnly = false ∧ s.get R.PNL_PWRSTAT_STATE = 2 ∧ s.pnl.offWaits = false ∧
      s.tilesOn.any (fun t => s.on (R.PNL_TCTL_HOLD_EN t)) = first ∧ s.pnl.hold = none ∧ (first = true → s.holdMask ≠ 0)) ∧
    (∀ q ∈ [1, 3], ∃ (s : State), s.pnl.rail = 3 ∧ s.get R.PNL_PWRSTAT_STATE = q ∧ s.on R.PNL_PWRREQ_ON = false) ∧ (∃ (s : State), s.get R.PNL_PWRSTAT_STATE = 2) ∧
    (∃ (s : State), s.get R.PNL_PWRSTAT_STATE = 1 ∧ s.pnl.rail = 3 ∧ bitAt (s.get R.PNL_PWRSTAT_EN) 3 = true ∧ s.fittedFrom 4 = none) ∧
    (∃ (s : State), s.get R.PNL_PWRSTAT_STATE = 1 ∧ s.pnl.rail = 0 ∧ bitAt (s.get R.PNL_PWRSTAT_EN) 0 = true ∧ s.fittedFrom 1 = some 1) ∧
    (∃ (s : State), bitAt (s.get R.PNL_PWRSTAT_EN) 3 = true ∧ s.get R.PNL_PWRSTAT_STATE = 1 ∧ s.pnl.rail = 3) ∧ (∃ (s : State), bitAt (s.get R.PNL_PWRSTAT_EN) 3 = false) ∧
    (∀ b, ∃ (s : State), s.pnl.offWaits = b) ∧ (∃ (s : State), s.pnl.hold.isSome = true) ∧
    (∀ b, ∃ (s : State), s.pnl.hold = none ∧ decide (s.holdMask ≠ 0) = b) ∧
    (∀ p, ∃ (s : State) (w : HoldWr), s.pnl.hold = some w ∧ w.phase = p ∧ ∀ r ∈ s.ledgerReq, r.cls ≠ 0x10) ∧
    (∀ b, ∃ (s : State) (w : HoldWr), s.pnl.hold = some w ∧ w.phase = .acks ∧ w.acks = [] ∧ tilesIn w.mask ≠ [] ∧ decide (s.get R.PNL_HCTL_RETRY ≤ w.tries) = b) ∧
    (∀ f : Bool, ∃ (s : State) (w : HoldWr) (q : LedgerReq) (rest : List LedgerReq), s.pnl.hold = some w ∧ w.phase = (if f then .doneFail else .done) ∧ s.ledgerReq = q :: rest ∧
      q.cls = 0x11 ∧ s.watch.down = false ∧ w.good = [(63, 7, 0x1234)] ∧ s.pnl.offWaits = true) ∧
    (∃ (s : State), s.on (R.WYL_PSTAT_BC_LOCK 63) = false) ∧
    (∃ (s : State) (a : Nat), s.on (R.WYL_PSTAT_BC_LOCK 63) = true ∧ 63 ∈ s.pnl.report ∧ (s.port 63).asked.find? (fun a => decide (a / 256 = 2)) = some a) ∧
    (∃ (s : State) (d : BitVec 48) (w : HoldWr), s.on (R.WYL_PSTAT_BC_LOCK 63) = true ∧ s.pnl.hold = some w ∧ w.phase = .acks ∧ w.mask = 2 ^ 63 ∧ w.acks = [] ∧
      (∀ a ∈ (s.port 63).asked, a / 256 ≠ 2) ∧ msgBits d 8 8 = 0 ∧ msgBits d 48 8 = w.gen % 256 ∧ tabGet w.sigs 63 = some (msgBits d 16 32)) ∧
    (∃ (s : State), 63 ∈ s.pnl.report) ∧ (∃ (s : State), ¬ 63 ∈ s.pnl.report) ∧
    (∃ (s : State) (y0 h t x wg : Nat), s.member.tiles = 64 ∧ y0 = 0 ∧ h = 4095 ∧ t = 63 ∧ x = 255 ∧ wg = 1 ∧ ((tabGet s.pnl.regions t).getD []).length = 15 ∧
      (tabGet s.pnl.nextRid t).getD 0 = 63) ∧
    (∃ (s : State), ((tabGet s.pnl.regions 63).getD []).length = 16) := by
  refine ⟨⟨{ tPnl 0 0 false id with watch := { (tPnl 0 0 false id).watch with down := true } }, by decide +kernel⟩,
    fun b => ⟨tPnl 0 0 false (fun x => { x with blocked := b }), by cases b <;> decide +kernel⟩, ⟨tPnl 4 0 false id, by decide +kernel⟩,
    fun f => ⟨tPnl 2 15 f id, by cases f <;> decide +kernel⟩, fun q h => ⟨tPnl q 8 false (fun x => { x with rail := 3 }), by revert q; decide +kernel⟩,
    ⟨tPnl 2 0 false id, by decide +kernel⟩, ⟨tPnl 1 15 false (fun x => { x with rail := 3 }), by decide +kernel⟩, ⟨tPnl 1 1 false id, by decide +kernel⟩,
    ⟨tPnl 1 8 false (fun x => { x with rail := 3 }), by decide +kernel⟩, ⟨tPnl 1 7 false id, by decide +kernel⟩,
    fun b => ⟨tPnl 2 15 true (fun x => { x with offWaits := b }), by cases b <;> decide +kernel⟩, ⟨tPnl 2 15 true (fun x => { x with hold := some (tHold .record 0) }), by decide +kernel⟩,
    fun b => ⟨tPnl 2 15 b id, by cases b <;> decide +kernel⟩, fun p => ⟨tPnl 2 15 true (fun x => { x with hold := some (tHold p 0) }), tHold p 0, by cases p <;> decide +kernel⟩,
    fun b => ⟨(tPnl 2 15 true (fun x => { x with hold := some (tHold .acks 1) })).put R.PNL_HCTL_RETRY (if b then 1 else 2), tHold .acks 1, by cases b <;> decide +kernel⟩,
    fun f => ⟨let w := { tHold (if f then .doneFail else .done) 1 with good := [(63, 7, 0x1234)] }
      let s := tPnl 2 15 true (fun x => { x with hold := some w, offWaits := true })
      { s with ledgerReq := [⟨0x11, 0, s.holdRecord w⟩] }, { tHold (if f then .doneFail else .done) 1 with good := [(63, 7, 0x1234)] },
      ⟨0x11, 0, (tPnl 2 15 true id).holdRecord { tHold (if f then .doneFail else .done) 1 with good := [(63, 7, 0x1234)] }⟩, [], by cases f <;> decide +kernel⟩,
    ⟨State.reset, by decide +kernel⟩,
    ⟨{ tPort 2 true (fun x => { x with asked := [0x205] }) with pnl := { State.reset.pnl with report := [63] } }, 0x205, by decide +kernel⟩,
    ⟨{ tPort 2 true id with pnl := { State.reset.pnl with hold := some (tHold .acks 1) } }, BitVec.ofNat 48 (0x1234 * 2 ^ 8 + 7 * 2 ^ 40), tHold .acks 1, by decide +kernel⟩,
    ⟨tPnl 2 15 true (fun x => { x with report := [63] }), by decide +kernel⟩, ⟨tPnl 2 15 true id, by decide +kernel⟩,
    ⟨tPnl 2 15 true (fun x => { x with regions := [(63, List.replicate 15 ⟨0, 0, 1, 0, 1, false⟩)], nextRid := [(63, 63)] }), 0, 4095, 63, 255, 1, by decide +kernel⟩,
    ⟨tPnl 2 15 true (fun x => { x with regions := [(63, List.replicate 16 ⟨0, 0, 1, 0, 1, false⟩)] }), by decide +kernel⟩⟩

/-- Chain 3 is enabled, with its state changed by `f`. -/
def tBkl (f : ChainSt → ChainSt) : State := ((tOpen.put R.BKL_CTL_CH_EN 8).put (R.BKL_CHCFG_COUNT 3) 1).setChain 3 (f (chainDefault 3))
/-- A driver's status record in which the last string is open. -/
def tDrv : List Byte :=
  let b := leBytes 52 (0x5A + 0x80 * 2 ^ (8 * 49))
  leBytes 52 (leNat b + crc8 (b.take 3 ++ b.drop 4) * 2 ^ 24)

theorem wit_BacklightChains :
    (∀ b, ∃ (s : State), (s.chain 3).busy = b) ∧
    (∃ (s : State) (st : List (List (BitVec 8))) (i k : Nat), (s.chain 3).busy = true ∧ i < s.chainCount 3 ∧ k < 16 ∧ statusOk (st.getD i []) = true ∧
      bitAt (stringWord (st.getD i []) k) 23 = true ∧ bitAt ((s.chain 3).driver i).bad k = true) ∧
    (∃ (s : State) (st : List (List (BitVec 8))) (s2 : State), (s.chain 3).busy = true ∧ s.on R.HLT_CTL_MIRROR_EN = false ∧
      s.vwrite 0 (s.addrOf (R.BKL_STS_LO_ADDR 3) (R.BKL_STS_HI_ADDR 3)) ((List.range (s.chainCount 3)).flatMap (fun i => statusImage (st.getD i []))) = .ok s2) ∧
    (∀ b, ∃ (s : State), s.sco.inFrame = false ∧ s.on R.BKL_STAT_FREE_RUN = b) ∧
    (∃ (s : State), s.sco.inFrame = true ∧ s.sco.hold = none) ∧ (∃ (s : State), s.sco.inFrame = false) ∧ (∃ (s : State), s.sco.inFrame = true ∧ s.sco.hold.isSome = true) ∧
    (∀ b, ∃ (s : State), bitAt (s.get R.BKL_CTL_CH_EN) 3 = false ∧ (s.chain 3).busy = b) ∧ (∃ (s : State), bitAt (s.get R.BKL_CTL_CH_EN) 3 = true) ∧
    (∀ b, ∃ (s : State), (s.chain 3).discovering = b ∧ (s.chain 3).chainFailed = false) ∧
    (∃ (s : State), (s.chain 3).again = false) ∧
    (∃ (s : State), (s.chain 3).again = true ∧ bitAt (s.get R.BKL_CTL_CH_EN) 3 = true ∧ (s.chain 3).discovering = false ∧ (s.chain 3).busy = false) ∧
    (∃ (s : State), (s.chain 3).lampDue = false) ∧
    (∀ p : Fin 4, ∃ (s : State), (s.chain 3).lampDue = true ∧ s.get R.BKL_POLICY_LAMP = p.val) ∧
    (∃ (s : State), (s.chain 3).lampDue = true ∧ s.get R.BKL_POLICY_LAMP = 1 ∧ (s.chain 3).chainFailed = true) ∧
    (∃ (s : State) (img : List Byte), (s.chain 3).lampDue = true ∧ s.get R.BKL_POLICY_LAMP = 1 ∧ (s.chain 3).chainFailed = false ∧
      s.vread 0 (s.addrOf (R.BKL_IMG_LO_ADDR 3) (R.BKL_IMG_HI_ADDR 3)) .read (64 * s.chainCount 3) = .ok img) := by
  refine ⟨fun b => ⟨tBkl (fun x => { x with busy := b }), by cases b <;> decide +kernel⟩,
    ⟨tBkl (fun x => { x with busy := true, drivers := [(0, { driverDefault 0 with bad := 2 ^ 15 })] }), [tDrv], 0, 15, by decide +kernel⟩, ?_,
    fun b => ⟨State.reset.put R.BKL_STAT_FREE_RUN (b2n b), by cases b <;> decide +kernel⟩,
    ⟨tSco false (fun x => tAt 0 false { x with hold := none }), by decide +kernel⟩, ⟨State.reset, by decide +kernel⟩, ⟨tSco false (fun x => tAt 0 false { x with hold := some 2 }), by decide +kernel⟩,
    fun b => ⟨(tBkl (fun x => { x with busy := b })).put R.BKL_CTL_CH_EN 7, by cases b <;> decide +kernel⟩, ⟨tBkl id, by decide +kernel⟩,
    fun b => ⟨tBkl (fun x => { x with discovering := b }), by cases b <;> decide +kernel⟩, ⟨tBkl id, by decide +kernel⟩, ⟨tBkl (fun x => { x with again := true }), by decide +kernel⟩,
    ⟨tBkl id, by decide +kernel⟩, fun p => ⟨(tBkl (fun x => { x with lampDue := true })).put R.BKL_POLICY_LAMP p.val, by revert p; decide +kernel⟩,
    ⟨(tBkl (fun x => { x with lampDue := true, chainFailed := true })).put R.BKL_POLICY_LAMP 1, by decide +kernel⟩, ?_⟩
  · let s : State := (tBkl (fun x => { x with busy := true })).put R.HLT_CTL_MIRROR_EN 0
    obtain ⟨s2, h⟩ := ok_of (x := s.vwrite 0 (s.addrOf (R.BKL_STS_LO_ADDR 3) (R.BKL_STS_HI_ADDR 3))
      ((List.range (s.chainCount 3)).flatMap (fun i => statusImage (([] : List (List (BitVec 8))).getD i [])))) (by decide +kernel)
    exact ⟨s, [], s2, by decide +kernel, by decide +kernel, h⟩
  · exact ⟨(tBkl (fun x => { x with lampDue := true })).put R.BKL_POLICY_LAMP 1, zeros 64, by decide +kernel⟩

/-! ### Cameras, packer, blitter -/

/-- Cameras are enabled, slot 31 takes virtual channel 3 of port 7 or not, and its state is changed by `f`. -/
def tCam (slot : Bool) (f : SlotSt → SlotSt) : State :=
  let s := (tOpen.put R.CAM_CTL_ENABLE 1).put (R.CAM_PCFG_EN 7) 1
  let s := if slot then (((s.put (R.CAM_SCFG_EN 31) 1).put (R.CAM_SCFG_PORT 31) 7).put (R.CAM_SCFG_VC 31) 3).put (R.CAM_SCFG_DT 31) 0x2A else s
  s.setSlot 31 (f (slotDefault 31))
/-- A frame of that slot, open, with a buffer or dropped. -/
def tCf (buf : Option Nat) : CamFrame := ⟨8, 5, 1, 0, none, buf, 1 + 7 * 2 + 3 * 16 + 0x2A * 256, 64, 2, 0, 64, 0, [], 0, 0, 1, 0, 0, 0, 0, 0, true, [], [], none⟩
/-- A set, open or closed. -/
def tSet (closed : Bool) : CamSet := ⟨9, 0, 0, 0, 2 ^ 31, [], closed⟩
/-- An exposure request with one entry, immediate or not. -/
def tXr (imm : Bool) : XReq := ⟨0xFFFF, 2, imm, 1, 0⟩
/-- `s` with the set `x`. -/
def tWithSet (s : State) (x : CamSet) : State := { s with cam := { s.cam with set := some x } }

/-- A packet of data type `dt` in virtual channel 3, as one lane receives it. -/
def tPkt (dt : Nat) : List (List Byte) := [[BitVec.ofNat 8 (dt + 192), 0, 0, 0]]
/-- The slot that a long packet of `tPkt` finds. -/
def tWho (s : State) (dt : Nat) : Option Nat :=
  let b := s.received 7 (tPkt dt)
  (s.slotsOf 7 (pktVc b) false).find? (fun n => decide (bitsOf (s.binding n false) 8 6 = pktDt b) && decide (dtBits (pktDt b) ≠ 0))
/-- Slot 31 with the queue `q` and the window `w`, and a request of one entry being made. -/
def tAsk (q : List XReq) (w : Option Nat) (used imm : Bool) : State :=
  (((tCam true (fun x => { x with queue := q, window := w, used := used })).put R.CAM_XREQ_A_SLOT 31).put R.CAM_XREQ_A_NENT 1).put R.CAM_XREQ_A_IMM (b2n imm)

theorem wit_CameraIntakeAndSets :
    (∃ (s : State), s.portTakes 7 = false) ∧ 
    (∀ e : Bool, ∃ (s : State) (ls : List (List Byte)), let b := s.received 7 ls
      s.portTakes 7 = true ∧ pktDt b = b2n e ∧ s.slotsOf 7 (pktVc b) (!e) = []) ∧
    (∀ e b : Bool, ∃ (s : State) (ls : List (List Byte)), let p := s.received 7 ls
      s.portTakes 7 = true ∧ pktDt p = b2n e ∧ s.slotsOf 7 (pktVc p) (!e) = [31] ∧ s.openFrame 31 = none ∧ (s.chooseBuf 31).isNone = b) ∧
    (∃ (s : State) (ls : List (List Byte)) (f : CamFrame), s.portTakes 7 = true ∧ pktDt (s.received 7 ls) = 1 ∧ s.slotsOf 7 (pktVc (s.received 7 ls)) false = [31] ∧
      s.openFrame 31 = some f ∧ s.camFrame 31 f.key = some f ∧ f.buf = none ∧ s.linesLeft 31 f = false) ∧
    (∃ (s : State) (dt : Nat), s.portTakes 7 = true ∧ 16 ≤ pktDt (s.received 7 (tPkt dt)) ∧ tWho s dt = none) ∧
    (∃ (s : State) (dt : Nat), s.portTakes 7 = true ∧ 16 ≤ pktDt (s.received 7 (tPkt dt)) ∧ tWho s dt = some 31 ∧ s.openFrame 31 = none) ∧
    (∃ (s : State) (dt : Nat) (f : CamFrame), s.portTakes 7 = true ∧ 16 ≤ pktDt (s.received 7 (tPkt dt)) ∧ tWho s dt = some 31 ∧ s.openFrame 31 = some f ∧
      s.camFrame 31 f.key = some f ∧ bitsOf f.cfg 1 3 = 7 ∧ pktCrcOk (s.received 7 (tPkt dt)) = false) ∧
    (∃ (s : State) (ls : List (List Byte)), s.portTakes 7 = true ∧ ignoredDt (pktDt (s.received 7 ls)) = true ∧ s.slotsOf 7 (pktVc (s.received 7 ls)) false = [31]) ∧
    (∃ (s : State), s.pipeBusy 3 = none ∧ nextLine (s.pipe 3) = none) ∧ (∃ (s : State) (l : PipeLine), s.testHeld 17 3 = false ∧ nextLine (s.pipe 3) = some l) ∧
    (∃ (s : State), s.testHeld 17 3 = false ∧ s.pipeBusy 3 ≠ none ∧ nextLine (s.pipe 3) = none) ∧
    (∃ (s : State), s.on R.CAM_SETCTL_SRC = false) ∧
    (∀ early b : Bool, ∃ (s : State) (d : Nat), s.on R.CAM_CTL_ENABLE = true ∧ s.on R.CAM_SETCTL_SRC = true ∧ s.cam.setDue = [(d, if b then some 7 else none)] ∧ decide (s.pix < d) = early) ∧
    (∀ early, ∃ (s : State), s.on R.CAM_CTL_ENABLE = true ∧ s.on R.CAM_SETCTL_SRC = true ∧ s.cam.setDue = [] ∧ s.sco.inFrame = false ∧ decide (s.pix < s.cam.freeAt) = early) ∧
    (∃ (s : State), s.setOverdue = false) ∧
    (∃ (s s2 : State) (c : CamSet), s.setOverdue = true ∧ s.cam.set = some c ∧ s.vwrite 0 (s.setRecAddr c.num) (s.setRecord c) = .ok s2) ∧
    (∃ (s : State), s.on R.CAM_CTL_ENABLE = false) ∧ (∃ (s : State) (f : CamFrame), s.on R.CAM_CTL_ENABLE = true ∧ s.openFrame 31 = some f) ∧
    (∃ (s : State), let n := s.get R.CAM_XREQ_A_SLOT; (s.slotSt n).queue.length = 8) ∧
    (∀ n : Fin 3, ∃ (s : State), let x := s.slotSt (s.get R.CAM_XREQ_A_SLOT); let ne := s.get R.CAM_XREQ_A_NENT
      x.queue.length = 7 ∧ ne ≠ 0 ∧ s.listRefused (s.addrOf R.CAM_XLIST_LO_ADDR R.CAM_XLIST_HI_ADDR) ne = false ∧
      (if n = 0 then x.window = none else x.window = some 5 ∧ if n = 1 then x.used = true else x.queue.all (·.imm) = true ∧ s.on R.CAM_XREQ_A_IMM = true)) ∧
    (∃ (s : State), let x := s.slotSt (s.get R.CAM_XREQ_A_SLOT); let ne := s.get R.CAM_XREQ_A_NENT
      x.queue.length = 7 ∧ ne ≠ 0 ∧ s.listRefused (s.addrOf R.CAM_XLIST_LO_ADDR R.CAM_XLIST_HI_ADDR) ne = false ∧ x.window = some 5 ∧ x.used = false ∧
      x.queue.all (·.imm) = true ∧ s.on R.CAM_XREQ_A_IMM = false) ∧
    (∃ (s : State), s.get R.CAM_XREQ_A_NENT = 0) ∧
    (∃ (s : State), s.listRefused (s.addrOf R.CAM_XLIST_LO_ADDR R.CAM_XLIST_HI_ADDR) (s.get R.CAM_XREQ_A_NENT) = true) ∧
    (∃ (s : State), s.serves 31 = none) ∧ (∃ (s : State), (tabGet s.cam.cci (s.get (R.CAM_SCFG_CCI 31))).isSome = true) ∧
    (∀ i, ∃ (s : State) (j : CciJob) (bs : List Byte), s.serves 31 = some j ∧ tabGet s.cam.cci (s.get (R.CAM_SCFG_CCI 31)) = none ∧ j.req.imm = i ∧
      s.listBytes j.req.list j.req.nent = .ok bs) ∧
    (∃ (s : State), tabGet s.cam.cci 0 = none) ∧ (∀ i, ∃ (s : State) (j : CciJob), tabGet s.cam.cci 0 = some j ∧ j.slot < 32 ∧ j.req.token < 2 ^ 16 ∧ j.req.imm = i) := by
  refine ⟨⟨State.reset, by decide +kernel⟩, fun e => ⟨tCam false id, tPkt (b2n e), by cases e <;> decide +kernel⟩,
    fun e b => ⟨(tCam true id).put (R.CAM_SLOCK_LOCK 31) (if b then 0xFFFF else 1), tPkt (b2n e), ?_⟩,
    ⟨tCam true (fun x => { x with frames := [tCf none] }), tPkt 1, tCf none, by decide +kernel⟩, ⟨tCam true id, 0x2B, by decide +kernel⟩, ⟨tCam true id, 0x2A, by decide +kernel⟩,
    ⟨tCam true (fun x => { x with frames := [tCf (some 1)] }), 0x2A, tCf (some 1), by decide +kernel⟩, ⟨tCam true id, tPkt 8, by decide +kernel⟩,
    ⟨State.reset, by decide +kernel⟩,
    ⟨(tCam true id).setPipe 3 [⟨64, 31, 5, 0, 0, 0, []⟩, ⟨64, 31, 5, 1, 1, 1, []⟩], ⟨64, 31, 5, 1, 1, 1, []⟩, by decide +kernel⟩,
    ⟨{ tCam true id with cam := { (tCam true id).cam with busy := [(3, ⟨64, 31, 5, 1, 1, 1, []⟩)] } }, by decide +kernel⟩,
    ⟨State.reset, by decide +kernel⟩,
    fun e b => ⟨{ (tCam true id).put R.CAM_SETCTL_SRC 1 with cam := { (tCam true id).cam with setDue := [(b2n e, if b then some 7 else none)] } }, b2n e, ?_⟩,
    fun e => ⟨{ (tCam true id).put R.CAM_SETCTL_SRC 1 with cam := { (tCam true id).cam with freeAt := b2n e } }, by cases e <;> decide +kernel⟩,
    ⟨tWithSet State.reset (tSet true), by decide +kernel⟩, ?_,
    ⟨State.reset, by decide +kernel⟩, ⟨tCam true (fun x => { x with frames := [tCf none] }), tCf none, by decide +kernel⟩,
    ⟨(tCam true (fun x => { x with queue := List.replicate 8 (tXr true) })).put R.CAM_XREQ_A_SLOT 31, by decide +kernel⟩,
    fun n => ⟨tAsk (List.replicate 7 (tXr (decide (n = 2)))) (if n = 0 then none else some 5) (decide (n = 1)) (decide (n = 2)), by revert n; decide +kernel⟩,
    ⟨tAsk (List.replicate 7 (tXr true)) (some 5) false false, by decide +kernel⟩,
    ⟨State.reset, by decide +kernel⟩, ⟨tMem ((tCam true id).put R.CAM_XREQ_A_NENT 1) [(0, leBytes 4 0x300)], by decide +kernel⟩, ⟨State.reset, by decide +kernel⟩,
    ⟨{ tCam true id with cam := { (tCam true id).cam with cci := [(0, ⟨31, tXr true, 0, 0, 0⟩)] } }, by decide +kernel⟩,
    fun i => ⟨let s := tCam true (fun x => { x with queue := if i then [tXr true] else [] })
      { s with cam := { s.cam with started := if i then [] else [⟨31, tXr false, 5, 3, 5⟩] } },
      if i then ⟨31, tXr true, 0, 0, 0⟩ else ⟨31, tXr false, 5, 3, 5⟩, zeros 8, by cases i <;> decide +kernel⟩,
    ⟨State.reset, by decide +kernel⟩,
    fun i => ⟨{ tCam true id with cam := { (tCam true id).cam with cci := [(0, ⟨31, tXr i, 5, 3, 5⟩)] } }, ⟨31, tXr i, 5, 3, 5⟩, by cases i <;> decide +kernel⟩⟩
  · cases e <;> cases b <;> decide +kernel
  · cases e <;> cases b <;> decide +kernel
  · let s : State := { tWithSet tOpen (tSet false) with ticks := 10 ^ 12 }
    obtain ⟨s2, h⟩ := ok_of (x := s.vwrite 0 (s.setRecAddr (tSet false).num) (s.setRecord (tSet false))) (by decide +kernel)
    exact ⟨s, s2, tSet false, by decide +kernel, rfl, h⟩

theorem wit_PackedChunkUnpacks :
    ∀ last, ∃ (level k : Nat) (orig : List Byte), level = 9 ∧ k = 2 ^ 32 - 1 ∧ 1 ≤ orig.length ∧ orig.length ≤ 65536 ∧ (last = true ∨ orig.length = 65536) :=
  fun last => ⟨9, 2 ^ 32 - 1, List.replicate (if last then 1 else 65536) 0, rfl, rfl, by rw [List.length_replicate]; cases last <;> decide⟩

/-- Ring 1 of the packer is on and has an entry, and its job is `j`. -/
def tPkr (j : Option PkrJob) : State :=
  let s := (tOpen.put R.PKR_CTL_ENABLE 1).put (R.PKR_TAIL_TAIL 1) 1
  { s with pkr := { s.pkr with jobs := match j with
    | some j => [(1, j)]
    | none => [] } }
/-- A job of 16 bytes at 0x2000 to `n` bytes at 0x3000. -/
def tJob (op n : Nat) (stop : Option Nat) : PkrJob := ⟨op, 1, false, true, 0, 7, 0x2000, 64, 0x3000, n, 0x4000, 0, 0, none, stop, 0, true⟩
/-- The descriptor of a job: operation, source and destination. -/
def tJd (op src dst : Nat) : List Byte := tRec 64 [(0, 1, op), (8, 8, src), (0x10, 8, 64), (0x18, 8, dst), (0x20, 8, 4096), (0x28, 8, 0x4000)]
/-- A chunk that stores sixteen bytes. -/
def tChunk : List Byte := chunkHeader 1 true true 16 16 (crc32c (zeros 16)) 0 ++ zeros 16

/-- Fewer bytes can be written where more can. -/
theorem vtargets_le {s : State} {c a : Nat} {k : Acc} {n m : Nat} (h : m ≤ n) (hn : (s.vtargets c a k n).isOk = true) : (s.vtargets c a k m).isOk = true := by
  induction m generalizing a n with
  | zero => rfl
  | succ m ih =>
    obtain ⟨n, rfl⟩ : ∃ i, n = i + 1 := ⟨n - 1, by omega⟩
    unfold State.vtargets at hn ⊢
    cases h1 : s.translate c a k with
    | error e => simp [h1] at hn; cases hn
    | ok pa =>
      cases h2 : s.physWritable pa with
      | some e => simp [h1, h2] at hn; cases hn
      | none =>
        have h3 : (s.vtargets c (a + 1) k n).isOk = true := by
          cases h4 : s.vtargets c (a + 1) k n with
          | ok ps => rfl
          | error e => simp [h1, h2, h4] at hn; cases hn
        obtain ⟨ps, h5⟩ := ok_of (ih (by omega) h3)
        simp [h2, h5]; rfl
/-- Bytes can be written where as many or more can be placed. -/
theorem vwrite_ok {s : State} {c a n : Nat} {bs : List Byte} (h : bs.length ≤ n) (hn : (s.vtargets c a .write n).isOk = true) : (s.vwrite c a bs).isOk = true := by
  obtain ⟨ps, h⟩ := ok_of (vtargets_le h hn)
  simp [State.vwrite, h]; rfl
theorem length_leBytes (n v : Nat) : (leBytes n v).length = n := by
  induction n generalizing v with
  | zero => rfl
  | succ n ih => simp [leBytes, ih]
/-- The chunk that 64 bytes pack to has a header and at most 64 bytes of data, however they are compressed. -/
theorem packed_length (j : PkrJob) (hj : j.inDone = 0 ∧ j.srcLen = 64) : 32 ≤ (j.packed (zeros 64)).length ∧ (j.packed (zeros 64)).length ≤ 96 := by
  have h1 : (zeros 64).length = 64 := List.length_replicate
  have h2 : ∀ o : List Byte, o.length = 64 → (packChunk j.level o).2.length ≤ 64 := by
    intro o ho; unfold packChunk
    split
    · split
      · rename_i h; simp only []; omega
      · simp only []; omega
    · simp only []; omega
  have h3 : ∀ a b c d e f g, (chunkHeader a b c d e f g).length = 32 := by intros; simp [chunkHeader, zeros, length_leBytes]
  have h4 := h2 _ h1
  generalize zeros 64 = o at h1 h4
  simp only [PkrJob.packed, hj, h1, decide_true, if_true, List.length_append, h3]
  omega

theorem wit_PackerJobs :
    (∃ (s : State) (b : List Byte), s.pkrRing = some 1 ∧ s.pkrJob 1 = none ∧ s.testHeld 9 0 = false ∧
      s.vread (s.get (R.PKR_RCFG_RCTX 1)) (s.addrOf (R.PKR_RBASE_LO_ADDR 1) (R.PKR_RBASE_HI_ADDR 1) + 64 * s.get (R.PKR_HEAD_HEAD 1)) .read 64 = .ok b ∧
      (PkrJob.ofBytes b).bad 1 b = true) ∧
    (∃ (s : State) (b : List Byte), s.pkrRing = some 1 ∧ s.pkrJob 1 = none ∧ s.testHeld 9 0 = false ∧
      s.vread (s.get (R.PKR_RCFG_RCTX 1)) (s.addrOf (R.PKR_RBASE_LO_ADDR 1) (R.PKR_RBASE_HI_ADDR 1) + 64 * s.get (R.PKR_HEAD_HEAD 1)) .read 64 = .ok b ∧
      (PkrJob.ofBytes b).bad 1 b = false ∧ (PkrJob.ofBytes b).overlaps = true) ∧
    (∀ fits, ∃ (s s2 : State) (j : PkrJob) (orig : List Byte), s.pkrRing = some 1 ∧ s.pkrJob 1 = some j ∧ j.op = 1 ∧ j.inDone < j.srcLen ∧
      s.vread j.ctx (j.src + j.inDone) .read (min 65536 (j.srcLen - j.inDone)) = .ok orig ∧ decide (j.outDone + (j.packed orig).length ≤ j.dstLen) = fits ∧
      s.vwrite j.ctx (j.dst + j.outDone) (j.packed orig) = .ok s2) ∧
    (∃ (s s2 : State) (j : PkrJob) (b data o : List Byte) (h : ChunkHdr), s.pkrRing = some 1 ∧ s.pkrJob 1 = some j ∧ j.op = 2 ∧
      j.inDone + 32 + h.clen ≤ j.srcLen ∧ s.vread j.ctx (j.src + j.inDone) .read 32 = .ok b ∧ parseChunk b j.expect = .ok h ∧
      s.vread j.ctx (j.src + j.inDone + 32) .read h.clen = .ok data ∧ chunkBytes h data = .ok o ∧ j.outDone + h.olen ≤ j.dstLen ∧
      s.vwrite j.ctx (j.dst + j.outDone) o = .ok s2) ∧
    (∃ (s s2 : State) (st : Nat) (j : PkrJob), s.pkrJob 1 = some j ∧ j.stop = some st ∧ j.read = true ∧
      s.vwrite j.ctx j.done (leBytes 4 j.job ++ leBytes 2 st ++ leBytes 2 0 ++ leBytes 8 j.inDone ++ leBytes 8 j.outDone ++ leBytes 4 j.chunk ++ leBytes 4 0) = .ok s2) ∧
    (∃ (s : State) (j : PkrJob), s.pkrJob 1 = some j ∧ j.stop = none) := by
  refine ⟨⟨tPkr none, zeros 64, by decide +kernel⟩, ⟨tMem (tPkr none) [(0, tJd 2 0x2000 0x2010)], tJd 2 0x2000 0x2010, by decide +kernel⟩,
    fun fits => ?_, ?_, ?_, ⟨tPkr (some (tJob 1 4096 none)), tJob 1 4096 none, by decide +kernel⟩⟩
  · let j := tJob 1 (if fits then 4096 else 1) none
    have hl := packed_length j ⟨rfl, rfl⟩
    obtain ⟨s2, h⟩ := ok_of (vwrite_ok (s := tPkr (some j)) (c := j.ctx) (a := j.dst + j.outDone) hl.2 (by cases fits <;> decide +kernel))
    refine ⟨tPkr (some j), s2, j, zeros 64, by cases fits <;> decide +kernel, by cases fits <;> decide +kernel, rfl, by cases fits <;> decide +kernel,
      by cases fits <;> decide +kernel, ?_, h⟩
    have hd : j.dstLen = if fits then 4096 else 1 := rfl
    have ho : j.outDone = 0 := rfl
    rw [hd, ho]; cases fits <;> simp <;> omega
  · let j := tJob 2 4096 none
    let s := tMem (tPkr (some j)) [(0x2000, tChunk)]
    obtain ⟨h, h1⟩ := ok_of (x := parseChunk (tChunk.take 32) none) (by decide +kernel)
    have hc : h.clen = 16 ∧ h.olen = 16 ∧ chunkBytes h (zeros 16) = .ok (zeros 16) := by
      have k : (match parseChunk (tChunk.take 32) none with
        | .ok h => decide (h.clen = 16 ∧ h.olen = 16 ∧ chunkBytes h (zeros 16) = .ok (zeros 16))
        | .error _ => false) = true := by decide +kernel
      rw [h1] at k; simpa using k
    obtain ⟨s2, h2⟩ := ok_of (x := s.vwrite j.ctx (j.dst + j.outDone) (zeros 16)) (by decide +kernel)
    refine ⟨s, s2, j, tChunk.take 32, zeros 16, zeros 16, h, by decide +kernel, by decide +kernel, rfl, by rw [hc.1]; decide, by decide +kernel, h1, ?_, hc.2.2, by rw [hc.2.1]; decide, h2⟩
    rw [hc.1]; decide +kernel
  · let j := tJob 1 4096 (some 0)
    obtain ⟨s2, h⟩ := ok_of (x := (tPkr (some j)).vwrite j.ctx j.done
      (leBytes 4 j.job ++ leBytes 2 0 ++ leBytes 2 0 ++ leBytes 8 j.inDone ++ leBytes 8 j.outDone ++ leBytes 4 j.chunk ++ leBytes 4 0)) (by decide +kernel)
    exact ⟨tPkr (some j), s2, 0, j, by decide +kernel, rfl, rfl, h⟩

/-- The blitter is on, unless it is paused, with record `c` in progress. -/
def tBlt (pause : Bool) (c : Option BltRec) (fault : Bool) : State :=
  let s := ((tOpen.put R.BLT_CTL_ENABLE 1).put R.BLT_CTL_PAUSE (b2n pause)).put R.BLT_STAT_HALTED (b2n fault)
  { s with blt := ⟨c, fault⟩ }
/-- A rectangle of 2 × 2 elements of 4 bytes with a watermark at row 1, from `src` to `dst`, of which `pos` are done. -/
def tRect (op src dst pos : Nat) : BltRec :=
  ⟨5, tRec 32 [(0, 1, op), (1, 1, 4), (2, 1, if op = 3 then 0x10 else 0), (4, 2, 2), (6, 2, 2), (8, 6, dst), (0xE, 2, 1), (0x10, 6, src), (0x18, 3, 16), (0x1C, 3, if op = 1 then 0 else 16)],
    pos, none, false, false, false⟩
/-- A WAIT for line 100. -/
def tWaitLine (p : Option (Nat × Nat)) : BltRec := ⟨5, tRec 32 [(0, 1, 5), (4, 2, 100)], 0, p, false, false, false⟩
/-- The record `b` waits at the ring's HEAD. -/
def tBr (b : List Byte) : State := (tMem (tBlt false none false) [(0, b)]).put R.BLT_TAIL_TAIL 1

theorem wit_BlitterRecords :
    (∀ n : Fin 3, ∃ (s s2 : State) (c : BltRec) (i : Instr) (bs : List Byte), s.bltHeld = false ∧ s.blt.fault = false ∧ s.blt.cur = some c ∧ c.fin = false ∧ c.pos < c.w * c.h ∧
      (i, c.op) ∈ [(Instr.bltFill 1, 1), (Instr.bltCopy 1, 2), (Instr.bltConvert 1, 3)] ∧ c.op = n.val + 1 ∧
      (if c.reads then s.vread s.bltCtx (c.addrs c.pos).2 .read (elemBytes c.sfmt) else .ok []) = .ok bs ∧
      (c.reads && !c.hazard && (List.range (elemBytes c.sfmt)).any (fun k => c.wrote c.pos ((c.addrs c.pos).2 + k))) = false ∧
      s.vwrite s.bltCtx (c.addrs c.pos).1 (c.result bs) = .ok s2) ∧
    (∃ (s : State) (c : BltRec) (bs : List Byte), s.bltHeld = false ∧ s.blt.fault = false ∧ s.blt.cur = some c ∧ c.fin = false ∧ c.pos < c.w * c.h ∧ c.op = 2 ∧
      s.vread s.bltCtx (c.addrs c.pos).2 .read (elemBytes c.sfmt) = .ok bs ∧
      (c.reads && !c.hazard && (List.range (elemBytes c.sfmt)).any (fun k => c.wrote c.pos ((c.addrs c.pos).2 + k))) = true) ∧
    (∃ (s : State) (c : BltRec) (e : AccErr), s.bltHeld = false ∧ s.blt.fault = false ∧ s.blt.cur = some c ∧ c.fin = false ∧ c.pos < c.w * c.h ∧ c.op = 2 ∧ c.reads = true ∧
      s.vread s.bltCtx (c.addrs c.pos).2 .read (elemBytes c.sfmt) = .error e) ∧
    (∀ n : Fin 3, ∃ (s : State) (b : List Byte), let h := s.get R.BLT_HEAD_HEAD; let c : BltRec := ⟨h, b, 0, none, false, false, false⟩
      s.bltHeld = false ∧ s.blt.fault = false ∧ s.blt.cur = none ∧ h ≠ s.get R.BLT_TAIL_TAIL ∧ s.testHeld 10 0 = false ∧
      s.vread s.bltCtx (s.addrOf R.BLT_RBASE_LO_ADDR R.BLT_RBASE_HI_ADDR + 32 * h) .read 32 = .ok b ∧
      if n = 0 then c.badReason ≠ 0 else c.badReason = 0 ∧ if n = 1 then c.op = 4 ∧ (s.vwrite s.bltCtx c.dst (leBytes 4 (leAt b 0x10 4))).isOk = true else c.op = 5) ∧
    (∀ n : Fin 3, ∃ (s : State) (c : BltRec) (p : Nat × Nat), s.bltHeld = false ∧ s.blt.fault = false ∧ s.blt.cur = some c ∧ c.fin = false ∧ c.op = 5 ∧ c.waiting = some p ∧
      if n = 0 then s.on R.SCO_STAT_RUNNING = true ∧ s.sco.line = c.w ∧ p ≠ (s.frameNo, s.sco.line)
      else if n = 1 then s.on R.SCO_STAT_RUNNING = true ∧ s.sco.line ≠ c.w else s.on R.SCO_STAT_RUNNING = false) ∧
    (∃ (s : State), s.blt.cur = none ∧ s.testHeld 10 0 = true) ∧
    (∃ (s : State) (c : BltRec), s.blt.cur = some c ∧ c.rect = true ∧ c.wm ≠ 0 ∧ c.wmSeen = false ∧ c.wm * c.w = c.pos) ∧
    (∀ f, ∃ (s : State) (c : BltRec), s.blt.cur = some c ∧ c.fin = f) ∧ (∀ f, ∃ (s : State), s.on R.BLT_STAT_HALTED = f) := by
  refine ⟨fun n => ?_, ⟨tBlt false (some (tRect 2 0x3000 0x3004 1)) false, tRect 2 0x3000 0x3004 1, zeros 4, by decide +kernel⟩, ?_,
    fun n => ⟨if n = 0 then tBr (zeros 32) else if n = 1 then tBr (tRec 32 [(0, 1, 4), (8, 6, 0x5000)]) else tBr (tRec 32 [(0, 1, 5), (4, 2, 100)]),
      if n = 0 then zeros 32 else if n = 1 then tRec 32 [(0, 1, 4), (8, 6, 0x5000)] else tRec 32 [(0, 1, 5), (4, 2, 100)], ?_⟩,
    fun n => ⟨(if n = 2 then id else fun s => s.put R.SCO_STAT_RUNNING 1) { tBlt false (some (tWaitLine (some (0, if n = 1 then 0 else 99)))) false with
      sco := { State.reset.sco with line := if n = 1 then 99 else 100 } }, tWaitLine (some (0, if n = 1 then 0 else 99)), (0, if n = 1 then 0 else 99), ?_⟩,
    ⟨{ tBlt false none false with cal := { tOpen.cal with reqs := [⟨1, 7, 10, 0, 0, false, true, 0⟩] } }, by decide +kernel⟩,
    ⟨tBlt false (some (tRect 3 0x2000 0x3000 2)) false, tRect 3 0x2000 0x3000 2, by decide +kernel⟩,
    fun f => ⟨tBlt false (some { tRect 1 0 0x3000 4 with fin := f }) false, { tRect 1 0 0x3000 4 with fin := f }, by cases f <;> decide +kernel⟩,
    fun f => ⟨tBlt false none f, by cases f <;> decide +kernel⟩⟩
  · let c : BltRec := tRect (n.val + 1) 0x2000 0x3000 3
    let s := tBlt false (some c) false
    let bs : List Byte := if n.val = 0 then [] else zeros 4
    obtain ⟨s2, h⟩ := ok_of (x := s.vwrite s.bltCtx (c.addrs c.pos).1 (c.result bs)) (by revert n; decide +kernel)
    exact ⟨s, s2, c, if n = 0 then .bltFill 1 else if n = 1 then .bltCopy 1 else .bltConvert 1, bs, by clear h; revert n; decide +kernel, by clear h; revert n; decide +kernel, rfl, rfl,
      by clear h; revert n; decide +kernel, by clear h; revert n; decide +kernel, by clear h; revert n; decide +kernel, by clear h; revert n; decide +kernel, by clear h; revert n; decide +kernel, h⟩
  · have h : ∃ e, (tBlt false (some (tRect 2 (2 ^ 40) 0x3000 0)) false).vread 0 (2 ^ 40) .read 4 = .error e := by
      have k : ((tBlt false (some (tRect 2 (2 ^ 40) 0x3000 0)) false).vread 0 (2 ^ 40) .read 4).isOk = false := by decide +kernel
      cases h : (tBlt false (some (tRect 2 (2 ^ 40) 0x3000 0)) false).vread 0 (2 ^ 40) .read 4 with
      | error e => exact ⟨e, rfl⟩
      | ok b => rw [h] at k; cases k
    obtain ⟨e, h⟩ := h
    refine ⟨tBlt false (some (tRect 2 (2 ^ 40) 0x3000 0)) false, tRect 2 (2 ^ 40) 0x3000 0, e, by decide +kernel, by decide +kernel, rfl, rfl, by decide +kernel, by decide +kernel,
      by decide +kernel, ?_⟩
    have ha : ((tRect 2 (2 ^ 40) 0x3000 0).addrs (tRect 2 (2 ^ 40) 0x3000 0).pos).2 = 2 ^ 40 ∧ elemBytes (tRect 2 (2 ^ 40) 0x3000 0).sfmt = 4 ∧
      (tBlt false (some (tRect 2 (2 ^ 40) 0x3000 0)) false).bltCtx = 0 := by decide +kernel
    rw [ha.1, ha.2.1, ha.2.2]; exact h
  · revert n; decide +kernel
  · revert n; decide +kernel

/-! ### DRAM, translation, DMA -/

/-- HBM is open; controller 0 is `c`, the others as at reset. -/
def tDram (c : Ctrl) : State := tOpen.setCtrl 0 c
/-- A write-queue entry of granule 0 that holds its first `n` bytes. -/
def tWq (n : Nat) : WqEntry := ⟨0, 2 ^ n - 1, false, false, false, 0, 0⟩
/-- A read of granule 0, found bad or not. -/
def tRd (bad : Bool) : RdReq := ⟨0, 1, 2, 0, 0, [0], false, bad⟩
/-- An atomic of the word at 0 that is held. -/
def tHeldAtomic : DramReq := .atomic 0 0 false 1 none .clean

theorem wit_DramRequests :
    (∃ (s : State) (pa : Nat), pa + 1 = hbmTop ∧ s.hbmOpen = false) ∧
    (∃ (s : State) (cl : Client), s.hbmOpen = true ∧ s.takes s.dram.held (.read 0 1 s.ticks (s.clientClass cl)) = false) ∧
    (∃ (s : State) (pa : Nat), let g := pa / 32; let c := s.ctrl (s.paController (g * 32))
      pa + 1 = hbmTop ∧ s.dramOpen = true ∧ s.dram.held.any (fun h => h.isAtomic && decide (h.granule = g)) = false ∧ c.wq.filter (fun e => decide (e.granule = g)) = [] ∧
      (c.rq.filter (fun x => decide (s.paPc x.pa = s.paPc (g * 32)))).length < 32) ∧
    (∀ b, ∃ (s : State) (e : WqEntry) (mask : Nat), let c := s.ctrl (s.paController 0); let mine := c.wq.filter (fun e => decide (e.granule = 0))
      s.dramOpen = true ∧ s.dram.held.any (fun h => h.isAtomic && decide (h.granule = 0)) = false ∧ mine.getLast? = some e ∧ s.poison.contains 0 = false ∧ e.holds mask = b ∧
      (b = false → mine.any (fun x => decide (x.mask &&& mask ≠ 0)) = true ∧ (c.rq.filter (fun x => decide (s.paPc x.pa = s.paPc 0))).length < 32)) ∧
    (∀ iso : Bool, ∃ (s : State) (cl : Client), s.hbmOpen = true ∧ s.dramOpen = true ∧ s.dram.held.any (fun h => h.isAtomic && decide (h.granule = 0)) = false ∧
      s.clientClass cl = (if iso then 0 else 3) ∧ (s.ctrl (s.paController 0)).wq.length + 1 = if iso then 64 else 56) ∧
    (∃ (s : State) (cl : Client), s.hbmOpen = true ∧ s.takes s.dram.held (.write 0 1 [7] (s.clientClass cl)) = false) ∧
    (∃ (s : State), s.hbmOpen = true ∧ s.dramOpen = false) ∧ (∃ (s : State), s.hbmOpen = true ∧ 64 ≤ (s.ctrl (s.paController 0)).wq.length) ∧
    (∀ wide : Bool, ∃ (s : State) (pa : Nat), let c := s.ctrl (s.paController (pa / 32 * 32))
      pa + (if wide then 8 else 4) = hbmTop ∧ pa % (if wide then 8 else 4) = 0 ∧ s.dramOpen = true ∧ s.poison.contains (pa / 32) = false ∧
      s.dram.held.any (fun h => h.isAtomic && decide (h.granule = pa / 32)) = false ∧ c.wq.length < 56 ∧ c.rq.any (fun r => decide (r.pa / 32 = pa / 32)) = false ∧
      s.on R.HLT_CTL_MIRROR_EN = false) ∧
    (∃ (s : State) (k pc : Nat), k < 64 ∧ s.dram.held = [] ∧ (s.ctrl k).wq = [] ∧ (s.ctrl k).drain = false ∧ (∀ p ∈ (s.ctrl k).refr, p.1 / 64 = pc → p.2 < 9) ∧
      (s.ctrl k).refr = [(0, 8)] ∧ (∃ r ∈ (s.ctrl k).rq, s.paPc r.pa = pc)) ∧
    (∀ full : Bool, ∃ (s : State) (k pc : Nat) (e : WqEntry) (rest : List WqEntry), k < 64 ∧ s.dram.held = [] ∧ (∀ p ∈ (s.ctrl k).refr, p.1 / 64 = pc → p.2 < 9) ∧
      (s.ctrl k).wq = e :: rest ∧ (s.ctrl k).rq = [] ∧ s.paPc (e.granule * 32) = pc ∧ (∀ x ∈ rest, x.granule ≠ e.granule ∧ x.front = false) ∧
      s.poison.contains e.granule = false ∧ merges e.mask = !full ∧ (full = true → e.mask = 2 ^ 32 - 1)) ∧
    (∀ b, ∃ (s : State), s.bankWanted (s.ctrl 0) 0 = b) ∧
    (∀ b, ∃ (s : State) (r : RdReq) (rest : List RdReq), (s.ctrl 0).fly = r :: rest ∧ r.bad = b ∧ s.poison.contains (r.pa / 32) = false ∧ s.on R.HLT_CTL_MIRROR_EN = false ∧
      s.dram.held = [] ∧ s.on R.MEM_STAT_CHANGING = false ∧ s.paController (r.pa / 32 * 32) = 0 ∧ (s.ctrl 0).wq.length < 56) ∧
    (∀ b, ∃ (s : State), s.on R.MEM_CTL_SCRUB_EN = true ∧ s.dramOpen = true ∧ s.poison.contains s.dram.scrub = b) := by
  refine ⟨⟨State.reset, hbmTop - 1, by decide +kernel⟩, ⟨{ tOpen with dram := { tOpen.dram with held := [tHeldAtomic] } }, .steward, by decide +kernel⟩,
    ⟨tOpen, hbmTop - 1, by decide +kernel⟩,
    fun b => ⟨tDram { ctrlDefault 0 with wq := [tWq 4] }, tWq 4, if b then 0xF else 0x1F, by cases b <;> decide +kernel⟩,
    fun iso => ⟨tDram { ctrlDefault 0 with wq := List.replicate (if iso then 63 else 55) ⟨7, 1, false, true, false, 0, 0⟩ }, if iso then .composition else .bar2, by cases iso <;> decide +kernel⟩,
    ⟨tDram { ctrlDefault 0 with wq := List.replicate 56 ⟨7, 1, false, true, false, 0, 0⟩ }, .bar2, by decide +kernel⟩, ⟨tOpen.put R.MEM_STAT_CHANGING 1, by decide +kernel⟩,
    ⟨tDram { ctrlDefault 0 with wq := List.replicate 64 ⟨7, 1, false, true, false, 0, 0⟩ }, by decide +kernel⟩,
    fun w => ⟨tOpen.put R.HLT_CTL_MIRROR_EN 0, hbmTop - (if w then 8 else 4), by cases w <;> decide +kernel⟩,
    ⟨tDram { ctrlDefault 0 with rq := [tRd false], refr := [(0, 8)] }, 0, 0, by decide +kernel⟩,
    fun full => ⟨tDram { ctrlDefault 0 with wq := [tWq (if full then 32 else 1)], refr := [(0, 8)] }, 0, 0, tWq (if full then 32 else 1), [], by cases full <;> decide +kernel⟩,
    fun b => ⟨if b then tDram { ctrlDefault 0 with rq := [tRd false] } else tOpen, by cases b <;> decide +kernel⟩,
    fun b => ⟨(tDram { ctrlDefault 0 with fly := [tRd b] }).put R.HLT_CTL_MIRROR_EN 0, tRd b, [], by cases b <;> decide +kernel⟩,
    fun b => ⟨{ tOpen.put R.MEM_CTL_SCRUB_EN 1 with poison := if b then [0] else [] }, by cases b <;> decide +kernel⟩⟩

theorem wit_DramUpkeep :
    (∀ b, ∃ (s : State), s.on R.MEM_CTL_MAP_LOCK = false ∧ s.masksOk = b) ∧
    (∀ n : Fin 3, ∃ (s : State), let hot := clampN 1 31 (s.get R.MEM_RETRAIN_DTEMP) ≤ (toInt 8 (s.get (R.MEM_STKTEMP_TEMP (63 / 16))) - (s.ctrl 63).trainedTemp).natAbs
      s.on R.MEM_CTL_RETRAIN_EN = true ∧ s.on (R.MEM_CHSTAT_RETRAINING 63) = false ∧
      (if n = 0 then 1000 * max 10 (s.get R.MEM_RETRAIN_PERIOD) ≤ tickUs (s.ctrl 63).trainedAt s.ticks
       else tickUs (s.ctrl 63).trainedAt s.ticks < 1000 * max 10 (s.get R.MEM_RETRAIN_PERIOD) ∧ if n = 1 then hot else ¬ hot)) ∧
    (∃ (s : State), s.dramOpen = true ∧ s.calRuns 2 = true ∧ (s.ctrl 63).slots = 1 ∧ (s.ctrl 63).rq.any (fun r => decide (s.paPc r.pa = 1) && s.urgent r) = false ∧ s.hlt.laneTests = []) ∧
    (∃ (s : State), s.dramOpen = true ∧ (s.ctrl 63).rq.any (fun r => decide (s.paPc r.pa = 0) && s.urgent r) = true) ∧
    (∀ b, ∃ (s : State), s.on R.MEM_STAT_CHANGING = b) ∧
    (∀ f c : Bool, ∃ (s : State), s.on R.MEM_STAT_PENDING = true ∧ s.on R.MEM_STAT_TRAINED = true ∧
      (if f then s.sco.blank = true ∧ s.sco.line = s.active ∧ 62500 ≤ s.blankLeft else s.sco.inFrame = false) ∧ s.on R.MEM_SPEED_CAM_WAIT = c ∧
      (c = true → ∀ p ∈ s.cam.slots, p.2.frames.any (·.isOpen) = false) ∧ (s.ctrl 63).slots = 7) ∧
    (∃ (s : State), s.on R.MEM_STAT_CHANGING = true ∧ (∀ p ∈ s.dram.ctrls, p.2.wq = [] ∧ p.2.rq = [] ∧ p.2.fly = []) ∧ s.dram.held = [] ∧ s.dram.repairs = [] ∧ s.dram.redo = true) ∧
    (∃ (s : State), s.on R.MEM_STAT_CHANGING = true ∧ ∃ p ∈ s.dram.ctrls, p.2.wq ≠ []) ∧
    (∀ b, ∃ (s : State), s.on R.MEM_STAT_PENDING = true ∧ s.on R.MEM_STAT_TRAINED = true ∧ decide (1000000 ≤ tickUs s.dram.goAt s.ticks) = b) ∧
    (∀ b pc : Bool, ∃ (s : State), let f := if pc then R.MEM_CHSTAT_SPARES0 63 else R.MEM_CHSTAT_SPARES1 63
      s.on R.MEM_CTL_REPAIR_EN = true ∧ zeroActs 1 (s.get R.MEM_REPAIR_CE_LIM) = 1 ∧
      (((tabGet (s.ctrl 63).lanes ((if pc then 0 else 1) * 64 + 31)).getD []).filter (fun t => decide ((s.ticks - t) * 64 < 20625 * 1000000))).length = 1 ∧
      s.on R.MEM_STAT_CHANGING = false ∧ bitAt (s.get f) (31 / 8) = b ∧ s.hlt.exercise.contains (8 * 63 + 4 * (if pc then 0 else 1) + 31 / 8) = false) ∧
    (∀ c, ∃ (s : State), s.on R.MEM_CTL_REPAIR_EN = true ∧ zeroActs 1 (s.get R.MEM_REPAIR_CE_LIM) = 1 ∧
      (((tabGet (s.ctrl 63).lanes (64 + 31)).getD []).filter (fun t => decide ((s.ticks - t) * 64 < 20625 * 1000000))).length = 0 ∧ s.on R.MEM_STAT_CHANGING = c) := by
  refine ⟨fun b => ⟨if b then State.reset else State.reset.setWord (R.MEM_HASH_LO_MASK 0).addr 0, by cases b <;> decide +kernel⟩,
    fun n => ⟨({ (State.reset.put R.MEM_CTL_RETRAIN_EN 1).put (R.MEM_STKTEMP_TEMP 3) 31 with ticks := if n = 0 then 10 ^ 12 else 0 } : State).setCtrl 63
      { ctrlDefault 0 with trainedTemp := if n = 1 then 0 else 31 }, by revert n; decide +kernel⟩,
    ⟨((tOpen.put R.CAL_CTL_EN 1).put R.CAL_TASKEN_TASK 2).setCtrl 63 { ctrlDefault 0 with slots := 1 }, by decide +kernel⟩,
    ⟨{ tOpen.setCtrl 63 { ctrlDefault 0 with rq := [⟨0, 1, 0, 0, 0, [0], false, false⟩] } with ticks := 10 ^ 9 }, by decide +kernel⟩,
    fun b => ⟨State.reset.put R.MEM_STAT_CHANGING (b2n b), by cases b <;> decide +kernel⟩, 
    fun f c => ⟨({ (((tOpen.put R.MEM_STAT_PENDING 1).put R.MEM_SPEED_CAM_WAIT (b2n c)).putA R.SCO_VGEOM_ACTIVE 100).putA R.SCO_VTOTAL_VTOTAL_MIN 60000 with
      sco := { tOpen.sco with inFrame := f, blank := f, line := if f then 100 else 0 } } : State).setCtrl 63 { ctrlDefault 0 with slots := 7 }, by cases f <;> cases c <;> decide +kernel⟩,
    ⟨{ State.reset.put R.MEM_STAT_CHANGING 1 with dram := { State.reset.dram with redo := true } }, by decide +kernel⟩,
    ⟨(State.reset.put R.MEM_STAT_CHANGING 1).setCtrl 63 { ctrlDefault 0 with wq := [tWq 1] }, by decide +kernel⟩,
    fun b => ⟨{ tOpen.put R.MEM_STAT_PENDING 1 with ticks := if b then 10 ^ 12 else 0 }, by cases b <;> decide +kernel⟩,
    fun b pc => ⟨((((State.reset.put R.MEM_CTL_REPAIR_EN 1).put R.MEM_REPAIR_CE_LIM 1).put (R.MEM_CHSTAT_SPARES0 63) (if b then 15 else 7)).put (R.MEM_CHSTAT_SPARES1 63)
      (if b then 15 else 7)).setCtrl 63 { ctrlDefault 0 with lanes := [(31, [0]), (95, [0])] }, by cases b <;> cases pc <;> decide +kernel⟩,
    fun c => ⟨((State.reset.put R.MEM_CTL_REPAIR_EN 1).put R.MEM_REPAIR_CE_LIM 1).put R.MEM_STAT_CHANGING (b2n c), by cases c <;> decide +kernel⟩⟩

theorem wit_HbmClosedAtReset : ∃ (s : State), s.masksOk = true := ⟨State.reset, by decide +kernel⟩

/-- The MMU's state changed by `f`. -/
def tMmu (f : MmuSt → MmuSt) : State := { tOpen with mmu := f tOpen.mmu }

theorem wit_TranslationAndInvalidation :
    (∀ b, ∃ (s : State) (ctx va : Nat), s.ctxOn ctx = true ∧ va + 1 = 2 ^ 48 ∧ s.mmu.tlb.any (fun e => e.covers ctx va) = b ∧ s.mmu.walks.length = 31) ∧
    (∃ (s : State) (ctx va : Nat), s.ctxOn ctx = true ∧ va + 1 = 2 ^ 48 ∧ s.mmu.tlb.any (fun e => e.covers ctx va) = false ∧ s.mmu.walks.length = 32) ∧
    (∀ b, ∃ (s : State) (i : Nat) (w : Walk), s.mmu.walks[i]? = some w ∧ w.retry = b) ∧
    (∃ (s : State) (w : Walk) (pa : Nat), s.mmu.walks[0]? = some w ∧ w.retry = false ∧ s.walk w.ctx w.va = .error 5 ∧
      s.walkPoison w.va (s.walkStart w.ctx w.va).1 (s.walkStart w.ctx w.va).2 = some pa) ∧
    (∀ b, ∃ (s : State) (w : LogWindow), s.logWin[0]? = some w ∧ decide ((s.ticks - w.firstTick) * 64 < 20625 * 1000) = b) ∧
    (∃ (s : State), s.ctxOn 64 = false) ∧ (∃ (s : State) (va : Nat), s.ctxOn 3 = true ∧ va = 2 ^ 48) ∧
    (∃ (s : State) (va : Nat), va = 2 ^ 64 - 1 ∧ s.on R.HLT_CTL_MIRROR_EN = false ∧ s.faultJoins 1 2 3 4 va = none ∧
      s.fringSize ≤ subMod 32 (s.get R.MMU_FRING_HEAD_HEAD) (s.get R.MMU_FRING_TAIL_TAIL)) ∧
    (∃ (s : State) (va pa : Nat), va = 2 ^ 64 - 1 ∧ s.on R.HLT_CTL_MIRROR_EN = false ∧ s.faultJoins 1 2 3 4 va = none ∧
      subMod 32 (s.get R.MMU_FRING_HEAD_HEAD) (s.get R.MMU_FRING_TAIL_TAIL) < s.fringSize ∧ s.hbmOpen = true ∧ pa + 32 ≤ hbmTop ∧
      (∀ i, i < 32 → s.translate 0 (s.fringAddr (s.get R.MMU_FRING_HEAD_HEAD) + i) .write = .ok (pa + i))) ∧
    (∃ (s : State), (s.invQueue 1).length = 7) ∧ (∃ (s : State), (s.invQueue 1).length = 8) ∧
    (∀ held, ∃ (s : State) (r : InvReq) (rest : List InvReq), s.invQueue 1 = r :: rest ∧ (List.range 16).any (fun h => (s.hamlet h).phase != .normal &&
      s.mmu.saveMap.any (fun q => decide (q.1 % 16 = h) && q.2.any (fun e => r.covers e.ctx e.va (2 ^ e.log2)))) = held) := by
  refine ⟨fun b => ⟨tMmu (fun m => { m with tlb := if b then [⟨3, 2 ^ 48 - 4096, 12, 0, true, true, false⟩] else [], walks := List.replicate 31 ⟨0, 3, 0, .read, false⟩ }), 3, 2 ^ 48 - 1,
      by cases b <;> decide +kernel⟩,
    ⟨tMmu (fun m => { m with tlb := [], walks := List.replicate 32 ⟨0, 3, 0, .read, false⟩ }), 3, 2 ^ 48 - 1, by decide +kernel⟩,
    fun b => ⟨tMmu (fun m => { m with walks := [⟨0, 3, 0, .read, b⟩] }), 0, ⟨0, 3, 0, .read, b⟩, by cases b <;> decide +kernel⟩,
    ⟨{ tMmu (fun m => { m with walks := [⟨0, 3, 0, .read, false⟩] }) with poison := [0] }, ⟨0, 3, 0, .read, false⟩, 0, by decide +kernel⟩,
    fun b => ⟨{ tOpen with logWin := [⟨0, 0, 0, 0⟩], ticks := if b then 0 else 10 ^ 9 }, ⟨0, 0, 0, 0⟩, by cases b <;> decide +kernel⟩, ⟨tOpen, by decide +kernel⟩, ⟨tOpen, 2 ^ 48, by decide +kernel⟩,
    ⟨((tOpen.put R.HLT_CTL_MIRROR_EN 0).put R.MMU_FRING_CNT_LOG2N 4).put R.MMU_FRING_HEAD_HEAD 16, 2 ^ 64 - 1, by decide +kernel⟩,
    ⟨((tOpen.put R.HLT_CTL_MIRROR_EN 0).put R.MMU_FRING_CNT_LOG2N 4).put R.MMU_FRING_HEAD_HEAD 15, 2 ^ 64 - 1, 480, by decide +kernel⟩,
    ⟨tMmu (fun m => { m with invq := [(1, List.replicate 7 ⟨1, 0, 0, 0, 0⟩)] }), by decide +kernel⟩,
    ⟨tMmu (fun m => { m with invq := [(1, List.replicate 8 ⟨1, 0, 0, 0, 0⟩)] }), by decide +kernel⟩,
    fun h => ⟨(tMmu (fun m => { m with invq := [(1, [⟨1, 0, 0, 0, 0⟩])], saveMap := [(31, [⟨1, 0, 36, 0, true, false, true⟩])] })).setHamlet 15
      { hamletDefault 0 with phase := if h then .saving none else .normal }, ⟨1, 0, 0, 0, 0⟩, [], by cases h <;> decide +kernel⟩⟩

/-- Ring 1 of DMA engine 15 is on and works in context 3, its state `x`, halted or not. -/
def tDma (x : DmaRing) (halted : Bool) : State :=
  (((tOpen.put (R.DMA_RCFG_EN 15 1) 1).put (R.DMA_RCFG_CTX 15 1) 3).put (R.DMA_RSTAT_HALTED 15 1) (b2n halted)).setDmaRing 15 1 x
/-- A descriptor of one row of 64 bytes from `src` to `dst`, which completes at `done`. -/
def tDd (fill : Bool) (src dst done : Nat) : DmaDesc := ⟨fill, false, 7, src, dst, 64, 1, 64, 64, done, false⟩
/-- Hamlet 15 is free, and saved. -/
def tDsaved : State := { tOpen with aq := { tOpen.aq with saved := [⟨1, 15, [], [], [], [0, 0, 0, 0, 0, 0, 1], ⟨none, 0, 0, some 1, 0⟩, [], none⟩] } }

theorem wit_DmaDescriptors :
    (∀ fill, ∃ (s s2 : State) (d : DmaDesc) (bs : List Byte), s.dmaServed 15 1 = true ∧ (s.dmaRing 15 1).cur = some d ∧ d.bad = false ∧ d.fill = fill ∧
      (let x := s.dmaRing 15 1; let nx := x.next d; let ctx := s.dmaCtx 15 1
       (if d.fill then .ok (fillBytes d.src x.bytes nx.2.2) else s.vread ctx nx.2.1 .read nx.2.2) = .ok bs ∧ s.vwrite ctx nx.1 bs = .ok s2)) ∧
    (∃ (s : State) (d : DmaDesc), s.dmaServed 15 1 = true ∧ (s.dmaRing 15 1).cur = some d ∧ d.bad = false ∧ d.fill = false ∧
      (let nx := (s.dmaRing 15 1).next d; (s.vread (s.dmaCtx 15 1) nx.2.1 .read nx.2.2).isOk = false)) ∧
    (∃ (s : State) (d : DmaDesc) (bs : List Byte), s.dmaServed 15 1 = true ∧ (s.dmaRing 15 1).cur = some d ∧ d.bad = false ∧ d.fill = true ∧
      (let x := s.dmaRing 15 1; let nx := x.next d; fillBytes d.src x.bytes nx.2.2 = bs ∧ (s.vwrite (s.dmaCtx 15 1) nx.1 bs).isOk = false)) ∧
    (∃ (s : State) (d : DmaDesc), s.dmaServed 15 1 = true ∧ (s.dmaRing 15 1).cur = some d ∧ d.bad = false ∧ d.fill = true ∧
      (match exec (.dmaFill 15 1 1) s with
        | .next u => u.dmaServed 15 1 && decide ((u.dmaRing 15 1).cur = some d)
        | _ => false) = true) ∧
    (∃ (s : State), s.dmaServed 15 1 = false) ∧ (∃ (s : State), s.dmaServed 15 1 = true ∧ (s.dmaRing 15 1).cur = none ∧ s.testHeld 5 15 = true) ∧
    (∀ dn ∈ [0, 0x4000], ∃ (s s2 : State) (d : DmaDesc), (s.dmaRing 15 1).cur = some d ∧ (s.dmaRing 15 1).stop = some 0 ∧ d.done = dn ∧ d.done % 32 = 0 ∧
      s.vwrite (s.dmaCtx 15 1) d.done (leBytes 4 d.tag ++ leBytes 2 0 ++ zeros 2 ++ leBytes 4 (s.dmaRing 15 1).rows ++ leBytes 4 (s.dmaRing 15 1).bytes ++
          leBytes 8 s.ptpNs ++ zeros 8) = .ok s2) ∧
    (∃ (s : State) (d : DmaDesc), (s.dmaRing 15 1).cur = some d ∧ (s.dmaRing 15 1).stop = some 0x10) ∧
    (∃ (s : State) (d : DmaDesc), (s.dmaRing 15 1).cur = some d ∧ (s.dmaRing 15 1).stop = some 1 ∧ s.on (R.DMA_RSTAT_HALTED 15 1) = false) ∧
    (∀ h, ∃ (s : State), s.dmaSavedAt 15 1 = none ∧ s.on (R.DMA_RSTAT_HALTED 15 1) = h) ∧
    (∃ (s : State) (i : Nat) (x : SavedHamlet), s.dmaSavedAt 15 2 = some i ∧ s.aq.saved[i]? = some x) := by
  refine ⟨fun fill => ?_, ⟨tDma ⟨some (tDd false (2 ^ 40) 0x3000 0), 0, 0, none, 0⟩ false, tDd false (2 ^ 40) 0x3000 0, by decide +kernel⟩,
    ⟨tDma ⟨some (tDd true 0 (2 ^ 40) 0), 0, 0, none, 0⟩ false, tDd true 0 (2 ^ 40) 0, _, by decide +kernel, by decide +kernel, rfl, rfl, rfl, by decide +kernel⟩,
    ⟨tDma ⟨some (tDd true 0x2000 0x3010 0), 0, 0, none, 0⟩ false, tDd true 0x2000 0x3010 0, by decide +kernel⟩,
    ⟨tOpen, by decide +kernel⟩,
    ⟨{ (tDma (dmaDefault 0) false).put (R.DMA_TAIL_TAIL 15 1) 1 with cal := { tOpen.cal with reqs := [⟨1, 7, 5, 15, 0, false, true, 0⟩] } }, by decide +kernel⟩, fun dn hd => ?_,
    ⟨tDma ⟨some (tDd false 0 0 0), 0, 0, some 0x10, 0⟩ false, tDd false 0 0 0, by decide +kernel⟩, ⟨tDma ⟨some (tDd false 0 0 0), 0, 0, some 1, 7⟩ false, tDd false 0 0 0, by decide +kernel⟩,
    fun h => ⟨tDma (dmaDefault 0) h, by cases h <;> decide +kernel⟩,
    ⟨tDsaved, 0, ⟨1, 15, [], [], [], [0, 0, 0, 0, 0, 0, 1], ⟨none, 0, 0, some 1, 0⟩, [], none⟩, by decide +kernel⟩⟩
  · let s := tDma ⟨some (tDd fill 0x2000 0x3010 0), 0, 0, none, 0⟩ false
    let bs := if fill then fillBytes 0x2000 0 48 else zeros 48
    obtain ⟨s2, h⟩ := ok_of (x := s.vwrite 3 0x3010 bs) (by cases fill <;> decide +kernel)
    refine ⟨s, s2, tDd fill 0x2000 0x3010 0, bs, by cases fill <;> decide +kernel, by cases fill <;> decide +kernel, rfl, rfl, ?_⟩
    have hn : (s.dmaRing 15 1).next (tDd fill 0x2000 0x3010 0) = (0x3010, 0x2000, 48) ∧ s.dmaCtx 15 1 = 3 ∧
      (if (tDd fill 0x2000 0x3010 0).fill then .ok (fillBytes (tDd fill 0x2000 0x3010 0).src (s.dmaRing 15 1).bytes 48) else s.vread 3 0x2000 .read 48) = .ok bs := by
      clear h; cases fill <;> decide +kernel
    simp only [hn.1, hn.2.1]
    exact ⟨hn.2.2, h⟩
  · let s := tDma ⟨some (tDd false 0 0 dn), 1, 0, some 0, 0⟩ false
    obtain ⟨s2, h⟩ := ok_of (x := s.vwrite (s.dmaCtx 15 1) dn (leBytes 4 7 ++ leBytes 2 0 ++ zeros 2 ++ leBytes 4 (s.dmaRing 15 1).rows ++ leBytes 4 (s.dmaRing 15 1).bytes ++
      leBytes 8 s.ptpNs ++ zeros 8)) (by revert dn; decide +kernel)
    exact ⟨s, s2, tDd false 0 0 dn, by clear h; revert dn; decide +kernel, by clear h; revert dn; decide +kernel, rfl, by clear h; revert dn; decide +kernel, h⟩

/-! ### Network, time, host interface -/

/-- Port 1 is up, and its ring `q` serves context 1 with four entries, HEAD 3 and TAIL `t`. -/
def tEth (q t : Nat) : State :=
  let s := ((tOpen.put R.ETH_CTL_EN 2).put (R.ETH_PSTAT_LINK_UP 1) 1).put (R.ETH_PCFG_PROMISC 1) 1
  ((((s.put (R.ETH_RCFG_EN 1 q) 1).put (R.ETH_RCFG_CTX 1 q) 1).put (R.ETH_RCFG_LOG2N 1 q) 2).put (R.ETH_HEAD_HEAD 1 q) 3).put (R.ETH_TAIL_TAIL 1 q) t
/-- A transmit descriptor of `n` bytes at 0x2000. -/
def tTx (n : Nat) : List Byte := tRec 32 [(0, 8, 0x2000), (8, 2, n)]
/-- A frame of `n` bytes with an EtherType. -/
def tFrame (n ty : Nat) : List Byte := zeros 12 ++ [BitVec.ofNat 8 (ty / 256), BitVec.ofNat 8 ty] ++ zeros (n - 14)
/-- The PTP clock changed by `f`, its servo on or off. -/
def tPtp (servo : Bool) (f : PtpSt → PtpSt) : State := { State.reset.put R.PTP_CTL_SERVO_EN (b2n servo) with ptp := f State.reset.ptp }

theorem wit_NetworkAndPtpTime :
    (∃ (s : State), s.ethUp 1 = false) ∧
    (∃ (s : State), s.ethUp 1 = true ∧ ∀ q ∈ [1, 0], s.ethRing 1 q = false ∨ s.txNext 1 q = s.get (R.ETH_TAIL_TAIL 1 q)) ∧
    (∀ q ∈ [0, 1], ∃ (s : State) (b : List Byte), s.ethUp 1 = true ∧ [1, 0].find? (fun q => s.ethRing 1 q && decide (s.txNext 1 q ≠ s.get (R.ETH_TAIL_TAIL 1 q))) = some q ∧
      s.vread (s.ethCtx 1 q) (s.ethDesc 1 q (s.txNext 1 q)) .read 32 = .ok b ∧ txBad b (s.maxFrame 1) = true) ∧
    (∃ (s : State) (b fr : List Byte), s.ethUp 1 = true ∧ [1, 0].find? (fun q => s.ethRing 1 q && decide (s.txNext 1 q ≠ s.get (R.ETH_TAIL_TAIL 1 q))) = some 0 ∧
      s.vread (s.ethCtx 1 0) (s.ethDesc 1 0 (s.txNext 1 0)) .read 32 = .ok b ∧ txBad b (s.maxFrame 1) = false ∧
      s.vread (s.ethCtx 1 0) (leAt b 0 8) .read (leAt b 8 2) = .ok fr) ∧
    (∃ (s : State), s.ethFly 1 = []) ∧
    (∃ (s s2 : State) (x : EthTx) (rest : List EthTx), x.q < 4 ∧ s.ethFly 1 = x :: rest ∧ x.status ≠ 0 ∧
      s.vwrite (s.ethCtx 1 x.q) (s.ethDesc 1 x.q x.idx + 0xA) (leBytes 1 (x.flags % 128 + 128) ++ leBytes 1 x.status) = .ok s2) ∧
    (∃ (s : State) (fr : List Byte), s.ethUp 1 = true ∧ s.maxFrame 1 + 1 = fr.length) ∧
    (∃ (s : State) (fr : List Byte), s.ethUp 1 = true ∧ fr.length = 60 ∧ fr.length ≤ s.maxFrame 1 ∧ beAt fr 12 2 = 0x8808) ∧
    (∃ (s : State) (fr : List Byte), s.ethUp 1 = true ∧ fr.length = 60 ∧ fr.length ≤ s.maxFrame 1 ∧ beAt fr 12 2 ≠ 0x8808 ∧ s.macTakes 1 fr = false) ∧
    (∀ full : Bool, ∃ (s s2 : State) (fr d : List Byte), s.ethUp 1 = true ∧ fr.length = 60 ∧ fr.length ≤ s.maxFrame 1 ∧ beAt fr 12 2 ≠ 0x8808 ∧ s.macTakes 1 fr = true ∧
      s.filterOf 1 (frameKind fr) = none ∧ (frameKind fr).ptp = false ∧ s.ethRing 1 2 = true ∧
      decide (s.get (R.ETH_HEAD_HEAD 1 2) = s.get (R.ETH_TAIL_TAIL 1 2)) = full ∧ s.vread (s.ethCtx 1 2) (s.ethDesc 1 2 (s.get (R.ETH_HEAD_HEAD 1 2))) .read 32 = .ok d ∧
      s.vwrite (s.ethCtx 1 2) (leAt d 0 8) (fr.take (min fr.length (leAt d 8 2))) = .ok s2) ∧
    (∀ b, ∃ (s : State), bitAt (s.get R.ETH_CTL_EN) 1 = b ∧ s.on (R.ETH_PSTAT_LINK_UP 1) = b) ∧
    (∃ (s : State), s.on R.PTP_CTL_SERVO_EN = false) ∧
    (∃ (s : State) (ep : Nat), s.on R.PTP_CTL_SERVO_EN = true ∧ ep ≠ s.epoch) ∧ (∃ (s : State), s.on R.PTP_CTL_SERVO_EN = true ∧ s.on R.PTP_STAT_STEP_PENDING = true) ∧
    (∀ n ∈ [0, 7], ∃ (s : State) (fr : Nat), fr = 0xFFFF ∧ s.on R.PTP_CTL_SERVO_EN = true ∧ s.epoch = 0 ∧ s.on R.PTP_STAT_STEP_PENDING = false ∧ s.get R.PTP_STAT_REFUSALS = n ∧
      zeroActs 1 (s.get R.PTP_LIMITS_STEP_LIM) * 65536 < (toInt 32 (s.get R.PTP_OFS_A_OFFSET) * 65536 + (fr : Int)).natAbs) ∧
    (∃ (s : State), s.on R.PTP_CTL_SERVO_EN = true ∧ s.epoch = 0 ∧ s.on R.PTP_STAT_STEP_PENDING = false ∧
      (toInt 32 (s.get R.PTP_OFS_A_OFFSET) * 65536 + ((0 : Nat) : Int)).natAbs = zeroActs 1 (s.get R.PTP_LIMITS_STEP_LIM) * 65536) ∧
    (∃ (s : State), s.on R.PTP_STAT_HOLDOVER = true) ∧
    (∀ b, ∃ (s : State), s.on R.PTP_STAT_HOLDOVER = false ∧ decide (s.since s.ptp.lastAccept < 1000000 * zeroActs 1 (s.get R.PTP_SERVO_HOLD_S)) = b) ∧ (∃ (w : Who), w ≠ .host) ∧
    (∃ (s : State), s.ptp.step = none) ∧ (∀ ab, ∃ (s : State) (v : Int), s.ptp.step = some (ab, v)) ∧
    (∀ b, ∃ (s : State), s.on R.PTP_CTL_PPS_IN_EN = true ∧ s.halfSecond s.ptp.ppsIn = b) ∧ (∃ (s : State), s.on R.PTP_CTL_PPS_IN_EN = false) ∧
    (∃ (s : State), s.on R.PTP_CTL_PPS_OUT_EN = true ∧ s.halfSecond s.ptp.ppsLast = true) ∧
    (∀ b, ∃ (s : State), s.on R.PTP_CTL_PPS_OUT_EN = true ∧ s.halfSecond s.ptp.ppsLast = false ∧
      decide ((s.ptp.time % (1000000000 * 2 ^ 32) + 1000000000 * 2 ^ 32 - min 999999999 (s.get R.PTP_PPS_OFS_OFS) * 2 ^ 32) % (1000000000 * 2 ^ 32) < incOf s.ptp.rate) = b) ∧
    (∀ b, ∃ (s : State) (t : Nat), s.on R.PTP_CTL_PPS_OUT_EN = true ∧ s.ptp.ppsLast = some t ∧ decide (tickUs t s.ticks < 1000 * clampN 1 999 (s.get R.PTP_PPS_PPS_W)) = b) ∧ (∃ (s : State), s.on R.PTP_CTL_PPS_OUT_EN = false) ∧
    (∃ (s : State), s.on (R.PTP_TMR_CTL_EN 7) = false) ∧ (∃ (s : State), s.on (R.PTP_TMR_CTL_EN 7) = true ∧ s.ptpNs + 1 = s.timerTime 7) ∧
    (∀ per ∈ [0, 10], ∃ (s : State), s.on (R.PTP_TMR_CTL_EN 7) = true ∧ s.timerTime 7 = s.ptpNs ∧ s.get (R.PTP_TMR_PER_PERIOD 7) = per) := by
  refine ⟨⟨State.reset, by decide +kernel⟩, ⟨tEth 0 3, by decide +kernel⟩, fun q h => ⟨tEth q 0, zeros 32, by revert q; decide +kernel⟩,
    ⟨tMem (tEth 0 0) [(96, tTx 60)], tTx 60, zeros 60, by decide +kernel⟩, ⟨State.reset, by decide +kernel⟩, ?_,
    ⟨tEth 2 0, zeros ((tEth 2 0).maxFrame 1 + 1), by decide +kernel, by simp [zeros]⟩, ⟨tEth 2 0, tFrame 60 0x8808, by decide +kernel⟩,
    ⟨((tEth 2 0).put (R.ETH_PCFG_PROMISC 1) 0).put (R.ETH_MAC_LO_ADDR 1) 5, tFrame 60 0x800, by decide +kernel⟩, fun full => ?_,
    fun b => ⟨if b then tEth 0 0 else State.reset, by cases b <;> decide +kernel⟩, ⟨State.reset.put R.PTP_CTL_SERVO_EN 0, by decide +kernel⟩, ⟨tPtp true id, 1, by decide +kernel⟩,
    ⟨(tPtp true id).put R.PTP_STAT_STEP_PENDING 1, by decide +kernel⟩,
    fun n h => ⟨((tPtp true id).put R.PTP_STAT_REFUSALS n).setWord R.PTP_OFS_A_OFFSET.addr 0x7FFFFFFF, 0xFFFF, by revert n; decide +kernel⟩,
    ⟨((tPtp true id).put R.PTP_LIMITS_STEP_LIM 5).put R.PTP_OFS_A_OFFSET (2 ^ 32 - 5), by decide +kernel⟩,
    ⟨State.reset.put R.PTP_STAT_HOLDOVER 1, by decide +kernel⟩,
    fun b => ⟨{ tPtp true id with ticks := if b then 0 else 10 ^ 15 }, by cases b <;> decide +kernel⟩, ⟨.watch, by decide⟩, ⟨State.reset, by decide +kernel⟩,
    fun ab => ⟨tPtp true (fun x => { x with step := some (ab, 5) }), 5, by cases ab <;> decide +kernel⟩,
    fun b => ⟨(tPtp true (fun x => { x with ppsIn := if b then some 0 else none })).put R.PTP_CTL_PPS_IN_EN 1, by cases b <;> decide +kernel⟩,
    ⟨State.reset.put R.PTP_CTL_PPS_IN_EN 0, by decide +kernel⟩,
    ⟨(tPtp true (fun x => { x with ppsLast := some 0 })).put R.PTP_CTL_PPS_OUT_EN 1, by decide +kernel⟩,
    fun b => ⟨(tPtp true (fun x => { x with ppsLast := none, time := if b then 0 else 2 ^ 40 })).put R.PTP_CTL_PPS_OUT_EN 1, by cases b <;> decide +kernel⟩,
    fun b => ⟨{ (tPtp true (fun x => { x with ppsLast := some 0 })).put R.PTP_CTL_PPS_OUT_EN 1 with ticks := if b then 0 else 10 ^ 12 }, 0, by cases b <;> decide +kernel⟩,
    ⟨State.reset.put R.PTP_CTL_PPS_OUT_EN 0, by decide +kernel⟩, ⟨State.reset, by decide +kernel⟩, ⟨(State.reset.put (R.PTP_TMR_CTL_EN 7) 1).put (R.PTP_TMR_LO_TIME 7) 1, by decide +kernel⟩,
    fun per h => ⟨(State.reset.put (R.PTP_TMR_CTL_EN 7) 1).put (R.PTP_TMR_PER_PERIOD 7) per, by revert per; decide +kernel⟩⟩
  · let x : EthTx := ⟨0, 3, 2, 0, 0, 0⟩
    let s : State := (tEth 0 0).setEthFly 1 [x]
    obtain ⟨s2, h⟩ := ok_of (x := s.vwrite (s.ethCtx 1 x.q) (s.ethDesc 1 x.q x.idx + 0xA) (leBytes 1 (x.flags % 128 + 128) ++ leBytes 1 x.status)) (by decide +kernel)
    exact ⟨s, s2, x, [], by decide, by decide +kernel, by decide, h⟩
  · let s : State := tMem (tEth 2 (if full then 3 else 0)) [(96, tTx 60)]
    obtain ⟨s2, h⟩ := ok_of (x := s.vwrite (s.ethCtx 1 2) (leAt (tTx 60) 0 8) ((tFrame 60 0x800).take (min (tFrame 60 0x800).length (leAt (tTx 60) 8 2)))) (by cases full <;> decide +kernel)
    exact ⟨s, s2, tFrame 60 0x800, tTx 60, by clear h; cases full <;> decide +kernel, by decide +kernel, by clear h; cases full <;> decide +kernel, by decide +kernel,
      by clear h; cases full <;> decide +kernel, by clear h; cases full <;> decide +kernel, by decide +kernel, by clear h; cases full <;> decide +kernel,
      by clear h; cases full <;> decide +kernel, by clear h; cases full <;> decide +kernel, h⟩

/-- The function is in D3hot or not. -/
def tD3 (s : State) (b : Bool) : State := { s with hst := { s.hst with d3 := b } }

theorem wit_BadAccessesAndReservedBits :
    (∃ (s : State) (off : Nat), s.hst.d3 = false ∧ off = 2 ^ 32 - 1) ∧ (∃ (s : State) (a : Nat), s.hst.d3 = false ∧ a % 4 = 0 ∧ regRow a = none) ∧
    (∃ (a : Nat) (r : RegRow × Nat) (i : Nat), regRow a = some r ∧ i = 31 ∧ r.1.fields.all (fun f => decide (i < f.lsb) || decide (f.lsb + f.width ≤ i)) = true) := by
  refine ⟨⟨State.reset, 2 ^ 32 - 1, by decide +kernel⟩, ⟨State.reset, 0xFFFFC, by decide +kernel⟩, ?_⟩
  have h : (regRow R.CAM_CTL_ENABLE.addr).any (fun r => r.1.fields.all (fun f => decide (31 < f.lsb) || decide (f.lsb + f.width ≤ 31))) = true := by decide +kernel
  cases hr : regRow R.CAM_CTL_ENABLE.addr with
  | none => rw [hr] at h; cases h
  | some r => rw [hr] at h; exact ⟨_, r, 31, hr, rfl, h⟩

theorem wit_BarAccesses :
    (∀ who, ∃ (s : State) (a : Nat), s.barOpen who = true ∧ a % 4 = 0 ∧ regRow a ≠ none) ∧
    (∀ p, ∃ (s : State) (a : Nat) (r : RegRow × Nat), s.barOpen .host = true ∧ a % 4 = 0 ∧ regRow a = some r ∧ s.regPresent r = p) ∧
    (∀ c, ∃ (s : State) (a : Nat) (r : RegRow × Nat), s.barOpen .host = true ∧ a % 4 = 0 ∧ regRow a = some r ∧ s.regPresent r = true ∧ plainReg a = true ∧ s.sco.armed.isSome = c) ∧
    (∃ (s : State) (y n : Nat), s.hst.d3 = false ∧ s.bar2Addr y + n = hbmTop ∧ n = 4 ∧ s.hbmOpen = true ∧ s.poisonIn (s.bar2Addr y) n = []) ∧
    (∃ (s : State) (y n : Nat), s.hst.d3 = false ∧ hbmTop + 1 = s.bar2Addr y + n) ∧
    (∃ (s : State) (y n : Nat), s.hst.d3 = false ∧ s.bar2Addr y + n = hbmTop ∧ s.hbmOpen = false) ∧
    (∃ (s : State) (y n : Nat), s.hst.d3 = false ∧ s.bar2Addr y + n ≤ hbmTop ∧ s.hbmOpen = true ∧ s.poisonIn (s.bar2Addr y) n ≠ []) ∧
    (∃ (s : State) (a : Nat), s.hst.d3 = true ∧ a % 4 = 0) := by
  have hr : ∃ r, regRow R.CAM_CTL_ENABLE.addr = some r := Option.isSome_iff_exists.1 (by decide +kernel)
  have hp : ∀ p, ∃ s : State, s.barOpen .host = true ∧ (regRow (R.ENG_HSTAT_LIVE 15).addr).map s.regPresent = some p := fun p =>
    ⟨{ State.reset with member := if p then .fl6400 else .fl0400 }, by cases p <;> decide +kernel⟩
  have hc : ∀ c : Bool, (regRow (R.CMP_LCTL_EN 0 1).addr).map (tSco false (fun x => { x with armed := if c then some ⟨0, 0, false⟩ else none })).regPresent = some true := by
    intro c; cases c <;> decide +kernel
  refine ⟨fun who => ⟨State.reset, R.CAM_CTL_ENABLE.addr, by cases who <;> rfl, by decide +kernel, by decide +kernel⟩, fun p => ?_, fun c => ?_,
    ⟨tOpen, hbmTop - 4, 4, by decide +kernel⟩, ⟨tOpen, hbmTop - 3, 4, by decide +kernel⟩, ⟨State.reset, hbmTop - 4, 4, by decide +kernel⟩,
    ⟨{ tOpen with poison := [2] }, 60, 8, by decide +kernel⟩, ⟨tD3 State.reset true, 0, by decide +kernel⟩⟩
  · obtain ⟨s, h1, h2⟩ := hp p
    obtain ⟨r, h3, h4⟩ := Option.map_eq_some_iff.1 h2
    exact ⟨s, _, r, h1, by decide +kernel, h3, h4⟩
  · obtain ⟨r, h3, h4⟩ := Option.map_eq_some_iff.1 (hc c)
    exact ⟨_, _, r, by clear h3 h4; cases c <;> decide +kernel, by decide +kernel, h3, h4, by decide +kernel, by clear h3 h4; cases c <;> decide +kernel⟩

/-- Vector 63 is pending, and may be sent or not. -/
def tMsi (masked : Bool) : State :=
  let s := State.reset.put R.HST_STAT_LINK_UP 1
  { tD3 s false with int := { s.int with pba := 1#64 <<< 63, fmask := false, msix := [(63, ⟨0xFEE00000, 1, masked⟩)] } }

theorem wit_SnapshotsInterruptsAndEndpoint :
    (∀ b, ∃ (s : State), hasSnap 0x12 = true ∧ s.on (snapBusyFld 0x12) = b) ∧
    (∃ (s : State) (b g : Nat), g = 7 ∧ b = 31 ∧ s.vecActive (s.get (causeVecFld (32 * g + b))) = true) ∧
    (∀ b, ∃ (s : State), s.int.pba.toNat.testBit 63 = true ∧ (s.msixEntry 63).masked = b ∧ s.int.fmask = false ∧ s.hst.d3 = false ∧ s.on R.HST_STAT_LINK_UP = true) ∧
    (∀ b, ∃ (s : State), s.on R.HST_PERR_HI_VALID = b) := by
  refine ⟨fun b => ⟨State.reset.put (snapBusyFld 0x12) (b2n b), by cases b <;> decide +kernel⟩,
    ⟨(State.reset.put (causeFld 255) 1).put (causeEnFld 255) 1, 31, 7, by decide +kernel⟩, fun b => ⟨tMsi b, by cases b <;> decide +kernel⟩,
    fun b => ⟨State.reset.put R.HST_PERR_HI_VALID (b2n b), by cases b <;> decide +kernel⟩⟩

theorem wit_PinsAndTestPort :
    (∃ (s : State), bitAt (s.get R.GPIO_DEBEN_EN) 31 = false ∧ bitAt (s.get R.GPIO_OE_OE) 31 = true) ∧
    (∀ up, ∃ (s : State), bitAt (s.get R.GPIO_OE_OE) 31 = false ∧ bitAt (s.get R.GPIO_IN_IN) 31 ≠ up ∧ bitAt (s.get R.GPIO_IRQ_EN_EN) 31 = true ∧
      bitAt (if up then s.get R.GPIO_IRQ_RISE_RISE else s.get R.GPIO_IRQ_FALL_FALL) 31 = true) ∧
    (∃ (s : State), s.pins.tap = 4) ∧ (∃ (s : State), s.pins.tap = 3 ∧ s.watch.porst = true ∧ s.pins.ir = 1) := by
  refine ⟨⟨State.reset.put R.GPIO_OE_OE (2 ^ 31), by decide +kernel⟩,
    fun up => ⟨(((State.reset.put R.GPIO_IRQ_EN_EN (2 ^ 31)).put R.GPIO_IRQ_RISE_RISE (2 ^ 31)).put R.GPIO_IRQ_FALL_FALL (2 ^ 31)).put R.GPIO_IN_IN (if up then 0 else 2 ^ 31),
      by cases up <;> decide +kernel⟩,
    ⟨{ State.reset with pins := { State.reset.pins with tap := 4 } }, by decide +kernel⟩,
    ⟨{ State.reset with pins := { State.reset.pins with tap := 3, ir := 1 }, watch := { State.reset.watch with porst := true } }, by decide +kernel⟩⟩

/-! ### Health -/

/-- The margin plan runs at `mv` mV and `mhz` MHz, within 750 to 800 mV, with its state changed by `f`. -/
def tHlt (mv mhz : Nat) (f : HltSt → HltSt) : State :=
  let s := ((((State.reset.put R.HLT_CTL_PLAN_EN 1).put R.HLT_AVS_SET_MV mv).put R.HLT_CEIL_CEIL_MHZ mhz).put R.HLT_AVSLIM_MIN_MV 750).put R.HLT_AVSLIM_MAX_MV 800
  let s := (((s.put R.HLT_SLACK_SLACK_MIN 2).put R.HLT_SLACK_SLACK_LO 5).put R.HLT_SLACK_SLACK_HI 10).put R.HLT_CEIL_FLOOR_MHZ 1000
  { s with hlt := f s.hlt, watch := { s.watch with dip := none }, ticks := 10 ^ 14 }
/-- The lowest slack `l` of replica `r`, and `n` evaluations with slack to spare before. -/
def tLow (l : Int) (r n : Nat) (x : HltSt) : HltSt := { x with low := some (l, r), highRun := n }
/-- An evaluation is due. -/
def tDue (s : State) : Prop := s.on R.HLT_CTL_PLAN_EN = true ∧ 1000000 * zeroActs 1 (s.get R.HLT_PLAN_PLAN_S) ≤ s.since s.hlt.planAt
/-- May a step be made? -/
def tFree (s : State) : Prop := s.hlt.target = none ∧ s.hlt.waits = none ∧ s.watch.dip = none ∧ s.on R.HLT_STAT_AVS_FAIL = false

/-- The report of `s`, as it is due. -/
def tRepW (s : State) : Except AccErr State :=
  ((s.put R.HLT_REPCTL_NOW 0).setHlt { s.hlt with repAt := s.ticks }).vwrite 0 (s.addrOf R.HLT_REP_LO_ADDR R.HLT_REP_HI_ADDR)
    (((s.put R.HLT_REPCTL_NOW 0).setHlt { s.hlt with repAt := s.ticks }).report ((s.get R.HLT_REPSEQ_SEQ + 1) % 2 ^ 32))

/-- The clauses of HealthPlanAndReport on the report. -/
theorem wit_HealthReport :
    (∃ (q : Nat), q = 2 ^ 32 - 1) ∧
    (∃ (s : State), s.on R.HLT_REPCTL_NOW = false ∧ s.since s.hlt.repAt < 1000000 * zeroActs 1 (s.get R.HLT_REPCTL_PERIOD_S)) ∧
    (∀ now : Bool, ∃ (s : State), (if now then s.on R.HLT_REPCTL_NOW = true else 1000000 * zeroActs 1 (s.get R.HLT_REPCTL_PERIOD_S) ≤ s.since s.hlt.repAt) ∧ s.on R.HLT_REPCTL_EN = false) ∧
    (∃ (s s2 : State), s.on R.HLT_REPCTL_NOW = true ∧ s.on R.HLT_REPCTL_EN = true ∧
      tRepW s = .ok s2) ∧
    (∃ (s : State) (e : AccErr), s.on R.HLT_REPCTL_NOW = true ∧ s.on R.HLT_REPCTL_EN = true ∧
      tRepW s = .error e) := by
  refine ⟨⟨_, rfl⟩, ⟨State.reset, by decide +kernel⟩,
    fun b => ⟨{ (State.reset.put R.HLT_REPCTL_EN 0).put R.HLT_REPCTL_NOW (b2n b) with ticks := 10 ^ 14 }, by cases b <;> decide +kernel⟩, ?_, ?_⟩
  · obtain ⟨s2, h⟩ := ok_of (x := tRepW ((tOpen.put R.HLT_REPCTL_EN 1).put R.HLT_REPCTL_NOW 1)) (by decide +kernel)
    exact ⟨_, s2, by clear h; decide +kernel, by clear h; decide +kernel, h⟩
  · have h : (tRepW ((State.reset.put R.HLT_REPCTL_EN 1).put R.HLT_REPCTL_NOW 1)).isOk = false := by decide +kernel
    cases e : tRepW ((State.reset.put R.HLT_REPCTL_EN 1).put R.HLT_REPCTL_NOW 1) with
    | ok b => rw [e] at h; cases h
    | error b => exact ⟨_, b, by clear h e; decide +kernel, by clear h e; decide +kernel, e⟩

theorem wit_HealthPlanAndReport :
    (∃ (s : State), s.watch.dip.isSome = true) ∧
    (∃ (s : State) (vs : List Int) (ds : List Nat), s.watch.dip = none ∧ vs.length = 64 ∧ ds.length = 64 ∧ s.on R.HLT_CTL_PLAN_EN = true ∧
      ∀ v ∈ vs, v = (s.get R.HLT_SLACK_SLACK_MIN : Int)) ∧
    (∃ (s : State) (vs : List Int), s.watch.dip = none ∧ vs.length = 64 ∧ s.on R.HLT_CTL_PLAN_EN = true ∧ (∃ v ∈ vs, v < (s.get R.HLT_SLACK_SLACK_MIN : Int)) ∧ (∃ x, s.hlt.stepAt = some x ∧ 10000 ≤ tickUs x s.ticks) ∧
      s.canRaise = true ∧ s.hlt.target = none ∧ s.hlt.waits = none) ∧
    (∃ (s : State), s.on R.HLT_CTL_PLAN_EN = true ∧ s.since s.hlt.planAt < 1000000 * zeroActs 1 (s.get R.HLT_PLAN_PLAN_S)) ∧
    (∃ (s : State), tDue s ∧ s.hlt.low = none) ∧
    (∃ (s : State) (l : Int) (r : Nat), tDue s ∧ s.hlt.low = some (l, r) ∧ s.minMv ≤ s.get R.HLT_AVS_SET_MV ∧ s.get R.HLT_AVS_SET_MV < s.maxMv ∧
      l < (s.get R.HLT_SLACK_SLACK_LO : Int) ∧ s.hlt.target = none ∧ s.hlt.waits = none ∧ s.watch.dip.isSome = true ∧ s.on R.HLT_STAT_AVS_FAIL = false) ∧
    (∃ (s : State) (l : Int) (r : Nat), tDue s ∧ s.hlt.low = some (l, r) ∧ s.get R.HLT_AVS_SET_MV = s.maxMv + 1 ∧ s.on R.HLT_STAT_AVS_FAIL = true ∧
      l < (s.get R.HLT_SLACK_SLACK_LO : Int) ∧ r = 47 ∧ s.floorMhz + 25 ≤ s.get R.HLT_CEIL_CEIL_MHZ) ∧
    (∃ (s : State) (l : Int) (r : Nat), tDue s ∧ s.hlt.low = some (l, r) ∧ s.get R.HLT_AVS_SET_MV = s.maxMv + 1 ∧ tFree s) ∧
    (∃ (s : State) (l : Int) (r : Nat), tDue s ∧ s.hlt.low = some (l, r) ∧ s.get R.HLT_AVS_SET_MV + 1 = s.minMv ∧ tFree s) ∧
    (∃ (s : State) (l : Int) (r : Nat), tDue s ∧ s.hlt.low = some (l, r) ∧ s.minMv = s.get R.HLT_AVS_SET_MV ∧ s.get R.HLT_AVS_SET_MV < s.maxMv ∧
      l + 1 = (s.get R.HLT_SLACK_SLACK_LO : Int) ∧ tFree s) ∧
    (∀ m ∈ [1025, 1024], ∃ (s : State) (l : Int) (r : Nat), tDue s ∧ s.hlt.low = some (l, r) ∧ s.minMv ≤ s.get R.HLT_AVS_SET_MV ∧
      s.get R.HLT_AVS_SET_MV = s.maxMv ∧ l + 1 = (s.get R.HLT_SLACK_SLACK_LO : Int) ∧ r = 47 ∧ s.floorMhz = 1000 ∧ s.get R.HLT_CEIL_CEIL_MHZ = m) ∧
    (∃ (s : State) (l : Int) (r : Nat), tDue s ∧ s.hlt.low = some (l, r) ∧ s.minMv ≤ s.get R.HLT_AVS_SET_MV ∧
      s.get R.HLT_AVS_SET_MV = s.maxMv ∧ l < (s.get R.HLT_SLACK_SLACK_LO : Int) ∧ r = 48) ∧
    (∀ p ∈ [(1438, 1600), (1439, 1575), (1439, 1600)], ∃ (s : State) (l : Int) (r : Nat), tDue s ∧ s.hlt.low = some (l, r) ∧ s.minMv < s.get R.HLT_AVS_SET_MV ∧
      s.get R.HLT_AVS_SET_MV ≤ s.maxMv ∧ (s.get R.HLT_SLACK_SLACK_LO : Int) ≤ l ∧ l = (s.get R.HLT_SLACK_SLACK_HI : Int) + 1 ∧ s.hlt.highRun = p.1 ∧
      s.get R.HLT_CEIL_CEIL_MHZ = p.2 ∧ tFree s) ∧
    (∃ (s : State) (l : Int) (r : Nat), tDue s ∧ s.hlt.low = some (l, r) ∧ s.minMv ≤ s.get R.HLT_AVS_SET_MV ∧ s.get R.HLT_AVS_SET_MV ≤ s.maxMv ∧
      (s.get R.HLT_SLACK_SLACK_LO : Int) = l ∧ l ≤ (s.get R.HLT_SLACK_SLACK_HI : Int)) ∧
    (∃ (s : State), s.hlt.target = none) ∧ (∀ n ∈ [0, 1], ∃ (s : State) (t : Nat), s.hlt.target = some t ∧ s.hlt.fails = n) ∧
    (∃ (t v : Nat), v = t + 10 ∧ v ≤ t + 10 ∧ t ≤ v + 10) ∧
    (∀ b, ∃ (s : State), s.dayDue = b) ∧ (∃ (s : State), s.ledgerReq = [] ∧ s.ledgerLast 0x26 (fun _ => true) = none) ∧
    (∃ (s : State) (d : List Nat), s.ledgerReq = [] ∧ s.ledgerLast 0x26 (fun _ => true) = some d) := by
  unfold tFree tDue
  refine ⟨⟨{ State.reset with watch := { State.reset.watch with dip := some ⟨0, 700, none⟩ } }, by decide +kernel⟩,
    ⟨tHlt 770 1600 id, List.replicate 64 2, List.replicate 64 0, by decide +kernel, by decide +kernel, by decide +kernel, by decide +kernel, ?_⟩,
    ⟨tHlt 770 1600 (fun x => { x with stepAt := some 0 }), List.replicate 64 1, by decide +kernel, by decide +kernel, by decide +kernel, ⟨1, by decide +kernel⟩,
      ⟨0, by decide +kernel⟩, by decide +kernel⟩,
    ⟨{ tHlt 770 1600 id with ticks := 0 }, by decide +kernel⟩, ⟨tHlt 770 1600 id, by decide +kernel⟩,
    ⟨{ tHlt 770 1600 (tLow 4 0 0) with watch := { State.reset.watch with dip := some ⟨0, 700, none⟩ } }, 4, 0, by decide +kernel⟩,
    ⟨(tHlt 801 1600 (tLow 4 47 0)).put R.HLT_STAT_AVS_FAIL 1, 4, 47, by decide +kernel⟩, ⟨tHlt 801 1600 (tLow 0 0 0), 0, 0, by decide +kernel⟩, ⟨tHlt 749 1600 (tLow 0 0 0), 0, 0, by decide +kernel⟩,
    ⟨tHlt 750 1600 (tLow 4 0 0), 4, 0, by decide +kernel⟩, fun m h => ⟨tHlt 800 m (tLow 4 47 0), 4, 47, by revert m; decide +kernel⟩,
    ⟨tHlt 800 1600 (tLow 4 48 0), 4, 48, by decide +kernel⟩, fun p h => ⟨tHlt 800 p.2 (tLow 11 0 p.1), 11, 0, by revert p; decide +kernel⟩,
    ⟨tHlt 750 1600 (tLow 5 0 0), 5, 0, by decide +kernel⟩, ⟨State.reset, by decide +kernel⟩,
    fun n h => ⟨tHlt 770 1600 (fun x => { x with target := some 775, fails := n }), 775, rfl, rfl⟩, ⟨5, 15, by decide⟩,
    fun b => ⟨State.reset.put R.HLT_POH_HOURS (24 * b2n b), by cases b <;> decide +kernel⟩, ⟨State.reset, by decide +kernel⟩,
    ⟨{ State.reset with flash := { State.reset.flash with ledger := [(0, ⟨0x26, 0, 0, 0, 0, [5]⟩)] } }, [5], by decide +kernel⟩⟩
  intro v h; rw [List.eq_of_mem_replicate h]; decide +kernel

/-! ### Calibration, thermal control, supplies -/

/-- Every task of calibration is on or off, in a supply-dip episode or not. -/
def tCal (s : State) (on dip : Bool) : State :=
  ((((s.put R.CAL_CTL_EN (b2n on)).put R.CAL_TASKEN_TASK 0xFF).put R.CAL_CTL_EXCH_EN 1).put R.CAL_PERIOD_ENG_H 1).put R.SPV_STAT_DIP (b2n dip)
/-- A request of task 7 for block 10, instance 0. -/
def tReq (now forced : Bool) : CalReq := ⟨5, 7, 10, 0, 100, now, forced, 0⟩
/-- `s` with calibration state changed by `f`. -/
def tWithCal (s : State) (f : CalSt → CalSt) : State := { s with cal := f s.cal }

/-- The task of the element of key `k` has just run in `s`. -/
def tRan (s : State) (k : Nat) : State := tWithCal s (fun c => { c with ran := [(k, 0)] })

theorem wit_CalibrationTasks :
    (∃ (s : State), ∀ n ∈ [1, 3, 4, 5, 6, 8], s.calRuns n = false) ∧ (∃ (s : State), ∀ n ∈ [1, 3, 4, 5, 6, 8], s.calRuns n = true) ∧
    (∃ (s : State), s.calRuns 1 = true ∧ s.portServes 63 = false) ∧
    (∀ dip, ∃ (s : State), s.calRuns 1 = true ∧ s.portServes 63 = true ∧ s.hasSpare 63 = true ∧ s.on R.CAL_CTL_EXCH_EN = false ∧ s.inDip = dip ∧
      s.calDue (elemKey 1 (63 * 8 + s.get (R.WYL_PSTAT_PSPARE 63))) (zeroActs 1 (s.get R.CAL_PERIOD_LANE_S)) = true) ∧
    (∃ (s : State), s.calRuns 1 = true ∧ s.portServes 63 = true ∧ s.hasSpare 63 = true ∧
      s.calDue (elemKey 1 (63 * 8 + s.get (R.WYL_PSTAT_PSPARE 63))) (zeroActs 1 (s.get R.CAL_PERIOD_LANE_S)) = true ∧ s.on R.CAL_CTL_EXCH_EN = true ∧ s.lameLane 63 = none) ∧
    (∃ (s : State), s.calRuns 1 = true ∧ s.portServes 63 = true ∧ s.hasSpare 63 = true ∧
      s.calDue (elemKey 1 (63 * 8 + s.get (R.WYL_PSTAT_PSPARE 63))) (zeroActs 1 (s.get R.CAL_PERIOD_LANE_S)) = false) ∧
    (∃ (s : State), tabGet s.cal.ran 5 = none) ∧ (∃ (s : State) (x : Nat), tabGet s.cal.ran 5 = some x) ∧
    (∀ d, ∃ (s : State), s.calRuns 4 = true ∧ s.calDue (elemKey 4 39) 60 = d) ∧ (∀ b, ∃ (s : State), s.calRuns 5 = true ∧ s.stringLit 0 1 2 = b) ∧
    (∃ (s : State), s.calRuns 6 = true ∧ s.calDue (elemKey 6 3) 60 = false) ∧ (∃ (s : State), s.calRuns 6 = true ∧ s.calDue (elemKey 6 3) 60 = true ∧ s.inDip = true) ∧
    (∃ (s : State), s.sco.inFrame = false ∧ s.since s.cal.stepAt < 16667) ∧ (∃ (s : State), s.hlt.tests ≠ [] ∧ s.inDip = true) ∧
    (∃ (s : State), s.calRuns 8 = true ∧ s.on R.CAL_CTL_EXCH_EN = true ∧ s.get R.CAL_PERIOD_ENG_H ≠ 0 ∧ s.inDip = false ∧ s.calDue (elemKey 8 15) (3600 * s.get R.CAL_PERIOD_ENG_H) = false) ∧
    (∃ (s : State), s.inDip = false ∧ 2 ≤ (s.calElem 3 5).rejects) ∧
    (∀ n ∈ [11, 12, 24], ∃ (s : State) (ohms : List Nat), s.calRuns 6 = true ∧ s.calDue (elemKey 6 3) 60 = true ∧ s.inDip = false ∧
      ((List.range 24).filter (fun i => !bitAt ((tabGet s.cal.terms 3).getD termDefault).bad i && !legBad (ohms.getD i 0))).length = n) ∧
    (∀ o ∈ [800, 960], ∃ (n : Nat), n = (legSet (List.replicate 24 o) (List.range 16)).2 ∧ decide (45 * n ≤ 1000000000 ∧ 1000000000 ≤ 55 * n) = decide (o = 800)) ∧
    (∃ (s : State), s.sco.inFrame = true) ∧
    (∃ (s : State) (e : CalElem) (x : TermSt), s.sco.inFrame = false ∧ 16667 ≤ s.since s.cal.stepAt ∧ s.on R.CAL_CTL_EN = true ∧ s.inDip = false ∧ s.sco.hold ≠ some 2 ∧ (s.cal.elems.map (·.1)).Nodup ∧
      (elemKey 4 39, e) ∈ s.cal.elems ∧ e.value ≠ e.target ∧ tabGet s.cal.terms 3 = some x) ∧
    (∃ (s : State), s.hlt.tests = []) ∧ (∃ (s : State) (p : Nat × Nat) (rest : List (Nat × Nat)), s.hlt.tests = p :: rest ∧ s.inDip = false) ∧
    (∃ (s : State), (s.hamlet 15).testing = none) ∧ (∃ (s : State) (p : Nat), (s.hamlet 15).testing = some p) ∧
    (∃ (s : State), s.calRuns 8 = true ∧ s.on R.CAL_CTL_EXCH_EN = true ∧ s.get R.CAL_PERIOD_ENG_H ≠ 0 ∧ s.inDip = false ∧ s.calDue (elemKey 8 15) (3600 * s.get R.CAL_PERIOD_ENG_H) = true ∧ s.mayRotate 15 = false) ∧
    (∃ (s : State) (e : Nat), s.calRuns 8 = true ∧ s.on R.CAL_CTL_EXCH_EN = true ∧ s.get R.CAL_PERIOD_ENG_H ≠ 0 ∧ s.inDip = false ∧ s.calDue (elemKey 8 15) (3600 * s.get R.CAL_PERIOD_ENG_H) = true ∧ s.mayRotate 15 = true ∧ s.oldestEngine 15 = some e) ∧
    (∃ (s : State), s.requestOk 0 0 0 = false) ∧ (∃ (s : State), (s.cal.reqs.filter (fun r => !r.now)).length = 8) ∧
    (∀ b, ∃ (s : State), (s.cal.reqs.filter (fun r => !r.now)).length = 7 ∧ s.requestOk 8 7 15 = true ∧ s.spareStands 8 7 15 = b) ∧
    (∃ (s : State) (id : Nat), s.cal.reqs.find? (fun r => decide (r.id = id)) = none) ∧
    (∀ now forced, ∃ (s : State) (id : Nat) (r : CalReq), s.cal.reqs.find? (fun r => decide (r.id = id)) = some r ∧ s.on R.CAL_CTL_EN = true ∧ s.inDip = false ∧
      r.forced = forced ∧ r.now = now ∧ r.task < 16 ∧ (∀ p ∈ s.hlt.tests, p.1 / 1024 = r.block → p.1 % 256 ≠ r.inst) ∧
      (∀ q ∈ s.cal.reqs.takeWhile (fun q => decide (q.id ≠ r.id)), q.block = r.block → q.inst ≠ r.inst)) ∧
    (∃ (s : State) (r q : CalReq), s.cal.reqs.find? (fun r => decide (r.id = 5)) = some r ∧ q ∈ s.cal.reqs.takeWhile (fun q => decide (q.id ≠ r.id)) ∧ q.block = r.block ∧ q.inst = r.inst) ∧
    (∃ (s : State) (r : CalReq) (p : Nat × Nat), s.cal.reqs.find? (fun r => decide (r.id = 5)) = some r ∧ p ∈ s.hlt.tests ∧ p.1 / 1024 = r.block ∧ p.1 % 256 = r.inst) ∧
    (∀ b, ∃ (s : State) (r : CalReq), s.cal.reqs.find? (fun r => decide (r.id = 5)) = some r ∧ r.forced = false ∧ r.now = false ∧ decide (1000 * r.bound ≤ s.since r.asked) = b) ∧
    (∃ (s : State) (r : CalReq), s.cal.reqs = [r] ∧ gapOf r.task r.block = 0 ∧ s.blankSlice = none) := by
  refine ⟨⟨tCal State.reset false false, by decide +kernel⟩, ⟨tCal State.reset true false, by decide +kernel⟩, ⟨tCal State.reset true false, by decide +kernel⟩,
    fun d => ⟨(tCal (tPort 2 true id) true d).put R.CAL_CTL_EXCH_EN 0, by cases d <;> decide +kernel⟩, ⟨tCal (tPort 2 true id) true false, by decide +kernel⟩,
    ⟨tRan (tCal (tPort 2 true id) true false) (elemKey 1 (63 * 8 + (tPort 2 true id).get (R.WYL_PSTAT_PSPARE 63))), by decide +kernel⟩,
    ⟨State.reset, by decide +kernel⟩, ⟨tRan State.reset 5, 0, by decide +kernel⟩,
    fun d => ⟨tRan (tCal State.reset true false) (if d then 0 else elemKey 4 39), by cases d <;> decide +kernel⟩,
    fun b => ⟨(tCal State.reset true false).setChain 0 { (tCal State.reset true false).chain 0 with found := b }, by cases b <;> decide +kernel⟩,
    ⟨tRan (tCal State.reset true false) (elemKey 6 3), by decide +kernel⟩, ⟨tCal State.reset true true, by decide +kernel⟩, ⟨State.reset, by decide +kernel⟩,
    ⟨{ tCal State.reset true true with hlt := { State.reset.hlt with tests := [(10 * 1024, 7)] } }, by decide +kernel⟩,
    ⟨tRan (tCal State.reset true false) (elemKey 8 15), by decide +kernel⟩,
    ⟨tWithCal (tCal State.reset true false) (fun c => { c with elems := [(elemKey 3 5, ⟨0, 0, 2⟩)] }), by decide +kernel⟩,
    fun n h => ⟨tCal State.reset true false, List.replicate n 800, by revert n; decide +kernel⟩, fun o h => ⟨_, rfl, by revert o; decide +kernel⟩,
    ⟨tSco false (tAt 0 false), by decide +kernel⟩,
    ⟨{ tWithCal (tCal (tSco false (fun x => { x with hold := none })) true false) (fun c => { c with elems := [(elemKey 4 39, ⟨0, 3, 0⟩)], terms := [(3, termDefault)] }) with ticks := 10 ^ 9 }, ⟨0, 3, 0⟩, termDefault,
      by decide +kernel⟩,
    ⟨State.reset, by decide +kernel⟩, ⟨{ tCal State.reset true false with hlt := { State.reset.hlt with tests := [(10 * 1024, 7)] } }, (10 * 1024, 7), [], by decide +kernel⟩,
    ⟨State.reset, by decide +kernel⟩, ⟨State.reset.setHamlet 15 { hamletDefault 0 with testing := some 16 }, 16, by decide +kernel⟩,
    ⟨(tCal State.reset true false).setHamlet 15 { hamletDefault 0 with spareOk := false }, by decide +kernel⟩,
    ⟨(tCal State.reset true false).setHamlet 15 { hamletDefault 0 with spareOk := true }, 0, by decide +kernel⟩, ⟨State.reset, by decide +kernel⟩,
    ⟨tWithCal State.reset (fun c => { c with reqs := List.replicate 8 (tReq false false) }), by decide +kernel⟩,
    fun b => ⟨(tWithCal State.reset (fun c => { c with reqs := List.replicate 7 (tReq false false) })).setHamlet 15 { hamletDefault 0 with spareOk := b }, by cases b <;> decide +kernel⟩,
    ⟨State.reset, 5, by decide +kernel⟩,
    fun n f => ⟨tWithCal (tCal State.reset true false) (fun c => { c with reqs := [tReq n f] }), 5, tReq n f, by cases n <;> cases f <;> decide +kernel⟩,
    ⟨tWithCal State.reset (fun c => { c with reqs := [{ tReq false false with id := 4 }, tReq false false] }), tReq false false, { tReq false false with id := 4 }, by decide +kernel⟩,
    ⟨{ tWithCal State.reset (fun c => { c with reqs := [tReq false false] }) with hlt := { State.reset.hlt with tests := [(10 * 1024, 7)] } }, tReq false false, (10 * 1024, 7), by decide +kernel⟩,
    fun b => ⟨{ tWithCal State.reset (fun c => { c with reqs := [tReq false false] }) with ticks := if b then 10 ^ 9 else 0 }, tReq false false, by cases b <;> decide +kernel⟩,
    ⟨tWithCal ((tSco false (tAt 0 false)).putA R.SCO_VTOTAL_VTOTAL_MIN 4100) (fun c => { c with reqs := [{ tReq false false with block := 11 }] }), { tReq false false with block := 11 },
      by decide +kernel⟩⟩

/-- Thermal state changed by `f`, and the Watch's by `g`. -/
def tThm (f : ThmSt → ThmSt) (g : WatchSt → WatchSt) : State :=
  { State.reset with thm := f { State.reset.thm with full := true }, watch := g { State.reset.watch with down := false, trip := false, shutDue := none, held := none, tripped := [] } }

theorem wit_ThermalControl :
    (∀ c ∈ [0, 39, 40, 43, 95], ∃ (s : State), s.thm.chan < 96 ∧ s.thm.chan = c ∧ s.watch.held = none) ∧
    (∀ r ∈ [864, 865], ∃ (s : State) (n k : Nat), s.thm.chan = 64 ∧ railNominal 64 = some n ∧ decide (8 * n < ((r : Int) - n).natAbs * 100) = decide (r = 865) ∧
      tabGet s.thm.oor 64 = some (k + 1)) ∧
    (∃ (th hy t : Int), 8 * th < t ∧ 1 ≤ hy) ∧
    (∃ (s : State) (v : Int), s.thm.full = true ∧ s.hasSensor 39 = true ∧ tabGet s.thm.vals 39 = some v ∧ outOfRange v = true ∧ 39 ∉ s.thm.broken) ∧
    (∃ (s : State), s.thm.full = false) ∧
    (∀ w, ∃ (s u : State), s.thm.full = true ∧ exec .thermalRound s = .next u ∧ s.on R.THM_STAT_WARN = w ∧
      (if w then ∀ v ∈ u.regionVals, v ≤ 8 * (s.thrWarn - s.thmHyst) else ∃ v ∈ u.regionVals, 8 * s.thrWarn < v)) ∧
    (∃ (s : State), s.thm.full = true ∧ s.watch.trip = true) ∧
    (∃ (s : State) (v : Int), s.watch.trip = false ∧ s.watch.shutDue = none ∧ s.watch.down = false ∧ s.hasSensor 39 = true ∧ tabGet s.thm.vals 39 = some v ∧ v = s.thmShut ∧ s.thm.full = true ∧
      ∃ u, exec .thermalRound s = .next u ∧ 39 ∉ u.thm.broken) ∧
    (∃ (s u : State) (n : Nat), s.thm.full = true ∧ s.watch.trip = false ∧ s.watch.shutDue = none ∧ s.watch.down = false ∧ exec .thermalRound s = .next u ∧ n = 39 ∧ s.hasSensor n = true ∧ u.isBlind n = true) ∧
    (∃ (s : State), s.hasSensor 40 = false) ∧ (∃ (s : State), s.hasSensor 39 = true ∧ s.isBroken 39 = false ∧ 39 ∉ s.watch.tripped ∧ s.watch.trip = false ∧ s.watch.shutDue = none ∧ s.watch.down = false) ∧
    (∃ (s : State), s.watch.shutDue = none) ∧ (∃ (s : State) (d : ShutDue), s.watch.shutDue = some d ∧ s.shutWindow.length = 3) ∧
    (∃ (s : State), s.watch.coolAt = none) ∧
    (∀ b, ∃ (s : State) (t : Nat), s.watch.coolAt = some t ∧ s.watch.trip = true ∧ s.on R.THM_SHSTAT_LATCHED_OFF = false ∧
      decide (tickUs t s.ticks < s.get R.THM_SHUT_RESTART_S * 1000000) = b) := by
  refine ⟨fun c h => ⟨tThm (fun x => { x with chan := c }) id, by revert c; decide +kernel⟩,
    fun r h => ⟨tThm (fun x => { x with chan := 64, oor := [(64, 1)] }) id, 800, 0, by revert r; decide +kernel⟩, ⟨118, 4, 8 * 118 + 1, by decide⟩,
    ⟨tThm (fun x => { x with vals := [(39, 1361)] }) id, 1361, by decide +kernel⟩,
    ⟨State.reset, by decide +kernel⟩,
    fun w => ⟨(tThm (fun x => { x with vals := [(39, if w then 8 * 108 else 8 * 112 + 1)] }) (fun x => { x with held := some 0 })).put R.THM_STAT_WARN (b2n w), _, by cases w <;> decide +kernel, rfl, by cases w <;> decide +kernel,
      by cases w <;> decide +kernel⟩,
    ⟨tThm id (fun x => { x with trip := true }), by decide +kernel⟩,
    ⟨tThm (fun x => { x with vals := [(39, 8 * 132)] }) id, 8 * 132, by decide +kernel, by decide +kernel, by decide +kernel, by decide +kernel, by decide +kernel, by decide +kernel, by decide +kernel,
      ⟨_, rfl, by decide +kernel⟩⟩,
    ⟨tThm (fun x => { x with broken := List.range 40 }) id, _, 39, by decide +kernel, by decide +kernel, by decide +kernel, by decide +kernel, rfl, rfl, by decide +kernel, by decide +kernel⟩,
    ⟨State.reset, by decide +kernel⟩, ⟨tThm id id, by decide +kernel⟩, ⟨tThm id id, by decide +kernel⟩,
    ⟨tThm id (fun x => { x with shutDue := some ⟨1, 39, 1056⟩, shuts := [0, 0] }), ⟨1, 39, 1056⟩, by decide +kernel⟩, ⟨tThm id (fun x => { x with coolAt := none }), by decide +kernel⟩,
    fun b => ⟨(tThm id (fun x => { x with coolAt := some 0, trip := true })).put R.THM_SHUT_RESTART_S (if b then 1 else 0), 0, by cases b <;> decide +kernel⟩⟩

theorem wit_SuppliesAndReferences :
    (∃ (s : State), s.watch.down = true) ∧ (∃ (s : State), s.watch.down = false ∧ s.watch.held = none ∧ s.watch.dip = none) ∧ (∃ (mv : Nat), mv = 699) ∧ (∃ (mv : Nat), mv = 700) ∧
    (∀ q ∈ [none, some 0], ∃ (s : State) (d : DipSt), s.watch.down = false ∧ s.watch.held = none ∧ s.watch.dip = some d ∧ d.qual = q) ∧
    (∃ (s : State), s.watch.dip = none) ∧
    (∃ (s : State) (d : DipSt), s.watch.dip = some d ∧ ∀ q, d.qual = some q → tickUs q s.ticks < 100) ∧
    (∀ w ∈ [none, some 770], ∃ (s : State) (d : DipSt) (q : Nat), s.watch.dip = some d ∧ d.qual = some q ∧ 100 ≤ tickUs q s.ticks ∧ s.hlt.waits = w) ∧
    (∀ q ∈ [none, some 330000], ∃ (s : State) (d : DipSt), s.watch.dip = some d ∧ 1000 ≤ tickUs d.start s.ticks ∧ d.qual = q ∧ ∀ q, d.qual = some q → 1000 < tickUs d.start q) ∧
    (∃ (s : State) (mv : Nat), mv = 661 ∧ s.watch.dip = none) ∧ (∃ (mv : Nat), mv = 660) ∧
    (∀ b, ∃ (s : State), decide (10000 ≤ tickUs s.watch.lowAt s.ticks) = b) ∧
    (∃ (s : State) (c : Nat), s.watch.down = false ∧ s.watch.held = some c) ∧
    (∀ r, r < 5 → ∃ (s : State), s.watch.down = false ∧ r ∉ s.watch.lost ∧ s.watch.held = none) ∧ (∀ r, r < 5 → ∃ (s : State), r ∈ s.watch.lost) := by
  refine ⟨⟨State.reset, by decide +kernel⟩, ⟨tThm id (fun x => { x with dip := none }), by decide +kernel⟩, ⟨_, rfl⟩, ⟨_, rfl⟩,
    fun q h => ⟨tThm id (fun x => { x with dip := some ⟨0, 700, q⟩ }), ⟨0, 700, q⟩, by revert q; decide +kernel⟩,
    ⟨tThm id (fun x => { x with dip := none }), by decide +kernel⟩, ⟨tThm id (fun x => { x with dip := some ⟨0, 690, some 0⟩ }), ⟨0, 690, some 0⟩, by decide +kernel, ?_⟩,
    fun w h => ⟨{ tThm id (fun x => { x with dip := some ⟨0, 690, some 0⟩ }) with hlt := { State.reset.hlt with waits := w }, ticks := 10 ^ 6 }, ⟨0, 690, some 0⟩, 0, by revert w; decide +kernel⟩,
    fun q h => ⟨{ tThm id (fun x => { x with dip := some ⟨0, 690, q⟩ }) with ticks := 10 ^ 6 }, ⟨0, 690, q⟩, rfl, by revert q; decide +kernel, rfl, ?_⟩,
    ⟨tThm id (fun x => { x with dip := none }), 661, by decide +kernel⟩, ⟨_, rfl⟩,
    fun b => ⟨{ tThm id (fun x => { x with lowAt := 0 }) with ticks := if b then 10 ^ 8 else 0 }, by cases b <;> decide +kernel⟩,
    ⟨tThm id (fun x => { x with held := some 3 }), 3, by decide +kernel⟩, fun r h => ⟨tThm id (fun x => { x with lost := [] }), by revert r; decide +kernel⟩,
    fun r h => ⟨tThm id (fun x => { x with lost := [r] }), by revert r; decide +kernel⟩⟩
  · intro q h; cases h; decide +kernel
  · intro y e; revert q y; decide +kernel

/-! ### Security, the Ledger, resets, firmware -/

/-- A request waits at a running Watch, with its state changed by `f`. -/
def tSec (op : Nat) (body : List Byte) (f : State → State) : State :=
  f { tThm id id with watch := { (tThm id id).watch with req := some ⟨op, body⟩, romOnly := false } }
/-- A Ledger record at slot `n`. -/
def tRecAt (n : Nat) (r : LedgerReq) : State :=
  { tThm id (fun x => { x with skipped := 0, slot := n, tokens := 0, tokenAt := 0 }) with ledgerReq := [r], flash := { State.reset.flash with ledger := [] } }

theorem wit_WatchRequestsAndLedger :
    (∃ (s : State), s.on R.SEC_STAT_BUSY = true) ∧ (∃ (s : State), s.on R.SEC_STAT_BUSY = false ∧ s.watch.held = none) ∧
    (∃ (op : Nat), op = 255 ∧ secLen op = none) ∧ (∃ (op n len : Nat), secLen op = some n ∧ len = n ∧ len < 2 ^ 15) ∧
    (∀ op ∈ [1, 2, 3], ∃ (s : State), s.secReq op = none) ∧ (∃ (s : State) (b : List Byte), s.secReq 1 = some b ∧ s.cfgCode b ≠ 0) ∧
    (∃ (s : State) (b : List Byte), s.secReq 2 = some b ∧ s.on R.SPV_STAT_ATT_EN = false) ∧
    (∃ (s : State) (b : List Byte), s.secReq 2 = some b ∧ s.on R.SPV_STAT_ATT_EN = true ∧ s.leavesOut = true) ∧
    (∀ c ∈ [0, 1], ∃ (s : State) (b : List Byte), s.secReq 2 = some b ∧ s.on R.SPV_STAT_ATT_EN = true ∧ s.leavesOut = false ∧ s.get R.SPV_ATT_CREDIT = c) ∧
    (∃ (s : State) (b : List Byte), s.secReq 3 = some b) ∧
    (∃ (s : State), s.watch.reply = none) ∧ (∃ (s : State) (r : SecReply), s.watch.reply = some r ∧ r.body.length = 16384) ∧
    (∃ (s : State), s.watch.down = true) ∧ (∃ (s : State), s.watch.down = false) ∧
    (∀ b, ∃ (s : State), s.watch.down = false ∧ decide (s.watch.gainAt + 900000 ≤ s.spNow) = b ∧ decide (s.watch.hourAt + 3600000 ≤ s.spNow) = b) ∧
    (∀ c ∈ [0x20, 0x28], ∃ (s : State) (r : LedgerReq) (rest : List LedgerReq), s.watch.down = false ∧ s.watch.skipped = 0 ∧ s.ledgerReq = r :: rest ∧ r.cls = c ∧
      min 256 (s.watch.tokens + (s.spNow / 1000 - s.watch.tokenAt)) = 0) ∧
    (∀ c ∈ [0x1F, 0x29], ∃ (s : State) (r : LedgerReq) (rest : List LedgerReq), s.watch.down = false ∧ s.watch.skipped = 0 ∧ s.ledgerReq = r :: rest ∧ r.cls = c ∧
      s.sectorErased (s.watch.slot / 1024) = true) ∧
    (∃ (s : State), s.sectorErased ((s.watch.slot / 1024 + 1) % 30) = true) ∧
    (∃ (s : State) (p : Nat × LedgerRec), let sec := (s.watch.slot / 1024 + 1) % 30
      s.watch.down = false ∧ s.sectorErased sec = false ∧ s.watch.slot = 30719 ∧ (s.flash.ledger.map (·.1)).Nodup ∧ p ∈ s.dropDaily.flash.ledger ∧ p.1 / 1024 = sec ∧
      s.dropDaily.ledgerKeeps p.2 = true) := by
  refine ⟨⟨State.reset.put R.SEC_STAT_BUSY 1, by decide +kernel⟩, ⟨tThm id id, by decide +kernel⟩, ⟨255, rfl, rfl⟩, ⟨1, 3136, 3136, rfl, rfl, by decide⟩,
    fun op h => ⟨tThm id (fun x => { x with req := none }), by revert op; decide +kernel⟩, ⟨tSec 1 (zeros 3136) id, zeros 3136, by decide +kernel⟩,
    ⟨tSec 2 (zeros 64) (fun s => s.put R.SPV_STAT_ATT_EN 0), zeros 64, by decide +kernel⟩,
    ⟨tSec 2 (zeros 64) (fun s => { s.put R.SPV_STAT_ATT_EN 1 with otp := { s.otp with blocks := 1024 } }), zeros 64, by decide +kernel⟩,
    fun c h => ⟨tSec 2 (zeros 64) (fun s => (((s.put R.SPV_STAT_ATT_EN 1).put R.SPV_ATT_LEAF 1).put R.SPV_ATT_CREDIT c)), zeros 64, by revert c; decide +kernel⟩,
    ⟨tSec 3 (zeros 8) id, zeros 8, by decide +kernel⟩, ⟨tThm id (fun x => { x with reply := none }), by decide +kernel⟩,
    ⟨tThm id (fun x => { x with reply := some ⟨3, 0, zeros 16384⟩ }), ⟨3, 0, zeros 16384⟩, rfl, List.length_replicate⟩, ⟨State.reset, by decide +kernel⟩, ⟨tThm id id, by decide +kernel⟩,
    fun b => ⟨{ tThm id (fun x => { x with gainAt := 0, hourAt := 0 }) with ticks := if b then 10 ^ 13 else 0 }, by cases b <;> decide +kernel⟩,
    fun c h => ⟨tRecAt 5 ⟨c, 0, []⟩, ⟨c, 0, []⟩, [], by revert c; decide +kernel⟩, fun c h => ⟨tRecAt 1024 ⟨c, 0, []⟩, ⟨c, 0, []⟩, [], by revert c; decide +kernel⟩,
    ⟨tRecAt 5 ⟨0x20, 0, []⟩, by decide +kernel⟩,
    ⟨{ tRecAt 30719 ⟨0x20, 0, []⟩ with flash := { State.reset.flash with ledger := [(1023, ⟨0x22, 0, 0, 0, 0, []⟩)] } }, (1023, ⟨0x22, 0, 0, 0, 0, []⟩), by decide +kernel⟩⟩

theorem wit_ResetsKeepTheWatch : (∃ (s : State), s.watch.held.isSome = true) ∧ (∃ (s : State), s.watch.held = none) ∧ (∃ (s : State), s.watch.down = true) ∧ (∃ (s : State), s.watch.down = false) :=
  ⟨⟨State.reset, by decide +kernel⟩, ⟨tThm id id, by decide +kernel⟩, ⟨State.reset, by decide +kernel⟩, ⟨tThm id id, by decide +kernel⟩⟩

/-- A slot directory with ACTIVE `a` and the STATE of slots A and B, on a running device, with the update engine's state changed by `f`. -/
def tFwu (a stA stB : Nat) (f : FwuSt → FwuSt) : State :=
  let s := (((tThm id id).flashPut 0 (Dir.bytes ⟨1, a, stA, stB, 0, 0, 0⟩)).flashPut (slotBase 0) (zeros 16)).flashPut (slotBase 1) (zeros 16)
  { s.put R.MEM_STAT_TRAINED 1 with fwu := f s.fwu }
/-- The main domain is held for a CAUSE, and may be released. -/
def tHeld (c a stA stB : Nat) (rom : Bool) : State :=
  let s := (tFwu a stA stB id).put R.HLT_AVS_SET_MV 750
  { s with watch := { s.watch with held := some c, porst := false, wrst := false, coreOk := true, lost := [], coreBack := 0, romOnly := rom } }
/-- Firmware of slot 1, with SVN_COMMIT or not. -/
def tFw (commit : Bool) : Firmware := ⟨1, 64, commit, [], zeros 16⟩

theorem wit_StartUpAndFirmware :
    (∃ (s : State), s.watch.down = true) ∧ (∃ (s : State), s.watch.down = false) ∧
    (∀ mv ∈ [739, 761], ∃ (s : State), s.mayRelease mv = false ∧ s.get R.HLT_AVS_SET_MV = 750) ∧
    (∀ mv ∈ [740, 760], ∃ (s : State) (c : Nat), s.mayRelease mv = true ∧ s.watch.held = some c ∧ s.watch.romOnly = true ∧ s.dir.active = 1) ∧
    (∃ (s : State) (c : Nat), s.mayRelease 750 = true ∧ s.watch.held = some c ∧ (∀ k, k < 2 → s.dir.state k ≠ 4 ∧ s.dir.state k ≠ 2 ∧ s.dir.state k ≠ 3) ∧ s.dir.active = 0) ∧
    (∃ (s : State), s.watch.held.isSome = true) ∧ (∀ n, n < 7 → ∃ (s : State), s.watch.held = none ∧ s.get R.GLB_BOOT_STAGE = n) ∧
    (∃ (s : State) (f : Firmware), s.watch.held = none ∧ s.get R.GLB_BOOT_STAGE = 1 ∧ s.fwu.run = some f) ∧
    (∃ (s : State), s.watch.held = none ∧ s.on R.FWU_STAT_BUSY = true) ∧
    (∃ (s : State), s.fwuFree ∧ s.mayProgram 1 = false) ∧
    (∃ (s : State), s.fwuFree ∧ s.mayProgram 1 = true ∧ s.get R.FWU_LEN_LEN = 25165825) ∧
    (∃ (s : State) (img : List Byte), s.fwuFree ∧ s.mayProgram 1 = true ∧ s.addrOf R.FWU_SRC_LO_ADDR R.FWU_SRC_HI_ADDR + s.get R.FWU_LEN_LEN ≤ hbmTop ∧
      s.get R.FWU_LEN_LEN ≤ 25165824 ∧ s.physRead (s.addrOf R.FWU_SRC_LO_ADDR R.FWU_SRC_HI_ADDR) (s.get R.FWU_LEN_LEN) = .ok img ∧ s.stewardCode img ≠ 0) ∧
    (∀ n ∈ [1, 2], ∃ (s : State) (o : FwuOp), s.fwu.op = some o ∧ o.op = n ∧ o.slot = 1 ∧ o.image.length ≤ 0x1800000) ∧
    (∀ st ∈ [2, 3, 4, 5], ∃ (s : State), s.fwuFree ∧ s.dir.state 1 = st) ∧
    (∀ n : Fin 2, ∃ (s : State) (o : FwuOp), s.fwu.op = some o ∧ o.op = 2 ∧
      (if n = 0 then s.hbmOpen = false else s.addrOf R.FWU_STAGE_LO_ADDR R.FWU_STAGE_HI_ADDR + (s.stewardObj o.slot).length ≤ hbmTop ∧ s.hbmOpen = true ∧ s.stewardCode (s.stewardObj o.slot) ≠ 0)) ∧
    (∃ (s : State), s.fwuFree ∧ s.fwu.prepared = none) ∧ (∀ b, ∃ (s : State) (a : Nat), s.fwuFree ∧ s.fwu.prepared = some (1, a) ∧ s.bandMode = b) ∧
    (∃ (s : State), s.fwu.switch = none) ∧ (∃ (s : State) (t : Nat) (old : Option Firmware), s.fwu.switch = some ⟨1, some t, old⟩) ∧
    (∃ (s : State) (p a : Nat) (old : Option Firmware), s.fwu.switch = some ⟨1, none, old⟩ ∧ s.fwu.prepared = some (p, a) ∧ s.aq.launches = [] ∧ s.stagedObj 1 a = []) ∧ (∃ (s : State), s.aq.launches ≠ []) ∧
    (∃ (s : State), s.fwuFree ∧ s.fwu.run = none) ∧ (∀ b, ∃ (s : State) (f : Firmware), s.fwuFree ∧ s.fwu.run = some f ∧ f.commit = b ∧ s.otp.svn.length = 3 ∧ f.svn = 64) ∧
    (∃ (s : State) (o : FwuOp), s.watch.held = none ∧ s.fwu.op = some o ∧ o.op = 2) ∧
    (∀ t ∈ [none, some 0], ∃ (s : State) (old : Option Firmware), s.watch.held = none ∧ s.fwu.op = none ∧ s.fwu.switch = some ⟨1, t, old⟩) ∧
    (∀ ms ∈ [1, 2], ∃ (s : State) (t : Nat) (old : Option Firmware), s.fwu.switch = some ⟨1, some t, old⟩ ∧ s.get R.STW_STAT_FAULT = 0 ∧
      decide (zeroActs 1 (s.get R.FWU_ALIVE_MS) * 1000 ≤ tickUs t s.ticks) = decide (ms = 1)) := by
  unfold State.fwuFree
  refine ⟨⟨State.reset, by decide +kernel⟩, ⟨tThm id id, by decide +kernel⟩, fun mv h => ⟨tHeld 0 1 2 2 true, by revert mv; decide +kernel⟩,
    fun mv h => ⟨tHeld 0 1 2 2 true, 0, by revert mv; decide +kernel⟩, ⟨tHeld 0 0 5 1 false, 0, by decide +kernel⟩, ⟨State.reset, by decide +kernel⟩,
    fun n h => ⟨(tFwu 0 2 2 id).put R.GLB_BOOT_STAGE n, by revert n; decide +kernel⟩, ⟨(tFwu 0 2 2 (fun x => { x with run := some (tFw true) })).put R.GLB_BOOT_STAGE 1, tFw true, by decide +kernel⟩,
    ⟨(tFwu 0 2 2 id).put R.FWU_STAT_BUSY 1, by decide +kernel⟩, ⟨tFwu 1 4 2 (fun x => { x with run := some (tFw true) }), by decide +kernel⟩,
    ⟨(tFwu 0 2 2 id).put R.FWU_LEN_LEN 25165825, by decide +kernel⟩, ⟨(tFwu 0 2 2 id).put R.FWU_LEN_LEN 0, [], by decide +kernel⟩,
    fun n h => ⟨tFwu 0 2 2 (fun x => { x with op := some ⟨n, 1, zeros 16⟩ }), ⟨n, 1, zeros 16⟩, by revert n; decide +kernel⟩,
    fun st h => ⟨tFwu 0 4 st id, by revert st; decide +kernel⟩,
    fun n => ⟨(tFwu 0 2 2 (fun x => { x with op := some ⟨2, 1, []⟩ })).put R.MEM_CTL_MAP_LOCK n.val, ⟨2, 1, []⟩, by revert n; decide +kernel⟩,
    ⟨tFwu 0 2 2 id, by decide +kernel⟩, fun b => ⟨(tFwu 0 2 2 (fun x => { x with prepared := some (1, 0) })).putA R.SYN_CTL_MODE (b2n b), 0, by cases b <;> decide +kernel⟩,
    ⟨tFwu 0 2 2 id, by decide +kernel⟩, ⟨tFwu 0 2 2 (fun x => { x with switch := some ⟨1, some 0, none⟩ }), 0, none, by decide +kernel⟩,
    ⟨tFwu 0 2 2 (fun x => { x with switch := some ⟨1, none, none⟩, prepared := some (1, 0) }), 1, 0, none, by decide +kernel⟩,
    ⟨{ State.reset with aq := { State.reset.aq with launches := [(0, tLaunch none)] } }, by decide +kernel⟩, ⟨tFwu 0 2 2 id, by decide +kernel⟩,
    fun b => ⟨tFwu 0 2 2 (fun x => { x with run := some (tFw b) }), tFw b, by cases b <;> decide +kernel⟩,
    ⟨tFwu 0 2 2 (fun x => { x with op := some ⟨2, 1, []⟩ }), ⟨2, 1, []⟩, by decide +kernel⟩,
    fun t h => ⟨tFwu 0 2 2 (fun x => { x with switch := some ⟨1, t, none⟩ }), none, by revert t; decide +kernel⟩,
    fun ms h => ⟨{ (tFwu 0 2 2 (fun x => { x with switch := some ⟨1, some 0, none⟩ })).put R.FWU_ALIVE_MS ms with ticks := 322300 }, 0, none, by revert ms; decide +kernel⟩⟩

theorem wit_StepTakesFront : (∃ (s : State) (c : Instr) (rest : List Instr), s.pending = c :: rest) ∧ (∃ (s : State), s.pending = []) :=
  ⟨⟨{ State.reset with pending := [.commit, .vblank] }, .commit, [.vblank], rfl⟩, ⟨State.reset, by decide +kernel⟩⟩

theorem wit_OtpOnlyMovesForward : ∃ (s u : State), OtpOk s ∧ step s = .next u ∧ s.pending ≠ [] := by
  refine ⟨{ State.reset with pending := [.watchReset] }, _, ?_, rfl, by decide⟩
  unfold OtpOk; decide +kernel

/-! ### What is not well formed

For each check of WellFormed.lean a term that it refuses, and for each command a term that passes. -/

/-- The fields of the five formats, one at a time at the first value that does not fit (R136, R139). -/
theorem test_wf_formats :
    ([(⟨8, false, 0, 0, 0, 0, false, false, 0⟩ : FmtA), ⟨0, false, 64, 0, 0, 0, false, false, 0⟩, ⟨0, false, 0, 64, 0, 0, false, false, 0⟩,
      ⟨0, false, 0, 0, 64, 0, false, false, 0⟩, ⟨0, false, 0, 0, 0, 64, false, false, 0⟩, ⟨0, false, 0, 0, 0, 0, false, false, 8⟩].all (fun f => !f.wf) = true) ∧
    ([(⟨8, false, 0, 0, false, 0, 0⟩ : FmtI), ⟨0, false, 64, 0, false, 0, 0⟩, ⟨0, false, 0, 64, false, 0, 0⟩, ⟨0, false, 0, 0, false, 4, 0⟩,
      ⟨0, false, 0, 0, false, 0, 4294967296⟩].all (fun f => !f.wf) = true) ∧
    ([(⟨8, false, 0, 0, 0, false, 0, false, 0, false, 0, 0⟩ : FmtM), ⟨0, false, 64, 0, 0, false, 0, false, 0, false, 0, 0⟩,
      ⟨0, false, 0, 64, 0, false, 0, false, 0, false, 0, 0⟩, ⟨0, false, 0, 0, 64, false, 0, false, 0, false, 0, 0⟩,
      ⟨0, false, 0, 0, 0, false, 4, false, 0, false, 0, 0⟩, ⟨0, false, 0, 0, 0, false, 0, false, 4, false, 0, 0⟩,
      ⟨0, false, 0, 0, 0, false, 0, false, 0, false, 8, 0⟩, ⟨0, false, 0, 0, 0, false, 0, false, 0, false, 0, 16777216⟩].all (fun f => !f.wf) = true) ∧
    ([(⟨8, false, 0, 0, false, 0⟩ : FmtB), ⟨0, false, 64, 0, false, 0⟩, ⟨0, false, 0, 64, false, 0⟩, ⟨0, false, 0, 0, false, 1073741824⟩].all (fun f => !f.wf) = true) ∧
    ([(⟨8, false, 0, 0, 0, 0, false, 0, 0⟩ : FmtX), ⟨0, false, 64, 0, 0, 0, false, 0, 0⟩, ⟨0, false, 0, 64, 0, 0, false, 0, 0⟩,
      ⟨0, false, 0, 0, 64, 0, false, 0, 0⟩, ⟨0, false, 0, 0, 0, 4, false, 0, 0⟩, ⟨0, false, 0, 0, 0, 0, false, 64, 0⟩,
      ⟨0, false, 0, 0, 0, 0, false, 0, 65536⟩].all (fun f => !f.wf) = true) := by decide

/-- Threads and senders out of range (R96, R100, R129), and one command of each format with such a thread. -/
theorem test_wf_threads :
    (!Thr.wf (.eng 256 0) && !Thr.wf (.eng 0 4) && !Thr.wf (.stw 8) && !Who.wf (.steward 8) && Thr.wf (.eng 255 3) && Thr.wf (.stw 7) && Who.wf (.steward 7)) = true ∧
    (([.iadd (.stw 8) ⟨0, false, 0, 0, 0, 0, false, false, 0⟩, .movi (.stw 8) ⟨0, false, 0, 0, false, 0, 0⟩,
       .ldl (.stw 8) ⟨0, false, 0, 0, 0, false, 0, false, 0, false, 0, 0⟩, .branch (.stw 8) ⟨0, false, 0, 0, false, 0⟩,
       .sweep (.stw 8) ⟨0, false, 0, 0, 0, 0, false, 0, 0⟩, .iadd .watch ⟨8, false, 0, 0, 0, 0, false, false, 0⟩] : List Instr).all (fun i => !i.wf)) = true := by decide

/-- Operands at the first value out of their range, one at a time (1). -/
theorem test_wf_refused_0 : ([
    .registerWrite .host 3 0 0, .registerWrite .host 0 0 4294967296, .registerWrite (.steward 8) 0 0 0, .rcRead .host 2 0, .rcRead .host 0 33554432,
    .rcRead (.steward 8) 0 0, .bar0BadAccess 33554432 false, .barAtomicRequest 3 0, .snap 27, .snapshotLatchComplete 27, .openStream 32, .frame 32 0,
    .closeStream 32, .bindRaymap 32, .badop 32, .rissue .watch 64 0, .rissue .watch 0 8, .rissue (.eng 256 0) 0 0, .rmapFault 16, .issueWfault 16,
    .tileBandComplete 0 64 0, .tileBandComplete 0 0 64, .firstTouch 16, .stripDecoded 16 0, .caddyInvStream 16, .globalLoadReturn (.eng 256 0) 0,
    .nop (.eng 256 0), .endThread (.eng 256 0), .breakThread (.eng 256 0), .fenceL (.eng 256 0), .fenceG (.eng 256 0), .fenceS (.eng 256 0),
    .barE (.eng 256 0), .barH .watch 16 0, .barH .watch 0 65, .barH (.eng 256 0) 0 0, .movsr .watch 8 false 0 0 false,
    .movsr .watch 0 false 64 0 false, .movsr .watch 0 false 0 16 false, .movsr (.eng 256 0) 0 false 0 0 false,
    .illegalInstruction .watch 18446744073709551616, .illegalInstruction (.eng 256 0) 0, .launch .watch 64 0, .launch .watch 0 64,
    .launch (.eng 256 0) 0 0, .preempt .watch 64, .preempt (.eng 256 0) 0, .restore .watch 64, .restore (.eng 256 0) 0, .resumeThread .watch 64 0,
    .resumeThread .watch 0 64, .resumeThread (.eng 256 0) 0 0, .kill .watch 64 0, .kill .watch 0 64, .kill (.eng 256 0) 0 0, .abort .watch 64,
    .abort (.eng 256 0) 0, .waitev .watch 64 false, .waitev (.eng 256 0) 0 false, .stewardEvent 8, .launchStart 65536 [], .launchComplete 65536,
    .threadFault .watch 16 0 0, .threadFault .watch 0 0 18446744073709551616, .threadFault (.eng 256 0) 0 0 0, .stewardFault 8, .hamletSave 16,
    .saveComplete 16, .hamletRestore 16, .engineEccError 16 0 false false 0] : List Instr).all (fun i => !i.wf) = true := by decide

/-- Operands at the first value out of their range, one at a time (2). -/
theorem test_wf_refused_1 : ([
    .engineEccError 0 17 false false 0, .engineEccError 0 0 false false 4, .engineSubstitution 16 0, .engineSubstitution 0 16,
    .substitutionComplete 16, .spareBistPass 16 false, .dramReadRequest 103079215104 0 .gleaner, .dramReadRequest 0 0 (.dma 16 0),
    .dramReadRequest 0 0 (.dma 0 3), .dramWriteRequest 103079215104 0 [] .gleaner, .dramWriteRequest 0 0 [] (.dma 16 0),
    .dramWriteRequest 0 0 [] (.dma 0 3), .dramAtomic 103079215104 0 false ⟨0, none⟩ .clean, .dramAtomic 0 8 false ⟨0, none⟩ .clean,
    .dramAtomic 0 0 false ⟨0, none⟩ (.single 64 0), .dramAtomic 0 0 false ⟨0, none⟩ (.single 0 4), .dramCommandIssue ⟨0, 0⟩ (.single 64 0),
    .dramCommandIssue ⟨0, 0⟩ (.single 0 4), .dramCommandIssue ⟨64, 0⟩ .clean, .dramCommandIssue ⟨0, 2⟩ .clean, .dramReadData 64 .clean ⟨0, 0⟩,
    .dramReadData 0 .clean ⟨64, 0⟩, .dramReadData 0 .clean ⟨0, 4⟩, .refreshDue 64 0 0, .refreshDue 0 2 0, .refreshDue 0 0 48,
    .scrubRead .clean ⟨64, 0⟩, .scrubRead .clean ⟨0, 4⟩, .retrainDue 64, .retrainSlot ⟨0, 0⟩ 128 0 0 false none,
    .retrainSlot ⟨0, 0⟩ 0 128 0 false none, .retrainSlot ⟨64, 0⟩ 0 0 0 false none, .retrainSlot ⟨0, 2⟩ 0 0 0 false none, .speedGo 4 false,
    .laneRepair 64 0 0 false, .laneRepair 0 2 0 false, .laneRepair 0 0 32 false, .translationRequest 64 0 0 0, .translationRequest 0 64 0 0,
    .translationRequest 0 0 18446744073709551616 0, .translationRequest 0 0 0 4, .translationFault 256 0 0 0 0 0 0,
    .translationFault 0 4294967296 0 0 0 0 0, .translationFault 0 0 64 0 0 0 0, .translationFault 0 0 0 18446744073709551616 0 0 0,
    .translationFault 0 0 0 0 4 0 0, .translationFault 0 0 0 0 0 16 0, .translationFault 0 0 0 0 0 0 16, .invalidate 2 0 0, .invalidate 0 64 0,
    .invalidate 0 0 4, .invalidationDone 2, .dmaCopy 16 0 0, .dmaCopy 0 3 0, .dmaFill 16 0 0, .dmaFill 0 3 0, .dmaDescriptorComplete 16 0,
    .dmaDescriptorComplete 0 3, .dmaResume 16 0, .dmaResume 0 3, .dmaSkip 16 0, .dmaSkip 0 3, .dmaPause 16 0 false, .dmaPause 0 3 false,
    .watermarkLine 64, .layerFetchFault 64 0 0, .layerFetchFault 0 8 0, .layerFetchFault 0 0 5, .align ⟨64, 0⟩, .align ⟨0, 16384⟩] : List Instr).all (fun i => !i.wf) = true := by decide

/-- Operands at the first value out of their range, one at a time (3). -/
theorem test_wf_refused_2 : ([
    .bcBlockLock 64 [], .bcBlockLock 0 [(4, 0)], .bcBlockLock 0 [(0, 2 ^ 64)], .bcLoss 64, .laneStat 64 0, .shadow 64 0, .tileStatus 64 0,
    .holdAck 64 0, .shadowRotation 64, .wylSubstitution 64, .qualificationEnd 64, .subReq 64 0, .subReq 0 8, .retrain 64, .portUp 64,
    .portTrainTimeout 64, .portTrainRetry 64, .statusReq 64 0 0, .statusReq 0 256 0, .statusReq 0 0 256, .pnlPgoodRise 4, .railFault 4 false,
    .regionRequest 4096 0 0 0 0, .regionRequest 0 4096 0 0 0, .regionRequest 0 0 64 0 0, .regionRequest 0 0 0 512 0, .regionRequest 0 0 0 0 512,
    .bklTransferComplete 4 [], .discover 16 false, .discoveryEnd 4 none, .chainRediscover 4, .lampOut 4, .frameStartPacket 8 [] [[], [], []] false,
    .frameStartPacket 0 [] [] false, .frameEndPacket 8 [[], [], [], []] false, .frameEndPacket 0 [] false, .longPacket 8 [] [] [] [] false,
    .ignoredShortPacket 8 [[], [], [], []] false, .ignoredShortPacket 0 [] false, .headerEccError 8, .ispLineDone 4, .exposureRequest 65536,
    .cciRequestStart 32, .cciRequestComplete 8 none [], .txFrame 2, .txTimestampWriteback 2, .rxFrame 2 [] false 0, .rxFrame 0 [] false 3,
    .ethLinkChange 2 ⟨false, false, false⟩, .offsetGo 65536 0, .offsetGo 0 256, .stepGo (.steward 8) false, .ptpTimerFire 8, .doorbell 32 0,
    .doorbell 0 4096, .deviceDoorbell 256 0, .workCompletion 32, .cqhWrite 32 0, .cqhWrite 0 8192, .workRingHalt 32 0, .workRingHalt 0 16,
    .msixMessage 64, .intCauseClear 8 0, .intCauseClear 0 4294967296, .hostWindowError 0 6, .endpointReset 4, .pcieLinkUp 6 ⟨0, false⟩,
    .pcieLinkUp 0 ⟨17, false⟩, .targetedSelfTest 16 false, .laneAdapt 64 false 0 0 0] : List Instr).all (fun i => !i.wf) = true := by decide

/-- Operands at the first value out of their range, one at a time (4). -/
theorem test_wf_refused_3 : ([
    .dphySkew 8 0 0, .dphySkew 0 4 0, .tsenseTrim 40 0, .bklTrim 4 0 0 0 0, .bklTrim 0 256 0 0 0, .bklTrim 0 0 16 0 0, .engRotate 16,
    .calRequest 16 0 0, .calRequest 0 32 0, .calRequest 0 0 512, .calRequestDone 256 false, .calForceExpiry 256, .comparatorTrip 40, .watchFault 3,
    .dipStart 1024, .brownout 1024, .refclkLoss 5, .secGo 256 0, .secGo 0 32768, .warm 256, .mainRelease 1024, .program 2, .prepare 2,
    .activateRestart 2, .gpioOutSet 4294967296, .gpioOutClr 4294967296, .gpioEdge 32 false, .refclkReturn 5, .supplyQualification false 1024,
    .restoreComplete 16, .bcHdrErr 64, .hsSyncError 8, .workRingEn 32 false, .portEnable 64 false false, .holdReportTimeout 64] : List Instr).all (fun i => !i.wf) = true := by decide

/-- With every operand in range the same commands pass. -/
theorem test_wf_passes : ([
    .registerWrite .host 0 0 0, .rcRead .host 0 0, .bar0BadAccess 0 false, .barAtomicRequest 0 0, .snap 0, .snapshotLatchComplete 0, .openStream 0,
    .frame 0 0, .closeStream 0, .bindRaymap 0, .badop 0, .rissue .watch 0 0, .rmapFault 0, .issueWfault 0, .tileBandComplete 0 0 0, .firstTouch 0,
    .stripDecoded 0 0, .caddyInvStream 0, .globalLoadReturn .watch 0, .nop .watch, .endThread .watch, .breakThread .watch, .fenceL .watch,
    .fenceG .watch, .fenceS .watch, .barE .watch, .barH .watch 0 0, .movsr .watch 0 false 0 0 false, .illegalInstruction .watch 0, .launch .watch 0 0,
    .preempt .watch 0, .restore .watch 0, .resumeThread .watch 0 0, .kill .watch 0 0, .abort .watch 0, .waitev .watch 0 false, .stewardEvent 0,
    .launchStart 0 [], .launchComplete 0, .threadFault .watch 0 0 0, .stewardFault 0, .hamletSave 0, .saveComplete 0, .hamletRestore 0,
    .engineEccError 0 0 false false 0, .engineSubstitution 0 0, .substitutionComplete 0, .spareBistPass 0 false, .dramReadRequest 0 0 .gleaner,
    .dramWriteRequest 0 0 [] .gleaner, .dramAtomic 0 0 false ⟨0, none⟩ .clean, .dramCommandIssue ⟨0, 0⟩ .clean, .dramReadData 0 .clean ⟨0, 0⟩,
    .refreshDue 0 0 0, .scrubRead .clean ⟨0, 0⟩, .retrainDue 0, .retrainSlot ⟨0, 0⟩ 0 0 0 false none, .speedGo 0 false, .laneRepair 0 0 0 false,
    .translationRequest 0 0 0 0, .translationFault 0 0 0 0 0 0 0, .invalidate 0 0 0, .invalidationDone 0, .dmaCopy 0 0 0, .dmaFill 0 0 0,
    .dmaDescriptorComplete 0 0, .dmaResume 0 0, .dmaSkip 0 0, .dmaPause 0 0 false, .watermarkLine 0, .layerFetchFault 0 0 0, .align ⟨0, 0⟩,
    .bcBlockLock 0 [], .bcLoss 0, .laneStat 0 0, .shadow 0 0, .tileStatus 0 0, .holdAck 0 0, .shadowRotation 0, .wylSubstitution 0,
    .qualificationEnd 0, .subReq 0 0, .retrain 0, .portUp 0, .portTrainTimeout 0, .portTrainRetry 0, .statusReq 0 0 0, .pnlPgoodRise 0,
    .railFault 0 false, .regionRequest 0 0 0 0 0, .bklTransferComplete 0 [], .discover 0 false, .discoveryEnd 0 none, .chainRediscover 0, .lampOut 0,
    .frameStartPacket 0 [] [[], [], []] false, .frameEndPacket 0 [[], [], [], []] false, .longPacket 0 [] [] [] [] false,
    .ignoredShortPacket 0 [[], [], [], []] false, .headerEccError 0, .ispLineDone 0, .exposureRequest 0, .cciRequestStart 0,
    .cciRequestComplete 0 none [], .txFrame 0, .txTimestampWriteback 0, .rxFrame 0 [] false 0, .ethLinkChange 0 ⟨false, false, false⟩, .offsetGo 0 0,
    .stepGo .host false, .ptpTimerFire 0, .doorbell 0 0, .deviceDoorbell 0 0, .workCompletion 0, .cqhWrite 0 0, .workRingHalt 0 0, .msixMessage 0,
    .intCauseClear 0 0, .hostWindowError 0 0, .endpointReset 0, .pcieLinkUp 0 ⟨0, false⟩, .targetedSelfTest 0 false, .laneAdapt 0 false 0 0 0,
    .dphySkew 0 0 0, .tsenseTrim 0 0, .bklTrim 0 0 0 0 0, .engRotate 0, .calRequest 0 0 0, .calRequestDone 0 false, .calForceExpiry 0,
    .comparatorTrip 0, .watchFault 0, .dipStart 0, .brownout 0, .refclkLoss 0, .secGo 0 0, .warm 0, .mainRelease 0, .program 0, .prepare 0,
    .activateRestart 0, .gpioOutSet 0, .gpioOutClr 0, .gpioEdge 0 false, .refclkReturn 0, .supplyQualification false 0, .restoreComplete 0,
    .bcHdrErr 0, .hsSyncError 0, .workRingEn 0 false, .portEnable 0 false false, .holdReportTimeout 0] : List Instr).all (fun i => i.wf) = true := by decide


/-! ### Values that the spec writes out -/

/-- R2. GLB_ID of the three members at reset: family 0xB1 above the part. -/
theorem test_glb_id : [Member.fl0400, .fl1600, .fl6400].map (fun m => (wordDefault m 0).toNat) = [0x00B10400, 0x00B11600, 0x00B16400] := by decide

/-- R539. THM_NBR of sensor 5 names 4, 7, 13 and 32. -/
theorem test_thm_nbr : State.reset.get (R.THM_NBR_N 5) = 0x200D0704 := by decide +kernel

/-- R433. After 10,000 hours on the fit V0 = 745 mV and k = 4 mV per h^0.25, the ceiling of 830 mV is 22.1 years away. -/
theorem test_projection : projection [(625, 765), (10000, 785), (20736, 793)] 830 10000 = 221 := by decide +kernel

/-- R535. THM_THROTTLE is cause 237; its vector stands in byte 1 of INT_VMAP[59], at 0x301EC. -/
theorem test_vector_place : causeVecFld Irq.THM_THROTTLE = ⟨0x301EC, 8, 6⟩ := by decide

/-- The example under R327: the granule at 0x0812345AC0 lies in controller 36, pseudo-channel 1, SID 1, bank group 1 and bank 2, row 145, column 22. -/
theorem test_granule : (State.reset.paController 0x0812345AC0 = 36 ∧ State.reset.paPc 0x0812345AC0 = 1) ∧
    State.reset.paBank 0x0812345AC0 = 64 + 16 + 4 + 2 ∧ paRow 0x0812345AC0 = 145 ∧ paColumn 0x0812345AC0 = 22 := by decide +kernel

/-- The example of the chapter on composition: class 6 at level 2 between classes 4 and 8 is filled with (500, 220, 90). -/
theorem test_fill :
    fillColour [⟨400 * 2 ^ 20 + 200 * 2 ^ 10 + 100, some 4, some (0, 0)⟩, ⟨0, some 6, some (0, 0)⟩, ⟨600 * 2 ^ 20 + 240 * 2 ^ 10 + 80, some 8, some (0, 0)⟩]
      2 1 6 (0, 0) = some (500 * 2 ^ 20 + 220 * 2 ^ 10 + 90) := by decide +kernel

/-- The same example: the overlay's (1,023, 0, 0) with alpha 514 over that fill gives (763, 109, 45). -/
theorem test_blend : [blendCh 0 1023 514 1023 500, blendCh 0 1023 514 0 220, blendCh 0 1023 514 0 90] = [763, 109, 45] := by decide

/-- The example of the chapter on backlights: 78 °C gives 84 %, and 75 °C gives 90 %. -/
theorem test_derate : (State.reset.derateTarget 78, State.reset.derateTarget 75) = (84, 90) := by decide +kernel

/-- The examples under R498 and R502 and of the camera ports: three pairs and where they stand. -/
theorem test_balls : (ballName 80 32, ballNet 80 32) = ("DD32", some (.sig (.wylTx 37 2 true))) ∧
    (ballName 11 46, ballNet 11 46) = ("L46", some (.sig (.wylRx 12 false))) ∧
    (ballName 74 78, ballNet 74 78) = ("CV78", some (.sig (.camD 6 2 false))) := by decide +kernel

/-- R505. VDD_CORE has 672 balls. -/
theorem test_ball_count : ballCount (fun n => decide (n = .vddCore)) = 672 := by decide +kernel

end Sys2Proof.Machine
end

/-! # Registers, BARs, snapshots and interrupts: lemmas and proofs of the family 00_scope -/

section
/-! ### Fields of a number, and folds over the fields of a register row -/
namespace Sys2Proof.Machine

theorem bitAt_eq_testBit (n i : Nat) : bitAt n i = n.testBit i := by
  simp [bitAt, Nat.testBit_eq_decide_div_mod_eq]

/-- A bit is a field of width 1. -/
theorem bitAt_eq_of_bitsOf_eq {m n i : Nat} (h : bitsOf m i 1 = bitsOf n i 1) : bitAt m i = bitAt n i := by
  simp only [bitsOf, Nat.pow_one] at h
  simp only [bitAt, h]

theorem bitsOf_zero (lsb w : Nat) : bitsOf 0 lsb w = 0 := by simp [bitsOf]

theorem bitsOf_and (m n lsb w : Nat) : bitsOf (m &&& n) lsb w = bitsOf m lsb w &&& bitsOf n lsb w := by
  apply Nat.eq_of_testBit_eq
  intro i
  simp only [testBit_bitsOf, Nat.testBit_and]
  cases decide (i < w) <;> simp

/-- The bits of a number's complement in a word. -/
theorem testBit_allOnes_sub {n i : Nat} (w : Nat) (hn : n < 2 ^ w) : (2 ^ w - 1 - n).testBit i = (decide (i < w) && !n.testBit i) := by
  rw [Nat.sub_sub, Nat.add_comm 1 n, Nat.testBit_two_pow_sub_succ hn]

/-- A field of a number's complement. -/
theorem bitsOf_allOnes_sub {n lsb w : Nat} (hn : n < 2 ^ 32) (h : lsb + w ≤ 32) :
    bitsOf (2 ^ 32 - 1 - n) lsb w = 2 ^ w - 1 - bitsOf n lsb w := by
  apply Nat.eq_of_testBit_eq
  intro i
  rw [testBit_allOnes_sub w (bitsOf_lt n lsb w), testBit_bitsOf, testBit_bitsOf, testBit_allOnes_sub 32 hn]
  by_cases hi : i < w
  · simp [hi, show i + lsb < 32 by omega]
  · simp [hi]

/-- Two runs of bits without a common bit. -/
def bitsApart (lsb w lsb' w' : Nat) : Prop := lsb' + w' ≤ lsb ∨ lsb + w ≤ lsb'

/-- A way to work a field into a number that touches no bit outside the field. -/
def TouchesOnlyField (op : Nat → FieldRow → Nat) : Prop :=
  ∀ acc f lsb w, bitsApart f.lsb f.width lsb w → bitsOf (op acc f) lsb w = bitsOf acc lsb w

theorem bitsOf_foldl_apart {op : Nat → FieldRow → Nat} (hop : TouchesOnlyField op) {lsb w : Nat} :
    ∀ (fs : List FieldRow) (acc : Nat), (∀ f ∈ fs, bitsApart f.lsb f.width lsb w) → bitsOf (fs.foldl op acc) lsb w = bitsOf acc lsb w
  | [], _, _ => rfl
  | f :: fs, acc, h => by
    rw [List.foldl_cons, bitsOf_foldl_apart hop fs _ (fun g hg => h g (List.mem_cons_of_mem _ hg)), hop _ _ _ _ (h f List.mem_cons_self)]

/-- Fields that follow one another in a word. -/
def FieldRow.Before (f g : FieldRow) : Prop := f.lsb + f.width ≤ g.lsb

/-- In a fold over the fields of a row, each field holds in the end what its own step makes of what it held before. -/
theorem bitsOf_foldl_field {op : Nat → FieldRow → Nat} (hop : TouchesOnlyField op) {f : FieldRow} :
    ∀ (fs : List FieldRow) (acc : Nat), fs.Pairwise FieldRow.Before → f ∈ fs →
      ∃ acc', bitsOf acc' f.lsb f.width = bitsOf acc f.lsb f.width ∧
        bitsOf (fs.foldl op acc) f.lsb f.width = bitsOf (op acc' f) f.lsb f.width
  | g :: fs, acc, hp, hf => by
    obtain ⟨hg, hp⟩ := List.pairwise_cons.1 hp
    rcases List.mem_cons.1 hf with rfl | hf
    · exact ⟨acc, rfl, bitsOf_foldl_apart hop fs _ (fun x hx => Or.inl (hg x hx))⟩
    · obtain ⟨acc', hacc', h⟩ := bitsOf_foldl_field hop fs (op acc g) hp hf
      exact ⟨acc', hacc'.trans (hop _ _ _ _ (Or.inr (hg f hf))), h⟩

/-- Setting a field only where a condition on it holds touches no other bit. -/
theorem touchesOnlyField_setBits (c : FieldRow → Bool) (v : FieldRow → Nat) :
    TouchesOnlyField (fun acc f => if c f then setBits acc f.lsb f.width (v f) else acc) := by
  intro acc f lsb w h
  dsimp only
  split
  · exact bitsOf_setBits_other acc (v f) h
  · rfl

end Sys2Proof.Machine
end

section
/-! ### Folds over a range, and sparse maps in a row -/
namespace Sys2Proof.Machine

/-- What holds at first, and what each step of a fold over 0, …, n − 1 keeps, holds at its end. -/
theorem foldRange_induct {σ : Type} {P : Nat → σ → Prop} {f : σ → Nat → σ} {s : σ} (h0 : P 0 s) :
    ∀ n, (∀ k, k < n → ∀ u, P k u → P (k + 1) (f u k)) → P n (foldRange n f s)
  | 0, _ => h0
  | n + 1, hstep => by
    have ih := foldRange_induct h0 n fun k hk => hstep k (hk.trans n.lt_succ_self)
    have hlast := hstep n n.lt_succ_self _ ih
    simpa only [foldRange, List.range_succ, List.foldl_append, List.foldl_cons, List.foldl_nil] using hlast

/-- A map in front of another: its own entries first. -/
theorem mapGet_append {α : Type} (d : Nat → α) (m1 m2 : List (Nat × α)) (k : Nat) : mapGet d (m1 ++ m2) k = mapGet (mapGet d m2) m1 k := by
  induction m1 with
  | nil => rfl
  | cons p m1 ih => simp only [List.cons_append, mapGet, ih]

/-- A read at a key depends on what that key reads as where it is not listed, and on no other default. -/
theorem mapGet_congr {α : Type} {d d' : Nat → α} (m : List (Nat × α)) {k : Nat} (h : d k = d' k) : mapGet d m k = mapGet d' m k := by
  induction m with
  | nil => exact h
  | cons p m ih => simp only [mapGet, ih]

/-- A map cut down to the keys of a kind. -/
theorem mapGet_filter_key {α : Type} (d : Nat → α) (q : Nat → Bool) (m : List (Nat × α)) (k : Nat) :
    mapGet d (m.filter (fun p => q p.1)) k = if q k then mapGet d m k else d k := by
  induction m with
  | nil => simp [mapGet]
  | cons p m ih =>
    obtain ⟨j, v⟩ := p
    rw [List.filter_cons]
    by_cases hk : k = j
    · cases hq : q j
      · simpa [mapGet, hk, hq] using ih
      · simp [mapGet, hk, hq]
    · dsimp only
      split <;> simp only [mapGet, if_neg hk, ih]

end Sys2Proof.Machine
end

section
/-! ### Fields that share no bit, and what register writes leave -/
namespace Sys2Proof.Machine

/-- Do two fields share no bit? -/
def Fld.apart (f g : Fld) : Bool :=
  decide (g.addr ≠ f.addr) || (decide (g.lsb + g.width ≤ 32) && (decide (g.lsb + g.width ≤ f.lsb) || decide (f.lsb + f.width ≤ g.lsb)))

theorem Fld.apart_iff {f g : Fld} : f.apart g = true ↔
    g.addr ≠ f.addr ∨ g.lsb + g.width ≤ 32 ∧ (g.lsb + g.width ≤ f.lsb ∨ f.lsb + f.width ≤ g.lsb) := by simp [Fld.apart]

theorem State.get_put_apart (s : State) {f g : Fld} (v : Nat) (h : f.apart g = true) : (s.put f v).get g = s.get g :=
  s.get_put_other f g v (Fld.apart_iff.1 h)

theorem State.on_put_apart (s : State) {f g : Fld} (v : Nat) (h : f.apart g = true) : (s.put f v).on g = s.on g :=
  s.on_put_other f g v (Fld.apart_iff.1 h)

theorem State.get_bump_apart (s : State) {f g : Fld} (h : f.apart g = true) : (s.bump f).get g = s.get g := s.get_put_apart _ h

theorem State.on_bump_apart (s : State) {f g : Fld} (h : f.apart g = true) : (s.bump f).on g = s.on g := s.on_put_apart _ h

/-- A bit that is on reads 1. -/
theorem State.get_eq_one (s : State) {f : Fld} (hw : f.width = 1) (h : s.on f = true) : s.get f = 1 := by
  have hlt : s.get f < 2 := by simpa [hw, State.get] using bitsOf_lt (s.word f.addr) f.lsb f.width
  have hne : s.get f ≠ 0 := by simpa [State.on] using h
  omega

theorem State.on_put_bit (s : State) {f : Fld} (hfit : f.lsb + f.width ≤ 32) (hw : f.width = 1) (b : Bool) : (s.put f (b2n b)).on f = b := by
  rw [State.on, State.get_put_same _ _ _ hfit, hw]
  cases b <;> rfl

/-- A field written 0 reads 0. -/
theorem State.get_put_zero (s : State) (f : Fld) (h : f.lsb + f.width ≤ 32) : (s.put f 0).get f = 0 := by
  rw [State.get_put_same _ _ _ h, Nat.zero_mod]

/-- A field outside the registers listed reads as before. -/
theorem RegsBut.get {s u : State} {as : List Nat} (h : RegsBut s u as) {g : Fld} (hg : g.addr ∉ as) : u.get g = s.get g := by
  rw [State.get, State.get, h _ hg]

theorem RegsBut.setWord {s u : State} {as : List Nat} (h : RegsBut s u as) {a : Nat} (v : Nat) (ha : a ∈ as) : RegsBut s (u.setWord a v) as :=
  fun b hb => (u.word_setWord_other v fun e => hb (by rw [e]; exact ha)).trans (h b hb)

/-- Nothing but registers changes. -/
def OnlyRegs (s u : State) : Prop := u = { s with regs := u.regs }

theorem OnlyRegs.refl (s : State) : OnlyRegs s s := rfl

theorem OnlyRegs.trans {s u v : State} (h1 : OnlyRegs s u) (h2 : OnlyRegs u v) : OnlyRegs s v := by
  unfold OnlyRegs at *
  rw [h1] at h2
  exact h2

theorem OnlyRegs.member {s u : State} (h : OnlyRegs s u) : u.member = s.member := by rw [h]
theorem OnlyRegs.snap {s u : State} (h : OnlyRegs s u) : u.snap = s.snap := by rw [h]
theorem OnlyRegs.mem {s u : State} (h : OnlyRegs s u) : u.mem = s.mem := by rw [h]
theorem OnlyRegs.out {s u : State} (h : OnlyRegs s u) : u.out = s.out := by rw [h]

theorem State.put_onlyRegs (s : State) (f : Fld) (v : Nat) : OnlyRegs s (s.put f v) := rfl

theorem OnlyRegs.put {s u : State} (h : OnlyRegs s u) (f : Fld) (v : Nat) : OnlyRegs s (u.put f v) := h.trans (u.put_onlyRegs f v)

theorem OnlyRegs.bump {s u : State} (h : OnlyRegs s u) (f : Fld) : OnlyRegs s (u.bump f) := h.trans rfl

/-- Nothing but registers and the state of the interrupts changes. -/
def OnlyRegsInt (s u : State) : Prop := u = { s with regs := u.regs, int := u.int }

theorem OnlyRegs.raise {s u : State} (h : OnlyRegs s u) (c : Nat) : OnlyRegsInt s (u.raise c) := by
  unfold OnlyRegs at h
  unfold OnlyRegsInt
  have hr := u.raise_frame c
  rw [h] at hr
  rw [h]
  exact hr

theorem OnlyRegs.setWord {s u : State} (h : OnlyRegs s u) (a v : Nat) : OnlyRegs s (u.setWord a v) := h.trans rfl

end Sys2Proof.Machine
end

section
/-! ### The register tables (R5, R533) -/
namespace Sys2Proof.Machine

/-- The fields of a row follow one another within the word, and their reset values fit. -/
def RegRow.Tidy (r : RegRow) : Prop :=
  r.fields.Pairwise FieldRow.Before ∧ ∀ f ∈ r.fields, f.lsb + f.width ≤ 32 ∧ 0 < f.width ∧ f.reset < 2 ^ f.width

/-- The same as a computation on the table. -/
def RegRow.tidy (r : RegRow) : Bool :=
  decide (r.fields.Pairwise (fun f g => f.lsb + f.width ≤ g.lsb)) &&
  r.fields.all (fun f => decide (f.lsb + f.width ≤ 32) && decide (0 < f.width) && decide (f.reset < 2 ^ f.width))

theorem RegRow.Tidy.of_tidy {r : RegRow} (h : r.tidy = true) : r.Tidy := by
  simp only [RegRow.tidy, Bool.and_eq_true, decide_eq_true_eq, List.all_eq_true, and_assoc] at h
  exact h

theorem rowsOfBlock_tidy_lt : ∀ b < 27, ∀ r ∈ rowsOfBlock b, r.tidy = true := by decide +kernel

theorem rowsOfBlock_tidy (b : Nat) : ∀ r ∈ rowsOfBlock b, r.Tidy := by
  intro r hr
  by_cases h : b < 27
  · exact .of_tidy (rowsOfBlock_tidy_lt b h r hr)
  · obtain ⟨k, rfl⟩ := Nat.exists_eq_add_of_le' (Nat.not_lt.1 h)
    have hnil : rowsOfBlock (k + 27) = [] := rfl
    simp [hnil] at hr

theorem findRow_mem {a : Nat} {r : RegRow × Nat} : ∀ {rs : List RegRow}, findRow a rs = some r → r.1 ∈ rs
  | [], h => by simp [findRow] at h
  | x :: xs, h => by
    unfold findRow at h
    split at h
    · split at h
      · cases h; exact List.mem_cons_self
      · exact List.mem_cons_of_mem _ (findRow_mem h)
    · exact List.mem_cons_of_mem _ (findRow_mem h)

/-- Every register's row is tidy. -/
theorem regRow_tidy {a : Nat} {r : RegRow × Nat} (h : regRow a = some r) : r.1.Tidy :=
  rowsOfBlock_tidy _ _ (findRow_mem h)

theorem pow_dvd_fieldsReset {n : Nat} : ∀ {fs : List FieldRow}, (∀ f ∈ fs, n ≤ f.lsb) → 2 ^ n ∣ fieldsReset fs
  | [], _ => Nat.dvd_zero _
  | f :: _, h => Nat.dvd_add (Dvd.dvd.mul_left (Nat.pow_dvd_pow 2 (h f List.mem_cons_self)) _)
      (pow_dvd_fieldsReset fun g hg => h g (List.mem_cons_of_mem _ hg))

/-- A bit outside the fields of a tidy row resets to 0. -/
theorem testBit_fieldsReset_apart {i : Nat} : ∀ {fs : List FieldRow}, fs.Pairwise FieldRow.Before → (∀ f ∈ fs, f.reset < 2 ^ f.width) →
    (∀ f ∈ fs, bitsApart f.lsb f.width i 1) → (fieldsReset fs).testBit i = false
  | [], _, _, _ => by simp [fieldsReset]
  | f :: fs, hp, hr, ha => by
    obtain ⟨hb, hp⟩ := List.pairwise_cons.1 hp
    have ih := testBit_fieldsReset_apart hp (fun g hg => hr g (List.mem_cons_of_mem _ hg)) (fun g hg => ha g (List.mem_cons_of_mem _ hg))
    obtain ⟨q, hq⟩ := pow_dvd_fieldsReset hb
    have hlt : f.reset * 2 ^ f.lsb < 2 ^ (f.lsb + f.width) := by
      rw [Nat.pow_add, Nat.mul_comm]; exact Nat.mul_lt_mul_of_pos_left (hr f List.mem_cons_self) (by positivity)
    have hfi := ha f List.mem_cons_self
    simp only [fieldsReset, hq, Nat.add_comm (f.reset * _), Nat.testBit_two_pow_mul_add _ hlt, Nat.testBit_two_pow_mul] at ih ⊢
    unfold bitsApart at hfi
    split
    · rw [Nat.testBit_mul_two_pow, decide_eq_false (by omega), Bool.false_and]
    · simpa [show f.lsb + f.width ≤ i by omega] using ih

end Sys2Proof.Machine
end

section
/-! ### Interrupt causes and the host interface's error records leave other registers (R396, R397, R405) -/
namespace Sys2Proof.Machine

/-- Raising a cause writes registers of the block INT alone. -/
theorem State.word_raise_other (s : State) {c a : Nat} (hc : c < 256) (ha : a / 0x10000 ≠ 3) : (s.raise c).word a = s.word a := by
  refine s.raise_regs c a ?_
  have hv : (s.put (causeFld c) 1).get (causeVecFld c) < 64 := bitsOf_lt _ _ 6
  rw [List.mem_pair]
  simp only [causeFld, vactFld] at hv ⊢
  omega

theorem State.get_raise_other (s : State) {c : Nat} {g : Fld} (hc : c < 256) (hg : g.addr / 0x10000 ≠ 3) : (s.raise c).get g = s.get g := by
  simp only [State.get, s.word_raise_other hc hg]

end Sys2Proof.Machine
end

section
/-! ### What a write of a register does, field by field (R5, R199) -/
namespace Sys2Proof.Machine

/-- What a write leaves in a field that held `old`, where the word written has `new` there. -/
def FieldRow.stored (f : FieldRow) (armed watch : Bool) (old new : Nat) : Nat :=
  match f.typ with
  | .rw => new
  | .sh => if armed then old else new
  | .lk => if watch then new else old
  | .w1c => old - (old &&& new)
  | .ro | .wo | .w1s | .rc => old

theorem FieldRow.store_touchesOnlyField (armed watch : Bool) (old v : Nat) :
    TouchesOnlyField (fun acc f => f.store armed watch old v acc) := by
  intro acc f lsb w h
  have put := fun x => bitsOf_setBits_other acc x h
  cases ht : f.typ <;> simp only [FieldRow.store, ht]
  case rw | w1c => exact put _
  case sh | lk => split <;> simp only [put]

theorem FieldRow.bitsOf_store (f : FieldRow) (armed watch : Bool) {old v acc : Nat}
    (h : bitsOf acc f.lsb f.width = bitsOf old f.lsb f.width) :
    bitsOf (f.store armed watch old v acc) f.lsb f.width = f.stored armed watch (bitsOf old f.lsb f.width) (bitsOf v f.lsb f.width) := by
  have put : ∀ x < 2 ^ f.width, bitsOf (setBits acc f.lsb f.width x) f.lsb f.width = x := fun x hx => by
    rw [bitsOf_setBits_same, Nat.mod_eq_of_lt hx]
  have hnew := put _ (bitsOf_lt v f.lsb f.width)
  cases ht : f.typ <;> simp only [FieldRow.store, FieldRow.stored, ht, h]
  case rw => exact hnew
  case w1c => exact put _ ((Nat.sub_le _ _).trans_lt (bitsOf_lt old f.lsb f.width))
  case sh => split; exacts [h, hnew]
  case lk => split; exacts [hnew, h]

/-- Each field after a write of `v` over `old`. -/
theorem bitsOf_foldl_store {r : RegRow} (hr : r.Tidy) {f : FieldRow} (hf : f ∈ r.fields) (armed watch : Bool) (old v : Nat) :
    bitsOf (r.fields.foldl (fun acc f => f.store armed watch old v acc) old) f.lsb f.width =
      f.stored armed watch (bitsOf old f.lsb f.width) (bitsOf v f.lsb f.width) := by
  obtain ⟨acc, hacc, h⟩ := bitsOf_foldl_field (FieldRow.store_touchesOnlyField armed watch old v) r.fields old hr.1 hf
  rw [h, f.bitsOf_store armed watch hacc]

/-- R199. A dropped write is recorded in the blocks INT and SCO alone. -/
theorem State.word_writeDrop_other (s : State) {a : Nat} (h3 : a / 0x10000 ≠ 3) (h12 : a / 0x10000 ≠ 12) : s.writeDrop.word a = s.word a := by
  unfold State.writeDrop State.bump State.bumpBy
  rw [State.word_raise_other _ (by decide) h3, State.word_put_other, State.word_put_other] <;>
  · simp only [R.SCO_CSTAT_WR_DROP, R.SCO_CNT_COUNT]; omega

theorem State.writeDrop_mem (s : State) : s.writeDrop.mem = s.mem := by
  unfold State.writeDrop; rw [State.raise_frame]; rfl

/-- What storing a word's fields does to the register: its fields are stored one by one. -/
theorem State.word_storeFields_same (s : State) (watch : Bool) {a : Nat} {r : RegRow × Nat} (v : Nat) (hr : regRow a = some r)
    (h3 : a / 0x10000 ≠ 3) (h12 : a / 0x10000 ≠ 12) :
    (s.storeFields watch a v).word a =
      r.1.fields.foldl (fun acc f => f.store s.sco.armed.isSome watch (s.word a) (presentBits s.member a v) acc) (s.word a) % 2 ^ 32 := by
  simp only [State.storeFields, hr]
  split
  · rw [State.word_writeDrop_other _ h3 h12, State.word_setWord, if_pos rfl]
  · rw [State.word_setWord, if_pos rfl]

/-- R5. A field of a register after a write. -/
theorem State.bitsOf_storeFields (s : State) (watch : Bool) {a : Nat} {r : RegRow × Nat} (v : Nat) (hr : regRow a = some r)
    (h3 : a / 0x10000 ≠ 3) (h12 : a / 0x10000 ≠ 12) {f : FieldRow} (hf : f ∈ r.1.fields) :
    bitsOf ((s.storeFields watch a v).word a) f.lsb f.width =
      f.stored s.sco.armed.isSome watch (bitsOf (s.word a) f.lsb f.width) (bitsOf (presentBits s.member a v) f.lsb f.width) := by
  have htidy := regRow_tidy hr
  rw [s.word_storeFields_same watch v hr h3 h12, bitsOf_mod _ (htidy.2 f hf).1, bitsOf_foldl_store htidy hf]

theorem State.storeFields_mem (s : State) (watch : Bool) (a v : Nat) : (s.storeFields watch a v).mem = s.mem := by
  unfold State.storeFields
  split
  · rfl
  · dsimp only
    split
    · rw [State.writeDrop_mem]; rfl
    · rfl

/-- While no commit is armed, storing a word's fields changes that register alone. -/
theorem State.storeFields_frame (s : State) (watch : Bool) (a v : Nat) (h : s.sco.armed = none) :
    RegsBut s (s.storeFields watch a v) [a] ∧ s.storeFields watch a v = { s with regs := (s.storeFields watch a v).regs } := by
  unfold State.storeFields
  split
  · exact ⟨.refl s _, rfl⟩
  · simp only [h, Option.isSome_none, Bool.false_and]
    exact ⟨fun b hb => State.word_setWord_other _ _ (by simpa using hb), rfl⟩

/-! #### Registers of whose block no write starts an operation -/

/-- The blocks of such registers, and the addresses that are not among them. -/
theorem plainReg_spec {a : Nat} (h : plainReg a = true) :
    (a / 0x10000 = 5 ∨ a / 0x10000 = 6 ∨ a / 0x10000 = 7 ∨ a / 0x10000 = 11 ∨ a / 0x10000 = 15 ∨ a / 0x10000 = 17 ∨ a / 0x10000 = 18 ∨ a / 0x10000 = 23) ∧
    rctlAt a = none ∧ a ≠ R.BKL_CTL_CH_EN.addr ∧ a % 0x10000 ≠ 0xFFF0 := by
  simp only [plainReg, Bool.and_eq_true, decide_eq_true_eq, List.contains_iff_mem, List.mem_cons, List.not_mem_nil, or_false] at h
  obtain ⟨⟨⟨hb, hrctl⟩, hbkl⟩, hsnap⟩ := h
  exact ⟨hb, hrctl, hbkl, hsnap⟩

theorem State.busAct_plain (s : State) (who : Who) (old v : Nat) {a : Nat} (h : plainReg a = true) : s.busAct who old a v = s := by
  obtain ⟨hb, -, -, hsnap⟩ := plainReg_spec h
  unfold State.busAct
  rw [if_neg hsnap]
  rcases hb with hb | hb | hb | hb | hb | hb | hb | hb <;> rw [hb] <;> rfl

/-- R5. A write to such a register stores its fields, and no more. -/
theorem State.busWrite_plain (s : State) (who : Who) {a : Nat} (v : Nat) (h : plainReg a = true) (hreach : s.busReaches a = true) :
    s.busWrite who a v = s.storeFields (decide (who = .watch)) a v := by
  obtain ⟨hb, hrctl, hbkl, -⟩ := plainReg_spec h
  have hlock : s.busLocked who a = false := by
    have h1 : ¬ (0x41000 ≤ a ∧ a < 0x41010) := by omega
    have h2 : ¬ (0x140100 ≤ a ∧ a < 0x140158) := by omega
    simp only [State.busLocked, Bool.and_assoc, ← Bool.decide_and, h1, h2, decide_false, Bool.and_false, Bool.or_false]
  have hint : arrIdx 0x30000 4 8 a = none := if_neg (by omega)
  have hcam : ¬ (a = R.CAM_SETCTL_SRC.addr ∨ a = R.CAM_SETMASK_MASK.addr) := by
    simp only [R.CAM_SETCTL_SRC, R.CAM_SETMASK_MASK]; omega
  simp only [State.busWrite, hreach, hlock, hint, hrctl, hbkl, hcam, State.busAct_plain _ who _ v h, Bool.not_true, Bool.or_false,
    Bool.false_eq_true, if_false]

end Sys2Proof.Machine
end

section
/-! ### What a read of a register returns and clears (R5–R8) -/
namespace Sys2Proof.Machine

/-- A bit that no field of the row holds. -/
def RegRow.Reserved (r : RegRow) (i : Nat) : Prop := ∀ f ∈ r.fields, bitsApart f.lsb f.width i 1

theorem RegRow.reserved_iff {r : RegRow} {i : Nat} :
    r.fields.all (fun f => decide (i < f.lsb) || decide (f.lsb + f.width ≤ i)) = true ↔ r.Reserved i := by
  simp only [List.all_eq_true, Bool.or_eq_true, decide_eq_true_eq, RegRow.Reserved, bitsApart, Nat.lt_iff_add_one_le]

/-- A read returns no reserved bit. -/
theorem RegRow.readable_reserved {r : RegRow} {i : Nat} (h : r.Reserved i) : r.readable.testBit i = false := by
  have hop : TouchesOnlyField (fun acc f => if f.typ == .wo then acc else setBits acc f.lsb f.width (2 ^ f.width - 1)) := by
    intro acc f lsb w hf
    dsimp only
    split
    · rfl
    · exact bitsOf_setBits_other _ _ hf
  have hz := bitsOf_foldl_apart hop r.fields 0 h
  rw [← bitAt_eq_testBit]
  exact (bitAt_eq_of_bitsOf_eq hz).trans (by simp [bitAt])

/-- The fields that a read clears: all of an RC field, and nothing of another. -/
theorem RegRow.bitsOf_clears {r : RegRow} (hr : r.Tidy) {f : FieldRow} (hf : f ∈ r.fields) :
    bitsOf r.clears f.lsb f.width = if f.typ = .rc then 2 ^ f.width - 1 else 0 := by
  obtain ⟨acc, hacc, h⟩ := bitsOf_foldl_field (touchesOnlyField_setBits (fun f => f.typ == .rc) (fun f => 2 ^ f.width - 1)) r.fields 0 hr.1 hf
  refine h.trans ?_
  rw [bitsOf_zero] at hacc
  simp only [beq_iff_eq]
  split
  · rw [bitsOf_setBits_same, Nat.mod_eq_of_lt (Nat.sub_lt (by positivity) Nat.one_pos)]
  · exact hacc

theorem RegRow.clears_lt {r : RegRow} (hr : r.Tidy) : r.clears < 2 ^ 32 := by
  refine Nat.lt_pow_two_of_testBit _ fun i hi => ?_
  have hz : bitsOf r.clears i 1 = bitsOf 0 i 1 := bitsOf_foldl_apart
    (touchesOnlyField_setBits (fun f => f.typ == .rc) (fun f => 2 ^ f.width - 1)) r.fields 0 (fun f hf => Or.inr ((hr.2 f hf).1.trans hi))
  rw [← bitAt_eq_testBit, bitAt_eq_of_bitsOf_eq hz]
  simp [bitAt]

/-- R6, R7. A read shows no reserved bit. -/
theorem State.readReg_reserved (s : State) {a i : Nat} {r : RegRow × Nat} (hr : regRow a = some r) (hi : r.1.Reserved i) :
    (s.readReg a).testBit i = false := by
  have hread := RegRow.readable_reserved hi
  simp only [State.readReg, hr]
  split
  · exact Nat.zero_testBit i
  split
  · rename_i hcal
    have hbusy : (regRow R.CAL_STAT_BUSY.addr).any (fun r => r.1.fields.contains ⟨1, 8, .ro, 0⟩) = true := by decide +kernel
    rw [← hcal, hr, Option.any_some, List.contains_iff_mem] at hbusy
    have hapart := hi _ hbusy
    simp only [bitsApart] at hapart
    rw [testBit_setBits, if_neg (by omega), Nat.testBit_and, hread, Bool.and_false]
  · rw [presentBits, Nat.testBit_and, Nat.testBit_and, hread, Bool.and_false, Bool.false_and]

theorem State.readReg_absent (s : State) {a : Nat} {r : RegRow × Nat} (hr : regRow a = some r) (h : s.regPresent r = false) : s.readReg a = 0 := by
  simp [State.readReg, hr, h]

theorem State.readReg_none (s : State) {a : Nat} (h : regRow a = none) : s.readReg a = 0 := by simp [State.readReg, h]

/-- A read puts the register's value out, and changes that register alone. -/
theorem State.readClear_frame (s : State) (a : Nat) :
    (s.readClear a).out = .readData (leBytes 4 (s.readReg a)) :: s.out ∧
      s.readClear a = { s with regs := (s.readClear a).regs, out := (s.readClear a).out } ∧ RegsBut s (s.readClear a) [a] := by
  unfold State.readClear
  dsimp only
  split
  · exact ⟨rfl, rfl, .refl s _⟩
  split
  · exact ⟨rfl, rfl, .refl s _⟩
  · exact ⟨rfl, rfl, fun b hb => State.word_setWord_other s _ (by simpa using hb)⟩

/-- R5. A read clears the RC fields of its register, and no other field. -/
theorem State.bitsOf_readClear (s : State) {a : Nat} {r : RegRow × Nat} (hr : regRow a = some r) {f : FieldRow} (hf : f ∈ r.1.fields) :
    bitsOf ((s.readClear a).word a) f.lsb f.width = if f.typ = .rc then 0 else bitsOf (s.word a) f.lsb f.width := by
  have htidy := regRow_tidy hr
  obtain ⟨hw, hpos, -⟩ := htidy.2 f hf
  have hc := RegRow.bitsOf_clears htidy hf
  have hlt : bitsOf (s.word a) f.lsb f.width < 2 ^ f.width := bitsOf_lt _ _ _
  simp only [State.readClear, hr, State.emit_word]
  split
  · rename_i h0
    rw [h0, bitsOf_zero] at hc
    have hone : 1 < 2 ^ f.width := Nat.one_lt_two_pow hpos.ne'
    rw [if_neg]
    intro hrc
    rw [if_pos hrc] at hc
    omega
  · rw [State.word_setWord, if_pos rfl, bitsOf_mod _ hw, bitsOf_and, bitsOf_allOnes_sub (RegRow.clears_lt htidy) hw, hc]
    split
    · simp
    · rw [Nat.sub_zero, Nat.and_two_pow_sub_one_eq_mod, Nat.mod_eq_of_lt hlt]

end Sys2Proof.Machine
end

section
/-! ### Errors of accesses by the host and to the host window (R396, R397) -/
namespace Sys2Proof.Machine

/-- R396. The latch of an access error, once it is counted. -/
def State.aerrLatch (s : State) (bar off kind : Nat) : State :=
  if s.on R.HST_AERR_HI_VALID then s else
    ((((s.put R.HST_AERR_LO_OFFSET off).put R.HST_AERR_HI_OFFSET (off / 2 ^ 32)).put R.HST_AERR_HI_BAR bar).put R.HST_AERR_HI_KIND kind).put R.HST_AERR_HI_VALID 1

theorem State.accessError_eq (s : State) (bar off kind : Nat) :
    s.accessError bar off kind = ((s.bump (R.HST_CNT_COUNT 0)).aerrLatch bar off kind).raise Irq.HST_AERR := rfl

/-- The latch is held afterwards, with what it held before or the error's own offset, BAR and kind. -/
theorem State.aerrLatch_holds (s : State) {bar kind : Nat} (off : Nat) (hbar : bar < 4) (hkind : kind < 16) :
    (s.aerrLatch bar off kind).get R.HST_AERR_HI_VALID = 1 ∧
    (s.on R.HST_AERR_HI_VALID = true → s.aerrLatch bar off kind = s) ∧
    (s.on R.HST_AERR_HI_VALID = false → (s.aerrLatch bar off kind).get R.HST_AERR_LO_OFFSET = off % 2 ^ 32 ∧
      (s.aerrLatch bar off kind).get R.HST_AERR_HI_BAR = bar ∧ (s.aerrLatch bar off kind).get R.HST_AERR_HI_KIND = kind) := by
  unfold State.aerrLatch
  split
  · rename_i hv
    exact ⟨s.get_eq_one rfl hv, fun _ => rfl, fun h => by simp [hv] at h⟩
  · rename_i hv
    refine ⟨State.get_put_same _ _ _ (by decide), fun h => absurd h hv, fun _ => ⟨?_, ?_, ?_⟩⟩
    all_goals simp (disch := decide) only [State.get_put_apart, State.get_put_same]
    · rfl
    · exact Nat.mod_eq_of_lt hbar
    · exact Nat.mod_eq_of_lt hkind

/-- The latch writes the record's two registers alone. -/
theorem State.aerrLatch_regs (s : State) (bar off kind : Nat) : RegsBut s (s.aerrLatch bar off kind) [0x20020, 0x20024] := by
  unfold State.aerrLatch
  split
  · exact .refl s _
  · exact (((((RegsBut.refl s _).put _ _ (by decide)).put _ _ (by decide)).put _ _ (by decide)).put _ _ (by decide)).put _ _ (by decide)

theorem State.aerrLatch_onlyRegs (s : State) (bar off kind : Nat) : OnlyRegs s (s.aerrLatch bar off kind) := by
  unfold State.aerrLatch
  split
  · exact .refl s
  · exact ((((s.put_onlyRegs _ _).put _ _).put _ _).put _ _).put _ _

/-- Recording an access error writes the record, its counter and the block INT alone. -/
theorem State.get_accessError_other (s : State) (bar off kind : Nat) {g : Fld} (h3 : g.addr / 0x10000 ≠ 3)
    (h : g.addr ≠ 0x20020 ∧ g.addr ≠ 0x20024 ∧ g.addr ≠ 0x22000) : (s.accessError bar off kind).get g = s.get g := by
  obtain ⟨hlo, hhi, hcnt⟩ := h
  rw [State.accessError_eq, State.get_raise_other _ (by decide) h3, (State.aerrLatch_regs _ _ _ _).get (by simp [hlo, hhi]), State.get_bump_other _ _ _ (Or.inl hcnt)]

theorem State.accessError_frame (s : State) (bar off kind : Nat) : OnlyRegsInt s (s.accessError bar off kind) :=
  (((OnlyRegs.refl s).bump _).trans (State.aerrLatch_onlyRegs _ _ _ _)).raise _

/-- R396. What recording an access error does. -/
theorem State.accessError_errored (s : State) {bar kind : Nat} (off : Nat) (hbar : bar < 4) (hkind : kind < 16) :
    AccessErrored s (s.accessError bar off kind) bar off kind := by
  have hc : Irq.HST_AERR < 256 := by decide
  have hon : (s.bump (R.HST_CNT_COUNT 0)).on R.HST_AERR_HI_VALID = s.on R.HST_AERR_HI_VALID := State.on_bump_apart s (by decide)
  obtain ⟨hvalid, hkept, hnew⟩ := (s.bump (R.HST_CNT_COUNT 0)).aerrLatch_holds off hbar hkind
  rw [hon] at hkept hnew
  have hraise : ∀ g : Fld, g.addr / 0x10000 = 2 →
      (s.accessError bar off kind).get g = ((s.bump (R.HST_CNT_COUNT 0)).aerrLatch bar off kind).get g := fun g hg => by
    rw [State.accessError_eq, State.get_raise_other _ hc (by omega)]
  refine ⟨?_, State.raise_sets _ hc, ?_, fun hv => ?_, fun hv f hf => ?_, ?_⟩
  · rw [hraise (R.HST_CNT_COUNT 0) rfl, (State.aerrLatch_regs _ _ _ _).get (by decide), State.get_bump_same _ _ (by decide)]; rfl
  · rw [hraise R.HST_AERR_HI_VALID rfl, hvalid]
  · rw [hraise R.HST_AERR_LO_OFFSET rfl, hraise R.HST_AERR_HI_BAR rfl, hraise R.HST_AERR_HI_KIND rfl]
    exact hnew hv
  · have hf2 : f.addr / 0x10000 = 2 ∧ (R.HST_CNT_COUNT 0).apart f = true := by
      revert f; decide
    rw [hraise _ hf2.1, hkept hv, State.get_bump_apart _ hf2.2]
  · have hframe := s.accessError_frame bar off kind
    unfold OnlyRegsInt at hframe
    rw [hframe]

theorem AccessErrored.emit {s u : State} {bar off kind : Nat} (h : AccessErrored s u bar off kind) (o : Out) :
    AccessErrored s (u.emit o) bar off kind := by
  obtain ⟨hcnt, hirq, hvalid, hnew, hkept, hframe⟩ := h
  exact ⟨hcnt, hirq, hvalid, hnew, hkept, by rw [hframe]; rfl⟩

/-- The fields of the access errors' record and their counter. -/
def aerrFields : List Fld :=
  [R.HST_CNT_COUNT 0, R.HST_AERR_HI_VALID, R.HST_AERR_LO_OFFSET, R.HST_AERR_HI_OFFSET, R.HST_AERR_HI_BAR, R.HST_AERR_HI_KIND]

/-- An access error recorded after registers apart from its record have changed. -/
theorem AccessErrored.of_regs {s t u : State} {bar off kind : Nat} (h : AccessErrored t u bar off kind) (ht : OnlyRegs s t)
    (hget : ∀ g ∈ aerrFields, t.get g = s.get g) : AccessErrored s u bar off kind := by
  obtain ⟨hcnt, hirq, hvalid, hnew, hkept, hframe⟩ := h
  have hon : t.on R.HST_AERR_HI_VALID = s.on R.HST_AERR_HI_VALID := by
    rw [State.on, State.on, hget R.HST_AERR_HI_VALID (by simp [aerrFields])]
  refine ⟨?_, hirq, hvalid, fun hv => hnew (hon.trans hv), fun hv f hf => ?_, ?_⟩
  · rw [hcnt, hget (R.HST_CNT_COUNT 0) (by simp [aerrFields])]
  · rw [hkept (hon.trans hv) f hf, hget f (List.mem_cons_of_mem _ (List.mem_cons_of_mem _ hf))]
  · unfold OnlyRegs at ht
    rw [hframe, ht]

end Sys2Proof.Machine
end

section
/-! ### BAR2 (R21, R22, R337) -/
namespace Sys2Proof.Machine

/-- R325. A selector is one bit. -/
theorem State.hashSel_lt (s : State) (i pa : Nat) : s.hashSel i pa < 2 := Nat.mod_lt _ Nat.two_pos

theorem State.paController_lt (s : State) (pa : Nat) : s.paController pa < 64 := by
  have h1 := s.hashSel_lt 1 pa; have h2 := s.hashSel_lt 2 pa; have h3 := s.hashSel_lt 3 pa
  have h4 := s.hashSel_lt 4 pa; have h5 := s.hashSel_lt 5 pa; have h6 := s.hashSel_lt 6 pa
  dsimp only [State.paController]
  omega

/-- The controller of an address follows from the hash masks. -/
theorem State.paController_congr {s u : State} (h : ∀ a, 0x140100 ≤ a → a < 0x140158 → u.word a = s.word a) (pa : Nat) :
    u.paController pa = s.paController pa := by
  have hmask : ∀ i, i < 11 → u.hashSel i pa = s.hashSel i pa := fun i hi => by
    simp only [State.hashSel, State.hashMask, State.get, R.MEM_HASH_LO_MASK, R.MEM_HASH_HI_MASK]
    rw [h _ (by omega) (by omega), h _ (by omega) (by omega)]
  simp only [State.paController, hmask _ (show 1 < 11 by decide), hmask _ (show 2 < 11 by decide), hmask _ (show 3 < 11 by decide),
    hmask _ (show 4 < 11 by decide), hmask _ (show 5 < 11 by decide), hmask _ (show 6 < 11 by decide)]

/-- R337. Reads of poisoned granules, one after another. -/
def State.poisonReads (s : State) (gs : List Nat) : State := gs.foldl (fun s g => s.poisonRead (32 * g)) s

theorem State.poisonReads_onlyRegs (gs : List Nat) : ∀ s : State, OnlyRegs s (s.poisonReads gs) := by
  induction gs with
  | nil => exact OnlyRegs.refl
  | cons g gs ih => exact fun s => ((OnlyRegs.refl s).bump _).trans (ih _)

/-- Only the controllers' counters change. -/
theorem State.word_poisonRead_other (s : State) (pa : Nat) {a : Nat} (h : a < 0x142000 ∨ 0x143000 ≤ a) : (s.poisonRead pa).word a = s.word a := by
  have hk := s.paController_lt pa
  refine s.word_put_other _ _ ?_
  simp only [R.MEM_CNT_COUNT]
  omega

theorem State.word_poisonReads_other {a : Nat} (h : a < 0x142000 ∨ 0x143000 ≤ a) (gs : List Nat) :
    ∀ s : State, (s.poisonReads gs).word a = s.word a := by
  induction gs with
  | nil => exact fun _ => rfl
  | cons g gs ih => exact fun s => (ih _).trans (s.word_poisonRead_other _ h)

/-- Each granule is counted at the controller that it lies in. -/
theorem State.get_poisonReads (k : Nat) (gs : List Nat) : ∀ s : State,
    (s.poisonReads gs).get (R.MEM_CNT_COUNT k 12) =
      (s.get (R.MEM_CNT_COUNT k 12) + (gs.filter (fun g => decide (s.paController (32 * g) = k))).length) % 2 ^ 32 := by
  induction gs with
  | nil => exact fun s => (Nat.mod_eq_of_lt (bitsOf_lt _ 0 32)).symm
  | cons g gs ih =>
    intro s
    have hctl : ∀ pa, (s.poisonRead (32 * g)).paController pa = s.paController pa :=
      State.paController_congr fun a _ _ => s.word_poisonRead_other _ (by omega)
    have hcnt : (s.poisonRead (32 * g)).get (R.MEM_CNT_COUNT k 12) =
        (s.get (R.MEM_CNT_COUNT k 12) + if s.paController (32 * g) = k then 1 else 0) % 2 ^ 32 := by
      unfold State.poisonRead
      split
      · rename_i he
        rw [he]
        exact s.get_bump_same _ (Nat.le_refl 32)
      · rename_i hne
        rw [State.get_bump_other, Nat.add_zero]
        · exact (Nat.mod_eq_of_lt (bitsOf_lt _ 0 32)).symm
        · left; simp only [R.MEM_CNT_COUNT]; omega
    have hih := ih (s.poisonRead (32 * g))
    simp only [hctl, hcnt] at hih
    refine hih.trans ?_
    by_cases he : s.paController (32 * g) = k
    · rw [List.filter_cons_of_pos (by simpa using he), List.length_cons, if_pos he]; omega
    · rw [List.filter_cons_of_neg (by simpa using he), if_neg he]; omega

/-- R22, R337. A BAR2 read that meets poison. -/
theorem State.poisonReads_errored (s : State) (gs : List Nat) (off : Nat) :
    AccessErrored s ((s.poisonReads gs).accessError 1 off 3) 1 off 3 := by
  refine ((s.poisonReads gs).accessError_errored off (by decide) (by decide)).of_regs (s.poisonReads_onlyRegs gs) fun g hg => ?_
  have hg2 : g.addr < 0x142000 := by revert g; decide
  rw [State.get, State.get, State.word_poisonReads_other (Or.inl hg2)]

end Sys2Proof.Machine
end

section
/-! ### The commands of the host's accesses (R3–R7, R22, R395, R396) -/
namespace Sys2Proof.Machine

theorem exec_rcRead {s : State} {who : Who} {a : Nat} (hopen : s.barOpen who = true) (ha : a % 4 = 0) :
    exec (.rcRead who 0 a) s = .next (s.readClear a) := by
  show execRcRead who 0 a s = _
  simp [execRcRead, hopen, ha]

theorem exec_registerWrite {s : State} {who : Who} {a : Nat} (v : Nat) (hopen : s.barOpen who = true) (ha : a % 4 = 0) :
    exec (.registerWrite who 0 a v) s = .next (s.busWrite who a v) := by
  show execRegisterWrite who 0 a v s = _
  simp [execRegisterWrite, hopen, ha]

theorem exec_registerWrite_msix {s : State} {who : Who} {a : Nat} (v : Nat) (hopen : s.barOpen who = true) (ha : a % 4 = 0) :
    exec (.registerWrite who 1 a v) s = .next (s.msixWrite a v) := by
  show execRegisterWrite who 1 a v s = _
  simp [execRegisterWrite, hopen, ha]

theorem barOpen_of_d0 {s : State} (who : Who) (h : s.hst.d3 = false) : s.barOpen who = true := by simp [State.barOpen, h]

theorem barOpen_host_of_d3 {s : State} (h : s.hst.d3 = true) : s.barOpen .host = false := by simp [State.barOpen, h]

/-- R7. A write that reaches no register changes nothing. -/
theorem State.busWrite_unreached {s : State} {a : Nat} (who : Who) (v : Nat) (h : s.busReaches a = false) : s.busWrite who a v = s := by
  simp [State.busWrite, h]

theorem State.busReaches_of_some {s : State} {a : Nat} {r : RegRow × Nat} (hr : regRow a = some r) : s.busReaches a = s.regPresent r := by
  simp [State.busReaches, hr]

/-- R6. An access of another size: an error, and four zero bytes for a read. -/
theorem exec_bar0BadAccess {s : State} (off : Nat) (write : Bool) (h : s.hst.d3 = false) :
    exec (.bar0BadAccess off write) s = .next (if write then s.accessError 0 off 1 else (s.accessError 0 off 1).emit (.readData [0, 0, 0, 0])) := by
  show execBar0BadAccess off write s = _
  simp only [execBar0BadAccess, barOpen_of_d0 .host h]
  rfl

/-- R7. A read at an offset without a register. -/
theorem State.readClear_none {s : State} {a : Nat} (h : regRow a = none) : s.readClear a = s.emit (.readData [0, 0, 0, 0]) := by
  simp only [State.readClear, State.readReg_none s h, h]
  rfl

/-- Settles O47: an access error's record, offsets without a register, and the bits that no field of a row holds. -/
theorem badAccessesAndReservedBits : Obligations.BadAccessesAndReservedBits := by
  refine ⟨fun s off hd3 _ => ?_, fun s who a v hd3 ha hr => ?_, fun a r i hr _ hres => ?_⟩
  · have herr := s.accessError_errored off (bar := 0) (kind := 1) (by decide) (by decide)
    have hout : (s.accessError 0 off 1).out = s.out := by rw [s.accessError_frame 0 off 1]
    exact ⟨⟨_, exec_bar0BadAccess off true hd3, herr, hout⟩, ⟨_, exec_bar0BadAccess off false hd3, herr.emit _, congrArg _ hout⟩⟩
  · have hopen := barOpen_of_d0 who hd3
    have hreach : s.busReaches a = false := by simp [State.busReaches, hr]
    exact ⟨(exec_rcRead hopen ha).trans (congrArg _ (State.readClear_none hr)),
      (exec_registerWrite v hopen ha).trans (congrArg _ (State.busWrite_unreached who v hreach))⟩
  · have hi := RegRow.reserved_iff.1 hres
    obtain ⟨hp, hfit⟩ := regRow_tidy hr
    simp only [bitAt_eq_testBit]
    exact ⟨testBit_fieldsReset_apart hp (fun f hf => (hfit f hf).2.2) hi, fun s => s.readReg_reserved hr hi⟩

/-- R406, R407. A write of a vector's data in the message table. -/
theorem State.msixWrite_data (s : State) {n : Nat} (v : Nat) (hn : n < 64) :
    s.msixWrite (16 * n + 8) v =
      { s with int := { s.int with msix := mapPut msixDefault s.int.msix n { s.msixEntry n with data := v % 2 ^ 32 } } } := by
  have hidx : (16 * n + 8) / 16 = n := by omega
  have hword : (16 * n + 8) % 16 / 4 = 2 := by omega
  simp only [State.msixWrite, hidx, hword, if_neg (Nat.not_le.2 hn)]

/-- R5. A write to a register of a present unit, where no write starts an operation. -/
theorem exec_registerWrite_plain {s : State} {who : Who} {a v : Nat} {r : RegRow × Nat} (hopen : s.barOpen who = true) (ha : a % 4 = 0)
    (hr : regRow a = some r) (hpres : s.regPresent r = true) (hplain : plainReg a = true) :
    exec (.registerWrite who 0 a v) s = .next (s.storeFields (decide (who = .watch)) a v) := by
  rw [exec_registerWrite v hopen ha, s.busWrite_plain who v hplain ((State.busReaches_of_some hr).trans hpres)]

/-- R22. Why an access at BAR2 completes without effect, or that none of the reasons holds. -/
theorem State.bar2Kind_range {s : State} {y n : Nat} (h : hbmTop < s.bar2Addr y + n) : s.bar2Kind y n = some 2 := if_pos h

theorem State.bar2Kind_closed {s : State} {y n : Nat} (h : s.bar2Addr y + n ≤ hbmTop) (hopen : s.hbmOpen = false) : s.bar2Kind y n = some 5 := by
  simp only [State.bar2Kind, if_neg (Nat.not_lt.2 h), hopen, Bool.not_false, if_true]

theorem State.bar2Kind_open {s : State} {y n : Nat} (h : s.bar2Addr y + n ≤ hbmTop) (hopen : s.hbmOpen = true) : s.bar2Kind y n = none := by
  simp only [State.bar2Kind, if_neg (Nat.not_lt.2 h), hopen, Bool.not_true, Bool.false_eq_true, if_false]

theorem exec_bar2Read_error {s : State} {y n k : Nat} (hd3 : s.hst.d3 = false) (hk : s.bar2Kind y n = some k) :
    exec (.bar2Read y n) s = .next ((s.accessError 1 y k).emit (.readData (zeros n))) := by
  show execBar2Read y n s = _
  simp only [execBar2Read, barOpen_of_d0 .host hd3, hk]
  rfl

theorem exec_bar2Read_clean {s : State} {y n : Nat} (hd3 : s.hst.d3 = false) (hk : s.bar2Kind y n = none)
    (hclean : s.poisonIn (s.bar2Addr y) n = []) :
    exec (.bar2Read y n) s = .next (s.emit (.readData (s.memBytes (s.bar2Addr y) n))) := by
  show execBar2Read y n s = _
  simp only [execBar2Read, barOpen_of_d0 .host hd3, hk, hclean]
  rfl

theorem exec_bar2Read_poisoned {s : State} {y n : Nat} (hd3 : s.hst.d3 = false) (hk : s.bar2Kind y n = none)
    (hpoison : s.poisonIn (s.bar2Addr y) n ≠ []) :
    exec (.bar2Read y n) s = .next (((s.poisonReads (s.poisonIn (s.bar2Addr y) n)).accessError 1 y 3).emit .completerAbort) := by
  show execBar2Read y n s = _
  obtain ⟨g, gs, hgs⟩ := List.exists_cons_of_ne_nil hpoison
  simp only [execBar2Read, barOpen_of_d0 .host hd3, hk, hgs]
  rfl

theorem exec_bar2Write_error {s : State} {y k : Nat} {bs : List Byte} (hd3 : s.hst.d3 = false) (hk : s.bar2Kind y bs.length = some k) :
    exec (.bar2Write y bs) s = .next (s.accessError 1 y k) := by
  show execBar2Write y bs s = _
  simp only [execBar2Write, barOpen_of_d0 .host hd3, hk]
  rfl

theorem exec_bar2Write_open {s : State} {y : Nat} {bs : List Byte} (hd3 : s.hst.d3 = false) (hk : s.bar2Kind y bs.length = none) :
    exec (.bar2Write y bs) s = .next (s.memPut (s.bar2Addr y) bs) := by
  show execBar2Write y bs s = _
  simp only [execBar2Write, barOpen_of_d0 .host hd3, hk]
  rfl

theorem exec_barAtomicRequest {s : State} (bar off : Nat) (hd3 : s.hst.d3 = false) :
    exec (.barAtomicRequest bar off) s = .next ((s.accessError bar off 4).emit .unsupported) := by
  show execBarAtomicRequest bar off s = _
  simp only [execBarAtomicRequest, barOpen_of_d0 .host hd3]
  rfl

theorem State.accessError_out (s : State) (bar off kind : Nat) : (s.accessError bar off kind).out = s.out := by
  rw [s.accessError_frame bar off kind]

end Sys2Proof.Machine
end

section
/-! ### Accesses through the BARs: the clauses and O48 -/
namespace Sys2Proof.Machine

/-- R5, R7. A read of a register. -/
theorem rcRead_reads_and_clears (s : State) {who : Who} {a : Nat} (hopen : s.barOpen who = true) (ha : a % 4 = 0) :
    ∃ u, exec (.rcRead who 0 a) s = .next u ∧ u.out = .readData (leBytes 4 (s.readReg a)) :: s.out ∧ u = { s with regs := u.regs, out := u.out } ∧
      RegsBut s u [a] ∧ (∀ r, regRow a = some r → s.regPresent r = false → s.readReg a = 0) ∧
      (∀ r, regRow a = some r → ∀ f ∈ r.1.fields, bitsOf (u.word a) f.lsb f.width = if f.typ = .rc then 0 else bitsOf (s.word a) f.lsb f.width) := by
  obtain ⟨hout, hframe, hbut⟩ := s.readClear_frame a
  exact ⟨_, exec_rcRead hopen ha, hout, hframe, hbut, fun r hr => s.readReg_absent hr, fun r hr f hf => s.bitsOf_readClear hr hf⟩

/-- R22, R337, R396. A read through BAR2. -/
theorem bar2Read_outcomes (s : State) (y n : Nat) (hd3 : s.hst.d3 = false) :
    (s.bar2Addr y + n ≤ hbmTop → s.hbmOpen = true → s.poisonIn (s.bar2Addr y) n = [] →
      exec (.bar2Read y n) s = .next (s.emit (.readData (s.memBytes (s.bar2Addr y) n)))) ∧
    (hbmTop < s.bar2Addr y + n → ∃ u, exec (.bar2Read y n) s = .next u ∧ AccessErrored s u 1 y 2 ∧ u.out = .readData (zeros n) :: s.out) ∧
    (s.bar2Addr y + n ≤ hbmTop → s.hbmOpen = false → ∃ u, exec (.bar2Read y n) s = .next u ∧ AccessErrored s u 1 y 5 ∧ u.out = .readData (zeros n) :: s.out) ∧
    (let gs := s.poisonIn (s.bar2Addr y) n
     s.bar2Addr y + n ≤ hbmTop → s.hbmOpen = true → gs ≠ [] →
      ∃ u, exec (.bar2Read y n) s = .next u ∧ AccessErrored s u 1 y 3 ∧ u.out = .completerAbort :: s.out ∧
        ∀ k, k < 64 → u.get (R.MEM_CNT_COUNT k 12) = (s.get (R.MEM_CNT_COUNT k 12) + (gs.filter (fun g => decide (s.paController (32 * g) = k))).length) % 2 ^ 32) := by
  have herr : ∀ k < 16, s.bar2Kind y n = some k →
      ∃ u, exec (.bar2Read y n) s = .next u ∧ AccessErrored s u 1 y k ∧ u.out = .readData (zeros n) :: s.out := fun k hk hkind =>
    ⟨_, exec_bar2Read_error hd3 hkind, (s.accessError_errored y (by decide) hk).emit _, congrArg _ (s.accessError_out 1 y k)⟩
  refine ⟨fun hin hopen => exec_bar2Read_clean hd3 (State.bar2Kind_open hin hopen), fun hout => herr 2 (by decide) (State.bar2Kind_range hout),
    fun hin hclosed => herr 5 (by decide) (State.bar2Kind_closed hin hclosed), ?_⟩
  intro gs hin hopen hpoison
  refine ⟨_, exec_bar2Read_poisoned hd3 (State.bar2Kind_open hin hopen) hpoison, (s.poisonReads_errored gs y).emit _, ?_, fun k hk => ?_⟩
  · rw [State.emit_out, State.accessError_out, (s.poisonReads_onlyRegs gs).out]
  · rw [State.emit_get, State.get_accessError_other, State.get_poisonReads]
    all_goals simp only [R.MEM_CNT_COUNT]; omega

/-- R22, R396. A write through BAR2. -/
theorem bar2Write_outcomes (s : State) (y : Nat) (bs : List Byte) (hd3 : s.hst.d3 = false) :
    (s.bar2Addr y + bs.length ≤ hbmTop → s.hbmOpen = true →
      ∃ u, exec (.bar2Write y bs) s = .next u ∧ u.memBytes (s.bar2Addr y) bs.length = bs ∧
        (∀ a, (a < s.bar2Addr y ∨ s.bar2Addr y + bs.length ≤ a) → u.memByte a = s.memByte a) ∧ u = { s with mem := u.mem, poison := u.poison }) ∧
    (hbmTop < s.bar2Addr y + bs.length → ∃ u, exec (.bar2Write y bs) s = .next u ∧ AccessErrored s u 1 y 2) ∧
    (s.bar2Addr y + bs.length ≤ hbmTop → s.hbmOpen = false → ∃ u, exec (.bar2Write y bs) s = .next u ∧ AccessErrored s u 1 y 5) := by
  have herr : ∀ k < 16, s.bar2Kind y bs.length = some k → ∃ u, exec (.bar2Write y bs) s = .next u ∧ AccessErrored s u 1 y k :=
    fun k hk hkind => ⟨_, exec_bar2Write_error hd3 hkind, s.accessError_errored y (by decide) hk⟩
  exact ⟨fun hin hopen => ⟨_, exec_bar2Write_open hd3 (State.bar2Kind_open hin hopen), s.memBytes_memPut _ _, s.memByte_memPut_other _ _, rfl⟩,
    fun hout => herr 2 (by decide) (State.bar2Kind_range hout), fun hin hclosed => herr 5 (by decide) (State.bar2Kind_closed hin hclosed)⟩

/-- R395. In D3hot the endpoint answers the host's requests as unsupported and drops its writes. -/
theorem d3hot_unsupported (s : State) (a v : Nat) (bs : List Byte) (hd3 : s.hst.d3 = true) (ha : a % 4 = 0) :
    exec (.rcRead .host 0 a) s = .next (s.emit .unsupported) ∧ exec (.registerWrite .host 0 a v) s = .next s ∧
    exec (.bar2Read a 4) s = .next (s.emit .unsupported) ∧ exec (.bar2Write a bs) s = .next s ∧
    exec (.barAtomicRequest 0 a) s = .next (s.emit .unsupported) := by
  have hclosed := barOpen_host_of_d3 hd3
  refine ⟨?_, ?_, ?_, ?_, ?_⟩
  · show execRcRead .host 0 a s = _
    simp only [execRcRead, hclosed]; rfl
  · show execRegisterWrite .host 0 a v s = _
    simp only [execRegisterWrite, hclosed, ha]; rfl
  · show execBar2Read a 4 s = _
    simp only [execBar2Read, hclosed]; rfl
  · show execBar2Write a bs s = _
    simp only [execBar2Write, hclosed]; rfl
  · show execBarAtomicRequest 0 a s = _
    simp only [execBarAtomicRequest, hclosed]; rfl

/-- Settles O48: reads and writes of registers by the type of each field, the message table, BAR2, AtomicOps and D3hot. -/
theorem barAccesses : Obligations.BarAccesses := by
  refine ⟨fun s who a => rcRead_reads_and_clears s, fun s who a v r hopen ha hr _ => ⟨fun habs => ?_, fun hpres hplain => ?_⟩,
    fun s who n v hopen hn => ?_, bar2Read_outcomes, bar2Write_outcomes, fun s b off hb hd3 => ?_, d3hot_unsupported⟩
  · rw [exec_registerWrite v hopen ha, State.busWrite_unreached who v ((State.busReaches_of_some hr).trans habs)]
  · obtain ⟨hblk, -, -, -⟩ := plainReg_spec hplain
    refine ⟨_, exec_registerWrite_plain hopen ha hr hpres hplain, s.storeFields_frame _ a v, s.storeFields_mem _ a v, fun f hf => ?_⟩
    rw [s.bitsOf_storeFields _ v hr (by omega) (by omega) hf]
    cases ht : f.typ <;> simp only [FieldRow.stored, ht, decide_eq_true_eq]
    case sh => cases s.sco.armed <;> simp
  · refine ⟨_, (exec_registerWrite_msix v hopen (by omega)).trans (congrArg _ (s.msixWrite_data v hn)), mapGet_mapPut_same _ _ _ _,
      fun k hk => mapGet_mapPut_other _ _ _ hk, rfl⟩
  · exact ⟨_, exec_barAtomicRequest b off hd3, (s.accessError_errored off (by omega) (by decide)).emit _, congrArg _ (s.accessError_out b off 4)⟩

end Sys2Proof.Machine
end

section
/-! ### The state after reset (R2) -/
namespace Sys2Proof.Machine

/-- Settles O59: the reset state's own fields, and the registers that the tables give a reset value, by evaluation. -/
theorem resetState : Obligations.ResetState := by
  refine ⟨rfl, rfl, rfl, rfl, rfl, rfl, rfl, rfl, ?_, ?_, ?_⟩ <;> decide +kernel

end Sys2Proof.Machine
end

section
/-! ### Snapshots (R8, R16, R17) -/
namespace Sys2Proof.Machine

theorem snapReg_block {b a : Nat} (h : snapReg b a = true) : a / 0x10000 = b := by
  simp only [snapReg, Bool.and_eq_true, decide_eq_true_eq] at h
  exact h.1

/-- R17. The copies after a latch: the block's snapshot registers as they stand, and other blocks' copies as before. -/
theorem State.snapWord_snapTake (s : State) (b a : Nat) :
    (s.snapTake b).snapWord a =
      if snapReg b a then s.word a else if a / 0x10000 = b then (wordDefault s.member a).toNat else s.snapWord a := by
  unfold State.snapWord State.snapTake State.word
  dsimp only
  rw [mapGet_append, mapGet_append, mapGet_filter_key _ (fun j => decide (j < b * 0x10000)), mapGet_filter_key _ (snapReg b),
    mapGet_filter_key _ (fun j => decide ((b + 1) * 0x10000 ≤ j))]
  simp only [decide_eq_true_eq]
  have hhigh : ¬ (b + 1) * 0x10000 ≤ a →
      mapGet (wordDefault s.member) (s.snap.filter (fun p => decide ((b + 1) * 0x10000 ≤ p.1))) a = wordDefault s.member a := fun h => by
    rw [mapGet_filter_key _ (fun j => decide ((b + 1) * 0x10000 ≤ j)), if_neg (by simpa using h)]
  by_cases hs : snapReg b a = true
  · have hblk := snapReg_block hs
    rw [if_neg (by omega), if_pos hs, if_pos hs, mapGet_congr s.regs (hhigh (by omega))]
  · simp only [if_neg hs]
    by_cases hlow : a < b * 0x10000
    · have hrest : mapGet (mapGet (wordDefault s.member) (s.snap.filter (fun p => decide ((b + 1) * 0x10000 ≤ p.1))))
          (s.regs.filter (fun p => snapReg b p.1)) a = wordDefault s.member a := by
        rw [mapGet_filter_key _ (snapReg b), if_neg hs, hhigh (by omega)]
      rw [if_pos hlow, if_neg (by omega), mapGet_congr s.snap hrest]
    · rw [if_neg hlow]
      by_cases hup : (b + 1) * 0x10000 ≤ a
      · rw [if_pos hup, if_neg (by omega)]
      · rw [if_neg hup, if_pos (by omega)]

@[simp] theorem State.put_snapWord (s : State) (f : Fld) (v a : Nat) : (s.put f v).snapWord a = s.snapWord a := rfl
@[simp] theorem State.snapTake_mem (s : State) (b : Nat) : (s.snapTake b).mem = s.mem := rfl
@[simp] theorem State.snapTake_word (s : State) (b a : Nat) : (s.snapTake b).word a = s.word a := rfl

/-- Bringing running counts up to date writes registers of the block alone, its SNAPCTL apart. -/
theorem State.snapLive_frame (s : State) (b : Nat) :
    OnlyRegs s (s.snapLive b) ∧ ∃ as, RegsBut s (s.snapLive b) as ∧ ∀ a ∈ as, a / 0x10000 = b ∧ a ≠ b * 0x10000 + 0xFFF0 := by
  unfold State.snapLive
  split
  · rename_i hb
    subst hb
    refine ⟨((((((s.put_onlyRegs _ _).put _ _).put _ _).put _ _).put _ _).put _ _).put _ _,
      [0x130100, 0x130104, 0x130108, 0x13010C, 0x130110, 0x130114, 0x130118], ?_, by decide⟩
    exact (((((((RegsBut.refl s _).put _ _ (by decide)).put _ _ (by decide)).put _ _ (by decide)).put _ _ (by decide)).put _ _ (by decide)).put _ _
      (by decide)).put _ _ (by decide)
  split
  · rename_i hb
    subst hb
    exact ⟨s.put_onlyRegs _ _, [R.SCO_S_LINE_LINE.addr], (RegsBut.refl s _).put _ _ (by decide), by decide⟩
  · exact ⟨.refl s, [], .refl s _, by simp⟩

/-! #### SNAPCTL -/

theorem State.snapGo_busy {s : State} {b : Nat} (h : s.on (snapBusyFld b) = true) : s.snapGo b = s := by simp [State.snapGo, h]

/-- R17. A latch starts where none is in progress. -/
theorem State.snapGo_idle {s : State} {b : Nat} (hb : hasSnap b = true) (h : s.on (snapBusyFld b) = false) :
    s.snapGo b = (s.put (snapFld b) 1).put (snapBusyFld b) 1 := by simp [State.snapGo, hb, h]

/-- The three fields of a SNAPCTL share no bit. -/
theorem snapFlds_apart (b : Nat) : (snapFld b).apart (snapBusyFld b) = true ∧ (snapBusyFld b).apart (snapFld b) = true ∧
    (snapFld b).apart (snapSeqFld b) = true ∧ (snapBusyFld b).apart (snapSeqFld b) = true ∧
    (snapSeqFld b).apart (snapFld b) = true ∧ (snapSeqFld b).apart (snapBusyFld b) = true := by
  simp [Fld.apart, snapFld, snapBusyFld, snapSeqFld]

theorem snapFlds_fit (b : Nat) : (snapFld b).lsb + (snapFld b).width ≤ 32 ∧ (snapBusyFld b).lsb + (snapBusyFld b).width ≤ 32 ∧
    (snapSeqFld b).lsb + (snapSeqFld b).width ≤ 32 := by simp [snapFld, snapBusyFld, snapSeqFld]

/-- R17. SNAP while no latch is in progress. -/
theorem snap_starts_latch (s : State) (b : Nat) (hb : hasSnap b = true) (h : s.on (snapBusyFld b) = false) :
    ∃ u, exec (.snap b) s = .next u ∧ u.get (snapBusyFld b) = 1 ∧ u.get (snapFld b) = 1 ∧ u = { s with regs := u.regs } ∧
      RegsBut s u [(snapFld b).addr] := by
  obtain ⟨-, hbusy, -⟩ := snapFlds_apart b
  obtain ⟨hfit, hfitBusy, -⟩ := snapFlds_fit b
  have hexec : exec (.snap b) s = .next ((s.put (snapFld b) 1).put (snapBusyFld b) 1) := by
    rw [← State.snapGo_idle hb h]; rfl
  refine ⟨_, hexec, State.get_put_same _ _ _ hfitBusy, ?_, (s.put_onlyRegs _ _).put _ _,
    ((RegsBut.refl s _).put _ _ (by simp)).put _ _ (by simp [snapBusyFld, snapFld])⟩
  rw [State.get_put_apart _ _ hbusy, State.get_put_same _ _ _ hfit]
  rfl

/-- R17. The state that the end of a latch leaves. -/
def State.snapEnd (s : State) (b : Nat) : State :=
  ((((s.snapLive b).snapTake b).put (snapFld b) 0).put (snapBusyFld b) 0).bump (snapSeqFld b)

theorem exec_snapshotLatchComplete {s : State} {b : Nat} (hb : hasSnap b = true) (h : s.on (snapBusyFld b) = true) :
    exec (.snapshotLatchComplete b) s = .next (s.snapEnd b) := by
  show execSnapshotLatchComplete b s = _
  simp only [execSnapshotLatchComplete, hb, h]
  rfl

/-- R17. SNAPCTL after a latch. -/
theorem State.snapEnd_snapCtl (s : State) (b : Nat) :
    (s.snapEnd b).get (snapBusyFld b) = 0 ∧ (s.snapEnd b).get (snapFld b) = 0 ∧
      (s.snapEnd b).get (snapSeqFld b) = (s.get (snapSeqFld b) + 1) % 2 ^ 16 := by
  obtain ⟨-, hbusy, hseq, hbusySeq, hseqSnap, hseqBusy⟩ := snapFlds_apart b
  obtain ⟨hfit, hfitBusy, hfitSeq⟩ := snapFlds_fit b
  obtain ⟨-, as, hbut, has⟩ := s.snapLive_frame b
  have hkept : (s.snapLive b).get (snapSeqFld b) = s.get (snapSeqFld b) := hbut.get fun hmem => (has _ hmem).2 rfl
  refine ⟨?_, ?_, ?_⟩
  · rw [State.snapEnd, State.get_bump_apart _ hseqBusy, State.get_put_same _ _ _ hfitBusy]; rfl
  · rw [State.snapEnd, State.get_bump_apart _ hseqSnap, State.get_put_apart _ _ hbusy, State.get_put_same _ _ _ hfit]; rfl
  · rw [State.snapEnd, State.get_bump_same _ _ hfitSeq, State.get_put_apart _ _ hbusySeq, State.get_put_apart _ _ hseq, ← hkept]; rfl

/-- R8, R17. The copies after a latch, and all that it leaves. -/
theorem State.snapEnd_copies (s : State) (b : Nat) :
    (∀ a, snapReg b a = true → (s.snapEnd b).snapWord a = (s.snapLive b).word a) ∧
      (∀ a, a / 0x10000 ≠ b → (s.snapEnd b).snapWord a = s.snapWord a ∧ (s.snapEnd b).word a = s.word a) ∧ (s.snapEnd b).mem = s.mem := by
  obtain ⟨honly, as, hbut, has⟩ := s.snapLive_frame b
  have hsnap : ∀ a, (s.snapEnd b).snapWord a = ((s.snapLive b).snapTake b).snapWord a := fun a => by
    rw [State.snapEnd, State.bump, State.bumpBy, State.put_snapWord, State.put_snapWord, State.put_snapWord]
  have hlive : ∀ a, (s.snapLive b).snapWord a = s.snapWord a := fun a => by
    rw [State.snapWord, State.snapWord, honly.snap, honly.member]
  refine ⟨fun a ha => by rw [hsnap, State.snapWord_snapTake, if_pos ha], fun a ha => ⟨?_, ?_⟩, ?_⟩
  · rw [hsnap, State.snapWord_snapTake, if_neg fun h => ha (snapReg_block h), if_neg ha, hlive]
  · have hctl : a ≠ b * 0x10000 + 0xFFF0 := by omega
    have hput : ∀ (u : State) (f : Fld) (v : Nat), f.addr = b * 0x10000 + 0xFFF0 → (u.put f v).word a = u.word a := fun u f v hf =>
      u.word_put_other f v (by rw [hf]; exact hctl)
    have hend : (s.snapEnd b).word a = (s.snapLive b).word a := by
      rw [State.snapEnd, State.bump, State.bumpBy, hput _ _ _ rfl, hput _ _ _ rfl, hput _ _ _ rfl, State.snapTake_word]
    rw [hend, hbut a fun h => ha (has a h).1]
  · rw [State.snapEnd, State.bump_mem, State.put_mem, State.put_mem, State.snapTake_mem, honly.mem]

end Sys2Proof.Machine
end

section
/-! ### Vectors and their messages (R405, R406) -/
namespace Sys2Proof.Machine

/-- A pending bit of a vector. -/
def State.pends (s : State) (v : Nat) : Bool := s.int.pba.toNat.testBit v

theorem getLsbD_one_shiftLeft {v : Nat} (hv : v < 64) (k : Nat) : (1#64 <<< v).getLsbD k = decide (k = v) := by
  rw [BitVec.getLsbD_shiftLeft, BitVec.getLsbD_one, ← decide_not]
  simp only [← Bool.decide_and]
  exact decide_eq_decide.2 (by omega)

theorem State.pends_setPending (s : State) {v : Nat} (hv : v < 64) (k : Nat) : (s.setPending v).pends k = (s.pends k || decide (k = v)) := by
  simp only [State.pends, State.setPending, BitVec.testBit_toNat, BitVec.getLsbD_or, getLsbD_one_shiftLeft hv]

/-- The pending bits without one of them. -/
theorem testBit_clear (p : BitVec 64) {v k : Nat} (hv : v < 64) (hk : k < 64) :
    (p &&& ~~~(1#64 <<< v)).toNat.testBit k = (p.toNat.testBit k && decide (k ≠ v)) := by
  simp only [BitVec.testBit_toNat, BitVec.getLsbD_and, BitVec.getLsbD_not, getLsbD_one_shiftLeft hv, hk, decide_true, Bool.true_and, decide_not]

/-- Nothing but registers and the pending bits changes. -/
def OnlyRegsPending (s u : State) : Prop := u = { s with regs := u.regs, int := { s.int with pba := u.int.pba } }

theorem OnlyRegsPending.trans {s u v : State} (h1 : OnlyRegsPending s u) (h2 : OnlyRegsPending u v) : OnlyRegsPending s v := by
  unfold OnlyRegsPending at *
  rw [h1] at h2
  exact h2

theorem OnlyRegs.pending {s u : State} (h : OnlyRegs s u) : OnlyRegsPending s u := by
  unfold OnlyRegs at h
  unfold OnlyRegsPending
  rw [h]

theorem State.setPending_onlyRegsPending (s : State) (v : Nat) : OnlyRegsPending s (s.setPending v) := rfl

/-- The registers of active vectors. -/
def vactRegs : List Nat := [0x30200, 0x30204]

theorem vactFld_mem {v : Nat} (hv : v < 64) : (vactFld v).addr ∈ vactRegs := by
  have h : v / 32 = 0 ∨ v / 32 = 1 := by omega
  rcases h with h | h <;> simp [vactFld, vactRegs, h]

theorem vactFld_fit (v : Nat) : (vactFld v).lsb + (vactFld v).width ≤ 32 := by simp only [vactFld]; omega

theorem vactFld_apart {v k : Nat} (h : v ≠ k) : (vactFld k).apart (vactFld v) = true := by
  rw [Fld.apart_iff]
  simp only [vactFld]
  omega

/-- Whether a vector is active follows from the causes, their enables and their vectors. -/
theorem State.vecActive_congr {s u : State} (h : RegsBut s u vactRegs) (v : Nat) : u.vecActive v = s.vecActive v := by
  have hget : ∀ g : Fld, 0x30000 ≤ g.addr → g.addr < 0x30200 → u.get g = s.get g := fun g _ hg =>
    h.get (by simp only [vactRegs, List.mem_pair]; omega)
  have hcause : ∀ c ∈ List.range 256, (u.on (causeFld c) && u.on (causeEnFld c) && decide (u.get (causeVecFld c) = v)) =
      (s.on (causeFld c) && s.on (causeEnFld c) && decide (s.get (causeVecFld c) = v)) := fun c hc => by
    have hc := List.mem_range.1 hc
    rw [State.on, State.on, State.on, State.on, hget (causeFld c), hget (causeEnFld c), hget (causeVecFld c)]
    all_goals simp only [causeFld, causeEnFld, causeVecFld]; omega
  rw [Bool.eq_iff_iff, State.vecActive, State.vecActive, List.any_eq_true, List.any_eq_true]
  exact exists_congr fun c => and_congr_right fun hc => by rw [hcause c hc]

/-- R406. One vector is brought up to date. -/
def State.revectorAt (s : State) (v : Nat) : State :=
  let a := s.vecActive v
  let was := s.on (vactFld v)
  if a && !was then (s.put (vactFld v) 1).setPending v else if !a && was then s.put (vactFld v) 0 else s

theorem State.revector_eq (s : State) : s.revector = foldRange 64 State.revectorAt s := rfl

theorem State.revectorAt_spec (s : State) {v : Nat} (hv : v < 64) :
    OnlyRegsPending s (s.revectorAt v) ∧ RegsBut s (s.revectorAt v) vactRegs ∧ (s.revectorAt v).on (vactFld v) = s.vecActive v ∧
      ∀ k, k ≠ v → (s.revectorAt v).on (vactFld k) = s.on (vactFld k) := by
  have hput : ∀ x, RegsBut s (s.put (vactFld v) x) vactRegs := fun x => (RegsBut.refl s _).put _ _ (vactFld_mem hv)
  have hother : ∀ x k, k ≠ v → (s.put (vactFld v) x).on (vactFld k) = s.on (vactFld k) := fun x k hk => s.on_put_apart _ (vactFld_apart hk)
  have hset := fun b => s.on_put_bit (vactFld_fit v) rfl b
  unfold State.revectorAt
  cases ha : s.vecActive v <;> cases hw : s.on (vactFld v)
  · exact ⟨(OnlyRegs.refl s).pending, .refl s _, hw, fun _ _ => rfl⟩
  · exact ⟨(s.put_onlyRegs _ _).pending, hput 0, hset false, hother 0⟩
  · exact ⟨(s.put_onlyRegs _ _).pending.trans (State.setPending_onlyRegsPending _ v), hput 1, hset true, hother 1⟩
  · exact ⟨(OnlyRegs.refl s).pending, .refl s _, hw, fun _ _ => rfl⟩

/-- R406. What bringing every vector up to date does. -/
theorem State.revector_spec (s : State) :
    OnlyRegsPending s s.revector ∧ RegsBut s s.revector vactRegs ∧ ∀ v, v < 64 → s.revector.on (vactFld v) = s.vecActive v := by
  rw [State.revector_eq]
  refine foldRange_induct (P := fun n u => OnlyRegsPending s u ∧ RegsBut s u vactRegs ∧ ∀ v, v < n → u.on (vactFld v) = s.vecActive v)
    ⟨(OnlyRegs.refl s).pending, .refl s _, fun v hv => absurd hv v.not_lt_zero⟩ 64 fun k hk u hu => ?_
  obtain ⟨honly, hregs, hactive⟩ := hu
  obtain ⟨honly', hregs', hset, hother⟩ := u.revectorAt_spec hk
  refine ⟨honly.trans honly', hregs.trans hregs', fun v hv => ?_⟩
  by_cases hvk : v = k
  · rw [hvk, hset, State.vecActive_congr hregs]
  · rw [hother v hvk, hactive v (by omega)]

end Sys2Proof.Machine
end

section
/-! ### INT_CAUSE and messages: the commands (R406) -/
namespace Sys2Proof.Machine

/-- R406. A written cause makes the vector that it is mapped to pending, where that vector is active. -/
def State.rependAt (group mask : Nat) (s : State) (b : Nat) : State :=
  let v := s.get (causeVecFld (32 * group + b))
  if bitAt mask b && s.on (vactFld v) then s.setPending v else s

theorem State.causeClear_eq (s : State) (group mask : Nat) :
    s.causeClear group mask =
      foldRange 32 (State.rependAt group mask) (s.setWord (0x30000 + 4 * group) (s.word (0x30000 + 4 * group) &&& (2 ^ 32 - 1 - mask % 2 ^ 32))).revector := rfl

/-- Nothing but the pending bits changes. -/
def OnlyPending (s u : State) : Prop := u = { s with int := { s.int with pba := u.int.pba } }

theorem OnlyPending.refl (s : State) : OnlyPending s s := rfl

theorem OnlyPending.setPending {s u : State} (h : OnlyPending s u) (v : Nat) : OnlyPending s (u.setPending v) := by
  unfold OnlyPending at *
  rw [h]
  rfl

theorem OnlyPending.word {s u : State} (h : OnlyPending s u) (a : Nat) : u.word a = s.word a := by
  rw [State.word, State.word, h]

theorem OnlyPending.get {s u : State} (h : OnlyPending s u) (g : Fld) : u.get g = s.get g := by rw [State.get, State.get, h.word]

theorem OnlyPending.on {s u : State} (h : OnlyPending s u) (g : Fld) : u.on g = s.on g := by rw [State.on, State.on, h.get]

theorem OnlyPending.regsPending {s u : State} (h : OnlyPending s u) : OnlyRegsPending s u := by
  unfold OnlyPending at h
  unfold OnlyRegsPending
  rw [h]

/-- A vector's number has six bits. -/
theorem State.causeVec_lt (s : State) (c : Nat) : s.get (causeVecFld c) < 64 := bitsOf_lt _ _ 6

/-- R406. What the written causes make pending. -/
theorem State.repend_spec (s : State) (group mask : Nat) :
    OnlyPending s (foldRange 32 (State.rependAt group mask) s) ∧
      ∀ b, b < 32 → bitAt mask b = true → s.on (vactFld (s.get (causeVecFld (32 * group + b)))) = true →
        (foldRange 32 (State.rependAt group mask) s).pends (s.get (causeVecFld (32 * group + b))) = true := by
  refine foldRange_induct (P := fun n u => OnlyPending s u ∧ ∀ b, b < n → bitAt mask b = true →
    s.on (vactFld (s.get (causeVecFld (32 * group + b)))) = true → u.pends (s.get (causeVecFld (32 * group + b))) = true)
    ⟨OnlyPending.refl s, fun b hb => absurd hb b.not_lt_zero⟩ 32 fun k _ u hu => ?_
  obtain ⟨honly, hpend⟩ := hu
  have hv := s.causeVec_lt (32 * group + k)
  unfold State.rependAt
  simp only [honly.get, honly.on]
  split
  · refine ⟨honly.setPending _, fun b hb hmask hact => ?_⟩
    rw [State.pends_setPending _ hv]
    by_cases hbk : b = k
    · simp [hbk]
    · simp [hpend b (by omega) hmask hact]
  · rename_i hno
    refine ⟨honly, fun b hb hmask hact => ?_⟩
    by_cases hbk : b = k
    · subst hbk
      exact absurd (by simp [hmask, hact]) hno
    · exact hpend b (by omega) hmask hact

/-- R405, R406. INT_CAUSE has been written. -/
theorem intCauseClear_clears (s : State) (g mask : Nat) (hg : g < 8) (hmask : mask < 2 ^ 32) :
    ∃ u, exec (.intCauseClear g mask) s = .next u ∧ u.word (0x30000 + 4 * g) = s.word (0x30000 + 4 * g) &&& (2 ^ 32 - 1 - mask) ∧
      (∀ v, v < 64 → u.on (vactFld v) = u.vecActive v) ∧
      (∀ b, b < 32 → bitAt mask b = true → u.vecActive (s.get (causeVecFld (32 * g + b))) = true →
        u.int.pba.toNat.testBit (s.get (causeVecFld (32 * g + b))) = true) ∧
      RegsBut s u [0x30000 + 4 * g, 0x30200, 0x30204] ∧ u = { s with regs := u.regs, int := { s.int with pba := u.int.pba } } := by
  refine ⟨s.causeClear g mask, rfl, ?_⟩
  rw [State.causeClear_eq, Nat.mod_eq_of_lt hmask]
  have hlt : s.word (0x30000 + 4 * g) &&& (2 ^ 32 - 1 - mask) < 2 ^ 32 := Nat.and_le_left.trans_lt (s.word_lt _)
  generalize hs1 : s.setWord (0x30000 + 4 * g) (s.word (0x30000 + 4 * g) &&& (2 ^ 32 - 1 - mask)) = s1
  have hword : s1.word (0x30000 + 4 * g) = s.word (0x30000 + 4 * g) &&& (2 ^ 32 - 1 - mask) := by
    rw [← hs1, State.word_setWord, if_pos rfl, Nat.mod_eq_of_lt hlt]
  have hother : ∀ a, a ≠ 0x30000 + 4 * g → s1.word a = s.word a := fun a ha => by rw [← hs1, State.word_setWord_other _ _ ha]
  have honly1 : OnlyRegsPending s s1 := by rw [← hs1]; exact rfl
  obtain ⟨honly2, hregs2, hact2⟩ := s1.revector_spec
  generalize s1.revector = t at *
  obtain ⟨honly, hpend⟩ := t.repend_spec g mask
  generalize foldRange 32 (State.rependAt g mask) t = u at *
  have hregs : ∀ a, a ∉ vactRegs → u.word a = s1.word a := fun a ha => (honly.word a).trans (hregs2 a ha)
  have hactive : ∀ v, v < 64 → u.on (vactFld v) = u.vecActive v := fun v hv => by
    rw [honly.on, hact2 v hv, State.vecActive_congr hregs]
  have hvec : ∀ b, b < 32 → t.get (causeVecFld (32 * g + b)) = s.get (causeVecFld (32 * g + b)) := fun b hb => by
    rw [State.get, State.get, hregs2 _ (by simp only [vactRegs, causeVecFld, List.mem_pair]; omega), hother _ (by simp only [causeVecFld]; omega)]
  refine ⟨?_, hactive, fun b hb hm hact => ?_, fun a ha => ?_, (honly1.trans honly2).trans honly.regsPending⟩
  · rw [hregs _ (by simp only [vactRegs, List.mem_pair]; omega), hword]
  · rw [← hvec b hb] at hact ⊢
    rw [← hactive _ (t.causeVec_lt _), honly.on] at hact
    exact hpend b hb hm hact
  · simp only [List.mem_cons, List.not_mem_nil, or_false, not_or] at ha
    rw [hregs a (by simp only [vactRegs, List.mem_pair]; omega), hother a ha.1]

/-- R406. A message is sent where nothing holds it back. -/
theorem msixMessage_sends (s : State) (v : Nat) (hv : v < 64) :
    let e := s.msixEntry v
    if s.int.pba.toNat.testBit v = true ∧ e.masked = false ∧ s.int.fmask = false ∧ s.hst.d3 = false ∧ s.on R.HST_STAT_LINK_UP = true then
      ∃ u, exec (.msixMessage v) s = .next u ∧ u.out = .msix v e.addr e.data :: s.out ∧
        (∀ k, k < 64 → u.int.pba.toNat.testBit k = (s.int.pba.toNat.testBit k && decide (k ≠ v))) ∧ u = { s with int := { s.int with pba := u.int.pba }, out := u.out }
    else exec (.msixMessage v) s = .next s := by
  intro e
  have hexec : exec (.msixMessage v) s = .next (
    if s.int.pba.toNat.testBit v && !e.masked && !s.int.fmask && !s.hst.d3 && s.on R.HST_STAT_LINK_UP then
      ({ s with int := { s.int with pba := s.int.pba &&& ~~~(1#64 <<< v) } } : State).emit (.msix v e.addr e.data)
    else s) := rfl
  split
  · rename_i h
    obtain ⟨hpend, hmask, hfmask, hd3, hlink⟩ := h
    rw [if_pos (by simp [hpend, hmask, hfmask, hd3, hlink])] at hexec
    exact ⟨_, hexec, rfl, fun k hk => testBit_clear _ hv hk, rfl⟩
  · rename_i h
    rw [hexec, if_neg]
    simpa [and_assoc] using h

end Sys2Proof.Machine
end

section
/-! ### Errors of the host window (R359, R397) -/
namespace Sys2Proof.Machine

/-- R397. The latch of a host-window error, once it is counted. -/
def State.perrLatch (s : State) (off kind : Nat) : State :=
  if s.on R.HST_PERR_HI_VALID then s else
    (((s.put R.HST_PERR_LO_OFFSET off).put R.HST_PERR_HI_OFFSET (off / 2 ^ 32)).put R.HST_PERR_HI_KIND kind).put R.HST_PERR_HI_VALID 1

theorem State.hostWinErr_eq (s : State) (off kind : Nat) :
    s.hostWinErr off kind = ((s.bump (R.HST_CNT_COUNT 1)).perrLatch off kind).raise Irq.HST_PERR := rfl

theorem State.perrLatch_onlyRegs (s : State) (off kind : Nat) : OnlyRegs s (s.perrLatch off kind) := by
  unfold State.perrLatch
  split
  · exact .refl s
  · exact (((s.put_onlyRegs _ _).put _ _).put _ _).put _ _

/-- The latch is held afterwards, new or as it was, and the counter stays. -/
theorem State.perrLatch_holds (s : State) {kind : Nat} (off : Nat) (hkind : kind < 16) :
    (s.perrLatch off kind).get R.HST_PERR_HI_VALID = 1 ∧
    (s.on R.HST_PERR_HI_VALID = false →
      (s.perrLatch off kind).get R.HST_PERR_LO_OFFSET = off % 2 ^ 32 ∧ (s.perrLatch off kind).get R.HST_PERR_HI_KIND = kind) ∧
    (s.perrLatch off kind).get (R.HST_CNT_COUNT 1) = s.get (R.HST_CNT_COUNT 1) := by
  unfold State.perrLatch
  split
  · rename_i hv
    exact ⟨s.get_eq_one rfl hv, fun h => by simp [hv] at h, rfl⟩
  · refine ⟨State.get_put_same _ _ _ (by decide), fun _ => ⟨?_, ?_⟩, ?_⟩
    all_goals simp (disch := decide) only [State.get_put_apart, State.get_put_same]
    · rfl
    · exact Nat.mod_eq_of_lt hkind

theorem State.hostWinErr_frame (s : State) (off kind : Nat) : OnlyRegsInt s (s.hostWinErr off kind) :=
  (((OnlyRegs.refl s).bump _).trans (State.perrLatch_onlyRegs _ _ _)).raise _

/-- R397. What recording a host-window error does. -/
theorem State.hostWinErr_records (s : State) {kind : Nat} (off : Nat) (hkind : kind < 16) :
    (s.hostWinErr off kind).get (R.HST_CNT_COUNT 1) = (s.get (R.HST_CNT_COUNT 1) + 1) % 2 ^ 32 ∧
    (s.hostWinErr off kind).get (causeFld Irq.HST_PERR) = 1 ∧ (s.hostWinErr off kind).get R.HST_PERR_HI_VALID = 1 ∧
    (s.on R.HST_PERR_HI_VALID = false →
      (s.hostWinErr off kind).get R.HST_PERR_LO_OFFSET = off % 2 ^ 32 ∧ (s.hostWinErr off kind).get R.HST_PERR_HI_KIND = kind) := by
  have hc : Irq.HST_PERR < 256 := by decide
  have hon : (s.bump (R.HST_CNT_COUNT 1)).on R.HST_PERR_HI_VALID = s.on R.HST_PERR_HI_VALID := State.on_bump_apart s (by decide)
  obtain ⟨hvalid, hnew, hcnt⟩ := (s.bump (R.HST_CNT_COUNT 1)).perrLatch_holds off hkind
  rw [hon] at hnew
  have hraise : ∀ g : Fld, g.addr / 0x10000 = 2 →
      (s.hostWinErr off kind).get g = ((s.bump (R.HST_CNT_COUNT 1)).perrLatch off kind).get g := fun g hg => by
    rw [State.hostWinErr_eq, State.get_raise_other _ hc (by omega)]
  refine ⟨?_, State.raise_sets _ hc, ?_, fun hv => ?_⟩
  · rw [hraise (R.HST_CNT_COUNT 1) rfl, hcnt, State.get_bump_same _ _ (by decide)]; rfl
  · rw [hraise R.HST_PERR_HI_VALID rfl, hvalid]
  · rw [hraise R.HST_PERR_LO_OFFSET rfl, hraise R.HST_PERR_HI_KIND rfl]
    exact hnew hv

/-- R359, R397. HOST_WINDOW_ERROR records the error, and where it failed outside the next request to its offset. -/
theorem hostWindowError_records (s : State) (off kind : Nat) (hkind : kind < 8) :
    ∃ u, exec (.hostWindowError off kind) s = .next u ∧ u.get (R.HST_CNT_COUNT 1) = (s.get (R.HST_CNT_COUNT 1) + 1) % 2 ^ 32 ∧
      u.get (causeFld Irq.HST_PERR) = 1 ∧ u.get R.HST_PERR_HI_VALID = 1 ∧
      (s.on R.HST_PERR_HI_VALID = false → u.get R.HST_PERR_LO_OFFSET = off % 2 ^ 32 ∧ u.get R.HST_PERR_HI_KIND = kind) ∧ u.mem = s.mem ∧
      u.hst = (if 1 ≤ kind ∧ kind ≤ 3 then { s.hst with failed := tabPut s.hst.failed off kind } else s.hst) := by
  obtain ⟨hcnt, hirq, hvalid, hnew⟩ := s.hostWinErr_records off (hkind.trans (by decide))
  have hframe := s.hostWinErr_frame off kind
  have hmem : (s.hostWinErr off kind).mem = s.mem := by rw [hframe]
  have hhst : (s.hostWinErr off kind).hst = s.hst := by rw [hframe]
  refine ⟨_, rfl, ?_⟩
  split
  · exact ⟨hcnt, hirq, hvalid, hnew, hmem, congrArg (fun h : HostSt => { h with failed := tabPut h.failed off kind }) hhst⟩
  · exact ⟨hcnt, hirq, hvalid, hnew, hmem, hhst⟩

end Sys2Proof.Machine
end

section
/-! ### The endpoint's reset and the link (R407, R408) -/
namespace Sys2Proof.Machine

/-- R407. A work ring that is off, with HEAD and CQH 0. -/
def State.RingOff (s : State) (n : Nat) : Prop :=
  s.get (R.HST_WR_CFG_EN n) = 0 ∧ s.get (R.HST_WR_HEAD_HEAD n) = 0 ∧ s.get (R.HST_WR_CQH_CQH n) = 0 ∧ s.get (R.HST_WR_STAT_STATE n) = 0

/-- The registers of work ring `n`. -/
def ringRegs (n : Nat) : List Nat := [0x21010 + n * 0x40, 0x21018 + n * 0x40, 0x2101C + n * 0x40, 0x21020 + n * 0x40]

/-- Nothing but registers and the work rings changes. -/
def OnlyRegsRings (s u : State) : Prop := u = { s with regs := u.regs, hst := { s.hst with rings := u.hst.rings } }

theorem OnlyRegsRings.trans {s u v : State} (h1 : OnlyRegsRings s u) (h2 : OnlyRegsRings u v) : OnlyRegsRings s v := by
  unfold OnlyRegsRings at *
  rw [h1] at h2
  exact h2

theorem OnlyRegs.regsRings {s u : State} (h : OnlyRegs s u) : OnlyRegsRings s u := by
  unfold OnlyRegs at h
  unfold OnlyRegsRings
  rw [h]

theorem OnlyRegsRings.mem {s u : State} (h : OnlyRegsRings s u) : u.mem = s.mem := by rw [h]
theorem OnlyRegsRings.aq {s u : State} (h : OnlyRegsRings s u) : u.aq = s.aq := by rw [h]
theorem OnlyRegsRings.int {s u : State} (h : OnlyRegsRings s u) : u.int = s.int := by rw [h]
theorem OnlyRegsRings.hst {s u : State} (h : OnlyRegsRings s u) : u.hst = { s.hst with rings := u.hst.rings } := congrArg State.hst h

@[simp] theorem State.put_wring (s : State) (f : Fld) (v n : Nat) : (s.put f v).wring n = s.wring n := rfl

theorem State.wring_setWring (s : State) (n : Nat) (r : WorkRing) (k : Nat) : (s.setWring n r).wring k = if k = n then r else s.wring k := by
  simp only [State.wring, State.setWring, mapGet_mapPut]

/-- R399. A ring whose EN is 0 is off. -/
theorem State.ringEnable_off (s : State) (n : Nat) (was : Bool) (h : s.on (R.HST_WR_CFG_EN n) = false) :
    s.ringEnable n was = (s.put (R.HST_WR_STAT_STATE n) 0).put (R.HST_WR_STAT_CQ_FULL n) 0 := by
  simp [State.ringEnable, h]

/-- The fields that a ring's reset clears fit their words, and are apart from one another. -/
theorem ringFlds_apart (n : Nat) :
    (R.HST_WR_HEAD_HEAD n).apart (R.HST_WR_CFG_EN n) = true ∧ (R.HST_WR_CQH_CQH n).apart (R.HST_WR_CFG_EN n) = true ∧
    (R.HST_WR_STAT_STATE n).apart (R.HST_WR_CFG_EN n) = true ∧ (R.HST_WR_STAT_CQ_FULL n).apart (R.HST_WR_CFG_EN n) = true ∧
    (R.HST_WR_CQH_CQH n).apart (R.HST_WR_HEAD_HEAD n) = true ∧ (R.HST_WR_STAT_STATE n).apart (R.HST_WR_HEAD_HEAD n) = true ∧
    (R.HST_WR_STAT_CQ_FULL n).apart (R.HST_WR_HEAD_HEAD n) = true ∧ (R.HST_WR_STAT_STATE n).apart (R.HST_WR_CQH_CQH n) = true ∧
    (R.HST_WR_STAT_CQ_FULL n).apart (R.HST_WR_CQH_CQH n) = true ∧ (R.HST_WR_STAT_CQ_FULL n).apart (R.HST_WR_STAT_STATE n) = true := by
  simp [Fld.apart, R.HST_WR_CFG_EN, R.HST_WR_HEAD_HEAD, R.HST_WR_CQH_CQH, R.HST_WR_STAT_STATE, R.HST_WR_STAT_CQ_FULL]

/-- R407. A work ring's EN, HEAD and CQH are cleared. -/
def State.ringClear (s : State) (n : Nat) : State := ((s.put (R.HST_WR_CFG_EN n) 0).put (R.HST_WR_HEAD_HEAD n) 0).put (R.HST_WR_CQH_CQH n) 0

theorem State.ringReset_eq (s : State) (n : Nat) :
    s.ringReset n = ((s.ringClear n).setWring n { (s.ringClear n).wring n with tail := 0, taken := 0 }).ringEnable n true := rfl

theorem State.ringClear_frame (s : State) (n : Nat) :
    OnlyRegs s (s.ringClear n) ∧ RegsBut s (s.ringClear n) (ringRegs n) ∧ ∀ k, (s.ringClear n).wring k = s.wring k :=
  ⟨((s.put_onlyRegs _ _).put _ _).put _ _,
    (((RegsBut.refl s _).put _ _ (.head _)).put _ _ (.tail _ (.head _))).put _ _ (.tail _ (.tail _ (.head _))),
    fun k => by rw [State.ringClear, State.put_wring, State.put_wring, State.put_wring]⟩

theorem State.ringClear_clears (s : State) (n : Nat) :
    (s.ringClear n).get (R.HST_WR_CFG_EN n) = 0 ∧ (s.ringClear n).get (R.HST_WR_HEAD_HEAD n) = 0 ∧ (s.ringClear n).get (R.HST_WR_CQH_CQH n) = 0 := by
  obtain ⟨hHeadEn, hCqhEn, -, -, hCqhHead, -⟩ := ringFlds_apart n
  refine ⟨?_, ?_, State.get_put_zero _ _ (by simp [R.HST_WR_CQH_CQH])⟩
  · rw [State.ringClear, State.get_put_apart _ _ hCqhEn, State.get_put_apart _ _ hHeadEn, State.get_put_zero _ _ (by simp [R.HST_WR_CFG_EN])]
  · rw [State.ringClear, State.get_put_apart _ _ hCqhHead, State.get_put_zero _ _ (by simp [R.HST_WR_HEAD_HEAD])]

/-- R407. What the reset of one work ring does. -/
theorem State.ringReset_spec (s : State) (n : Nat) :
    OnlyRegsRings s (s.ringReset n) ∧ RegsBut s (s.ringReset n) (ringRegs n) ∧ (s.ringReset n).RingOff n ∧
      ∀ k, ((s.ringReset n).wring k).cmds = (s.wring k).cmds := by
  obtain ⟨-, -, hStEn, hFullEn, -, hStHead, hFullHead, hStCqh, hFullCqh, hFullSt⟩ := ringFlds_apart n
  obtain ⟨honly, hbut, hwring⟩ := s.ringClear_frame n
  obtain ⟨hen, hhead, hcqh⟩ := s.ringClear_clears n
  rw [State.ringReset_eq]
  generalize s.ringClear n = t at *
  generalize hr : ({ t.wring n with tail := 0, taken := 0 } : WorkRing) = r
  rw [State.ringEnable_off _ _ _ (by simp [State.on, hen])]
  refine ⟨honly.regsRings.trans (OnlyRegsRings.trans (u := t.setWring n r) rfl ((State.put_onlyRegs _ _ _).put _ _).regsRings), ?_, ⟨?_, ?_, ?_, ?_⟩, fun k => ?_⟩
  · have hset : RegsBut s (t.setWring n r) (ringRegs n) := hbut
    exact (hset.put _ _ (by simp [ringRegs, R.HST_WR_STAT_STATE])).put _ _ (by simp [ringRegs, R.HST_WR_STAT_CQ_FULL])
  · rw [State.get_put_apart _ _ hFullEn, State.get_put_apart _ _ hStEn, State.setWring_get, hen]
  · rw [State.get_put_apart _ _ hFullHead, State.get_put_apart _ _ hStHead, State.setWring_get, hhead]
  · rw [State.get_put_apart _ _ hFullCqh, State.get_put_apart _ _ hStCqh, State.setWring_get, hcqh]
  · rw [State.get_put_apart _ _ hFullSt, State.get_put_zero _ _ (by simp [R.HST_WR_STAT_STATE])]
  · rw [State.put_wring, State.put_wring, State.wring_setWring, ← hwring k]
    split
    · rename_i hk
      rw [← hr, hk]
    · rfl

theorem State.RingOff.congr {s u : State} {n : Nat} (h : ∀ a ∈ ringRegs n, u.word a = s.word a) (hs : s.RingOff n) : u.RingOff n := by
  simp only [ringRegs, List.forall_mem_cons, List.not_mem_nil, false_implies, implies_true, and_true] at h
  obtain ⟨hcfg, hhead, hcqh, hstat⟩ := h
  unfold State.RingOff State.get at *
  rwa [show u.word (R.HST_WR_CFG_EN n).addr = _ from hcfg, show u.word (R.HST_WR_HEAD_HEAD n).addr = _ from hhead,
    show u.word (R.HST_WR_CQH_CQH n).addr = _ from hcqh, show u.word (R.HST_WR_STAT_STATE n).addr = _ from hstat]

/-- R407. What the reset of every work ring does. -/
theorem State.ringsReset_spec (s : State) :
    OnlyRegsRings s (foldRange 32 State.ringReset s) ∧
      (∀ a, (a < 0x21000 ∨ 0x22000 ≤ a) → (foldRange 32 State.ringReset s).word a = s.word a) ∧
      (∀ n, n < 32 → (foldRange 32 State.ringReset s).RingOff n) ∧
      ∀ k, ((foldRange 32 State.ringReset s).wring k).cmds = (s.wring k).cmds := by
  refine foldRange_induct (P := fun m u => OnlyRegsRings s u ∧ (∀ a, (a < 0x21000 ∨ 0x22000 ≤ a) → u.word a = s.word a) ∧
    (∀ n, n < m → u.RingOff n) ∧ ∀ k, (u.wring k).cmds = (s.wring k).cmds)
    ⟨(OnlyRegs.refl s).regsRings, fun _ _ => rfl, fun n hn => absurd hn n.not_lt_zero, fun _ => rfl⟩ 32 fun m hm u hu => ?_
  obtain ⟨honly, hout, hoff, hcmds⟩ := hu
  obtain ⟨honly', hbut', hoff', hcmds'⟩ := u.ringReset_spec m
  refine ⟨honly.trans honly', fun a ha => (hbut' a ?_).trans (hout a ha), fun n hn => ?_, fun k => (hcmds' k).trans (hcmds k)⟩
  · simp only [ringRegs, List.mem_cons, List.not_mem_nil, or_false]
    omega
  · by_cases hnm : n = m
    · rw [hnm]; exact hoff'
    · refine (hoff n (by omega)).congr fun a ha => hbut' a ?_
      simp only [ringRegs, List.mem_cons, List.not_mem_nil, or_false] at ha ⊢
      omega

end Sys2Proof.Machine
end

section
/-! ### The endpoint's reset, the link's training, and O49 (R16, R17, R397, R405–R408) -/
namespace Sys2Proof.Machine

/-- R407. The registers of the host window and of BAR2's base. -/
def hwinRegs : List Nat := [R.HST_CTL_HWIN_EN.addr, R.HST_BAR2_BASE_BASE.addr, R.HST_HWIN_LO_ADDR.addr, R.HST_HWIN_HI_ADDR.addr]

/-- R407. They are cleared. -/
def State.hwinClear (s : State) : State :=
  (((s.setWord R.HST_CTL_HWIN_EN.addr 0).setWord R.HST_BAR2_BASE_BASE.addr 0).setWord R.HST_HWIN_LO_ADDR.addr 0).setWord R.HST_HWIN_HI_ADDR.addr 0

theorem State.hwinClear_spec (s : State) :
    OnlyRegs s s.hwinClear ∧ RegsBut s s.hwinClear hwinRegs ∧ s.hwinClear.get R.HST_CTL_HWIN_EN = 0 := by
  refine ⟨((((OnlyRegs.refl s).setWord _ _).setWord _ _).setWord _ _).setWord _ _,
    ((((RegsBut.refl s hwinRegs).setWord _ (by decide)).setWord _ (by decide)).setWord _ (by decide)).setWord _ (by decide), ?_⟩
  rw [State.get, State.hwinClear, State.word_setWord_other _ _ (by decide), State.word_setWord_other _ _ (by decide),
    State.word_setWord_other _ _ (by decide), State.word_setWord, if_pos rfl]
  rfl

/-- R407. The endpoint's own state after its reset: D0, BAR2 of 256 MiB, every vector masked and the function not. -/
def State.endpointClear (s : State) : State :=
  { s with int := { s.int with msix := [], fmask := false }, hst := { s.hst with bar2Log := 28, d3 := false } }

@[simp] theorem State.endpointClear_word (s : State) (a : Nat) : s.endpointClear.word a = s.word a := rfl
@[simp] theorem State.endpointClear_wring (s : State) (n : Nat) : s.endpointClear.wring n = s.wring n := rfl
@[simp] theorem State.endpointClear_mem (s : State) : s.endpointClear.mem = s.mem := rfl
@[simp] theorem State.endpointClear_aq (s : State) : s.endpointClear.aq = s.aq := rfl

/-- The endpoint's reset before HST_LINK is raised. -/
def State.endpointStop (s : State) : State := foldRange 32 State.ringReset s.endpointClear.hwinClear

theorem State.endpointReset_eq (s : State) (perst : Bool) :
    s.endpointReset perst = (s.endpointStop.bump (R.HST_CNT_COUNT (if perst then 7 else 6))).raise Irq.HST_LINK := rfl

/-- R407. The registers and the state that the endpoint's reset clears. -/
theorem State.endpointStop_spec (s : State) :
    (∀ a, (a < 0x21000 ∨ 0x22000 ≤ a) → a ∉ hwinRegs → s.endpointStop.word a = s.word a) ∧ s.endpointStop.get R.HST_CTL_HWIN_EN = 0 ∧
    s.endpointStop.hst = { s.hst with bar2Log := 28, d3 := false, rings := s.endpointStop.hst.rings } ∧ s.endpointStop.int.msix = [] ∧
    (∀ n, n < 32 → s.endpointStop.RingOff n ∧ (s.endpointStop.wring n).cmds = (s.wring n).cmds) ∧
    s.endpointStop.mem = s.mem ∧ s.endpointStop.aq = s.aq := by
  obtain ⟨honlyW, hbutW, henW⟩ := s.endpointClear.hwinClear_spec
  have hwring : ∀ n, s.endpointClear.hwinClear.wring n = s.wring n := fun n => by
    rw [State.wring, honlyW, ← s.endpointClear_wring n, State.wring]
  obtain ⟨honly, hregs, hoff, hcmds⟩ := s.endpointClear.hwinClear.ringsReset_spec
  refine ⟨fun a ha hw => ?_, ?_, ?_, ?_, fun n hn => ⟨hoff n hn, ?_⟩, ?_, ?_⟩
  · rw [State.endpointStop, hregs a ha, hbutW a hw, State.endpointClear_word]
  · rw [State.endpointStop, State.get, hregs _ (by decide), ← State.get, henW]
  · rw [State.endpointStop, honly.hst, honlyW]
    rfl
  · rw [State.endpointStop, honly.int, honlyW]
    rfl
  · rw [State.endpointStop, hcmds n, hwring n]
  · rw [State.endpointStop, honly.mem, honlyW.mem, State.endpointClear_mem]
  · rw [State.endpointStop, honly.aq, honlyW, State.endpointClear_aq]

/-- Raising a cause and counting leave the work rings of the endpoint. -/
theorem State.endpointReset_frame (s : State) (perst : Bool) : OnlyRegsInt s.endpointStop (s.endpointReset perst) :=
  ((OnlyRegs.refl s.endpointStop).bump _).raise _

theorem State.raise_msix (s : State) (c : Nat) : (s.raise c).int.msix = s.int.msix := by
  unfold State.raise
  dsimp only
  split <;> rfl

theorem State.word_endpointReset (s : State) (perst : Bool) {a : Nat} (h3 : a / 0x10000 ≠ 3)
    (hcnt : a ≠ (R.HST_CNT_COUNT (if perst then 7 else 6)).addr) : (s.endpointReset perst).word a = s.endpointStop.word a := by
  rw [State.endpointReset_eq, State.word_raise_other _ (by decide) h3, State.bump, State.bumpBy, State.word_put_other _ _ _ hcnt]

theorem State.get_endpointReset_count (s : State) (perst : Bool) :
    (s.endpointReset perst).get (R.HST_CNT_COUNT (if perst then 7 else 6)) = (s.get (R.HST_CNT_COUNT (if perst then 7 else 6)) + 1) % 2 ^ 32 := by
  obtain ⟨hword, -⟩ := s.endpointStop_spec
  have hold : s.endpointStop.get (R.HST_CNT_COUNT (if perst then 7 else 6)) = s.get (R.HST_CNT_COUNT (if perst then 7 else 6)) := by
    rw [State.get, State.get, hword _ (by cases perst <;> decide) (by cases perst <;> decide)]
  rw [State.endpointReset_eq, State.get_raise_other _ (by decide) (by cases perst <;> decide), State.get_bump_same _ _ (by cases perst <;> decide), hold]
  rfl

/-- R407. The link is down. -/
def State.linkOff (s : State) : State := ((s.put R.HST_STAT_LINK_UP 0).put R.HST_STAT_SPEED 0).put R.HST_STAT_WIDTH 0

theorem State.linkOff_spec (s : State) :
    OnlyRegs s s.linkOff ∧ RegsBut s s.linkOff [R.HST_STAT_LINK_UP.addr] ∧ s.linkOff.get R.HST_STAT_LINK_UP = 0 := by
  refine ⟨((s.put_onlyRegs _ _).put _ _).put _ _, (((RegsBut.refl s _).put _ _ (by decide)).put _ _ (by decide)).put _ _ (by decide), ?_⟩
  simp (disch := decide) only [State.linkOff, State.get_put_apart, State.get_put_zero]

/-- R407. PERST_N is asserted. -/
def State.perstOn (s : State) : State := ({ s with hst := { s.hst with perst := true } } : State).put R.HST_STAT_PERST 1

theorem State.perstOn_spec (s : State) :
    RegsBut s s.perstOn [R.HST_STAT_LINK_UP.addr] ∧ s.perstOn.get R.HST_STAT_LINK_UP = s.get R.HST_STAT_LINK_UP ∧
      s.perstOn.get R.HST_STAT_PERST = 1 ∧ s.perstOn.hst = { s.hst with perst := true } ∧ s.perstOn.mem = s.mem ∧ s.perstOn.aq = s.aq := by
  refine ⟨fun a ha => State.word_put_other _ _ _ (fun h => ha (by rw [h]; decide)), State.get_put_apart _ _ (by decide),
    State.get_put_same _ _ _ (by decide), rfl, rfl, rfl⟩

/-- R407. The link after a reset of the endpoint of a kind: Function Level Reset (2) leaves it up, and PERST_N (0) is shown. -/
def State.linkDown (s : State) (kind : Nat) : State :=
  let s := if kind = 2 then s else s.linkOff
  if kind = 0 then s.perstOn else s

theorem State.linkDown_spec (s : State) (kind : Nat) :
    RegsBut s (s.linkDown kind) [R.HST_STAT_LINK_UP.addr] ∧
    (s.linkDown kind).get R.HST_STAT_LINK_UP = (if kind = 2 then s.get R.HST_STAT_LINK_UP else 0) ∧
    (kind = 0 → (s.linkDown kind).get R.HST_STAT_PERST = 1 ∧ (s.linkDown kind).hst.perst = true) ∧
    (s.linkDown kind).hst.rings = s.hst.rings ∧ (s.linkDown kind).mem = s.mem ∧ (s.linkDown kind).aq = s.aq := by
  obtain ⟨honly, hbut, hoff⟩ := s.linkOff_spec
  unfold State.linkDown
  by_cases h2 : kind = 2
  · subst h2
    exact ⟨.refl s _, rfl, fun h => absurd h (by decide), rfl, rfl, rfl⟩
  by_cases h0 : kind = 0
  · obtain ⟨hbut', hlink, hperst, hhst, hmem, haq⟩ := s.linkOff.perstOn_spec
    simp only [if_neg h2, if_pos h0]
    refine ⟨hbut.trans hbut', hlink.trans hoff, fun _ => ⟨hperst, by rw [hhst]⟩, ?_, hmem.trans honly.mem, ?_⟩
    · rw [hhst, honly]
    · rw [haq, honly]
  · simp only [if_neg h2, if_neg h0]
    exact ⟨hbut, hoff, fun h => absurd h h0, by rw [honly], honly.mem, by rw [honly]⟩

theorem exec_endpointReset (s : State) (kind : Nat) : exec (.endpointReset kind) s = .next ((s.linkDown kind).endpointReset (decide (kind = 0))) := rfl

/-- R407. ENDPOINT_RESET. -/
theorem endpointReset_resets (s : State) (k : Nat) :
    ∃ u, exec (.endpointReset k) s = .next u ∧ u.get R.HST_STAT_LINK_UP = (if k = 2 then s.get R.HST_STAT_LINK_UP else 0) ∧ u.get R.HST_CTL_HWIN_EN = 0 ∧
      u.hst.bar2Log = 28 ∧ u.hst.d3 = false ∧ (∀ v, (u.msixEntry v).masked = true) ∧ u.get (causeFld Irq.HST_LINK) = 1 ∧
      (k = 0 → u.get R.HST_STAT_PERST = 1 ∧ u.hst.perst = true) ∧
      (let c := if k = 0 then 7 else 6
       u.get (R.HST_CNT_COUNT c) = (s.get (R.HST_CNT_COUNT c) + 1) % 2 ^ 32) ∧
      (∀ n, n < 32 → u.get (R.HST_WR_CFG_EN n) = 0 ∧ u.get (R.HST_WR_HEAD_HEAD n) = 0 ∧ u.get (R.HST_WR_CQH_CQH n) = 0 ∧ u.get (R.HST_WR_STAT_STATE n) = 0 ∧
        (u.wring n).cmds = (s.wring n).cmds) ∧ u.mem = s.mem ∧ u.aq = s.aq := by
  obtain ⟨hbutL, hlink, hperst, hringsL, hmemL, haqL⟩ := s.linkDown_spec k
  have hexec := exec_endpointReset s k
  generalize s.linkDown k = t at *
  obtain ⟨hword, hhwin, hhst, hmsix, hrings, hmem, haq⟩ := t.endpointStop_spec
  have hframe := t.endpointReset_frame (decide (k = 0))
  have hcount := t.get_endpointReset_count (decide (k = 0))
  have hreset : ∀ g : Fld, g.addr / 0x10000 = 2 → g.addr < 0x22000 →
      (t.endpointReset (decide (k = 0))).get g = t.endpointStop.get g := fun g h2 hg => by
    rw [State.get, State.get, t.word_endpointReset _ (by omega)]
    simp only [R.HST_CNT_COUNT]
    omega
  have hstat : ∀ g : Fld, g.addr = R.HST_STAT_LINK_UP.addr → (t.endpointReset (decide (k = 0))).get g = t.get g := fun g hg => by
    rw [hreset g (by rw [hg]; decide) (by rw [hg]; decide), State.get, State.get, hword _ (by rw [hg]; decide) (by rw [hg]; decide)]
  have huhst : (t.endpointReset (decide (k = 0))).hst = t.endpointStop.hst := by rw [hframe]
  have hcauses : (t.endpointReset (decide (k = 0))).get (causeFld Irq.HST_LINK) = 1 := State.raise_sets _ (by decide)
  have humsix : (t.endpointReset (decide (k = 0))).int.msix = [] := by
    rw [State.endpointReset_eq, State.raise_msix, State.bump_int, hmsix]
  simp only [decide_eq_true_eq] at hcount
  have hold : t.get (R.HST_CNT_COUNT (if k = 0 then 7 else 6)) = s.get (R.HST_CNT_COUNT (if k = 0 then 7 else 6)) := by
    refine hbutL.get ?_
    simp only [R.HST_CNT_COUNT, R.HST_STAT_LINK_UP, List.mem_singleton]
    omega
  refine ⟨_, hexec, ?_, ?_, ?_, ?_, fun v => ?_, hcauses, fun hk => ⟨?_, ?_⟩, ?_, fun n hn => ?_, ?_, ?_⟩
  · rw [hstat _ rfl, hlink]
  · rw [hreset _ (by decide) (by decide), hhwin]
  · rw [huhst, hhst]
  · rw [huhst, hhst]
  · rw [State.msixEntry, humsix]
    rfl
  · rw [hstat R.HST_STAT_PERST rfl, (hperst hk).1]
  · rw [huhst, hhst]
    exact (hperst hk).2
  · rw [hold] at hcount
    exact hcount
  · obtain ⟨hoff, hcmds⟩ := hrings n hn
    obtain ⟨hen, hhead, hcqh, hstate⟩ := hoff.congr (u := t.endpointReset (decide (k = 0))) fun a ha => by
      simp only [ringRegs, List.mem_cons, List.not_mem_nil, or_false] at ha
      rw [t.word_endpointReset _ (by omega)]
      simp only [R.HST_CNT_COUNT]
      omega
    refine ⟨hen, hhead, hcqh, hstate, ?_⟩
    rw [State.wring, huhst, ← State.wring, hcmds, State.wring, State.wring, hringsL]
  · rw [hframe, hmem, hmemL]
  · rw [hframe, haq, haqL]

/-! #### The link has trained -/

/-- R426, R435. Measuring an eye writes that eye's register alone, and takes free values. -/
theorem State.eyeTake_spec (s : State) {i : Nat} (hi : i < 82) :
    (∀ a, a / 0x10000 ≠ 21 → (s.eyeTake i).word a = s.word a) ∧ (s.eyeTake i).hst = s.hst ∧ (s.eyeTake i).mem = s.mem := by
  refine ⟨fun a ha => ?_, rfl, rfl⟩
  have hh : a ≠ (R.HLT_EYE_HEIGHT i).addr := by simp only [R.HLT_EYE_HEIGHT]; omega
  exact (State.word_put_other _ (R.HLT_EYE_WIDTH i) _ hh).trans (State.word_put_other _ _ _ hh)

/-- R426. The eyes of the first `n` lanes of the PCIe link are measured. -/
def State.eyesTake (s : State) (n : Nat) : State := foldRange n (fun s l => s.eyeTake (66 + l)) s

theorem State.eyesTake_spec (s : State) {n : Nat} (hn : n ≤ 16) :
    (∀ a, a / 0x10000 ≠ 21 → (s.eyesTake n).word a = s.word a) ∧ (s.eyesTake n).hst = s.hst ∧ (s.eyesTake n).mem = s.mem := by
  refine foldRange_induct (P := fun _ (u : State) => (∀ a, a / 0x10000 ≠ 21 → u.word a = s.word a) ∧ u.hst = s.hst ∧ u.mem = s.mem)
    ⟨fun _ _ => rfl, rfl, rfl⟩ n fun l hl u hu => ?_
  obtain ⟨hword, hhst, hmem⟩ := hu
  obtain ⟨hword', hhst', hmem'⟩ := u.eyeTake_spec (show 66 + l < 82 by omega)
  exact ⟨fun a ha => (hword' a ha).trans (hword a ha), hhst'.trans hhst, hmem'.trans hmem⟩

/-- R395, R408. HST_STAT and the endpoint's own state once the link has trained. -/
def State.linkOn (s : State) (speed : Nat) (seen : PcieSeen) : State :=
  (((({ s with hst := { s.hst with perst := false, atomics := seen.atomics } } : State).put R.HST_STAT_PERST 0).put R.HST_STAT_LINK_UP 1).put
    R.HST_STAT_SPEED speed).put R.HST_STAT_WIDTH seen.width

theorem exec_pcieLinkUp (s : State) (speed : Nat) (seen : PcieSeen) :
    exec (.pcieLinkUp speed seen) s = .next ((s.linkOn speed seen).eyesTake (min 16 seen.width)) := rfl

theorem State.linkOn_frame (s : State) (speed : Nat) (seen : PcieSeen) :
    RegsBut s (s.linkOn speed seen) [R.HST_STAT_LINK_UP.addr] ∧
      (s.linkOn speed seen).hst = { s.hst with perst := false, atomics := seen.atomics } ∧ (s.linkOn speed seen).mem = s.mem := by
  refine ⟨?_, rfl, rfl⟩
  have h0 : RegsBut s { s with hst := { s.hst with perst := false, atomics := seen.atomics } } [R.HST_STAT_LINK_UP.addr] := fun _ _ => rfl
  exact (((h0.put R.HST_STAT_PERST 0 (by decide)).put R.HST_STAT_LINK_UP 1 (by decide)).put R.HST_STAT_SPEED speed (by decide)).put
    R.HST_STAT_WIDTH seen.width (by decide)

theorem State.linkOn_stat (s : State) {speed : Nat} {seen : PcieSeen} (hspeed : speed < 8) (hwidth : seen.width < 32) :
    (s.linkOn speed seen).get R.HST_STAT_LINK_UP = 1 ∧ (s.linkOn speed seen).get R.HST_STAT_SPEED = speed ∧
      (s.linkOn speed seen).get R.HST_STAT_WIDTH = seen.width ∧ (s.linkOn speed seen).get R.HST_STAT_PERST = 0 := by
  unfold State.linkOn
  simp (disch := decide) only [State.get_put_apart, State.get_put_same]
  exact ⟨rfl, Nat.mod_eq_of_lt hspeed, Nat.mod_eq_of_lt hwidth, rfl⟩

/-- R108, R395, R408. PCIE_LINK_UP. -/
theorem pcieLinkUp_trains (s : State) (sp w : Nat) (ato : Bool) (hsp : sp < 8) (hw : w < 32) :
    ∃ u, exec (.pcieLinkUp sp ⟨w, ato⟩) s = .next u ∧ u.get R.HST_STAT_LINK_UP = 1 ∧ u.get R.HST_STAT_SPEED = sp ∧ u.get R.HST_STAT_WIDTH = w ∧
      u.get R.HST_STAT_PERST = 0 ∧ u.hst = { s.hst with perst := false, atomics := ato } ∧
      (∀ a, a ≠ R.HST_STAT_LINK_UP.addr → a / 0x10000 ≠ 21 → u.word a = s.word a) ∧ u.mem = s.mem := by
  obtain ⟨hbut, hhst, hmem⟩ := s.linkOn_frame sp ⟨w, ato⟩
  obtain ⟨hlink, hspeed, hwidth, hperst⟩ := s.linkOn_stat (seen := ⟨w, ato⟩) hsp hw
  have hexec := exec_pcieLinkUp s sp ⟨w, ato⟩
  obtain ⟨hword, hhst', hmem'⟩ := (s.linkOn sp ⟨w, ato⟩).eyesTake_spec (Nat.min_le_left 16 w)
  have hstat : ∀ g : Fld, g.addr / 0x10000 = 2 →
      ((s.linkOn sp ⟨w, ato⟩).eyesTake (min 16 w)).get g = (s.linkOn sp ⟨w, ato⟩).get g := fun g hg => by
    rw [State.get, State.get, hword g.addr (by omega)]
  refine ⟨_, hexec, ?_, ?_, ?_, ?_, hhst'.trans hhst, fun a ha h21 => ?_, hmem'.trans hmem⟩
  · exact (hstat R.HST_STAT_LINK_UP rfl).trans hlink
  · exact (hstat R.HST_STAT_SPEED rfl).trans hspeed
  · exact (hstat R.HST_STAT_WIDTH rfl).trans hwidth
  · exact (hstat R.HST_STAT_PERST rfl).trans hperst
  · exact (hword a h21).trans (hbut a (by simpa using ha))

/-- R16, R17. SNAP and the end of a latch. -/
theorem snap_latches (s : State) (b : Nat) (hb : hasSnap b = true) :
    (s.on (snapBusyFld b) = true → exec (.snap b) s = .next s) ∧
    (s.on (snapBusyFld b) = false → ∃ u, exec (.snap b) s = .next u ∧ u.get (snapBusyFld b) = 1 ∧ u.get (snapFld b) = 1 ∧ u = { s with regs := u.regs } ∧
      RegsBut s u [(snapFld b).addr]) ∧
    (s.on (snapBusyFld b) = true → ∃ u, exec (.snapshotLatchComplete b) s = .next u ∧ u.get (snapBusyFld b) = 0 ∧ u.get (snapFld b) = 0 ∧
      u.get (snapSeqFld b) = (s.get (snapSeqFld b) + 1) % 2 ^ 16 ∧ (∀ a, snapReg b a = true → u.snapWord a = (s.snapLive b).word a) ∧
      (∀ a, a / 0x10000 ≠ b → u.snapWord a = s.snapWord a ∧ u.word a = s.word a) ∧ u.mem = s.mem) := by
  refine ⟨fun hbusy => ?_, snap_starts_latch s b hb, fun hbusy => ?_⟩
  · show execSnap b s = _
    rw [execSnap, State.snapGo_busy hbusy]
  · obtain ⟨hBusy, hSnap, hSeq⟩ := s.snapEnd_snapCtl b
    obtain ⟨hcopies, hothers, hmem⟩ := s.snapEnd_copies b
    exact ⟨_, exec_snapshotLatchComplete hb hbusy, hBusy, hSnap, hSeq, hcopies, hothers, hmem⟩

/-- Settles O49: snapshots, INT_CAUSE, messages, host-window errors, the endpoint's reset and the link's training. -/
theorem snapshotsInterruptsAndEndpoint : Obligations.SnapshotsInterruptsAndEndpoint :=
  ⟨fun s b _ hb => snap_latches s b hb, intCauseClear_clears, msixMessage_sends, hostWindowError_records, fun s k _ => endpointReset_resets s k,
    pcieLinkUp_trains⟩

end Sys2Proof.Machine
end

/-! # Ray synthesis: lemmas and proofs of the family 03_ray_synthesis -/

section
/-! ### A lost word of the ray issue unit that is not lost (R66, R397) -/
namespace Sys2Proof.Machine
open Sys2Proof

/-- The class word of the unit's front pixel and the pixel's own word lie at the same offset of the host window, a request to which has failed
outside and been recorded, its client not yet answered (R397). -/
def sharedHostOffset : State :=
  let s := ((tSyn tWork 0).put R.HST_CTL_HWIN_EN 1).put R.HST_STAT_LINK_UP 1
  { s with
    syn := { s.syn with rmap := some (tMap 1 0x100000) }
    mmu := { s.mmu with tlb := [⟨1, 0, 36, hwinBase, true, true, false⟩] }
    hst := { s.hst with failed := [(0x100000, 4)] } }

theorem sharedHostOffset_front : sharedHostOffset.frontPixel 0 = some (1, tWork, 0, 0, 0, 0) := by decide +kernel

theorem sharedHostOffset_kind : sharedHostOffset.rayKind tWork.level 0 0 0 = .failed 0 0x100000 (.host 0x100000 4) := by decide +kernel

theorem sharedHostOffset_lost : sharedHostOffset.selfWriteFails 1 0 0 0 = true := by decide +kernel

theorem sharedHostOffset_count : sharedHostOffset.get (R.SYN_HCNT_COUNT 0 7) = 0 := by decide +kernel

/-- The failed class read answers the recorded failure, so the word that the unit then writes is stored, and none counts as lost. -/
theorem sharedHostOffset_stores {u : State} (hu : exec (.issueWfault 0) sharedHostOffset = .next u) : u.get (R.SYN_HCNT_COUNT 0 7) = 0 := by
  have hrun : (match exec (.issueWfault 0) sharedHostOffset with
    | .next u => decide (u.get (R.SYN_HCNT_COUNT 0 7) = 0)
    | _ => false) = true := by decide +kernel
  rw [hu] at hrun
  exact of_decide_eq_true hrun

/-- Refutes O1: ISSUE_WFAULT at a pixel whose class read fails too. The failed read is reported first, which ends the recorded failure of the
host window's request; where the pixel's own word lies at that offset its store now succeeds, and counter 7 does not count it. -/
theorem not_rayIssueDealsAndRetires : ¬ Obligations.RayIssueDealsAndRetires := by
  unfold Obligations.RayIssueDealsAndRetires
  rintro ⟨-, -, -, hlost, -⟩
  have hkind : ∀ r c, sharedHostOffset.rayKind tWork.level 0 0 0 ≠ .deal r c := fun r c => by rw [sharedHostOffset_kind]; exact nofun
  obtain ⟨u, hu, -, -, hcount, -⟩ := hlost sharedHostOffset 0 1 0 0 0 tWork 0 (by decide) sharedHostOffset_front sharedHostOffset_lost hkind
  rw [sharedHostOffset_stores hu, sharedHostOffset_count] at hcount
  exact absurd hcount (by decide)

end Sys2Proof.Machine
end

section
/-! ### The registers that a report of an error leaves (R337, R355, R356, R397, R421–R425) -/
namespace Sys2Proof.Machine

/-- The registers that a report can write lie in the blocks HST, INT and MMU, MEM and HLT. -/
def reportWord (a : Nat) : Bool := decide (0x20000 ≤ a ∧ a < 0x50000 ∨ 0x140000 ≤ a ∧ a < 0x160000)

theorem reportWord_eq_false {a : Nat} : reportWord a = false ↔ ¬(0x20000 ≤ a ∧ a < 0x50000 ∨ 0x140000 ≤ a ∧ a < 0x160000) := decide_eq_false_iff_not

/-- Every register outside the blocks of reports reads as before. -/
def KeepsOtherBlocks (s u : State) : Prop := ∀ a, reportWord a = false → u.word a = s.word a

theorem KeepsOtherBlocks.refl (s : State) : KeepsOtherBlocks s s := fun _ _ => rfl

theorem KeepsOtherBlocks.trans {s u v : State} (h1 : KeepsOtherBlocks s u) (h2 : KeepsOtherBlocks u v) : KeepsOtherBlocks s v :=
  fun a ha => (h2 a ha).trans (h1 a ha)

theorem KeepsOtherBlocks.get {s u : State} (h : KeepsOtherBlocks s u) {g : Fld} (hg : reportWord g.addr = false) : u.get g = s.get g := by
  rw [State.get, State.get, h _ hg]

theorem KeepsOtherBlocks.setWord {s u : State} (h : KeepsOtherBlocks s u) {a : Nat} (v : Nat) (ha : reportWord a = true) : KeepsOtherBlocks s (u.setWord a v) :=
  fun b hb => (u.word_setWord_other v (by rintro rfl; exact absurd (ha.symm.trans hb) (by decide))).trans (h b hb)

theorem KeepsOtherBlocks.put {s u : State} (h : KeepsOtherBlocks s u) (f : Fld) (v : Nat) (hf : reportWord f.addr = true) : KeepsOtherBlocks s (u.put f v) :=
  h.setWord _ hf

theorem KeepsOtherBlocks.bump {s u : State} (h : KeepsOtherBlocks s u) (f : Fld) (hf : reportWord f.addr = true) : KeepsOtherBlocks s (u.bump f) :=
  h.setWord _ hf

/-- A run of words that lies in the health unit's block. -/
theorem KeepsOtherBlocks.putWords {s u : State} (h : KeepsOtherBlocks s u) {a : Nat} {ws : List Nat} (ha : 0x150000 ≤ a)
    (hend : a + 4 * ws.length ≤ 0x160000) : KeepsOtherBlocks s (u.putWords a ws) := fun b hb => by
  have hout := reportWord_eq_false.1 hb
  exact (u.word_putWords_other a ws b (by omega)).trans (h b hb)

theorem KeepsOtherBlocks.raise {s u : State} (h : KeepsOtherBlocks s u) {c : Nat} (hc : c < 256) : KeepsOtherBlocks s (u.raise c) := fun a ha => by
  have hout := reportWord_eq_false.1 ha
  exact (u.word_raise_other hc (by omega)).trans (h a ha)

theorem KeepsOtherBlocks.vwrite {s u v : State} (h : KeepsOtherBlocks s u) {ctx va : Nat} {bs : List Byte} (hw : u.vwrite ctx va bs = .ok v) :
    KeepsOtherBlocks s v := fun a ha => (State.vwrite_word hw a).trans (h a ha)

/-- A change that leaves the registers and the member alone. -/
theorem KeepsOtherBlocks.of_regs {s u v : State} (h : KeepsOtherBlocks s u) (hregs : v.regs = u.regs) (hmember : v.member = u.member) :
    KeepsOtherBlocks s v := fun a ha => by
  rw [← h a ha, State.word, State.word, hregs, hmember]

/-- An entry of the log's window lies in the health unit's block. -/
theorem logSlot_range (i : Nat) : 0x150000 ≤ logSlot i ∧ logSlot i + 32 ≤ 0x160000 := by unfold logSlot; omega

/-- R421. The eight words of an entry. -/
theorem KeepsOtherBlocks.putLogWords {s u : State} (h : KeepsOtherBlocks s u) (e : LogEntry) {a : Nat} (ha : 0x150000 ≤ a) (hend : a + 32 ≤ 0x160000) :
    KeepsOtherBlocks s (u.putWords a e.words) := h.putWords ha hend

theorem KeepsOtherBlocks.putEntry {s u : State} (h : KeepsOtherBlocks s u) (i : Nat) (e : LogEntry) :
    KeepsOtherBlocks s ((u.putWords (logSlot i) e.words).putWords 0x150120 e.words) := by
  obtain ⟨hlo, hhi⟩ := logSlot_range i
  exact (h.putLogWords e hlo hhi).putLogWords e (by decide) (by decide)

/-- R423. The first entry written while HLT_FIRST is armed is copied there. -/
theorem KeepsOtherBlocks.firstEntry {s u : State} (h : KeepsOtherBlocks s u) (e : LogEntry) :
    KeepsOtherBlocks s (if u.logFirst then { u.putWords 0x150100 e.words with logFirst := false } else u) := by
  split
  · exact (h.putLogWords e (a := 0x150100) (by decide) (by decide)).of_regs rfl rfl
  · exact h

theorem State.logBase_keeps (s : State) {blk : Nat} (arr inst code sev detail : Nat) (hblk : blk < 32) :
    KeepsOtherBlocks s (s.logBase blk arr inst code sev detail).1 := by
  unfold State.logBase
  dsimp only
  have h0 := (KeepsOtherBlocks.refl s).bump (R.HLT_BLKCNT_COUNT blk) (decide_eq_true (by simp only [R.HLT_BLKCNT_COUNT]; omega))
  generalize s.bump (R.HLT_BLKCNT_COUNT blk) = u at h0 ⊢
  split
  · exact h0.putLogWords _ (by decide) (by decide)
  split
  · exact (h0.putEntry _ _).bump _ (by decide)
  split
  · have hdrop := (h0.bump R.HLT_LOG_DROP_DROP (by decide)).bump (R.HLT_CNT_COUNT 2) (by decide)
    split
    · exact hdrop.putLogWords _ (by decide) (by decide)
    · exact ((hdrop.putLogWords _ (by decide) (by decide)).put _ _ (by decide)).raise (by decide)
  · have hhead := fun e => ((h0.putEntry (u.get R.HLT_LOG_HEAD_HEAD) e).bump (R.HLT_CNT_COUNT 0) (by decide)).bump R.HLT_LOG_HEAD_HEAD (by decide)
    exact ((hhead _).firstEntry _).of_regs rfl rfl

theorem KeepsOtherBlocks.fringDrop {s u : State} (h : KeepsOtherBlocks s u) : KeepsOtherBlocks s u.fringDrop :=
  (h.bump R.MMU_FRING_DROP_DROP (by decide)).put R.MMU_STAT_OVERFLOW 1 (by decide)

theorem State.fringWrite_keeps (s : State) (client id ctx va cause info : Nat) : KeepsOtherBlocks s (s.fringWrite client id ctx va cause info) := by
  have h0 := KeepsOtherBlocks.refl s
  unfold State.fringWrite
  dsimp only
  split
  · rename_i l _
    have hjoin := (h0.bump (R.MMU_CNT_COUNT 3) (by decide)).of_regs
      (v := { s.bump (R.MMU_CNT_COUNT 3) with mmu := { (s.bump (R.MMU_CNT_COUNT 3)).mmu with last := some { l with count := l.count + 1 } } }) rfl rfl
    split
    · exact hjoin.vwrite ‹_›
    · exact hjoin
  split
  · exact h0.fringDrop
  split
  · exact h0.fringDrop
  · exact ((h0.vwrite ‹_›).bump R.MMU_FRING_HEAD_HEAD (by decide)).of_regs rfl rfl

theorem State.mmuFaultBase_keeps (s : State) (client id ctx va : Nat) (acc : Acc) (cls cause : Nat) :
    KeepsOtherBlocks s (s.mmuFaultBase client id ctx va acc cls cause).1 := by
  have hlatch := ((((KeepsOtherBlocks.refl s).put R.MMU_FLAST_VA_LO_VA va (by decide)).put R.MMU_FLAST_VA_HI_VA (va / 2 ^ 32) (by decide)).put
    R.MMU_FLAST_INFO_INFO (faultInfo ctx cause acc cls client) (by decide)).bump (R.MMU_CNT_COUNT 2) (by decide)
  exact (hlatch.trans ((State.fringWrite_keeps _ _ _ _ _ _ _).trans (State.logBase_keeps _ _ _ _ _ _ (by decide)))).raise (by decide)

theorem State.mirror_keeps (s : State) (e : Option LogEntry) : KeepsOtherBlocks s (s.mirror e) := by
  have h0 := KeepsOtherBlocks.refl s
  unfold State.mirror
  dsimp only
  split
  · exact h0
  split
  · split
    · exact h0.vwrite ‹_›
    · have hoff := ((h0.put R.HLT_CTL_MIRROR_EN 0 (by decide)).put R.HLT_STAT_MIRROR_FAULT 1 (by decide)).bump (R.HLT_CNT_COUNT 12) (by decide)
      split
      · exact hoff.trans (State.mmuFaultBase_keeps _ _ _ _ _ _ _ _)
      · exact hoff
  · exact h0

theorem State.mmuFault_keeps (s : State) (client id ctx va : Nat) (acc : Acc) (cls cause : Nat) :
    KeepsOtherBlocks s (s.mmuFault client id ctx va acc cls cause) :=
  (s.mmuFaultBase_keeps client id ctx va acc cls cause).trans (State.mirror_keeps _ _)

theorem State.poisonRead_keeps (s : State) (pa : Nat) : KeepsOtherBlocks s (s.poisonRead pa) := fun a ha =>
  s.word_poisonRead_other pa (by have hout := reportWord_eq_false.1 ha; omega)

theorem State.walkRead_keeps (s : State) (ctx va cause : Nat) : KeepsOtherBlocks s (s.walkRead ctx va cause) := by
  unfold State.walkRead
  split
  · split
    · exact s.poisonRead_keeps _
    · exact .refl s
  · exact .refl s

theorem State.hostWinErr_keeps (s : State) (off kind : Nat) : KeepsOtherBlocks s (s.hostWinErr off kind) := by
  have hcount := (KeepsOtherBlocks.refl s).bump (R.HST_CNT_COUNT 1) (by decide)
  rw [State.hostWinErr_eq]
  refine KeepsOtherBlocks.raise ?_ (by decide)
  unfold State.perrLatch
  split
  · exact hcount
  · exact (((hcount.put _ _ (by decide)).put _ _ (by decide)).put _ _ (by decide)).put _ _ (by decide)

/-- What any client's failed access leaves behind writes registers of the reports' blocks alone. -/
theorem State.accFail_keeps (s : State) (client id ctx va : Nat) (acc : Acc) (cls : Nat) (e : AccErr) :
    KeepsOtherBlocks s (s.accFail client id ctx va acc cls e) := by
  cases e with
  | mmu c => exact (s.walkRead_keeps ctx va c).trans (State.mmuFault_keeps _ _ _ _ _ _ _ _)
  | closed => exact .refl s
  | poison pa => exact s.poisonRead_keeps pa
  | host off kind =>
    show KeepsOtherBlocks s (s.hostFail off kind)
    unfold State.hostFail
    split
    · exact (KeepsOtherBlocks.refl s).of_regs rfl rfl
    · exact s.hostWinErr_keeps off kind

end Sys2Proof.Machine
end

section
/-! ### A run of bytes written through a translation into one run of HBM (R19, R345) -/
namespace Sys2Proof.Machine

theorem mapGetList_append {α : Type} (d : Nat → α) (m : List (Nat × α)) (j : Nat) :
    ∀ k i, mapGetList d m k (i + j) = mapGetList d m k i ++ mapGetList d m (k + i) j
  | k, 0 => by simp [mapGetList]
  | k, i + 1 => by
    rw [Nat.add_right_comm, mapGetList, mapGetList, mapGetList_append d m j (k + 1) i, List.cons_append, Nat.add_right_comm, Nat.add_assoc k i 1]

theorem length_mapGetList {α : Type} (d : Nat → α) (m : List (Nat × α)) : ∀ k n, (mapGetList d m k n).length = n
  | _, 0 => rfl
  | k, n + 1 => by rw [mapGetList, List.length_cons, length_mapGetList d m (k + 1) n]

/-- Bytes that two lists make up, in their two places. -/
theorem State.memBytes_eq_append {s : State} {pa m n : Nat} {bs cs : List Byte} (hm : bs.length = m) :
    s.memBytes pa (m + n) = bs ++ cs ↔ s.memBytes pa m = bs ∧ s.memBytes (pa + m) n = cs := by
  unfold State.memBytes
  rw [mapGetList_append]
  exact ⟨fun h => List.append_inj h (by rw [length_mapGetList, hm]), fun ⟨h1, h2⟩ => by rw [h1, h2]⟩

/-- The targets of a run that a translation maps to a run of open HBM. -/
theorem State.vtargets_hbm_run {s : State} {ctx : Nat} (hopen : s.hbmOpen = true) :
    ∀ {n va pa : Nat}, pa + n ≤ hbmTop → (∀ i, i < n → s.translate ctx (va + i) .write = .ok (pa + i)) →
      s.vtargets ctx va .write n = .ok (List.range' pa n)
  | 0, _, _, _, _ => rfl
  | n + 1, va, pa, hpa, ht => by
    have h0 : s.translate ctx va .write = .ok pa := ht 0 (by omega)
    have hw : s.physWritable pa = none := by
      rw [State.physWritable, if_pos (by omega), if_pos hopen]
    have ih := State.vtargets_hbm_run hopen (n := n) (va := va + 1) (pa := pa + 1) (by omega) fun i hi => by
      simpa only [Nat.add_assoc, Nat.add_comm 1] using ht (i + 1) (by omega)
    simp only [State.vtargets, h0, hw, ih, List.range'_succ]

/-- Consecutive targets form one run. -/
theorem runsOf_range' (b : Byte) : ∀ (bs : List Byte) (pa : Nat), runsOf ((List.range' pa (bs.length + 1)).zip (b :: bs)) = [(pa, b :: bs)]
  | [], _ => rfl
  | c :: bs, pa => by
    have ih := runsOf_range' c bs (pa + 1)
    rw [List.length_cons, List.range'_succ, List.zip_cons_cons, runsOf, ih]
    simp

theorem State.vwrite_hbm_run {s : State} {ctx va pa : Nat} {bs : List Byte} (hopen : s.hbmOpen = true) (hbs : bs ≠ []) (hpa : pa + bs.length ≤ hbmTop)
    (ht : ∀ i, i < bs.length → s.translate ctx (va + i) .write = .ok (pa + i)) : s.vwrite ctx va bs = .ok (s.memPut pa bs) := by
  obtain ⟨b, bs, rfl⟩ := List.exists_cons_of_ne_nil hbs
  rw [List.length_cons] at hpa
  simp only [State.vwrite, State.vtargets_hbm_run hopen hpa ht, List.length_cons, runsOf_range', List.foldl_cons, List.foldl_nil]
  rw [State.physPut, if_pos (by omega)]

end Sys2Proof.Machine
end

section
/-! ### The density estimator's commands, and O4 (R90, R91, R538) -/
namespace Sys2Proof.Machine

theorem dctlAutoSet_clears (s : State) : ∃ u, exec .dctlAutoSet s = .next u ∧ u.get R.SYN_DCTL_AUTO = 1 ∧
    (s.on R.SYN_DCTL_AUTO = true → u = s) ∧
    (s.on R.SYN_DCTL_AUTO = false → u.syn.dens = { s.syn.dens with hist := [], measured := 0, freed := false, qual := 0 } ∧
      u = { s with regs := u.regs, syn := { s.syn with dens := u.syn.dens } } ∧ RegsBut s u [R.SYN_DCTL_AUTO.addr]) := by
  show ∃ u, execDctlAutoSet s = .next u ∧ _
  unfold execDctlAutoSet
  cases hauto : s.on R.SYN_DCTL_AUTO with
  | true => exact ⟨s, rfl, s.get_eq_one rfl hauto, fun _ => rfl, nofun⟩
  | false =>
    refine ⟨_, rfl, ?_, nofun, fun _ => ⟨rfl, rfl, ?_⟩⟩
    · exact s.get_put_same R.SYN_DCTL_AUTO 1 (by decide)
    · exact (RegsBut.refl s _).put R.SYN_DCTL_AUTO 1 (by simp)

/-! #### The record -/

/-- The counter of free values plays no part in a read of physical space. -/
theorem State.fresh_physRead (s : State) : ∀ n pa, s.fresh.2.physRead pa n = s.physRead pa n
  | 0, _ => rfl
  | n + 1, pa => by
    rw [State.physRead, State.physRead, State.fresh_physRead s n]
    rfl

theorem State.fresh_walkFrom (s : State) (ctx va : Nat) : ∀ l table, s.fresh.2.walkFrom ctx va l table = s.walkFrom ctx va l table
  | 0, _ => rfl
  | l + 1, table => by
    simp only [State.walkFrom, State.readEntry, State.fresh_physRead, State.fresh_walkFrom s ctx va l]

theorem State.fresh_translate (s : State) (ctx va : Nat) (acc : Acc) : s.fresh.2.translate ctx va acc = s.translate ctx va acc := by
  unfold State.translate State.walk
  rw [State.fresh_walkFrom]
  rfl

theorem State.fresh_vtargets (s : State) (ctx : Nat) (acc : Acc) : ∀ n va, s.fresh.2.vtargets ctx va acc n = s.vtargets ctx va acc n
  | 0, _ => rfl
  | n + 1, va => by
    rw [State.vtargets, State.vtargets, State.fresh_translate, State.fresh_vtargets s ctx acc n]
    rfl

theorem DensRec.length_bytes (r : DensRec) (free : Nat) : (r.bytes free).length = 32 := by simp [DensRec.bytes, length_leBytes]

/-- The state once the record that is due first has been dealt with in state `u`: the later ones stay due, and HEAD moves on. -/
def State.recordDone (u : State) (rest : List DensRec) : State := (u.setDens { u.syn.dens with recs := rest }).bump R.SYN_DLOG_HEAD_HEAD

theorem State.recordDone_spec (u : State) (rest : List DensRec) :
    (u.recordDone rest).get R.SYN_DLOG_HEAD_HEAD = (u.get R.SYN_DLOG_HEAD_HEAD + 1) % 2 ^ 32 ∧ (u.recordDone rest).syn.dens.recs = rest ∧
    (u.recordDone rest).get R.SYN_DLOG_DROP_DROP = u.get R.SYN_DLOG_DROP_DROP ∧ (u.recordDone rest).mem = u.mem := by
  have hsame : ∀ g, (u.setDens { u.syn.dens with recs := rest }).get g = u.get g := fun _ => rfl
  refine ⟨?_, rfl, ?_, rfl⟩
  · rw [State.recordDone, State.get_bump_same _ _ (by decide), hsame]; rfl
  · rw [State.recordDone, State.get_bump_apart _ (by decide), hsame]

theorem exec_densityRecord_written {s v : State} {r : DensRec} {rest : List DensRec} (hr : s.syn.dens.recs = r :: rest)
    (hw : s.fresh.2.vwrite 0 s.dlogAddr (r.bytes s.fresh.1) = .ok v) : exec .densityRecord s = .next (v.recordDone rest) := by
  show execDensityRecord s = _
  have haddr : s.fresh.2.dlogAddr = s.dlogAddr := rfl
  simp only [execDensityRecord, hr, State.densityRecord, haddr, hw]
  rfl

theorem exec_densityRecord_dropped {s : State} {r : DensRec} {rest : List DensRec} {er : AccErr} (hr : s.syn.dens.recs = r :: rest)
    (hw : s.fresh.2.vwrite 0 s.dlogAddr (r.bytes s.fresh.1) = .error er) :
    exec .densityRecord s = .next (((s.fresh.2.accFail 0x36 0 0 s.dlogAddr .write 9 er).bump R.SYN_DLOG_DROP_DROP).recordDone rest) := by
  show execDensityRecord s = _
  have haddr : s.fresh.2.dlogAddr = s.dlogAddr := rfl
  simp only [execDensityRecord, hr, State.densityRecord, haddr, hw]
  rfl

/-- R91. The fields of a record at their offsets. -/
theorem DensRec.bytes_fields {u : State} {pa : Nat} {r : DensRec} {free : Nat} (h : u.memBytes pa 32 = r.bytes free) :
    u.memBytes pa 18 = leBytes 4 r.frame ++ leBytes 4 r.src ++ leBytes 8 r.startNs ++ leBytes 1 r.level ++ leBytes 1 r.cause ∧
    u.memBytes (pa + 28) 4 = leBytes 2 r.lateBands ++ leBytes 2 (b2n r.late + 2 * b2n r.changed) ∧
    (∀ c, r.meas = some c → u.memBytes (pa + 18) 2 = leBytes 2 c.clk ∧ u.memBytes (pa + 24) 4 = leBytes 4 c.cost) ∧
    (∀ e, r.est = some e → u.memBytes (pa + 20) 4 = leBytes 4 e) := by
  unfold DensRec.bytes at h
  dsimp only at h
  rw [List.append_assoc _ (leBytes 2 r.lateBands)] at h
  obtain ⟨h, hflags⟩ := (State.memBytes_eq_append (m := 28) (n := 4) (by simp [length_leBytes])).1 h
  obtain ⟨h, hcost⟩ := (State.memBytes_eq_append (m := 24) (n := 4) (by simp [length_leBytes])).1 h
  obtain ⟨h, hest⟩ := (State.memBytes_eq_append (m := 20) (n := 4) (by simp [length_leBytes])).1 h
  obtain ⟨hhead, hclk⟩ := (State.memBytes_eq_append (m := 18) (n := 2) (by simp [length_leBytes])).1 h
  refine ⟨hhead, hflags, fun c hc => ?_, fun e he => ?_⟩
  · rw [hc] at hclk hcost
    exact ⟨hclk, hcost⟩
  · rw [hest, he, Option.getD_some]

/-- R91. A record whose page is in HBM and runs upward is written there. -/
theorem densityRecord_writes {s : State} {pa : Nat} {r : DensRec} {rest : List DensRec} (hr : s.syn.dens.recs = r :: rest) (hopen : s.hbmOpen = true)
    (hpa : pa + 32 ≤ hbmTop) (ht : ∀ i, i < 32 → s.translate 0 (s.dlogAddr + i) .write = .ok (pa + i)) :
    ∃ u, exec .densityRecord s = .next u ∧ u.get R.SYN_DLOG_HEAD_HEAD = (s.get R.SYN_DLOG_HEAD_HEAD + 1) % 2 ^ 32 ∧ u.syn.dens.recs = rest ∧
      u.get R.SYN_DLOG_DROP_DROP = s.get R.SYN_DLOG_DROP_DROP ∧ u.memBytes pa 32 = r.bytes s.fresh.1 ∧
      (∀ a, (a < pa ∨ pa + 32 ≤ a) → u.memByte a = s.memByte a) := by
  have hlen := r.length_bytes s.fresh.1
  have hne : r.bytes s.fresh.1 ≠ [] := fun h => by simp [h] at hlen
  have hw := State.vwrite_hbm_run (s := s.fresh.2) (ctx := 0) (va := s.dlogAddr) (pa := pa) hopen hne (by rw [hlen]; exact hpa)
    fun i hi => (s.fresh_translate _ _ _).trans (ht i (hlen ▸ hi))
  obtain ⟨hhead, hrecs, hdrop, hmem⟩ := (s.fresh.2.memPut pa (r.bytes s.fresh.1)).recordDone_spec rest
  refine ⟨_, exec_densityRecord_written hr hw, hhead, hrecs, hdrop, ?_, fun a ha => ?_⟩
  · have hread := s.fresh.2.memBytes_memPut pa (r.bytes s.fresh.1)
    rw [hlen] at hread
    rwa [State.memBytes, hmem]
  · rw [State.memByte, hmem]
    exact s.fresh.2.memByte_memPut_other pa _ a (by rwa [hlen])

/-- R91. A record that cannot be written is dropped and counted. -/
theorem densityRecord_drops {s : State} {er : AccErr} {r : DensRec} {rest : List DensRec} (hr : s.syn.dens.recs = r :: rest)
    (he : s.vtargets 0 s.dlogAddr .write 32 = .error er) :
    ∃ u, exec .densityRecord s = .next u ∧ u.get R.SYN_DLOG_HEAD_HEAD = (s.get R.SYN_DLOG_HEAD_HEAD + 1) % 2 ^ 32 ∧ u.syn.dens.recs = rest ∧
      u.get R.SYN_DLOG_DROP_DROP = (s.get R.SYN_DLOG_DROP_DROP + 1) % 2 ^ 32 := by
  have hw : s.fresh.2.vwrite 0 s.dlogAddr (r.bytes s.fresh.1) = .error er := by
    simp only [State.vwrite, r.length_bytes, State.fresh_vtargets, he]
  have hkept := s.fresh.2.accFail_keeps 0x36 0 0 s.dlogAddr .write 9 er
  obtain ⟨hhead, hrecs, hdrop, -⟩ := ((s.fresh.2.accFail 0x36 0 0 s.dlogAddr .write 9 er).bump R.SYN_DLOG_DROP_DROP).recordDone_spec rest
  refine ⟨_, exec_densityRecord_dropped hr hw, ?_, hrecs, ?_⟩
  · rw [hhead, State.get_bump_apart _ (by decide), hkept.get (by decide)]; rfl
  · rw [hdrop, State.get_bump_same _ _ (by decide), hkept.get (by decide)]; rfl

/-- Settles O4: DCTL_AUTO_SET clears the history, and DENSITY_RECORD writes the oldest record that is due or counts it as dropped. -/
theorem densityHistoryAndRecord : Obligations.DensityHistoryAndRecord := by
  refine ⟨dctlAutoSet_clears, fun s hr => ?_, fun s pa r rest hr hopen hpa ht => ?_, fun s er r rest hr he => densityRecord_drops hr he⟩
  · show execDensityRecord s = _
    rw [execDensityRecord, hr]
  · obtain ⟨u, hexec, hhead, hrecs, hdrop, hbytes, hother⟩ := densityRecord_writes hr hopen hpa ht
    obtain ⟨hstart, hflags, hmeas, hest⟩ := DensRec.bytes_fields hbytes
    exact ⟨u, hexec, hhead, hrecs, hdrop, hstart, hflags, hmeas, hest, hother⟩

end Sys2Proof.Machine
end

section
/-! ### What a sampler evaluation changes of the state: reports alone (R55–R57, R68, R75–R81) -/
namespace Sys2Proof.Machine
open Sys2Proof

/-- What a report can change leaves the threads, launches and stores of the Aqken fabric. -/
theorem OnlyReport.aq {s u : State} (h : OnlyReport s u) : u.aq = s.aq := by rw [h.1]
theorem OnlyReport.syn {s u : State} (h : OnlyReport s u) : u.syn = s.syn := by rw [h.1]

theorem State.entryPut_report (s : State) (ctx va : Nat) (bs : List Byte) : OnlyReport s (s.entryPut ctx va bs) := by
  unfold State.entryPut
  split
  · exact State.vwrite_report ‹_›
  · exact .refl s

/-- R57, R68. All that counting an invalid tile can change. -/
theorem State.countInvalid_report (s : State) (h ctx va : Nat) : OnlyReport s (s.countInvalid h ctx va) := by
  unfold State.countInvalid
  split
  · exact .refl s
  · exact .ite (.refl s) ((((s.entryPut_report _ _ _).trans (State.bump_report _ _)).trans (State.raise_report _ _)).trans (State.log_report _ _ _ _ _ _ _))

/-- R68. All that finding a tile invalid can change. -/
theorem State.markInvalid_report (s : State) (h ctx va reason : Nat) : OnlyReport s (s.markInvalid h ctx va reason) := by
  unfold State.markInvalid
  split
  · exact .refl s
  · exact OnlyReport.trans (.ite (s.entryPut_report _ _ _) (.refl s)) (State.countInvalid_report _ _ _ _)

theorem Samp.line_report (a : Samp) (e : SampEnv) (f : CFill) (off n : Nat) : OnlyReport a.s (a.line e f off n).1.s := by
  unfold Samp.line
  split
  · exact .refl _
  · exact .refl _
  · split <;> exact .refl _

theorem Samp.tileWord_report (a : Samp) (e : SampEnv) (dep : Bool) (idx tw th x y : Nat) : OnlyReport a.s (a.tileWord e dep idx tw th x y).1.s := by
  unfold Samp.tileWord
  dsimp only
  split
  · exact .refl _
  split
  · exact a.s.countInvalid_report _ _ _
  split
  · exact .refl _
  · exact a.line_report _ _ _ _

theorem Samp.texel_report (a : Samp) (e : SampEnv) (p : PlaneDesc) (m x y : Nat) : OnlyReport a.s (a.texel e p m x y).1.s :=
  a.tileWord_report _ _ _ _ _ _ _

theorem Samp.depth_report (a : Samp) (e : SampEnv) (p : PlaneDesc) (x y : Nat) : OnlyReport a.s (a.depth e p x y).1.s :=
  a.tileWord_report _ _ _ _ _ _ _

theorem Samp.four_report (a : Samp) {rd : Samp → Nat → Nat → Samp × Got Nat} (hrd : ∀ a x y, OnlyReport a.s (rd a x y).1.s) (x0 x1 y0 y1 : Nat) :
    OnlyReport a.s (a.four rd x0 x1 y0 y1).1.s :=
  (((hrd a x0 y0).trans (hrd _ x1 y0)).trans (hrd _ x0 y1)).trans (hrd _ x1 y1)

theorem Samp.bilinear_report (a : Samp) (e : SampEnv) (p : PlaneDesc) (m u v : Nat) : OnlyReport a.s (a.bilinear e p m u v).1.s :=
  a.four_report (fun a x y => a.texel_report e p m x y) _ _ _ _

theorem Samp.firstValid_report (e : SampEnv) (p : PlaneDesc) (u v : Nat) :
    ∀ n m a, OnlyReport a.s (Samp.firstValid e p u v n m a).1.s
  | 0, _, _ => .refl _
  | n + 1, m, a => by
    unfold Samp.firstValid
    split
    · exact .refl _
    · have hlevel := a.bilinear_report e p m u v
      dsimp only
      split
      · exact hlevel.trans (Samp.firstValid_report e p u v n (m + 1) _)
      · exact hlevel

theorem Samp.filtered_report (a : Samp) (e : SampEnv) (p : PlaneDesc) (lam u v : Nat) : OnlyReport a.s (a.filtered e p lam u v).1.s := by
  unfold Samp.filtered
  dsimp only
  split
  · exact Samp.firstValid_report _ _ _ _ _ _ _
  split
  · exact Samp.firstValid_report _ _ _ _ _ _ _
  · have hboth := fun m0 m1 => (a.bilinear_report e p m0 u v).trans (Samp.bilinear_report _ e p m1 u v)
    split
    · exact hboth _ _
    · exact (hboth _ _).trans (Samp.firstValid_report _ _ _ _ _ _ _)
    · exact (hboth _ _).trans (Samp.firstValid_report _ _ _ _ _ _ _)
    · exact hboth _ _

theorem Samp.surface_report (a : Samp) (e : SampEnv) (p : PlaneDesc) (uv : Nat × Nat) : OnlyReport a.s (a.surface e p uv).1.s :=
  a.four_report (fun a x y => a.depth_report e p x y) _ _ _ _

theorem Samp.heightAt_report (a : Samp) (e : SampEnv) (p : PlaneDesc) (r : LaneRay) (z : Nat) : OnlyReport a.s (a.heightAt e p r z).1.s := by
  unfold Samp.heightAt
  dsimp only
  split
  · exact .refl _
  · exact a.surface_report e p _

theorem Samp.bisect_report (e : SampEnv) (p : PlaneDesc) (r : LaneRay) : ∀ n lo hi a, OnlyReport a.s (Samp.bisect e p r n lo hi a).1.s
  | 0, _, _, _ => .refl _
  | n + 1, lo, hi, a => by
    unfold Samp.bisect
    dsimp only
    have hmid := a.heightAt_report e p r (fmul f32 (fadd f32 lo hi) 0x3F000000)
    split
    · exact hmid
    · exact hmid.trans (Samp.bisect_report e p r n _ _ _)
    · split <;> exact hmid.trans (Samp.bisect_report e p r n _ _ _)

theorem Samp.march_report (e : SampEnv) (p : PlaneDesc) (r : LaneRay) (zhi step : Nat) :
    ∀ left k prev a, OnlyReport a.s (Samp.march e p r zhi step left k prev a).1.s
  | 0, _, _, _ => .refl _
  | left + 1, k, prev, a => by
    unfold Samp.march
    dsimp only
    have hstep := a.heightAt_report e p r (fsub f32 zhi (fmul f32 (fi k) step))
    have hrest := fun prev => hstep.trans (Samp.march_report e p r zhi step left (k + 1) prev _)
    split
    · exact hstep
    · exact hrest _
    split
    · exact hstep
    split
    · split
      · exact hstep.trans (Samp.bisect_report e p r _ _ _ _)
      · exact hrest _
    · exact hrest _

theorem Samp.hit_report (a : Samp) (e : SampEnv) (p : PlaneDesc) (r : LaneRay) : OnlyReport a.s (a.hit e p r).1.s := by
  unfold Samp.hit
  dsimp only
  split
  · exact Samp.march_report _ _ _ _ _ _ _ _ _
  · exact .refl _

theorem Samp.plane_report (a : Samp) (e : SampEnv) (p : PlaneDesc) (r : LaneRay) : OnlyReport a.s (a.plane e p r).1.s := by
  unfold Samp.plane
  dsimp only
  have hhit := a.hit_report e p r
  split
  · exact hhit
  · exact hhit
  · exact hhit.trans (Samp.filtered_report _ _ _ _ _ _)

theorem Samp.sweepPlanes_report (e : SampEnv) (r : LaneRay) : ∀ ps x a, OnlyReport a.s (Samp.sweepPlanes e r ps x a).1.s
  | [], _, _ => .refl _
  | p :: ps, x, a => by
    unfold Samp.sweepPlanes
    dsimp only
    have hplane := a.plane_report e p r
    split
    · exact hplane
    · exact hplane.trans (Samp.sweepPlanes_report e r ps _ _)
    · split
      · exact hplane
      · exact hplane.trans (Samp.sweepPlanes_report e r ps _ _)

theorem Samp.sweepLane_report (a : Samp) (e : SampEnv) (tag : Nat) (r : LaneRay) : OnlyReport a.s (a.sweepLane e tag r).1.s :=
  Samp.sweepPlanes_report e r _ _ a

theorem Samp.camSample_report (a : Samp) (e : SampEnv) (c : CamEntry) (x y : Nat) : OnlyReport a.s (a.camSample e c x y).1.s :=
  a.four_report (rd := fun a x y => a.camPixel e c x y) (fun a _ _ => a.line_report _ _ _ _) _ _ _ _

theorem Samp.camSamples_report (e : SampEnv) : ∀ cs a, OnlyReport a.s (Samp.camSamples e cs a).1.s
  | [], _ => .refl _
  | (c, _, px) :: rest, a => (a.camSample_report e c px.1 px.2).trans (Samp.camSamples_report e rest _)

theorem Samp.camLane_report (a : Samp) (e : SampEnv) (tag : Nat) (r : LaneRay) : OnlyReport a.s (a.camLane e tag r).1.s := by
  unfold Samp.camLane
  split
  · exact .refl _
  · rename_i p _ _
    dsimp only
    have hhit := a.hit_report e p r
    split
    · exact hhit
    · exact hhit
    · have hcams := fun cs => hhit.trans (Samp.camSamples_report e cs _)
      split <;> exact hcams _

theorem Samp.sampleLane_report (a : Samp) (e : SampEnv) (f : FmtX) (r : LaneRay) : OnlyReport a.s (a.sampleLane e f r).1.s := by
  unfold Samp.sampleLane
  split
  · split
    · exact .refl _
    · rename_i p _ _
      dsimp only
      have hhit := a.hit_report e p r
      split
      · exact hhit
      · exact hhit
      split
      · exact hhit
      split
      · exact hhit
      · exact hhit.trans (Samp.camSample_report _ _ _ _ _)
  · split
    · exact .refl _
    · exact a.plane_report _ _ _

theorem sampLanes_report {α : Type} {lane : Samp → Nat → Samp × Got α} (hlane : ∀ a l, OnlyReport a.s (lane a l).1.s) :
    ∀ ls a, OnlyReport a.s (sampLanes lane ls a).1.s
  | [], _ => .refl _
  | l :: ls, a => (hlane a l).trans (sampLanes_report hlane ls _)

/-- The results stand in the order of the lanes. -/
theorem sampLanes_fst {α : Type} (lane : Samp → Nat → Samp × Got α) : ∀ ls a, (sampLanes lane ls a).2.map (·.1) = ls
  | [], _ => rfl
  | l :: ls, a => by
    rw [sampLanes, List.map_cons, sampLanes_fst lane ls]

end Sys2Proof.Machine
end

section
/-! ### The commands of the sampler, and O2 (R69, R70, R157–R160) -/
namespace Sys2Proof.Machine
open Sys2Proof

/-! #### What follows an evaluation -/

theorem State.thr_congr {s u : State} (h : u.aq = s.aq) (k : Nat) : u.thr k = s.thr k := by rw [State.thr, h]; rfl

theorem State.decodeFail_report (s : State) (h unit item ctx va : Nat) (e : AccErr) : OnlyReport s (s.decodeFail h unit item ctx va e) :=
  s.accFail_report _ _ _ _ _ _ _

theorem Samp.settle_aq (a : Samp) (e : SampEnv) : (a.settle e).aq = a.s.aq := by
  have huses : ∀ (ts : List LineTag) (s : State),
      (ts.foldl (fun s t => (s.setCaddy e.h ((s.caddy e.h).touch t)).bump (R.SYN_HCNT_COUNT e.h 0)) s).aq = s.aq := by
    intro ts
    induction ts with
    | nil => exact fun _ => rfl
    | cons t ts ih => exact fun s => ih _
  unfold Samp.settle
  dsimp only
  split
  · exact (State.decodeFail_report _ _ _ _ _ _ _).aq.trans (huses _ _)
  · exact huses _ _

/-- R70. Requesting lines leaves every thread. -/
theorem State.request_aq (h : Nat) (hint : Bool) : ∀ fs s want, (State.request h hint fs s want).1.aq = s.aq
  | [], _, _ => rfl
  | f :: fs, s, want => by
    unfold State.request
    dsimp only
    split
    · exact State.request_aq h hint fs _ _
    split
    · exact State.request_aq h hint fs _ _
    split
    · exact State.request_aq h hint fs _ _
    · rfl

/-- R70. A thread that waits for lines keeps all but what it holds of them. -/
theorem Samp.stall_waits (a : Samp) (e : SampEnv) : ∃ (s' : State) (got : List (LineTag × List Byte)) (want : List LineTag), s'.aq = a.s.aq ∧
    a.stall e = s'.setThr e.key { a.s.thr e.key with got := got, want := want, wait := .caddy } := by
  have haq : (State.request e.h false a.needs (a.settle e) []).1.aq = a.s.aq := (State.request_aq _ _ _ _ _).trans (a.settle_aq e)
  unfold Samp.stall
  dsimp only
  rw [State.thr_congr haq]
  refine ⟨_, _, _, ?_, rfl⟩
  exact haq

/-! #### Lane results -/

/-- Nothing but vector registers changes. -/
def ThreadSt.OnlyV (t u : ThreadSt) : Prop := u = { t with v := u.v }

theorem ThreadSt.OnlyV.trans {t u w : ThreadSt} (h1 : t.OnlyV u) (h2 : u.OnlyV w) : t.OnlyV w := by
  unfold ThreadSt.OnlyV at *
  rw [h1] at h2
  exact h2

theorem ThreadSt.OnlyV.fields {t u : ThreadSt} (h : t.OnlyV u) : u.pc = t.pc ∧ u.s = t.s ∧ u.p = t.p ∧ u.state = t.state ∧ u.batch = t.batch := by
  rw [h]
  exact ⟨rfl, rfl, rfl, rfl, rfl⟩

/-- A step that writes the results of one lane: `val x n` where it gives register `n` a value. -/
def WritesLane {α : Type} (val : Nat × α → Nat → Option Word) (step : ThreadSt → Nat × α → ThreadSt) : Prop :=
  ∀ t x, t.OnlyV (step t x) ∧ (x.1 < 64 → ∀ n j, j < 64 → (step t x).vw n j = if j = x.1 then (val x n).getD (t.vw n j) else t.vw n j)

/-- The results of distinct lanes, one lane after another. -/
theorem WritesLane.foldl {α : Type} {val : Nat × α → Nat → Option Word} {step : ThreadSt → Nat × α → ThreadSt} (hstep : WritesLane val step) :
    ∀ (rs : List (Nat × α)) (t : ThreadSt), (rs.map (·.1)).Nodup → (∀ x ∈ rs, x.1 < 64) →
      t.OnlyV (rs.foldl step t) ∧ (∀ x ∈ rs, ∀ n, (rs.foldl step t).vw n x.1 = (val x n).getD (t.vw n x.1)) ∧
      (∀ n j, j < 64 → j ∉ rs.map (·.1) → (rs.foldl step t).vw n j = t.vw n j)
  | [], _, _, _ => ⟨rfl, nofun, fun _ _ _ _ => rfl⟩
  | x :: rs, t, hnodup, hlt => by
    rw [List.map_cons, List.nodup_cons] at hnodup
    obtain ⟨hx, hnodup⟩ := hnodup
    have hxlt := hlt x List.mem_cons_self
    obtain ⟨honly, hvw⟩ := hstep t x
    obtain ⟨ihonly, ihval, ihother⟩ := WritesLane.foldl hstep rs (step t x) hnodup fun y hy => hlt y (List.mem_cons_of_mem _ hy)
    refine ⟨honly.trans ihonly, fun y hy n => ?_, fun n j hj hmem => ?_⟩
    · rcases List.mem_cons.1 hy with rfl | hy
      · rw [List.foldl_cons, ihother n _ hxlt hx, hvw hxlt n _ hxlt, if_pos rfl]
      · have hne : y.1 ≠ x.1 := fun he => hx (he ▸ List.mem_map_of_mem hy)
        rw [List.foldl_cons, ihval y hy, hvw hxlt n _ (hlt y (List.mem_cons_of_mem _ hy)), if_neg hne]
    · obtain ⟨hne, hmem⟩ := not_or.1 (mt List.mem_cons.2 hmem)
      rw [List.foldl_cons, ihother n j hj hmem, hvw hxlt n j hj, if_neg hne]

theorem ThreadSt.setV_onlyV (t : ThreadSt) (n l v : Nat) : t.OnlyV (t.setV n l v) := rfl

/-- R159. The five registers of a lane that SAMPLE writes. -/
def ThreadSt.setSample (t : ThreadSt) (d l : Nat) (c : List Nat) (z : Nat) : ThreadSt :=
  (foldRange 4 (fun t i => t.setV (d + i) l (c.getD i 0)) t).setV (d + 4) l z

/-- R159. What SAMPLE gives register `n` of a lane. -/
def sampleWord (d : Nat) (c : List Nat) (z n : Nat) : Option Word :=
  if n < d ∨ d + 5 ≤ n then none else some (BitVec.ofNat 32 (if n = d + 4 then z else c.getD (n - d) 0))

theorem ThreadSt.setSample_onlyV (t : ThreadSt) (d l : Nat) (c : List Nat) (z : Nat) : t.OnlyV (t.setSample d l c z) := rfl

theorem ThreadSt.vw_setSample (t : ThreadSt) (d l : Nat) (c : List Nat) (z n j : Nat) (hl : l < 64) (hj : j < 64) :
    (t.setSample d l c z).vw n j = if j = l then (sampleWord d c z n).getD (t.vw n j) else t.vw n j := by
  have hcomps := foldl_range_rec
    (P := fun k (u : ThreadSt) => u.vw n j = if j = l ∧ d ≤ n ∧ n < d + k then BitVec.ofNat 32 (c.getD (n - d) 0) else t.vw n j)
    (f := fun u i => u.setV (d + i) l (c.getD i 0)) (s := t) 4 (by simp [show ¬(d ≤ n ∧ n < d) by omega]) (by
      intro i u _ hu
      rw [ThreadSt.vw_setV _ _ _ _ _ _ hl hj, hu]
      by_cases hn : n = d + i
      · subst hn; simp
      · simp only [hn, false_and, if_false, show n < d + (i + 1) ↔ n < d + i by omega])
  rw [ThreadSt.setSample, ThreadSt.vw_setV _ _ _ _ _ _ hl hj, hcomps]
  unfold sampleWord
  by_cases hjl : j = l
  · by_cases h4 : n = d + 4
    · simp [hjl, h4]
    · by_cases hin : d ≤ n ∧ n < d + 4
      · simp [hjl, h4, hin, show ¬(n < d ∨ d + 5 ≤ n) by omega]
      · simp [hjl, h4, hin, show n < d ∨ d + 5 ≤ n by omega]
  · simp [hjl]

/-! #### The instructions -/

theorem ThreadSt.mem_lanesX {t : ThreadSt} {f : FmtX} {l : Nat} : l ∈ t.lanesX f ↔ l < 64 ∧ bitAt (t.eff false f.pred f.neg) l = true := by
  simp [ThreadSt.lanesX]

theorem ThreadSt.lanesX_nodup (t : ThreadSt) (f : FmtX) : (t.lanesX f).Nodup := List.nodup_range.filter _

/-- What the sampler leaves of a thread that issues to it, and of the others. -/
def KeptBySampler (s u : State) (t : Thr) : Prop :=
  (u.th t).s = (s.th t).s ∧ (u.th t).p = (s.th t).p ∧ (u.th t).state = (s.th t).state ∧ (u.th t).batch = (s.th t).batch ∧
    ∀ o, o ≠ thrKey t → u.thr o = s.thr o

theorem keptBySampler_setThr {s s' : State} {t : Thr} {x : ThreadSt} (h : s'.aq = s.aq) (hs : x.s = (s.th t).s) (hp : x.p = (s.th t).p)
    (hstate : x.state = (s.th t).state) (hbatch : x.batch = (s.th t).batch) : KeptBySampler s (s'.setThr (thrKey t) x) t := by
  unfold KeptBySampler
  rw [State.th_setThr]
  exact ⟨hs, hp, hstate, hbatch, fun o ho => by rw [State.thr_setThr, if_neg ho, State.thr_congr h]⟩

/-- R70. SWEEP and SAMPLE of lanes that lack a line. -/
theorem Samp.stall_kept {s : State} {t : Thr} {a : Samp} {e : SampEnv} (ha : OnlyReport s a.s) (he : e.key = thrKey t) :
    ((a.stall e).th t).pc = (s.th t).pc ∧ ((a.stall e).th t).v = (s.th t).v ∧ KeptBySampler s (a.stall e) t ∧ ((a.stall e).th t).wait = .caddy := by
  obtain ⟨s', got, want, haq, hstall⟩ := a.stall_waits e
  rw [hstall, he, State.th_setThr]
  have hth : a.s.thr (thrKey t) = s.th t := State.thr_congr ha.aq _
  rw [hth]
  exact ⟨rfl, rfl, keptBySampler_setThr (haq.trans ha.aq) rfl rfl rfl rfl, rfl⟩

/-- R70. SWEEP and SAMPLE of lanes that lack no line: their results stand in the registers, PC moves on, and the lines are let go. -/
theorem sampled_kept {α : Type} {s s' : State} {t : Thr} {f : FmtX} {val : Nat × α → Nat → Option Word} {step : ThreadSt → Nat × α → ThreadSt}
    (hstep : WritesLane val step) {rs : List (Nat × α)} (hrs : rs.map (·.1) = (s.th t).lanesX f) (haq : s'.aq = s.aq) :
    let u := s'.setThr (thrKey t) { (rs.foldl step (s.th t)).next with got := [], want := [] }
    (u.th t).pc = (s.th t).pc + 8 ∧ KeptBySampler s u t ∧ (∀ x ∈ rs, ∀ n, (u.th t).vw n x.1 = (val x n).getD ((s.th t).vw n x.1)) ∧
      (∀ n l, l < 64 → (∀ x ∈ rs, val x n = none) ∨ bitAt ((s.th t).eff false f.pred f.neg) l = false → (u.th t).vw n l = (s.th t).vw n l) := by
  have hlt : ∀ x ∈ rs, x.1 < 64 := fun x hx => (ThreadSt.mem_lanesX.1 (hrs ▸ List.mem_map_of_mem hx)).1
  obtain ⟨honly, hval, hother⟩ := hstep.foldl rs (s.th t) (hrs ▸ ThreadSt.lanesX_nodup _ _) hlt
  obtain ⟨hpc, hs, hp, hstate, hbatch⟩ := honly.fields
  dsimp only
  refine ⟨?_, keptBySampler_setThr haq hs hp hstate hbatch, ?_, fun n l hl hcase => ?_⟩
  · rw [State.th_setThr, ← hpc]
    rfl
  · rw [State.th_setThr]
    exact hval
  · rw [State.th_setThr]
    by_cases hmem : l ∈ rs.map (·.1)
    · have hon := (ThreadSt.mem_lanesX.1 (hrs ▸ hmem)).2
      have hnone := hcase.resolve_right (by rw [hon]; decide)
      obtain ⟨x, hx, rfl⟩ := List.mem_map.1 hmem
      exact (hval x hx n).trans (by rw [hnone x hx, Option.getD_none])
    · exact hother n l hl hmem

/-- R158. The evaluation of SWEEP's acting lanes. -/
def State.sweepEval (s : State) (t : Thr) (f : FmtX) : Samp × List (Nat × Got Nat) :=
  sampLanes (fun a l => if (s.launchTag (thrKey t)).2 then Samp.camLane a (s.sampEnv (thrKey t) f) (s.launchTag (thrKey t)).1 ((s.th t).laneRay f l)
    else Samp.sweepLane a (s.sampEnv (thrKey t) f) (s.launchTag (thrKey t)).1 ((s.th t).laneRay f l)) ((s.th t).lanesX f) ⟨s, [], [], none⟩

/-- R159. The evaluation of SAMPLE's acting lanes. -/
def State.sampleEval (s : State) (t : Thr) (f : FmtX) : Samp × List (Nat × Got (List Nat × Nat)) :=
  sampLanes (fun a l => Samp.sampleLane a (s.sampEnv (thrKey t) f) f ((s.th t).laneRay f l)) ((s.th t).lanesX f) ⟨s, [], [], none⟩

theorem State.sweepEval_report (s : State) (t : Thr) (f : FmtX) : OnlyReport s (s.sweepEval t f).1.s :=
  sampLanes_report (fun a l => by
    split
    · exact a.camLane_report _ _ _
    · exact a.sweepLane_report _ _ _) _ ⟨s, [], [], none⟩

theorem State.sampleEval_report (s : State) (t : Thr) (f : FmtX) : OnlyReport s (s.sampleEval t f).1.s :=
  sampLanes_report (fun a _ => a.sampleLane_report _ _ _) _ ⟨s, [], [], none⟩

/-- R76, R158. The word that SWEEP gives a lane: the background where the ray has no value. -/
abbrev sweepWord (bg : Nat) : Got Nat → Nat
  | .val v => v
  | _ => bg

theorem sweepStep_writesLane (d bg : Nat) : WritesLane (fun x n => if n = d then some (BitVec.ofNat 32 (sweepWord bg x.2)) else none)
    (fun th x => th.setV d x.1 (sweepWord bg x.2)) := by
  refine fun t x => ⟨rfl, fun hx n j hj => ?_⟩
  rw [ThreadSt.vw_setV _ _ _ _ _ _ hx hj]
  by_cases hn : n = d <;> simp [hn]

/-- R159. The components and the fifth register that SAMPLE gives a lane: zeros and a NaN where the ray has no value. -/
abbrev sampleResult : Got (List Nat × Nat) → List Nat × Nat
  | .val x => x
  | _ => ([], f32.qnan)

theorem sampleStep_writesLane (d : Nat) : WritesLane (fun x n => sampleWord d (sampleResult x.2).1 (sampleResult x.2).2 n)
    (fun th x => th.setSample d x.1 (sampleResult x.2).1 (sampleResult x.2).2) :=
  fun t _ => ⟨rfl, fun hx n j hj => t.vw_setSample _ _ _ _ n j hx hj⟩

section
variable {s : State} {t : Thr} {f : FmtX}

theorem exec_sweep_off (hi : Issues s t (touchX f 1)) (hl : legalX (thrIsS t) f 0 = true) (hoff : s.on R.SYN_CTL_ENABLE = false) :
    exec (.sweep t f) s = .next s := by
  show Host.Outcome.next (s.runSweep t f) = _
  rw [State.runSweep, issue_legal _ hi hl, hoff]
  rfl

theorem exec_sweep_stall (hi : Issues s t (touchX f 1)) (hl : legalX (thrIsS t) f 0 = true) (hon : s.on R.SYN_CTL_ENABLE = true)
    (hneed : anyNeed (s.sweepEval t f).2 = true) : exec (.sweep t f) s = .next ((s.sweepEval t f).1.stall (s.sampEnv (thrKey t) f)) := by
  show Host.Outcome.next (s.runSweep t f) = _
  rw [State.runSweep, issue_legal _ hi hl, hon]
  exact congrArg _ (if_pos hneed)

theorem exec_sweep_done (hi : Issues s t (touchX f 1)) (hl : legalX (thrIsS t) f 0 = true) (hon : s.on R.SYN_CTL_ENABLE = true)
    (hneed : anyNeed (s.sweepEval t f).2 = false) : ∃ s' : State, s'.aq = s.aq ∧ exec (.sweep t f) s = .next (s'.setThr (thrKey t)
      { ((s.sweepEval t f).2.foldl (fun th x => th.setV f.d x.1 (sweepWord (ray30 (s.launchTag (thrKey t)).1 s.bkgnd) x.2)) (s.th t)).next with
        got := [], want := [] }) := by
  have hsettle := ((s.sweepEval t f).1.settle_aq (s.sampEnv (thrKey t) f)).trans (s.sweepEval_report t f).aq
  refine ⟨if (s.launchTag (thrKey t)).2 then ((s.sweepEval t f).1.settle (s.sampEnv (thrKey t) f)).bumpBy (R.SYN_HCNT_COUNT (s.sampEnv (thrKey t) f).h 5)
    ((s.sweepEval t f).2.length - (gotVals (s.sweepEval t f).2).length) else (s.sweepEval t f).1.settle (s.sampEnv (thrKey t) f), ?_, ?_⟩
  · split <;> exact hsettle
  · show Host.Outcome.next (s.runSweep t f) = _
    rw [State.runSweep, issue_legal _ hi hl, hon]
    exact congrArg _ (if_neg (Bool.eq_false_iff.1 hneed))

theorem exec_sample_off (hi : Issues s t (touchX f 5)) (hl : legalX (thrIsS t) f 1 = true) (hoff : s.on R.SYN_CTL_ENABLE = false) :
    exec (.sample t f) s = .next s := by
  show Host.Outcome.next (s.runSample t f) = _
  rw [State.runSample, issue_legal _ hi hl, hoff]
  rfl

theorem exec_sample_stall (hi : Issues s t (touchX f 5)) (hl : legalX (thrIsS t) f 1 = true) (hon : s.on R.SYN_CTL_ENABLE = true)
    (hneed : anyNeed (s.sampleEval t f).2 = true) : exec (.sample t f) s = .next ((s.sampleEval t f).1.stall (s.sampEnv (thrKey t) f)) := by
  show Host.Outcome.next (s.runSample t f) = _
  rw [State.runSample, issue_legal _ hi hl, hon]
  exact congrArg _ (if_pos hneed)

theorem exec_sample_done (hi : Issues s t (touchX f 5)) (hl : legalX (thrIsS t) f 1 = true) (hon : s.on R.SYN_CTL_ENABLE = true)
    (hneed : anyNeed (s.sampleEval t f).2 = false) :
    exec (.sample t f) s = .next (((s.sampleEval t f).1.settle (s.sampEnv (thrKey t) f)).setThr (thrKey t)
      { ((s.sampleEval t f).2.foldl (fun th x => th.setSample f.d x.1 (sampleResult x.2).1 (sampleResult x.2).2) (s.th t)).next with
        got := [], want := [] }) := by
  show Host.Outcome.next (s.runSample t f) = _
  rw [State.runSample, issue_legal _ hi hl, hon]
  refine congrArg _ ((if_neg (Bool.eq_false_iff.1 hneed)).trans ?_)
  refine congrArg (fun th : ThreadSt => ((s.sampleEval t f).1.settle (s.sampEnv (thrKey t) f)).setThr (thrKey t) { th.next with got := [], want := [] })
    (List.foldl_ext _ _ _ fun th x _ => ?_)
  obtain ⟨l, ⟨c, z⟩ | _ | _⟩ := x <;> rfl

theorem exec_dhint_off (hi : Issues s t (touchX f 0)) (hl : legalX (thrIsS t) f 2 = true) (hoff : s.on R.SYN_CTL_ENABLE = false) :
    exec (.dhint t f) s = .next (s.setThr (thrKey t) (s.th t).next) := by
  show Host.Outcome.next (s.runDhint t f) = _
  rw [State.runDhint, issue_legal _ hi hl, hoff]
  rfl

theorem exec_dhint_on (hi : Issues s t (touchX f 0)) (hl : legalX (thrIsS t) f 2 = true) (hon : s.on R.SYN_CTL_ENABLE = true) :
    exec (.dhint t f) s = .next ((State.request (s.sampEnv (thrKey t) f).h true (s.sampleEval t f).1.needs
      ((s.sampleEval t f).1.settle (s.sampEnv (thrKey t) f)) []).1.setThr (thrKey t) (s.th t).next) := by
  show Host.Outcome.next (s.runDhint t f) = _
  rw [State.runDhint, issue_legal _ hi hl, hon]
  rfl

end

/-! #### The instructions' effects -/

theorem sampleWord_none {d n : Nat} (c : List Nat) (z : Nat) (h : n < d ∨ d + 5 ≤ n) : sampleWord d c z n = none := if_pos h

theorem sampleWord_component (d : Nat) (c : List Nat) (z : Nat) {i : Nat} (hi : i < 4) :
    sampleWord d c z (d + i) = some (BitVec.ofNat 32 (c.getD i 0)) := by
  rw [sampleWord, if_neg (by omega), if_neg (by omega), Nat.add_sub_cancel_left]

theorem sampleWord_last (d : Nat) (c : List Nat) (z : Nat) : sampleWord d c z (d + 4) = some (BitVec.ofNat 32 z) := by
  rw [sampleWord, if_neg (by omega), if_pos rfl]

section
variable {s : State} {t : Thr} {f : FmtX}

/-- R158. SWEEP once no line is lacking. -/
theorem sweep_writes (hi : Issues s t (touchX f 1)) (hl : legalX (thrIsS t) f 0 = true) (hon : s.on R.SYN_CTL_ENABLE = true)
    (hneed : anyNeed (s.sweepEval t f).2 = false) : ∃ u, exec (.sweep t f) s = .next u ∧ (u.th t).pc = (s.th t).pc + 8 ∧ KeptBySampler s u t ∧
      (∀ n l, l < 64 → n ≠ f.d ∨ bitAt ((s.th t).eff false f.pred f.neg) l = false → (u.th t).vw n l = (s.th t).vw n l) ∧
      ∀ x ∈ (s.sweepEval t f).2, (u.th t).vw f.d x.1 = BitVec.ofNat 32 (sweepWord (ray30 (s.launchTag (thrKey t)).1 s.bkgnd) x.2) := by
  obtain ⟨s', haq, hexec⟩ := exec_sweep_done hi hl hon hneed
  obtain ⟨hpc, hkept, hval, hother⟩ := sampled_kept (f := f) (sweepStep_writesLane f.d (ray30 (s.launchTag (thrKey t)).1 s.bkgnd))
    (rs := (s.sweepEval t f).2) (sampLanes_fst _ _ _) haq
  refine ⟨_, hexec, hpc, hkept, fun n l hl hcase => hother n l hl (hcase.imp_left fun hn x _ => if_neg hn), fun x hx => ?_⟩
  rw [hval x hx, if_pos rfl, Option.getD_some]

/-- R159. SAMPLE once no line is lacking. -/
theorem sample_writes (hi : Issues s t (touchX f 5)) (hl : legalX (thrIsS t) f 1 = true) (hon : s.on R.SYN_CTL_ENABLE = true)
    (hneed : anyNeed (s.sampleEval t f).2 = false) : ∃ u, exec (.sample t f) s = .next u ∧ (u.th t).pc = (s.th t).pc + 8 ∧ KeptBySampler s u t ∧
      (∀ n l, l < 64 → n < f.d ∨ f.d + 5 ≤ n ∨ bitAt ((s.th t).eff false f.pred f.neg) l = false → (u.th t).vw n l = (s.th t).vw n l) ∧
      ∀ x ∈ (s.sampleEval t f).2, (∀ i, i < 4 → (u.th t).vw (f.d + i) x.1 = BitVec.ofNat 32 ((sampleResult x.2).1.getD i 0)) ∧
        (u.th t).vw (f.d + 4) x.1 = BitVec.ofNat 32 (sampleResult x.2).2 := by
  have haq := ((s.sampleEval t f).1.settle_aq (s.sampEnv (thrKey t) f)).trans (s.sampleEval_report t f).aq
  obtain ⟨hpc, hkept, hval, hother⟩ := sampled_kept (f := f) (sampleStep_writesLane f.d) (rs := (s.sampleEval t f).2) (sampLanes_fst _ _ _) haq
  refine ⟨_, exec_sample_done hi hl hon hneed, hpc, hkept, fun n l hl hcase => hother n l hl ?_, fun x hx => ⟨fun i hi => ?_, ?_⟩⟩
  · exact (or_assoc.2 hcase).imp_left fun hn x _ => sampleWord_none _ _ hn
  · rw [hval x hx, sampleWord_component _ _ _ hi, Option.getD_some]
  · rw [hval x hx, sampleWord_last, Option.getD_some]

/-- R160. DHINT moves on and leaves the registers. -/
theorem dhint_passes (hi : Issues s t (touchX f 0)) (hl : legalX (thrIsS t) f 2 = true) :
    ∃ u, exec (.dhint t f) s = .next u ∧ (u.th t).pc = (s.th t).pc + 8 ∧ (u.th t).v = (s.th t).v ∧ KeptBySampler s u t ∧
      (s.on R.SYN_CTL_ENABLE = false → Passed s u t) := by
  have hnext : ∀ {s' : State}, s'.aq = s.aq → let u := s'.setThr (thrKey t) (s.th t).next
      (u.th t).pc = (s.th t).pc + 8 ∧ (u.th t).v = (s.th t).v ∧ KeptBySampler s u t := fun h =>
    ⟨by rw [State.th_setThr]; rfl, by rw [State.th_setThr]; rfl, keptBySampler_setThr h rfl rfl rfl rfl⟩
  cases hon : s.on R.SYN_CTL_ENABLE with
  | false =>
    obtain ⟨hpc, hv, hkept⟩ := hnext (s' := s) rfl
    exact ⟨_, exec_dhint_off hi hl hon, hpc, hv, hkept, fun _ => ⟨onlyThread_setThr _ _ _, State.th_setThr _ _ _⟩⟩
  | true =>
    have haq := (State.request_aq (s.sampEnv (thrKey t) f).h true (s.sampleEval t f).1.needs _ []).trans
      (((s.sampleEval t f).1.settle_aq (s.sampEnv (thrKey t) f)).trans (s.sampleEval_report t f).aq)
    obtain ⟨hpc, hv, hkept⟩ := hnext haq
    exact ⟨_, exec_dhint_on hi hl hon, hpc, hv, hkept, nofun⟩

end

/-- Settles O2: SWEEP, SAMPLE and DHINT, with the sampler off, with every line present, and with a line lacking. -/
theorem samplingInstructions : Obligations.SamplingInstructions := by
  intro s e sl f t th k en tag sw sa kept
  refine ⟨fun hi hl => ⟨exec_sweep_off hi hl, fun hon hneed => ?_, fun hon hneed => ?_⟩,
    fun hi hl => ⟨exec_sample_off hi hl, fun hon hneed => ?_, fun hon hneed => ?_⟩, fun hi hl => dhint_passes hi hl⟩
  · obtain ⟨u, hexec, hpc, hkept, hother, hval⟩ := sweep_writes hi hl hon hneed
    refine ⟨u, hexec, hpc, hkept, hother, fun x hx => (hval x hx).trans ?_⟩
    obtain ⟨l, v | _ | _⟩ := x <;> rfl
  · exact ⟨_, exec_sweep_stall hi hl hon hneed, Samp.stall_kept (s.sweepEval_report t f) rfl⟩
  · obtain ⟨u, hexec, hpc, hkept, hother, hval⟩ := sample_writes hi hl hon hneed
    refine ⟨u, hexec, hpc, hkept, hother, fun x hx => ?_⟩
    have hx' := hval x hx
    obtain ⟨l, ⟨c, z⟩ | _ | _⟩ := x
    · exact hx'
    · simpa [sampleResult] using hx'
    · simpa [sampleResult] using hx'
  · exact ⟨_, exec_sample_stall hi hl hon hneed, Samp.stall_kept (s.sampleEval_report t f) rfl⟩

end Sys2Proof.Machine
end

section
/-! ### Lines of a Caddy slice and the threads that wait for them (R69–R71) -/
namespace Sys2Proof.Machine
open Sys2Proof

theorem State.caddy_setCaddy (s : State) (h : Nat) (c : CaddySt) (k : Nat) : (s.setCaddy h c).caddy k = if k = h then c else s.caddy k := by
  simp [State.setCaddy, State.caddy, mapGet_mapPut]

@[simp] theorem State.caddy_setCaddy_same (s : State) (h : Nat) (c : CaddySt) : (s.setCaddy h c).caddy h = c := by simp [State.caddy_setCaddy]

theorem State.caddy_congr {s u : State} (h : u.syn = s.syn) (k : Nat) : u.caddy k = s.caddy k := by rw [State.caddy, h]; rfl

@[simp] theorem CaddySt.prune_lines (c : CaddySt) : c.prune.lines = c.lines := rfl
@[simp] theorem CaddySt.prune_fills (c : CaddySt) : c.prune.fills = c.fills := rfl

theorem mem_hamletKeys {h k : Nat} : k ∈ hamletKeys h ↔ k / 64 = h := by
  simp only [hamletKeys, List.mem_map, List.mem_range]
  exact ⟨fun ⟨i, hi, he⟩ => by omega, fun he => ⟨k % 64, by omega, by omega⟩⟩

theorem hamletKeys_nodup (h : Nat) : (hamletKeys h).Nodup :=
  List.nodup_range.map fun _ _ hij => Nat.add_left_cancel hij

/-- A step that changes the record of one thread, over distinct threads. -/
theorem thr_foldl_keys {step : State → Nat → State} {g : ThreadSt → ThreadSt}
    (hstep : ∀ s k j, (step s k).thr j = if j = k then g (s.thr k) else s.thr j) :
    ∀ (keys : List Nat) (s : State) (j : Nat), keys.Nodup → (keys.foldl step s).thr j = if j ∈ keys then g (s.thr j) else s.thr j
  | [], _, _, _ => by simp
  | k :: keys, s, j, hnodup => by
    obtain ⟨hk, hnodup⟩ := List.nodup_cons.1 hnodup
    rw [List.foldl_cons, thr_foldl_keys hstep keys _ j hnodup, hstep]
    by_cases hj : j = k
    · subst hj; simp [hk]
    · simp [hj]

/-! #### A line is delivered -/

/-- R70. The record of a waiting thread once a line is there. -/
def ThreadSt.receive (th : ThreadSt) (t : LineTag) (data : List Byte) : ThreadSt :=
  let th := if th.want.contains t then { th with got := th.got ++ [(t, data)], want := th.want.filter (fun x => decide (x ≠ t)) } else th
  if th.want = [] then { th with wait := .none } else th

/-- R70. The record of a thread once a line is there: only one that waits takes it. -/
def ThreadSt.delivered (th : ThreadSt) (t : LineTag) (data : List Byte) : ThreadSt := if th.wait == .caddy then th.receive t data else th

theorem ThreadSt.delivered_other {th : ThreadSt} (t : LineTag) (data : List Byte) (h : th.wait ≠ .caddy) : th.delivered t data = th := by
  simp [ThreadSt.delivered, h]

theorem ThreadSt.delivered_waiting {th : ThreadSt} {t : LineTag} (data : List Byte) (hwait : th.wait = .caddy) (hwant : th.want.contains t = true) :
    th.delivered t data = { th with got := th.got ++ [(t, data)], want := th.want.filter (fun x => decide (x ≠ t)),
                                    wait := if th.want.filter (fun x => decide (x ≠ t)) = [] then .none else .caddy } := by
  simp only [ThreadSt.delivered, ThreadSt.receive, hwait, hwant, beq_self_eq_true, if_true]
  split <;> simp

/-- What a thread executes: registers, PC and state. -/
def ThreadSt.SameRun (t u : ThreadSt) : Prop := u.v = t.v ∧ u.pc = t.pc ∧ u.state = t.state

theorem ThreadSt.SameRun.trans {t u w : ThreadSt} (h1 : t.SameRun u) (h2 : u.SameRun w) : t.SameRun w :=
  ⟨h2.1.trans h1.1, h2.2.1.trans h1.2.1, h2.2.2.trans h1.2.2⟩

theorem ThreadSt.delivered_sameRun (th : ThreadSt) (t : LineTag) (data : List Byte) : th.SameRun (th.delivered t data) := by
  unfold ThreadSt.delivered ThreadSt.receive
  dsimp only
  split
  · split
    · split <;> exact ⟨rfl, rfl, rfl⟩
    · split <;> exact ⟨rfl, rfl, rfl⟩
  · exact ⟨rfl, rfl, rfl⟩

/-- R70. The line reaches one thread. -/
def State.deliverTo (t : LineTag) (data : List Byte) (s : State) (k : Nat) : State :=
  if (s.thr k).wait == .caddy then s.setThr k ((s.thr k).receive t data) else s

theorem State.deliverLine_eq (s : State) (h : Nat) (t : LineTag) (data : List Byte) :
    s.deliverLine h t data = (hamletKeys h).foldl (State.deliverTo t data) s := rfl

theorem State.thr_deliverTo (t : LineTag) (data : List Byte) (s : State) (k j : Nat) :
    (State.deliverTo t data s k).thr j = if j = k then (s.thr k).delivered t data else s.thr j := by
  unfold State.deliverTo ThreadSt.delivered
  split
  · exact s.thr_setThr k _ j
  · split
    · rename_i hj; rw [hj]
    · rfl

theorem State.thr_deliverLine (s : State) (h : Nat) (t : LineTag) (data : List Byte) (k : Nat) :
    (s.deliverLine h t data).thr k = if k / 64 = h then (s.thr k).delivered t data else s.thr k := by
  rw [State.deliverLine_eq, thr_foldl_keys (g := fun th => th.delivered t data) (State.thr_deliverTo t data) _ _ _ (hamletKeys_nodup h)]
  simp only [mem_hamletKeys]

/-- Nothing but threads' records changes. -/
def OnlyThreads (s u : State) : Prop := u = { s with aq := { s.aq with threads := u.aq.threads } }

theorem OnlyThreads.trans {s u v : State} (h1 : OnlyThreads s u) (h2 : OnlyThreads u v) : OnlyThreads s v := by
  unfold OnlyThreads at *
  rw [h1] at h2
  exact h2

theorem OnlyThreads.syn {s u : State} (h : OnlyThreads s u) : u.syn = s.syn := by rw [h]
theorem OnlyThreads.get {s u : State} (h : OnlyThreads s u) (g : Fld) : u.get g = s.get g := by
  have hregs : u.regs = s.regs := by rw [h]
  have hmember : u.member = s.member := by rw [h]
  rw [State.get, State.get, State.word, State.word, hregs, hmember]

theorem State.deliverLine_onlyThreads (s : State) (h : Nat) (t : LineTag) (data : List Byte) : OnlyThreads s (s.deliverLine h t data) := by
  rw [State.deliverLine_eq]
  generalize hamletKeys h = keys
  induction keys generalizing s with
  | nil => rfl
  | cons k keys ih =>
    refine OnlyThreads.trans ?_ (ih _)
    unfold State.deliverTo
    split <;> rfl

/-! #### A tile is invalid -/

/-- R74. Delivering lines that could not be had leaves what every thread executes. -/
theorem deliverLines_spec (h : Nat) (fs : List CFill) : ∀ s : State,
    OnlyThreads s (fs.foldl (fun s f => s.deliverLine h f.tag []) s) ∧ ∀ k, (s.thr k).SameRun ((fs.foldl (fun s f => s.deliverLine h f.tag []) s).thr k) := by
  induction fs with
  | nil => exact fun s => ⟨rfl, fun k => ⟨rfl, rfl, rfl⟩⟩
  | cons f fs ih =>
    intro s
    simp only [List.foldl_cons]
    obtain ⟨hframe, hrun⟩ := ih (s.deliverLine h f.tag [])
    refine ⟨(s.deliverLine_onlyThreads h f.tag []).trans hframe, fun k => ThreadSt.SameRun.trans ?_ (hrun k)⟩
    rw [State.thr_deliverLine]
    split
    · exact (s.thr k).delivered_sameRun f.tag []
    · exact ⟨rfl, rfl, rfl⟩

/-- R74. The lines and the fills of a payload are dropped from a slice. -/
def CaddySt.without (c : CaddySt) (pay : Option (Nat × Nat × Nat)) : CaddySt :=
  { c with lines := c.lines.filter (fun l => decide (l.tag.payload ≠ pay)), fills := c.fills.filter (fun f => decide (f.tag.payload ≠ pay)) }.prune

theorem State.tileInvalid_eq (s : State) (h ctx va reason : Nat) (pay : Option (Nat × Nat × Nat)) :
    s.tileInvalid h ctx va reason pay =
      (((s.markInvalid h ctx va reason).caddy h).fills.filter (fun f => decide (f.tag.payload = pay))).foldl (fun s f => s.deliverLine h f.tag [])
        ((s.markInvalid h ctx va reason).setCaddy h (((s.markInvalid h ctx va reason).caddy h).without pay)) := rfl

/-- R74. What finding a tile invalid drops: the lines and the fills of its payload, in one hamlet. -/
theorem State.tileInvalid_drops (s : State) (h ctx va reason : Nat) (pay : Option (Nat × Nat × Nat)) :
    (s.tileInvalid h ctx va reason pay).caddy h = (s.caddy h).without pay ∧
    (∀ o, o ≠ h → (s.tileInvalid h ctx va reason pay).caddy o = s.caddy o) ∧
    ∀ k, (s.thr k).SameRun ((s.tileInvalid h ctx va reason pay).thr k) := by
  have hmark := s.markInvalid_report h ctx va reason
  rw [State.tileInvalid_eq, State.caddy_congr hmark.syn]
  obtain ⟨hframe, hrun⟩ := deliverLines_spec h ((s.caddy h).fills.filter (fun f => decide (f.tag.payload = pay)))
    ((s.markInvalid h ctx va reason).setCaddy h ((s.caddy h).without pay))
  refine ⟨?_, fun o ho => ?_, fun k => ?_⟩
  · rw [State.caddy_congr hframe.syn, State.caddy_setCaddy_same]
  · rw [State.caddy_congr hframe.syn, State.caddy_setCaddy, if_neg ho, State.caddy_congr hmark.syn]
  · have hthr : ((s.markInvalid h ctx va reason).setCaddy h ((s.caddy h).without pay)).thr k = s.thr k := State.thr_congr hmark.aq k
    exact hthr ▸ hrun k

end Sys2Proof.Machine
end

section
/-! ### The commands of Caddy, and O3 (R55, R57, R68–R74) -/
namespace Sys2Proof.Machine
open Sys2Proof

/-! #### First touch -/

/-- R72. The oldest fill whose payload has no index. -/
def CaddySt.untouched (c : CaddySt) : Option CFill :=
  c.fills.find? (fun f => match f.tag.payload with
    | some p => !c.indexed.contains p
    | none => false)

theorem exec_firstTouch {s : State} {h : Nat} {f : CFill} {p : Nat × Nat × Nat} (hf : (s.caddy h).untouched = some f) (hp : f.tag.payload = some p) :
    exec (.firstTouch h) s = .next (s.firstTouch h f p.1 p.2.1 p.2.2) := by
  show Host.Outcome.next (match (s.caddy h).untouched with
    | none => s
    | some f => match f.tag.payload with
      | some (a, b, i) => s.firstTouch h f a b i
      | none => s) = _
  rw [hf]
  simp only [hp]

/-- R72. What first touch judges of the format of a payload. -/
def tileCheck (e : ResEntry) (bs : List Byte) (f : CFill) : Option Nat :=
  if e.code = 0 then jxsCheck bs f.width f.height else kpkCheck bs f.tag.isDep f.width f.height

section
variable {s : State} {h : Nat} {f : CFill} {p : Nat × Nat × Nat} {eb bs : List Byte}

theorem State.firstTouch_passes (hv : s.vread f.ctx f.src .read 32 = .ok eb) (hb : s.payload f.ctx (ResEntry.ofBytes eb) = .ok bs)
    (hcrc : s.slotCrc p.1 = false ∨ crc32c bs = (ResEntry.ofBytes eb).pcrc) (hcheck : tileCheck (ResEntry.ofBytes eb) bs f = none) :
    s.firstTouch h f p.1 p.2.1 p.2.2 = s.setCaddy h { s.caddy h with indexed := (s.caddy h).indexed ++ [p] } := by
  have hcrc : (s.slotCrc p.1 && decide (crc32c bs ≠ (ResEntry.ofBytes eb).pcrc)) = false := by
    rcases hcrc with hcrc | hcrc <;> simp [hcrc]
  unfold tileCheck at hcheck
  simp only [State.firstTouch, hv, hb, hcrc, hcheck, Bool.false_eq_true, if_false]

theorem State.firstTouch_badCrc (hv : s.vread f.ctx f.src .read 32 = .ok eb) (hb : s.payload f.ctx (ResEntry.ofBytes eb) = .ok bs)
    (hslot : s.slotCrc p.1 = true) (hcrc : crc32c bs ≠ (ResEntry.ofBytes eb).pcrc) :
    s.firstTouch h f p.1 p.2.1 p.2.2 = s.tileInvalid h f.ctx f.src 3 (some p) := by
  have hbad : (s.slotCrc p.1 && decide (crc32c bs ≠ (ResEntry.ofBytes eb).pcrc)) = true := by simp [hslot, hcrc]
  simp only [State.firstTouch, hv, hb, hbad, if_true]

/-- R55, R72. First touch of a payload that passes its checks. -/
theorem firstTouch_indexes (hf : (s.caddy h).untouched = some f) (hp : f.tag.payload = some p) (hv : s.vread f.ctx f.src .read 32 = .ok eb)
    (hb : s.payload f.ctx (ResEntry.ofBytes eb) = .ok bs) (hcrc : s.slotCrc p.1 = false ∨ crc32c bs = (ResEntry.ofBytes eb).pcrc)
    (hcheck : tileCheck (ResEntry.ofBytes eb) bs f = none) :
    ∃ u, exec (.firstTouch h) s = .next u ∧ u.caddy h = { s.caddy h with indexed := (s.caddy h).indexed ++ [p] } ∧
      (∀ o, o ≠ h → u.caddy o = s.caddy o) ∧ u = { s with syn := { s.syn with caddy := u.syn.caddy } } := by
  refine ⟨_, exec_firstTouch hf hp, ?_⟩
  rw [State.firstTouch_passes hv hb hcrc hcheck]
  exact ⟨State.caddy_setCaddy_same _ _ _, fun o ho => by rw [State.caddy_setCaddy, if_neg ho], rfl⟩

/-- R55, R57, R74. First touch of a payload whose CRC is wrong. -/
theorem firstTouch_drops (hf : (s.caddy h).untouched = some f) (hp : f.tag.payload = some p) (hv : s.vread f.ctx f.src .read 32 = .ok eb)
    (hb : s.payload f.ctx (ResEntry.ofBytes eb) = .ok bs) (hslot : s.slotCrc p.1 = true) (hcrc : crc32c bs ≠ (ResEntry.ofBytes eb).pcrc) :
    ∃ u, exec (.firstTouch h) s = .next u ∧ (∀ l ∈ (u.caddy h).lines, l.tag.payload ≠ some p) ∧ (∀ x ∈ (u.caddy h).fills, x.tag.payload ≠ some p) ∧
      (∀ o, o ≠ h → u.caddy o = s.caddy o) ∧
      ∀ key, (u.thr key).v = (s.thr key).v ∧ (u.thr key).pc = (s.thr key).pc ∧ (u.thr key).state = (s.thr key).state := by
  refine ⟨_, exec_firstTouch hf hp, ?_⟩
  rw [State.firstTouch_badCrc hv hb hslot hcrc]
  obtain ⟨hslice, hothers, hrun⟩ := s.tileInvalid_drops h f.ctx f.src 3 (some p)
  rw [hslice]
  exact ⟨fun l hl => of_decide_eq_true (List.mem_filter.1 hl).2, fun x hx => of_decide_eq_true (List.mem_filter.1 hx).2, hothers, hrun⟩

end

/-! #### A strip fills its line -/

/-- R70. The choice of the lines that stay, by what the slice's other lines, the threads that pin them and the oldest request are. -/
def chooseKept (serves : Bool) (others pinned : LineTag → Bool) (rest : List CLine) : Option (List CLine) :=
  let drop := fun (v : LineTag) => rest.filter (fun l => decide (l.tag ≠ v))
  if !serves && decide (184 ≤ (rest.filter (fun l => others l.tag)).length) then none
  else if rest.length < 200 then some rest
  else match lruLine pinned rest with
    | some v => some (drop v)
    | none => if serves then (match lruLine others rest with
        | some v => some (drop v)
        | none => (lruLine (fun _ => false) rest).map drop)
      else none

theorem State.fillKeep_eq (s : State) (h : Nat) (t : LineTag) :
    ∃ serves others pinned, s.fillKeep h t = chooseKept serves others pinned ((s.caddy h).lines.filter (fun l => decide (l.tag ≠ t))) := ⟨_, _, _, rfl⟩

/-- Only lines of the slice stay. -/
theorem chooseKept_subset {serves : Bool} {others pinned : LineTag → Bool} {rest keep : List CLine} (hk : chooseKept serves others pinned rest = some keep) :
    keep ⊆ rest := by
  unfold chooseKept at hk
  dsimp only at hk
  split at hk
  · cases hk
  split at hk
  · cases hk; exact List.Subset.refl _
  split at hk
  · cases hk; exact List.filter_subset_self _
  split at hk
  · split at hk
    · cases hk; exact List.filter_subset_self _
    · obtain ⟨v, -, rfl⟩ := Option.map_eq_some_iff.1 hk
      exact List.filter_subset_self _
  · cases hk

/-- The lines that stay beside a line that is filled are others. -/
theorem State.fillKeep_tag {s : State} {h : Nat} {t : LineTag} {keep : List CLine} (hk : s.fillKeep h t = some keep) : ∀ l ∈ keep, l.tag ≠ t := by
  obtain ⟨serves, others, pinned, heq⟩ := s.fillKeep_eq h t
  exact fun l hl => of_decide_eq_true (List.mem_filter.1 (chooseKept_subset (heq.symm.trans hk) hl)).2

/-- The line installed is the one found under its tag. -/
theorem CaddySt.find_install (c : CaddySt) {keep : List CLine} {t : LineTag} (data : List Byte) (hk : ∀ l ∈ keep, l.tag ≠ t) :
    (((c.install keep t data).prune.find t).map (·.data)) = some data := by
  have hnone : keep.find? (fun l => decide (l.tag = t)) = none := List.find?_eq_none.2 fun l hl => by simpa using hk l hl
  simp [CaddySt.find, CaddySt.install, List.find?_append, hnone]

/-- The slice of a hamlet once a fill of a line has completed there. -/
def CaddySt.filled (c : CaddySt) (keep : List CLine) (t : LineTag) (data : List Byte) : CaddySt :=
  ({ c with fills := c.fills.filter (fun f => decide (f.tag ≠ t)) }.prune.install keep t data).prune

/-- R70, R72. The line stands in the slice, and the threads that wait for it have it. -/
def State.storeLine (s : State) (h : Nat) (t : LineTag) (keep : List CLine) (data : List Byte) : State :=
  ((s.dropFill h t).setCaddy h (((s.dropFill h t).caddy h).install keep t data).prune).deliverLine h t data

theorem State.fillLine_eq {s : State} {h : Nat} {t : LineTag} {keep : List CLine} (decoded : Bool) (data : List Byte) (hk : s.fillKeep h t = some keep) :
    s.fillLine h t decoded data = if decoded then (s.storeLine h t keep data).bump (R.SYN_HCNT_COUNT h 3) else s.storeLine h t keep data := by
  rw [State.fillLine, hk]
  rfl

theorem State.storeLine_spec (s : State) (h : Nat) (t : LineTag) (keep : List CLine) (data : List Byte) :
    (s.storeLine h t keep data).caddy h = (s.caddy h).filled keep t data ∧ (∀ o, o ≠ h → (s.storeLine h t keep data).caddy o = s.caddy o) ∧
    (∀ k, (s.storeLine h t keep data).thr k = if k / 64 = h then (s.thr k).delivered t data else s.thr k) ∧
    ∀ g, (s.storeLine h t keep data).get g = s.get g := by
  have hframe := ((s.dropFill h t).setCaddy h (((s.dropFill h t).caddy h).install keep t data).prune).deliverLine_onlyThreads h t data
  unfold State.storeLine
  refine ⟨?_, fun o ho => ?_, fun k => ?_, fun g => ?_⟩
  · rw [State.caddy_congr hframe.syn, State.caddy_setCaddy_same, State.dropFill, State.caddy_setCaddy_same]
    rfl
  · rw [State.caddy_congr hframe.syn, State.caddy_setCaddy, if_neg ho, State.dropFill, State.caddy_setCaddy, if_neg ho]
  · rw [State.thr_deliverLine, State.thr_congr (State.setCaddy_aq _ _ _), State.dropFill, State.thr_congr (State.setCaddy_aq _ _ _)]
  · rw [hframe.get, State.setCaddy_get, State.dropFill, State.setCaddy_get]

/-- The bytes of a fill: a strip that a sound payload decodes to, or the rows of a camera image. -/
def State.FillReads (s : State) (h : Nat) (f : CFill) (data : List Byte) : Prop :=
  match f.tag.payload with
  | some p => (s.caddy h).indexed.contains p = true ∧ ∃ eb bs, s.vread f.ctx f.src .read 32 = .ok eb ∧ s.payload f.ctx (ResEntry.ofBytes eb) = .ok bs ∧
      stripBytes (ResEntry.ofBytes eb) bs f.tag.isDep f.width f.height f.tag.strip = .ok data
  | none => s.camStrip f f.height f.src = .ok data

/-- R72, R74. A strip whose bytes can be had fills its line; that of a tile counts as decoded. -/
theorem exec_stripDecoded {s : State} {h i : Nat} {f : CFill} {data : List Byte} (hf : (s.caddy h).fills[i]? = some f) (hread : s.FillReads h f data) :
    exec (.stripDecoded h i) s = .next (s.fillLine h f.tag (decide (f.tag.payload ≠ none)) data) := by
  show execStripDecoded h i s = _
  unfold State.FillReads at hread
  simp only [execStripDecoded, hf]
  cases htag : f.tag with
  | cam a b r c =>
    simp only [htag, LineTag.payload] at hread ⊢
    simp only [State.stripDecoded, htag, hread]
    rfl
  | tex a b c k =>
    simp only [htag, LineTag.payload] at hread ⊢
    obtain ⟨hix, eb, bs, hv, hb, hstrip⟩ := hread
    simp only [State.stripDecoded, hix, htag, hv, hb, hstrip, if_true]
    rfl
  | dep a b c k =>
    simp only [htag, LineTag.payload] at hread ⊢
    obtain ⟨hix, eb, bs, hv, hb, hstrip⟩ := hread
    simp only [State.stripDecoded, hix, htag, hv, hb, hstrip, if_true]
    rfl

/-- R70, R72. STRIP_DECODED. -/
theorem stripDecoded_fills {s : State} {h i : Nat} {f : CFill} {data : List Byte} (hf : (s.caddy h).fills[i]? = some f) (hread : s.FillReads h f data)
    (hkeep : s.fillKeep h f.tag ≠ none) :
    ∃ u, exec (.stripDecoded h i) s = .next u ∧ ((u.caddy h).find f.tag).map (·.data) = some data ∧ (∀ x ∈ (u.caddy h).fills, x.tag ≠ f.tag) ∧
      (f.tag.payload ≠ none → u.get (R.SYN_HCNT_COUNT h 3) = (s.get (R.SYN_HCNT_COUNT h 3) + 1) % 2 ^ 32) ∧
      (∀ o, o ≠ h → u.caddy o = s.caddy o) ∧
      ∀ k, u.thr k = if k / 64 = h then (s.thr k).delivered f.tag data else s.thr k := by
  obtain ⟨keep, hkeep⟩ := Option.ne_none_iff_exists'.1 hkeep
  obtain ⟨hslice, hothers, hthr, hget⟩ := s.storeLine_spec h f.tag keep data
  have hw := State.fillLine_eq (decide (f.tag.payload ≠ none)) data hkeep
  generalize s.storeLine h f.tag keep data = w at hslice hothers hthr hget hw
  have hsyn : (s.fillLine h f.tag (decide (f.tag.payload ≠ none)) data).syn = w.syn := by rw [hw]; split <;> rfl
  have haq : (s.fillLine h f.tag (decide (f.tag.payload ≠ none)) data).aq = w.aq := by rw [hw]; split <;> rfl
  refine ⟨_, exec_stripDecoded hf hread, ?_, fun x hx => ?_, fun htile => ?_, fun o ho => ?_, fun k => ?_⟩
  · rw [State.caddy_congr hsyn, hslice]
    exact CaddySt.find_install _ data (State.fillKeep_tag hkeep)
  · rw [State.caddy_congr hsyn, hslice] at hx
    exact of_decide_eq_true (List.mem_filter.1 hx).2
  · rw [hw, if_pos (decide_eq_true htile), State.get_bump_same _ (R.SYN_HCNT_COUNT h 3) (Nat.le_refl 32), hget]
    rfl
  · rw [State.caddy_congr hsyn, hothers o ho]
  · rw [State.thr_congr haq, hthr]

/-! #### Invalidation -/

theorem State.invalidate_queues (s : State) (x : Option Nat) :
    (s.invalidate x).syn.invs = s.syn.invs ++ [x] ∧ (s.invalidate x).get R.SYN_STAT_INV_BUSY = 1 ∧ (s.invalidate x).syn.caddy = s.syn.caddy :=
  ⟨rfl, State.get_put_same _ _ _ (by decide), rfl⟩

/-- R69, R71. What stays of a slice's lines after an invalidation. -/
def CaddySt.linesKept (c : CaddySt) (x : Option Nat) : List CLine :=
  match x with
  | none => []
  | some n => c.lines.filter (fun l => !l.tag.ofSlot n)

/-- R71. The lines of an invalidation's scope are dropped from one slice. -/
def State.dropLinesIn (x : Option Nat) (s : State) (h : Nat) : State := s.setCaddy h { s.caddy h with lines := (s.caddy h).linesKept x }.prune

theorem State.dropLines_eq (s : State) (x : Option Nat) : s.dropLines x = foldRange 16 (State.dropLinesIn x) s := rfl

theorem State.dropLines_spec (s : State) (x : Option Nat) :
    (∀ h, h < 16 → (s.dropLines x).caddy h = { s.caddy h with lines := (s.caddy h).linesKept x }.prune) ∧
    (s.dropLines x).aq = s.aq ∧ (s.dropLines x).mem = s.mem := by
  have hfold := foldRange_induct
    (P := fun k (u : State) => (∀ h, u.caddy h = if h < k then { s.caddy h with lines := (s.caddy h).linesKept x }.prune else s.caddy h) ∧
      u.aq = s.aq ∧ u.mem = s.mem)
    (f := State.dropLinesIn x) (s := s) (by simp) 16 (by
      rintro k - u ⟨hu, haq, hmem⟩
      refine ⟨fun h => ?_, haq, hmem⟩
      rw [State.dropLinesIn, State.caddy_setCaddy]
      by_cases hk : h = k
      · subst hk; simp [hu]
      · simp only [if_neg hk, hu, show h < k + 1 ↔ h < k by omega])
  obtain ⟨hslices, haq, hmem⟩ := hfold
  rw [State.dropLines_eq]
  exact ⟨fun h hh => (hslices h).trans (if_pos hh), haq, hmem⟩

/-- R71. An invalidation has completed: the others wait on, and INV_BUSY clears with the last. -/
def State.invEnded (s : State) (rest : List (Option Nat)) : State :=
  ({ s with syn := { s.syn with invs := rest } } : State).put R.SYN_STAT_INV_BUSY (b2n (decide (rest ≠ [])))

theorem State.invEnded_spec (s : State) (rest : List (Option Nat)) :
    (s.invEnded rest).syn.invs = rest ∧ (s.invEnded rest).get R.SYN_STAT_INV_BUSY = b2n (decide (rest ≠ [])) ∧
    (∀ h, (s.invEnded rest).caddy h = s.caddy h) ∧ (s.invEnded rest).aq = s.aq ∧ (s.invEnded rest).mem = s.mem := by
  refine ⟨rfl, ?_, fun _ => rfl, rfl, rfl⟩
  rw [State.invEnded, State.get_put_same _ _ _ (by decide)]
  cases decide (rest ≠ []) <;> rfl

theorem exec_caddyInvComplete {s : State} {x : Option Nat} {rest : List (Option Nat)} (hinvs : s.syn.invs = x :: rest) (hdone : s.fillsDone x = true) :
    exec .caddyInvComplete s = .next ((s.dropLines x).invEnded rest) := by
  show execCaddyInvComplete s = _
  simp only [execCaddyInvComplete, hinvs, hdone, if_true]
  rfl

/-- R71. The oldest invalidation completes. -/
theorem caddyInvComplete_drops {s : State} {x : Option Nat} {rest : List (Option Nat)} (hinvs : s.syn.invs = x :: rest) (hdone : s.fillsDone x = true) :
    ∃ u, exec .caddyInvComplete s = .next u ∧ u.syn.invs = rest ∧ u.get R.SYN_STAT_INV_BUSY = b2n (decide (rest ≠ [])) ∧
      (∀ h, h < 16 → (u.caddy h).lines = (s.caddy h).linesKept x) ∧ (∀ h, h < 16 → (u.caddy h).fills = (s.caddy h).fills) ∧ u.aq = s.aq ∧ u.mem = s.mem := by
  obtain ⟨hslices, haq, hmem⟩ := s.dropLines_spec x
  obtain ⟨hrest, hbusy, hcaddy, haq', hmem'⟩ := (s.dropLines x).invEnded_spec rest
  refine ⟨_, exec_caddyInvComplete hinvs hdone, hrest, hbusy, fun h hh => ?_, fun h hh => ?_, haq'.trans haq, hmem'.trans hmem⟩
  · rw [hcaddy, hslices h hh, CaddySt.prune_lines]
  · rw [hcaddy, hslices h hh, CaddySt.prune_fills]

/-- Settles O3: first touch, strips and invalidations of Caddy. -/
theorem caddyFillsAndInvalidates : Obligations.CaddyFillsAndInvalidates := by
  refine ⟨fun s h f p eb bs _ hf hp hv hb => ⟨firstTouch_indexes hf hp hv hb, firstTouch_drops hf hp hv hb⟩,
    fun s h i f data _ hf hread hkeep => ?_, fun s => ⟨_, rfl, s.invalidate_queues none⟩,
    fun s n _ => ⟨_, rfl, (s.put R.SYN_CADDY_INV_SLOT n).invalidate_queues (some n)⟩, fun s x rest hinvs hdone => caddyInvComplete_drops hinvs hdone⟩
  obtain ⟨u, hexec, hline, hfills, hcount, hothers, hthr⟩ := stripDecoded_fills hf hread hkeep
  refine ⟨u, hexec, hline, hfills, hcount, hothers, fun k hk => ?_, fun k hk hwait => ?_, fun k hk hwait hwant => ?_⟩
  · rw [hthr, if_neg hk]
  · rw [hthr, if_pos (mem_hamletKeys.1 hk), ThreadSt.delivered_other _ _ hwait]
  · rw [hthr, if_pos (mem_hamletKeys.1 hk)]
    exact ThreadSt.delivered_waiting data hwait hwant

end Sys2Proof.Machine
end

/-! # Launches, faults and spare engines: lemmas and proofs of the family 04_aqken_model -/

section
/-! ### Events of a core, and the suspension of an engine thread (R116–R118, R131) -/
namespace Sys2Proof.Machine
open Sys2Proof

theorem State.events_setStw (s : State) (c : Nat) (q : StwSt) : (s.setStw c q).events c = q.evq ++ q.held := by
  simp [State.events, State.stw_setStw]

/-- R131. An event sent to a core stands last among its events, queued or kept pending. -/
theorem State.events_sendEvent (s : State) (c : Nat) (e : Ev) : (s.sendEvent c e).events c = s.events c ++ [e] := by
  unfold State.sendEvent
  dsimp only
  split
  · rename_i h
    rw [State.events_setStw]
    simp [State.events, h.2]
  · rw [State.events_setStw]
    simp [State.events]

/-- An event sent to a core changes that core's queue alone. -/
theorem State.sendEvent_frame (s : State) (c : Nat) (e : Ev) :
    s.sendEvent c e = { s with aq := { s.aq with stw := (s.sendEvent c e).aq.stw } } := by
  unfold State.sendEvent
  dsimp only
  split <;> rfl

theorem State.stw_sendEvent_other (s : State) {c k : Nat} (e : Ev) (h : k ≠ c) : (s.sendEvent c e).stw k = s.stw k :=
  (s.sendEvent_queues c e).1.2 k h

/-- R116. Landing results writes registers alone. -/
def ThreadSt.OnlyVS (t u : ThreadSt) : Prop := u = { t with v := u.v, s := u.s }

theorem ThreadSt.OnlyVS.trans {t u w : ThreadSt} (h1 : t.OnlyVS u) (h2 : u.OnlyVS w) : t.OnlyVS w := by
  unfold ThreadSt.OnlyVS at *
  rw [h1] at h2
  exact h2

theorem ThreadSt.OnlyVS.foldl {α : Type} {step : ThreadSt → α → ThreadSt} (hstep : ∀ (t : ThreadSt) x, t.OnlyVS (step t x)) :
    ∀ (xs : List α) (t : ThreadSt), t.OnlyVS (xs.foldl step t)
  | [], _ => rfl
  | x :: xs, t => (hstep t x).trans (ThreadSt.OnlyVS.foldl hstep xs _)

theorem ThreadSt.setS_onlyVS (t : ThreadSt) (n v : Nat) : t.OnlyVS (t.setS n v) := by
  unfold ThreadSt.setS
  split <;> rfl

theorem ThreadSt.land_onlyVS (t : ThreadSt) (p : PendLoad) : t.OnlyVS (t.land p) :=
  (ThreadSt.OnlyVS.foldl (step := fun t x => { t with v := mapPut lane0 t.v x.1 x.2 }) (fun _ _ => rfl) p.vecs t).trans
    (ThreadSt.OnlyVS.foldl (fun t x => ThreadSt.setS_onlyVS t x.1 x.2.toNat) p.scas _)

/-- R116. Where every outstanding result lands, nothing but registers and the outstanding results change. -/
theorem ThreadSt.landAll_frame (t : ThreadSt) : t.landAll = { t with v := t.landAll.v, s := t.landAll.s, pend := [] } := by
  have hland : t.OnlyVS (t.pend.foldl ThreadSt.land t) := ThreadSt.OnlyVS.foldl ThreadSt.land_onlyVS _ _
  unfold ThreadSt.OnlyVS at hland
  unfold ThreadSt.landAll
  rw [hland]

@[simp] theorem ThreadSt.landAll_pc (t : ThreadSt) : t.landAll.pc = t.pc := by rw [t.landAll_frame]
@[simp] theorem ThreadSt.landAll_launch (t : ThreadSt) : t.landAll.launch = t.launch := by rw [t.landAll_frame]

/-- R116. The record of an engine thread once it is suspended. -/
def ThreadSt.suspend (th : ThreadSt) (cause mask addr : Nat) : ThreadSt :=
  { th.landAll with state := .suspended, cause := cause, fmask := BitVec.ofNat 64 mask, faddr := BitVec.ofNat 64 addr,
                    pc := if cause = 6 then th.pc + 8 else th.pc }

/-- R116. The thread is suspended and the fault counted; its event is still to be sent. -/
def State.suspendThr (s : State) (e sl cause mask addr : Nat) : State :=
  (s.setThr (e * 4 + sl) ((s.thr (e * 4 + sl)).suspend cause mask addr)).bump (R.ENG_CNT_COUNT (e / 16) 5)

/-- R118. The event of a fault of a thread of an engine. -/
def State.suspendEv (s : State) (e sl cause mask addr : Nat) : Ev :=
  faultEv cause (s.thr (e * 4 + sl)).launch (e * 4 + sl) mask (s.thr (e * 4 + sl)).pc.toNat addr

theorem State.faultThread_launched {s : State} {e sl : Nat} {l : LaunchSt} (cause mask addr : Nat) (hl : s.launch (s.thr (e * 4 + sl)).launch = some l) :
    s.faultThread (.eng e sl) cause mask addr = (s.suspendThr e sl cause mask addr).sendEvent l.core (s.suspendEv e sl cause mask addr) := by
  have hl' : ∀ x c, ((s.setThr (e * 4 + sl) x).bump c).launch (s.thr (e * 4 + sl)).launch = some l := fun _ _ => hl
  simp only [State.faultThread, State.suspendThr, ThreadSt.suspend, State.suspendEv, ThreadSt.landAll_pc, ThreadSt.landAll_launch, hl']

theorem State.faultThread_unlaunched {s : State} {e sl : Nat} (cause mask addr : Nat) (hl : s.launch (s.thr (e * 4 + sl)).launch = none) :
    s.faultThread (.eng e sl) cause mask addr = s.suspendThr e sl cause mask addr := by
  have hl' : ∀ x c, ((s.setThr (e * 4 + sl) x).bump c).launch (s.thr (e * 4 + sl)).launch = none := fun _ _ => hl
  simp only [State.faultThread, State.suspendThr, ThreadSt.suspend, ThreadSt.landAll_pc, ThreadSt.landAll_launch, hl']

theorem State.suspendThr_count (s : State) (e sl cause mask addr : Nat) :
    RegsBut s (s.suspendThr e sl cause mask addr) [(R.ENG_CNT_COUNT (e / 16) 5).addr] ∧
    (s.suspendThr e sl cause mask addr).get (R.ENG_CNT_COUNT (e / 16) 5) = (s.get (R.ENG_CNT_COUNT (e / 16) 5) + 1) % 2 ^ 32 :=
  ⟨(RegsBut.refl s _).put _ _ (List.mem_singleton.2 rfl), State.get_bump_same _ _ (by simp [R.ENG_CNT_COUNT])⟩

/-- R116–R118. What a fault does to a thread of an engine that runs a launch. -/
theorem faultThread_suspends {s : State} {e sl : Nat} {l : LaunchSt} (cause mask addr : Nat) (hl : s.launch (s.thr (e * 4 + sl)).launch = some l) :
    Suspended s (s.faultThread (.eng e sl) cause mask addr) e sl l cause mask addr
      (if cause = 6 then (s.thr (e * 4 + sl)).pc + 8 else (s.thr (e * 4 + sl)).pc) := by
  rw [State.faultThread_launched cause mask addr hl]
  obtain ⟨hregs, hcount⟩ := s.suspendThr_count e sl cause mask addr
  generalize hu : s.suspendThr e sl cause mask addr = u at *
  have hframe := u.sendEvent_frame l.core (s.suspendEv e sl cause mask addr)
  have hevents := u.events_sendEvent l.core (s.suspendEv e sl cause mask addr)
  have hothers := fun c (hc : c ≠ l.core) => u.stw_sendEvent_other (s.suspendEv e sl cause mask addr) hc
  generalize u.sendEvent l.core (s.suspendEv e sl cause mask addr) = v at *
  have hstw : ∀ c, u.stw c = s.stw c := fun c => by rw [← hu]; rfl
  have hthr : ∀ j, v.thr j = (s.setThr (e * 4 + sl) ((s.thr (e * 4 + sl)).suspend cause mask addr)).thr j := fun j => by rw [hframe, ← hu]; rfl
  have hword : ∀ a, v.word a = u.word a := fun a => by rw [hframe]; rfl
  refine ⟨by rw [hframe, ← hu]; rfl, ?_, fun j hj => ?_, fun a ha => (hword a).trans (hregs a ha), ?_, ?_, fun c hc => (hothers c hc).trans (hstw c)⟩
  · rw [hthr, State.thr_setThr_same]
    rfl
  · rw [hthr, State.thr_setThr, if_neg hj]
  · rw [State.get, hword]
    exact hcount
  · rw [hevents]
    have hpc : (if cause = 6 then (s.thr (e * 4 + sl)).pc else if cause = 6 then (s.thr (e * 4 + sl)).pc + 8 else (s.thr (e * 4 + sl)).pc) =
        (s.thr (e * 4 + sl)).pc := by split <;> rfl
    simp only [State.events, hstw, State.suspendEv, hpc]

end Sys2Proof.Machine
end

section
/-! ### Local accesses that fail, and O22 (R116–R118, R152) -/
namespace Sys2Proof.Machine
open Sys2Proof

/-- R152. Does a local access of `n` bytes at address `a` fail on an engine? -/
def localFails (n a : Nat) : Bool := decide (0x40000 ≤ a) || decide (a % n ≠ 0)

/-- R117. The failure of a local access at address `a`: LS_RANGE beyond the local space, else ALIGN. -/
def localFault (a : Nat) : LaneFault := ⟨if 0x40000 ≤ a then 4 else 3, none⟩

theorem State.laneCheck_local (s : State) (e sl : Nat) (k : MemKind) (n a : Nat) :
    s.laneCheck (.eng e sl) .loc k n a = if localFails n a = true then some (localFault a) else none := by
  by_cases hend : 0x40000 ≤ a
  · simp [State.laneCheck, localEnd, localFails, localFault, hend]
  · by_cases halign : a % n = 0 <;> simp [State.laneCheck, localEnd, localFails, localFault, hend, halign]

/-- R152. The lanes of a local access that fail, each with its cause. -/
theorem State.laneFaults_local (s : State) (e sl : Nat) (k : MemKind) (f : FmtM) (th : ThreadSt) :
    s.laneFaults (.eng e sl) .loc k f th =
      ((th.memLanes false f).filter (fun i => localFails (fmBytes f) (th.memAddr f i))).map (fun i => (i, localFault (th.memAddr f i))) := by
  have hcheck : ∀ i, (s.laneCheck (.eng e sl) .loc k (fmBytes f) (th.memAddr f i)).map (fun x => (i, x)) =
      if localFails (fmBytes f) (th.memAddr f i) = true then some (i, localFault (th.memAddr f i)) else none := fun i => by
    rw [State.laneCheck_local]
    split <;> rfl
  simp only [State.laneFaults, hcheck, thrIsS]
  rw [← List.filterMap_eq_map, List.filterMap_filter]
  rfl

/-- R116, R152. What the failing lanes `fs` of a local access do: one fault, of the lowest of them, with the mask of all. -/
theorem State.memFault_local (s : State) (e sl : Nat) (k : MemKind) (f : FmtM) (th : ThreadSt) {fs : List Nat} (hfs : fs ≠ []) :
    s.memFault (.eng e sl) k f th (fs.map (fun i => (i, localFault (th.memAddr f i)))) =
      s.faultThread (.eng e sl) (if 0x40000 ≤ th.memAddr f (fs.headD 0) then 4 else 3) ((fs.map (2 ^ ·)).sum) (th.memAddr f (fs.headD 0)) := by
  cases fs with
  | nil => exact absurd rfl hfs
  | cons i fs => simp [State.memFault, localFault, Function.comp_def]

/-- The instructions of the local space. -/
def localInstrs (t : Thr) (f : FmtM) : List (Instr × MemKind) := [(.ldl t f, .load), (.stl t f, .store), (.atl t f, .atomic), (.casl t f, .cas)]

/-- R152. A local access with failing lanes has no effect but its fault. -/
theorem exec_local_fault {s : State} {e sl : Nat} {f : FmtM} {r : Instr × MemKind} (hr : r ∈ localInstrs (.eng e sl) f) (hi : Issues s (.eng e sl) (touchM f r.2))
    (hlegal : legalM false f r.2 true = true) {x : Nat × LaneFault} {xs : List (Nat × LaneFault)}
    (hx : s.laneFaults (.eng e sl) .loc r.2 f (s.th (.eng e sl)) = x :: xs) :
    exec r.1 s = .next (s.memFault (.eng e sl) r.2 f (s.th (.eng e sl)) (x :: xs)) := by
  have hlegal' : (legalM (thrIsS (.eng e sl)) f r.2 true && !(Space.loc == Space.glob && Thr.eng e sl == .watch)) = true := by simpa [thrIsS] using hlegal
  simp only [localInstrs, List.mem_cons, List.not_mem_nil, or_false] at hr
  rcases hr with rfl | rfl | rfl | rfl
  · show Host.Outcome.next (s.runLoad _ _ _ _) = _
    rw [State.runLoad, if_neg (by simp), issue_legal _ hi hlegal', hx]
  · show Host.Outcome.next (s.runStore _ _ _) = _
    rw [State.runStore, issue_legal _ hi hlegal', hx]
  · show Host.Outcome.next (s.runAtomic _ _ _ _ _) = _
    rw [State.runAtomic, if_neg (by simp), issue_legal _ hi hlegal', hx]
  · show Host.Outcome.next (s.runAtomic _ _ _ _ _) = _
    rw [State.runAtomic, if_neg (by simp), issue_legal _ hi hlegal', hx]

/-- Settles O22: a local access that fails suspends its thread with one fault, and does nothing else. -/
theorem localFaultSuspends : Obligations.LocalFaultSuspends := by
  intro s e sl f l t bad fs hlaunch hfs r hr hi hlegal
  have hlanes := s.laneFaults_local e sl r.2 f (s.th t)
  have hfault := s.memFault_local e sl r.2 f (s.th t) hfs
  obtain ⟨i, is, his⟩ := List.exists_cons_of_ne_nil hfs
  have hx : s.laneFaults t .loc r.2 f (s.th t) = (i, localFault (s.addrM t f i)) :: is.map (fun i => (i, localFault (s.addrM t f i))) := by
    rw [hlanes]
    exact congrArg (List.map _) his
  refine ⟨_, exec_local_fault hr hi hlegal hx, ?_⟩
  have hcause : (if 0x40000 ≤ s.addrM t f (fs.headD 0) then 4 else 3) ≠ 6 := by split <;> decide
  have hsusp := faultThread_suspends (e := e) (sl := sl) (if 0x40000 ≤ s.addrM t f (fs.headD 0) then 4 else 3) ((fs.map (2 ^ ·)).sum)
    (s.addrM t f (fs.headD 0)) hlaunch
  rw [if_neg hcause] at hsusp
  rw [← hx, hlanes]
  exact hfault ▸ hsusp

end Sys2Proof.Machine
end

section
/-! ### Handles of launches (R113) -/
namespace Sys2Proof.Machine
open Sys2Proof

theorem tabGet_eq_none {α : Type} : ∀ {m : List (Nat × α)} {k : Nat}, k ∉ m.map (·.1) → tabGet m k = none
  | [], _, _ => rfl
  | p :: m, k, h => by
    obtain ⟨hp, hm⟩ := not_or.1 (mt List.mem_cons.2 h)
    rw [tabGet, if_neg hp, tabGet_eq_none hm]

/-- A handle that a new launch can take. -/
def State.handleFree (s : State) (h : Nat) : Prop := h ≠ 0 ∧ s.launch h = none

theorem State.freeHandle_lt (s : State) : ∀ n h, h < 65536 → s.freeHandle n h < 65536
  | 0, _, hh => hh
  | n + 1, h, hh => by
    unfold State.freeHandle
    split
    · exact s.freeHandle_lt n _ (Nat.mod_lt _ (by decide))
    · exact hh

/-- The search meets a free handle if there is one among the handles it passes. -/
theorem State.freeHandle_free (s : State) : ∀ n h i, h < 65536 → i ≤ n → s.handleFree ((h + i) % 65536) → s.handleFree (s.freeHandle n h)
  | 0, h, i, hh, hi, hfree => by
    obtain rfl : i = 0 := Nat.le_zero.1 hi
    rwa [Nat.add_zero, Nat.mod_eq_of_lt hh] at hfree
  | n + 1, h, i, hh, hi, hfree => by
    unfold State.freeHandle
    split
    · rename_i htaken
      have hne : i ≠ 0 := by
        rintro rfl
        rw [Nat.add_zero, Nat.mod_eq_of_lt hh] at hfree
        rcases htaken with h0 | hsome
        · exact hfree.1 h0
        · rw [hfree.2] at hsome
          cases hsome
      refine s.freeHandle_free n _ (i - 1) (Nat.mod_lt _ (by decide)) (by omega) ?_
      rwa [show ((h + 1) % 65536 + (i - 1)) % 65536 = (h + i) % 65536 by omega]
    · rename_i hnot
      obtain ⟨h0, hsome⟩ := not_or.1 hnot
      exact ⟨h0, Option.not_isSome_iff_eq_none.1 hsome⟩

/-- Among more handles in a row than there are launches and the handle 0, one is free. -/
theorem State.exists_handleFree (s : State) (h : Nat) (hlen : s.aq.launches.length + 2 ≤ 65536) :
    ∃ i ≤ s.aq.launches.length + 1, s.handleFree ((h + i) % 65536) := by
  have hcard : (insert 0 (s.aq.launches.map (·.1)).toFinset).card < ((Finset.range (s.aq.launches.length + 2)).image (fun i => (h + i) % 65536)).card := by
    rw [Finset.card_image_of_injOn (by
      intro i hi j hj hij
      simp only [Finset.coe_range, Set.mem_Iio] at hi hj hij
      omega), Finset.card_range]
    have hinsert := Finset.card_insert_le 0 (s.aq.launches.map (·.1)).toFinset
    have hkeys := List.toFinset_card_le (s.aq.launches.map (·.1))
    rw [List.length_map] at hkeys
    omega
  obtain ⟨k, hk, hnot⟩ := Finset.exists_mem_notMem_of_card_lt_card hcard
  obtain ⟨i, hi, rfl⟩ := Finset.mem_image.1 hk
  rw [Finset.mem_insert, List.mem_toFinset, not_or] at hnot
  exact ⟨i, by have := Finset.mem_range.1 hi; omega, hnot.1, tabGet_eq_none hnot.2⟩

/-- The handle that a launch takes. -/
def State.newHandle (s : State) : Nat := s.freeHandle (s.aq.launches.length + 1) (s.aq.nextHandle % 65536)

theorem State.newHandle_spec (s : State) (hlen : s.aq.launches.length < 65000) : s.newHandle < 65536 ∧ s.launch s.newHandle = none := by
  have hlt : s.aq.nextHandle % 65536 < 65536 := Nat.mod_lt _ (by decide)
  obtain ⟨i, hi, hfree⟩ := s.exists_handleFree (s.aq.nextHandle % 65536) (by omega)
  exact ⟨s.freeHandle_lt _ _ hlt, (s.freeHandle_free _ _ i hlt hi hfree).2⟩

end Sys2Proof.Machine
end

section
/-! ### The end of a launch is reported (R115, R165) -/
namespace Sys2Proof.Machine
open Sys2Proof

/-- R115. The record of a launch is written or dropped, then its completion event is sent. -/
theorem State.launchDone_reports (s : State) (handle core : Nat) (d : LaunchDesc) (status killed start run preempts rays : Nat) :
    ∃ t, OnlyReport s t ∧
      s.launchDone handle core d status killed start run preempts rays = t.sendEvent core (completionEv handle status d.done d.work) := by
  unfold State.launchDone
  dsimp only
  split
  · rename_i t ht
    exact ⟨t, State.vwrite_report ht, rfl⟩
  · exact ⟨_, s.accFail_report _ _ _ _ _ _ _, rfl⟩

theorem State.launchNever_reports (s : State) (handle core : Nat) (d : LaunchDesc) (status : Nat) :
    ∃ t : State, t.aq = s.aq ∧ s.launchNever handle core d status = t.sendEvent core (completionEv handle status d.done d.work) := by
  obtain ⟨t, ht, heq⟩ := s.fresh.2.launchDone_reports handle core d status 0 s.fresh.1 0 0 0
  exact ⟨t, ht.aq, heq⟩

theorem State.launch_congr {s u : State} (h : u.aq = s.aq) (k : Nat) : u.launch k = s.launch k := by rw [State.launch, h]; rfl
theorem State.hamlet_congr {s u : State} (h : u.aq = s.aq) (k : Nat) : u.hamlet k = s.hamlet k := by rw [State.hamlet, h]; rfl

theorem State.launch_sendEvent (s : State) (c : Nat) (e : Ev) (k : Nat) : (s.sendEvent c e).launch k = s.launch k := by rw [s.sendEvent_frame c e]; rfl
theorem State.hamlet_sendEvent (s : State) (c : Nat) (e : Ev) (k : Nat) : (s.sendEvent c e).hamlet k = s.hamlet k := by rw [s.sendEvent_frame c e]; rfl
theorem State.thr_sendEvent (s : State) (c : Nat) (e : Ev) (k : Nat) : (s.sendEvent c e).thr k = s.thr k := by rw [s.sendEvent_frame c e]; rfl

end Sys2Proof.Machine
end

section
/-! ### LAUNCH, WAITEV and the event queues, and O26 (R113–R115, R131, R164, R165) -/
namespace Sys2Proof.Machine
open Sys2Proof

/-- R113. The record of a launch that is queued. -/
def State.queuedLaunch (s : State) (c : Nat) (d : LaunchDesc) : LaunchSt :=
  { desc := d, core := c, phase := .queued, order := s.aq.nextOrder, startPtp := 0, runFrom := 0, runTicks := 0,
    clkFrom := 0, clkRun := 0, preempts := 0, killed := 0, killedRays := 0, savedMask := 0, noSave := decide (d.save = 0), abortStatus := 0,
    saveSeq := 0, work := none, projective := false }

/-- R113. The state once a launch has taken its handle. -/
def State.handleTaken (s : State) : State := { s with aq := { s.aq with nextHandle := (s.newHandle + 1) % 65536 } }

theorem State.launchQueue_accepted {s : State} {c : Nat} {b : List Byte} (h : s.launchRefusal (LaunchDesc.ofBytes b) b = 0) :
    s.launchQueue c b = (({ s.handleTaken with aq := { s.handleTaken.aq with nextOrder := s.aq.nextOrder + 1 } } : State).setLaunch s.newHandle
      (s.queuedLaunch c (LaunchDesc.ofBytes b)), s.newHandle) := by
  have h' : s.handleTaken.launchRefusal (LaunchDesc.ofBytes b) b = 0 := h
  unfold State.launchQueue
  dsimp only
  exact if_neg (not_not.2 h')

theorem State.launchQueue_refused {s : State} {c : Nat} {b : List Byte} (h : s.launchRefusal (LaunchDesc.ofBytes b) b ≠ 0) :
    s.launchQueue c b = (s.handleTaken.launchNever s.newHandle c (LaunchDesc.ofBytes b) (s.launchRefusal (LaunchDesc.ofBytes b) b), s.newHandle) := by
  have h' : s.handleTaken.launchRefusal (LaunchDesc.ofBytes b) b ≠ 0 := h
  unfold State.launchQueue
  dsimp only
  exact if_pos h'

/-- The state after LAUNCH of the descriptor `b`. -/
def State.launched (s : State) (c d : Nat) (b : List Byte) : State :=
  let r := s.launchQueue c b
  r.1.setThr (1024 + c) ((r.1.thr (1024 + c)).setS d r.2).next

/-- R164. A steward-only instruction that issues, with scalar registers. -/
theorem runStw_legal {s : State} {c : Nat} {regs : List Nat} {legal : Bool} (effect : ThreadSt → State) (hi : Issues s (.stw c) ⟨[], regs⟩)
    (hregs : regs.all scaOk = true) (hlegal : legal = true) : s.runStw (.stw c) regs legal effect = effect (s.th (.stw c)) := by
  unfold State.runStw
  exact issue_legal effect hi (by rw [hregs, hlegal]; rfl)

theorem exec_launch {s : State} {c d a : Nat} (hi : Issues s (.stw c) ⟨[], [d, a]⟩) (hd : scaOk d = true) (ha : scaOk a = true)
    (halign : (s.th (.stw c)).sr a % 32 = 0) (hadr : (s.th (.stw c)).sr a < 0x200000)
    (hroom : (s.aq.launches.filter (fun p => decide (p.2.core = c) && (p.2.phase == .queued))).length < 16) :
    exec (.launch (.stw c) d a) s = .next (s.launched c d (mapGetList byteDefault s.aq.sram ((s.th (.stw c)).sr a) 96)) := by
  have hqueue : ¬ 16 ≤ (s.aq.launches.filter (fun p => decide (p.2.core = coreOf (.stw c)) && (p.2.phase == .queued))).length := Nat.not_le.2 hroom
  have hread : s.readDesc ((s.th (.stw c)).sr a) = .ok (mapGetList byteDefault s.aq.sram ((s.th (.stw c)).sr a) 96) := if_pos hadr
  show Host.Outcome.next (s.runStw _ _ _ _) = _
  rw [runStw_legal _ hi (by simp [hd, ha]) rfl]
  dsimp only
  rw [if_neg (not_not.2 halign), if_neg hqueue, hread]
  rfl

/-- R113–R115. LAUNCH of a descriptor that passes the checks. -/
theorem launched_accepted {s : State} {c d : Nat} {b : List Byte} (h : s.launchRefusal (LaunchDesc.ofBytes b) b = 0) :
    StewardPassed s (s.launched c d b) c (fun x => x.setS d s.newHandle) ∧
    (s.launched c d b).launch s.newHandle = some (s.queuedLaunch c (LaunchDesc.ofBytes b)) ∧
    (∀ k, k ≠ s.newHandle → (s.launched c d b).launch k = s.launch k) ∧
    s.launched c d b = { s with aq := { s.aq with
      threads := (s.launched c d b).aq.threads, launches := (s.launched c d b).aq.launches, nextHandle := (s.launched c d b).aq.nextHandle,
      nextOrder := (s.launched c d b).aq.nextOrder } } := by
  have hlaunch : ∀ k, (s.launched c d b).launch k = if k = s.newHandle then some (s.queuedLaunch c (LaunchDesc.ofBytes b)) else s.launch k := fun k => by
    rw [State.launched, State.launchQueue_accepted h]
    exact tabGet_tabPut _ _ _ _
  refine ⟨?_, by rw [hlaunch, if_pos rfl], fun k hk => by rw [hlaunch, if_neg hk], ?_⟩
  · rw [StewardPassed, State.launched, State.launchQueue_accepted h]
    exact State.thr_setThr_same _ _ _
  · rw [State.launched, State.launchQueue_accepted h]
    rfl

/-- R114, R115. LAUNCH of a descriptor that is refused. -/
theorem launched_refused {s : State} {c d : Nat} {b : List Byte} (h : s.launchRefusal (LaunchDesc.ofBytes b) b ≠ 0) :
    StewardPassed s (s.launched c d b) c (fun x => x.setS d s.newHandle) ∧
    (∀ k, (s.launched c d b).launch k = s.launch k) ∧ (∀ k, (s.launched c d b).hamlet k = s.hamlet k) ∧
    ((s.launched c d b).events c).getLast? = some (completionEv s.newHandle (s.launchRefusal (LaunchDesc.ofBytes b) b) (LaunchDesc.ofBytes b).done
      (LaunchDesc.ofBytes b).work) := by
  obtain ⟨t, haq, ht⟩ := s.handleTaken.launchNever_reports s.newHandle c (LaunchDesc.ofBytes b) (s.launchRefusal (LaunchDesc.ofBytes b) b)
  generalize hev : completionEv s.newHandle (s.launchRefusal (LaunchDesc.ofBytes b) b) (LaunchDesc.ofBytes b).done (LaunchDesc.ofBytes b).work = ev at ht ⊢
  have hu : s.launched c d b = (t.sendEvent c ev).setThr (1024 + c) (((t.sendEvent c ev).thr (1024 + c)).setS d s.newHandle).next := by
    rw [State.launched, State.launchQueue_refused h, ht]
  rw [hu]
  refine ⟨?_, fun k => (t.launch_sendEvent c ev k).trans (State.launch_congr haq k), fun k => (t.hamlet_sendEvent c ev k).trans (State.hamlet_congr haq k), ?_⟩
  · rw [StewardPassed, State.thr_setThr_same, State.thr_sendEvent, State.thr_congr haq]
    rfl
  · have hlast : ((t.sendEvent c ev).setThr (1024 + c) (((t.sendEvent c ev).thr (1024 + c)).setS d s.newHandle).next).events c = t.events c ++ [ev] :=
      t.events_sendEvent c ev
    rw [hlast, List.getLast?_concat]

/-- The four registers of an event (R165). -/
def ThreadSt.setEv (x : ThreadSt) (d : Nat) (e : Ev) : ThreadSt :=
  (((x.setS d e.w0.toNat).setS (d + 1) e.w1.toNat).setS (d + 2) e.w2.toNat).setS (d + 3) e.w3.toNat

/-- R131. What admitting pending events does to a core's queue. -/
theorem State.admitEvents_spec (s : State) (c : Nat) :
    (s.admitEvents c).events c = s.events c ∧ ((s.admitEvents c).stw c).evq.length = (s.stw c).evq.length + min (256 - (s.stw c).evq.length) (s.stw c).held.length ∧
    s.admitEvents c = { s with aq := { s.aq with stw := (s.admitEvents c).aq.stw } } ∧ ∀ k, k ≠ c → (s.admitEvents c).stw k = s.stw k := by
  refine ⟨?_, ?_, rfl, fun k hk => ?_⟩
  · rw [State.admitEvents, State.events_setStw, List.append_assoc, List.take_append_drop]
    rfl
  · simp [State.admitEvents, State.stw_setStw]
  · rw [State.admitEvents, State.stw_setStw, if_neg hk]

/-- The core's queue without its oldest event. -/
def State.popEvent (s : State) (c : Nat) (rest : List Ev) : State := s.setStw c { s.stw c with evq := rest }

theorem waitev_legal {d : Nat} (h4 : d % 4 = 0) (hlo : 4 ≤ d) (hhi : d ≤ 28) :
    [d, d + 1, d + 2, d + 3].all scaOk = true ∧ (decide (d % 4 = 0) && decide (4 ≤ d)) = true := by
  simp [scaOk, h4, hlo]
  omega

theorem exec_waitev_event {s : State} {c d : Nat} {nb : Bool} {e : Ev} {rest : List Ev} (hi : Issues s (.stw c) ⟨[], [d, d + 1, d + 2, d + 3]⟩)
    (h4 : d % 4 = 0) (hlo : 4 ≤ d) (hhi : d ≤ 28) (hq : (s.stw c).evq = e :: rest) :
    exec (.waitev (.stw c) d nb) s = .next (((s.popEvent c rest).admitEvents c).setThr (1024 + c) ((s.th (.stw c)).setEv d e).next) := by
  obtain ⟨hregs, hlegal⟩ := waitev_legal h4 hlo hhi
  show Host.Outcome.next (s.runStw _ _ _ _) = _
  rw [runStw_legal _ hi hregs hlegal]
  dsimp only [coreOf]
  rw [hq]
  rfl

theorem exec_waitev_empty {s : State} {c d : Nat} {nb : Bool} (hi : Issues s (.stw c) ⟨[], [d, d + 1, d + 2, d + 3]⟩)
    (h4 : d % 4 = 0) (hlo : 4 ≤ d) (hhi : d ≤ 28) (hq : (s.stw c).evq = []) :
    exec (.waitev (.stw c) d nb) s = .next (if nb then s.setThr (1024 + c) ((s.th (.stw c)).setEv d (mkEv 0 0 0 0)).next else s) := by
  obtain ⟨hregs, hlegal⟩ := waitev_legal h4 hlo hhi
  show Host.Outcome.next (s.runStw _ _ _ _) = _
  rw [runStw_legal _ hi hregs hlegal]
  dsimp only [coreOf]
  rw [hq]
  rfl

/-- R131, R164. WAITEV takes the oldest event, and the pending events move up. -/
theorem waitev_takes (s : State) (c : Nat) {rest : List Ev} (x : ThreadSt) (u : State) (hu : u = ((s.popEvent c rest).admitEvents c).setThr (1024 + c) x) :
    u.thr (1024 + c) = x ∧ u.events c = rest ++ (s.stw c).held ∧
    u = { s with aq := { s.aq with threads := u.aq.threads, stw := u.aq.stw } } ∧ ∀ k, k ≠ c → u.stw k = s.stw k := by
  obtain ⟨hevents, -, hframe, hothers⟩ := (s.popEvent c rest).admitEvents_spec c
  subst hu
  refine ⟨State.thr_setThr_same _ _ _, ?_, rfl, fun k hk => ?_⟩
  · have hpop : (s.popEvent c rest).events c = rest ++ (s.stw c).held := s.events_setStw c _
    exact hevents.trans hpop
  · have hpop : (s.popEvent c rest).stw k = s.stw k := by rw [State.popEvent, State.stw_setStw, if_neg hk]
    exact (hothers k hk).trans hpop

/-- Settles O26: LAUNCH, WAITEV and the event queues. -/
theorem launchAndEventQueues : Obligations.LaunchAndEventQueues := by
  refine ⟨?_, ?_, ?_⟩
  · intro s c d a t adr b desc hi hd ha halign hadr hlen hroom
    obtain ⟨hlt, hnone⟩ := s.newHandle_spec hlen
    have hexec := exec_launch hi hd ha halign hadr hroom
    by_cases hok : s.launchRefusal desc b = 0
    · obtain ⟨hpass, hnew, hold, hframe⟩ := launched_accepted (c := c) (d := d) hok
      exact ⟨_, _, hexec, hlt, hnone, hpass, fun _ => ⟨⟨_, hnew, rfl, rfl, rfl, rfl⟩, hold, hframe⟩, fun hbad => absurd hok hbad⟩
    · obtain ⟨hpass, hlaunch, hhamlet, hlast⟩ := launched_refused (c := c) (d := d) hok
      exact ⟨_, _, hexec, hlt, hnone, hpass, fun h0 => absurd h0 hok, fun _ => ⟨hlaunch, hhamlet, hlast⟩⟩
  · intro s c d nb t hi h4 hlo hhi four
    cases hq : (s.stw c).evq with
    | cons e rest =>
      obtain ⟨hthr, hevents, hframe, hothers⟩ := waitev_takes s c (rest := rest) _ _ rfl
      exact ⟨_, exec_waitev_event hi h4 hlo hhi hq, hthr, hevents, hframe, hothers⟩
    | nil =>
      have hexec := exec_waitev_empty (nb := nb) hi h4 hlo hhi hq
      cases nb with
      | true => exact ⟨_, hexec, onlyThread_setThr s t _, State.thr_setThr_same _ _ _⟩
      | false => exact hexec
  · intro s c hlen
    obtain ⟨hevents, hlength, hframe, hothers⟩ := s.admitEvents_spec c
    refine ⟨_, rfl, hevents, ?_, hframe, hothers⟩
    rw [hlength, State.events, List.length_append]
    omega

end Sys2Proof.Machine
end

section
/-! ### What leaves the hamlets and their registers (R133, R134) -/
namespace Sys2Proof.Machine
open Sys2Proof

/-- The registers of the block ENG read as before. -/
def KeepsEngRegs (s u : State) : Prop := ∀ a, 0x70000 ≤ a → a < 0x80000 → u.word a = s.word a

/-- The hamlets and the registers of the block ENG are as before. -/
def KeepsHamlets (s u : State) : Prop := u.aq.hamlets = s.aq.hamlets ∧ KeepsEngRegs s u

theorem KeepsEngRegs.get {s u : State} (h : KeepsEngRegs s u) {g : Fld} (hlo : 0x70000 ≤ g.addr) (hhi : g.addr < 0x80000) : u.get g = s.get g := by
  rw [State.get, State.get, h _ hlo hhi]

theorem KeepsEngRegs.trans {s u v : State} (h1 : KeepsEngRegs s u) (h2 : KeepsEngRegs u v) : KeepsEngRegs s v :=
  fun a hlo hhi => (h2 a hlo hhi).trans (h1 a hlo hhi)

theorem KeepsEngRegs.put (s : State) (f : Fld) (v : Nat) (hf : f.addr < 0x70000 ∨ 0x80000 ≤ f.addr) : KeepsEngRegs s (s.put f v) :=
  fun _ _ _ => s.word_put_other f v (by omega)

theorem KeepsEngRegs.of_blocks {s u : State} (h : KeepsOtherBlocks s u) : KeepsEngRegs s u :=
  fun a _ _ => h a (reportWord_eq_false.2 (by omega))

theorem KeepsHamlets.refl (s : State) : KeepsHamlets s s := ⟨rfl, fun _ _ _ => rfl⟩

theorem KeepsHamlets.trans {s u v : State} (h1 : KeepsHamlets s u) (h2 : KeepsHamlets u v) : KeepsHamlets s v :=
  ⟨h2.1.trans h1.1, h1.2.trans h2.2⟩

theorem KeepsHamlets.hamlet {s u : State} (h : KeepsHamlets s u) (k : Nat) : u.hamlet k = s.hamlet k := by rw [State.hamlet, h.1]; rfl

theorem KeepsHamlets.foldl {α : Type} {step : State → α → State} : ∀ (xs : List α) (s : State), (∀ x ∈ xs, ∀ u, KeepsHamlets u (step u x)) →
    KeepsHamlets s (xs.foldl step s)
  | [], s, _ => .refl s
  | x :: xs, s, hstep => (hstep x List.mem_cons_self s).trans (KeepsHamlets.foldl xs _ fun y hy => hstep y (List.mem_cons_of_mem _ hy))

theorem KeepsHamlets.foldRange {step : State → Nat → State} (n : Nat) (s : State) (hstep : ∀ i u, KeepsHamlets u (step u i)) :
    KeepsHamlets s (foldRange n step s) :=
  foldRange_induct (P := fun _ u => KeepsHamlets s u) (.refl s) n fun i _ _ hu => hu.trans (hstep i _)

/-- A report of an error. -/
theorem KeepsHamlets.of_report {s u : State} (h : OnlyReport s u) (hb : KeepsOtherBlocks s u) : KeepsHamlets s u :=
  ⟨by rw [h.aq], .of_blocks hb⟩

/-- R416. Noting an error for a test changes the health unit's own state alone. -/
theorem State.noteTest_frame (s : State) (blk src sev seq : Nat) : s.noteTest blk src sev seq = { s with hlt := (s.noteTest blk src sev seq).hlt } := by
  unfold State.noteTest
  dsimp only
  split
  · rfl
  split
  · split <;> rfl
  split
  · split
    · split <;> rfl
    · rfl
  · rfl

theorem State.noteTest_keeps (s : State) (blk src sev seq : Nat) : KeepsOtherBlocks s (s.noteTest blk src sev seq) := by
  rw [State.noteTest_frame]
  exact (KeepsOtherBlocks.refl s).of_regs rfl rfl

theorem State.log_keeps (s : State) {blk : Nat} (arr inst code sev detail : Nat) (hblk : blk < 32) :
    KeepsOtherBlocks s (s.log blk arr inst code sev detail) :=
  ((s.logBase_keeps arr inst code sev detail hblk).trans (State.noteTest_keeps _ _ _ _ _)).trans (State.mirror_keeps _ _)

theorem State.log_keepsHamlets (s : State) {blk : Nat} (arr inst code sev detail : Nat) (hblk : blk < 32) :
    KeepsHamlets s (s.log blk arr inst code sev detail) := .of_report (s.log_report ..) (s.log_keeps arr inst code sev detail hblk)

theorem State.accFail_keepsHamlets (s : State) (client id ctx va : Nat) (acc : Acc) (cls : Nat) (e : AccErr) :
    KeepsHamlets s (s.accFail client id ctx va acc cls e) := .of_report (s.accFail_report ..) (s.accFail_keeps _ _ _ _ _ _ _)

theorem State.raise_keepsHamlets (s : State) {c : Nat} (hc : c < 256) : KeepsHamlets s (s.raise c) :=
  .of_report (s.raise_report c) ((KeepsOtherBlocks.refl s).raise hc)

theorem State.vwrite_keepsHamlets {s u : State} {ctx va : Nat} {bs : List Byte} (h : s.vwrite ctx va bs = .ok u) : KeepsHamlets s u :=
  .of_report (State.vwrite_report h) ((KeepsOtherBlocks.refl s).vwrite h)

end Sys2Proof.Machine
end

section
/-! ### Killing threads leaves the hamlets (R120, R128) -/
namespace Sys2Proof.Machine
open Sys2Proof

theorem State.issueWFault_keepsHamlets (s : State) {h : Nat} (tile ctx va : Nat) (e : AccErr) (hh : h < 16) :
    KeepsHamlets s (s.issueWFault h tile ctx va e) := by
  have hcount : KeepsHamlets s (s.bump (R.SYN_HCNT_COUNT h 7)) := ⟨rfl, .put s _ _ (Or.inr (by simp only [R.SYN_HCNT_COUNT]; omega))⟩
  exact (hcount.trans (State.log_keepsHamlets _ _ _ _ _ _ (by decide))).trans (State.accFail_keepsHamlets ..)

theorem State.noteStore_keepsHamlets (s : State) (ctx va w : Nat) : KeepsHamlets s (s.noteStore ctx va w) := by
  unfold State.noteStore
  split <;> exact .refl s

theorem State.countWritten_keepsHamlets (s : State) (wk tile line n : Nat) : KeepsHamlets s (s.countWritten wk tile line n) := by
  unfold State.countWritten
  split <;> exact .refl s

/-- R66, R120. A word that a hamlet's unit writes itself. -/
theorem State.selfWrite_keepsHamlets (s : State) {h : Nat} (wk tile line col word : Nat) (hh : h < 16) :
    KeepsHamlets s (s.selfWrite h wk tile line col word) := by
  unfold State.selfWrite
  split
  · exact .refl s
  · refine KeepsHamlets.trans ?_ (State.countWritten_keepsHamlets ..)
    split
    · exact (State.vwrite_keepsHamlets ‹_›).trans (State.noteStore_keepsHamlets ..)
    · exact s.issueWFault_keepsHamlets _ _ _ _ hh

theorem State.setThr_keepsHamlets (s : State) (k : Nat) (t : ThreadSt) : KeepsHamlets s (s.setThr k t) := .refl s
theorem State.setLaunch_keepsHamlets (s : State) (k : Nat) (l : LaunchSt) : KeepsHamlets s (s.setLaunch k l) := .refl s

theorem State.killBatch_keepsHamlets (s : State) {k : Nat} (hk : k / 64 < 16) : KeepsHamlets s (s.killBatch k) := by
  unfold State.killBatch
  dsimp only
  split
  · exact s.setThr_keepsHamlets _ _
  · exact (s.setThr_keepsHamlets _ _).trans (.foldl _ _ fun r _ u => u.selfWrite_keepsHamlets _ _ _ _ _ hk)

theorem State.releaseBarE_keepsHamlets (s : State) (e : Nat) : KeepsHamlets s (s.releaseBarE e) := by
  unfold State.releaseBarE
  dsimp only
  split
  · exact .foldl _ _ fun k _ u => u.setThr_keepsHamlets _ _
  · exact .refl s

theorem State.killThread_keepsHamlets (s : State) (k : Nat) {key : Nat} (hkey : key / 64 < 16) : KeepsHamlets s (s.killThread k key) := by
  have hend : KeepsHamlets s ((s.killBatch key).endThr (.eng (key / 4) (key % 4))) :=
    ((s.killBatch_keepsHamlets hkey).trans (State.setThr_keepsHamlets ..)).trans (State.releaseBarE_keepsHamlets ..)
  unfold State.killThread
  dsimp only
  split
  · split
    · exact hend.trans (State.setLaunch_keepsHamlets ..)
    · exact hend
  · exact .refl s

theorem State.zeroBatch_keepsHamlets (s : State) {h : Nat} (wk : Option Nat) (b : List DealtRay) (hh : h < 16) : KeepsHamlets s (s.zeroBatch h wk b) := by
  unfold State.zeroBatch
  split
  · exact .foldl _ _ fun r _ u => u.selfWrite_keepsHamlets _ _ _ _ _ hh
  · exact .refl s

theorem State.killSaved_keepsHamlets (s : State) (k : Nat) {x : SavedHamlet} (hx : x.hamlet < 16) : KeepsHamlets s (s.killSaved k x) := by
  refine .foldl _ _ fun p _ u => ?_
  split
  · split
    · exact (u.zeroBatch_keepsHamlets _ _ hx).trans (State.setLaunch_keepsHamlets ..)
    · exact .refl u
  · exact .refl u

theorem State.mapSaved_keepsHamlets (s : State) (i : Nat) (f : SavedHamlet → SavedHamlet) : KeepsHamlets s (s.mapSaved i f) := by
  unfold State.mapSaved
  split <;> exact .refl s

theorem State.killSavedEngine_keepsHamlets (s : State) (i eid : Nat) {x : SavedHamlet} (hx : x.hamlet < 16) :
    KeepsHamlets s (s.killSavedEngine i x eid) :=
  (s.killSaved_keepsHamlets x.handle (x := { x with threads := x.threads.filter (fun p => decide (p.1 / 4 = eid) && p.2.live) }) hx).trans
    (State.mapSaved_keepsHamlets ..)

theorem State.hamlet_setHamlet (s : State) (h : Nat) (x : HamletSt) (k : Nat) : (s.setHamlet h x).hamlet k = if k = h then x else s.hamlet k := by
  simp [State.setHamlet, State.hamlet, mapGet_mapPut]

@[simp] theorem State.hamlet_setHamlet_same (s : State) (h : Nat) (x : HamletSt) : (s.setHamlet h x).hamlet h = x := by simp [State.hamlet_setHamlet]

theorem mem_engineKeys {e k : Nat} : k ∈ engineKeys e ↔ k / 4 = e := by
  simp only [engineKeys, List.mem_map, List.mem_range]
  exact ⟨fun ⟨i, hi, he⟩ => by omega, fun he => ⟨k % 4, by omega, by omega⟩⟩

theorem engineKeys_nodup (e : Nat) : (engineKeys e).Nodup :=
  List.nodup_range.map fun _ _ hij => Nat.add_left_cancel hij

/-- R128. The marks of an engine that is retired: the physical engine, the logical engine's absence, and DEGRADED. -/
def State.markRetired (s : State) (h e : Nat) : State :=
  ((s.setHamlet h { s.hamlet h with retired := (s.hamlet h).retired ||| 2 ^ s.get (R.ENG_MAP_PHYS h e) }).put (R.ENG_HSTAT_LIVE h)
    (s.live h - (s.live h &&& 2 ^ e))).put (R.ENG_HSTAT_DEGRADED h) 1

/-- R128. Retiring an engine marks it, kills threads and raises ENG_DEGRADED. -/
theorem State.retireLogical_marks (s : State) {h e : Nat} (hh : h < 16) (he : e < 16) :
    ∃ t, KeepsHamlets (s.markRetired h e) t ∧ s.retireLogical h e = t.raise Irq.ENG_DEGRADED := by
  refine ⟨_, ?_, rfl⟩
  refine KeepsHamlets.trans ?_ (.foldRange _ _ fun i u => ?_)
  · show KeepsHamlets (s.markRetired h e) (match (s.hamlet h).holder with | some k => _ | none => _)
    split
    · exact .foldl _ _ fun key hkey u => u.killThread_keepsHamlets _ (by have := mem_engineKeys.1 hkey; omega)
    · exact .refl _
  · split
    · split
      · exact u.killSavedEngine_keepsHamlets _ _ (by omega)
      · exact .refl u
    · exact .refl u

end Sys2Proof.Machine
end

section
/-! ### Faults of threads, steward cores and engines' stores (R101, R116–R118, R132) -/
namespace Sys2Proof.Machine
open Sys2Proof

/-- A fault of an engine thread suspends that thread, and counts it. -/
theorem State.faultThread_eng (s : State) (e sl cause mask addr : Nat) :
    (∀ j, (s.faultThread (.eng e sl) cause mask addr).thr j = if j = e * 4 + sl then (s.thr j).suspend cause mask addr else s.thr j) ∧
    RegsBut s (s.faultThread (.eng e sl) cause mask addr) [(R.ENG_CNT_COUNT (e / 16) 5).addr] := by
  have hthr : ∀ j, (s.suspendThr e sl cause mask addr).thr j = if j = e * 4 + sl then (s.thr j).suspend cause mask addr else s.thr j := fun j => by
    refine (s.thr_setThr _ _ j).trans ?_
    split
    · subst j; rfl
    · rfl
  have hregs := (s.suspendThr_count e sl cause mask addr).1
  cases hl : s.launch (s.thr (e * 4 + sl)).launch with
  | none => rw [State.faultThread_unlaunched cause mask addr hl]; exact ⟨hthr, hregs⟩
  | some l =>
    rw [State.faultThread_launched cause mask addr hl]
    refine ⟨fun j => (State.thr_sendEvent ..).trans (hthr j), fun a ha => ?_⟩
    rw [State.sendEvent_frame]
    exact hregs a ha

/-- Setting a bit that is clear adds it. -/
theorem or_two_pow {n c : Nat} (h : bitAt n c = false) : n ||| 2 ^ c = n + 2 ^ c := by
  have hmod : n % 2 ^ c < 2 ^ c := Nat.mod_lt _ (Nat.two_pow_pos c)
  have hbit : n / 2 ^ c % 2 = 0 := by simpa [bitAt] using h
  have hdiv : n / 2 ^ c = 2 * (n / 2 ^ c / 2) := by omega
  have hn : n = 2 ^ (c + 1) * (n / 2 ^ c / 2) + n % 2 ^ c := by
    rw [Nat.pow_succ, Nat.mul_assoc, ← hdiv, Nat.div_add_mod]
  have hlow : 2 ^ c + n % 2 ^ c = 2 ^ c ||| n % 2 ^ c := by simpa using Nat.two_pow_add_eq_or_of_lt hmod 1
  calc n ||| 2 ^ c = 2 ^ (c + 1) * (n / 2 ^ c / 2) ||| (2 ^ c ||| n % 2 ^ c) := by
        conv_lhs => rw [hn, Nat.two_pow_add_eq_or_of_lt (by rw [Nat.pow_succ]; omega), Nat.or_assoc, Nat.or_comm (n % 2 ^ c)]
    _ = 2 ^ (c + 1) * (n / 2 ^ c / 2) + (2 ^ c + n % 2 ^ c) := by
        rw [← hlow, Nat.two_pow_add_eq_or_of_lt (by rw [Nat.pow_succ]; omega)]
    _ = n + 2 ^ c := by omega

/-- R132. What a fault does to a steward core that runs. -/
theorem haltSteward_halts (s : State) {c : Nat} (hc : c < 8) (hrun : bitAt (s.get R.STW_STAT_HALTED) c = false) :
    (s.haltSteward c).get R.STW_STAT_HALTED = s.get R.STW_STAT_HALTED + 2 ^ c ∧ bitAt ((s.haltSteward c).get R.STW_STAT_FAULT) c = true ∧
    (s.haltSteward c).get (causeFld Irq.STW_FAULT) = 1 ∧ (s.haltSteward c).mem = s.mem ∧ (s.haltSteward c).aq = s.aq := by
  have hput : ∀ (u : State) (f : Fld), f.lsb + f.width ≤ 32 → f.width = 8 → bitAt ((u.put f (u.get f ||| 2 ^ c)).get f) c = true := fun u f hfit hw => by
    rw [State.get_put_same _ _ _ hfit, hw, bitAt_eq_testBit, Nat.testBit_mod_two_pow, Nat.testBit_or]
    simp [hc]
  unfold State.haltSteward
  dsimp only
  generalize hv : s.put R.STW_STAT_HALTED (s.get R.STW_STAT_HALTED ||| 2 ^ c) = v
  refine ⟨?_, ?_, State.raise_sets _ (by decide), by rw [(State.raise_frame _ _)]; subst hv; rfl, by rw [(State.raise_frame _ _)]; subst hv; rfl⟩
  · have hlt : s.get R.STW_STAT_HALTED < 2 ^ 8 := bitsOf_lt _ _ _
    have hpow : 2 ^ c < 2 ^ 8 := Nat.pow_lt_pow_right (by decide) hc
    rw [State.get_raise_other _ (by decide) (by decide), State.get_put_apart _ _ (by decide), ← hv, State.get_put_same _ _ _ (by decide)]
    rw [show R.STW_STAT_HALTED.width = 8 from rfl, Nat.mod_eq_of_lt (Nat.or_lt_two_pow hlt hpow), or_two_pow hrun]
  · rw [State.get_raise_other _ (by decide) (by decide)]
    exact hput v _ (by decide) (by decide)

/-- R117. A thread that lives faults with a cause that is not its instruction's. -/
def State.faultLive (cause : Nat) (s : State) (key : Nat) : State :=
  if (s.thr key).live then s.faultThread (.eng (key / 4) (key % 4)) cause 0 0 else s

/-- R117. The record of a thread that lives, once it has faulted. -/
def ThreadSt.ifLive (cause : Nat) (th : ThreadSt) : ThreadSt := if th.live then th.suspend cause 0 0 else th

theorem State.thr_faultLive (cause : Nat) (s : State) (key j : Nat) :
    (State.faultLive cause s key).thr j = if j = key then (s.thr key).ifLive cause else s.thr j := by
  unfold State.faultLive ThreadSt.ifLive
  split
  · rw [(s.faultThread_eng _ _ cause 0 0).1, show key / 4 * 4 + key % 4 = key by omega]
    split
    · subst j; rfl
    · rfl
  · split
    · subst j; rfl
    · rfl

/-- R117. The faults of threads of one engine count in one register. -/
theorem State.faultLive_regs {cause eid : Nat} : ∀ {keys : List Nat} (s : State), (∀ k ∈ keys, k / 4 = eid) →
    RegsBut s (keys.foldl (State.faultLive cause) s) [(R.ENG_CNT_COUNT (eid / 16) 5).addr]
  | [], s, _ => .refl s _
  | key :: keys, s, hkeys => by
    rw [List.foldl_cons]
    have hkey := hkeys key List.mem_cons_self
    refine RegsBut.trans (u := State.faultLive cause s key) ?_ (State.faultLive_regs _ fun k hk => hkeys k (List.mem_cons_of_mem _ hk))
    unfold State.faultLive
    split
    · rw [← hkey]
      exact (s.faultThread_eng _ _ cause 0 0).2
    · exact .refl s _

/-- R101. The threads that an uncorrectable error of an engine concerns. -/
def eccKeys (store : Bool) (eid slot : Nat) : List Nat := if store then engineKeys eid else [eid * 4 + slot]

theorem eccKeys_engine {store : Bool} {eid slot k : Nat} (hslot : slot < 4) (hk : k ∈ eccKeys store eid slot) : k / 4 = eid := by
  cases store with
  | true => exact mem_engineKeys.1 hk
  | false => have := List.mem_singleton.1 hk; omega

theorem eccKeys_mem {store : Bool} {eid slot : Nat} (hslot : slot < 4) : eid * 4 + slot ∈ eccKeys store eid slot := by
  cases store with
  | true => exact mem_engineKeys.2 (by omega)
  | false => exact List.mem_singleton.2 rfl

theorem eccKeys_nodup {store : Bool} {eid slot : Nat} : (eccKeys store eid slot).Nodup := by
  cases store with
  | true => exact engineKeys_nodup eid
  | false => exact List.nodup_singleton _

/-- R101. An error of an engine is counted and logged. -/
def State.eccLogged (s : State) (h p n sev : Nat) : State := (s.bump (R.ENG_CNT_COUNT h n)).log 7 0 h n sev p

theorem State.eccLogged_spec (s : State) {h : Nat} (p : Nat) {n : Nat} (sev : Nat) (hh : h < 16) (hn : n < 8) :
    (s.eccLogged h p n sev).aq = s.aq ∧ RegsBut s (s.bump (R.ENG_CNT_COUNT h n)) [(R.ENG_CNT_COUNT h n).addr] ∧
    KeepsHamlets (s.bump (R.ENG_CNT_COUNT h n)) (s.eccLogged h p n sev) ∧
    (s.eccLogged h p n sev).get (R.ENG_CNT_COUNT h n) = (s.get (R.ENG_CNT_COUNT h n) + 1) % 2 ^ 32 := by
  have hlog : KeepsHamlets (s.bump (R.ENG_CNT_COUNT h n)) (s.eccLogged h p n sev) := State.log_keepsHamlets _ _ _ _ _ _ (by decide)
  refine ⟨(State.log_report ..).aq, (RegsBut.refl s _).put _ _ (List.mem_singleton.2 rfl), hlog, ?_⟩
  rw [hlog.2.get (by simp only [R.ENG_CNT_COUNT]; omega) (by simp only [R.ENG_CNT_COUNT]; omega)]
  exact State.get_bump_same _ _ (by simp [R.ENG_CNT_COUNT])

theorem engineEccError_corrected (s : State) {h : Nat} (p sl : Nat) (store : Bool) (hh : h < 16) :
    ∃ u, exec (.engineEccError h p store false sl) s = .next u ∧ u.aq.threads = s.aq.threads ∧ u.aq.lstore = s.aq.lstore ∧
      u.get (R.ENG_CNT_COUNT h (if store then 1 else 0)) = (s.get (R.ENG_CNT_COUNT h (if store then 1 else 0)) + 1) % 2 ^ 32 := by
  obtain ⟨haq, -, -, hcount⟩ := s.eccLogged_spec p (n := if store then 1 else 0) 1 hh (by split <;> decide)
  exact ⟨_, rfl, by rw [← haq]; rfl, by rw [← haq]; rfl, hcount⟩

/-- R101. An uncorrectable error is counted, logged and raised. -/
def State.eccRaised (s : State) (h p : Nat) : State := (s.eccLogged h p 2 2).raise Irq.ENG_UE

theorem State.eccRaised_spec (s : State) {h : Nat} (p : Nat) (hh : h < 16) :
    (s.eccRaised h p).aq = s.aq ∧ (s.eccRaised h p).get (R.ENG_CNT_COUNT h 2) = (s.get (R.ENG_CNT_COUNT h 2) + 1) % 2 ^ 32 ∧
    (s.eccRaised h p).get (causeFld Irq.ENG_UE) = 1 ∧ (s.eccRaised h p).logicalOf h p = s.logicalOf h p := by
  obtain ⟨haq, hregs, hlog, hcount⟩ := s.eccLogged_spec p (n := 2) 2 hh (by decide)
  have hraise := (s.eccLogged h p 2 2).raise_keepsHamlets (c := Irq.ENG_UE) (by decide)
  have hget : ∀ g : Fld, 0x70100 ≤ g.addr → g.addr < 0x70800 → (s.eccRaised h p).get g = s.get g := fun g hlo hhi => by
    rw [State.eccRaised, (hlog.trans hraise).2.get (by omega) (by omega)]
    exact hregs.get (by simp only [R.ENG_CNT_COUNT, List.mem_singleton]; omega)
  refine ⟨((State.raise_report ..).aq).trans haq, ?_, State.raise_sets _ (by decide), ?_⟩
  · rw [State.eccRaised, hraise.2.get (by simp only [R.ENG_CNT_COUNT]; omega) (by simp only [R.ENG_CNT_COUNT]; omega)]
    exact hcount
  · refine List.find?_congr fun e he => ?_
    have he := List.mem_range.1 he
    rw [State.live, State.live, hget (R.ENG_MAP_PHYS h e) (by simp only [R.ENG_MAP_PHYS]; omega) (by simp only [R.ENG_MAP_PHYS]; omega),
      hget (R.ENG_HSTAT_LIVE h) (by simp only [R.ENG_HSTAT_LIVE]; omega) (by simp only [R.ENG_HSTAT_LIVE]; omega)]

theorem exec_engineEccError_uncorrected {s : State} {h p sl e : Nat} (store : Bool) (hh : h < 16) (he : s.logicalOf h p = some e)
    (hphase : (s.hamlet h).phase = .normal) (hsl : sl < 4) :
    exec (.engineEccError h p store true sl) s =
      .next ((eccKeys store (h * 16 + e) sl).foldl (State.faultLive (if store then 8 else 7)) (s.eccRaised h p)) := by
  obtain ⟨haq, -, -, hlogical⟩ := s.eccRaised_spec p hh
  have hphase' : ((s.eccRaised h p).hamlet h).phase = .normal := by rw [State.hamlet_congr haq]; exact hphase
  have hfold : ∀ u : State, (eccKeys store (h * 16 + e) sl).foldl
      (fun s key => if (s.thr key).live then s.faultThread (.eng (h * 16 + e) (key % 4)) (if store then 8 else 7) 0 0 else s) u =
      (eccKeys store (h * 16 + e) sl).foldl (State.faultLive (if store then 8 else 7)) u := fun u =>
    List.foldl_ext _ _ _ fun s key hkey => by rw [State.faultLive, eccKeys_engine hsl hkey]
  show execEngineEccError h p store true sl s = _
  unfold execEngineEccError
  rw [if_neg (by decide)]
  rw [show ((s.bump (R.ENG_CNT_COUNT h 2)).log 7 0 h 2 2 p).raise Irq.ENG_UE = s.eccRaised h p from rfl]
  dsimp only
  rw [hlogical, he]
  dsimp only
  rw [hphase']
  split
  · cases ‹HPhase.normal = _›
  · rw [← hfold]
    rfl

/-- R101, R117. What an uncorrectable error of an engine does. -/
theorem engineEccError_uncorrected {s : State} {h p sl e : Nat} (store : Bool) (hh : h < 16) (he : s.logicalOf h p = some e)
    (hphase : (s.hamlet h).phase = .normal) (hsl : sl < 4) (hrun : (s.thr ((h * 16 + e) * 4 + sl)).state = .runnable) :
    ∃ u, exec (.engineEccError h p store true sl) s = .next u ∧ u.get (R.ENG_CNT_COUNT h 2) = (s.get (R.ENG_CNT_COUNT h 2) + 1) % 2 ^ 32 ∧
      u.get (causeFld Irq.ENG_UE) = 1 ∧ (u.thr ((h * 16 + e) * 4 + sl)).state = .suspended ∧
      (u.thr ((h * 16 + e) * 4 + sl)).cause = (if store then 8 else 7) ∧ (∀ k, k / 4 ≠ h * 16 + e → u.thr k = s.thr k) := by
  obtain ⟨haq, hcount, hcause, -⟩ := s.eccRaised_spec p hh
  have helt : e < 16 := List.mem_range.1 (List.mem_of_find?_eq_some he)
  have hregs := State.faultLive_regs (cause := if store then 8 else 7) (eid := h * 16 + e) (keys := eccKeys store (h * 16 + e) sl) (s.eccRaised h p)
    fun k hk => eccKeys_engine hsl hk
  have hthr := fun j => thr_foldl_keys (g := ThreadSt.ifLive (if store then 8 else 7)) (State.thr_faultLive _)
    (eccKeys store (h * 16 + e) sl) (s.eccRaised h p) j eccKeys_nodup
  rw [show (h * 16 + e) / 16 = h by omega] at hregs
  refine ⟨_, exec_engineEccError_uncorrected store hh he hphase hsl, ?_, ?_, ?_, ?_, fun k hk => ?_⟩
  · rw [hregs.get (by simp [R.ENG_CNT_COUNT])]
    exact hcount
  · rw [hregs.get (by simp only [R.ENG_CNT_COUNT, causeFld, Irq.ENG_UE, List.mem_singleton]; omega)]
    exact hcause
  all_goals rw [hthr]
  · rw [if_pos (eccKeys_mem hsl), State.thr_congr haq, ThreadSt.ifLive, if_pos (by simp [ThreadSt.live, hrun])]
    rfl
  · rw [if_pos (eccKeys_mem hsl), State.thr_congr haq, ThreadSt.ifLive, if_pos (by simp [ThreadSt.live, hrun])]
    rfl
  · rw [if_neg fun hmem => hk (eccKeys_engine hsl hmem), State.thr_congr haq]

end Sys2Proof.Machine
end

section
/-! ### Spare engines, and O30 (R126–R128, R413) -/
namespace Sys2Proof.Machine
open Sys2Proof

/-- R126. The threads of an engine drain before it moves. -/
def State.drainEngine (s : State) (h e : Nat) : State := (engineKeys (h * 16 + e)).foldl (fun s key => s.setThr key (s.thr key).drain) s

theorem foldl_onlyThreads {α : Type} {step : State → α → State} (hstep : ∀ s x, OnlyThreads s (step s x)) :
    ∀ (xs : List α) (s : State), OnlyThreads s (xs.foldl step s)
  | [], _ => rfl
  | x :: xs, s => (hstep s x).trans (foldl_onlyThreads hstep xs _)

theorem State.drainEngine_onlyThreads (s : State) (h e : Nat) : OnlyThreads s (s.drainEngine h e) :=
  foldl_onlyThreads (step := fun s key => s.setThr key (s.thr key).drain) (fun _ _ => rfl) _ _

theorem OnlyThreads.hamlet {s u : State} (h : OnlyThreads s u) (k : Nat) : u.hamlet k = s.hamlet k := by rw [h]; rfl

section
variable {s : State} {h e : Nat} (hlive : bitAt (s.live h) e = true) (hphase : (s.hamlet h).phase = .normal) (hsubst : (s.hamlet h).subst = none)
include hlive hphase hsubst

/-- R126. With a usable spare, the engine drains and its move begins. -/
theorem State.substitute_moves (hspare : s.get (R.ENG_HSTAT_SPARE h) ≠ 0x1F) (hok : (s.hamlet h).spareOk = true) :
    s.substitute h e = (s.drainEngine h e).setHamlet h { (s.drainEngine h e).hamlet h with
      subst := some ⟨e, s.get (R.ENG_HSTAT_SPARE h), false⟩, testSeq := (s.drainEngine h e).lastSeq } := by
  simp only [State.substitute, hlive, hphase, hsubst, hspare, hok]
  rfl

/-- R128. Without a usable spare, the engine is retired. -/
theorem State.substitute_retires (hspare : ¬ (s.get (R.ENG_HSTAT_SPARE h) ≠ 0x1F ∧ (s.hamlet h).spareOk = true)) :
    s.substitute h e = s.retireLogical h e := by
  have hnone : s.get (R.ENG_HSTAT_SPARE h) = 0x1F ∨ (!(s.hamlet h).spareOk) = true := by
    by_cases hsp : s.get (R.ENG_HSTAT_SPARE h) = 0x1F
    · exact Or.inl hsp
    · exact Or.inr (by simpa using fun hok => hspare ⟨hsp, hok⟩)
  simp only [State.substitute, hlive, hphase, hsubst, hnone]
  rfl

end

theorem engFlds_apart (h : Nat) :
    (R.ENG_HSTAT_DEGRADED h).apart (R.ENG_HSTAT_LIVE h) = true ∧ (R.ENG_HSTAT_LIVE h).apart (R.ENG_HSTAT_SPARE h) = true ∧
    (R.ENG_HSTAT_DEGRADED h).apart (R.ENG_HSTAT_SPARE h) = true := by
  simp [Fld.apart, R.ENG_HSTAT_DEGRADED, R.ENG_HSTAT_LIVE, R.ENG_HSTAT_SPARE]

/-- R128. What retiring an engine marks. -/
theorem State.retireLogical_spec {s : State} {h e : Nat} (hh : h < 16) (he : e < 16) (hlive : bitAt (s.live h) e = true) :
    (∀ o, o ≠ h → (s.retireLogical h e).hamlet o = s.hamlet o) ∧
    (s.retireLogical h e).live h = s.live h - 2 ^ e ∧ (s.retireLogical h e).get (R.ENG_HSTAT_DEGRADED h) = 1 ∧
    (s.retireLogical h e).get (causeFld Irq.ENG_DEGRADED) = 1 ∧
    ((s.retireLogical h e).hamlet h).retired = (s.hamlet h).retired ||| 2 ^ s.get (R.ENG_MAP_PHYS h e) := by
  obtain ⟨t, ht, heq⟩ := s.retireLogical_marks hh he
  have hkeeps := ht.trans (t.raise_keepsHamlets (c := Irq.ENG_DEGRADED) (by decide))
  rw [← heq] at hkeeps
  have hget : ∀ g : Fld, g.addr = 0x70100 + h * 4 → (s.retireLogical h e).get g = (s.markRetired h e).get g := fun g hg =>
    hkeeps.2.get (by omega) (by omega)
  have hhamlet : ∀ o, (s.retireLogical h e).hamlet o =
      if o = h then { s.hamlet h with retired := (s.hamlet h).retired ||| 2 ^ s.get (R.ENG_MAP_PHYS h e) } else s.hamlet o := fun o =>
    (hkeeps.hamlet o).trans (s.hamlet_setHamlet h _ o)
  have hbit : s.live h &&& 2 ^ e = 2 ^ e := by
    rw [Nat.and_two_pow, ← bitAt_eq_testBit, hlive]
    exact Nat.one_mul _
  have hlt : s.live h < 2 ^ 16 := bitsOf_lt _ _ _
  refine ⟨fun o ho => by rw [hhamlet, if_neg ho], ?_, ?_, ?_, by rw [hhamlet, if_pos rfl]⟩
  · rw [State.live, hget _ rfl, State.markRetired, State.get_put_apart _ _ (engFlds_apart h).1, State.get_put_same _ _ _ (by decide : 8 + 16 ≤ 32), hbit]
    exact Nat.mod_eq_of_lt (by show _ < 2 ^ 16; omega)
  · rw [hget _ rfl, State.markRetired, State.get_put_same _ _ _ (by decide : 5 + 1 ≤ 32)]
    rfl
  · rw [heq]
    exact State.raise_sets _ (by decide)

/-- R126, R128. What happens where an engine is to be left. -/
theorem engineSubstitution_spec {s : State} {h e : Nat} (hh : h < 16) (he : e < 16) (hlive : bitAt (s.live h) e = true)
    (hphase : (s.hamlet h).phase = .normal) (hsubst : (s.hamlet h).subst = none) :
    ∃ u, exec (.engineSubstitution h e) s = .next u ∧ (∀ o, o ≠ h → u.hamlet o = s.hamlet o) ∧
      (if s.get (R.ENG_HSTAT_SPARE h) ≠ 0x1F ∧ (s.hamlet h).spareOk = true then
        (∃ m, (u.hamlet h).subst = some m ∧ m.logical = e ∧ m.spare = s.get (R.ENG_HSTAT_SPARE h) ∧ m.rotate = false) ∧ u.live h = s.live h
       else u.live h = s.live h - 2 ^ e ∧ u.get (R.ENG_HSTAT_DEGRADED h) = 1 ∧ u.get (causeFld Irq.ENG_DEGRADED) = 1 ∧
        (u.hamlet h).retired = (s.hamlet h).retired ||| 2 ^ s.get (R.ENG_MAP_PHYS h e)) := by
  refine ⟨s.substitute h e, rfl, ?_⟩
  split
  · rename_i hspare
    have hdrain := s.drainEngine_onlyThreads h e
    rw [State.substitute_moves hlive hphase hsubst hspare.1 hspare.2]
    refine ⟨fun o ho => ?_, ⟨⟨_, by rw [State.hamlet_setHamlet_same], rfl, rfl, rfl⟩, hdrain.get _⟩⟩
    rw [State.hamlet_setHamlet, if_neg ho, hdrain.hamlet]
  · rename_i hspare
    rw [State.substitute_retires hlive hphase hsubst hspare]
    exact State.retireLogical_spec hh he hlive

/-- R126, R127. The registers of a move's end: the map, the spare and the count. -/
def State.moveEnd (s : State) (h : Nat) (m : Subst) : State :=
  let old := s.get (R.ENG_MAP_PHYS h m.logical)
  let t := ((s.put (R.ENG_MAP_PHYS h m.logical) m.spare).put (R.ENG_HSTAT_SPARE h) 0x1F).bump (R.ENG_CNT_COUNT h 4)
  let t := t.setHamlet h { s.hamlet h with subst := none, testing := if m.rotate then (s.hamlet h).testing else some old, spareOk := false, bistFails := 0 }
  if m.rotate then t.put (R.ENG_HSTAT_SPARE h) old else t

theorem exec_substitutionComplete {s : State} {h : Nat} {m : Subst} (hm : (s.hamlet h).subst = some m) :
    exec (.substitutionComplete h) s = .next (((((s.moveEnd h m).substNote [7, h, s.get (R.ENG_MAP_PHYS h m.logical)]).log 7 0 h 4 0
      (s.get (R.ENG_MAP_PHYS h m.logical))).raise Irq.ENG_SUBST).runSubstWaits h) := by
  show execSubstitutionComplete h s = _
  simp only [execSubstitutionComplete, hm]
  rfl

theorem moveFlds_apart {h l : Nat} (hh : h < 16) (hl : l < 16) :
    (R.ENG_HSTAT_SPARE h).apart (R.ENG_MAP_PHYS h l) = true ∧ (R.ENG_CNT_COUNT h 4).apart (R.ENG_MAP_PHYS h l) = true ∧
    (R.ENG_CNT_COUNT h 4).apart (R.ENG_HSTAT_SPARE h) = true ∧ (R.ENG_HSTAT_SPARE h).apart (R.ENG_CNT_COUNT h 4) = true ∧
    (R.ENG_MAP_PHYS h l).apart (R.ENG_CNT_COUNT h 4) = true := by
  simp only [Fld.apart_iff, R.ENG_HSTAT_SPARE, R.ENG_MAP_PHYS, R.ENG_CNT_COUNT]
  omega

theorem State.moveEnd_regs (s : State) {h : Nat} {m : Subst} (hh : h < 16) (hl : m.logical < 16) (hsp : m.spare < 17) :
    (s.moveEnd h m).get (R.ENG_MAP_PHYS h m.logical) = m.spare ∧
    (s.moveEnd h m).get (R.ENG_HSTAT_SPARE h) = (if m.rotate then s.get (R.ENG_MAP_PHYS h m.logical) else 0x1F) ∧
    (s.moveEnd h m).get (R.ENG_CNT_COUNT h 4) = (s.get (R.ENG_CNT_COUNT h 4) + 1) % 2 ^ 32 ∧
    (∀ e, e < 16 → e ≠ m.logical → (s.moveEnd h m).get (R.ENG_MAP_PHYS h e) = s.get (R.ENG_MAP_PHYS h e)) := by
  obtain ⟨hsm, hcm, hcs, hsc, hmc⟩ := moveFlds_apart hh hl
  generalize hold : s.get (R.ENG_MAP_PHYS h m.logical) = old
  have hlt : old < 2 ^ 5 := hold ▸ bitsOf_lt _ _ _
  generalize hp : ((s.put (R.ENG_MAP_PHYS h m.logical) m.spare).put (R.ENG_HSTAT_SPARE h) 0x1F).bump (R.ENG_CNT_COUNT h 4) = p
  have hmap : p.get (R.ENG_MAP_PHYS h m.logical) = m.spare := by
    rw [← hp, State.get_bump_apart _ hcm, State.get_put_apart _ _ hsm, State.get_put_same _ _ _ (by decide : 0 + 5 ≤ 32)]
    exact Nat.mod_eq_of_lt (by show _ < 2 ^ 5; omega)
  have hspare : p.get (R.ENG_HSTAT_SPARE h) = 0x1F := by
    rw [← hp, State.get_bump_apart _ hcs, State.get_put_same _ _ _ (by decide : 0 + 5 ≤ 32)]
    rfl
  have hcount : p.get (R.ENG_CNT_COUNT h 4) = (s.get (R.ENG_CNT_COUNT h 4) + 1) % 2 ^ 32 := by
    rw [← hp, State.get_bump_same _ _ (by decide : 0 + 32 ≤ 32), State.get_put_apart _ _ hsc, State.get_put_apart _ _ hmc]
    rfl
  have hothers : ∀ e, e < 16 → e ≠ m.logical → p.get (R.ENG_MAP_PHYS h e) = s.get (R.ENG_MAP_PHYS h e) := fun e he hne => by
    obtain ⟨hse, hce, -⟩ := moveFlds_apart hh he
    rw [← hp, State.get_bump_apart _ hce, State.get_put_apart _ _ hse,
      State.get_put_apart _ _ (Fld.apart_iff.2 (Or.inl (by simp only [R.ENG_MAP_PHYS]; omega)))]
  have hend : ∀ g, (s.moveEnd h m).get g = if m.rotate then (p.put (R.ENG_HSTAT_SPARE h) old).get g else p.get g := fun g => by
    unfold State.moveEnd
    dsimp only
    rw [hold, hp]
    split <;> rfl
  cases hrot : m.rotate with
  | false =>
    simp only [hend, hrot, Bool.false_eq_true, if_false]
    exact ⟨hmap, hspare, hcount, hothers⟩
  | true =>
    simp only [hend, hrot, if_true]
    refine ⟨(State.get_put_apart _ _ hsm).trans hmap, ?_, (State.get_put_apart _ _ hsc).trans hcount,
      fun e he hne => (State.get_put_apart _ _ (moveFlds_apart hh he).1).trans (hothers e he hne)⟩
    rw [State.get_put_same _ _ _ (by decide : 0 + 5 ≤ 32)]
    exact Nat.mod_eq_of_lt hlt

theorem State.moveEnd_aq (s : State) (h : Nat) (m : Subst) :
    (s.moveEnd h m).hamlet h = { s.hamlet h with subst := none, testing := if m.rotate then (s.hamlet h).testing else some (s.get (R.ENG_MAP_PHYS h m.logical)),
                                                 spareOk := false, bistFails := 0 } ∧
    (s.moveEnd h m).aq.threads = s.aq.threads ∧ (s.moveEnd h m).aq.lstore = s.aq.lstore := by
  have haq : (s.moveEnd h m).aq = (s.setHamlet h { s.hamlet h with
      subst := none, testing := if m.rotate then (s.hamlet h).testing else some (s.get (R.ENG_MAP_PHYS h m.logical)), spareOk := false, bistFails := 0 }).aq := by
    unfold State.moveEnd
    dsimp only
    split <;> rfl
  exact ⟨by rw [State.hamlet_congr haq, State.hamlet_setHamlet_same], by rw [haq]; rfl, by rw [haq]; rfl⟩

theorem State.runSubstWaits_none {s : State} {h : Nat} (hw : (s.hamlet h).substWait = []) :
    s.runSubstWaits h = s.setHamlet h { s.hamlet h with substWait := [] } := by
  unfold State.runSubstWaits
  rw [hw]
  rfl

/-- R126, R127. The end of a move. -/
theorem substitutionComplete_spec {s : State} {h : Nat} {m : Subst} (hh : h < 16) (hm : (s.hamlet h).subst = some m) (hw : (s.hamlet h).substWait = [])
    (hl : m.logical < 16) (hsp : m.spare < 17) :
    ∃ u, exec (.substitutionComplete h) s = .next u ∧ u.get (R.ENG_MAP_PHYS h m.logical) = m.spare ∧ (u.hamlet h).subst = none ∧
      u.get (R.ENG_HSTAT_SPARE h) = (if m.rotate then s.get (R.ENG_MAP_PHYS h m.logical) else 0x1F) ∧ (u.hamlet h).spareOk = false ∧
      (m.rotate = false → (u.hamlet h).testing = some (s.get (R.ENG_MAP_PHYS h m.logical))) ∧
      u.get (R.ENG_CNT_COUNT h 4) = (s.get (R.ENG_CNT_COUNT h 4) + 1) % 2 ^ 32 ∧ u.get (causeFld Irq.ENG_SUBST) = 1 ∧
      (∀ e, e < 16 → e ≠ m.logical → u.get (R.ENG_MAP_PHYS h e) = s.get (R.ENG_MAP_PHYS h e)) ∧ u.aq.threads = s.aq.threads ∧ u.aq.lstore = s.aq.lstore := by
  obtain ⟨hmap, hspare, hcount, hothers⟩ := s.moveEnd_regs hh hl hsp
  obtain ⟨hhamlet, hthreads, hstore⟩ := s.moveEnd_aq h m
  have hexec := exec_substitutionComplete hm
  generalize s.moveEnd h m = p at *
  generalize hold : s.get (R.ENG_MAP_PHYS h m.logical) = old at *
  have hnote : KeepsHamlets p (p.substNote [7, h, old]) := ⟨rfl, .put p _ _ (Or.inr (by decide))⟩
  have hlog := (p.substNote [7, h, old]).log_keepsHamlets (blk := 7) 0 h 4 0 old (by decide)
  have hlogaq : ((p.substNote [7, h, old]).log 7 0 h 4 0 old).aq = p.aq := (State.log_report ..).aq
  generalize (p.substNote [7, h, old]).log 7 0 h 4 0 old = q at *
  have hraise := q.raise_keepsHamlets (c := Irq.ENG_SUBST) (by decide)
  have hcause := q.raise_sets (c := Irq.ENG_SUBST) (by decide)
  have haq : (q.raise Irq.ENG_SUBST).aq = p.aq := (State.raise_report ..).aq.trans hlogaq
  generalize q.raise Irq.ENG_SUBST = r at *
  have hkeep := (hnote.trans hlog).trans hraise
  have hr := (hkeep.hamlet h).trans hhamlet
  rw [State.runSubstWaits_none (by rw [hr]; exact hw)] at hexec
  have hget : ∀ g : Fld, 0x70000 ≤ g.addr → g.addr < 0x80000 → r.get g = p.get g := fun g hlo hhi => hkeep.2.get hlo hhi
  refine ⟨_, hexec, (hget _ ?_ ?_).trans hmap, ?_, (hget _ ?_ ?_).trans hspare, ?_, ?_, (hget _ ?_ ?_).trans hcount, hcause,
    fun e he hne => (hget _ ?_ ?_).trans (hothers e he hne), ?_, ?_⟩
  case refine_3 | refine_6 => rw [State.hamlet_setHamlet_same, hr]
  case refine_7 => intro hrot; rw [State.hamlet_setHamlet_same, hr, hrot]; rfl
  case refine_12 => rw [← hthreads, ← haq]; rfl
  case refine_13 => rw [← hstore, ← haq]; rfl
  all_goals simp only [R.ENG_MAP_PHYS, R.ENG_HSTAT_SPARE, R.ENG_CNT_COUNT]; omega

/-- R413. A good pass is on record for the self-test's calibration. -/
def State.bistRan (s : State) (h : Nat) : State :=
  { s with cal := { s.cal with bist := tabPut s.cal.bist (h * 32 + s.get (R.ENG_HSTAT_SPARE h)) s.ticks } }

section
variable {s : State} {h : Nat} (hspare : s.get (R.ENG_HSTAT_SPARE h) ≠ 0x1F) (hsubst : (s.hamlet h).subst = none)
include hspare hsubst

theorem exec_spareBistPass (ok : Bool) :
    exec (.spareBistPass h ok) s = .next (
      if ok then (s.bistRan h).setHamlet h { s.hamlet h with spareOk := true, bistFails := 0, passes := min 65535 ((s.hamlet h).passes + 1) }
      else if (s.hamlet h).bistFails = 0 then s.setHamlet h { s.hamlet h with spareOk := false, bistFails := 1 }
      else (s.setHamlet h { s.hamlet h with
        spareOk := false, bistFails := 0, retired := (s.hamlet h).retired ||| 2 ^ s.get (R.ENG_HSTAT_SPARE h) }).put (R.ENG_HSTAT_SPARE h) 0x1F) :=
  congrArg Host.Outcome.next (if_neg (by simp [hspare, hsubst]))

/-- R413. A pass of the spare's self-test ends. -/
theorem spareBistPass_spec (ok : Bool) :
    ∃ u, exec (.spareBistPass h ok) s = .next u ∧ (u.hamlet h).spareOk = ok ∧ (∀ o, o ≠ h → u.hamlet o = s.hamlet o) ∧ u.aq.threads = s.aq.threads ∧
      (if ok = false ∧ (s.hamlet h).bistFails ≠ 0 then
        u.get (R.ENG_HSTAT_SPARE h) = 0x1F ∧ (u.hamlet h).retired = (s.hamlet h).retired ||| 2 ^ s.get (R.ENG_HSTAT_SPARE h)
       else u.get (R.ENG_HSTAT_SPARE h) = s.get (R.ENG_HSTAT_SPARE h) ∧ (u.hamlet h).bistFails = (if ok then 0 else 1)) := by
  refine ⟨_, exec_spareBistPass hspare hsubst ok, ?_⟩
  cases ok with
  | true =>
    rw [if_pos rfl]
    refine ⟨by rw [State.hamlet_setHamlet_same], fun o ho => ?_, rfl, ?_⟩
    · rw [State.hamlet_setHamlet, if_neg ho]
      rfl
    · rw [if_neg (by simp), State.hamlet_setHamlet_same]
      exact ⟨rfl, rfl⟩
  | false =>
    rw [if_neg (by simp)]
    by_cases hfails : (s.hamlet h).bistFails = 0
    · rw [if_pos hfails]
      refine ⟨by rw [State.hamlet_setHamlet_same], fun o ho => by rw [State.hamlet_setHamlet, if_neg ho], rfl, ?_⟩
      rw [if_neg (by simp [hfails]), State.hamlet_setHamlet_same]
      exact ⟨rfl, rfl⟩
    · rw [if_neg hfails]
      refine ⟨congrArg HamletSt.spareOk (s.hamlet_setHamlet_same h _), fun o ho => (s.hamlet_setHamlet h _ o).trans (if_neg ho), rfl, ?_⟩
      rw [if_pos ⟨rfl, hfails⟩, State.get_put_same _ _ _ (by decide : 0 + 5 ≤ 32)]
      exact ⟨rfl, congrArg HamletSt.retired (s.hamlet_setHamlet_same h _)⟩

end

/-- R116–R118. A fault that a runnable thread meets. -/
theorem exec_threadFault {s : State} {e sl cause : Nat} (lanes : BitVec 64) (addr : Nat) (hrun : (s.thr (e * 4 + sl)).state = .runnable)
    (hlo : 1 ≤ cause) (hhi : cause ≤ 7) (hbreak : cause ≠ 6) :
    exec (.threadFault (.eng e sl) cause lanes addr) s = .next (s.faultThread (.eng e sl) cause lanes.toNat addr) := by
  have hkey : (s.thr (thrKey (.eng e sl))).state = .runnable := hrun
  have hlive : (s.thr (thrKey (.eng e sl))).live = true := by simp [ThreadSt.live, hkey]
  show Host.Outcome.next _ = _
  simp only [if_neg (show ¬ (cause = 0 ∨ 8 < cause) by omega), if_neg (show ¬ cause = 8 by omega), hlive, hkey]
  by_cases hpar : cause = 7
  · subst hpar
    rfl
  · rw [if_neg hpar]
    rfl

/-- Settles O30: faults that no instruction raises, and spare engines. -/
theorem engineFaultsAndSpares : Obligations.EngineFaultsAndSpares := by
  refine ⟨fun s e sl l cause addr lanes hl hrun hlo hhi hbreak => ⟨_, exec_threadFault lanes addr hrun hlo hhi hbreak, ?_⟩,
    fun s c hc hrun => ⟨_, ?_, haltSteward_halts s hc hrun⟩,
    fun s h p sl store hh _ => ⟨engineEccError_corrected s p sl store hh, fun e he hphase hsl hrun => engineEccError_uncorrected store hh he hphase hsl hrun⟩,
    fun s h e hh he hlive hphase hsubst => engineSubstitution_spec hh he hlive hphase hsubst,
    fun s h m hh hm hw hl hsp => substitutionComplete_spec hh hm hw hl hsp, fun s h ok _ hspare hsubst => spareBistPass_spec hspare hsubst ok⟩
  · have hsusp := faultThread_suspends cause lanes.toNat addr hl
    rwa [if_neg hbreak] at hsusp
  · show Host.Outcome.next _ = _
    rw [hrun]
    rfl

end Sys2Proof.Machine
end

section
/-! ### The start of a launch on its hamlets (R96, R97, R99, R103, R104, R365) -/
namespace Sys2Proof.Machine
open Sys2Proof

theorem mem_maskList {n m h : Nat} : h ∈ maskList n m ↔ h < n ∧ bitAt m h = true := by
  simp [maskList]

/-- A read of `n` bytes gives `n` bytes. -/
theorem State.vread_length {s : State} {ctx : Nat} {acc : Acc} : ∀ {n va : Nat} {bs : List Byte}, s.vread ctx va acc n = .ok bs → bs.length = n
  | 0, _, _, h => by cases h; rfl
  | n + 1, va, bs, h => by
    unfold State.vread at h
    split at h
    · cases h
    split at h
    · cases h
    split at h
    · cases h
    · cases h
      exact congrArg (· + 1) (State.vread_length ‹_›)

theorem State.nextDue_congr {s u : State} (hsyn : u.syn = s.syn) (hact : u.act = s.act) (hmember : u.member = s.member) (m : Nat) :
    u.nextDue m = s.nextDue m := by
  have hmode : u.bandMode = s.bandMode := by
    have hget : u.getA R.SYN_CTL_MODE = s.getA R.SYN_CTL_MODE := by rw [State.getA, State.getA, State.actWord, State.actWord, hact, hmember]
    rw [State.bandMode, State.bandMode, State.onA, State.onA, hget]
  rw [State.nextDue, State.nextDue, hsyn, hmode]

theorem OnlyReport.nextDue {s u : State} (h : OnlyReport s u) (m : Nat) : u.nextDue m = s.nextDue m :=
  State.nextDue_congr h.syn (by rw [h.1]) (by rw [h.1]) m

@[simp] theorem State.thr_setHamlet (s : State) (h : Nat) (x : HamletSt) (key : Nat) : (s.setHamlet h x).thr key = s.thr key := rfl

/-- The rings with one replaced, apart from the registers that follow it. -/
def State.withRing (s : State) (e r : Nat) (x : DmaRing) : State := { s with dma := { s.dma with rings := mapPut dmaDefault s.dma.rings (e * 4 + r) x } }

theorem State.setDmaRing_eq (s : State) (e r : Nat) (x : DmaRing) :
    s.setDmaRing e r x = (((s.withRing e r x).put (R.DMA_PROW_ROWS_DONE e r) x.rows).put (R.DMA_PBYTE_BYTES_DONE e r) x.bytes).put (R.DMA_RSTAT_BUSY e r)
      (b2n x.cur.isSome) := rfl

theorem State.setDmaRing_report (s : State) (e r : Nat) (x : DmaRing) : OnlyReport (s.withRing e r x) (s.setDmaRing e r x) := by
  rw [State.setDmaRing_eq]
  exact ((State.put_report ..).trans (State.put_report ..)).trans (State.put_report ..)

theorem State.setDmaRing_keeps (s : State) {e r : Nat} (x : DmaRing) (he : e < 16) (hr : r < 3) : KeepsEngRegs s (s.setDmaRing e r x) := by
  have hring : KeepsEngRegs s (s.withRing e r x) := fun _ _ _ => rfl
  rw [State.setDmaRing_eq]
  refine ((hring.trans (.put _ _ _ ?_)).trans (.put _ _ _ ?_)).trans (.put _ _ _ ?_)
  all_goals simp only [R.DMA_PROW_ROWS_DONE, R.DMA_PBYTE_BYTES_DONE, R.DMA_RSTAT_BUSY]; omega

theorem State.setDmaRing_aq (s : State) (e r : Nat) (x : DmaRing) : (s.setDmaRing e r x).aq = s.aq := (s.setDmaRing_report e r x).aq

/-- R365. The nine register words of ring 2 read zero. -/
def State.ring2Zeroed (s : State) (e : Nat) : State := foldRange 9 (fun s i => s.setWord (ring2Base e + 4 * i) 0) s

theorem State.ring2Zeroed_report (s : State) (e : Nat) : OnlyReport s (s.ring2Zeroed e) :=
  foldRange_induct (P := fun _ u => OnlyReport s u) (.refl s) 9 fun _ _ u hu => hu.trans (u.setWord_report _ _)

theorem State.ring2Zeroed_keeps (s : State) {e : Nat} (he : e < 16) : KeepsEngRegs s (s.ring2Zeroed e) :=
  foldRange_induct (P := fun _ u => KeepsEngRegs s u) (fun _ _ _ => rfl) 9 fun i hi u hu a hlo hhi => by
    rw [State.word_setWord_other _ _ (by simp only [ring2Base]; omega)]
    exact hu a hlo hhi

theorem State.ring2Clear_eq (s : State) (e : Nat) : s.ring2Clear e = (s.ring2Zeroed e).setDmaRing e 2 (dmaDefault 0) := rfl

theorem State.nextDue_withRing (s : State) (e r : Nat) (x : DmaRing) (m : Nat) : (s.withRing e r x).nextDue m = s.nextDue m :=
  State.nextDue_congr (u := s.withRing e r x) rfl rfl rfl m

/-- R365. Clearing ring 2 leaves the engines and the work that is due. -/
theorem State.ring2Clear_spec (s : State) (e : Nat) : (s.ring2Clear e).aq = s.aq ∧ ∀ m, (s.ring2Clear e).nextDue m = s.nextDue m := by
  have hzero := s.ring2Zeroed_report e
  have hring := (s.ring2Zeroed e).setDmaRing_report e 2 (dmaDefault 0)
  rw [State.ring2Clear_eq]
  refine ⟨(State.setDmaRing_aq ..).trans hzero.aq, fun m => ?_⟩
  rw [hring.nextDue, State.nextDue_withRing, hzero.nextDue]

/-- R365. The registers of ring 2 are none of the block ENG. -/
theorem State.ring2Clear_keeps (s : State) {e : Nat} (he : e < 16) : KeepsEngRegs s (s.ring2Clear e) := by
  rw [State.ring2Clear_eq]
  exact (s.ring2Zeroed_keeps he).trans ((s.ring2Zeroed e).setDmaRing_keeps _ he (by decide))

/-- Records put at some threads. -/
theorem State.thr_foldl_setThr (f : Nat → ThreadSt) : ∀ (keys : List Nat) (s : State) (j : Nat),
    (keys.foldl (fun s key => s.setThr key (f key)) s).thr j = if j ∈ keys then f j else s.thr j
  | [], _, _ => by simp
  | key :: keys, s, j => by
    rw [List.foldl_cons, State.thr_foldl_setThr f keys, State.thr_setThr]
    by_cases hj : j = key
    · subst hj; simp
    · simp [hj]

/-- R97, R128. The thread of a slot of an engine at the start of a launch. -/
def slotThread (live k : Nat) (d : LaunchDesc) (key : Nat) : ThreadSt :=
  if bitAt live (key / 4 % 16) && decide (key % 4 < d.threads) then startThread k d else thrDefault 0

/-- R97. The threads of a hamlet at the start of a launch. -/
def State.startSlots (s : State) (k : Nat) (d : LaunchDesc) (h : Nat) (keys : List Nat) : State :=
  keys.foldl (fun s key => s.setThr key (slotThread (s.live h) k d key)) s

theorem State.startSlots_eq {s : State} {h n : Nat} (k : Nat) (d : LaunchDesc) (hn : s.live h = n) : ∀ (keys : List Nat),
    s.startSlots k d h keys = keys.foldl (fun s key => s.setThr key (slotThread n k d key)) s
  | [] => rfl
  | key :: keys => by
    subst hn
    exact State.startSlots_eq (s := s.setThr key (slotThread (s.live h) k d key)) k d rfl keys

/-- R103, R97. A launch takes one hamlet. -/
def State.takeHamlet (s : State) (k : Nat) (d : LaunchDesc) (bs : List Byte) (h : Nat) : State := (s.loadConst h bs).startHamlet k d h

/-- R97. The record of a hamlet that a launch has taken. -/
def HamletSt.taken (x : HamletSt) (k : Nat) : HamletSt := { x with holder := some k, phase := .normal, barH := [] }

/-- R97–R99, R103. Launch `k` with the constants `bs` has taken the hamlets `hs`. -/
structure Taken (s u : State) (k : Nat) (d : LaunchDesc) (bs : List Byte) (hs : List Nat) : Prop where
  due : ∀ m, u.nextDue m = s.nextDue m
  regs : KeepsEngRegs s u
  hamlet : ∀ h, u.hamlet h = if h ∈ hs then (s.hamlet h).taken k else s.hamlet h
  thr : ∀ key, u.thr key = if key / 64 ∈ hs then slotThread (s.live (key / 64)) k d key else s.thr key
  const : ∀ h i, i < bs.length → mapGet byteDefault u.aq.constBuf (h * 65536 + i) =
    if h ∈ hs then bs.getD i 0 else mapGet byteDefault s.aq.constBuf (h * 65536 + i)

theorem State.takeHamlet_spec (s : State) (k : Nat) (d : LaunchDesc) {bs : List Byte} {h : Nat} (hh : h < 16) (hbs : bs.length ≤ 65536) :
    Taken s (s.takeHamlet k d bs h) k d bs [h] := by
  have hslots := State.startSlots_eq (s := (s.loadConst h bs).freeStores h) (h := h) k d rfl (hamletKeys h)
  have honly : OnlyThreads ((s.loadConst h bs).freeStores h) (((s.loadConst h bs).freeStores h).startSlots k d h (hamletKeys h)) :=
    foldl_onlyThreads (step := fun s key => s.setThr key (slotThread (s.live h) k d key)) (fun _ _ => rfl) _ _
  have hthr : ∀ j, (((s.loadConst h bs).freeStores h).startSlots k d h (hamletKeys h)).thr j =
      if j / 64 = h then slotThread (s.live h) k d j else s.thr j := fun j => by
    rw [hslots, State.thr_foldl_setThr]
    simp only [mem_hamletKeys]
    rfl
  have hstart : s.takeHamlet k d bs h = ((((s.loadConst h bs).freeStores h).startSlots k d h (hamletKeys h)).setHamlet h
      (HamletSt.taken ((((s.loadConst h bs).freeStores h).startSlots k d h (hamletKeys h)).hamlet h) k)).ring2Clear h := rfl
  generalize ((s.loadConst h bs).freeStores h).startSlots k d h (hamletKeys h) = t at *
  generalize hv : t.setHamlet h ((t.hamlet h).taken k) = v at *
  obtain ⟨haq, hdue⟩ := v.ring2Clear_spec h
  have hregs := v.ring2Clear_keeps hh
  rw [← hstart] at haq hdue hregs
  generalize s.takeHamlet k d bs h = u at *
  have hham : ∀ o, t.hamlet o = s.hamlet o := honly.hamlet
  have hconst : u.aq.constBuf = mapPutList byteDefault s.aq.constBuf (h * 65536) bs := by rw [haq, ← hv, honly]; rfl
  refine ⟨fun m => (hdue m).trans (State.nextDue_congr ?_ ?_ ?_ m), fun a hlo hhi => (hregs a hlo hhi).trans ?_, fun o => ?_,
    fun key => ?_, fun o i hi => ?_⟩
  case refine_1 | refine_2 | refine_3 | refine_4 => rw [← hv, honly]; rfl
  · rw [State.hamlet_congr haq, ← hv, State.hamlet_setHamlet]
    simp only [hham, List.mem_singleton]
    split
    · subst o; rfl
    · rfl
  · rw [State.thr_congr haq, ← hv, State.thr_setHamlet, hthr]
    simp only [List.mem_singleton]
    split
    · rw [‹key / 64 = h›]
    · rfl
  · rw [hconst]
    simp only [List.mem_singleton]
    split
    · subst o
      rw [mapGet_mapPutList_at _ _ _ _ _ hi, List.getD_eq_getElem _ _ hi]
    · exact mapGet_mapPutList_other _ _ _ _ _ (by omega)

theorem Taken.refl (s : State) (k : Nat) (d : LaunchDesc) (bs : List Byte) : Taken s s k d bs [] :=
  ⟨fun _ => rfl, fun _ _ _ => rfl, fun _ => rfl, fun _ => rfl, fun _ _ _ => rfl⟩

theorem Taken.live {s u : State} {k : Nat} {d : LaunchDesc} {bs : List Byte} {hs : List Nat} (t : Taken s u k d bs hs) {h : Nat} (hh : h < 16) :
    u.live h = s.live h := t.regs.get (by simp only [R.ENG_HSTAT_LIVE]; omega) (by simp only [R.ENG_HSTAT_LIVE]; omega)

/-- A launch that takes one hamlet more. -/
theorem Taken.cons {s u v : State} {k : Nat} {d : LaunchDesc} {bs : List Byte} {h : Nat} {hs : List Nat} (hlt : ∀ o ∈ hs, o < 16)
    (h1 : Taken s u k d bs [h]) (h2 : Taken u v k d bs hs) : Taken s v k d bs (h :: hs) := by
  refine ⟨fun m => (h2.due m).trans (h1.due m), h1.regs.trans h2.regs, fun o => ?_, fun key => ?_, fun o i hi => ?_⟩
  · rw [h2.hamlet, h1.hamlet]
    by_cases ho : o = h <;> by_cases hm : o ∈ hs <;> simp [ho, hm, HamletSt.taken]
  · rw [h2.thr, h1.thr]
    by_cases hm : key / 64 ∈ hs
    · simp [hm, h1.live (hlt _ hm)]
    · rw [if_neg hm]
      refine if_congr ?_ rfl rfl
      simp [hm]
  · rw [h2.const o i hi, h1.const o i hi]
    by_cases ho : o = h <;> by_cases hm : o ∈ hs <;> simp [ho, hm]

theorem State.takeHamlets_spec (k : Nat) (d : LaunchDesc) {bs : List Byte} (hbs : bs.length ≤ 65536) : ∀ (hs : List Nat) (s : State),
    (∀ h ∈ hs, h < 16) → Taken s (hs.foldl (fun s h => s.takeHamlet k d bs h) s) k d bs hs
  | [], s, _ => .refl s k d bs
  | h :: hs, s, hlt => by
    have htail : ∀ o ∈ hs, o < 16 := fun o ho => hlt o (List.mem_cons_of_mem _ ho)
    rw [List.foldl_cons]
    have hfirst := s.takeHamlet_spec k d (hlt h List.mem_cons_self) hbs
    generalize s.takeHamlet k d bs h = u at *
    exact hfirst.cons htail (State.takeHamlets_spec k d hbs hs u htail)

/-- R99. The thread of a launch at its start. -/
theorem startThread_spec (k : Nat) (d : LaunchDesc) :
    (startThread k d).state = .runnable ∧ (startThread k d).launch = k ∧ (startThread k d).pc = BitVec.ofNat 48 d.code ∧
    (∀ n i, (startThread k d).vw n i = 0) ∧ (∀ n, (startThread k d).pr false n = if n = 0 then 2 ^ 64 - 1 else 0) ∧
    (∀ n, (startThread k d).sw n = if 1 ≤ n ∧ n ≤ 4 then BitVec.ofNat 64 (d.args.getD (n - 1) 0) else 0) := by
  let t : ThreadSt := { thrDefault 0 with pc := BitVec.ofNat 48 d.code, state := .runnable, launch := k }
  have hargs := foldRange_induct (P := fun j (x : ThreadSt) => x = { t with s := x.s } ∧
      ∀ n, x.sw n = if 1 ≤ n ∧ n ≤ j then BitVec.ofNat 64 (d.args.getD (n - 1) 0) else 0)
    (f := fun t i => t.setS (1 + i) (d.args.getD i 0)) (s := t)
    ⟨rfl, fun n => by rw [if_neg (by omega)]; unfold ThreadSt.sw; split <;> rfl⟩ 4 fun j _ x ⟨hframe, hsw⟩ => by
      refine ⟨by rw [ThreadSt.setS_frame, hframe], fun n => ?_⟩
      rw [ThreadSt.sw_setS, hsw]
      by_cases hn : n = 1 + j
      · rw [if_pos (by omega), if_pos (by omega), show n - 1 = j by omega]
      · rw [if_neg (by omega)]
        exact if_congr (by omega) rfl rfl
  obtain ⟨hframe, hsw⟩ := hargs
  change startThread k d = { t with s := (startThread k d).s } at hframe
  refine ⟨by rw [hframe], by rw [hframe], by rw [hframe], fun n i => by rw [hframe]; rfl, fun n => ?_, hsw⟩
  rw [hframe]
  unfold ThreadSt.pr
  split <;> rfl

end Sys2Proof.Machine
end

section
/-! ### The work that a launch takes, and its start as a whole (R63, R84, R115, R366) -/
namespace Sys2Proof.Machine
open Sys2Proof

theorem foldl_aq {α : Type} {step : State → α → State} (hstep : ∀ s x, (step s x).aq = s.aq) : ∀ (xs : List α) (s : State), (xs.foldl step s).aq = s.aq
  | [], _ => rfl
  | x :: xs, s => (foldl_aq hstep xs (step s x)).trans (hstep s x)

theorem State.openSum_aq (s : State) (b : ChkBuf) : (s.openSum b).aq = s.aq := by
  unfold State.openSum
  dsimp only
  split <;> rfl

theorem State.openWork_aq (s : State) (wk : Nat) (w : SynWork) : (s.openWork wk w).aq = s.aq := by
  unfold State.openWork
  split
  · exact foldl_aq (fun s _ => s.openSum_aq _) _ s
  · exact foldl_aq (fun s _ => s.openSum_aq _) _ s

theorem State.bindCamera_aq (s : State) (ctx set : Nat) (rec : List Byte) (i : Nat) : (s.bindCamera ctx set rec i).aq = s.aq := by
  unfold State.bindCamera
  split
  · rfl
  dsimp only
  split
  · rfl
  split
  · exact (State.vwrite_report ‹_›).aq
  · rfl

theorem State.bindSet_aq (s : State) (ctx : Nat) : (s.bindSet ctx).aq = s.aq := by
  unfold State.bindSet
  split
  · rfl
  dsimp only
  split
  · exact foldl_aq (fun s i => s.bindCamera_aq ctx _ _ i) (List.range 32) _
  · rfl

theorem State.frameFirst_aq (s : State) (w : SynWork) (ctx : Nat) : (s.frameFirst w ctx).aq = s.aq := by
  unfold State.frameFirst
  split
  · exact s.bindSet_aq ctx
  · rfl

/-- R63. A hamlet's unit is at the start of its span of the work. -/
def State.spanStart (s : State) (wk h : Nat) : State := s.setSpan h ⟨wk, 0, none, none⟩

theorem State.span_spanStarts (wk : Nat) : ∀ (hs : List Nat) (s : State) (h : Nat),
    (hs.foldl (fun s h => s.spanStart wk h) s).span h = if h ∈ hs then some ⟨wk, 0, none, none⟩ else s.span h
  | [], _, _ => by simp
  | x :: hs, s, h => by
    have hput : (s.spanStart wk x).span h = if h = x then some ⟨wk, 0, none, none⟩ else s.span h := tabGet_tabPut ..
    rw [List.foldl_cons, State.span_spanStarts wk hs, hput]
    by_cases hx : h = x <;> by_cases hm : h ∈ hs <;> simp [hx, hm]

/-- R62. Work that starts for the first time takes its new ray map. -/
def State.workMap (s : State) (w : SynWork) : State :=
  if decide (w.started = 0) then (match w.newMap with
    | some m => s.takeMap m
    | none => s) else s

theorem State.workMap_aq (s : State) (w : SynWork) : (s.workMap w).aq = s.aq := by
  unfold State.workMap
  split
  · split <;> rfl
  · rfl

/-- R84, R87. Work that starts for the first time binds its frame. -/
def State.workFrame (s : State) (w : SynWork) (ctx : Nat) : State :=
  if decide (w.started = 0) && !s.frameBound w then s.frameFirst w ctx else s

theorem State.workFrame_aq (s : State) (w : SynWork) (ctx : Nat) : (s.workFrame w ctx).aq = s.aq := by
  unfold State.workFrame
  split
  · exact s.frameFirst_aq w ctx
  · rfl

/-- R63, R84. A launch takes the work that is due: nothing of the engines changes but its own record. -/
theorem State.takeWork_spec {s : State} (k : Nat) {l : LaunchSt} (tgt : List TileTarget) {wk : Nat} {w : SynWork} (hdue : s.nextDue l.desc.hmask = some (wk, w)) :
    ∃ t : State, t.aq = s.aq ∧
      s.takeWork k l tgt = (((maskList 16 l.desc.hmask).foldl (fun s h => s.spanStart wk h) t).setLaunch k { l with work := some wk }).syncActive := by
  have hbound : ((s.workMap w).workFrame w l.desc.ctx).aq = s.aq := (State.workFrame_aq ..).trans (s.workMap_aq w)
  have hopen : ∀ (fresh : Bool) (t : State) (x : SynWork), t.aq = s.aq → (if fresh then t.openWork wk x else t).aq = s.aq := fun fresh t x ht => by
    cases fresh
    · exact ht
    · exact (t.openWork_aq wk x).trans ht
  unfold State.takeWork
  rw [hdue]
  refine ⟨_, ?_, rfl⟩
  exact hopen _ _ _ hbound

/-- R115. A launch that starts is running. -/
def State.runningLaunch (s : State) (l : LaunchSt) : LaunchSt :=
  { l with phase := .running, startPtp := s.ptpNs, runFrom := s.ticks, clkFrom := s.coreClk l.first, projective := s.bandMode }

/-- R366. The launch's save maps are loaded, or refused. -/
def State.startSaves (s : State) (k : Nat) (l : LaunchSt) : State :=
  if l.desc.save = 0 then s.setLaunch k l else
    match s.saveMaps k l.desc with
    | some m => (s.setMmu { s.mmu with saveMap := m }).setLaunch k l
    | none => s.saveRefused.setLaunch k { l with noSave := true }

theorem State.startSaves_spec (s : State) (k : Nat) (l : LaunchSt) :
    ∃ t l', OnlyReport s t ∧ l'.phase = l.phase ∧ l'.desc = l.desc ∧ s.startSaves k l = t.setLaunch k l' := by
  unfold State.startSaves
  split
  · exact ⟨s, l, .refl s, rfl, rfl, rfl⟩
  split
  · rename_i m _
    exact ⟨s.setMmu { s.mmu with saveMap := m }, l, ⟨rfl, fun h => h⟩, rfl, rfl, rfl⟩
  · exact ⟨s.saveRefused, { l with noSave := true }, ((s.put_report _ _).trans (State.bump_report _ _)).trans (State.log_report ..), rfl, rfl, rfl⟩

/-- R63. A launch of rays takes the work due, if there is some. -/
def State.startWork (s : State) (k : Nat) (l : LaunchSt) (tgt : List TileTarget) : State := if l.desc.rays then s.takeWork k l tgt else s

theorem State.startWork_spec {s : State} {k : Nat} {l : LaunchSt} (tgt : List TileTarget) (hl : s.launch k = some l) :
    (s.startWork k l tgt).aq = { s.aq with launches := (s.startWork k l tgt).aq.launches } ∧
    (∃ l', (s.startWork k l tgt).launch k = some l' ∧ l'.phase = l.phase ∧ l'.desc = l.desc) ∧
    (∀ wk w, l.desc.rays = true → s.nextDue l.desc.hmask = some (wk, w) → ((s.startWork k l tgt).launch k).bind (·.work) = some wk ∧
      ∀ h, h < 16 → bitAt l.desc.hmask h = true → (s.startWork k l tgt).span h = some ⟨wk, 0, none, none⟩) := by
  unfold State.startWork
  split
  · cases hdue : s.nextDue l.desc.hmask with
    | none =>
      rw [show s.takeWork k l tgt = s by unfold State.takeWork; rw [hdue]]
      exact ⟨rfl, ⟨l, hl, rfl, rfl⟩, fun _ _ _ h => by cases h⟩
    | some p =>
      obtain ⟨wk, w⟩ := p
      obtain ⟨t, ht, heq⟩ := s.takeWork_spec k tgt hdue
      rw [heq]
      have hspans := State.span_spanStarts wk (maskList 16 l.desc.hmask) t
      have haq : ((maskList 16 l.desc.hmask).foldl (fun s h => s.spanStart wk h) t).aq = s.aq :=
        (foldl_aq (step := fun s h => s.spanStart wk h) (fun _ _ => rfl) _ t).trans ht
      generalize (maskList 16 l.desc.hmask).foldl (fun s h => s.spanStart wk h) t = v at *
      have hlaunch : ((v.setLaunch k { l with work := some wk }).syncActive).launch k = some { l with work := some wk } := by
        refine (tabGet_tabPut ..).trans (if_pos rfl)
      refine ⟨by rw [← haq]; rfl, ⟨_, hlaunch, rfl, rfl⟩, fun wk' w' _ hsome => ?_⟩
      cases hsome
      exact ⟨by rw [hlaunch]; rfl, fun h hh hb => (hspans h).trans (if_pos (mem_maskList.2 ⟨hh, hb⟩))⟩
  · exact ⟨rfl, ⟨l, hl, rfl, rfl⟩, fun _ _ hrays => absurd hrays ‹_›⟩

/-- R133. ENG_STAT follows the hamlets in its registers alone. -/
theorem State.syncEng_report (s : State) : OnlyReport s s.syncEng := (s.put_report _ _).trans (State.put_report _ _ _)

theorem State.launchStart_eq {s : State} (k : Nat) {l : LaunchSt} (tgt : List TileTarget) {bs : List Byte} {t : State}
    (hread : s.vread l.desc.ctx l.desc.const .read l.desc.constSize = .ok bs)
    (ht : (maskList 16 l.desc.hmask).foldl (fun s h => s.takeHamlet k l.desc bs h) s = t) {l' : LaunchSt}
    (hdesc : l'.desc = l.desc) (hl' : (t.startSaves k (t.runningLaunch l)).launch k = some l') :
    s.launchStart k l tgt = ((t.startSaves k (t.runningLaunch l)).startWork k l' tgt).syncEng := by
  subst ht
  unfold State.launchStart
  rw [hread]
  dsimp only
  unfold State.startWork
  rw [hdesc]
  have hmatch : ∀ u : State, u.launch k = some l' → (match u.launch k with | some l => u.takeWork k l tgt | none => u) = u.takeWork k l' tgt := fun u hu => by rw [hu]
  exact congrArg State.syncEng (if_congr Iff.rfl (hmatch _ hl') rfl)

theorem exec_launchStart {s : State} {k : Nat} {l : LaunchSt} (tgt : List TileTarget) (hl : s.launch k = some l) (hmay : s.mayStart k l = true)
    (hfree : ∀ wk w, l.desc.rays = true → s.nextDue l.desc.hmask = some (wk, w) →
      s.mapBlocked wk w = false ∧ ∀ b, w.band = some b → s.slotReady w b l.desc.hmask = false) :
    exec (.launchStart k tgt) s = .next (s.launchStart k l tgt) := by
  show execLaunchStart k tgt s = _
  unfold execLaunchStart
  rw [hl]
  refine congrArg Host.Outcome.next (if_pos ?_)
  rw [hmay, Bool.true_and, Bool.not_eq_true']
  cases hrays : l.desc.rays with
  | false => rfl
  | true =>
    cases hdue : s.nextDue l.desc.hmask with
    | none => rfl
    | some p =>
      obtain ⟨wk, w⟩ := p
      obtain ⟨hmap, hslot⟩ := hfree wk w hrays hdue
      dsimp only
      rw [hmap]
      cases hband : w.band with
      | none => rfl
      | some b => exact hslot b hband

/-- R96–R99, R103, R115. The start of a launch that may start. -/
theorem launchStart_spec {s : State} {k : Nat} {l : LaunchSt} (tgt : List TileTarget) {bs : List Byte} (hl : s.launch k = some l)
    (hmay : s.mayStart k l = true) (hsize : l.desc.constSize ≤ 65536)
    (hfree : ∀ wk w, l.desc.rays = true → s.nextDue l.desc.hmask = some (wk, w) →
      s.mapBlocked wk w = false ∧ ∀ b, w.band = some b → s.slotReady w b l.desc.hmask = false)
    (hread : s.vread l.desc.ctx l.desc.const .read l.desc.constSize = .ok bs) :
    ∃ u t : State, exec (.launchStart k tgt) s = .next u ∧ Taken s t k l.desc bs (maskList 16 l.desc.hmask) ∧
      u.aq = { t.aq with launches := u.aq.launches } ∧ (∃ l', u.launch k = some l' ∧ l'.phase = .running ∧ l'.desc = l.desc) ∧
      (∀ wk w, l.desc.rays = true → s.nextDue l.desc.hmask = some (wk, w) → (u.launch k).bind (·.work) = some wk ∧
        ∀ h, h < 16 → bitAt l.desc.hmask h = true → u.span h = some ⟨wk, 0, none, none⟩) := by
  have htaken := State.takeHamlets_spec k l.desc (bs := bs) (by rw [State.vread_length hread]; exact hsize) (maskList 16 l.desc.hmask) s
    fun h hh => (mem_maskList.1 hh).1
  generalize ht : (maskList 16 l.desc.hmask).foldl (fun s h => s.takeHamlet k l.desc bs h) s = t at htaken
  obtain ⟨r, l', hreport, hphase, hdesc, hsaves⟩ := t.startSaves_spec k (t.runningLaunch l)
  have hl' : (r.setLaunch k l').launch k = some l' := (tabGet_tabPut ..).trans (if_pos rfl)
  have hdue : (r.setLaunch k l').nextDue l.desc.hmask = s.nextDue l.desc.hmask :=
    (State.nextDue_congr rfl rfl rfl _).trans ((hreport.nextDue _).trans (htaken.due _))
  have hdesc : l'.desc = l.desc := hdesc
  have hphase : l'.phase = .running := hphase
  have hstart := State.launchStart_eq k tgt hread ht hdesc (by rw [hsaves]; exact hl')
  rw [hsaves] at hstart
  obtain ⟨haq, hlaunch, hwork⟩ := State.startWork_spec tgt hl'
  rw [hdesc, hphase] at hlaunch
  rw [hdesc, hdue] at hwork
  have hexec := exec_launchStart tgt hl hmay hfree
  rw [hstart] at hexec
  have hraq : (r.setLaunch k l').aq = { t.aq with launches := (r.setLaunch k l').aq.launches }  :=
    congrArg (fun x : AqkenSt => { x with launches := (r.setLaunch k l').aq.launches }) hreport.aq
  generalize r.setLaunch k l' = r' at *
  generalize r'.startWork k l' tgt = v at *
  refine ⟨v.syncEng, t, hexec, htaken, ?_, ?_, ?_⟩
  · rw [v.syncEng_report.aq, haq, hraq]
  · rw [State.launch_congr v.syncEng_report.aq]
    exact hlaunch
  · have hspan : ∀ h, v.syncEng.span h = v.span h := fun h => by rw [State.span, v.syncEng_report.syn]; rfl
    simp only [State.launch_congr v.syncEng_report.aq, hspan]
    exact hwork

end Sys2Proof.Machine
end

section
/-! ### The end of a launch, and O28 (R109, R115, R365) -/
namespace Sys2Proof.Machine
open Sys2Proof

/-- Of the engines' and stewards' state, nothing but events to the cores has changed. -/
def OnlyEvents (s u : State) : Prop := u.aq = { s.aq with stw := u.aq.stw }

theorem OnlyEvents.of_aq {s u : State} (h : u.aq = s.aq) : OnlyEvents s u := by
  rw [OnlyEvents, h]

theorem OnlyEvents.trans {s u v : State} (h1 : OnlyEvents s u) (h2 : OnlyEvents u v) : OnlyEvents s v := by
  unfold OnlyEvents at *
  rw [h1] at h2
  exact h2

theorem OnlyEvents.hamlet {s u : State} (h : OnlyEvents s u) (o : Nat) : u.hamlet o = s.hamlet o := by rw [State.hamlet, h]; rfl
theorem OnlyEvents.thr {s u : State} (h : OnlyEvents s u) (key : Nat) : u.thr key = s.thr key := by rw [State.thr, h]; rfl

theorem OnlyEvents.foldl {α : Type} {step : State → α → State} (hstep : ∀ s x, OnlyEvents s (step s x)) : ∀ (xs : List α) (s : State),
    OnlyEvents s (xs.foldl step s)
  | [], _ => rfl
  | x :: xs, s => (hstep s x).trans (OnlyEvents.foldl hstep xs _)

theorem State.sendEvent_onlyEvents (s : State) (c : Nat) (e : Ev) : OnlyEvents s (s.sendEvent c e) := by
  rw [OnlyEvents, State.sendEvent_frame]

theorem State.ring_onlyEvents (s : State) (c n val : Nat) : OnlyEvents s (s.ring c n val) := by
  unfold State.ring
  dsimp only
  split
  · rfl
  split
  · rfl
  · exact State.sendEvent_onlyEvents (s.bump _) _ _

theorem State.dmaFetch_aq (s : State) (e r : Nat) : (s.dmaFetch e r).aq = s.aq := by
  unfold State.dmaFetch
  dsimp only
  split
  · rfl
  split
  · exact (State.setDmaRing_aq ..).trans (State.accFail_report ..).aq
  · exact State.setDmaRing_aq ..

theorem State.dmaRecord_onlyEvents (s : State) (e r status : Nat) : OnlyEvents s (s.dmaRecord e r status) := by
  unfold State.dmaRecord
  dsimp only
  split
  · rfl
  rename_i d _
  generalize ht : (if d.done = 0 ∨ d.done % 32 ≠ 0 then s else _) = t
  have haq : t.aq = s.aq := by
    rw [← ht]
    split
    · rfl
    split
    · exact (State.vwrite_report ‹_›).aq
    · exact (State.accFail_report ..).aq
  split
  · exact (OnlyEvents.of_aq haq).trans (t.ring_onlyEvents _ _ _)
  · exact .of_aq haq

theorem State.dmaAdvance_aq (s : State) (e r : Nat) : (s.dmaAdvance e r).aq = s.aq :=
  (State.setDmaRing_aq ..).trans (s.put_report _ _).aq

/-- R365. The descriptors left in ring 2 are abandoned. -/
theorem State.ring2Finish_onlyEvents (e : Nat) : ∀ (n : Nat) (s : State), OnlyEvents s (State.ring2Finish e n s)
  | 0, _ => rfl
  | n + 1, s => by
    unfold State.ring2Finish
    dsimp only
    split
    · rfl
    · have hrecord := (OnlyEvents.of_aq (s.dmaFetch_aq e 2)).trans ((s.dmaFetch e 2).dmaRecord_onlyEvents e 2 3)
      generalize (s.dmaFetch e 2).dmaRecord e 2 3 = t at *
      have hadvance : OnlyEvents t ((t.bump (R.DMA_CNT_COUNT e 4)).dmaAdvance e 2) := .of_aq (State.dmaAdvance_aq ..)
      exact (hrecord.trans hadvance).trans (State.ring2Finish_onlyEvents e n _)

theorem State.measureRun_aq (s : State) (k : Nat) (l : LaunchSt) : (s.measureRun k l).aq = s.aq := by
  unfold State.measureRun
  split
  · rfl
  split
  · rfl
  · unfold State.measureFrame
    dsimp only
    split
    · split <;> rfl
    · rfl

/-- A hamlet that no launch holds any more. -/
def HamletSt.freed (x : HamletSt) : HamletSt := { x with holder := none, phase := .normal, barH := [] }

theorem State.freeHamlet_spec (s : State) (h : Nat) :
    (∀ o, (s.freeHamlet h).hamlet o = if o = h then (s.hamlet o).freed else s.hamlet o) ∧
    (∀ key, (s.freeHamlet h).thr key = if key / 64 = h then thrDefault 0 else s.thr key) := by
  have hthr := State.thr_foldl_setThr (fun _ => thrDefault 0) (hamletKeys h) s
  have honly : OnlyThreads s ((hamletKeys h).foldl (fun s key => s.setThr key (thrDefault 0)) s) :=
    foldl_onlyThreads (step := fun s key => s.setThr key (thrDefault 0)) (fun _ _ => rfl) _ _
  have hfree : s.freeHamlet h = (((hamletKeys h).foldl (fun s key => s.setThr key (thrDefault 0)) s).setHamlet h
      (HamletSt.freed (((hamletKeys h).foldl (fun s key => s.setThr key (thrDefault 0)) s).hamlet h))).ring2Clear h := rfl
  generalize (hamletKeys h).foldl (fun s key => s.setThr key (thrDefault 0)) s = t at *
  have haq : (s.freeHamlet h).aq = (t.setHamlet h (t.hamlet h).freed).aq := by rw [hfree, (State.ring2Clear_spec ..).1]
  refine ⟨fun o => ?_, fun key => ?_⟩
  · rw [State.hamlet_congr haq, State.hamlet_setHamlet]
    simp only [honly.hamlet]
    split
    · subst o; rfl
    · rfl
  · rw [State.thr_congr haq, State.thr_setHamlet, hthr]
    exact if_congr mem_hamletKeys rfl rfl

theorem State.freeHamlets_spec : ∀ (hs : List Nat) (s : State),
    (∀ o, (hs.foldl State.freeHamlet s).hamlet o = if o ∈ hs then (s.hamlet o).freed else s.hamlet o) ∧
    (∀ key, (hs.foldl State.freeHamlet s).thr key = if key / 64 ∈ hs then thrDefault 0 else s.thr key)
  | [], _ => ⟨fun _ => rfl, fun _ => rfl⟩
  | h :: hs, s => by
    obtain ⟨hham, hthr⟩ := s.freeHamlet_spec h
    obtain ⟨hhams, hthrs⟩ := State.freeHamlets_spec hs (s.freeHamlet h)
    rw [List.foldl_cons]
    refine ⟨fun o => ?_, fun key => ?_⟩
    · rw [hhams, hham]
      by_cases ho : o = h <;> by_cases hm : o ∈ hs <;> simp [ho, hm, HamletSt.freed]
    · rw [hthrs, hthr]
      by_cases ho : key / 64 = h <;> by_cases hm : key / 64 ∈ hs <;> simp [ho, hm]

/-- R122. Giving up restores leaves holders and threads. -/
theorem State.dropRestores_keeps (s : State) (k : Nat) :
    (∀ o, ((s.dropRestores k).hamlet o).holder = (s.hamlet o).holder) ∧ (∀ key, (s.dropRestores k).thr key = s.thr key) := by
  refine foldRange_induct (P := fun _ (u : State) => (∀ o, (u.hamlet o).holder = (s.hamlet o).holder) ∧ (∀ key, u.thr key = s.thr key))
    ⟨fun _ => rfl, fun _ => rfl⟩ 16 fun h _ u ⟨hham, hthr⟩ => ?_
  split
  · refine ⟨fun o => ?_, hthr⟩
    rw [State.hamlet_setHamlet, ← hham]
    split
    · subst o; rfl
    · rfl
  · exact ⟨hham, hthr⟩

theorem mem_held {s : State} {k h : Nat} : h ∈ s.held k ↔ h < 16 ∧ (s.hamlet h).holder = some k := by
  simp [State.held]

/-- R115. The end of a running launch. -/
theorem State.endLaunch_spec (s : State) (k : Nat) {l : LaunchSt} (status : Nat) (hrun : l.phase = .running) :
    (s.endLaunch k l status).launch k = none ∧
    (∀ h, h < 16 → (s.hamlet h).holder = some k →
      ((s.endLaunch k l status).hamlet h).holder = none ∧ ∀ key ∈ hamletKeys h, (s.endLaunch k l status).thr key = thrDefault 0) ∧
    ((s.endLaunch k l status).events l.core).getLast? = some (completionEv k status l.desc.done l.desc.work) := by
  obtain ⟨hham, hthr⟩ := State.freeHamlets_spec (s.held k) s
  obtain ⟨hdham, hdthr⟩ := ((s.held k).foldl State.freeHamlet s).dropRestores_keeps k
  unfold State.endLaunch
  dsimp only
  generalize ((s.held k).foldl State.freeHamlet s).dropRestores k = d at *
  generalize hv : State.setMmu _ _ = v
  have hreport : OnlyReport v v.syncEng.syncActive := v.syncEng_report.trans (State.put_report ..)
  generalize v.syncEng.syncActive = w at *
  rw [if_neg (by rw [hrun]; decide)]
  obtain ⟨r, hdone, heq⟩ := w.launchDone_reports k l.core l.desc status l.killed l.startPtp (s.runNs l) l.preempts l.killedRays
  rw [heq]
  have haq : r.aq = v.aq := hdone.aq.trans hreport.aq
  refine ⟨?_, fun h hh hk => ⟨?_, fun key hkey => ?_⟩, ?_⟩
  · rw [State.launch_sendEvent, State.launch_congr haq, ← hv]
    exact (tabGet_tabDel ..).trans (if_pos rfl)
  · rw [State.hamlet_sendEvent, State.hamlet_congr haq, ← hv]
    refine (hdham h).trans ?_
    rw [hham, if_pos (mem_held.2 ⟨hh, hk⟩)]
    rfl
  · rw [State.thr_sendEvent, State.thr_congr haq, ← hv]
    refine (hdthr key).trans ?_
    rw [hthr, if_pos (by rw [mem_hamletKeys.1 hkey]; exact mem_held.2 ⟨hh, hk⟩)]
  · rw [State.events_sendEvent]
    exact List.getLast?_concat

/-- R89, R365. What precedes the end of a launch that completes: its descriptors are abandoned, and its cost counts. -/
def State.windUp (s : State) (k : Nat) (l : LaunchSt) : State := ((s.held k).foldl (fun s h => State.ring2Finish h 4096 s) s).measureRun k l

theorem State.windUp_onlyEvents (s : State) (k : Nat) (l : LaunchSt) : OnlyEvents s (s.windUp k l) :=
  (OnlyEvents.foldl (fun s h => s.ring2Finish_onlyEvents h 4096) _ s).trans (.of_aq (State.measureRun_aq ..))

theorem exec_launchComplete {s : State} {k : Nat} {l : LaunchSt} (hl : s.launch k = some l) (hrun : l.phase = .running) (hsaved : l.savedMask = 0)
    (hsaving : s.savingNow k = false)
    (hquiet : ∀ h, h < 16 → (s.hamlet h).holder = some k → ∀ key ∈ hamletKeys h, (s.thr key).state = .idle ∨ (s.thr key).state = .ended)
    (hspan : s.spanComplete l = true) :
    exec (.launchComplete k) s = .next ((s.windUp k l).endLaunch k l (if l.killed = 0 then 0 else 0x10)) := by
  have hall : ((s.held k).flatMap hamletKeys).all (fun key => decide ((s.thr key).state = .idle ∨ (s.thr key).state = .ended)) = true := by
    rw [List.all_eq_true]
    intro key hkey
    obtain ⟨h, hh, hkey⟩ := List.mem_flatMap.1 hkey
    obtain ⟨hlt, hholds⟩ := mem_held.1 hh
    exact decide_eq_true (hquiet h hlt hholds key hkey)
  show execLaunchComplete k s = _
  unfold execLaunchComplete
  rw [hl]
  exact congrArg Host.Outcome.next (if_pos ⟨hrun, hsaved, by rw [hsaving]; rfl, hall, hspan⟩)

/-- R115. A launch that may not start stays queued. -/
theorem exec_launchStart_waits {s : State} {k : Nat} (tgt : List TileTarget) (h : ∀ l, s.launch k = some l → s.mayStart k l = false) :
    exec (.launchStart k tgt) s = .next s := by
  show execLaunchStart k tgt s = _
  unfold execLaunchStart
  cases hl : s.launch k with
  | none => rfl
  | some l =>
    dsimp only
    rw [h l hl]
    rfl

/-- Settles O28: the start and the end of a launch. -/
theorem launchStartsAndCompletes : Obligations.LaunchStartsAndCompletes := by
  refine ⟨fun s k l tgt bs hl hmay _ hsize hfree hread => ?_, fun s k l hl hrun hsaved hsaving hquiet hspan => ?_,
    fun s k tgt h => exec_launchStart_waits tgt h⟩
  · obtain ⟨u, t, hexec, htaken, haq, hlaunch, hwork⟩ := launchStart_spec tgt hl hmay hsize hfree hread
    have hham : ∀ h, u.hamlet h = t.hamlet h := fun h => by rw [State.hamlet, haq]; rfl
    have hthr : ∀ key, u.thr key = t.thr key := fun key => by rw [State.thr, haq]; rfl
    refine ⟨u, hexec, hlaunch, fun h hh => ?_, fun key hkey => ?_, hwork, fun h i hh hb hi => ?_⟩
    · rw [hham, htaken.hamlet]
      simp only [mem_maskList, hh, true_and]
      split
      · exact ⟨rfl, rfl⟩
      · rfl
    · rw [hthr, htaken.thr]
      simp only [mem_maskList, show key / 64 < 16 by omega, true_and]
      split
      · unfold slotThread
        simp only [Bool.and_eq_true, decide_eq_true_eq]
        split
        · exact startThread_spec k l.desc
        · rfl
      · rfl
    · have hconst := htaken.const h i (by rw [State.vread_length hread]; exact hi)
      rw [if_pos (mem_maskList.2 ⟨hh, hb⟩)] at hconst
      rw [haq]
      exact hconst
  · obtain ⟨hlaunch, hfreed, hevent⟩ := (s.windUp k l).endLaunch_spec k (if l.killed = 0 then 0 else 0x10) hrun
    refine ⟨_, exec_launchComplete hl hrun hsaved hsaving hquiet hspan, hlaunch, fun h hh hholds => ?_, hevent⟩
    exact hfreed h hh (by rw [(s.windUp_onlyEvents k l).hamlet]; exact hholds)

end Sys2Proof.Machine
end

/-! # Scan-out timing: lemmas and proofs of the family 07_scanout_timing -/

section
/-! ### A frame's target that lies on no tile of the device, and O32 (R82, R189) -/
namespace Sys2Proof.Machine
open Sys2Proof

/-- VTOTAL_MAX is reached with no ready point, while a complete frame of frame mode waits to be committed. LAUNCH_START takes its targets as the
frame program names them: this one names tile 112, whose place for CMP_LPITCH would be the offset of SCO_CSTAT. One tile of 32 columns is on. -/
def strayTarget : State :=
  (((tSco false (tAt 10400 true)).putA R.SCO_TEN_HI_EN 0).putA (R.SCO_TSIZE_W 0) 32).setSynWork 1
    { tFrameWork with targets := [⟨112, 0, 0⟩], complete := List.range 64 }

theorem strayTarget_repeats : strayTarget.canScan = true ∧ strayTarget.lockedClass = false ∧ strayTarget.sco.inFrame = true ∧
    strayTarget.sco.blank = true ∧ strayTarget.vMax ≤ strayTarget.sco.line ∧ strayTarget.sco.ready = none := by decide +kernel

/-- The repeat sets MAXED; the commit of the waiting frame, which follows at once, writes the pitch 0 of tile 112 over it. -/
theorem strayTarget_maxed {u : State} (hu : exec .maxFrameRepeat strayTarget = .next u) : u.get R.SCO_CSTAT_MAXED = 0 := by
  have hrun : (match exec .maxFrameRepeat strayTarget with
    | .next u => decide (u.get R.SCO_CSTAT_MAXED = 0)
    | _ => false) = true := by decide +kernel
  rw [hu] at hrun
  exact of_decide_eq_true hrun

/-- Refutes O32: MAX_FRAME_REPEAT does not leave MAXED set where the frame committed as it starts has a target on a tile that the device lacks. -/
theorem not_framesLinesAndLock : ¬ Obligations.FramesLinesAndLock := by
  unfold Obligations.FramesLinesAndLock
  rintro ⟨-, -, hrepeat, -⟩
  obtain ⟨hscan, hclass, hframe, hblank, hline, hready⟩ := strayTarget_repeats
  obtain ⟨u, hu, hmaxed, -⟩ := hrepeat strayTarget hscan hclass hframe hblank hline fun r hr => by rw [hready] at hr; cases hr
  rw [strayTarget_maxed hu] at hmaxed
  exact absurd hmaxed (by decide)

end Sys2Proof.Machine
end

section
/-! ### The checks of a commit read no word of scan-out's status (R171, R186, R198) -/
namespace Sys2Proof.Machine
open Sys2Proof

theorem findSome?_congr_mem {α β : Type} {f g : α → Option β} {l : List α} (h : ∀ x ∈ l, f x = g x) :
    l.findSome? f = l.findSome? g := by
  rw [← List.head?_filterMap, ← List.head?_filterMap, List.filterMap_congr h]

/-- A layer's values are those of the registers in its own row. -/
theorem layerOf_congr {g g' : Fld → Nat} {t l : Nat} (h : ∀ f : Fld, f.addr / 0x40 = layerBase t l / 0x40 → g f = g' f) :
    layerOf g t l = layerOf g' t l := by
  simp (disch := (simp only [layerBase, R.CMP_LBASE_LO_ADDR, R.CMP_LBASE_HI_ADDR, R.CMP_LPITCH_PITCH, R.CMP_LSRC_SRC_W, R.CMP_LSRC_SRC_H, R.CMP_LDPOS_DST_X,
    R.CMP_LDPOS_DST_Y, R.CMP_LDSIZE_DST_W, R.CMP_LDSIZE_DST_H, R.CMP_LFB_COLOUR, R.CMP_LFB_OPAQUE, R.CMP_LZ_VALUE, R.CMP_LXL_VALUE, R.CMP_LYT_VALUE,
    R.CMP_LTX_VALUE, R.CMP_LTY_VALUE]; omega)) only [layerOf, h (R.CMP_LCTL_EN t l) rfl, h (R.CMP_LCTL_PLACE t l) rfl, h (R.CMP_LCTL_DRES t l) rfl,
    h (R.CMP_LCTL_FMT t l) rfl, h (R.CMP_LCTL_BLEND t l) rfl, h (R.CMP_LCTL_GALPHA t l) rfl, h]

theorem State.shadowTile_lt {s : State} {t : Nat} (ht : t ∈ s.shadowTiles) : t < 64 := by
  have hlt := List.mem_range.1 (List.mem_filter.1 ht).1
  revert hlt
  cases s.member <;> simp only [Member.tiles] <;> omega

/-- Everything that the checks read is as before: every register outside the words from SCO_CTL to SCO_CSTAT, the member, and synthesis. -/
structure SameChecked (s u : State) : Prop where
  get : ∀ f : Fld, f.addr < 0xC0000 ∨ 0xC0010 ≤ f.addr → u.get f = s.get f
  member : u.member = s.member
  syn : u.syn = s.syn

namespace SameChecked
variable {s u : State} (h : SameChecked s u)
include h

theorem on {f : Fld} (hf : f.addr < 0xC0000 ∨ 0xC0010 ≤ f.addr) : u.on f = s.on f := by rw [State.on, h.get f hf]; rfl

theorem shadowTiles : u.shadowTiles = s.shadowTiles := by
  simp (disch := decide) only [State.shadowTiles, h.member, h.get]

theorem width (t : Nat) : u.get (R.SCO_TSIZE_W t) = s.get (R.SCO_TSIZE_W t) := h.get _ (Or.inr (show 0xC0010 ≤ 0xC1000 + t * 4 by omega))
theorem height (t : Nat) : u.get (R.SCO_TSIZE_H t) = s.get (R.SCO_TSIZE_H t) := h.get _ (Or.inr (show 0xC0010 ≤ 0xC1000 + t * 4 by omega))

theorem lineBad : u.lineBad = s.lineBad := by
  simp (disch := decide) only [State.lineBad, h.shadowTiles, h.width, h.get]

theorem periodBad : u.periodBad = s.periodBad := by
  simp (disch := decide) only [State.periodBad, h.shadowTiles, h.get]

theorem geometryBad : u.geometryBad = s.geometryBad := by
  simp (disch := decide) only [State.geometryBad, h.shadowTiles, h.width, h.height, h.get, h.on]

theorem bandBad : u.bandBad = s.bandBad := by
  simp (disch := decide) only [State.bandBad, h.get]

theorem lockBad : u.lockBad = s.lockBad := by
  simp (disch := decide) only [State.lockBad, State.ptpPeriodBad, h.shadowTiles, h.get, h.on]

theorem windowBad : u.windowBad = s.windowBad := by
  simp (disch := decide) only [State.windowBad, h.get]

theorem rayLayerReason (y : Layer) (t : Nat) : u.rayLayerReason y t = s.rayLayerReason y t := by
  simp (disch := decide) only [State.rayLayerReason, h.width, h.on]

section
variable {t : Nat} (ht : t < 64)
include ht

/-- A register in a tile's own row of composition. -/
theorem tileField {f : Fld} (hf : f.addr / 0x40 = (0xB0100 + t * 0x40) / 0x40) : u.get f = s.get f := h.get f (Or.inl (by omega))

theorem vlinesBad (y : Layer) : u.vlinesBad y t = s.vlinesBad y t := by
  simp (disch := (simp only [R.CMP_DOY_VALUE, R.CMP_SYMAX_VALUE, R.CMP_SYMIN_VALUE]; omega)) only [State.vlinesBad, h.tileField ht]

theorem hwidthBad (y : Layer) : u.hwidthBad y t = s.hwidthBad y t := by
  simp (disch := (simp only [R.CMP_DOX_VALUE, R.CMP_SXMAX_VALUE, R.CMP_SXMIN_VALUE]; omega)) only [State.hwidthBad, State.pitchX, h.syn, h.tileField ht]

theorem overlayReason (y : Layer) : u.overlayReason y t = s.overlayReason y t := by
  simp only [State.overlayReason, h.vlinesBad ht, h.hwidthBad ht, h.width, h.height, h.syn]

theorem layer {l : Nat} (hl : l < 8) : layerOf u.get t l = layerOf s.get t l :=
  layerOf_congr fun f hf => h.get f (Or.inl (by unfold layerBase at hf; omega))

theorem tileReason : u.tileReason t = s.tileReason t := by
  have hprog : u.on (R.CMP_TCTL_PROG t) = s.on (R.CMP_TCTL_PROG t) := h.on (Or.inl (show 0xB0100 + t * 0x40 < 0xC0000 by omega))
  have horder : u.get (R.CMP_ORDER_ORDER t) = s.get (R.CMP_ORDER_ORDER t) := h.get _ (Or.inl (show 0xB0104 + t * 0x40 < 0xC0000 by omega))
  unfold State.tileReason
  refine findSome?_congr_mem fun l hl => ?_
  simp only [hprog, horder, h.layer ht (List.mem_range.1 hl), h.rayLayerReason, h.overlayReason ht]

end

theorem cmpReason : u.cmpReason = s.cmpReason := by
  have hen : ∀ t ∈ s.shadowTiles, u.on (R.CMP_TCTL_EN t) = s.on (R.CMP_TCTL_EN t) := fun t ht =>
    h.on (Or.inl (show 0xB0100 + t * 0x40 < 0xC0000 by have := State.shadowTile_lt ht; omega))
  rw [State.cmpReason, State.cmpReason, h.shadowTiles, List.filter_congr hen]
  exact findSome?_congr_mem fun t ht => by rw [h.tileReason (State.shadowTile_lt (List.mem_filter.1 ht).1)]

/-- R198. So the checks end alike. -/
theorem commitReason : u.commitReason = s.commitReason := by
  simp only [State.commitReason, h.cmpReason, h.lineBad, h.periodBad, h.geometryBad, h.bandBad, h.lockBad, h.windowBad]

end SameChecked

end Sys2Proof.Machine
end

section
/-! ### A commit is armed (R197) -/
namespace Sys2Proof.Machine
open Sys2Proof

/-- Nothing but the event queues of the steward cores changes. -/
def OnlyQueues (s u : State) : Prop := u = { s with aq := { s.aq with stw := u.aq.stw } }

theorem OnlyQueues.trans {s u v : State} (h1 : OnlyQueues s u) (h2 : OnlyQueues u v) : OnlyQueues s v := by
  unfold OnlyQueues at *
  rw [h1] at h2
  exact h2

theorem OnlyQueues.foldl {α : Type} {step : State → α → State} (hstep : ∀ s x, OnlyQueues s (step s x)) :
    ∀ (xs : List α) (s : State), OnlyQueues s (xs.foldl step s)
  | [], _ => rfl
  | x :: xs, s => (hstep s x).trans (OnlyQueues.foldl hstep xs _)

/-- R165. A scan-out event reaches the queues of steward cores, and nothing else. -/
theorem State.scoEvent_frame (s : State) (code tiles : Nat) :
    s.scoEvent code tiles = { s with aq := { s.aq with stw := (s.scoEvent code tiles).aq.stw } } :=
  OnlyQueues.foldl (fun s c => s.sendEvent_frame c _) _ s

/-- R89. A frame that is late is noted in synthesis alone. -/
theorem State.frameLate_frame (s : State) : s.frameLate = { s with syn := s.frameLate.syn } := by
  unfold State.frameLate State.mapLastRec
  split
  · rfl
  · dsimp only
    split <;> rfl

/-- R197. LATE_COMMIT is set, counted and raised. -/
def State.lateRaised (s : State) : State := ((s.put R.SCO_CSTAT_LATE_COMMIT 1).bump (R.SCO_CNT_COUNT 2)).raise Irq.SCO_LATE_COMMIT

/-- A late commit is recorded, and noted in synthesis and in the queues of steward cores. -/
theorem State.lateCommit_frame (s : State) :
    s.lateCommit = { s.lateRaised with syn := s.lateCommit.syn, aq := s.lateCommit.aq } := by
  show (s.lateRaised.frameLate).scoEvent 5 0 = { s.lateRaised with syn := (s.lateRaised.frameLate.scoEvent 5 0).syn, aq := (s.lateRaised.frameLate.scoEvent 5 0).aq }
  rw [State.scoEvent_frame, State.frameLate_frame]

theorem State.get_lateCommit (s : State) (g : Fld) : s.lateCommit.get g = s.lateRaised.get g := by rw [s.lateCommit_frame]; rfl

theorem State.lateRaised_frame (s : State) : s.lateRaised = { s with regs := s.lateRaised.regs, int := s.lateRaised.int } :=
  (((OnlyRegs.refl s).put R.SCO_CSTAT_LATE_COMMIT 1).bump (R.SCO_CNT_COUNT 2)).raise Irq.SCO_LATE_COMMIT

/-- A late commit changes registers, and no committed copy, memory or state of scan-out. -/
theorem State.lateCommit_keeps (s : State) : s.lateCommit.sco = s.sco ∧ s.lateCommit.act = s.act ∧ s.lateCommit.mem = s.mem := by
  rw [s.lateCommit_frame, s.lateRaised_frame]
  exact ⟨rfl, rfl, rfl⟩

/-- R197. The commit point that a commit written now gets, and whether it is late. -/
def State.armPoint (s : State) : ArmedCommit × Bool := if s.sco.inFrame then s.commitPoint s.sco.line else (⟨0, 0, false⟩, false)

/-- R197. A commit is armed at a point. -/
def State.armWith (s : State) (c : ArmedCommit) : State :=
  ((s.setSco { s.sco with armed := some c }).put R.SCO_STAT_ARMED 1).put R.SCO_COMMIT_COMMIT 1

theorem State.armCommit_armed {s : State} (h : s.sco.armed.isSome = true) : s.armCommit = s := by rw [State.armCommit, if_pos h]

theorem State.armCommit_eq {s : State} (h : s.sco.armed = none) :
    s.armCommit = if s.armPoint.2 then (s.armWith s.armPoint.1).lateCommit else s.armWith s.armPoint.1 := by
  rw [State.armCommit, h, if_neg (by decide)]
  rfl

/-- What arming a commit leaves: the commit armed, and no committed copy or memory changed. -/
theorem State.armCommit_arms {s : State} (h : s.sco.armed = none) :
    s.armCommit.sco.armed = some s.armPoint.1 ∧ s.armCommit.get R.SCO_STAT_ARMED = 1 ∧ s.armCommit.get R.SCO_COMMIT_COMMIT = 1 ∧
      s.armCommit.act = s.act ∧ s.armCommit.mem = s.mem := by
  rw [State.armCommit_eq h]
  have harmed : (s.armWith s.armPoint.1).get R.SCO_STAT_ARMED = 1 ∧ (s.armWith s.armPoint.1).get R.SCO_COMMIT_COMMIT = 1 := by
    simp (disch := decide) only [State.armWith, State.get_put_apart, State.get_put_same]
    decide
  split
  · obtain ⟨hsco, hact, hmem⟩ := (s.armWith s.armPoint.1).lateCommit_keeps
    simp (disch := decide) only [State.get_lateCommit, State.lateRaised, State.get_raise_other, State.get_bump_apart, State.get_put_apart, harmed, hsco, hact, hmem]
    exact ⟨rfl, trivial, trivial, rfl, rfl⟩
  · exact ⟨rfl, harmed.1, harmed.2, rfl, rfl⟩

/-- R197. A commit that is not late leaves LATE_COMMIT. -/
theorem State.armCommit_inTime {s : State} (h : s.sco.armed = none) (hlate : s.armPoint.2 = false) :
    s.armCommit.get R.SCO_CSTAT_LATE_COMMIT = s.get R.SCO_CSTAT_LATE_COMMIT := by
  rw [State.armCommit_eq h, hlate, if_neg (by decide)]
  simp (disch := decide) only [State.armWith, State.get_put_apart]
  rfl

/-- R197. A commit that is late sets, counts and raises LATE_COMMIT. -/
theorem State.armCommit_late {s : State} (h : s.sco.armed = none) (hlate : s.armPoint.2 = true) :
    s.armCommit.get R.SCO_CSTAT_LATE_COMMIT = 1 ∧ s.armCommit.get (R.SCO_CNT_COUNT 2) = (s.get (R.SCO_CNT_COUNT 2) + 1) % 2 ^ 32 ∧
      s.armCommit.get (causeFld Irq.SCO_LATE_COMMIT) = 1 := by
  rw [State.armCommit_eq h, hlate, if_pos rfl]
  simp (disch := decide) only [State.get_lateCommit, State.lateRaised, State.raise_sets]
  simp (disch := decide) only [State.get_raise_other, State.get_bump_apart, State.get_bump_same, State.get_put_apart, State.get_put_same, State.armWith]
  exact ⟨by decide, rfl, trivial⟩

/-- R189. While SCO_DUE is 0 nothing holds a commit point back. -/
theorem State.variablePoint_of_due_zero {s : State} (hdue : s.get64 R.SCO_DUE_LO_DUE R.SCO_DUE_HI_DUE = 0) (a p : Nat) :
    s.variablePoint a p = if max s.vMin (p + s.leadL) ≤ s.vMax then ⟨a, p, false⟩ else ⟨a, s.active, true⟩ := by
  simp [State.variablePoint, State.startsInTime, State.dueHold, hdue]

/-- R197. The point of a commit that is armed in a frame. -/
theorem State.armPoint_inFrame {s : State} (h : s.sco.inFrame = true) : s.armPoint = s.commitPoint s.sco.line := if_pos h

section
variable {s : State} {a : Nat}

theorem State.commitPoint_locked_early (hclass : s.lockedClass = true) (hearly : a + s.getA R.SCO_VGEOM_WINDOW < s.active) :
    s.commitPoint a = (⟨a, s.active, false⟩, false) := by simp [State.commitPoint, hclass, hearly]

theorem State.commitPoint_locked_late (hclass : s.lockedClass = true) (hlate : ¬ a + s.getA R.SCO_VGEOM_WINDOW < s.active) :
    s.commitPoint a = (⟨a, s.active, true⟩, true) := by simp only [State.commitPoint, hclass, if_neg hlate, if_pos]

/-- R191. In VARIABLE no commit is late, and its point stands if the start that follows is in time. -/
theorem State.commitPoint_variable (hclass : s.lockedClass = false) (hdue : s.get64 R.SCO_DUE_LO_DUE R.SCO_DUE_HI_DUE = 0) :
    let p := if a + s.getA R.SCO_VGEOM_WINDOW < s.active then s.active else max s.active (a + 1 + s.getA R.SCO_VGEOM_WINDOW)
    s.commitPoint a = (if max s.vMin (p + s.leadL) ≤ s.vMax then ⟨a, p, false⟩ else ⟨a, s.active, true⟩, false) := by
  dsimp only
  rw [← State.variablePoint_of_due_zero hdue, State.commitPoint, hclass]
  split <;> rfl

end

end Sys2Proof.Machine
end

section
/-! ### Writes of SH fields while a commit is armed (R199) -/
namespace Sys2Proof.Machine
open Sys2Proof

theorem holdsSh_eq {a : Nat} {r : RegRow × Nat} (h : regRow a = some r) : holdsSh a = r.1.fields.any (fun f => f.typ == .sh) := by
  rw [holdsSh, h]

/-- No register of the block INT holds an SH field. -/
theorem rowsINT_noSh : ∀ r ∈ rowsOfBlock 3, r.fields.any (fun f => f.typ == .sh) = false := by decide

/-- The registers that record a dropped write hold no SH field. -/
theorem holdsSh_apart {a : Nat} (h : holdsSh a = true) : a / 0x10000 ≠ 3 ∧ a ≠ R.SCO_CSTAT_WR_DROP.addr ∧ a ≠ (R.SCO_CNT_COUNT 4).addr := by
  refine ⟨fun hint => ?_, ?_, ?_⟩
  · cases hr : regRow a with
    | none => simp [holdsSh, hr] at h
    | some r =>
      have hmem := findRow_mem hr
      rw [hint] at hmem
      rw [holdsSh_eq hr, rowsINT_noSh _ hmem] at h
      cases h
  all_goals rintro rfl; exact absurd h (by decide)

theorem State.writeDrop_frame (s : State) : s.writeDrop = { s with regs := s.writeDrop.regs, int := s.writeDrop.int } :=
  (((OnlyRegs.refl s).put R.SCO_CSTAT_WR_DROP 1).bump (R.SCO_CNT_COUNT 4)).raise Irq.SCO_WR_DROP

theorem State.word_writeDrop_sh (s : State) {a : Nat} (h : holdsSh a = true) : s.writeDrop.word a = s.word a := by
  obtain ⟨hint, hstat, hcnt⟩ := holdsSh_apart h
  rw [State.writeDrop, State.word_raise_other _ (by decide) hint]
  exact (State.word_put_other _ _ _ hcnt).trans (State.word_put_other _ _ _ hstat)

/-- R199. A dropped write is recorded, counted and raised. -/
theorem State.writeDrop_records (s : State) : s.writeDrop.get R.SCO_CSTAT_WR_DROP = 1 ∧
    s.writeDrop.get (R.SCO_CNT_COUNT 4) = (s.get (R.SCO_CNT_COUNT 4) + 1) % 2 ^ 32 ∧ s.writeDrop.get (causeFld Irq.SCO_WR_DROP) = 1 := by
  simp (disch := decide) only [State.writeDrop, State.raise_sets]
  simp (disch := decide) only [State.get_raise_other, State.get_bump_apart, State.get_bump_same, State.get_put_apart, State.get_put_same]
  exact ⟨by decide, rfl, trivial⟩

/-- The word that a write leaves in a register while a commit is armed. -/
def State.armedWord (s : State) (r : RegRow) (a v : Nat) : Nat :=
  r.fields.foldl (fun acc f => f.store true false (s.word a) (presentBits s.member a v) acc) (s.word a)

/-- While a commit is armed, a write to a register with SH fields stores the other fields and is recorded. -/
theorem State.storeFields_armed {s : State} {a : Nat} (v : Nat) {r : RegRow × Nat} (harmed : s.sco.armed.isSome = true) (hr : regRow a = some r)
    (hsh : holdsSh a = true) : s.storeFields false a v = (s.setWord a (s.armedWord r.1 a v)).writeDrop := by
  rw [holdsSh_eq hr] at hsh
  simp only [State.storeFields, hr, harmed, hsh, Bool.and_self, if_true]
  rfl

theorem exec_shWriteDrop_armed {s : State} {a : Nat} (v : Nat) (harmed : s.sco.armed.isSome = true) (hsh : holdsSh a = true) :
    exec (.shWriteDrop a v) s = .next (s.storeFields false a v) := by
  show execShWriteDrop a v s = _
  rw [execShWriteDrop, harmed, hsh]
  rfl

theorem exec_shWriteDrop_idle {s : State} {a : Nat} (v : Nat) (h : s.sco.armed = none ∨ holdsSh a = false) : exec (.shWriteDrop a v) s = .next s := by
  show execShWriteDrop a v s = _
  have hcond : (s.sco.armed.isSome && holdsSh a) = false := by
    rcases h with h | h <;> rw [h]
    · rfl
    · exact Bool.and_false _
  rw [execShWriteDrop, hcond]
  rfl

/-- R199. The fields of the register after the dropped write: SH fields as before, RW fields as written. -/
theorem State.bitsOf_storeFields_armed {s : State} {a : Nat} (v : Nat) {r : RegRow × Nat} (harmed : s.sco.armed.isSome = true) (hr : regRow a = some r)
    (hsh : holdsSh a = true) {f : FieldRow} (hf : f ∈ r.1.fields) :
    bitsOf ((s.storeFields false a v).word a) f.lsb f.width =
      f.stored true false (bitsOf (s.word a) f.lsb f.width) (bitsOf (presentBits s.member a v) f.lsb f.width) := by
  have htidy := regRow_tidy hr
  rw [State.storeFields_armed v harmed hr hsh, State.word_writeDrop_sh _ hsh, State.word_setWord, if_pos rfl, bitsOf_mod _ (htidy.2 f hf).1,
    State.armedWord, bitsOf_foldl_store htidy hf]

/-- R199. What a write to a register with SH fields does while a commit is armed. -/
theorem State.storeFields_drops {s : State} {a : Nat} (v : Nat) (harmed : s.sco.armed.isSome = true) (hsh : holdsSh a = true) :
    let u := s.storeFields false a v
    u.get R.SCO_CSTAT_WR_DROP = 1 ∧ u.get (R.SCO_CNT_COUNT 4) = (s.get (R.SCO_CNT_COUNT 4) + 1) % 2 ^ 32 ∧ u.get (causeFld Irq.SCO_WR_DROP) = 1 ∧
      u = { s with regs := u.regs, int := u.int } := by
  cases hr : regRow a with
  | none => simp [holdsSh, hr] at hsh
  | some r =>
    obtain ⟨-, -, hcnt⟩ := holdsSh_apart hsh
    dsimp only
    rw [State.storeFields_armed v harmed hr hsh]
    obtain ⟨hdrop, hcount, hraised⟩ := (s.setWord a (s.armedWord r.1 a v)).writeDrop_records
    refine ⟨hdrop, ?_, hraised, ?_⟩
    · rw [hcount, State.get, State.get, State.word_setWord_other _ _ (Ne.symm hcnt)]
    · rw [State.writeDrop_frame]; rfl

end Sys2Proof.Machine
end

section
/-! ### Fields of scan-out's status that an operation leaves -/
namespace Sys2Proof.Machine
open Sys2Proof

/-- The fields lie among the status registers of scan-out, which no report of an error writes. -/
def StatusFields (fs : List Fld) : Prop := ∀ g ∈ fs, g.addr / 0x1000 = 0xC0

/-- The fields read as before, and so does the part `p` of scan-out's own state. -/
structure Keeps {α : Type} (fs : List Fld) (p : ScoSt → α) (s u : State) : Prop where
  fields : ∀ g ∈ fs, u.get g = s.get g
  sco : p u.sco = p s.sco

namespace Keeps
variable {α : Type} {fs : List Fld} {p : ScoSt → α} {s u v : State}

theorem refl (s : State) : Keeps fs p s s := ⟨fun _ _ => rfl, rfl⟩

theorem trans (h1 : Keeps fs p s u) (h2 : Keeps fs p u v) : Keeps fs p s v :=
  ⟨fun g hg => (h2.fields g hg).trans (h1.fields g hg), h2.sco.trans h1.sco⟩

/-- A write of a field that shares no bit with those named. -/
theorem put (h : Keeps fs p s u) (f : Fld) (v : Nat) (hf : ∀ g ∈ fs, f.apart g = true) : Keeps fs p s (u.put f v) :=
  h.trans ⟨fun g hg => u.get_put_apart v (hf g hg), rfl⟩

theorem bump (h : Keeps fs p s u) (f : Fld) (hf : ∀ g ∈ fs, f.apart g = true) : Keeps fs p s (u.bump f) := h.put f _ hf

/-- A write outside the status registers of scan-out. -/
theorem putAway (h : Keeps fs p s u) (hfs : StatusFields fs) {f : Fld} (v : Nat) (hf : f.addr < 0xC0000 ∨ 0xC1000 ≤ f.addr) :
    Keeps fs p s (u.put f v) := h.put f v fun g hg => by
  have hrow := hfs g hg
  exact Fld.apart_iff.2 (Or.inl (by omega))

theorem setSco (h : Keeps fs p s u) (x : ScoSt) (hx : p x = p u.sco) : Keeps fs p s (u.setSco x) := ⟨h.fields, hx.trans h.sco⟩

/-- A change that leaves the registers, the member and scan-out's state alone. -/
theorem of_regs (h : Keeps fs p s u) (hregs : v.regs = u.regs) (hmember : v.member = u.member) (hsco : v.sco = u.sco) : Keeps fs p s v :=
  h.trans ⟨fun g _ => by simp only [State.get, State.word, hregs, hmember], by rw [hsco]⟩

/-- What a report of an error changes. -/
theorem report (h : Keeps fs p s u) (hfs : StatusFields fs) (hrep : OnlyReport u v) (hkeep : KeepsOtherBlocks u v) : Keeps fs p s v := by
  refine h.trans ⟨fun g hg => hkeep.get (reportWord_eq_false.2 ?_), by rw [hrep.1]⟩
  have hrow := hfs g hg
  omega

theorem raise (h : Keeps fs p s u) (hfs : StatusFields fs) {c : Nat} (hc : c < 256) : Keeps fs p s (u.raise c) :=
  h.report hfs (u.raise_report c) ((KeepsOtherBlocks.refl u).raise hc)

theorem log (h : Keeps fs p s u) (hfs : StatusFields fs) {blk : Nat} (arr inst code sev detail : Nat) (hblk : blk < 32) :
    Keeps fs p s (u.log blk arr inst code sev detail) := h.report hfs (u.log_report ..) (u.log_keeps arr inst code sev detail hblk)

theorem accFail (h : Keeps fs p s u) (hfs : StatusFields fs) (client id ctx va : Nat) (acc : Acc) (cls : Nat) (e : AccErr) :
    Keeps fs p s (u.accFail client id ctx va acc cls e) := h.report hfs (u.accFail_report ..) (u.accFail_keeps _ _ _ _ _ _ _)

theorem scoEvent (h : Keeps fs p s u) (code tiles : Nat) : Keeps fs p s (u.scoEvent code tiles) := by
  rw [u.scoEvent_frame]
  exact h.of_regs rfl rfl rfl

theorem foldl {β : Type} {step : State → β → State} {xs : List β} (hstep : ∀ x ∈ xs, ∀ s, Keeps fs p s (step s x)) (h : Keeps fs p s u) :
    Keeps fs p s (xs.foldl step u) := by
  induction xs generalizing u with
  | nil => exact h
  | cons x xs ih => exact ih (fun y hy => hstep y (List.mem_cons_of_mem x hy)) (h.trans (hstep x List.mem_cons_self u))

theorem foldRange {step : State → Nat → State} {n : Nat} (hstep : ∀ k, k < n → ∀ s, Keeps fs p s (step s k)) (h : Keeps fs p s u) :
    Keeps fs p s (foldRange n step u) := h.foldl fun k hk => hstep k (List.mem_range.1 hk)

end Keeps

end Sys2Proof.Machine
end

section
/-! ### What a commit's effects leave (R62, R90, R200) -/
namespace Sys2Proof.Machine
open Sys2Proof

/-- The fields that tell of the armed commit and of the commits resolved. -/
def commitFields : List Fld := [R.SCO_STAT_ARMED, R.SCO_COMMIT_COMMIT, R.SCO_CSTAT_CSEQ]
/-- The commit armed, and the change of mode held back. -/
def commitPart (x : ScoSt) : Option ArmedCommit × Bool := (x.armed, x.modeHeld)
/-- The status of commits is as before. -/
abbrev KeepsCommit (s u : State) : Prop := Keeps commitFields commitPart s u

theorem commitFields_status : StatusFields commitFields := by unfold StatusFields; decide

/-- Nothing but registers, scan-out's own state and synthesis changes: no committed copy does. -/
def OnlyEffects (s u : State) : Prop := u = { s with regs := u.regs, sco := u.sco, syn := u.syn }

theorem OnlyEffects.refl (s : State) : OnlyEffects s s := rfl

theorem OnlyEffects.trans {s u v : State} (h1 : OnlyEffects s u) (h2 : OnlyEffects u v) : OnlyEffects s v := by
  unfold OnlyEffects at *
  rw [h1] at h2
  exact h2

/-- The effects of a commit leave its status and the committed copies. -/
def CommitEffect (s u : State) : Prop := KeepsCommit s u ∧ OnlyEffects s u

namespace CommitEffect
variable {s u v : State}

theorem refl (s : State) : CommitEffect s s := ⟨.refl s, .refl s⟩

theorem trans (h1 : CommitEffect s u) (h2 : CommitEffect u v) : CommitEffect s v := ⟨h1.1.trans h2.1, h1.2.trans h2.2⟩

theorem put (h : CommitEffect s u) (f : Fld) (v : Nat) (hf : ∀ g ∈ commitFields, f.apart g = true) : CommitEffect s (u.put f v) :=
  ⟨h.1.put f v hf, h.2.trans rfl⟩

theorem setSco (h : CommitEffect s u) (x : ScoSt) (hx : commitPart x = commitPart u.sco) : CommitEffect s (u.setSco x) :=
  ⟨h.1.setSco x hx, h.2.trans rfl⟩

theorem setSyn (h : CommitEffect s u) (x : SynSt) : CommitEffect s { u with syn := x } := ⟨h.1.of_regs rfl rfl rfl, h.2.trans rfl⟩

theorem foldl {β : Type} {step : State → β → State} {xs : List β} (hstep : ∀ x ∈ xs, ∀ s, CommitEffect s (step s x)) (h : CommitEffect s u) :
    CommitEffect s (xs.foldl step u) := by
  induction xs generalizing u with
  | nil => exact h
  | cons x xs ih => exact ih (fun y hy => hstep y (List.mem_cons_of_mem x hy)) (h.trans (hstep x List.mem_cons_self u))

theorem foldRange {step : State → Nat → State} {n : Nat} (hstep : ∀ k, k < n → ∀ s, CommitEffect s (step s k)) (h : CommitEffect s u) :
    CommitEffect s (foldRange n step u) := h.foldl fun k hk => hstep k (List.mem_range.1 hk)

end CommitEffect

theorem State.restartEdges_effect (s : State) : CommitEffect s s.restartEdges := ⟨⟨fun _ _ => rfl, rfl⟩, rfl⟩

theorem State.requalify_effect (s : State) : CommitEffect s s.requalify :=
  (((CommitEffect.refl s).setSco { s.sco with ivals := [], edgeAt := none, div := 0, due := none, stepped := false } rfl).trans
    (State.restartEdges_effect _)).put R.SCO_STAT_LOCKED 0 (by decide)

theorem State.newSource_effect (old s : State) : CommitEffect s (old.newSource s) := by
  unfold State.newSource
  dsimp only
  split
  · exact (s.requalify_effect.put _ _ (by decide)).put _ _ (by decide)
  split
  · exact s.requalify_effect.put _ _ (by decide)
  split
  · exact s.restartEdges_effect
  · exact .refl s

theorem State.dropBands_effect (s : State) : CommitEffect s s.dropBands := (CommitEffect.refl s).setSyn _

theorem State.addBands_effect (s : State) (n : Nat) : CommitEffect s (s.addBands n) := by
  unfold State.addBands
  split
  · exact .refl s
  · exact (CommitEffect.refl s).foldRange fun _ _ s => (CommitEffect.refl s).setSyn _

/-- The ready flags of a tile lie outside scan-out. -/
theorem readyFlags_apart {t : Nat} (ht : t < 64) :
    (∀ g ∈ commitFields, (R.SYN_READY_LO_READY t).apart g = true) ∧ (∀ g ∈ commitFields, (R.SYN_READY_HI_READY t).apart g = true) := by
  constructor <;>
  · intro g hg
    have haddr := commitFields_status g hg
    refine Fld.apart_iff.2 (Or.inl ?_)
    simp only [R.SYN_READY_LO_READY, R.SYN_READY_HI_READY]
    omega

theorem State.enterBandMode_effect (s : State) : CommitEffect s s.enterBandMode := by
  have hflags : ∀ t, t < 64 → ∀ s : State, CommitEffect s ((s.put (R.SYN_READY_LO_READY t) 0).put (R.SYN_READY_HI_READY t) 0) := fun t ht s =>
    ((CommitEffect.refl s).put _ _ (readyFlags_apart ht).1).put _ _ (readyFlags_apart ht).2
  unfold State.enterBandMode
  extract_lets s1 syn1 s2 sco2 s3 s4
  have h2 : CommitEffect s s2 := s.dropBands_effect.setSyn _
  have h3 : CommitEffect s s3 := h2.setSco _ rfl
  exact (h3.foldRange hflags).trans (s4.addBands_effect _)

theorem State.commitEffects_effect (old s : State) : CommitEffect s (old.commitEffects s) := by
  unfold State.commitEffects
  extract_lets s1 s2 s3 s4
  have h1 : CommitEffect s s1 := (CommitEffect.refl s).put _ _ (by decide)
  have h2 : CommitEffect s s2 := h1.trans (State.newSource_effect _ _)
  have h3 : CommitEffect s s3 := by
    unfold s3
    split
    · exact h2.trans s2.enterBandMode_effect
    split
    · exact h2.trans s2.dropBands_effect
    · exact h2
  have h4 : CommitEffect s s4 := by
    unfold s4
    split
    · exact h3.setSyn _
    · exact h3
  split
  · exact h4.setSyn _
  · exact h4

end Sys2Proof.Machine
end

section
/-! ### The registers of a layer hold SH fields (R183) -/
namespace Sys2Proof.Machine
open Sys2Proof

/-- How far an array of registers can reach. -/
def dimsSpan : List (Nat × Nat) → Nat
  | [] => 0
  | (cnt, stride) :: rest => cnt * stride + dimsSpan rest

theorem le_dimsSpan_of_matchDims : ∀ {dims : List (Nat × Nat)} {d i : Nat}, matchDims dims d = some i → d ≤ dimsSpan dims
  | [], d, i, h => by
    rw [matchDims] at h
    split at h
    · rw [‹d = 0›]; exact Nat.zero_le _
    · cases h
  | (cnt, stride) :: rest, d, i, h => by
    simp only [matchDims] at h
    split at h
    · rename_i hlt
      obtain ⟨j, hj, -⟩ := Option.map_eq_some_iff.1 h
      have hrest := le_dimsSpan_of_matchDims hj
      have hhead : d / stride * stride ≤ cnt * stride := Nat.mul_le_mul_right _ (Nat.le_of_lt hlt)
      rw [dimsSpan]
      omega
    · cases h

/-- A row that is found matches the offset. -/
theorem findRow_matches {a : Nat} {r : RegRow × Nat} : ∀ {rs : List RegRow}, findRow a rs = some r →
    r.1 ∈ rs ∧ r.1.base ≤ a ∧ (matchDims r.1.dims (a - r.1.base)).isSome = true
  | [], h => by simp [findRow] at h
  | x :: xs, h => by
    have hrest : findRow a xs = some r → r.1 ∈ x :: xs ∧ r.1.base ≤ a ∧ (matchDims r.1.dims (a - r.1.base)).isSome = true := fun h =>
      (findRow_matches h).imp_left (List.mem_cons_of_mem x)
    unfold findRow at h
    split at h
    · split at h
      · rename_i hbase _ i hi
        cases h
        exact ⟨List.mem_cons_self, hbase, by rw [hi]; rfl⟩
      · exact hrest h
    · exact hrest h

/-- Where a row matches, one is found. -/
theorem findRow_isSome {a : Nat} {r : RegRow} (hbase : r.base ≤ a) (hdims : (matchDims r.dims (a - r.base)).isSome = true) :
    ∀ {rs : List RegRow}, r ∈ rs → (findRow a rs).isSome = true
  | x :: xs, h => by
    unfold findRow
    rcases List.mem_cons.1 h with rfl | hmem
    · obtain ⟨i, hi⟩ := Option.isSome_iff_exists.1 hdims
      rw [if_pos hbase, hi]
      rfl
    · have ih := findRow_isSome hbase hdims hmem
      split
      · split
        · rfl
        · exact ih
      · exact ih

/-- Every register of composition that can lie among the layers holds an SH field. -/
theorem layerRows_sh : ∀ r ∈ rowsOfBlock 11,
    r.fields.any (fun f => f.typ == .sh) = true ∨ r.base + dimsSpan r.dims < 0xB2000 ∨ 0xBA000 ≤ r.base := by decide

theorem layerRows_exist : ∀ i < 16, ∃ r ∈ rowsOfBlock 11, r.base = 0xB2000 + 4 * i ∧ r.dims = [(64, 0x200), (8, 0x40)] := by decide

theorem matchDims_layer {t l : Nat} (ht : t < 64) (hl : l < 8) : (matchDims [(64, 0x200), (8, 0x40)] (t * 0x200 + l * 0x40)).isSome = true := by
  have htile : (t * 0x200 + l * 0x40) / 0x200 = t := by omega
  simp [matchDims, htile, ht, hl]

theorem holdsSh_layer {t l i : Nat} (ht : t < 64) (hl : l < 8) (hi : i < 16) : holdsSh (layerBase t l + 4 * i) = true := by
  have hblock : (layerBase t l + 4 * i) / 0x10000 = 11 := by unfold layerBase; omega
  obtain ⟨r, hmem, hbase, hdims⟩ := layerRows_exist i hi
  have hfound : (regRow (layerBase t l + 4 * i)).isSome = true := by
    rw [regRow, hblock]
    refine findRow_isSome (r := r) (by rw [hbase]; unfold layerBase; omega) ?_ hmem
    rw [hdims, hbase, show layerBase t l + 4 * i - (0xB2000 + 4 * i) = t * 0x200 + l * 0x40 by unfold layerBase; omega]
    exact matchDims_layer ht hl
  obtain ⟨x, hx⟩ := Option.isSome_iff_exists.1 hfound
  rw [holdsSh_eq hx]
  rw [regRow, hblock] at hx
  obtain ⟨hxmem, hxbase, hxdims⟩ := findRow_matches hx
  obtain ⟨j, hj⟩ := Option.isSome_iff_exists.1 hxdims
  have hspan := le_dimsSpan_of_matchDims hj
  rcases layerRows_sh x.1 hxmem with hsh | hlow | hhigh
  · exact hsh
  all_goals unfold layerBase at *; omega

end Sys2Proof.Machine
end

section
/-! ### The committed copies as a commit takes effect (R179, R198) -/
namespace Sys2Proof.Machine
open Sys2Proof

theorem State.actWord_setActWord (s : State) (a v b : Nat) : (s.setActWord a v).actWord b = if b = a then v % 2 ^ 32 else s.actWord b := by
  unfold State.actWord State.setActWord
  simp only [mapGet_mapPut]
  split <;> simp

theorem State.actWord_setActWord_other (s : State) {a b : Nat} (v : Nat) (h : b ≠ a) : (s.setActWord a v).actWord b = s.actWord b := by
  simp [State.actWord_setActWord, h]

/-- A run of committed words leaves the others. -/
theorem actWord_foldl_setActWord : ∀ (ws : List Nat) (s : State) (a : Nat) {b : Nat}, (b < a ∨ a + 4 * ws.length ≤ b) →
    (ws.foldl (fun (p : State × Nat) w => (p.1.setActWord p.2 w, p.2 + 4)) (s, a)).1.actWord b = s.actWord b
  | [], _, _, _, _ => rfl
  | w :: ws, s, a, b, h => by
    rw [List.length_cons] at h
    rw [List.foldl_cons, actWord_foldl_setActWord ws _ _ (by omega), State.actWord_setActWord_other _ _ (by omega)]

theorem foldl_setActWord_frame : ∀ (ws : List Nat) (s : State) (a : Nat),
    (ws.foldl (fun (p : State × Nat) w => (p.1.setActWord p.2 w, p.2 + 4)) (s, a)).1 =
      { s with act := (ws.foldl (fun (p : State × Nat) w => (p.1.setActWord p.2 w, p.2 + 4)) (s, a)).1.act }
  | [], _, _ => rfl
  | w :: ws, s, a => foldl_setActWord_frame ws (s.setActWord a w) (a + 4)

/-- Replacing a layer's committed words changes committed copies alone. -/
theorem State.putLayerWords_frame (s : State) (t l : Nat) (ws : List Nat) :
    s.putLayerWords t l ws = { s with act := (s.putLayerWords t l ws).act } := foldl_setActWord_frame ws s _

theorem State.length_layerWords (s : State) (t l : Nat) : (s.layerWords t l).length = 16 := by
  rw [State.layerWords, List.length_map, List.length_range]

/-- The commit that the state `s1` carries leaves a word: of each overlay that has it, the fence is off. -/
def Ungated (s1 : State) (a : Nat) : Prop :=
  ∀ t l, t < 64 → l < 7 → layerBase t (l + 1) ≤ a → a < layerBase t (l + 1) + 0x40 → s1.onA (R.CMP_LCTL_FENCE_EN t (l + 1)) = false

/-- All that gating the layers changes: neither the status of commits, nor a committed word that no gated overlay has. -/
structure GateKeeps (s1 u : State) : Prop where
  status : KeepsCommit s1 u
  member : u.member = s1.member
  act : ∀ a, Ungated s1 a → u.actWord a = s1.actWord a

namespace GateKeeps
variable {s1 u v : State}

theorem refl (s1 : State) : GateKeeps s1 s1 := ⟨.refl s1, rfl, fun _ _ => rfl⟩

/-- A change that leaves the committed copies. -/
theorem of_act (h : GateKeeps s1 u) (hstatus : KeepsCommit u v) (hmember : v.member = u.member) (hact : v.act = u.act) : GateKeeps s1 v :=
  ⟨h.status.trans hstatus, hmember.trans h.member, fun a ha => by rw [← h.act a ha, State.actWord, State.actWord, hact, hmember]⟩

theorem setSco (h : GateKeeps s1 u) (x : ScoSt) (hx : commitPart x = commitPart u.sco) : GateKeeps s1 (u.setSco x) :=
  h.of_act ((Keeps.refl u).setSco x hx) rfl rfl

theorem setPendingLayer (h : GateKeeps s1 u) {t : Nat} (l : Nat) (b : Bool) (ht : t < 64) : GateKeeps s1 (u.setPendingLayer t l b) := by
  refine h.of_act ((Keeps.refl u).putAway commitFields_status _ (Or.inl ?_)) (State.put_member _ _ _) (State.put_act _ _ _)
  show 0xB0118 + t * 0x40 < 0xC0000
  omega

theorem fenceReady (h : GateKeeps s1 u) (t l : Nat) (ws : List Nat) : GateKeeps s1 (u.fenceReady t l ws).1 := by
  unfold State.fenceReady
  dsimp only
  split
  · exact h
  · rename_i e _
    have hrep := u.accFail_report 0x30 (t + 256 * l) 0 (ws.getD 13 0 / 4 * 4 + 2 ^ 32 * (ws.getD 14 0 % 2 ^ 16)) .read 6 e
    exact h.of_act ((Keeps.refl u).accFail commitFields_status ..) (by rw [State.cmpFail, hrep.1]) (by rw [State.cmpFail, hrep.1])

/-- The words of an overlay whose fence is on take other values. -/
theorem putLayerWords (h : GateKeeps s1 u) (old : State) {t l : Nat} (ht : t < 64) (hl : l < 7) (hgated : s1.onA (R.CMP_LCTL_FENCE_EN t (l + 1)) = true) :
    GateKeeps s1 (u.putLayerWords t (l + 1) (old.layerWords t (l + 1))) := by
  have hframe := u.putLayerWords_frame t (l + 1) (old.layerWords t (l + 1))
  refine ⟨h.status.of_regs (by rw [hframe]) (by rw [hframe]) (by rw [hframe]), by rw [hframe]; exact h.member, fun a ha => ?_⟩
  rw [← h.act a ha]
  refine actWord_foldl_setActWord _ _ _ ?_
  rw [State.length_layerWords]
  by_contra hin
  have hoff := ha t l ht hl (by omega) (by omega)
  rw [hgated] at hoff
  cases hoff

/-- An overlay's own control word is not gated while its fence is off. -/
theorem fenceEn (h : GateKeeps s1 u) {t l : Nat} (ht : t < 64) (hl : l < 7) (hon : u.onA (R.CMP_LCTL_FENCE_EN t (l + 1)) = true) :
    s1.onA (R.CMP_LCTL_FENCE_EN t (l + 1)) = true := by
  by_contra hoff
  rw [Bool.not_eq_true] at hoff
  have hungated : Ungated s1 (layerBase t (l + 1)) := by
    intro t' l' ht' hl' hlo hhi
    obtain ⟨rfl, rfl⟩ : t' = t ∧ l' = l := by unfold layerBase at hlo hhi; omega
    exact hoff
  have hword := h.act _ hungated
  have hkept : u.onA (R.CMP_LCTL_FENCE_EN t (l + 1)) = s1.onA (R.CMP_LCTL_FENCE_EN t (l + 1)) := by
    rw [State.onA, State.onA, State.getA, State.getA]
    exact congrArg (fun w => decide (bitsOf w 3 1 ≠ 0)) hword
  rw [hkept, hoff] at hon
  cases hon

theorem gateLayer (h : GateKeeps s1 u) (old : State) {t l : Nat} (ht : t < 64) (hl : l < 7) : GateKeeps s1 (old.gateLayer u t (l + 1)) := by
  unfold State.gateLayer
  split
  · exact h.setPendingLayer _ _ ht
  rename_i hcond
  have hgated : s1.onA (R.CMP_LCTL_FENCE_EN t (l + 1)) = true := by
    simp only [Bool.not_eq_true', Bool.and_eq_true, Bool.not_eq_false] at hcond
    exact h.fenceEn ht hl hcond.2
  have hread := h.fenceReady t (l + 1) (u.layerWords t (l + 1))
  dsimp only
  split
  · exact hread.setPendingLayer _ _ ht
  · exact ((hread.putLayerWords old ht hl hgated).setPendingLayer _ _ ht).setSco _ rfl

theorem gateLayers (h : GateKeeps s1 u) (old : State) : GateKeeps s1 (old.gateLayers u) := by
  unfold State.gateLayers
  refine foldl_range_rec (P := fun _ => GateKeeps s1) 64 (h.setSco _ rfl) fun t x ht hx => ?_
  exact foldl_range_rec (P := fun _ => GateKeeps s1) 7 hx fun l y hl hy => hy.gateLayer old ht hl

end GateKeeps

/-! #### Every shadow copy moves (R86, R198) -/

/-- A change of mode is held back: the old mode is not drained. -/
def State.modeBack (s : State) : Bool := (s.on R.SYN_CTL_MODE != s.bandMode) && !s.drained

theorem State.moveShadows_frame (s : State) :
    s.moveShadows = { s with act := s.moveShadows.act, sco := { s.sco with modeHeld := s.modeBack } } := by
  unfold State.moveShadows
  dsimp only
  split <;> rfl

/-- R198. Every committed word becomes its shadow copy, but for MODE while the change of mode is held back. -/
theorem State.actWord_moveShadows (s : State) {a : Nat} (hsh : holdsSh a = true) (hmode : a = R.SYN_CTL_MODE.addr → s.modeBack = false) :
    s.moveShadows.actWord a = s.word a := by
  have hmoved : mapGet (wordDefault s.member) (s.regs.filter (fun p => holdsSh p.1)) a = mapGet (wordDefault s.member) s.regs a := by
    rw [mapGet_filter_key, if_pos hsh]
  have hword : ∀ x : ScoSt, ({ s with act := s.regs.filter (fun p => holdsSh p.1), sco := x } : State).actWord a = s.word a := fun x =>
    congrArg BitVec.toNat hmoved
  unfold State.moveShadows
  dsimp only
  split
  · rename_i hback
    have hne : a ≠ R.SYN_CTL_MODE.addr := fun e => by rw [← State.modeBack, hmode e] at hback; cases hback
    rw [State.putA, State.actWord_setActWord_other _ _ hne, hword]
  · exact hword _

/-- A committed field reads as the value written into it. -/
theorem State.getA_putA_same (s : State) (f : Fld) (v : Nat) (h : f.lsb + f.width ≤ 32) : (s.putA f v).getA f = v % 2 ^ f.width := by
  rw [State.getA, State.putA, State.actWord_setActWord, if_pos rfl, bitsOf_mod _ h, bitsOf_setBits_same]

/-- R86. While it is held back the device keeps its mode. -/
theorem State.bandMode_moveShadows {s : State} (hback : s.modeBack = true) : s.moveShadows.bandMode = s.bandMode := by
  have hfit : s.getA R.SYN_CTL_MODE % 2 ^ R.SYN_CTL_MODE.width = s.getA R.SYN_CTL_MODE := Nat.mod_eq_of_lt (bitsOf_lt _ _ 1)
  unfold State.modeBack at hback
  unfold State.moveShadows
  dsimp only
  rw [if_pos hback, State.bandMode, State.bandMode, State.onA, State.onA, State.getA_putA_same _ _ _ (by decide), hfit]

end Sys2Proof.Machine
end

section
/-! ### A commit resolves (R197, R198) -/
namespace Sys2Proof.Machine
open Sys2Proof

/-- R198. Nothing is armed any more. -/
def State.disarmed (s : State) : State := ((s.setSco { s.sco with armed := none }).put R.SCO_STAT_ARMED 0).put R.SCO_COMMIT_COMMIT 0

theorem State.disarmed_idle (s : State) : s.disarmed.sco.armed = none ∧ s.disarmed.get R.SCO_STAT_ARMED = 0 ∧ s.disarmed.get R.SCO_COMMIT_COMMIT = 0 := by
  simp (disch := decide) only [State.disarmed, State.get_put_apart, State.get_put_zero]
  exact ⟨rfl, trivial, trivial⟩

theorem State.word_disarmed (s : State) {a : Nat} (h : a ≠ R.SCO_STAT_ARMED.addr) (h' : a ≠ R.SCO_COMMIT_COMMIT.addr) : s.disarmed.word a = s.word a :=
  (State.word_put_other _ _ _ h').trans (State.word_put_other _ _ _ h)

theorem State.get_disarmed (s : State) {f : Fld} (h : f.addr ≠ R.SCO_STAT_ARMED.addr) (h' : f.addr ≠ R.SCO_COMMIT_COMMIT.addr) :
    s.disarmed.get f = s.get f := by rw [State.get, State.get, s.word_disarmed h h']

theorem State.disarmed_sameChecked (s : State) : SameChecked s s.disarmed :=
  ⟨fun f hf => by
    refine s.get_disarmed ?_ ?_ <;>
    · simp only [R.SCO_STAT_ARMED, R.SCO_COMMIT_COMMIT]
      omega, rfl, rfl⟩

/-- The registers that hold SH fields are none of those. -/
theorem State.word_disarmed_sh (s : State) {a : Nat} (h : holdsSh a = true) : s.disarmed.word a = s.word a := by
  refine s.word_disarmed ?_ ?_ <;>
  · rintro rfl
    exact absurd h (by decide)

theorem State.modeBack_disarmed (s : State) : s.disarmed.modeBack = s.modeBack := by
  have hmode : s.disarmed.on R.SYN_CTL_MODE = s.on R.SYN_CTL_MODE := by rw [State.on, s.get_disarmed (by decide) (by decide)]; rfl
  rw [State.modeBack, State.modeBack, hmode]
  rfl

/-- R198. CSTAT and CMP_REJ of a commit that is accepted. -/
def State.recordAccept (s : State) : State := (((s.put R.SCO_CSTAT_ACCEPTED 1).put R.SCO_CSTAT_REFUSED 0).put R.SCO_CSTAT_REASON 0).put R.CMP_REJ_VALID 0

/-- R82, R203. The work that the commit carried is the next one shown. -/
def State.takeArmed (s : State) : State :=
  match s.sco.armedWork with
  | some k => (s.setSco { s.sco with next := some k, armedWork := none, rmap := s.syn.rmap }).setFinfo k
  | none => if s.sco.rmap.isNone then s.setSco { s.sco with rmap := s.syn.rmap } else s

/-- R189, R490. The acceptance is noted. -/
def State.noteAccept (s : State) : State := ((s.setSco { s.sco with accepted := true }).switchCounted).markReady

theorem State.acceptCommit_eq (s : State) :
    s.acceptCommit = (s.gateLayers (s.commitEffects s.moveShadows)).recordAccept.takeArmed.noteAccept := by
  rw [State.acceptCommit, State.noteAccept, State.takeArmed, State.recordAccept] <;>
    generalize ((((s.gateLayers (s.commitEffects s.moveShadows)).put R.SCO_CSTAT_ACCEPTED 1).put R.SCO_CSTAT_REFUSED 0).put R.SCO_CSTAT_REASON 0).put
      R.CMP_REJ_VALID 0 = x <;> rfl

theorem State.resolveCommit_eq (s : State) :
    s.resolveCommit = ((if s.commitReason = 0 then s.disarmed.acceptCommit else s.disarmed.refuseCommit s.commitReason).bump R.SCO_CSTAT_CSEQ).scoEvent 4
      (if s.commitReason = 0 then ((if s.commitReason = 0 then s.disarmed.acceptCommit else s.disarmed.refuseCommit s.commitReason).bump
        R.SCO_CSTAT_CSEQ).tileMask else 0) := by
  rw [← s.disarmed_sameChecked.commitReason]
  rfl

/-- The fields that tell how the last commit resolved. -/
def resultFields : List Fld := commitFields ++ [R.SCO_CSTAT_ACCEPTED, R.SCO_CSTAT_REFUSED, R.SCO_CSTAT_REASON, R.CMP_REJ_VALID]

/-- All that follows the record of an acceptance leaves that record, and the committed copies. -/
def Recorded (s u : State) : Prop := Keeps resultFields commitPart s u ∧ u.act = s.act ∧ u.member = s.member

theorem Recorded.trans {s u v : State} (h1 : Recorded s u) (h2 : Recorded u v) : Recorded s v := by
  obtain ⟨hk, hact, hmember⟩ := h1
  obtain ⟨hk', hact', hmember'⟩ := h2
  exact ⟨hk.trans hk', hact'.trans hact, hmember'.trans hmember⟩

theorem Recorded.refl (s : State) : Recorded s s := ⟨.refl s, rfl, rfl⟩

theorem Recorded.setSco {s u : State} (h : Recorded s u) (x : ScoSt) (hx : commitPart x = commitPart u.sco) : Recorded s (u.setSco x) :=
  h.trans ⟨(Keeps.refl u).setSco x hx, rfl, rfl⟩

theorem Recorded.commit {s u : State} (h : Recorded s u) : KeepsCommit s u := ⟨fun g hg => h.1.fields g (List.mem_append_left _ hg), h.1.sco⟩

theorem State.setFinfo_recorded (s : State) (k : Nat) : Recorded s (s.setFinfo k) := by
  unfold State.setFinfo
  split
  · exact ⟨((Keeps.refl s).put _ _ (by decide)).put _ _ (by decide), rfl, rfl⟩
  · exact .refl s

theorem State.takeArmed_recorded (s : State) : Recorded s s.takeArmed := by
  unfold State.takeArmed
  split
  · rename_i k _
    exact ((Recorded.refl s).setSco { s.sco with next := some k, armedWork := none, rmap := s.syn.rmap } rfl).trans (State.setFinfo_recorded _ _)
  split
  · exact (Recorded.refl s).setSco _ rfl
  · exact .refl s

theorem State.markReady_recorded (s : State) : Recorded s s.markReady := by
  unfold State.markReady
  split
  · exact .refl s
  · exact (Recorded.refl s).setSco _ rfl

theorem State.switchCounted_recorded (s : State) : Recorded s s.switchCounted := ⟨⟨fun _ _ => rfl, rfl⟩, rfl, rfl⟩

theorem State.noteAccept_recorded (s : State) : Recorded s s.noteAccept :=
  (((Recorded.refl s).setSco { s.sco with accepted := true } rfl).trans (State.switchCounted_recorded _)).trans (State.markReady_recorded _)

theorem State.bandReady_recorded (s : State) : Recorded s s.bandReady := by
  unfold State.bandReady
  split
  · exact (Recorded.refl s).setSco _ rfl
  · exact .refl s

theorem State.bandReady_frame (s : State) : s.bandReady = { s with sco := s.bandReady.sco } := by
  unfold State.bandReady
  split <;> rfl

theorem State.scoEvent_recorded (s : State) (code tiles : Nat) : Recorded s (s.scoEvent code tiles) := by
  rw [s.scoEvent_frame]
  exact ⟨⟨fun _ _ => rfl, rfl⟩, rfl, rfl⟩

theorem State.recordAccept_result (s : State) : s.recordAccept.get R.SCO_CSTAT_ACCEPTED = 1 ∧ s.recordAccept.get R.SCO_CSTAT_REFUSED = 0 ∧
    s.recordAccept.get R.SCO_CSTAT_REASON = 0 ∧ s.recordAccept.get R.CMP_REJ_VALID = 0 := by
  simp (disch := decide) only [State.recordAccept, State.get_put_apart, State.get_put_same]
  decide

theorem GateKeeps.recordAccept {s1 u : State} (h : GateKeeps s1 u) : GateKeeps s1 u.recordAccept :=
  h.of_act (((((Keeps.refl u).put R.SCO_CSTAT_ACCEPTED 1 (by decide)).put R.SCO_CSTAT_REFUSED 0 (by decide)).put R.SCO_CSTAT_REASON 0 (by decide)).put
    R.CMP_REJ_VALID 0 (by decide)) (by simp only [State.recordAccept, State.put_member]) (by simp only [State.recordAccept, State.put_act])

theorem GateKeeps.recorded {s1 u v : State} (h : GateKeeps s1 u) (hrec : Recorded u v) : GateKeeps s1 v := by
  obtain ⟨-, hact, hmember⟩ := id hrec
  exact h.of_act hrec.commit hmember hact

theorem GateKeeps.commitEffects (s s1 : State) : GateKeeps s1 (s.commitEffects s1) := by
  obtain ⟨hstatus, honly⟩ := s.commitEffects_effect s1
  exact (GateKeeps.refl s1).of_act hstatus (by rw [honly]) (by rw [honly])

/-- R198. What an acceptance leaves of the state in which every shadow copy has moved. -/
theorem State.acceptCommit_gateKeeps (s : State) : GateKeeps s.moveShadows s.acceptCommit := by
  rw [State.acceptCommit_eq]
  exact ((((GateKeeps.commitEffects s s.moveShadows).gateLayers s).recordAccept).recorded (State.takeArmed_recorded _)).recorded (State.noteAccept_recorded _)

theorem State.acceptCommit_result (s : State) : s.acceptCommit.get R.SCO_CSTAT_ACCEPTED = 1 ∧ s.acceptCommit.get R.SCO_CSTAT_REFUSED = 0 ∧
    s.acceptCommit.get R.SCO_CSTAT_REASON = 0 ∧ s.acceptCommit.get R.CMP_REJ_VALID = 0 := by
  have hrest := (State.takeArmed_recorded (s.gateLayers (s.commitEffects s.moveShadows)).recordAccept).trans (State.noteAccept_recorded _)
  have hkept := hrest.1.fields
  rw [State.acceptCommit_eq, hkept _ (by decide), hkept _ (by decide), hkept _ (by decide), hkept _ (by decide)]
  exact State.recordAccept_result _

end Sys2Proof.Machine
end

section
/-! ### A commit that is refused (R171, R198) -/
namespace Sys2Proof.Machine
open Sys2Proof

/-- R198. CSTAT of a commit that is refused. -/
def State.recordRefuse (s : State) (r : Nat) : State := ((s.put R.SCO_CSTAT_ACCEPTED 0).put R.SCO_CSTAT_REFUSED 1).put R.SCO_CSTAT_REASON r

/-- R171, R198. CMP_REJ names the first failing layer. -/
def State.recordReject (s : State) : State :=
  match s.cmpReason with
  | some (t, l, c) => (((s.put R.CMP_REJ_VALID 1).put R.CMP_REJ_REASON c).put R.CMP_REJ_TILE t).put R.CMP_REJ_LAYER l
  | none => s

/-- R198. A refusal is counted and raised. -/
def State.noteRefuse (s : State) : State := ((s.setSco { s.sco with armedWork := none }).bump (R.SCO_CNT_COUNT 3)).raise Irq.SCO_REFUSED

theorem State.refuseCommit_eq (s : State) (r : Nat) : s.refuseCommit r = ((s.recordRefuse r).recordReject).noteRefuse := by
  unfold State.refuseCommit State.noteRefuse State.recordReject State.recordRefuse
  rfl

theorem State.recordRefuse_sameChecked (s : State) (r : Nat) : SameChecked s (s.recordRefuse r) := by
  refine ⟨fun f hf => ?_, rfl, rfl⟩
  have hne : f.addr ≠ 0xC000C := by omega
  rw [State.get, State.get]
  congr 1
  exact ((State.word_put_other _ _ _ hne).trans (State.word_put_other _ _ _ hne)).trans (State.word_put_other _ _ _ hne)

theorem State.commitReason_lt (s : State) : s.commitReason < 2 ^ 4 := by
  unfold State.commitReason
  split_ifs <;> decide

/-- Registers alone change, and of those neither the status of commits nor a counter of refusals. -/
theorem State.recordReject_frame (s : State) : s.recordReject = { s with regs := s.recordReject.regs } := by
  show OnlyRegs s s.recordReject
  unfold State.recordReject
  split
  · exact ((((OnlyRegs.refl s).put _ _).put _ _).put _ _).put _ _
  · exact .refl s

/-- CMP_REJ is a register of composition. -/
theorem State.get_recordReject (s : State) {g : Fld} (hg : g.addr ≠ R.CMP_REJ_VALID.addr) : s.recordReject.get g = s.get g := by
  have hput : ∀ (s : State) (f : Fld) v, f.addr = R.CMP_REJ_VALID.addr → (s.put f v).get g = s.get g := fun s f v hf =>
    s.get_put_other f g v (Or.inl (by rw [hf]; exact hg))
  unfold State.recordReject
  split
  · rw [hput _ R.CMP_REJ_LAYER _ rfl, hput _ R.CMP_REJ_TILE _ rfl, hput _ R.CMP_REJ_REASON _ rfl, hput _ R.CMP_REJ_VALID _ rfl]
  · rfl

theorem State.recordReject_names {s : State} {t l c : Nat} (h : s.cmpReason = some (t, l, c)) : s.recordReject.get R.CMP_REJ_VALID = 1 ∧
    s.recordReject.get R.CMP_REJ_TILE = t % 64 ∧ s.recordReject.get R.CMP_REJ_LAYER = l % 8 ∧ s.recordReject.get R.CMP_REJ_REASON = c % 16 := by
  simp (disch := decide) only [State.recordReject, h, State.get_put_apart, State.get_put_same]
  exact ⟨by decide, rfl, rfl, rfl⟩

theorem State.noteRefuse_frame (s : State) :
    s.noteRefuse = { s with regs := s.noteRefuse.regs, int := s.noteRefuse.int, sco := { s.sco with armedWork := none } } := by
  unfold State.noteRefuse
  rw [State.raise_frame]; rfl

theorem State.get_noteRefuse (s : State) {g : Fld} (hint : g.addr / 0x10000 ≠ 3) (hcnt : (R.SCO_CNT_COUNT 3).apart g = true) :
    s.noteRefuse.get g = s.get g := by
  rw [State.noteRefuse, State.get_raise_other _ (by decide) hint, State.get_bump_apart _ hcnt]
  rfl

/-- R198. What a refusal does: it is recorded, counted and raised, and no committed copy or memory changes. -/
theorem State.refuseCommit_refuses (s : State) {r : Nat} (hr : r < 2 ^ 4) :
    let u := s.refuseCommit r
    u.get R.SCO_CSTAT_ACCEPTED = 0 ∧ u.get R.SCO_CSTAT_REFUSED = 1 ∧ u.get R.SCO_CSTAT_REASON = r ∧ u.act = s.act ∧ u.mem = s.mem ∧
      u.get (R.SCO_CNT_COUNT 3) = (s.get (R.SCO_CNT_COUNT 3) + 1) % 2 ^ 32 ∧ u.get (causeFld Irq.SCO_REFUSED) = 1 ∧ KeepsCommit s u := by
  dsimp only
  rw [State.refuseCommit_eq]
  have hframe : ((s.recordRefuse r).recordReject).noteRefuse.act = s.act ∧ ((s.recordRefuse r).recordReject).noteRefuse.mem = s.mem ∧
      ((s.recordRefuse r).recordReject).noteRefuse.sco = { s.sco with armedWork := none } := by
    rw [State.noteRefuse_frame, State.recordReject_frame]
    exact ⟨rfl, rfl, rfl⟩
  obtain ⟨hact, hmem, hsco⟩ := hframe
  have hcount : ((s.recordRefuse r).recordReject).noteRefuse.get (R.SCO_CNT_COUNT 3) =
      (((s.recordRefuse r).recordReject).get (R.SCO_CNT_COUNT 3) + 1) % 2 ^ 32 := by
    rw [State.noteRefuse, State.get_raise_other _ (by decide) (by decide), State.get_bump_same _ _ (by decide)]
    rfl
  have hfields : ∀ g ∈ commitFields, ((s.recordRefuse r).recordReject).noteRefuse.get g = s.get g := by
    simp (disch := decide) only [commitFields, List.forall_mem_cons, State.get_noteRefuse, State.get_recordReject, State.recordRefuse, State.get_put_apart]
    simp
  have hpart : commitPart ((s.recordRefuse r).recordReject).noteRefuse.sco = commitPart s.sco := by rw [hsco]; rfl
  simp (disch := decide) only [State.get_noteRefuse, State.get_recordReject, State.recordRefuse, State.get_put_apart, State.get_put_same] at hcount ⊢
  refine ⟨rfl, rfl, Nat.mod_eq_of_lt hr, hact, hmem, hcount, State.raise_sets _ (by decide), hfields, hpart⟩

/-- R171. Where a layer fails its check, CMP_REJ names it. -/
theorem State.refuseCommit_names (s : State) (r : Nat) {t l c : Nat} (h : s.cmpReason = some (t, l, c)) :
    (s.refuseCommit r).get R.CMP_REJ_VALID = 1 ∧ (s.refuseCommit r).get R.CMP_REJ_TILE = t % 64 ∧ (s.refuseCommit r).get R.CMP_REJ_LAYER = l % 8 ∧
      (s.refuseCommit r).get R.CMP_REJ_REASON = c % 16 := by
  rw [State.refuseCommit_eq]
  simp (disch := decide) only [State.get_noteRefuse]
  exact State.recordReject_names ((s.recordRefuse_sameChecked r).cmpReason.trans h)

end Sys2Proof.Machine
end

section
/-! ### Commits are all or none, and O31 -/
namespace Sys2Proof.Machine
open Sys2Proof

theorem armed_of_commitPart {x y : ScoSt} (h : commitPart x = commitPart y) : x.armed = y.armed := congrArg Prod.fst h

theorem modeHeld_of_commitPart {x y : ScoSt} (h : commitPart x = commitPart y) : x.modeHeld = y.modeHeld := congrArg Prod.snd h

/-- R198. The state in which the checks have decided. -/
def State.decided (s : State) : State := if s.commitReason = 0 then s.disarmed.acceptCommit else s.disarmed.refuseCommit s.commitReason

theorem State.decided_accepts {s : State} (h : s.commitReason = 0) : s.decided = s.disarmed.acceptCommit := if_pos h
theorem State.decided_refuses {s : State} (h : s.commitReason ≠ 0) : s.decided = s.disarmed.refuseCommit s.commitReason := if_neg h

/-- R197, R198. The state that the commit point leaves. -/
def State.committed (s : State) : State := s.resolveCommit.bandReady

theorem exec_commitPoint_due {s : State} (h : s.atCommitPoint = true) : exec .commitPoint s = .next s.committed := by
  show execCommitPoint s = _
  rw [execCommitPoint, if_pos h]
  rfl

theorem exec_commitPoint_early {s : State} (h : s.atCommitPoint = false) : exec .commitPoint s = .next s := by
  show execCommitPoint s = _
  rw [execCommitPoint, if_neg (by rw [h]; decide)]

/-- R85, R165. What follows the decision is told to steward cores, and noted in scan-out's own state. -/
theorem State.committed_frame (s : State) :
    s.committed = { s.decided.bump R.SCO_CSTAT_CSEQ with aq := s.committed.aq, sco := s.committed.sco } := by
  rw [State.committed, State.resolveCommit_eq, ← State.decided, State.bandReady_frame, State.scoEvent_frame]

/-- What such a change leaves. -/
theorem State.same_of_frame {u v : State} (h : u = { v with aq := u.aq, sco := u.sco }) :
    u.act = v.act ∧ u.mem = v.mem ∧ u.member = v.member ∧ u.regs = v.regs := by
  rw [h]
  exact ⟨rfl, rfl, rfl, rfl⟩

theorem State.get_committed_bump (s : State) (g : Fld) : s.committed.get g = (s.decided.bump R.SCO_CSTAT_CSEQ).get g := by
  obtain ⟨-, -, hmember, hregs⟩ := State.same_of_frame s.committed_frame
  rw [State.get, State.get, State.word, State.word, hregs, hmember]

theorem State.get_committed (s : State) {g : Fld} (hcseq : R.SCO_CSTAT_CSEQ.apart g = true) : s.committed.get g = s.decided.get g := by
  rw [s.get_committed_bump, State.get_bump_apart _ hcseq]

theorem State.commitPart_committed (s : State) : commitPart s.committed.sco = commitPart s.decided.sco := by
  rw [State.committed, State.resolveCommit_eq, ← State.decided]
  rw [((State.scoEvent_recorded _ _ _).trans (State.bandReady_recorded _)).1.sco, State.bump_sco]

theorem State.act_committed (s : State) : s.committed.act = s.decided.act := by
  rw [(State.same_of_frame s.committed_frame).1, State.bump_act]

theorem State.actWord_committed (s : State) (a : Nat) : s.committed.actWord a = s.decided.actWord a := by
  obtain ⟨-, -, hmember, -⟩ := State.same_of_frame s.committed_frame
  rw [State.actWord, State.actWord, s.act_committed, hmember, State.bump_member]

/-- The decision itself leaves nothing armed, and CSEQ. -/
theorem State.decided_idle (s : State) : s.decided.sco.armed = none ∧ s.decided.get R.SCO_STAT_ARMED = 0 ∧ s.decided.get R.SCO_COMMIT_COMMIT = 0 ∧
    s.decided.get R.SCO_CSTAT_CSEQ = s.get R.SCO_CSTAT_CSEQ := by
  have hkept : ∃ x, commitPart x = commitPart s.decided.sco ∧ x.armed = none ∧ ∀ g ∈ commitFields, s.decided.get g = s.disarmed.get g := by
    by_cases h : s.commitReason = 0
    · rw [State.decided_accepts h]
      obtain ⟨hfields, hpart⟩ := s.disarmed.acceptCommit_gateKeeps.status
      refine ⟨_, hpart.symm, by rw [State.moveShadows_frame]; rfl, fun g hg => (hfields g hg).trans ?_⟩
      rw [State.moveShadows_frame]
      rfl
    · rw [State.decided_refuses h]
      obtain ⟨-, -, -, -, -, -, -, hfields, hpart⟩ := s.disarmed.refuseCommit_refuses s.commitReason_lt
      exact ⟨_, hpart.symm, rfl, hfields⟩
  obtain ⟨x, hpart, harmed, hfields⟩ := hkept
  obtain ⟨-, hstat, hcommit⟩ := s.disarmed_idle
  refine ⟨(armed_of_commitPart hpart).symm.trans harmed, (hfields _ (by decide)).trans hstat, (hfields _ (by decide)).trans hcommit, ?_⟩
  exact (hfields _ (by decide)).trans (s.get_disarmed (by decide) (by decide))

/-- R197. At the commit point nothing is armed any more, and CSEQ counts. -/
theorem State.committed_idle (s : State) : s.committed.sco.armed = none ∧ s.committed.get R.SCO_STAT_ARMED = 0 ∧ s.committed.get R.SCO_COMMIT_COMMIT = 0 ∧
    s.committed.get R.SCO_CSTAT_CSEQ = (s.get R.SCO_CSTAT_CSEQ + 1) % 2 ^ 16 := by
  obtain ⟨harmed, hstat, hcommit, hcseq⟩ := s.decided_idle
  refine ⟨(armed_of_commitPart s.commitPart_committed).trans harmed, (s.get_committed (by decide)).trans hstat,
    (s.get_committed (by decide)).trans hcommit, ?_⟩
  rw [s.get_committed_bump, State.get_bump_same _ _ (by decide), hcseq]
  rfl

section
variable {s : State} (hreason : s.commitReason = 0)
include hreason

/-- R198. A commit that is accepted says so. -/
theorem State.committed_accepted : s.committed.get R.SCO_CSTAT_ACCEPTED = 1 ∧ s.committed.get R.SCO_CSTAT_REFUSED = 0 ∧
    s.committed.get R.SCO_CSTAT_REASON = 0 ∧ s.committed.get R.CMP_REJ_VALID = 0 := by
  simp (disch := decide) only [State.get_committed, State.decided_accepts hreason]
  exact s.disarmed.acceptCommit_result

/-- R179, R198. Every word that no gated overlay has is as the shadow copies moved it. -/
theorem State.actWord_committed_ungated {a : Nat} (ha : Ungated s.disarmed.moveShadows a) : s.committed.actWord a = s.disarmed.moveShadows.actWord a := by
  rw [State.actWord_committed, State.decided_accepts hreason]
  exact s.disarmed.acceptCommit_gateKeeps.act a ha

omit hreason in
theorem State.actWord_moveShadows_disarmed (s : State) {a : Nat} (hsh : holdsSh a = true) (hmode : a = R.SYN_CTL_MODE.addr → s.modeBack = false) :
    s.disarmed.moveShadows.actWord a = s.word a := by
  rw [State.actWord_moveShadows _ hsh (by rw [s.modeBack_disarmed]; exact hmode), s.word_disarmed_sh hsh]

omit hreason in
/-- No overlay has a register outside the layers' rows. -/
theorem ungated_of_outside (s1 : State) {a : Nat} (ha : a < 0xB2000 ∨ 0xBA000 ≤ a) : Ungated s1 a := by
  intro t l ht hl hlo hhi
  unfold layerBase at hlo hhi
  omega

/-- R198. The committed words outside the layers. -/
theorem State.actWord_committed_outside {a : Nat} (hsh : holdsSh a = true) (ha : a < 0xB2000 ∨ 0xBA000 ≤ a)
    (hmode : a = R.SYN_CTL_MODE.addr → s.modeBack = false) : s.committed.actWord a = s.word a := by
  rw [State.actWord_committed_ungated hreason (ungated_of_outside _ ha), State.actWord_moveShadows_disarmed s hsh hmode]

/-- R179, R198. The committed words of a layer that waits for no fence. -/
theorem State.actWord_committed_layer {t l i : Nat} (ht : t < 64) (hl : l < 8) (hi : i < 16) (hfence : l = 0 ∨ s.get (R.CMP_LCTL_FENCE_EN t l) = 0) :
    s.committed.actWord (layerBase t l + 4 * i) = s.word (layerBase t l + 4 * i) := by
  have hword : ∀ j < 16, s.disarmed.moveShadows.actWord (layerBase t l + 4 * j) = s.word (layerBase t l + 4 * j) := fun j hj =>
    State.actWord_moveShadows_disarmed s (holdsSh_layer ht hl hj) fun e => by simp only [layerBase, R.SYN_CTL_MODE] at e; omega
  rw [State.actWord_committed_ungated hreason ?_, hword i hi]
  intro t' l' ht' hl' hlo hhi
  obtain ⟨rfl, rfl⟩ : t' = t ∧ l' + 1 = l := by unfold layerBase at hlo hhi; omega
  have hoff : s.get (R.CMP_LCTL_FENCE_EN t' (l' + 1)) = 0 := hfence.resolve_left (Nat.succ_ne_zero l')
  rw [State.onA, show s.disarmed.moveShadows.getA (R.CMP_LCTL_FENCE_EN t' (l' + 1)) = s.get (R.CMP_LCTL_FENCE_EN t' (l' + 1)) from
    congrArg (fun w => bitsOf w 3 1) (hword 0 (by decide)), hoff]
  rfl

/-- R86. A change of mode that waits for the old mode to drain leaves the mode in force. -/
theorem State.committed_modeBack (hback : s.modeBack = true) : s.committed.bandMode = s.bandMode ∧ s.committed.sco.modeHeld = true := by
  have hback' : s.disarmed.modeBack = true := by rw [s.modeBack_disarmed, hback]
  have hheld : s.decided.sco.modeHeld = true := by
    rw [State.decided_accepts hreason]
    rw [modeHeld_of_commitPart s.disarmed.acceptCommit_gateKeeps.status.sco, State.moveShadows_frame]
    exact hback'
  refine ⟨?_, (modeHeld_of_commitPart s.commitPart_committed).trans hheld⟩
  have hword := State.actWord_committed_ungated hreason (ungated_of_outside s.disarmed.moveShadows (a := R.SYN_CTL_MODE.addr) (by decide))
  calc s.committed.bandMode = s.disarmed.moveShadows.bandMode := by rw [State.bandMode, State.onA, State.getA, hword]; rfl
    _ = s.disarmed.bandMode := State.bandMode_moveShadows hback'
    _ = s.bandMode := rfl

end

theorem State.modeBack_eq_false {s : State} (h : s.on R.SYN_CTL_MODE = s.bandMode ∨ s.drained = true) : s.modeBack = false := by
  rcases h with h | h <;> simp [State.modeBack, h]

theorem State.modeBack_eq_true {s : State} (hmode : s.on R.SYN_CTL_MODE ≠ s.bandMode) (hdrained : s.drained = false) : s.modeBack = true := by
  simp [State.modeBack, hmode, hdrained]

/-- R198. A commit that is refused is recorded, counted and raised, and moves no committed copy. -/
theorem State.committed_refused {s : State} (hreason : s.commitReason ≠ 0) :
    s.committed.get R.SCO_CSTAT_ACCEPTED = 0 ∧ s.committed.get R.SCO_CSTAT_REFUSED = 1 ∧ s.committed.get R.SCO_CSTAT_REASON = s.commitReason ∧
      s.committed.act = s.act ∧ s.committed.mem = s.mem ∧ s.committed.get (R.SCO_CNT_COUNT 3) = (s.get (R.SCO_CNT_COUNT 3) + 1) % 2 ^ 32 ∧
      s.committed.get (causeFld Irq.SCO_REFUSED) = 1 := by
  obtain ⟨haccepted, hrefused, hr, hact, hmem, hcount, hraised, -⟩ := s.disarmed.refuseCommit_refuses s.commitReason_lt
  have hmem' : s.committed.mem = s.decided.mem := by
    obtain ⟨-, hmem, -⟩ := State.same_of_frame s.committed_frame
    rw [hmem, State.bump_mem]
  simp (disch := decide) only [State.get_committed, State.act_committed, hmem', State.decided_refuses hreason]
  exact ⟨haccepted, hrefused, hr, hact, hmem, hcount.trans (by rw [s.get_disarmed (by decide) (by decide)]), hraised⟩

/-- R171. Where a layer fails its check, CMP_REJ names it. -/
theorem State.committed_names {s : State} (hreason : s.commitReason ≠ 0) {t l c : Nat} (h : s.cmpReason = some (t, l, c)) :
    s.committed.get R.CMP_REJ_VALID = 1 ∧ s.committed.get R.CMP_REJ_TILE = t % 64 ∧ s.committed.get R.CMP_REJ_LAYER = l % 8 ∧
      s.committed.get R.CMP_REJ_REASON = c % 16 := by
  simp (disch := decide) only [State.get_committed, State.decided_refuses hreason]
  exact State.refuseCommit_names _ _ (s.disarmed_sameChecked.cmpReason.trans h)

/-- R197. A commit armed in a frame is armed at its point, and is late where LOCKED has passed its window. -/
theorem State.armCommit_inFrame {s : State} (hidle : s.sco.armed = none) (hframe : s.sco.inFrame = true) :
    let a := s.sco.line
    let early := a + s.getA R.SCO_VGEOM_WINDOW < s.active
    (s.lockedClass = true → early →
      s.armPoint.1 = ⟨a, s.active, false⟩ ∧ s.armCommit.get R.SCO_CSTAT_LATE_COMMIT = s.get R.SCO_CSTAT_LATE_COMMIT) ∧
    (s.lockedClass = true → ¬ early → s.armPoint.1 = ⟨a, s.active, true⟩ ∧ s.armCommit.get R.SCO_CSTAT_LATE_COMMIT = 1 ∧
      s.armCommit.get (R.SCO_CNT_COUNT 2) = (s.get (R.SCO_CNT_COUNT 2) + 1) % 2 ^ 32 ∧ s.armCommit.get (causeFld Irq.SCO_LATE_COMMIT) = 1) ∧
    (s.lockedClass = false → s.get64 R.SCO_DUE_LO_DUE R.SCO_DUE_HI_DUE = 0 →
      let p := if early then s.active else max s.active (a + 1 + s.getA R.SCO_VGEOM_WINDOW)
      s.armPoint.1 = if max s.vMin (p + s.leadL) ≤ s.vMax then ⟨a, p, false⟩ else ⟨a, s.active, true⟩) := by
  have hpoint := State.armPoint_inFrame hframe
  dsimp only
  refine ⟨fun hclass hearly => ?_, fun hclass hlate => ?_, fun hclass hdue => ?_⟩
  · have harm := hpoint.trans (State.commitPoint_locked_early hclass hearly)
    exact ⟨by rw [harm], State.armCommit_inTime hidle (by rw [harm])⟩
  · have harm := hpoint.trans (State.commitPoint_locked_late hclass hlate)
    exact ⟨by rw [harm], State.armCommit_late hidle (by rw [harm])⟩
  · rw [hpoint, State.commitPoint_variable hclass hdue]

/-- Settles O31: a commit is armed, its fields are held while it is, and its commit point moves every shadow copy or none. -/
theorem commitsAreAllOrNone : Obligations.CommitsAreAllOrNone := by
  unfold Obligations.CommitsAreAllOrNone
  refine ⟨fun s h => ?armed, fun s h => ?arms, fun s a v h => exec_shWriteDrop_idle v h, fun s a v harmed hsh => ?drops,
    fun s h => exec_commitPoint_early h, fun s h => ?resolves⟩
  case armed => exact congrArg Host.Outcome.next (State.armCommit_armed h)
  case arms =>
    obtain ⟨harmed, hstat, hcommit, hact, hmem⟩ := State.armCommit_arms h
    exact ⟨s.armCommit, s.armPoint.1, rfl, harmed, hstat, hcommit, hact, hmem, State.armCommit_inFrame h⟩
  case drops =>
    obtain ⟨hdrop, hcount, hraised, hframe⟩ := State.storeFields_drops v harmed hsh
    refine ⟨_, exec_shWriteDrop_armed v harmed hsh, hdrop, hcount, hraised, hframe, fun r o f hr hf => ?_⟩
    have hstored := State.bitsOf_storeFields_armed v harmed hr hsh hf
    exact ⟨fun ht => by rw [hstored, FieldRow.stored, ht]; rfl, fun ht => by rw [hstored, FieldRow.stored, ht]⟩
  case resolves =>
    obtain ⟨harmed, hstat, hcommit, hcseq⟩ := s.committed_idle
    refine ⟨s.committed, exec_commitPoint_due h, harmed, hstat, hcommit, hcseq, fun hreason => ?accepted, fun hreason => ?refused⟩
    case accepted =>
      obtain ⟨haccepted, hrefused, hr, hvalid⟩ := State.committed_accepted hreason
      exact ⟨haccepted, hrefused, hr, hvalid,
        fun a hsh ha hmode => State.actWord_committed_outside hreason hsh ha fun e => State.modeBack_eq_false (hmode e),
        fun hmode hdrained => State.committed_modeBack hreason (State.modeBack_eq_true hmode hdrained),
        fun t l i ht hl hi hfence => State.actWord_committed_layer hreason ht hl hi hfence⟩
    case refused =>
      obtain ⟨haccepted, hrefused, hr, hact, hmem, hcount, hraised⟩ := State.committed_refused hreason
      exact ⟨haccepted, hrefused, hr, hact, hmem, hcount, hraised, fun t l c hc => State.committed_names hreason hc⟩

end Sys2Proof.Machine
end

section
/-! ### SEQ, and what the ports, the panels and the backlight leave of it -/
namespace Sys2Proof.Machine
open Sys2Proof

/-- The field that tells which sequencer has control. -/
def controlFields : List Fld := [R.SCO_STAT_SEQ]

theorem controlFields_status : StatusFields controlFields := by unfold StatusFields; decide

/-- R257, R262. A transfer of a chain once its image has been read, or the read has failed. -/
def State.bklRead (s : State) (c : Nat) (urgent : Bool) (res : Except AccErr (List Byte)) : State :=
  let va := s.addrOf (R.BKL_IMG_LO_ADDR c) (R.BKL_IMG_HI_ADDR c)
  match res with
  | .error e =>
    let s := (s.accFail 0x35 0 0 va .read 5 e).bump (R.BKL_CNT_COUNT c 7)
    (s.setChain c { s.chain c with sent := none, busy := false, urgent := false }).putBit R.BKL_STAT_RUNNING c false
  | .ok img =>
    let r := s.buildRecords c (if urgent then 0 else 1) img
    let s := s.setChain c { r.1 with sent := some r.2, busy := true, urgent := urgent }
    ((s.putBit R.BKL_STAT_RUNNING c true).showDerate c).emit (.shift c r.2.reverse.flatten)

theorem State.bklTransfer_eq (s : State) (c : Nat) (urgent : Bool) : s.bklTransfer c urgent = (s.bklLoad c).bklRead c urgent
    ((s.bklLoad c).vread 0 ((s.bklLoad c).addrOf (R.BKL_IMG_LO_ADDR c) (R.BKL_IMG_HI_ADDR c)) .read (64 * (s.bklLoad c).chainCount c)) := rfl

namespace Keeps
variable {α : Type} {p : ScoSt → α} {s u v : State} (h : Keeps controlFields p s u)
include h

/-- A write of a field of another register than SCO_STAT. -/
theorem putOff {f : Fld} (x : Nat) (hf : f.addr ≠ 0xC0004 := by decide) : Keeps controlFields p s (u.put f x) :=
  h.put f x fun g hg => by
    rw [controlFields, List.mem_singleton] at hg
    exact Fld.apart_iff.2 (Or.inl (by rw [hg]; exact hf.symm))

theorem bumpOff {f : Fld} (hf : f.addr ≠ 0xC0004 := by decide) : Keeps controlFields p s (u.bump f) := h.putOff _ hf

/-- A change that leaves the registers and scan-out's state alone. -/
theorem same (hregs : v.regs = u.regs := by rfl) (hmember : v.member = u.member := by rfl) (hsco : v.sco = u.sco := by rfl) : Keeps controlFields p s v :=
  h.of_regs hregs hmember hsco

/-- An entry in the log that is raised. -/
theorem logRaise {blk c : Nat} (arr inst code sev detail : Nat) (hblk : blk < 32) (hc : c < 256) :
    Keeps controlFields p s ((u.log blk arr inst code sev detail).raise c) :=
  (h.log controlFields_status arr inst code sev detail hblk).raise controlFields_status hc

/-! #### Ports (R216–R234) -/

theorem emit (o : Out) : Keeps controlFields p s (u.emit o) := h.same
theorem setPort (t : Nat) (x : PortSt) : Keeps controlFields p s (u.setPort t x) := h.same
theorem column (t blk : Nat) : Keeps controlFields p s (u.column t blk) := h.emit _
theorem sendMap (t blk : Nat) : Keeps controlFields p s (u.sendMap t blk) := ((h.column t blk).column t blk).column t blk

theorem setPortState (t st : Nat) : Keeps controlFields p s (u.setPortState t st) := by
  have hstate := h.putOff (f := R.WYL_PSTAT_STATE t) st (show 0xD1100 + t * 4 ≠ 0xC0004 by omega)
  unfold State.setPortState
  refine hstate.putOff _ ?_
  split <;> decide

theorem takeShadow (t : Nat) : Keeps controlFields p s (u.takeShadow t) := by
  unfold State.takeShadow
  dsimp only
  split
  · split
    · exact h
    · exact (h.setPort t _).putOff _ (show 0xD1100 + t * 4 ≠ 0xC0004 by omega)
  · exact h

theorem wakePort (t : Nat) : Keeps controlFields p s (u.wakePort t) := by
  have hdrive : Keeps controlFields p s ((u.drive t true).column t (wakeBlock 0xFF)) := h.same
  have hcount := hdrive.foldRange (n := 32) fun i _ s => (Keeps.refl s).column t (wakeBlock (31 - i))
  have halign := hcount.foldRange (n := 5) (step := fun s l => if s.laneRetired t l then s else s.column t (alignBlock t l 0)) fun l _ s => by
    split
    · exact Keeps.refl s
    · exact (Keeps.refl s).column t _
  exact ((halign.setPortState t 2).setPort t _).takeShadow t

theorem sendShadow (t : Nat) : Keeps controlFields p s (u.sendShadow t) := by
  unfold State.sendShadow
  dsimp only
  split
  · split
    · exact h
    · exact (h.setPort t _).sendMap t _
  · exact h

theorem sendSubst (t : Nat) : Keeps controlFields p s (u.sendSubst t) := by
  unfold State.sendSubst
  dsimp only
  split
  · exact h
  · split
    · exact h
    · exact (h.setPort t _).sendMap t _

theorem sendDue (t : Nat) : Keeps controlFields p s (u.sendDue t) := by
  have hshadow := h.sendShadow t
  unfold State.sendDue
  dsimp only
  split
  · split
    · exact hshadow.sendMap t _
    · exact hshadow.sendSubst t
  · exact hshadow

theorem holdPorts (reason : Nat) (hp : ∀ x : ScoSt, p { x with hold := some reason, idle := false } = p x) :
    Keeps controlFields p s (u.holdPorts reason) := by
  have hcnt : ∀ t, (R.WYL_CNT_COUNT t 10).addr ≠ 0xC0004 := fun t => (show 0xD4000 + t * 0x40 + 10 * 4 ≠ 0xC0004 by omega)
  unfold State.holdPorts
  refine (h.foldRange fun t _ s => ?_).setSco _ (hp _)
  have h0 : Keeps controlFields p s s := .refl s
  split
  · dsimp only
    split
    · exact ((((h0.wakePort t).setPortState t 4).setPort t _).column t _).bumpOff (hcnt t)
    · exact (((h0.setPortState t 4).setPort t _).column t _).bumpOff (hcnt t)
  split
  · exact (h0.setPort t _).column t _
  · exact h0

theorem substNote (data : List Nat) : Keeps controlFields p s (u.substNote data) := (h.bumpOff (f := R.HLT_CNT_COUNT 6)).same

theorem qualify (t : Nat) : Keeps controlFields p s (u.qualify t) :=
  ((h.setPort t _).putOff (f := R.WYL_PSTAT_SPARE_OK t) 0 (show 0xD1100 + t * 4 ≠ 0xC0004 by omega)).putOff _
    (show 0xD2000 + t * 0x20 + u.get (R.WYL_PSTAT_PSPARE t) * 4 ≠ 0xC0004 by omega)

theorem setPhysLane (t l x : Nat) : Keeps controlFields p s (u.setPhysLane t l x) := by
  refine h.putOff _ ?_
  split <;> exact (show 0xD1100 + t * 4 ≠ 0xC0004 by omega)

theorem takeLaneMap (t : Nat) : Keeps controlFields p s (u.takeLaneMap t) := by
  have hstat : ∀ f : Fld, f.addr = 0xD1100 + t * 4 → f.addr ≠ 0xC0004 := fun f hf => by omega
  unfold State.takeLaneMap
  dsimp only
  split
  · rename_i l _
    split
    · exact h
    · have hmap := ((h.setPhysLane t l (u.get (R.WYL_PSTAT_PSPARE t))).putOff (f := R.WYL_PSTAT_PSPARE t) (u.physLane t l) (hstat _ rfl)).putOff
        (f := R.WYL_PSTAT_SHADOW t) 7 (hstat _ rfl)
      refine (((Keeps.bumpOff (hmap.setPort t _) ?_).substNote _).logRaise 0 t 3 0 _ (by decide) (by decide)).qualify t
      exact (show 0xD4000 + t * 0x40 + 3 * 4 ≠ 0xC0004 by omega)
  · exact h

theorem portFrameStart (rep st : Bool) (t : Nat) : Keeps controlFields p s (u.portFrameStart rep st t) := by
  unfold State.portFrameStart
  dsimp only
  split
  · exact h
  split
  · exact (h.setPortState t 2).column t _
  · exact (((h.setPortState t 2).column t _).takeLaneMap t).setPort t _

theorem sendStream (t : Nat) (blks : List Nat) : Keeps controlFields p s (u.sendStream t blks) := h.same

/-! #### Panels (R240–R250) -/

theorem setPnl (x : PnlSt) : Keeps controlFields p s (u.setPnl x) := h.same

theorem ledgerAsk (cls : Nat) (data : List Nat) : Keeps controlFields p s (u.ledgerAsk cls data) := h.same

theorem setRegions (t : Nat) (l : List Region) : Keeps controlFields p s (u.setRegions t l) :=
  (h.setPnl _).putOff _ (show 0xE1100 + t * 4 ≠ 0xC0004 by omega)

theorem regionDone (t : Nat) (r : Region) : Keeps controlFields p s (u.regionDone t r) :=
  ((h.setRegions t _).putOff (f := R.PNL_TSTAT_LAST_RID t) _ (show 0xE1100 + t * 4 ≠ 0xC0004 by omega)).bumpOff
    (show 0xE2000 + t * 0x20 + 4 * 4 ≠ 0xC0004 by omega)

theorem regionsThrough (t y : Nat) : Keeps controlFields p s (u.regionsThrough t y) := h.foldl fun r _ s => (Keeps.refl s).regionDone t r

theorem regionsBack : Keeps controlFields p s u.regionsBack := h.foldRange fun t _ s => by
  split
  · exact (Keeps.refl s).setRegions t _
  · exact Keeps.refl s

theorem holdFailTile (t : Nat) : Keeps controlFields p s (u.holdFailTile t) :=
  (Keeps.bumpOff (h.putOff (f := R.PNL_TSTAT_HOLD_FAIL t) 1 (show 0xE1100 + t * 4 ≠ 0xC0004 by omega))
    (show 0xE2000 + t * 0x20 + 3 * 4 ≠ 0xC0004 by omega)).logRaise 0 t 3 2 0 (by decide) (by decide)

theorem holdDecide (w : HoldWr) : Keeps controlFields p s (u.holdDecide w) := by
  unfold State.holdDecide
  extract_lets ok bad s1 s2 w2
  have h1 : Keeps controlFields p s s1 := h.foldl fun t _ s => (Keeps.refl s).bumpOff (show 0xE2000 + t * 0x20 + 2 * 4 ≠ 0xC0004 by omega)
  have h2 : Keeps controlFields p s s2 := h1.foldl fun t _ s => (Keeps.refl s).holdFailTile t
  split
  · exact (h2.setPnl _).ledgerAsk _ _
  split
  · exact (h2.setPnl _).ledgerAsk _ _
  · exact (h2.setPnl _).ledgerAsk _ _

theorem holdCut : Keeps controlFields p s u.holdCut := by
  unfold State.holdCut
  split
  · split
    · exact h.holdDecide _
    · exact h
  · exact h

theorem holdFrame : Keeps controlFields p s u.holdFrame := by
  unfold State.holdFrame
  split
  · split
    · exact h.setPnl _
    · exact h
  · exact h

/-! #### The backlight (R255–R268) -/

theorem setChain (c : Nat) (x : ChainSt) : Keeps controlFields p s (u.setChain c x) := h.same
theorem pulse (c k : Nat) : Keeps controlFields p s (u.pulse c k) := h.emit _

theorem putRunning (c : Nat) (b : Bool) : Keeps controlFields p s (u.putBit R.BKL_STAT_RUNNING c b) := h.putOff _

/-- CHSTAT of a chain. -/
theorem putChstat {f : Fld} {c : Nat} (x : Nat) (hf : f.addr = 0xF0104 + c * 0x20) : Keeps controlFields p s (u.put f x) := h.putOff x (by omega)

theorem bumpChain (c n : Nat) : Keeps controlFields p s (u.bump (R.BKL_CNT_COUNT c n)) := h.bumpOff (show 0xF1000 + c * 0x20 + n * 4 ≠ 0xC0004 by omega)

theorem rxErrFrame (c : Nat) : Keeps controlFields p s (u.rxErrFrame c) := by
  unfold State.rxErrFrame
  split
  · exact h.setChain c _
  · exact h.putChstat (c := c) 0 rfl

theorem bklSettle (c : Nat) : Keeps controlFields p s (u.bklSettle c) := by
  unfold State.bklSettle
  extract_lets x s1
  have h1 : Keeps controlFields p s s1 := by
    unfold s1
    split
    · exact (h.pulse c 4).pulse c 1
    split
    · exact (h.pulse c 3).putChstat (c := c) 0 rfl
    · exact h.pulse c 1
  split
  · exact ((((h1.setChain c _).putRunning c false).putChstat (c := c) 1 rfl).bumpChain c 1).logRaise 0 c 1 2 0 (by decide) (by decide)
  · exact h1

theorem probeRecord (c : Nat) : Keeps controlFields p s (u.probeRecord c) :=
  ((h.emit _).setChain c _).putRunning c false

theorem bklLoad (c : Nat) : Keeps controlFields p s (u.bklLoad c) := by
  unfold State.bklLoad
  exact (((((h.putOff _).putOff _).putOff _).putOff _).putOff _).putOff _ (show 0xF011C + c * 0x20 ≠ 0xC0004 by omega)

theorem showDerate (c : Nat) : Keeps controlFields p s (u.showDerate c) := h.putChstat (c := c) _ rfl

theorem bklRead (c : Nat) (urgent : Bool) (res : Except AccErr (List Byte)) : Keeps controlFields p s (u.bklRead c urgent res) := by
  cases res with
  | error e => exact (((h.accFail controlFields_status ..).bumpChain c 7).setChain c _).putRunning c false
  | ok img => exact (((h.setChain c _).putRunning c true).showDerate c).emit _

theorem bklTransfer (c : Nat) (urgent : Bool) : Keeps controlFields p s (u.bklTransfer c urgent) := by
  rw [State.bklTransfer_eq]
  exact (h.bklLoad c).bklRead c urgent _

theorem bklChainFrame (c : Nat) : Keeps controlFields p s (u.bklChainFrame c) := by
  have hrx := h.rxErrFrame c
  have hsettle := hrx.bklSettle c
  unfold State.bklChainFrame
  dsimp only
  split
  · exact h
  split
  · exact hrx.pulse c 1
  split
  · exact hsettle
  split
  · exact hsettle.probeRecord c
  split
  · exact (hsettle.bumpChain c 0).bklTransfer c false
  · exact hsettle

theorem bklFrame : Keeps controlFields p s u.bklFrame := by
  have hstart : Keeps controlFields p s { u with bkl := { u.bkl with slot := 0, ofs := u.get R.BKL_SCAN_OFS, line := 0 } } := h.same
  exact hstart.foldRange fun c _ s => (Keeps.refl s).bklChainFrame c

/-! #### The gleaner, the ceiling and the events (R430, R452, R490) -/

theorem stepElem (x : Nat × CalElem) : Keeps controlFields p s (u.stepElem x) := by
  have hset : Keeps controlFields p s (u.setCal { u.cal with elems := tabPut u.cal.elems x.1 { x.2 with value := stepTo x.2.value x.2.target } }) := h.same
  unfold State.stepElem
  dsimp only
  split
  · exact (hset.putOff _ (by unfold R.THM_TRIM_OFS; dsimp only; omega)).ledgerAsk _ _
  · exact hset

theorem gleanerStep : Keeps controlFields p s u.gleanerStep := by
  unfold State.gleanerStep
  dsimp only
  split
  · exact h
  · refine Keeps.foldl (fun x _ s => (Keeps.refl s).stepElem x) ?_
    exact h.same

theorem ceilTake : Keeps controlFields p s u.ceilTake := by
  have hceil : Keeps controlFields p s { u with hlt := { u.hlt with ceil := u.get R.HLT_CEIL_CEIL_MHZ } } := h.same
  exact hceil.putOff _

theorem switchRepeat (rep : Bool) : Keeps controlFields p s (u.switchRepeat rep) := by
  unfold State.switchRepeat
  split
  · exact h.putOff _
  · exact h

theorem restartSets : Keeps controlFields p s u.restartSets := h.same

theorem setOpensIn (us : Nat) (num : Option Nat) : Keeps controlFields p s (u.setOpensIn us num) := by
  unfold State.setOpensIn
  split
  · exact h.same
  · exact h

end Keeps

end Sys2Proof.Machine
end

section
/-! ### What a frame start leaves of control: the pipes, the works shown and the commit that it arms -/
namespace Sys2Proof.Machine
open Sys2Proof

/-- The transfer of control under way, and the state of sequencer A. -/
def controlPart (x : ScoSt) : Option Nat × SeqASt := (x.transfer, x.seqA)
/-- Control, and what is to come of it, is as before. -/
abbrev KeepsControl (s u : State) : Prop := Keeps controlFields controlPart s u

namespace Keeps
variable {s u v : State} (h : KeepsControl s u)
include h

theorem setScan (t : Nat) (x : TileScan) : KeepsControl s (u.setScan t x) := h.setSco _ rfl

/-! #### Tile pipes (R166–R180) -/

/-- The counters of composition in a tile. -/
theorem bumpTile {t c : Nat} (n : Nat) (hc : c < 16) (htc : t < 64 ∨ c ≠ 1) : KeepsControl s (u.bumpBy (R.CMP_CNT_COUNT t c) n) :=
  h.putOff _ (show 0xBA000 + t * 0x40 + c * 4 ≠ 0xC0004 by omega)

theorem cmpFlag {t i c : Nat} (n detail : Nat) (hi : i < 8) (hc : c < 16) (htc : t < 64 ∨ c ≠ 1) : KeepsControl s (u.cmpFlag t i c n detail) :=
  Keeps.logRaise (bumpTile (h.putOff (f := R.CMP_TSTAT_FLAGS t) _ (show 0xB0118 + t * 0x40 ≠ 0xC0004 by omega)) n hc htc) 0 t c 2 detail (by decide)
    (show 0x60 + i < 256 by omega)

theorem cmpFail (t l ctx va : Nat) (acc : Acc) (cls : Nat) (e : AccErr) : KeepsControl s (u.cmpFail t l ctx va acc cls e) :=
  h.accFail controlFields_status ..

section
variable {t : Nat} (ht : t < 64)
include ht

theorem layerFault (l : Nat) : KeepsControl s (u.layerFault t l) :=
  cmpFlag ((h.setScan t _).putOff (f := R.CMP_TSTAT_FAULT_LAYERS t) _ (show 0xB0118 + t * 0x40 ≠ 0xC0004 by omega)) 1 l (by decide) (by decide) (Or.inl ht)

theorem classFault : KeepsControl s (u.classFault t) := cmpFlag (h.setScan t _) 1 0 (by decide) (by decide) (Or.inl ht)

theorem residualFault : KeepsControl s (u.residualFault t) := cmpFlag (h.setScan t _) 1 1 (by decide) (by decide) (Or.inl ht)

theorem wbFault : KeepsControl s (u.wbFault t) := cmpFlag (h.setScan t _) 1 0 (by decide) (by decide) (Or.inl ht)

theorem overlayFail (l k : Nat) (y : Layer) (e : Nat × AccErr) : KeepsControl s (u.overlayFail t l k y e).1 :=
  cmpFail (h.layerFault ht l) t l 0 e.1 .read 6 e.2

theorem overlayLine (l k : Nat) (late : Bool) : KeepsControl s (u.overlayLine t l k late).1 := by
  unfold State.overlayLine
  extract_lets y
  split
  · exact h
  split
  · exact h
  split
  · exact h.cmpFlag 1 l (by decide) (by decide) (Or.inl ht)
  split
  · split
    · exact h
    · exact h.overlayFail ht l k _ _
  · rename_i res s1 words _ _ _ _
    have h1 : KeepsControl s s1 := by
      unfold s1
      rcases res with _ | (e | ws)
      · exact h
      · exact (h.residualFault ht).cmpFail ..
      · exact h
    split
    · exact h1
    · exact h1.overlayFail ht l k _ _

theorem fillL0 (k : Nat) (words : List Nat) : KeepsControl s (u.fillL0 t k words).1 := by
  unfold State.fillL0
  extract_lets d
  split
  · exact h
  split
  · exact h
  split
  · exact (h.classFault ht).cmpFail ..
  · extract_lets out miss s1
    have h1 : KeepsControl s s1 := h.bumpTile _ (by decide) (Or.inl ht)
    dsimp only
    split
    · exact h1
    · exact h1.cmpFlag miss 0 (by decide) (by decide) (Or.inl ht)

theorem l0Line (k : Nat) (late : Bool) : KeepsControl s (u.l0Line t k late).1 := by
  unfold State.l0Line
  extract_lets y w fall
  split
  · exact h
  split
  · exact h.setScan t _
  split
  · exact (h.setScan t _).cmpFlag 1 0 (by decide) (by decide) (Or.inl ht)
  split
  · exact ((h.layerFault ht 0).cmpFail ..).setScan t _
  · exact fillL0 (h.setScan t _) ht k _

theorem sampleLayers (k : Nat) (late : List Nat) (ls : List Nat) : KeepsControl s (u.sampleLayers t k late ls).1 := by
  induction ls generalizing u with
  | nil => exact h
  | cons l ls ih =>
    unfold State.sampleLayers
    split
    · exact ih (h.l0Line ht k _)
    split
    · exact ih h
    · exact ih (h.overlayLine ht l k _)

theorem writeBack (k : Nat) (words : List Nat) (full : Bool) : KeepsControl s (u.writeBack t k words full) := by
  unfold State.writeBack
  extract_lets va
  split
  · exact h
  split
  · exact (h.setScan t _).cmpFlag 1 0 (by decide) (by decide) (Or.inl ht)
  split
  · rename_i hw
    exact h.report controlFields_status (State.vwrite_report hw) ((KeepsOtherBlocks.refl u).vwrite hw)
  · exact (h.wbFault ht).cmpFail ..

theorem composeLine (k : Nat) (late : List Nat) : KeepsControl s (u.composeLine t k late) := by
  unfold State.composeLine
  extract_lets base
  split
  · exact (h.setScan t _).writeBack ht k _ _
  · exact ((h.sampleLayers ht k late _).setScan t _).writeBack ht k _ _

theorem setReadyFlag (slot : Nat) (b : Bool) : KeepsControl s (u.setReadyFlag t slot b) := by
  unfold State.setReadyFlag
  refine h.putOff _ ?_
  split
  · exact (show 0x81800 + t * 8 ≠ 0xC0004 by omega)
  · exact (show 0x81804 + t * 8 ≠ 0xC0004 by omega)

end

/-! #### Works and their bands (R82–R91) -/

theorem setSyn (x : SynSt) : KeepsControl s { u with syn := x } := h.same

theorem measureFrame (key : Bool × Nat) (but : Nat) (past : Bool) : KeepsControl s (u.measureFrame key but past) := by
  unfold State.measureFrame
  dsimp only
  split
  · split
    · exact h
    · exact h.setSyn _
  · exact h

theorem passMap (b : Nat) : KeepsControl s (u.passMap b) := by
  unfold State.passMap
  split
  · exact h
  · dsimp only
    split
    · exact (h.setSyn _).setSyn _
    · exact (h.setSyn _).setSyn _

theorem mapLastRec (g : DensRec → DensRec) : KeepsControl s (u.mapLastRec g) := by
  unfold State.mapLastRec
  dsimp only
  split
  · exact h.setSyn _
  · exact h

theorem abandonBand (b : Nat) : KeepsControl s (u.abandonBand b) := by
  have hmap := h.passMap b
  have hlate : KeepsControl s ((u.passMap b).bandLate b) := mapLastRec (hmap.setSyn _) _
  exact measureFrame (hlate.setSyn _) _ _ _

theorem bandCheck {t : Nat} (ht : t < 64) (k : Nat) : KeepsControl s (u.bandCheck t k) := by
  unfold State.bandCheck
  split
  · exact h
  · extract_lets b ok x s1
    have h1 : KeepsControl s s1 := h.setScan t _
    split
    · exact h1
    · exact abandonBand ((h1.setScan t _).cmpFlag 1 0 (by decide) (by decide) (Or.inl ht)) b

theorem compareSums (t : Nat) (writer : Option Nat) (reader : Nat) (whole skip : Bool) : KeepsControl s (u.compareSums t writer reader whole skip) := by
  have hcnt : ∀ n, (R.PNL_CNT_COUNT t n).addr ≠ 0xC0004 := fun n => (show 0xE2000 + t * 0x20 + n * 4 ≠ 0xC0004 by omega)
  unfold State.compareSums
  split
  · exact h
  split
  · exact h.bumpOff (hcnt 1)
  split
  · rename_i w
    have hsums := (h.putOff (f := R.PNL_WSUM_SUM t) w (show 0xE1200 + t * 4 ≠ 0xC0004 by omega)).putOff (f := R.PNL_RSUM_SUM t) reader
      (show 0xE1300 + t * 4 ≠ 0xC0004 by omega)
    dsimp only
    split
    · exact hsums
    · exact ((hsums.putOff (f := R.PNL_TSTAT_CHK_MISMATCH t) 1 (show 0xE1100 + t * 4 ≠ 0xC0004 by omega)).bumpOff (hcnt 0)).logRaise 0 t 0 2 0
        (by decide) (by decide)
  · exact h

theorem leaveSlot {t : Nat} (ht : t < 64) (k : Nat) : KeepsControl s (u.leaveSlot t k) := by
  unfold State.leaveSlot
  split
  · exact h
  · exact (h.compareSums t _ _ _ _).setReadyFlag ht _ _

end Keeps

theorem State.tilesOn_lt {s : State} {t : Nat} (ht : t ∈ s.tilesOn) : t < 64 := List.mem_range.1 (List.mem_filter.1 ht).1

namespace Keeps
variable {s u v : State} (h : KeepsControl s u)
include h

/-- One tile of a line: it is composed if it is sent, and its band's slot is left. -/
theorem composeTile {t : Nat} (ht : t < 64) (k : Nat) (late : List Nat) :
    KeepsControl s ((if (u.bandCheck t k).lineSent t k then (u.bandCheck t k).composeLine t k late
      else (u.bandCheck t k).setScan t { (u.bandCheck t k).scan t with line := [] }).leaveSlot t k) := by
  have hcheck := h.bandCheck ht k
  refine leaveSlot ?_ ht k
  split
  · exact hcheck.composeLine ht k late
  · exact hcheck.setScan t _

theorem composeAll (k : Nat) (late : List (Nat × Nat)) : KeepsControl s (u.composeAll k late) := by
  unfold State.composeAll
  extract_lets was s1 now
  have h1 : KeepsControl s s1 := h.foldl fun t ht s => composeTile (.refl s) (State.tilesOn_lt ht) k _
  split
  · exact h1.scoEvent 6 _
  · exact h1

theorem sendTile (t k : Nat) : KeepsControl s (u.sendTile t k) := by
  unfold State.sendTile
  split
  · exact h
  extract_lets words whole g s1 s2
  have h1 : KeepsControl s s1 := by
    unfold s1
    split
    · exact h.sendStream t _
    · exact h
  have h2 : KeepsControl s s2 := by
    unfold s2
    split
    · exact h1.putOff _ (show 0xE1100 + t * 4 ≠ 0xC0004 by omega)
    · exact h1
  split
  · exact h2
  · exact h2.regionsThrough t k

theorem sendLine (k : Nat) : KeepsControl s (u.sendLine k) := h.foldl fun t _ s => sendTile (.refl s) t k

/-! #### The content shown (R82, R83, R91, R190, R404) -/

theorem dropOld (top : Nat) : KeepsControl s (u.dropOld top) := by
  unfold State.dropOld
  extract_lets old s1
  have h1 : KeepsControl s s1 := h.foldl fun x _ s => measureFrame (.refl s) _ _ _
  exact h1.setSyn _

theorem showBands : KeepsControl s u.showBands := by
  unfold State.showBands
  refine dropOld ?_ _
  exact h.setSco _ rfl

theorem finishFrame (w : SynWork) : KeepsControl s (u.finishFrame w) := h.same

theorem anchor (w : SynWork) : KeepsControl s (u.anchor w) := by
  unfold State.anchor
  split
  · split
    · exact h
    · exact h.setSyn _
  · exact h

theorem closeReady (slot : Nat) : KeepsControl s (u.closeReady slot) := by
  unfold State.closeReady
  split
  · extract_lets s1
    have h1 : KeepsControl s s1 := h.foldRange fun n _ s => (Keeps.refl s).same
    exact ((h1.setSyn _).setSyn _).putOff _
  · exact h

theorem showNext : KeepsControl s u.showNext := by
  unfold State.showNext
  split
  · exact h
  · extract_lets old x1 s1 syn1 s2
    have h1 : KeepsControl s s1 := h.setSco _ rfl
    have h2 : KeepsControl s s2 := by
      unfold s2
      cases old with
      | none => exact h1
      | some o => exact h1.setSyn _
    split
    · rename_i w _
      refine closeReady (anchor (finishFrame ?_ w) w) _
      exact h2.setSco _ rfl
    · exact h2

theorem rearm : KeepsControl s u.rearm := by
  unfold State.rearm
  split
  · exact h.setSco _ rfl
  · exact h

theorem countWaiting : KeepsControl s u.countWaiting :=
  h.foldl fun x _ s => cmpFlag (.refl s) 1 _ (by decide) (by decide) (Or.inr (by decide))

theorem sampleFinfo : KeepsControl s u.sampleFinfo := by
  unfold State.sampleFinfo
  refine putOff (putOff ?_ _) _
  exact h.setSco _ rfl

theorem openShown : KeepsControl s u.openShown := by
  unfold State.openShown
  split
  · exact h.setSyn _
  · split
    · exact h.setSyn _
    · exact h.setSyn _

/-! #### The commit that a frame start arms (R82, R86) -/

theorem armCommit : KeepsControl s u.armCommit := by
  by_cases harmed : u.sco.armed.isSome = true
  · rw [State.armCommit_armed harmed]
    exact h
  · rw [State.armCommit_eq (Option.not_isSome_iff_eq_none.1 harmed)]
    have harm : KeepsControl s (u.armWith u.armPoint.1) :=
      ((h.setSco { u.sco with armed := some u.armPoint.1 } rfl).put R.SCO_STAT_ARMED 1 (by decide)).putOff (f := R.SCO_COMMIT_COMMIT) 1
    split
    · have hraise : KeepsControl s (u.armWith u.armPoint.1).lateRaised := ((harm.putOff _).bumpOff).raise controlFields_status (by decide)
      rw [State.lateCommit_frame]
      exact hraise.same
    · exact harm

/-- The base of a target's ray layer: the low word lies in the upper 24 bits of its register, whichever tile is named. -/
theorem putTarget (t : TileTarget) : KeepsControl s (((u.put (R.CMP_LBASE_LO_ADDR t.tile 0) (t.base / 256)).put (R.CMP_LBASE_HI_ADDR t.tile 0)
    (t.base / 2 ^ 32)).put (R.CMP_LPITCH_PITCH t.tile 0) t.pitch) := by
  have hlow : ∀ g ∈ controlFields, (R.CMP_LBASE_LO_ADDR t.tile 0).apart g = true := by
    intro g hg
    rw [controlFields, List.mem_singleton] at hg
    subst hg
    exact Fld.apart_iff.2 (Or.inr ⟨by decide, Or.inl (show 5 + 2 ≤ 8 by decide)⟩)
  exact ((h.put _ _ hlow).putOff (f := R.CMP_LBASE_HI_ADDR t.tile 0) _ (show 0xB2008 + t.tile * 0x200 + 0 * 0x40 ≠ 0xC0004 by omega)).putOff _
    (show 0xB200C + t.tile * 0x200 + 0 * 0x40 ≠ 0xC0004 by omega)

theorem armWork (k : Nat) (w : SynWork) : KeepsControl s (u.armWork k w) := by
  unfold State.armWork
  extract_lets s1 s2
  have h1 : KeepsControl s s1 := h.foldl fun t _ s => putTarget (.refl s) t
  have h2 : KeepsControl s s2 := (h1.putOff _).putOff _
  exact armCommit (h2.setSco _ rfl)

theorem frameArm : KeepsControl s u.frameArm := by
  unfold State.frameArm
  split
  · exact h.armCommit
  split
  · exact h
  split
  · exact h.armWork _ _
  · exact h

theorem wakePorts : KeepsControl s u.wakePorts := by
  have hwake := h.foldRange (n := 64) (step := fun s t => if s.portState t = 3 then (s.wakePort t).sendDue t else s) fun t _ s => by
    split
    · exact ((Keeps.refl s).wakePort t).sendDue t
    · exact Keeps.refl s
  exact hwake.setSco _ rfl

end Keeps

end Sys2Proof.Machine
end

section
/-! ### Control at a frame start, and where frames stop (R204–R208) -/
namespace Sys2Proof.Machine
open Sys2Proof

namespace Keeps
variable {s u v : State} (h : KeepsControl s u)
include h

theorem testOutcome (seq : Nat) (data : List Nat) : KeepsControl s (u.testOutcome seq false data) :=
  ((h.bumpOff (f := R.HLT_CNT_COUNT 3)).bumpOff (f := R.HLT_CNT_COUNT 4)).log controlFields_status 0 0 0x80 3 seq (by decide)

end Keeps

/-- After control has passed, the rest of a frame start leaves it. -/
theorem State.beginFrame_keepsControl (s : State) (frame : Nat) (rep : Bool) :
    KeepsControl (s.switchCommit rep).1.passControl (s.beginFrame frame rep) := by
  unfold State.beginFrame
  extract_lets c r s1 s2 s3 s4 s5 s6 x6 s8 s9 s10 s11 s12 s13 s14 s15 s16 s17 l0 l1 x17 s18 s19 s20
  have h2 : KeepsControl s1 s2 := by
    unfold s2
    split
    · exact (Keeps.refl s1).wakePorts
    · exact .refl s1
  have h4 : KeepsControl s1 s4 := ((h2.putOff _).putOff _).putOff _
  have h5 : KeepsControl s1 s5 := ((h4.putOff _).put R.SCO_STAT_RUNNING 1 (by decide)).put R.SCO_STAT_VBLANK 0 (by decide)
  have h8 : KeepsControl s1 s8 := Keeps.setSco h5.bumpOff _ rfl
  have h9 : KeepsControl s1 s9 := by
    unfold s9
    split
    · exact h8.showBands
    · exact h8.showNext
  have h12 : KeepsControl s1 s12 := (((h9.rearm.countWaiting.sampleFinfo.switchRepeat r).ceilTake.openShown).putOff _).bklFrame
  have h14 : KeepsControl s1 s14 := h12.gleanerStep.holdFrame.foldRange fun t _ s => (Keeps.refl s).portFrameStart r _ t
  have h15 : KeepsControl s1 s15 := by
    unfold s15
    split
    · exact h14
    · exact h14.setOpensIn _ _
  have h18 : KeepsControl s1 s18 := Keeps.setSco ((h15.putOff _).scoEvent 2 0) _ rfl
  have h19 : KeepsControl s1 s19 := (h18.composeAll 0 l0).sendLine 0
  refine Keeps.frameArm ?_
  unfold s20
  split
  · exact h19.composeAll 1 l1
  · exact h19

/-- R189, R193. In LOCKED a start that is due begins its frame. -/
theorem exec_frameStart_due {s : State} {f : Nat} (hscan : s.canScan = true) (hclass : s.lockedClass = true) (hdue : s.sco.due = some (some f)) :
    exec .frameStart s = .next ((s.putPhaseError s.sco.edgeAt).beginFrame f s.lateRepeat) := by
  show execFrameStart s = _
  rw [execFrameStart, hscan, hclass, hdue]
  rfl

theorem State.putPhaseError_frame (s : State) (edge : Option Nat) : OnlyRegs s (s.putPhaseError edge) := by
  unfold State.putPhaseError
  split
  · exact .put (.refl s) _ _
  · exact .refl s

theorem State.get_seq_putPhaseError (s : State) (edge : Option Nat) : (s.putPhaseError edge).get R.SCO_STAT_SEQ = s.get R.SCO_STAT_SEQ := by
  unfold State.putPhaseError
  split
  · exact State.get_put_apart _ _ (by decide)
  · rfl

/-- R204. No commit is taken at a frame start that follows no switch-over. -/
theorem State.switchCommit_none {s : State} (h : s.sco.hold ≠ some 2) (rep : Bool) : s.switchCommit rep = (s, rep) := if_pos h

/-- The control that a due frame start leaves is the one that passing it gives. -/
theorem State.beginFrame_passes {s : State} (hhold : s.sco.hold ≠ some 2) (edge : Option Nat) (f : Nat) (rep : Bool) :
    KeepsControl (s.putPhaseError edge).passControl ((s.putPhaseError edge).beginFrame f rep) := by
  have hsco : (s.putPhaseError edge).sco = s.sco := by rw [s.putPhaseError_frame edge]
  have hkeeps := (s.putPhaseError edge).beginFrame_keepsControl f rep
  rwa [State.switchCommit_none (by rw [hsco]; exact hhold)] at hkeeps

section
variable {s : State} (hseq : s.get R.SCO_STAT_SEQ = 1)
include hseq

/-- R206. The frame that A runs in step begins. -/
theorem State.passControl_step (h : s.sco.transfer = some 0) : s.passControl = s.setSco { s.sco with transfer := some 1 } := by
  simp [State.passControl, hseq, h]

/-- R206, R207. A takes control. -/
theorem State.passControl_return (h : s.sco.transfer = some 2) : s.passControl = s.returnToA := by
  simp [State.passControl, hseq, h]

end

theorem State.returnToA_control (s : State) : s.returnToA.get R.SCO_STAT_SEQ = 0 ∧ s.returnToA.sco.seqA = .fit ∧ s.returnToA.sco.transfer = none := by
  unfold State.returnToA
  extract_lets tested x1 s1 s2
  have hseq : s1.get R.SCO_STAT_SEQ = 0 := State.get_put_zero _ _ (by decide)
  have h2 : KeepsControl s1 s2 := (Keeps.refl s1).bumpOff
  have hcontrol : ∀ u, KeepsControl s1 u → u.get R.SCO_STAT_SEQ = 0 ∧ u.sco.seqA = .fit ∧ u.sco.transfer = none := fun u hu =>
    ⟨(hu.fields _ (by decide)).trans hseq, congrArg Prod.snd hu.sco, congrArg Prod.fst hu.sco⟩
  split
  · exact hcontrol _ (h2.testOutcome _ _)
  · exact hcontrol _ h2

end Sys2Proof.Machine
end

section
/-! ### The sequencers pass control, and O33 -/
namespace Sys2Proof.Machine
open Sys2Proof

/-- Where frames stop, SEQ and all of scan-out's own state but the frame and the lanes' hold are as before. -/
theorem State.stopFrames_keeps {α : Type} {p : ScoSt → α} (s : State) (reason : Nat) (hhold : ∀ x : ScoSt, p { x with hold := some reason, idle := false } = p x)
    (hframe : ∀ x : ScoSt, p { x with inFrame := false, line := 0, blank := false, due := none } = p x) : Keeps controlFields p s (s.stopFrames reason) := by
  unfold State.stopFrames
  extract_lets s1 b1 s2 x2 s3
  have h1 : Keeps controlFields p s s1 := (((Keeps.refl s).regionsBack).holdCut).holdPorts reason hhold
  have h2 : Keeps controlFields p s s2 := h1.same
  have h3 : Keeps controlFields p s s3 := Keeps.putOff (h2.setSco _ (hframe _)) _
  exact (((h3.restartSets.put _ _ (by decide)).put _ _ (by decide)).putOff _).putOff _

theorem State.stopFrames_stops (s : State) (reason : Nat) : (s.stopFrames reason).sco.inFrame = false ∧ (s.stopFrames reason).sco.hold = some reason ∧
    (s.stopFrames reason).get R.SCO_STAT_RUNNING = 0 := by
  unfold State.stopFrames
  refine ⟨rfl, rfl, ?_⟩
  simp (disch := decide) only [State.get_put_apart, State.get_put_zero]

/-- R205. B has failed, and no sequencer has control. -/
def State.lostB (s : State) : State :=
  (s.setSco { s.sco with seqA := if s.sco.seqA = .fit then .testing else s.sco.seqA, seqB := .failed, transfer := none }).put R.SCO_STAT_SEQ 2

theorem State.lostB_lost (s : State) : s.lostB.get R.SCO_STAT_SEQ = 2 ∧ s.lostB.sco.seqB = .failed ∧ s.lostB.sco.inFrame = s.sco.inFrame := by
  refine ⟨(State.get_put_same _ _ _ (by decide)).trans (by decide), ?_, ?_⟩ <;>
  · rw [State.lostB, State.put_sco]
    rfl

theorem State.noSequencer_eq (s : State) : s.noSequencer = (s.lostB.log 12 0 0 0x8F 2 0).raise Irq.SCO_NOSEQ := by
  rw [State.noSequencer, State.lostB]

/-- R205. With no sequencer in control, B has failed, and it is reported. -/
theorem State.noSequencer_none (s : State) : s.noSequencer.get R.SCO_STAT_SEQ = 2 ∧ s.noSequencer.sco.seqB = .failed ∧
    s.noSequencer.get (causeFld Irq.SCO_NOSEQ) = 1 ∧ s.noSequencer.sco.inFrame = s.sco.inFrame := by
  obtain ⟨hseq, hfailed, hframe⟩ := s.lostB_lost
  obtain ⟨hfields, hsco⟩ : Keeps controlFields id s.lostB s.noSequencer := by
    rw [s.noSequencer_eq]
    exact (Keeps.refl s.lostB).logRaise 0 0 0x8F 2 0 (by decide) (by decide)
  rw [id, id] at hsco
  refine ⟨(hfields _ (by decide)).trans hseq, by rw [hsco, hfailed], ?_, by rw [hsco, hframe]⟩
  rw [s.noSequencer_eq]
  exact State.raise_sets _ (by decide)

/-! #### The sequencers' instructions -/

/-- R204. A leaves for its test. -/
def State.outA (s : State) : State := s.setSco { s.sco with seqA := .testing, transfer := none }

theorem State.outA_out (s : State) : s.outA.sco.seqA = .testing ∧ s.outA.sco.transfer = none ∧ s.outA.sco.inFrame = s.sco.inFrame ∧
    s.outA.sco.hold = s.sco.hold ∧ s.outA.sco.armed = s.sco.armed ∧ ∀ g, s.outA.get g = s.get g := ⟨rfl, rfl, rfl, rfl, rfl, fun _ => rfl⟩

/-- R416. The number of the log entry that A's test answers. -/
def State.noteSeq (u s : State) : State := { u with hlt := { s.hlt with seqA := s.lastSeq } }

theorem State.get_noteSeq (u s : State) (g : Fld) : (u.noteSeq s).get g = u.get g := rfl
theorem State.sco_noteSeq (u s : State) : (u.noteSeq s).sco = u.sco := rfl
theorem State.act_noteSeq (u s : State) : (u.noteSeq s).act = u.act := rfl

section
variable {s : State}

theorem exec_sequencerFault_control (hseq : s.get R.SCO_STAT_SEQ = 0) (hfit : s.sco.seqA = .fit) :
    exec .sequencerFault s = .next (s.stopFrames 2).outA := by
  show execSequencerFault s = _
  rw [execSequencerFault, if_pos ⟨hseq, hfit⟩]
  rfl

theorem exec_sequencerFault_standby (hseq : s.get R.SCO_STAT_SEQ = 1) (hfit : s.sco.seqA = .fit ∨ s.sco.seqA = .passed) :
    exec .sequencerFault s = .next { s with sco := { s.sco with seqA := .testing, transfer := none } } := by
  show execSequencerFault s = _
  rw [execSequencerFault, if_neg (by rw [hseq]; simp), if_pos ⟨hseq, hfit⟩]
  rfl

theorem exec_switchover_idle (ok : Bool) (h : s.get R.SCO_STAT_SEQ ≠ 0 ∨ s.sco.seqA = .fit) : exec (.switchover ok) s = .next s := by
  show execSwitchover ok s = _
  rw [execSwitchover, if_pos h]

/-- R204. B has control. -/
def State.giveB (s : State) : State := (s.setSco { s.sco with seqB := .inControl, provenAt := s.ptpNs }).put R.SCO_STAT_SEQ 1

/-- R204. The switch-over is counted, logged and raised. -/
def State.noteSwitchover (s : State) : State := ((s.bump (R.SCO_CNT_COUNT 7)).log 12 0 0 7 2 0).raise Irq.SCO_SWITCHOVER

theorem exec_switchover_toB (hseq : s.get R.SCO_STAT_SEQ = 0) (hfit : s.sco.seqA ≠ .fit) (hB : s.sco.seqB ≠ .failed) :
    exec (.switchover true) s = .next ((s.giveB.noteSwitchover.substNote [12, 0, 0]).noteSeq s.giveB.noteSwitchover) := by
  show execSwitchover true s = _
  rw [execSwitchover, if_neg (by simp [hseq, hfit]), if_neg (by simp [hB])]
  rfl

theorem exec_switchover_toNone {ok : Bool} (hseq : s.get R.SCO_STAT_SEQ = 0) (hfit : s.sco.seqA ≠ .fit) (hB : ok = false ∨ s.sco.seqB = .failed) :
    exec (.switchover ok) s = .next ((s.holdPorts 3).noSequencer.noteSeq (s.holdPorts 3).noSequencer) := by
  show execSwitchover ok s = _
  rw [execSwitchover, if_neg (by simp [hseq, hfit]), if_pos (by simpa using hB)]
  rfl

theorem exec_sequencerBFault_idle (hseq : s.get R.SCO_STAT_SEQ ≠ 1) : exec .sequencerBFault s = .next s := by
  show execSequencerBFault s = _
  rw [execSequencerBFault, if_pos hseq]

theorem exec_sequencerBFault_control (hseq : s.get R.SCO_STAT_SEQ = 1) : exec .sequencerBFault s = .next (s.stopFrames 3).noSequencer := by
  show execSequencerBFault s = _
  rw [execSequencerBFault, if_neg (by rw [hseq]; decide)]

theorem exec_sequencerSelfTest_idle (pass : Bool) (h : s.sco.seqA ≠ .testing) (h' : s.sco.seqA ≠ .failed) : exec (.sequencerSelfTest pass) s = .next s := by
  show execSequencerSelfTest pass s = _
  rw [execSequencerSelfTest, if_pos ⟨h, h'⟩]

/-- The transfer that a passed self-test of A starts: its in-step return, with AUTO_RETURN and without FORCE_B. -/
def State.autoReturn (s : State) : Option Nat :=
  if s.get R.SCO_STAT_SEQ = 1 ∧ s.on R.SCO_SEQCTL_AUTO_RETURN = true ∧ s.on R.SCO_SEQCTL_FORCE_B = false then some 0 else none

theorem exec_sequencerSelfTest_passed (h : s.sco.seqA = .testing ∨ s.sco.seqA = .failed) :
    exec (.sequencerSelfTest true) s = .next { s with sco := { s.sco with seqA := .passed, transfer := s.autoReturn } } := by
  show execSequencerSelfTest true s = _
  rw [execSequencerSelfTest, if_neg (by rcases h with h | h <;> simp [h]), if_pos rfl]
  simp [State.setSco, State.autoReturn, and_assoc]

/-- R416. A is out. -/
def State.failA (s : State) : State := s.setSco { s.sco with seqA := .failed, transfer := none }

theorem exec_sequencerSelfTest_first (h : s.sco.seqA = .testing) :
    exec (.sequencerSelfTest false) s = .next (s.failA.testOutcome s.failA.hlt.seqA true [12, 0, 0]) := by
  show execSequencerSelfTest false s = _
  rw [execSequencerSelfTest, if_neg (by simp [h]), h]
  rfl

theorem exec_sequencerSelfTest_again (h : s.sco.seqA = .failed) : exec (.sequencerSelfTest false) s = .next s.failA := by
  show execSequencerSelfTest false s = _
  rw [execSequencerSelfTest, if_neg (by simp [h]), h]
  rfl

theorem exec_sequencerReturn_idle (same : Bool) (h : s.get R.SCO_STAT_SEQ ≠ 1 ∨ s.sco.transfer ≠ some 1) : exec (.sequencerReturn same) s = .next s := by
  show execSequencerReturn same s = _
  rw [execSequencerReturn, if_pos h]

theorem exec_sequencerReturn_same (hseq : s.get R.SCO_STAT_SEQ = 1) (h : s.sco.transfer = some 1) :
    exec (.sequencerReturn true) s = .next { s with sco := { s.sco with transfer := some 2 } } := by
  show execSequencerReturn true s = _
  rw [execSequencerReturn, if_neg (by simp [hseq, h])]
  rfl

/-- R206. A's return has failed, and it is tested again. -/
def State.failReturn (s : State) : State :=
  ((s.setSco { s.sco with transfer := none, seqA := .testing }).bump (R.SCO_CNT_COUNT 9)).raise Irq.SCO_RETURN_FAIL

theorem exec_sequencerReturn_differ (hseq : s.get R.SCO_STAT_SEQ = 1) (h : s.sco.transfer = some 1) :
    exec (.sequencerReturn false) s = .next s.failReturn := by
  show execSequencerReturn false s = _
  rw [execSequencerReturn, if_neg (by simp [hseq, h]), if_neg (by decide), State.failReturn]

end

/-! #### Their effects -/

/-- R204. What a switch-over to B leaves and sets. -/
theorem State.noteSwitchover_notes (s : State) : s.noteSwitchover.get R.SCO_STAT_SEQ = s.get R.SCO_STAT_SEQ ∧ s.noteSwitchover.sco = s.sco ∧
    s.noteSwitchover.get (R.SCO_CNT_COUNT 7) = (s.get (R.SCO_CNT_COUNT 7) + 1) % 2 ^ 32 ∧ s.noteSwitchover.get (causeFld Irq.SCO_SWITCHOVER) = 1 ∧
    s.noteSwitchover.act = s.act ∧ s.noteSwitchover.frameNo = s.frameNo := by
  have hkeeps : KeepsOtherBlocks (s.bump (R.SCO_CNT_COUNT 7)) s.noteSwitchover := (State.log_keeps _ 0 0 7 2 0 (by decide)).raise (by decide)
  have hrep : OnlyReport (s.bump (R.SCO_CNT_COUNT 7)) s.noteSwitchover := (State.log_report ..).trans (State.raise_report _ _)
  refine ⟨?_, by rw [hrep.1]; rfl, ?_, State.raise_sets _ (by decide), by rw [hrep.1]; rfl, ?_⟩
  · rw [hkeeps.get (by decide), State.get_bump_apart _ (by decide)]
  · rw [hkeeps.get (by decide), State.get_bump_same _ _ (by decide)]
    rfl
  · rw [State.frameNo, hkeeps.get (by decide), State.get_bump_apart _ (by decide)]
    rfl

theorem State.get_ledgerAsk (s : State) (cls : Nat) (data : List Nat) (g : Fld) : (s.ledgerAsk cls data).get g = s.get g := rfl
theorem State.sco_substNote (s : State) (data : List Nat) : (s.substNote data).sco = s.sco := rfl
theorem State.act_substNote (s : State) (data : List Nat) : (s.substNote data).act = s.act := rfl

theorem State.get_substNote (s : State) (data : List Nat) {g : Fld} (hg : (R.HLT_CNT_COUNT 6).apart g = true) : (s.substNote data).get g = s.get g := by
  rw [State.substNote, State.get_ledgerAsk, State.get_bump_apart _ hg]

/-- R204. What a switch-over to B leaves and sets, all told. -/
def State.toB (s : State) : State := (s.giveB.noteSwitchover.substNote [12, 0, 0]).noteSeq s.giveB.noteSwitchover

theorem State.get_toB (s : State) {g : Fld} (hg : (R.HLT_CNT_COUNT 6).apart g = true) : s.toB.get g = s.giveB.noteSwitchover.get g := by
  rw [State.toB, State.get_noteSeq, State.get_substNote _ _ hg]

theorem State.toB_control (s : State) : s.toB.get R.SCO_STAT_SEQ = 1 ∧ s.toB.sco.seqB = .inControl ∧
    s.toB.get (R.SCO_CNT_COUNT 7) = (s.get (R.SCO_CNT_COUNT 7) + 1) % 2 ^ 32 ∧ s.toB.get (causeFld Irq.SCO_SWITCHOVER) = 1 ∧
    s.toB.sco.armed = s.sco.armed ∧ s.toB.act = s.act ∧ s.toB.frameNo = s.frameNo := by
  obtain ⟨hcontrol, hsco, hcount, hraised, hact, hframe⟩ := s.giveB.noteSwitchover_notes
  have hgive : s.giveB.get R.SCO_STAT_SEQ = 1 := (State.get_put_same _ _ _ (by decide)).trans (by decide)
  have hother : ∀ g, R.SCO_STAT_SEQ.apart g = true → s.giveB.get g = s.get g := fun g hg => State.get_put_apart _ _ hg
  have hsco' : s.toB.sco = s.giveB.sco := by rw [State.toB, State.sco_noteSeq, State.sco_substNote, hsco]
  have hact' : s.toB.act = s.act := by rw [State.toB, State.act_noteSeq, State.act_substNote, hact]; rfl
  have hframe' : s.toB.frameNo = s.frameNo := by
    rw [State.frameNo, s.get_toB (by decide)]
    exact hframe.trans (hother _ (by decide))
  rw [s.get_toB (by decide), s.get_toB (by decide), s.get_toB (by decide), hsco', hact', hframe']
  rw [hother _ (by decide)] at hcount
  exact ⟨hcontrol.trans hgive, rfl, hcount, hraised, rfl, rfl, rfl⟩

/-- R416. A lasting fault of A is reported. -/
theorem State.lastingFault_reports (s : State) (seq : Nat) (data : List Nat) : (s.lastingFault seq data).sco = s.sco ∧
    (s.lastingFault seq data).get R.HLT_STAT_LASTING = 1 ∧ (s.lastingFault seq data).get (causeFld Irq.HLT_LASTING) = 1 := by
  have hlog : Keeps controlFields id s ((s.bump (R.HLT_CNT_COUNT 5)).log 21 0 0 0x81 4 seq) :=
    ((Keeps.refl s).bumpOff).log controlFields_status 0 0 0x81 4 seq (by decide)
  unfold State.lastingFault
  generalize (s.bump (R.HLT_CNT_COUNT 5)).log 21 0 0 0x81 4 seq = u at hlog ⊢
  have hkeeps := ((hlog.ledgerAsk 0x20 data).putOff (f := R.HLT_STAT_LASTING) 1).raise controlFields_status (c := Irq.HLT_LASTING) (by decide)
  refine ⟨hkeeps.sco, ?_, State.raise_sets _ (by decide)⟩
  rw [State.get_raise_other _ (by decide) (by decide), State.get_put_same _ _ _ (by decide)]
  rfl

theorem State.testOutcome_lasting (s : State) (seq : Nat) (data : List Nat) :
    s.testOutcome seq true data = (s.bump (R.HLT_CNT_COUNT 3)).lastingFault seq data := by
  rw [State.testOutcome, if_pos rfl]

/-- R416. What the first failure of A's test leaves. -/
def State.failTest (s : State) : State := (s.failA.bump (R.HLT_CNT_COUNT 3)).lastingFault s.failA.hlt.seqA [12, 0, 0]

theorem State.failTest_reports (s : State) : s.failTest.sco = { s.sco with seqA := .failed, transfer := none } ∧
    s.failTest.get R.HLT_STAT_LASTING = 1 ∧ s.failTest.get (causeFld Irq.HLT_LASTING) = 1 :=
  State.lastingFault_reports _ _ _

theorem State.failReturn_fails (s : State) : s.failReturn.sco = { s.sco with transfer := none, seqA := .testing } ∧
    s.failReturn.get R.SCO_STAT_SEQ = s.get R.SCO_STAT_SEQ ∧ s.failReturn.get (R.SCO_CNT_COUNT 9) = (s.get (R.SCO_CNT_COUNT 9) + 1) % 2 ^ 32 ∧
    s.failReturn.get (causeFld Irq.SCO_RETURN_FAIL) = 1 := by
  unfold State.failReturn
  refine ⟨by rw [State.raise_frame]; rfl, ?_, ?_, State.raise_sets _ (by decide)⟩
  · rw [State.get_raise_other _ (by decide) (by decide), State.get_bump_apart _ (by decide)]
    rfl
  · rw [State.get_raise_other _ (by decide) (by decide), State.get_bump_same _ _ (by decide)]
    rfl

/-! #### FORCE_B (R207) -/

theorem State.forceB_frame (s : State) (f : Fld) (v : Nat) :
    (s.put f v).forceB = { s with regs := (s.put f v).forceB.regs, sco := { s.sco with transfer := (s.put f v).forceB.sco.transfer } } := by
  unfold State.forceB
  split_ifs <;> rfl

theorem State.word_forceB (s : State) (a : Nat) : s.forceB.word a = s.word a := by
  unfold State.forceB
  split_ifs <;> rfl

theorem State.get_forceB (s : State) (g : Fld) : s.forceB.get g = s.get g := by rw [State.get, s.word_forceB, State.get]

section
variable {s : State}

/-- Set while A is in control and both are fit, it starts a transfer to B. -/
theorem State.forceB_starts (hf : s.on R.SCO_SEQCTL_FORCE_B = true) (hseq : s.get R.SCO_STAT_SEQ = 0) (hB : s.sco.seqB ≠ .failed) (hA : s.sco.seqA = .fit)
    (ht : s.sco.transfer = none) : s.forceB.sco.transfer = some 0 := by
  simp [State.forceB, hf, hseq, hB, hA, ht, State.setSco]

/-- Set while B is in control, it cancels a return. -/
theorem State.forceB_cancels (hf : s.on R.SCO_SEQCTL_FORCE_B = true) (hseq : s.get R.SCO_STAT_SEQ ≠ 0) : s.forceB.sco.transfer = none := by
  simp [State.forceB, hf, hseq, State.setSco]

/-- Cleared while B is in control and A may take it, it starts A's return. -/
theorem State.forceB_returns (hf : s.on R.SCO_SEQCTL_FORCE_B = false) (hseq : s.get R.SCO_STAT_SEQ = 1) (hA : s.sco.seqA = .fit ∨ s.sco.seqA = .passed)
    (ht : s.sco.transfer = none) : s.forceB.sco.transfer = some 0 := by
  simp [State.forceB, hf, hseq, hA, ht, State.setSco]

end

/-- Settles O33: the sequencers' faults, tests and returns, the switch-over, FORCE_B and the frame starts pass control as they are to. -/
theorem sequencersPassControl : Obligations.SequencersPassControl := by
  unfold Obligations.SequencersPassControl
  refine ⟨fun s hseq hfit => ?fault, fun s hseq hfit => exec_sequencerFault_standby hseq hfit, fun s ok h => exec_switchover_idle ok h,
    fun s hseq hfit hB => ?toB, fun s ok hseq hfit hB => ?toNone, fun s hseq => exec_sequencerBFault_idle hseq, fun s hseq => ?bFault,
    fun s pass h h' => exec_sequencerSelfTest_idle pass h h', fun s h => ⟨exec_sequencerSelfTest_passed h, ?testFails⟩,
    fun s same h => exec_sequencerReturn_idle same h, fun s hseq h => ⟨exec_sequencerReturn_same hseq h, ?differs⟩, fun s f => ?force,
    fun s f hscan hclass hdue hhold hseq => ?starts⟩
  case fault =>
    obtain ⟨hframe, hhold, hrunning⟩ := s.stopFrames_stops 2
    have hkept := s.stopFrames_keeps (p := ScoSt.armed) 2 (fun _ => rfl) fun _ => rfl
    obtain ⟨hout, htransfer, hframe', hhold', harmed, hget⟩ := (s.stopFrames 2).outA_out
    exact ⟨_, exec_sequencerFault_control hseq hfit, hout, htransfer, hframe'.trans hframe, (hget _).trans hrunning,
      (hget _).trans ((hkept.fields _ (by decide)).trans hseq), hhold'.trans hhold, harmed.trans hkept.sco⟩
  case toB =>
    exact ⟨s.toB, exec_switchover_toB hseq hfit hB, s.toB_control⟩
  case toNone =>
    obtain ⟨hcontrol, hfailed, hraised, -⟩ := (s.holdPorts 3).noSequencer_none
    refine ⟨_, exec_switchover_toNone hseq hfit hB, ?_⟩
    rw [State.get_noteSeq, State.get_noteSeq, State.sco_noteSeq]
    exact ⟨hcontrol, hfailed, hraised⟩
  case bFault =>
    obtain ⟨hcontrol, hfailed, hraised, hframe⟩ := (s.stopFrames 3).noSequencer_none
    exact ⟨_, exec_sequencerBFault_control hseq, hcontrol, hfailed, hraised, hframe.trans (s.stopFrames_stops 3).1⟩
  case testFails =>
    rcases h with h | h
    · obtain ⟨hsco, hlasting, hraised⟩ := s.failTest_reports
      refine ⟨s.failTest, ?_, hsco, fun h' => ?_, fun _ => ⟨hlasting, hraised⟩⟩
      · rw [exec_sequencerSelfTest_first h, State.testOutcome_lasting, State.failTest]
      · rw [h] at h'
        cases h'
    · refine ⟨s.failA, exec_sequencerSelfTest_again h, rfl, fun _ => rfl, fun h' => ?_⟩
      rw [h] at h'
      cases h'
  case differs =>
    obtain ⟨hsco, hcontrol, hcount, hraised⟩ := s.failReturn_fails
    exact ⟨_, exec_sequencerReturn_differ hseq h, hsco, hcontrol.trans hseq, hcount, hraised⟩
  case force =>
    have hother : ∀ g, R.SCO_SEQCTL_FORCE_B.apart g = true → (s.put R.SCO_SEQCTL_FORCE_B (b2n f)).get g = s.get g := fun g hg => State.get_put_apart _ _ hg
    have hon : (s.put R.SCO_SEQCTL_FORCE_B (b2n f)).on R.SCO_SEQCTL_FORCE_B = f := State.on_put_bit _ (by decide) rfl f
    have hword := fun a => (s.put R.SCO_SEQCTL_FORCE_B (b2n f)).word_forceB a
    have hset : (s.put R.SCO_SEQCTL_FORCE_B (b2n f)).get R.SCO_SEQCTL_FORCE_B = b2n f := (State.get_put_same _ _ _ (by decide)).trans (by cases f <;> rfl)
    refine ⟨(s.put R.SCO_SEQCTL_FORCE_B (b2n f)).forceB, rfl, (State.get_forceB _ _).trans hset, fun a ha => (hword a).trans ?_, ?_,
      fun hf hseq hB hA ht => ?_, fun hf hseq => ?_, fun hf hseq hA ht => ?_⟩
    · exact State.word_put_other _ _ _ (by simpa using ha)
    · exact s.forceB_frame R.SCO_SEQCTL_FORCE_B (b2n f)
    · exact State.forceB_starts (hon.trans hf) ((hother _ (by decide)).trans hseq) hB hA ht
    · exact State.forceB_cancels (hon.trans hf) (by rw [hother _ (by decide)]; exact hseq)
    · exact State.forceB_returns (hon.trans hf) ((hother _ (by decide)).trans hseq) hA ht
  case starts =>
    have hsco : (s.putPhaseError s.sco.edgeAt).sco = s.sco := by rw [s.putPhaseError_frame]
    have hseq' := (s.get_seq_putPhaseError s.sco.edgeAt).trans hseq
    obtain ⟨hfields, hpart⟩ := State.beginFrame_passes hhold s.sco.edgeAt f s.lateRepeat
    have hcontrol := hfields _ (List.mem_singleton_self _)
    refine ⟨fun ht => ⟨_, exec_frameStart_due hscan hclass hdue, ?_⟩, fun ht => ⟨_, exec_frameStart_due hscan hclass hdue, ?_⟩⟩
    · rw [State.passControl_step hseq' (by rw [hsco]; exact ht)] at hcontrol hpart
      exact ⟨hcontrol.trans hseq', congrArg Prod.fst hpart⟩
    · rw [State.passControl_return hseq' (by rw [hsco]; exact ht)] at hcontrol hpart
      obtain ⟨hzero, hA, htransfer⟩ := (s.putPhaseError s.sco.edgeAt).returnToA_control
      exact ⟨hcontrol.trans hzero, (congrArg Prod.snd hpart).trans hA, (congrArg Prod.fst hpart).trans htransfer⟩

end Sys2Proof.Machine
end
